-- ==== Sys2Proof/Syntax.lean ====
section
/-! DEFINITION. The instruction set of the Palcen PC-6600 as one inductive: one constructor per row of the opcode table
(R47 gives the map; R39 to R45 the forms). The first argument `m` of an instruction is its switch marker S (R27). Register
fields keep the width the encoding gives them: 6 bits for x registers, 5 for v registers, 3 for predicates, 4 for accumulator
tiles. A literal form (R45) is a constructor of its own. The rows after `slogq` are the acts of the part's units and of the
outside world (spec file 95_what_each_step_holds.md); their arguments say where they happen and what they carry. -/
namespace Sys2Proof

/-- What an AMO with release order carries (R214 to R216): its release number, the store count it waits for, and flow marks. -/
structure AmoRel where
  num : BitVec 32
  count : BitVec 32
  marks : List (Nat × Nat)
  deriving DecidableEq, Repr
/-- The numbering of a remote access (R213 to R216): epoch, store number, and what release order adds. -/
structure AccessTag where
  epoch : BitVec 8
  num : BitVec 32
  rel : Option AmoRel
  deriving DecidableEq, Repr

/-- One instruction of a firing, or one act of a unit or of the outside. -/
inductive Instr where
  | nop (m : Bool)
  | align (m : Bool) (n : BitVec 12)
  | endFiring (m : Bool)
  | yield (m : Bool)
  | add (m : Bool) (d : BitVec 6) (a : BitVec 6) (b : BitVec 6)
  | sub (m : Bool) (d : BitVec 6) (a : BitVec 6) (b : BitVec 6)
  | mul (m : Bool) (d : BitVec 6) (a : BitVec 6) (b : BitVec 6)
  | mulh (m : Bool) (d : BitVec 6) (a : BitVec 6) (b : BitVec 6)
  | mulhn (m : Bool) (d : BitVec 6) (a : BitVec 6) (b : BitVec 6)
  | div (m : Bool) (d : BitVec 6) (a : BitVec 6) (b : BitVec 6)
  | divn (m : Bool) (d : BitVec 6) (a : BitVec 6) (b : BitVec 6)
  | rem (m : Bool) (d : BitVec 6) (a : BitVec 6) (b : BitVec 6)
  | remn (m : Bool) (d : BitVec 6) (a : BitVec 6) (b : BitVec 6)
  | min (m : Bool) (d : BitVec 6) (a : BitVec 6) (b : BitVec 6)
  | max (m : Bool) (d : BitVec 6) (a : BitVec 6) (b : BitVec 6)
  | minn (m : Bool) (d : BitVec 6) (a : BitVec 6) (b : BitVec 6)
  | maxn (m : Bool) (d : BitVec 6) (a : BitVec 6) (b : BitVec 6)
  | slt (m : Bool) (d : BitVec 6) (a : BitVec 6) (b : BitVec 6)
  | sltn (m : Bool) (d : BitVec 6) (a : BitVec 6) (b : BitVec 6)
  | and (m : Bool) (d : BitVec 6) (a : BitVec 6) (b : BitVec 6)
  | or (m : Bool) (d : BitVec 6) (a : BitVec 6) (b : BitVec 6)
  | xor (m : Bool) (d : BitVec 6) (a : BitVec 6) (b : BitVec 6)
  | andn (m : Bool) (d : BitVec 6) (a : BitVec 6) (b : BitVec 6)
  | orn (m : Bool) (d : BitVec 6) (a : BitVec 6) (b : BitVec 6)
  | sll (m : Bool) (d : BitVec 6) (a : BitVec 6) (b : BitVec 6)
  | srl (m : Bool) (d : BitVec 6) (a : BitVec 6) (b : BitVec 6)
  | sra (m : Bool) (d : BitVec 6) (a : BitVec 6) (b : BitVec 6)
  | rol (m : Bool) (d : BitVec 6) (a : BitVec 6) (b : BitVec 6)
  | ror (m : Bool) (d : BitVec 6) (a : BitVec 6) (b : BitVec 6)
  | clz (m : Bool) (w : BitVec 2) (d : BitVec 6) (a : BitVec 6)
  | ffs (m : Bool) (w : BitVec 2) (d : BitVec 6) (a : BitVec 6)
  | popc (m : Bool) (w : BitVec 2) (d : BitVec 6) (a : BitVec 6)
  | brev (m : Bool) (w : BitVec 2) (d : BitVec 6) (a : BitVec 6)
  | addi (m : Bool) (d : BitVec 6) (a : BitVec 6) (imm : BitVec 10)
  | addiLit (m : Bool) (d : BitVec 6) (a : BitVec 6) (lit : BitVec 64)
  | andi (m : Bool) (d : BitVec 6) (a : BitVec 6) (imm : BitVec 10)
  | andiLit (m : Bool) (d : BitVec 6) (a : BitVec 6) (lit : BitVec 64)
  | ori (m : Bool) (d : BitVec 6) (a : BitVec 6) (imm : BitVec 10)
  | oriLit (m : Bool) (d : BitVec 6) (a : BitVec 6) (lit : BitVec 64)
  | xori (m : Bool) (d : BitVec 6) (a : BitVec 6) (imm : BitVec 10)
  | xoriLit (m : Bool) (d : BitVec 6) (a : BitVec 6) (lit : BitVec 64)
  | slti (m : Bool) (d : BitVec 6) (a : BitVec 6) (imm : BitVec 10)
  | sltiLit (m : Bool) (d : BitVec 6) (a : BitVec 6) (lit : BitVec 64)
  | slli (m : Bool) (d : BitVec 6) (a : BitVec 6) (amt : BitVec 6)
  | srli (m : Bool) (d : BitVec 6) (a : BitVec 6) (amt : BitVec 6)
  | srai (m : Bool) (d : BitVec 6) (a : BitVec 6) (amt : BitVec 6)
  | limm (m : Bool) (d : BitVec 6) (imm : BitVec 10)
  | limmLit (m : Bool) (d : BitVec 6) (lit : BitVec 64)
  | adpc (m : Bool) (d : BitVec 6) (imm : BitVec 10)
  | bfx (m : Bool) (d : BitVec 6) (a : BitVec 6) (sx : Bool) (len : BitVec 7) (pos : BitVec 6)
  | bfi (m : Bool) (d : BitVec 6) (a : BitVec 6) (len : BitVec 7) (pos : BitVec 6)
  | sextB (m : Bool) (d : BitVec 6) (a : BitVec 6)
  | sextH (m : Bool) (d : BitVec 6) (a : BitVec 6)
  | sextW (m : Bool) (d : BitVec 6) (a : BitVec 6)
  | zextB (m : Bool) (d : BitVec 6) (a : BitVec 6)
  | zextH (m : Bool) (d : BitVec 6) (a : BitVec 6)
  | zextW (m : Bool) (d : BitVec 6) (a : BitVec 6)
  | br (m : Bool) (off : BitVec 13)
  | beqz (m : Bool) (a : BitVec 6) (off : BitVec 13)
  | bnez (m : Bool) (a : BitVec 6) (off : BitVec 13)
  | bltz (m : Bool) (a : BitVec 6) (off : BitVec 13)
  | bgez (m : Bool) (a : BitVec 6) (off : BitVec 13)
  | bgtz (m : Bool) (a : BitVec 6) (off : BitVec 13)
  | blez (m : Bool) (a : BitVec 6) (off : BitVec 13)
  | bpany (m : Bool) (p : BitVec 3) (off : BitVec 13)
  | bpnone (m : Bool) (p : BitVec 3) (off : BitVec 13)
  | bcmp (m : Bool) (cond : BitVec 4) (a : BitVec 6) (b : BitVec 6) (off : BitVec 32)
  | call (m : Bool) (off : BitVec 22)
  | jr (m : Bool) (a : BitVec 6)
  | ret (m : Bool)
  | callr (m : Bool) (a : BitVec 6)
  | jtab (m : Bool) (a : BitVec 6) (b : BitVec 6) (len : BitVec 16)
  | trap (m : Bool) (a : BitVec 6)
  | eret (m : Bool)
  | csrr (m : Bool) (d : BitVec 6) (csr : BitVec 12)
  | csrw (m : Bool) (a : BitVec 6) (csr : BitVec 12)
  | csrx (m : Bool) (d : BitVec 6) (a : BitVec 6) (csr : BitVec 12)
  | ld (m : Bool) (t : BitVec 6) (a : BitVec 6) (size : BitVec 2) (ord : BitVec 2) (off : BitVec 6)
  | ldLit (m : Bool) (t : BitVec 6) (a : BitVec 6) (size : BitVec 2) (ord : BitVec 2) (lit : BitVec 64)
  | ldz (m : Bool) (t : BitVec 6) (a : BitVec 6) (size : BitVec 2) (ord : BitVec 2) (off : BitVec 6)
  | ldzLit (m : Bool) (t : BitVec 6) (a : BitVec 6) (size : BitVec 2) (ord : BitVec 2) (lit : BitVec 64)
  | st (m : Bool) (t : BitVec 6) (a : BitVec 6) (size : BitVec 2) (ord : BitVec 2) (off : BitVec 6)
  | stLit (m : Bool) (t : BitVec 6) (a : BitVec 6) (size : BitVec 2) (ord : BitVec 2) (lit : BitVec 64)
  | pref (m : Bool) (a : BitVec 6) (size : BitVec 2) (off : BitVec 6)
  | prefLit (m : Bool) (a : BitVec 6) (size : BitVec 2) (lit : BitVec 64)
  | amoadd (m : Bool) (d : BitVec 6) (a : BitVec 6) (b : BitVec 6) (size : BitVec 2) (scope : BitVec 3) (ord : BitVec 4) (off : BitVec 32)
  | amoand (m : Bool) (d : BitVec 6) (a : BitVec 6) (b : BitVec 6) (size : BitVec 2) (scope : BitVec 3) (ord : BitVec 4) (off : BitVec 32)
  | amoor (m : Bool) (d : BitVec 6) (a : BitVec 6) (b : BitVec 6) (size : BitVec 2) (scope : BitVec 3) (ord : BitVec 4) (off : BitVec 32)
  | amoxor (m : Bool) (d : BitVec 6) (a : BitVec 6) (b : BitVec 6) (size : BitVec 2) (scope : BitVec 3) (ord : BitVec 4) (off : BitVec 32)
  | amomin (m : Bool) (d : BitVec 6) (a : BitVec 6) (b : BitVec 6) (size : BitVec 2) (scope : BitVec 3) (ord : BitVec 4) (off : BitVec 32)
  | amomax (m : Bool) (d : BitVec 6) (a : BitVec 6) (b : BitVec 6) (size : BitVec 2) (scope : BitVec 3) (ord : BitVec 4) (off : BitVec 32)
  | amominn (m : Bool) (d : BitVec 6) (a : BitVec 6) (b : BitVec 6) (size : BitVec 2) (scope : BitVec 3) (ord : BitVec 4) (off : BitVec 32)
  | amomaxn (m : Bool) (d : BitVec 6) (a : BitVec 6) (b : BitVec 6) (size : BitVec 2) (scope : BitVec 3) (ord : BitVec 4) (off : BitVec 32)
  | amoswp (m : Bool) (d : BitVec 6) (a : BitVec 6) (b : BitVec 6) (size : BitVec 2) (scope : BitVec 3) (ord : BitVec 4) (off : BitVec 32)
  | amocas (m : Bool) (d : BitVec 6) (a : BitVec 6) (b : BitVec 6) (c : BitVec 6) (size : BitVec 2) (scope : BitVec 3) (ord : BitVec 4) (off : BitVec 32)
  | amofadd (m : Bool) (d : BitVec 6) (a : BitVec 6) (b : BitVec 6) (ft : BitVec 2) (size : BitVec 2) (scope : BitVec 3) (ord : BitVec 4) (off : BitVec 32)
  | fence (m : Bool) (kind : BitVec 2) (scope : BitVec 3)
  | waita (m : Bool) (d : BitVec 6) (a : BitVec 6) (b : BitVec 6) (e : BitVec 6) (c : BitVec 6) (cond : BitVec 4) (size : BitVec 2) (scope : BitVec 3) (ord : BitVec 4) (imm : BitVec 32)
  | waitaLit (m : Bool) (d : BitVec 6) (a : BitVec 6) (b : BitVec 6) (e : BitVec 6) (c : BitVec 6) (cond : BitVec 4) (size : BitVec 2) (scope : BitVec 3) (ord : BitVec 4) (lit : BitVec 64)
  | bar (m : Bool) (d : BitVec 6)
  | bararv (m : Bool) (d : BitVec 6)
  | barwt (m : Bool) (d : BitVec 6) (a : BitVec 6) (b : BitVec 6)
  | vld (m : Bool) (d : BitVec 5) (a : BitVec 6) (p : BitVec 3) (fmt : BitVec 4) (off : BitVec 32)
  | vst (m : Bool) (d : BitVec 5) (a : BitVec 6) (p : BitVec 3) (off : BitVec 32)
  | vadd (m : Bool) (d : BitVec 5) (a : BitVec 5) (b : BitVec 5) (p : BitVec 3)
  | vsub (m : Bool) (d : BitVec 5) (a : BitVec 5) (b : BitVec 5) (p : BitVec 3)
  | vmul (m : Bool) (d : BitVec 5) (a : BitVec 5) (b : BitVec 5) (p : BitVec 3)
  | vmax (m : Bool) (d : BitVec 5) (a : BitVec 5) (b : BitVec 5) (p : BitVec 3)
  | vmin (m : Bool) (d : BitVec 5) (a : BitVec 5) (b : BitVec 5) (p : BitVec 3)
  | vabs (m : Bool) (d : BitVec 5) (a : BitVec 5) (p : BitVec 3)
  | vneg (m : Bool) (d : BitVec 5) (a : BitVec 5) (p : BitVec 3)
  | vfma (m : Bool) (d : BitVec 5) (a : BitVec 5) (b : BitVec 5) (p : BitVec 3)
  | vfms (m : Bool) (d : BitVec 5) (a : BitVec 5) (b : BitVec 5) (p : BitVec 3)
  | viadd (m : Bool) (d : BitVec 5) (a : BitVec 5) (b : BitVec 5) (p : BitVec 3)
  | visub (m : Bool) (d : BitVec 5) (a : BitVec 5) (b : BitVec 5) (p : BitVec 3)
  | vimul (m : Bool) (d : BitVec 5) (a : BitVec 5) (b : BitVec 5) (p : BitVec 3)
  | vand (m : Bool) (d : BitVec 5) (a : BitVec 5) (b : BitVec 5) (p : BitVec 3)
  | vor (m : Bool) (d : BitVec 5) (a : BitVec 5) (b : BitVec 5) (p : BitVec 3)
  | vxor (m : Bool) (d : BitVec 5) (a : BitVec 5) (b : BitVec 5) (p : BitVec 3)
  | vshl (m : Bool) (d : BitVec 5) (a : BitVec 5) (b : BitVec 5) (p : BitVec 3)
  | vshr (m : Bool) (d : BitVec 5) (a : BitVec 5) (b : BitVec 5) (p : BitVec 3)
  | vcmp (m : Bool) (cond : BitVec 4) (d : BitVec 3) (a : BitVec 5) (b : BitVec 5) (p : BitVec 3)
  | vsel (m : Bool) (d : BitVec 5) (a : BitVec 5) (b : BitVec 5) (p : BitVec 3)
  | vcvt (m : Bool) (d : BitVec 5) (a : BitVec 5) (b : BitVec 6) (p : BitVec 3) (part : BitVec 3) (mode : BitVec 3) (fmt : BitVec 4)
  | vqnt (m : Bool) (d : BitVec 5) (a : BitVec 5) (b : BitVec 6) (e : BitVec 6) (part : BitVec 3) (mode : BitVec 3) (fmt : BitVec 4)
  | vdqnt (m : Bool) (d : BitVec 5) (a : BitVec 5) (b : BitVec 6) (e : BitVec 6) (p : BitVec 3) (part : BitVec 3) (mode : BitVec 3) (fmt : BitVec 4)
  | vexp2 (m : Bool) (d : BitVec 5) (a : BitVec 5) (p : BitVec 3)
  | vlog2 (m : Bool) (d : BitVec 5) (a : BitVec 5) (p : BitVec 3)
  | vrcp (m : Bool) (d : BitVec 5) (a : BitVec 5) (p : BitVec 3)
  | vrsq (m : Bool) (d : BitVec 5) (a : BitVec 5) (p : BitVec 3)
  | vtanh (m : Bool) (d : BitVec 5) (a : BitVec 5) (p : BitVec 3)
  | vred (m : Bool) (d : BitVec 5) (a : BitVec 5) (p : BitVec 3) (op : BitVec 4)
  | vsmxStep (m : Bool) (d : BitVec 5) (a : BitVec 5) (e : BitVec 5) (p : BitVec 3)
  | vsmxMerge (m : Bool) (d : BitVec 5) (a : BitVec 5) (e : BitVec 5)
  | vsmxFinal (m : Bool) (d : BitVec 5) (e : BitVec 5)
  | vsmxInit (m : Bool) (e : BitVec 5)
  | vrand (m : Bool) (d : BitVec 5) (a : BitVec 6) (p : BitVec 3)
  | vdrop (m : Bool) (d : BitVec 5) (a : BitVec 5) (b : BitVec 6) (e : BitVec 6) (p : BitVec 3) (scale : BitVec 32)
  | vperm (m : Bool) (d : BitVec 5) (a : BitVec 5) (b : BitVec 5) (p : BitVec 3)
  | vbcast (m : Bool) (d : BitVec 5) (a : BitVec 6) (p : BitVec 3) (fmt : BitVec 4)
  | vbcastLit (m : Bool) (d : BitVec 5) (p : BitVec 3) (fmt : BitVec 4) (lit : BitVec 64)
  | vmovx (m : Bool) (d : BitVec 6) (a : BitVec 5) (n : BitVec 7)
  | vmovv (m : Bool) (d : BitVec 5) (a : BitVec 6) (n : BitVec 7)
  | fmtget (m : Bool) (d : BitVec 6) (a : BitVec 5) (acc : Bool)
  | fmtset (m : Bool) (d : BitVec 5) (acc : Bool) (fmt : BitVec 4)
  | vloop (m : Bool) (a : BitVec 6) (cnt : BitVec 4)
  | vstrm (m : Bool) (d : BitVec 5) (a : BitVec 6) (off : BitVec 32)
  | vstop (m : Bool) (d : BitVec 6) (a : BitVec 5)
  | vclz (m : Bool) (w : BitVec 2) (d : BitVec 5) (a : BitVec 5) (p : BitVec 3)
  | vffs (m : Bool) (w : BitVec 2) (d : BitVec 5) (a : BitVec 5) (p : BitVec 3)
  | vpopc (m : Bool) (w : BitVec 2) (d : BitVec 5) (a : BitVec 5) (p : BitVec 3)
  | mxmul (m : Bool) (a : BitVec 6) (b : BitVec 6) (e : BitVec 6) (c : BitVec 6)
  | mxspm (m : Bool) (a : BitVec 6) (b : BitVec 6) (e : BitVec 6) (c : BitVec 6)
  | mxdrn (m : Bool) (a : BitVec 6) (b : BitVec 6) (c : BitVec 6)
  | mxclr (m : Bool) (d : BitVec 4) (i32 : Bool)
  | mxwait (m : Bool) (d : BitVec 6)
  | mxstat (m : Bool) (d : BitVec 6)
  | mxrem (m : Bool) (d : BitVec 6) (a : BitVec 6) (b : BitVec 6) (e : BitVec 6) (c : BitVec 6)
  | cpy (m : Bool) (a : BitVec 6) (b : BitVec 6) (e : BitVec 6) (c : BitVec 6)
  | cpyg (m : Bool) (a : BitVec 6) (b : BitVec 6) (e : BitVec 6) (c : BitVec 6)
  | cpys (m : Bool) (a : BitVec 6) (b : BitVec 6) (e : BitVec 6) (c : BitVec 6)
  | cpyr (m : Bool) (a : BitVec 6) (b : BitVec 6) (e : BitVec 6) (c : BitVec 6)
  | cpywait (m : Bool) (d : BitVec 6)
  | cpystat (m : Bool) (d : BitVec 6)
  | bufdcl (m : Bool) (a : BitVec 6) (b : BitVec 6) (n : BitVec 5)
  | bufset (m : Bool) (n : BitVec 5) (bs : BitVec 4)
  | bufqry (m : Bool) (d : BitVec 6) (n : BitVec 5)
  | send (m : Bool) (d : BitVec 6) (a : BitVec 6) (b : BitVec 6) (rlx : Bool) (tr : Bool) (rply : Bool) (rtag : BitVec 6) (tag : BitVec 6) (len : BitVec 32)
  | sendReplay (m : Bool) (d : BitVec 6) (b : BitVec 6) (c : BitVec 6)
  | sendr (m : Bool) (d : BitVec 6) (b : BitVec 6) (rlx : Bool) (len : BitVec 32)
  | msgld (m : Bool) (d : BitVec 6) (a : BitVec 6)
  | msgfree (m : Bool)
  | tagen (m : Bool) (d : BitVec 6) (a : BitVec 6)
  | tagdis (m : Bool) (d : BitVec 6) (a : BitVec 6)
  | hold (m : Bool) (d : BitVec 6) (a : BitVec 6)
  | release (m : Bool) (d : BitVec 6) (a : BitVec 6)
  | setpri (m : Bool) (d : BitVec 6) (a : BitVec 6) (b : BitVec 6)
  | spawn (m : Bool) (d : BitVec 6) (a : BitVec 6) (b : BitVec 6)
  | fork (m : Bool) (d : BitVec 6) (a : BitVec 6)
  | join (m : Bool) (d : BitVec 6) (a : BitVec 6) (b : BitVec 6)
  | qpush (m : Bool) (d : BitVec 6) (a : BitVec 6) (b : BitVec 6) (c : BitVec 6)
  | qpop (m : Bool) (d : BitVec 6) (a : BitVec 6) (b : BitVec 6) (c : BitVec 6)
  | qstat (m : Bool) (d : BitVec 6) (a : BitVec 6)
  | actdef (m : Bool) (d : BitVec 6) (a : BitVec 6) (b : BitVec 6) (c : BitVec 6) (prod : BitVec 4) (cons : BitVec 4) (noout : Bool) (tag : BitVec 6)
  | cdef (m : Bool) (d : BitVec 6) (a : BitVec 6) (b : BitVec 6) (n : BitVec 16)
  | cbind (m : Bool) (d : BitVec 6) (a : BitVec 6) (b : BitVec 6) (n : BitVec 16)
  | cunb (m : Bool) (d : BitVec 6) (a : BitVec 6) (n : BitVec 16)
  | cld (m : Bool) (d : BitVec 6) (a : BitVec 6) (b : BitVec 6) (e : BitVec 6) (c : BitVec 6) (n : BitVec 16)
  | cst (m : Bool) (d : BitVec 6) (a : BitVec 6) (b : BitVec 6) (c : BitVec 6) (n : BitVec 16)
  | csnap (m : Bool) (d : BitVec 6) (a : BitVec 6) (e : BitVec 6)
  | cunsnap (m : Bool) (a : BitVec 6) (b : BitVec 6)
  | cgenStart (m : Bool) (d : BitVec 6) (a : BitVec 6)
  | cgenHold (m : Bool) (d : BitVec 6) (a : BitVec 6) (b : BitVec 6)
  | cgenRelease (m : Bool) (d : BitVec 6) (a : BitVec 6)
  | cgenPinlim (m : Bool) (d : BitVec 6) (a : BitVec 6) (b : BitVec 6)
  | cgenWaitgen (m : Bool) (d : BitVec 6) (a : BitVec 6) (b : BitVec 6) (c : BitVec 6)
  | cstat (m : Bool) (d : BitVec 6) (a : BitVec 6) (n : BitVec 16) (sel : BitVec 4)
  | cprec (m : Bool) (d : BitVec 6) (a : BitVec 6)
  | ccommit (m : Bool) (d : BitVec 6) (a : BitVec 6)
  | kappend (m : Bool) (d : BitVec 6) (a : BitVec 6) (b : BitVec 6) (c : BitVec 6)
  | klook (m : Bool) (d : BitVec 6) (a : BitVec 6) (b : BitVec 6) (e : BitVec 6) (fwd : BitVec 4)
  | kqry (m : Bool) (d : BitVec 6) (a : BitVec 6) (b : BitVec 6) (e : BitVec 6) (c : BitVec 6) (rtag : BitVec 6) (nb : BitVec 4)
  | krehome (m : Bool) (d : BitVec 6) (a : BitVec 6) (b : BitVec 6) (c : BitVec 6)
  | flpop (m : Bool) (d : BitVec 6) (a : BitVec 6)
  | flpush (m : Bool) (d : BitVec 6) (a : BitVec 6) (b : BitVec 6)
  | lncfg (m : Bool) (d : BitVec 6) (a : BitVec 6) (b : BitVec 6)
  | lnrank (m : Bool) (d : BitVec 6) (a : BitVec 6) (b : BitVec 6)
  | lncommit (m : Bool) (d : BitVec 6) (a : BitVec 6)
  | lnstat (m : Bool) (d : BitVec 6) (a : BitVec 6)
  | flowOpen (m : Bool) (d : BitVec 6) (a : BitVec 6) (b : BitVec 6)
  | flowClose (m : Bool) (d : BitVec 6) (a : BitVec 6)
  | flowQry (m : Bool) (d : BitVec 6) (a : BitVec 6)
  | cgform (m : Bool) (d : BitVec 6) (a : BitVec 6) (b : BitVec 6) (c : BitVec 6)
  | cgsig (m : Bool) (d : BitVec 6) (a : BitVec 6) (b : BitVec 6)
  | cgwait (m : Bool) (d : BitVec 6) (a : BitVec 6) (b : BitVec 6) (e : BitVec 6) (c : BitVec 6)
  | cgstat (m : Bool) (d : BitVec 6) (a : BitVec 6)
  | tlbw (m : Bool) (d : BitVec 6) (a : BitVec 6) (b : BitVec 6) (e : BitVec 6) (c : BitVec 6)
  | tlbinv (m : Bool) (d : BitVec 6) (a : BitVec 6) (b : BitVec 6) (c : BitVec 6)
  | tlbprb (m : Bool) (d : BitVec 6) (a : BitVec 6) (e : BitVec 6) (c : BitVec 6)
  | capset (m : Bool) (d : BitVec 6) (a : BitVec 6)
  | ctxq (m : Bool) (d : BitVec 6) (a : BitVec 6)
  | slogq (m : Bool) (d : BitVec 6) (a : BitVec 6)
  | undefinedEncoding (w0 : BitVec 32) (w1 : BitVec 32) (chk : Nat)
  | varResultReturn (k : Nat) (f : Nat)
  | selectorDecision (k : Nat)
  | quantumExpiry (k : Nat)
  | alignWaitExpiry (k : Nat) (f : Nat)
  | requestArrival (k : Nat) (n : Nat)
  | requestRetry (k : Nat) (n : Nat)
  | replyArrival (n : Nat)
  | autoReplySend (k : Nat)
  | spawnArrival (k : Nat) (f : Nat)
  | spawnAnswer (k : Nat) (f : Nat)
  | mxremArrival (k : Nat) (n : Nat)
  | matrixCmdStart (k : Nat)
  | matrixCmdComplete (k : Nat)
  | copyCmdComplete (k : Nat) (n : Nat)
  | mword (k : Nat) (j : BitVec 2) (v : BitVec 64)
  | mgo (k : Nat) (v : BitVec 64)
  | cword (k : Nat) (j : BitVec 2) (v : BitVec 64)
  | cgo (k : Nat) (v : BitVec 64)
  | heldGoAccept (k : Nat) (cp : Bool)
  | walkRequest (die : Nat) (n : Nat)
  | walkTimeout (die : Nat) (n : Nat)
  | cellDispatch (die : Nat) (i : Nat) (n : Nat)
  | pinExpiry (die : Nat) (i : Nat) (slot : Nat)
  | poisonOpening (die : Nat) (i : Nat) (n : Nat)
  | cellReadWake (k : Nat) (f : Nat)
  | waitRecheck (k : Nat) (f : Nat)
  | waitLimitExpiry (k : Nat) (f : Nat)
  | governorSample (die : Nat)
  | queueRefill (q : Nat)
  | stageQueueDescWrite (q : Nat) (off : BitVec 6) (v : BitVec 64)
  | krehomeTarget (k : Nat) (f : Nat)
  | krehomeAnswer (k : Nat) (f : Nat)
  | rdupPropagate (n : Nat) (die : Nat)
  | rdupInvalidateAck (n : Nat) (die : Nat)
  | fabricStoreArrival (src : Nat) (epoch : BitVec 8) (num : BitVec 32) (pa : Nat) (bytes : List (BitVec 8))
  | fabricReleaseApply (src : Nat) (epoch : BitVec 8) (num : BitVec 32) (count : BitVec 32) (marks : List (Nat × Nat)) (pa : Nat) (bytes : List (BitVec 8))
  | flowPacketArrival (src : Nat) (flow : Nat) (seq : BitVec 32 × BitVec 32) (ordered : Bool) (grp : Option (Nat × BitVec 16)) (pa : Nat) (bytes : List (BitVec 8))
  | linkFlitReceive (die : Nat) (port : Nat) (num : BitVec 12) (crcOk : Bool)
  | linkAckReceive (die : Nat) (port : Nat) (num : BitVec 12) (report : Bool)
  | laneLockLoss (die : Nat) (port : Nat)
  | portRetrainDone (die : Nat) (port : Nat) (lanes : BitVec 16)
  | retrain (die : Nat) (mask : BitVec 3)
  | remoteLimitExpiry (n : Nat)
  | groupJoinArrival (g : Nat) (core : Nat) (pkgNo : Nat) (ctx : BitVec 16) (record : List (BitVec 8)) (prop : BitVec 16)
  | groupCommitArrival (g : Nat) (inc : BitVec 16)
  | groupAbortMsg (g : Nat) (inc : BitVec 16) (reason : BitVec 3)
  | cgwaitLimit (k : Nat) (f : Nat)
  | cgformLimit (k : Nat) (f : Nat)
  | cgansCommit (g : Nat)
  | cgansRefuse (g : Nat)
  | doorbell (die : Nat) (q : Nat) (v : BitVec 32)
  | queuePacketRead (die : Nat) (q : Nat)
  | launchRelease (n : Nat)
  | contextResume (k : Nat) (ctx : BitVec 16)
  | launchComplete (n : Nat)
  | launchLimitExpiry (n : Nat)
  | hostLinkAccess (fn : Nat) (wr : Bool) (pa : Nat) (size : Nat) (v : BitVec 64)
  | ctxctlClear (master : BitVec 18) (slot : BitVec 8)
  | ctxctlRetire (master : BitVec 18) (slot : BitVec 8)
  | unfreeze (master : BitVec 18) (who : BitVec 18)
  | wfgo (die : Nat)
  | walkImageLoadDone (die : Nat)
  | twgo (die : Nat)
  | userQueueDescWrite (die : Nat) (q : Nat) (off : BitVec 6) (v : BitVec 64)
  | freeListRegWrite (die : Nat) (off : BitVec 12) (v : BitVec 64)
  | schedout (die : Nat) (core : Nat)
  | freefFrame (die : Nat) (core : Nat) (f : Nat)
  | freefBivouac (die : Nat) (core : Nat)
  | registerWrite (master : BitVec 18) (pa : Nat) (v : BitVec 64)
  | frontEndError (die : Nat)
  | correctedError (die : Nat) (unit : BitVec 8) (addr : BitVec 56)
  | uncorrectableError (die : Nat) (unit : BitVec 8) (addr : BitVec 56)
  | patrolScrub (die : Nat) (addr : BitVec 56)
  | stbyPowerUp 
  | stbyPowerDown 
  | mainPowerUp (digests : List (BitVec 64)) (svn : BitVec 16) (ok : Bool)
  | mainPowerDown 
  | firmwareUpdate (digests : List (BitVec 64)) (svn : BitVec 16) (ok : Bool)
  | perstLink0 
  | perstLink1 
  | reset (v : BitVec 64)
  | pwrlim (v : BitVec 64)
  | trip (v : BitVec 64)
  | powerWindow (avg : BitVec 12)
  | thermalThrottle (die : Nat) (temp : BitVec 8)
  | thermalTrip (die : Nat) (temp : BitVec 8)
  | mgmtRead (off : BitVec 12)
  | spdmMeasurement (die : Nat)
  | programTrafficAck (dst : Nat) (count : BitVec 32) (sw : Bool)
  | remoteAccessArrival (src : Nat) (op : Nat) (pa : Nat) (size : Nat) (v : BitVec 64 × BitVec 64) (tag : AccessTag)
  | errorTriageWord (die : Nat)
  | thermalThrottleEnd (die : Nat) (temp : BitVec 8)
  deriving DecidableEq, Repr

end Sys2Proof
end

