-- ==== Sys2Proof/WellFormed.lean ====
section
/-! DEFINITION. Which terms of `Instr` are instructions of the part: the selector values, limits and register ranges that the
field widths alone do not give (R46 checks 4 to 7). Every act of a unit is well formed. -/
namespace Sys2Proof

/-- The register numbers of R38 that firings may read and write (class 00). -/
def csrClass0 (n : BitVec 12) : Bool :=
  (1 ≤ n.toNat && n.toNat ≤ 5) || (0x10 ≤ n.toNat && n.toNat ≤ 0x15)

/-- The register numbers of R38 that firings may only read (class 01). -/
def csrClass1 (n : BitVec 12) : Bool := 0x400 ≤ n.toNat && n.toNat ≤ 0x407

/-- Class 11 belongs to the front end and the recovery core: a firing that names it is trapped with PRIV, not UNDEF (R37). -/
def csrClass3 (n : BitVec 12) : Bool := 0xC00 ≤ n.toNat

/-- A number a CSRR may encode (R37). -/
def csrReadable (n : BitVec 12) : Bool := csrClass0 n || csrClass1 n || csrClass3 n

/-- A number a CSRW or CSRX may encode (R37). -/
def csrWritable (n : BitVec 12) : Bool := csrClass0 n || csrClass3 n

/-- The term is an instruction the encoding admits. -/
def Instr.wf : Instr → Bool
  | .nop _ => true
  | .align _ _ => true
  | .endFiring _ => true
  | .yield _ => true
  | .add _ _ _ _ => true
  | .sub _ _ _ _ => true
  | .mul _ _ _ _ => true
  | .mulh _ _ _ _ => true
  | .mulhn _ _ _ _ => true
  | .div _ _ _ _ => true
  | .divn _ _ _ _ => true
  | .rem _ _ _ _ => true
  | .remn _ _ _ _ => true
  | .min _ _ _ _ => true
  | .max _ _ _ _ => true
  | .minn _ _ _ _ => true
  | .maxn _ _ _ _ => true
  | .slt _ _ _ _ => true
  | .sltn _ _ _ _ => true
  | .and _ _ _ _ => true
  | .or _ _ _ _ => true
  | .xor _ _ _ _ => true
  | .andn _ _ _ _ => true
  | .orn _ _ _ _ => true
  | .sll _ _ _ _ => true
  | .srl _ _ _ _ => true
  | .sra _ _ _ _ => true
  | .rol _ _ _ _ => true
  | .ror _ _ _ _ => true
  | .clz _ _ _ _ => true
  | .ffs _ _ _ _ => true
  | .popc _ _ _ _ => true
  | .brev _ _ _ _ => true
  | .addi _ _ _ _ => true
  | .addiLit _ _ _ _ => true
  | .andi _ _ _ _ => true
  | .andiLit _ _ _ _ => true
  | .ori _ _ _ _ => true
  | .oriLit _ _ _ _ => true
  | .xori _ _ _ _ => true
  | .xoriLit _ _ _ _ => true
  | .slti _ _ _ _ => true
  | .sltiLit _ _ _ _ => true
  | .slli _ _ _ _ => true
  | .srli _ _ _ _ => true
  | .srai _ _ _ _ => true
  | .limm _ _ _ => true
  | .limmLit _ _ _ => true
  | .adpc _ _ _ => true
  | .bfx _ _ _ _ len pos => (!decide (len = 0#7) && decide (pos.toNat + len.toNat ≤ 64))
  | .bfi _ _ _ len pos => (!decide (len = 0#7) && decide (pos.toNat + len.toNat ≤ 64))
  | .sextB _ _ _ => true
  | .sextH _ _ _ => true
  | .sextW _ _ _ => true
  | .zextB _ _ _ => true
  | .zextH _ _ _ => true
  | .zextW _ _ _ => true
  | .br _ _ => true
  | .beqz _ _ _ => true
  | .bnez _ _ _ => true
  | .bltz _ _ _ => true
  | .bgez _ _ _ => true
  | .bgtz _ _ _ => true
  | .blez _ _ _ => true
  | .bpany _ _ _ => true
  | .bpnone _ _ _ => true
  | .bcmp _ cond _ _ _ => decide (cond.toNat ≤ 5)
  | .call _ _ => true
  | .jr _ _ => true
  | .ret _ => true
  | .callr _ _ => true
  | .jtab _ _ _ _ => true
  | .trap _ _ => true
  | .eret _ => true
  | .csrr _ _ csr => csrReadable csr
  | .csrw _ _ csr => csrWritable csr
  | .csrx _ _ _ csr => csrWritable csr
  | .ld _ _ _ _ ord _ => !decide (ord = 2#2)
  | .ldLit _ _ _ _ ord _ => !decide (ord = 2#2)
  | .ldz _ _ _ _ ord _ => !decide (ord = 2#2)
  | .ldzLit _ _ _ _ ord _ => !decide (ord = 2#2)
  | .st _ _ _ _ ord _ => !decide (ord = 1#2)
  | .stLit _ _ _ _ ord _ => !decide (ord = 1#2)
  | .pref _ _ _ _ => true
  | .prefLit _ _ _ _ => true
  | .amoadd _ _ _ _ size scope ord _ => decide (ord.toNat ≤ 4) && decide (scope.toNat ≤ 5) && decide (2 ≤ size.toNat) && (!decide (ord = 0#4) || decide (scope = 0#3))
  | .amoand _ _ _ _ size scope ord _ => decide (ord.toNat ≤ 4) && decide (scope.toNat ≤ 5) && decide (2 ≤ size.toNat) && (!decide (ord = 0#4) || decide (scope = 0#3))
  | .amoor _ _ _ _ size scope ord _ => decide (ord.toNat ≤ 4) && decide (scope.toNat ≤ 5) && decide (2 ≤ size.toNat) && (!decide (ord = 0#4) || decide (scope = 0#3))
  | .amoxor _ _ _ _ size scope ord _ => decide (ord.toNat ≤ 4) && decide (scope.toNat ≤ 5) && decide (2 ≤ size.toNat) && (!decide (ord = 0#4) || decide (scope = 0#3))
  | .amomin _ _ _ _ size scope ord _ => decide (ord.toNat ≤ 4) && decide (scope.toNat ≤ 5) && decide (2 ≤ size.toNat) && (!decide (ord = 0#4) || decide (scope = 0#3))
  | .amomax _ _ _ _ size scope ord _ => decide (ord.toNat ≤ 4) && decide (scope.toNat ≤ 5) && decide (2 ≤ size.toNat) && (!decide (ord = 0#4) || decide (scope = 0#3))
  | .amominn _ _ _ _ size scope ord _ => decide (ord.toNat ≤ 4) && decide (scope.toNat ≤ 5) && decide (2 ≤ size.toNat) && (!decide (ord = 0#4) || decide (scope = 0#3))
  | .amomaxn _ _ _ _ size scope ord _ => decide (ord.toNat ≤ 4) && decide (scope.toNat ≤ 5) && decide (2 ≤ size.toNat) && (!decide (ord = 0#4) || decide (scope = 0#3))
  | .amoswp _ _ _ _ size scope ord _ => decide (ord.toNat ≤ 4) && decide (scope.toNat ≤ 5) && decide (2 ≤ size.toNat) && (!decide (ord = 0#4) || decide (scope = 0#3))
  | .amocas _ _ _ _ _ size scope ord _ => decide (ord.toNat ≤ 4) && decide (scope.toNat ≤ 5) && decide (2 ≤ size.toNat) && (!decide (ord = 0#4) || decide (scope = 0#3))
  | .amofadd _ _ _ _ ft size scope ord _ => decide (ord.toNat ≤ 4) && decide (scope.toNat ≤ 5) && (decide (ft = 0#2) && decide (size = 2#2) || (decide (ft = 1#2) || decide (ft = 2#2)) && decide (size = 1#2)) && (!decide (ord = 0#4) || decide (scope = 0#3))
  | .fence _ _ scope => decide (scope.toNat ≤ 5)
  | .waita _ _ _ _ _ _ cond _ scope ord _ => decide (cond.toNat ≤ 7) && decide (ord.toNat ≤ 1) && decide (scope.toNat ≤ 5) && (!decide (ord = 0#4) || decide (scope = 0#3))
  | .waitaLit _ _ _ _ _ _ cond _ scope ord _ => decide (cond.toNat ≤ 7) && decide (ord.toNat ≤ 1) && decide (scope.toNat ≤ 5) && (!decide (ord = 0#4) || decide (scope = 0#3))
  | .bar _ _ => true
  | .bararv _ _ => true
  | .barwt _ _ _ _ => true
  | .vld _ _ _ _ _ _ => true
  | .vst _ _ _ _ _ => true
  | .vadd _ _ _ _ _ => true
  | .vsub _ _ _ _ _ => true
  | .vmul _ _ _ _ _ => true
  | .vmax _ _ _ _ _ => true
  | .vmin _ _ _ _ _ => true
  | .vabs _ _ _ _ => true
  | .vneg _ _ _ _ => true
  | .vfma _ _ _ _ _ => true
  | .vfms _ _ _ _ _ => true
  | .viadd _ _ _ _ _ => true
  | .visub _ _ _ _ _ => true
  | .vimul _ _ _ _ _ => true
  | .vand _ _ _ _ _ => true
  | .vor _ _ _ _ _ => true
  | .vxor _ _ _ _ _ => true
  | .vshl _ _ _ _ _ => true
  | .vshr _ _ _ _ _ => true
  | .vcmp _ cond _ _ _ _ => decide (cond.toNat ≤ 5)
  | .vsel _ _ _ _ _ => true
  | .vcvt _ _ _ _ _ _ mode fmt => !decide (fmt = 0#4) && !decide (fmt = 9#4) && decide (mode.toNat ≤ 4)
  | .vqnt _ _ _ _ _ _ mode fmt => decide (4 ≤ fmt.toNat) && decide (fmt.toNat ≤ 9) && decide (mode.toNat ≤ 4)
  | .vdqnt _ _ _ _ _ _ _ mode fmt => decide (1 ≤ fmt.toNat) && decide (fmt.toNat ≤ 3) && decide (mode.toNat ≤ 4)
  | .vexp2 _ _ _ _ => true
  | .vlog2 _ _ _ _ => true
  | .vrcp _ _ _ _ => true
  | .vrsq _ _ _ _ => true
  | .vtanh _ _ _ _ => true
  | .vred _ _ _ _ op => decide (op.toNat ≤ 4)
  | .vsmxStep _ _ _ _ _ => true
  | .vsmxMerge _ _ _ _ => true
  | .vsmxFinal _ _ _ => true
  | .vsmxInit _ _ => true
  | .vrand _ _ _ _ => true
  | .vdrop _ _ _ _ _ _ _ => true
  | .vperm _ _ _ _ _ => true
  | .vbcast _ _ _ _ _ => true
  | .vbcastLit _ _ _ _ _ => true
  | .vmovx _ _ _ _ => true
  | .vmovv _ _ _ _ => true
  | .fmtget _ _ a acc => (!acc || decide (a.toNat ≤ 15))
  | .fmtset _ d acc fmt => (!acc || decide (fmt = 1#4) || decide (fmt = 14#4)) && (!acc || decide (d.toNat ≤ 15))
  | .vloop _ _ _ => true
  | .vstrm _ d _ _ => decide (24 ≤ d.toNat)
  | .vstop _ _ a => decide (24 ≤ a.toNat)
  | .vclz _ _ _ _ _ => true
  | .vffs _ _ _ _ _ => true
  | .vpopc _ _ _ _ _ => true
  | .mxmul _ _ _ _ _ => true
  | .mxspm _ _ _ _ _ => true
  | .mxdrn _ _ _ _ => true
  | .mxclr _ _ _ => true
  | .mxwait _ _ => true
  | .mxstat _ _ => true
  | .mxrem _ _ _ _ _ _ => true
  | .cpy _ _ _ _ _ => true
  | .cpyg _ _ _ _ _ => true
  | .cpys _ _ _ _ _ => true
  | .cpyr _ _ _ _ _ => true
  | .cpywait _ _ => true
  | .cpystat _ _ => true
  | .bufdcl _ _ _ _ => true
  | .bufset _ _ bs => (decide (bs = 0#4) || decide (bs = 2#4))
  | .bufqry _ _ _ => true
  | .send _ _ _ _ _ _ rply rtag _ len => decide (len.toNat ≤ 256) && (rply || decide (rtag = 0#6))
  | .sendReplay _ _ _ _ => true
  | .sendr _ _ _ _ len => decide (len.toNat ≤ 256)
  | .msgld _ _ _ => true
  | .msgfree _ => true
  | .tagen _ _ _ => true
  | .tagdis _ _ _ => true
  | .hold _ _ _ => true
  | .release _ _ _ => true
  | .setpri _ _ _ _ => true
  | .spawn _ _ _ _ => true
  | .fork _ _ _ => true
  | .join _ d _ _ => (decide (d.toNat < 4) || decide (11 < d.toNat))
  | .qpush _ _ _ _ _ => true
  | .qpop _ _ _ _ _ => true
  | .qstat _ _ _ => true
  | .actdef _ _ _ _ _ _ _ _ _ => true
  | .cdef _ _ _ _ _ => true
  | .cbind _ _ _ _ _ => true
  | .cunb _ _ _ _ => true
  | .cld _ _ _ _ _ _ _ => true
  | .cst _ _ _ _ _ _ => true
  | .csnap _ _ _ _ => true
  | .cunsnap _ _ _ => true
  | .cgenStart _ _ _ => true
  | .cgenHold _ _ _ _ => true
  | .cgenRelease _ _ _ => true
  | .cgenPinlim _ _ _ _ => true
  | .cgenWaitgen _ _ _ _ _ => true
  | .cstat _ _ _ n sel => decide (sel.toNat ≤ 2) && (!decide (sel = 2#4) || decide (n.toNat ≤ 7)) && (!decide (sel = 1#4) || decide (n = 0#16))
  | .cprec _ _ _ => true
  | .ccommit _ _ _ => true
  | .kappend _ _ _ _ _ => true
  | .klook _ _ _ _ _ fwd => decide (fwd.toNat ≤ 1)
  | .kqry _ _ _ _ _ _ _ _ => true
  | .krehome _ _ _ _ _ => true
  | .flpop _ _ _ => true
  | .flpush _ _ _ _ => true
  | .lncfg _ _ _ _ => true
  | .lnrank _ _ _ _ => true
  | .lncommit _ _ _ => true
  | .lnstat _ _ _ => true
  | .flowOpen _ _ _ _ => true
  | .flowClose _ _ _ => true
  | .flowQry _ _ _ => true
  | .cgform _ _ _ _ _ => true
  | .cgsig _ _ _ _ => true
  | .cgwait _ _ _ _ _ _ => true
  | .cgstat _ _ _ => true
  | .tlbw _ _ _ _ _ _ => true
  | .tlbinv _ _ _ _ _ => true
  | .tlbprb _ _ _ _ _ => true
  | .capset _ _ _ => true
  | .ctxq _ _ _ => true
  | .slogq _ _ _ => true
  | .undefinedEncoding _ _ _ => true
  | .varResultReturn _ _ => true
  | .selectorDecision _ => true
  | .quantumExpiry _ => true
  | .alignWaitExpiry _ _ => true
  | .requestArrival _ _ => true
  | .requestRetry _ _ => true
  | .replyArrival _ => true
  | .autoReplySend _ => true
  | .spawnArrival _ _ => true
  | .spawnAnswer _ _ => true
  | .mxremArrival _ _ => true
  | .matrixCmdStart _ => true
  | .matrixCmdComplete _ => true
  | .copyCmdComplete _ _ => true
  | .mword _ _ _ => true
  | .mgo _ _ => true
  | .cword _ _ _ => true
  | .cgo _ _ => true
  | .heldGoAccept _ _ => true
  | .walkRequest _ _ => true
  | .walkTimeout _ _ => true
  | .cellDispatch _ _ _ => true
  | .pinExpiry _ _ _ => true
  | .poisonOpening _ _ _ => true
  | .cellReadWake _ _ => true
  | .waitRecheck _ _ => true
  | .waitLimitExpiry _ _ => true
  | .governorSample _ => true
  | .queueRefill _ => true
  | .stageQueueDescWrite _ _ _ => true
  | .krehomeTarget _ _ => true
  | .krehomeAnswer _ _ => true
  | .rdupPropagate _ _ => true
  | .rdupInvalidateAck _ _ => true
  | .fabricStoreArrival _ _ _ _ _ => true
  | .fabricReleaseApply _ _ _ _ _ _ _ => true
  | .flowPacketArrival _ _ _ _ _ _ _ => true
  | .linkFlitReceive _ _ _ _ => true
  | .linkAckReceive _ _ _ _ => true
  | .laneLockLoss _ _ => true
  | .portRetrainDone _ _ _ => true
  | .retrain _ _ => true
  | .remoteLimitExpiry _ => true
  | .groupJoinArrival _ _ _ _ _ _ => true
  | .groupCommitArrival _ _ => true
  | .groupAbortMsg _ _ _ => true
  | .cgwaitLimit _ _ => true
  | .cgformLimit _ _ => true
  | .cgansCommit _ => true
  | .cgansRefuse _ => true
  | .doorbell _ _ _ => true
  | .queuePacketRead _ _ => true
  | .launchRelease _ => true
  | .contextResume _ _ => true
  | .launchComplete _ => true
  | .launchLimitExpiry _ => true
  | .hostLinkAccess _ _ _ _ _ => true
  | .ctxctlClear _ _ => true
  | .ctxctlRetire _ _ => true
  | .unfreeze _ _ => true
  | .wfgo _ => true
  | .walkImageLoadDone _ => true
  | .twgo _ => true
  | .userQueueDescWrite _ _ _ _ => true
  | .freeListRegWrite _ _ _ => true
  | .schedout _ _ => true
  | .freefFrame _ _ _ => true
  | .freefBivouac _ _ => true
  | .registerWrite _ _ _ => true
  | .frontEndError _ => true
  | .correctedError _ _ _ => true
  | .uncorrectableError _ _ _ => true
  | .patrolScrub _ _ => true
  | .stbyPowerUp  => true
  | .stbyPowerDown  => true
  | .mainPowerUp _ _ _ => true
  | .mainPowerDown  => true
  | .firmwareUpdate _ _ _ => true
  | .perstLink0  => true
  | .perstLink1  => true
  | .reset _ => true
  | .pwrlim _ => true
  | .trip _ => true
  | .powerWindow _ => true
  | .thermalThrottle _ _ => true
  | .thermalTrip _ _ => true
  | .mgmtRead _ => true
  | .spdmMeasurement _ => true
  | .programTrafficAck _ _ _ => true
  | .remoteAccessArrival _ _ _ _ _ _ => true
  | .errorTriageWord _ => true
  | .thermalThrottleEnd _ _ => true

/-- The constructor is an instruction of a firing (it has words), not an act of a unit. -/
def Instr.isWord : Instr → Bool
  | .nop _ => true
  | .align _ _ => true
  | .endFiring _ => true
  | .yield _ => true
  | .add _ _ _ _ => true
  | .sub _ _ _ _ => true
  | .mul _ _ _ _ => true
  | .mulh _ _ _ _ => true
  | .mulhn _ _ _ _ => true
  | .div _ _ _ _ => true
  | .divn _ _ _ _ => true
  | .rem _ _ _ _ => true
  | .remn _ _ _ _ => true
  | .min _ _ _ _ => true
  | .max _ _ _ _ => true
  | .minn _ _ _ _ => true
  | .maxn _ _ _ _ => true
  | .slt _ _ _ _ => true
  | .sltn _ _ _ _ => true
  | .and _ _ _ _ => true
  | .or _ _ _ _ => true
  | .xor _ _ _ _ => true
  | .andn _ _ _ _ => true
  | .orn _ _ _ _ => true
  | .sll _ _ _ _ => true
  | .srl _ _ _ _ => true
  | .sra _ _ _ _ => true
  | .rol _ _ _ _ => true
  | .ror _ _ _ _ => true
  | .clz _ _ _ _ => true
  | .ffs _ _ _ _ => true
  | .popc _ _ _ _ => true
  | .brev _ _ _ _ => true
  | .addi _ _ _ _ => true
  | .addiLit _ _ _ _ => true
  | .andi _ _ _ _ => true
  | .andiLit _ _ _ _ => true
  | .ori _ _ _ _ => true
  | .oriLit _ _ _ _ => true
  | .xori _ _ _ _ => true
  | .xoriLit _ _ _ _ => true
  | .slti _ _ _ _ => true
  | .sltiLit _ _ _ _ => true
  | .slli _ _ _ _ => true
  | .srli _ _ _ _ => true
  | .srai _ _ _ _ => true
  | .limm _ _ _ => true
  | .limmLit _ _ _ => true
  | .adpc _ _ _ => true
  | .bfx _ _ _ _ _ _ => true
  | .bfi _ _ _ _ _ => true
  | .sextB _ _ _ => true
  | .sextH _ _ _ => true
  | .sextW _ _ _ => true
  | .zextB _ _ _ => true
  | .zextH _ _ _ => true
  | .zextW _ _ _ => true
  | .br _ _ => true
  | .beqz _ _ _ => true
  | .bnez _ _ _ => true
  | .bltz _ _ _ => true
  | .bgez _ _ _ => true
  | .bgtz _ _ _ => true
  | .blez _ _ _ => true
  | .bpany _ _ _ => true
  | .bpnone _ _ _ => true
  | .bcmp _ _ _ _ _ => true
  | .call _ _ => true
  | .jr _ _ => true
  | .ret _ => true
  | .callr _ _ => true
  | .jtab _ _ _ _ => true
  | .trap _ _ => true
  | .eret _ => true
  | .csrr _ _ _ => true
  | .csrw _ _ _ => true
  | .csrx _ _ _ _ => true
  | .ld _ _ _ _ _ _ => true
  | .ldLit _ _ _ _ _ _ => true
  | .ldz _ _ _ _ _ _ => true
  | .ldzLit _ _ _ _ _ _ => true
  | .st _ _ _ _ _ _ => true
  | .stLit _ _ _ _ _ _ => true
  | .pref _ _ _ _ => true
  | .prefLit _ _ _ _ => true
  | .amoadd _ _ _ _ _ _ _ _ => true
  | .amoand _ _ _ _ _ _ _ _ => true
  | .amoor _ _ _ _ _ _ _ _ => true
  | .amoxor _ _ _ _ _ _ _ _ => true
  | .amomin _ _ _ _ _ _ _ _ => true
  | .amomax _ _ _ _ _ _ _ _ => true
  | .amominn _ _ _ _ _ _ _ _ => true
  | .amomaxn _ _ _ _ _ _ _ _ => true
  | .amoswp _ _ _ _ _ _ _ _ => true
  | .amocas _ _ _ _ _ _ _ _ _ => true
  | .amofadd _ _ _ _ _ _ _ _ _ => true
  | .fence _ _ _ => true
  | .waita _ _ _ _ _ _ _ _ _ _ _ => true
  | .waitaLit _ _ _ _ _ _ _ _ _ _ _ => true
  | .bar _ _ => true
  | .bararv _ _ => true
  | .barwt _ _ _ _ => true
  | .vld _ _ _ _ _ _ => true
  | .vst _ _ _ _ _ => true
  | .vadd _ _ _ _ _ => true
  | .vsub _ _ _ _ _ => true
  | .vmul _ _ _ _ _ => true
  | .vmax _ _ _ _ _ => true
  | .vmin _ _ _ _ _ => true
  | .vabs _ _ _ _ => true
  | .vneg _ _ _ _ => true
  | .vfma _ _ _ _ _ => true
  | .vfms _ _ _ _ _ => true
  | .viadd _ _ _ _ _ => true
  | .visub _ _ _ _ _ => true
  | .vimul _ _ _ _ _ => true
  | .vand _ _ _ _ _ => true
  | .vor _ _ _ _ _ => true
  | .vxor _ _ _ _ _ => true
  | .vshl _ _ _ _ _ => true
  | .vshr _ _ _ _ _ => true
  | .vcmp _ _ _ _ _ _ => true
  | .vsel _ _ _ _ _ => true
  | .vcvt _ _ _ _ _ _ _ _ => true
  | .vqnt _ _ _ _ _ _ _ _ => true
  | .vdqnt _ _ _ _ _ _ _ _ _ => true
  | .vexp2 _ _ _ _ => true
  | .vlog2 _ _ _ _ => true
  | .vrcp _ _ _ _ => true
  | .vrsq _ _ _ _ => true
  | .vtanh _ _ _ _ => true
  | .vred _ _ _ _ _ => true
  | .vsmxStep _ _ _ _ _ => true
  | .vsmxMerge _ _ _ _ => true
  | .vsmxFinal _ _ _ => true
  | .vsmxInit _ _ => true
  | .vrand _ _ _ _ => true
  | .vdrop _ _ _ _ _ _ _ => true
  | .vperm _ _ _ _ _ => true
  | .vbcast _ _ _ _ _ => true
  | .vbcastLit _ _ _ _ _ => true
  | .vmovx _ _ _ _ => true
  | .vmovv _ _ _ _ => true
  | .fmtget _ _ _ _ => true
  | .fmtset _ _ _ _ => true
  | .vloop _ _ _ => true
  | .vstrm _ _ _ _ => true
  | .vstop _ _ _ => true
  | .vclz _ _ _ _ _ => true
  | .vffs _ _ _ _ _ => true
  | .vpopc _ _ _ _ _ => true
  | .mxmul _ _ _ _ _ => true
  | .mxspm _ _ _ _ _ => true
  | .mxdrn _ _ _ _ => true
  | .mxclr _ _ _ => true
  | .mxwait _ _ => true
  | .mxstat _ _ => true
  | .mxrem _ _ _ _ _ _ => true
  | .cpy _ _ _ _ _ => true
  | .cpyg _ _ _ _ _ => true
  | .cpys _ _ _ _ _ => true
  | .cpyr _ _ _ _ _ => true
  | .cpywait _ _ => true
  | .cpystat _ _ => true
  | .bufdcl _ _ _ _ => true
  | .bufset _ _ _ => true
  | .bufqry _ _ _ => true
  | .send _ _ _ _ _ _ _ _ _ _ => true
  | .sendReplay _ _ _ _ => true
  | .sendr _ _ _ _ _ => true
  | .msgld _ _ _ => true
  | .msgfree _ => true
  | .tagen _ _ _ => true
  | .tagdis _ _ _ => true
  | .hold _ _ _ => true
  | .release _ _ _ => true
  | .setpri _ _ _ _ => true
  | .spawn _ _ _ _ => true
  | .fork _ _ _ => true
  | .join _ _ _ _ => true
  | .qpush _ _ _ _ _ => true
  | .qpop _ _ _ _ _ => true
  | .qstat _ _ _ => true
  | .actdef _ _ _ _ _ _ _ _ _ => true
  | .cdef _ _ _ _ _ => true
  | .cbind _ _ _ _ _ => true
  | .cunb _ _ _ _ => true
  | .cld _ _ _ _ _ _ _ => true
  | .cst _ _ _ _ _ _ => true
  | .csnap _ _ _ _ => true
  | .cunsnap _ _ _ => true
  | .cgenStart _ _ _ => true
  | .cgenHold _ _ _ _ => true
  | .cgenRelease _ _ _ => true
  | .cgenPinlim _ _ _ _ => true
  | .cgenWaitgen _ _ _ _ _ => true
  | .cstat _ _ _ _ _ => true
  | .cprec _ _ _ => true
  | .ccommit _ _ _ => true
  | .kappend _ _ _ _ _ => true
  | .klook _ _ _ _ _ _ => true
  | .kqry _ _ _ _ _ _ _ _ => true
  | .krehome _ _ _ _ _ => true
  | .flpop _ _ _ => true
  | .flpush _ _ _ _ => true
  | .lncfg _ _ _ _ => true
  | .lnrank _ _ _ _ => true
  | .lncommit _ _ _ => true
  | .lnstat _ _ _ => true
  | .flowOpen _ _ _ _ => true
  | .flowClose _ _ _ => true
  | .flowQry _ _ _ => true
  | .cgform _ _ _ _ _ => true
  | .cgsig _ _ _ _ => true
  | .cgwait _ _ _ _ _ _ => true
  | .cgstat _ _ _ => true
  | .tlbw _ _ _ _ _ _ => true
  | .tlbinv _ _ _ _ _ => true
  | .tlbprb _ _ _ _ _ => true
  | .capset _ _ _ => true
  | .ctxq _ _ _ => true
  | .slogq _ _ _ => true
  | .undefinedEncoding _ _ _ => false
  | .varResultReturn _ _ => false
  | .selectorDecision _ => false
  | .quantumExpiry _ => false
  | .alignWaitExpiry _ _ => false
  | .requestArrival _ _ => false
  | .requestRetry _ _ => false
  | .replyArrival _ => false
  | .autoReplySend _ => false
  | .spawnArrival _ _ => false
  | .spawnAnswer _ _ => false
  | .mxremArrival _ _ => false
  | .matrixCmdStart _ => false
  | .matrixCmdComplete _ => false
  | .copyCmdComplete _ _ => false
  | .mword _ _ _ => false
  | .mgo _ _ => false
  | .cword _ _ _ => false
  | .cgo _ _ => false
  | .heldGoAccept _ _ => false
  | .walkRequest _ _ => false
  | .walkTimeout _ _ => false
  | .cellDispatch _ _ _ => false
  | .pinExpiry _ _ _ => false
  | .poisonOpening _ _ _ => false
  | .cellReadWake _ _ => false
  | .waitRecheck _ _ => false
  | .waitLimitExpiry _ _ => false
  | .governorSample _ => false
  | .queueRefill _ => false
  | .stageQueueDescWrite _ _ _ => false
  | .krehomeTarget _ _ => false
  | .krehomeAnswer _ _ => false
  | .rdupPropagate _ _ => false
  | .rdupInvalidateAck _ _ => false
  | .fabricStoreArrival _ _ _ _ _ => false
  | .fabricReleaseApply _ _ _ _ _ _ _ => false
  | .flowPacketArrival _ _ _ _ _ _ _ => false
  | .linkFlitReceive _ _ _ _ => false
  | .linkAckReceive _ _ _ _ => false
  | .laneLockLoss _ _ => false
  | .portRetrainDone _ _ _ => false
  | .retrain _ _ => false
  | .remoteLimitExpiry _ => false
  | .groupJoinArrival _ _ _ _ _ _ => false
  | .groupCommitArrival _ _ => false
  | .groupAbortMsg _ _ _ => false
  | .cgwaitLimit _ _ => false
  | .cgformLimit _ _ => false
  | .cgansCommit _ => false
  | .cgansRefuse _ => false
  | .doorbell _ _ _ => false
  | .queuePacketRead _ _ => false
  | .launchRelease _ => false
  | .contextResume _ _ => false
  | .launchComplete _ => false
  | .launchLimitExpiry _ => false
  | .hostLinkAccess _ _ _ _ _ => false
  | .ctxctlClear _ _ => false
  | .ctxctlRetire _ _ => false
  | .unfreeze _ _ => false
  | .wfgo _ => false
  | .walkImageLoadDone _ => false
  | .twgo _ => false
  | .userQueueDescWrite _ _ _ _ => false
  | .freeListRegWrite _ _ _ => false
  | .schedout _ _ => false
  | .freefFrame _ _ _ => false
  | .freefBivouac _ _ => false
  | .registerWrite _ _ _ => false
  | .frontEndError _ => false
  | .correctedError _ _ _ => false
  | .uncorrectableError _ _ _ => false
  | .patrolScrub _ _ => false
  | .stbyPowerUp  => false
  | .stbyPowerDown  => false
  | .mainPowerUp _ _ _ => false
  | .mainPowerDown  => false
  | .firmwareUpdate _ _ _ => false
  | .perstLink0  => false
  | .perstLink1  => false
  | .reset _ => false
  | .pwrlim _ => false
  | .trip _ => false
  | .powerWindow _ => false
  | .thermalThrottle _ _ => false
  | .thermalTrip _ _ => false
  | .mgmtRead _ => false
  | .spdmMeasurement _ => false
  | .programTrafficAck _ _ _ => false
  | .remoteAccessArrival _ _ _ _ _ _ => false
  | .errorTriageWord _ => false
  | .thermalThrottleEnd _ _ => false

/-- Length in bytes (R28): 4, 12 or 20; 0 for an act of a unit. -/
def Instr.bytes : Instr → Nat
  | .nop _ => 4
  | .align _ _ => 4
  | .endFiring _ => 4
  | .yield _ => 4
  | .add _ _ _ _ => 4
  | .sub _ _ _ _ => 4
  | .mul _ _ _ _ => 4
  | .mulh _ _ _ _ => 4
  | .mulhn _ _ _ _ => 4
  | .div _ _ _ _ => 4
  | .divn _ _ _ _ => 4
  | .rem _ _ _ _ => 4
  | .remn _ _ _ _ => 4
  | .min _ _ _ _ => 4
  | .max _ _ _ _ => 4
  | .minn _ _ _ _ => 4
  | .maxn _ _ _ _ => 4
  | .slt _ _ _ _ => 4
  | .sltn _ _ _ _ => 4
  | .and _ _ _ _ => 4
  | .or _ _ _ _ => 4
  | .xor _ _ _ _ => 4
  | .andn _ _ _ _ => 4
  | .orn _ _ _ _ => 4
  | .sll _ _ _ _ => 4
  | .srl _ _ _ _ => 4
  | .sra _ _ _ _ => 4
  | .rol _ _ _ _ => 4
  | .ror _ _ _ _ => 4
  | .clz _ _ _ _ => 4
  | .ffs _ _ _ _ => 4
  | .popc _ _ _ _ => 4
  | .brev _ _ _ _ => 4
  | .addi _ _ _ _ => 4
  | .addiLit _ _ _ _ => 12
  | .andi _ _ _ _ => 4
  | .andiLit _ _ _ _ => 12
  | .ori _ _ _ _ => 4
  | .oriLit _ _ _ _ => 12
  | .xori _ _ _ _ => 4
  | .xoriLit _ _ _ _ => 12
  | .slti _ _ _ _ => 4
  | .sltiLit _ _ _ _ => 12
  | .slli _ _ _ _ => 4
  | .srli _ _ _ _ => 4
  | .srai _ _ _ _ => 4
  | .limm _ _ _ => 4
  | .limmLit _ _ _ => 12
  | .adpc _ _ _ => 4
  | .bfx _ _ _ _ _ _ => 12
  | .bfi _ _ _ _ _ => 12
  | .sextB _ _ _ => 4
  | .sextH _ _ _ => 4
  | .sextW _ _ _ => 4
  | .zextB _ _ _ => 4
  | .zextH _ _ _ => 4
  | .zextW _ _ _ => 4
  | .br _ _ => 4
  | .beqz _ _ _ => 4
  | .bnez _ _ _ => 4
  | .bltz _ _ _ => 4
  | .bgez _ _ _ => 4
  | .bgtz _ _ _ => 4
  | .blez _ _ _ => 4
  | .bpany _ _ _ => 4
  | .bpnone _ _ _ => 4
  | .bcmp _ _ _ _ _ => 12
  | .call _ _ => 4
  | .jr _ _ => 4
  | .ret _ => 4
  | .callr _ _ => 4
  | .jtab _ _ _ _ => 12
  | .trap _ _ => 4
  | .eret _ => 4
  | .csrr _ _ _ => 12
  | .csrw _ _ _ => 12
  | .csrx _ _ _ _ => 12
  | .ld _ _ _ _ _ _ => 4
  | .ldLit _ _ _ _ _ _ => 12
  | .ldz _ _ _ _ _ _ => 4
  | .ldzLit _ _ _ _ _ _ => 12
  | .st _ _ _ _ _ _ => 4
  | .stLit _ _ _ _ _ _ => 12
  | .pref _ _ _ _ => 4
  | .prefLit _ _ _ _ => 12
  | .amoadd _ _ _ _ _ _ _ _ => 12
  | .amoand _ _ _ _ _ _ _ _ => 12
  | .amoor _ _ _ _ _ _ _ _ => 12
  | .amoxor _ _ _ _ _ _ _ _ => 12
  | .amomin _ _ _ _ _ _ _ _ => 12
  | .amomax _ _ _ _ _ _ _ _ => 12
  | .amominn _ _ _ _ _ _ _ _ => 12
  | .amomaxn _ _ _ _ _ _ _ _ => 12
  | .amoswp _ _ _ _ _ _ _ _ => 12
  | .amocas _ _ _ _ _ _ _ _ _ => 12
  | .amofadd _ _ _ _ _ _ _ _ _ => 12
  | .fence _ _ _ => 4
  | .waita _ _ _ _ _ _ _ _ _ _ _ => 12
  | .waitaLit _ _ _ _ _ _ _ _ _ _ _ => 20
  | .bar _ _ => 4
  | .bararv _ _ => 4
  | .barwt _ _ _ _ => 4
  | .vld _ _ _ _ _ _ => 12
  | .vst _ _ _ _ _ => 12
  | .vadd _ _ _ _ _ => 4
  | .vsub _ _ _ _ _ => 4
  | .vmul _ _ _ _ _ => 4
  | .vmax _ _ _ _ _ => 4
  | .vmin _ _ _ _ _ => 4
  | .vabs _ _ _ _ => 4
  | .vneg _ _ _ _ => 4
  | .vfma _ _ _ _ _ => 4
  | .vfms _ _ _ _ _ => 4
  | .viadd _ _ _ _ _ => 4
  | .visub _ _ _ _ _ => 4
  | .vimul _ _ _ _ _ => 4
  | .vand _ _ _ _ _ => 4
  | .vor _ _ _ _ _ => 4
  | .vxor _ _ _ _ _ => 4
  | .vshl _ _ _ _ _ => 4
  | .vshr _ _ _ _ _ => 4
  | .vcmp _ _ _ _ _ _ => 4
  | .vsel _ _ _ _ _ => 4
  | .vcvt _ _ _ _ _ _ _ _ => 12
  | .vqnt _ _ _ _ _ _ _ _ => 12
  | .vdqnt _ _ _ _ _ _ _ _ _ => 12
  | .vexp2 _ _ _ _ => 4
  | .vlog2 _ _ _ _ => 4
  | .vrcp _ _ _ _ => 4
  | .vrsq _ _ _ _ => 4
  | .vtanh _ _ _ _ => 4
  | .vred _ _ _ _ _ => 12
  | .vsmxStep _ _ _ _ _ => 12
  | .vsmxMerge _ _ _ _ => 12
  | .vsmxFinal _ _ _ => 12
  | .vsmxInit _ _ => 12
  | .vrand _ _ _ _ => 12
  | .vdrop _ _ _ _ _ _ _ => 12
  | .vperm _ _ _ _ _ => 12
  | .vbcast _ _ _ _ _ => 12
  | .vbcastLit _ _ _ _ _ => 20
  | .vmovx _ _ _ _ => 12
  | .vmovv _ _ _ _ => 12
  | .fmtget _ _ _ _ => 12
  | .fmtset _ _ _ _ => 12
  | .vloop _ _ _ => 12
  | .vstrm _ _ _ _ => 12
  | .vstop _ _ _ => 12
  | .vclz _ _ _ _ _ => 4
  | .vffs _ _ _ _ _ => 4
  | .vpopc _ _ _ _ _ => 4
  | .mxmul _ _ _ _ _ => 12
  | .mxspm _ _ _ _ _ => 12
  | .mxdrn _ _ _ _ => 12
  | .mxclr _ _ _ => 4
  | .mxwait _ _ => 4
  | .mxstat _ _ => 4
  | .mxrem _ _ _ _ _ _ => 12
  | .cpy _ _ _ _ _ => 12
  | .cpyg _ _ _ _ _ => 12
  | .cpys _ _ _ _ _ => 12
  | .cpyr _ _ _ _ _ => 12
  | .cpywait _ _ => 4
  | .cpystat _ _ => 4
  | .bufdcl _ _ _ _ => 12
  | .bufset _ _ _ => 12
  | .bufqry _ _ _ => 12
  | .send _ _ _ _ _ _ _ _ _ _ => 12
  | .sendReplay _ _ _ _ => 12
  | .sendr _ _ _ _ _ => 12
  | .msgld _ _ _ => 4
  | .msgfree _ => 4
  | .tagen _ _ _ => 4
  | .tagdis _ _ _ => 4
  | .hold _ _ _ => 4
  | .release _ _ _ => 4
  | .setpri _ _ _ _ => 4
  | .spawn _ _ _ _ => 12
  | .fork _ _ _ => 4
  | .join _ _ _ _ => 4
  | .qpush _ _ _ _ _ => 12
  | .qpop _ _ _ _ _ => 12
  | .qstat _ _ _ => 12
  | .actdef _ _ _ _ _ _ _ _ _ => 12
  | .cdef _ _ _ _ _ => 12
  | .cbind _ _ _ _ _ => 12
  | .cunb _ _ _ _ => 12
  | .cld _ _ _ _ _ _ _ => 12
  | .cst _ _ _ _ _ _ => 12
  | .csnap _ _ _ _ => 12
  | .cunsnap _ _ _ => 12
  | .cgenStart _ _ _ => 12
  | .cgenHold _ _ _ _ => 12
  | .cgenRelease _ _ _ => 12
  | .cgenPinlim _ _ _ _ => 12
  | .cgenWaitgen _ _ _ _ _ => 12
  | .cstat _ _ _ _ _ => 12
  | .cprec _ _ _ => 4
  | .ccommit _ _ _ => 4
  | .kappend _ _ _ _ _ => 12
  | .klook _ _ _ _ _ _ => 12
  | .kqry _ _ _ _ _ _ _ _ => 12
  | .krehome _ _ _ _ _ => 12
  | .flpop _ _ _ => 4
  | .flpush _ _ _ _ => 4
  | .lncfg _ _ _ _ => 12
  | .lnrank _ _ _ _ => 12
  | .lncommit _ _ _ => 12
  | .lnstat _ _ _ => 12
  | .flowOpen _ _ _ _ => 12
  | .flowClose _ _ _ => 12
  | .flowQry _ _ _ => 12
  | .cgform _ _ _ _ _ => 12
  | .cgsig _ _ _ _ => 12
  | .cgwait _ _ _ _ _ _ => 12
  | .cgstat _ _ _ => 12
  | .tlbw _ _ _ _ _ _ => 12
  | .tlbinv _ _ _ _ _ => 12
  | .tlbprb _ _ _ _ _ => 12
  | .capset _ _ _ => 12
  | .ctxq _ _ _ => 4
  | .slogq _ _ _ => 4
  | .undefinedEncoding _ _ _ => 0
  | .varResultReturn _ _ => 0
  | .selectorDecision _ => 0
  | .quantumExpiry _ => 0
  | .alignWaitExpiry _ _ => 0
  | .requestArrival _ _ => 0
  | .requestRetry _ _ => 0
  | .replyArrival _ => 0
  | .autoReplySend _ => 0
  | .spawnArrival _ _ => 0
  | .spawnAnswer _ _ => 0
  | .mxremArrival _ _ => 0
  | .matrixCmdStart _ => 0
  | .matrixCmdComplete _ => 0
  | .copyCmdComplete _ _ => 0
  | .mword _ _ _ => 0
  | .mgo _ _ => 0
  | .cword _ _ _ => 0
  | .cgo _ _ => 0
  | .heldGoAccept _ _ => 0
  | .walkRequest _ _ => 0
  | .walkTimeout _ _ => 0
  | .cellDispatch _ _ _ => 0
  | .pinExpiry _ _ _ => 0
  | .poisonOpening _ _ _ => 0
  | .cellReadWake _ _ => 0
  | .waitRecheck _ _ => 0
  | .waitLimitExpiry _ _ => 0
  | .governorSample _ => 0
  | .queueRefill _ => 0
  | .stageQueueDescWrite _ _ _ => 0
  | .krehomeTarget _ _ => 0
  | .krehomeAnswer _ _ => 0
  | .rdupPropagate _ _ => 0
  | .rdupInvalidateAck _ _ => 0
  | .fabricStoreArrival _ _ _ _ _ => 0
  | .fabricReleaseApply _ _ _ _ _ _ _ => 0
  | .flowPacketArrival _ _ _ _ _ _ _ => 0
  | .linkFlitReceive _ _ _ _ => 0
  | .linkAckReceive _ _ _ _ => 0
  | .laneLockLoss _ _ => 0
  | .portRetrainDone _ _ _ => 0
  | .retrain _ _ => 0
  | .remoteLimitExpiry _ => 0
  | .groupJoinArrival _ _ _ _ _ _ => 0
  | .groupCommitArrival _ _ => 0
  | .groupAbortMsg _ _ _ => 0
  | .cgwaitLimit _ _ => 0
  | .cgformLimit _ _ => 0
  | .cgansCommit _ => 0
  | .cgansRefuse _ => 0
  | .doorbell _ _ _ => 0
  | .queuePacketRead _ _ => 0
  | .launchRelease _ => 0
  | .contextResume _ _ => 0
  | .launchComplete _ => 0
  | .launchLimitExpiry _ => 0
  | .hostLinkAccess _ _ _ _ _ => 0
  | .ctxctlClear _ _ => 0
  | .ctxctlRetire _ _ => 0
  | .unfreeze _ _ => 0
  | .wfgo _ => 0
  | .walkImageLoadDone _ => 0
  | .twgo _ => 0
  | .userQueueDescWrite _ _ _ _ => 0
  | .freeListRegWrite _ _ _ => 0
  | .schedout _ _ => 0
  | .freefFrame _ _ _ => 0
  | .freefBivouac _ _ => 0
  | .registerWrite _ _ _ => 0
  | .frontEndError _ => 0
  | .correctedError _ _ _ => 0
  | .uncorrectableError _ _ _ => 0
  | .patrolScrub _ _ => 0
  | .stbyPowerUp  => 0
  | .stbyPowerDown  => 0
  | .mainPowerUp _ _ _ => 0
  | .mainPowerDown  => 0
  | .firmwareUpdate _ _ _ => 0
  | .perstLink0  => 0
  | .perstLink1  => 0
  | .reset _ => 0
  | .pwrlim _ => 0
  | .trip _ => 0
  | .powerWindow _ => 0
  | .thermalThrottle _ _ => 0
  | .thermalTrip _ _ => 0
  | .mgmtRead _ => 0
  | .spdmMeasurement _ => 0
  | .programTrafficAck _ _ _ => 0
  | .remoteAccessArrival _ _ _ _ _ _ => 0
  | .errorTriageWord _ => 0
  | .thermalThrottleEnd _ _ => 0

end Sys2Proof
end

