-- ==== Sys2Proof/Decode.lean ====
section
/-! DEFINITION. From words to instructions and back (R27 to R47). `decodeWords` is total: words that are no instruction give the
number of the first check of R46 that fails. `encode` lays an instruction out from the same field tables. -/
namespace Sys2Proof

/-- One bit of a field. -/
def bit (b : Bool) : BitVec 1 := BitVec.ofBool b

/-! ### Fields of the first word (R27, R39) and of word 1 of the W form (R42) -/

def fLen (w : BitVec 32) : BitVec 2 := w.extractLsb' 0 2
def fS (w : BitVec 32) : Bool := w.getLsbD 2
def fMajor (w : BitVec 32) : BitVec 7 := w.extractLsb' 3 7
def fD (w : BitVec 32) : BitVec 6 := w.extractLsb' 10 6
def fA (w : BitVec 32) : BitVec 6 := w.extractLsb' 16 6
def fB (w : BitVec 32) : BitVec 6 := w.extractLsb' 22 6
def fFn (w : BitVec 32) : BitVec 4 := w.extractLsb' 28 4
def fImm10 (w : BitVec 32) : BitVec 10 := w.extractLsb' 22 10
def fSize (w : BitVec 32) : BitVec 2 := w.extractLsb' 22 2
def fOrd (w : BitVec 32) : BitVec 2 := w.extractLsb' 24 2
def fOff6 (w : BitVec 32) : BitVec 6 := w.extractLsb' 26 6
def fCond (w : BitVec 32) : BitVec 3 := w.extractLsb' 10 3
def fJA (w : BitVec 32) : BitVec 6 := w.extractLsb' 13 6
def fOff13 (w : BitVec 32) : BitVec 13 := w.extractLsb' 19 13
def fOff22 (w : BitVec 32) : BitVec 22 := w.extractLsb' 10 22
def fVD (w : BitVec 32) : BitVec 5 := w.extractLsb' 10 5
def fVA (w : BitVec 32) : BitVec 5 := w.extractLsb' 15 5
def fVB (w : BitVec 32) : BitVec 5 := w.extractLsb' 20 5
def fVP (w : BitVec 32) : BitVec 3 := w.extractLsb' 25 3
def fImm16 (w : BitVec 32) : BitVec 16 := w.extractLsb' 16 16
def fFn2 (w : BitVec 32) : BitVec 4 := w.extractLsb' 12 4
def fE (w : BitVec 32) : BitVec 6 := w.extractLsb' 6 6
def fC (w : BitVec 32) : BitVec 6 := w.extractLsb' 0 6

/-! ### The forms, high field first (R39, R42) -/

def tWord (fn : BitVec 4) (b a d : BitVec 6) (mj : BitVec 7) (m : Bool) (ln : BitVec 2) : BitVec 32 :=
  fn ++ b ++ a ++ d ++ mj ++ bit m ++ ln
def iWord (imm : BitVec 10) (a d : BitVec 6) (mj : BitVec 7) (m : Bool) (ln : BitVec 2) : BitVec 32 :=
  imm ++ a ++ d ++ mj ++ bit m ++ ln
def mWord (off : BitVec 6) (ord size : BitVec 2) (a t : BitVec 6) (mj : BitVec 7) (m : Bool) (ln : BitVec 2) : BitVec 32 :=
  off ++ ord ++ size ++ a ++ t ++ mj ++ bit m ++ ln
def jWord (off : BitVec 13) (a : BitVec 6) (cond : BitVec 3) (mj : BitVec 7) (m : Bool) (ln : BitVec 2) : BitVec 32 :=
  off ++ a ++ cond ++ mj ++ bit m ++ ln
def vWord (fn : BitVec 4) (p : BitVec 3) (b a d : BitVec 5) (mj : BitVec 7) (m : Bool) (ln : BitVec 2) : BitVec 32 :=
  fn ++ p ++ b ++ a ++ d ++ mj ++ bit m ++ ln
def lWord (off : BitVec 22) (mj : BitVec 7) (m : Bool) (ln : BitVec 2) : BitVec 32 := off ++ mj ++ bit m ++ ln
def wWord (imm : BitVec 16) (fn2 : BitVec 4) (e c : BitVec 6) : BitVec 32 := imm ++ fn2 ++ e ++ c
def litLo (v : BitVec 64) : BitVec 32 := v.extractLsb' 0 32
def litHi (v : BitVec 64) : BitVec 32 := v.extractLsb' 32 32

/-- Checks 3 to 7 of R46 in order, for words that select one instruction: `lit` says that LEN carries a literal, `ok` that the
first word's fields select an instruction that allows one (R45): a reserved selector of the first word under a literal length
reports 3 and not 4. -/
def chk (lit ok sel mbz reg csr : Bool) (i : Instr) : Except Nat Instr :=
  if lit && !ok then .error 3
  else if !sel then .error 4
  else if !mbz then .error 5
  else if !reg then .error 6
  else if !csr then .error 7
  else .ok i

/-- Words whose selector names no instruction (R46 checks 3 and 4). -/
def noSel (lit : Bool) : Except Nat Instr := .error (if lit then 3 else 4)

/-- Major 0x00: NOP, ALIGN, END, YIELD. -/
def dec00 (lit : Bool) (w0 _w1 _w2 _w3 _w4 : BitVec 32) : Except Nat Instr :=
  if decide (fFn w0 = 0#4) then chk lit false true (decide ((fD w0) = 0#6) && decide ((fA w0) = 0#6) && decide ((fB w0) = 0#6)) true true (.nop (fS w0))
  else if decide (fFn w0 = 1#4) then chk lit false true (decide (fD w0 = 0#6)) true true (.align (fS w0) (fB w0 ++ fA w0))
  else if decide (fFn w0 = 2#4) then chk lit false true (decide ((fD w0) = 0#6) && decide ((fA w0) = 0#6) && decide ((fB w0) = 0#6)) true true (.endFiring (fS w0))
  else if decide (fFn w0 = 3#4) then chk lit false true (decide ((fD w0) = 0#6) && decide ((fA w0) = 0#6) && decide ((fB w0) = 0#6)) true true (.yield (fS w0))
  else noSel lit

/-- Major 0x01: ADD, SUB, MUL, MULH, MULHN, DIV, DIVN, REM, REMN, MIN, MAX, MINN, MAXN, SLT, SLTN. -/
def dec01 (lit : Bool) (w0 _w1 _w2 _w3 _w4 : BitVec 32) : Except Nat Instr :=
  if decide (fFn w0 = 0#4) then chk lit false true true true true (.add (fS w0) (fD w0) (fA w0) (fB w0))
  else if decide (fFn w0 = 1#4) then chk lit false true true true true (.sub (fS w0) (fD w0) (fA w0) (fB w0))
  else if decide (fFn w0 = 2#4) then chk lit false true true true true (.mul (fS w0) (fD w0) (fA w0) (fB w0))
  else if decide (fFn w0 = 3#4) then chk lit false true true true true (.mulh (fS w0) (fD w0) (fA w0) (fB w0))
  else if decide (fFn w0 = 4#4) then chk lit false true true true true (.mulhn (fS w0) (fD w0) (fA w0) (fB w0))
  else if decide (fFn w0 = 5#4) then chk lit false true true true true (.div (fS w0) (fD w0) (fA w0) (fB w0))
  else if decide (fFn w0 = 6#4) then chk lit false true true true true (.divn (fS w0) (fD w0) (fA w0) (fB w0))
  else if decide (fFn w0 = 7#4) then chk lit false true true true true (.rem (fS w0) (fD w0) (fA w0) (fB w0))
  else if decide (fFn w0 = 8#4) then chk lit false true true true true (.remn (fS w0) (fD w0) (fA w0) (fB w0))
  else if decide (fFn w0 = 9#4) then chk lit false true true true true (.min (fS w0) (fD w0) (fA w0) (fB w0))
  else if decide (fFn w0 = 10#4) then chk lit false true true true true (.max (fS w0) (fD w0) (fA w0) (fB w0))
  else if decide (fFn w0 = 11#4) then chk lit false true true true true (.minn (fS w0) (fD w0) (fA w0) (fB w0))
  else if decide (fFn w0 = 12#4) then chk lit false true true true true (.maxn (fS w0) (fD w0) (fA w0) (fB w0))
  else if decide (fFn w0 = 13#4) then chk lit false true true true true (.slt (fS w0) (fD w0) (fA w0) (fB w0))
  else if decide (fFn w0 = 14#4) then chk lit false true true true true (.sltn (fS w0) (fD w0) (fA w0) (fB w0))
  else noSel lit

/-- Major 0x02: AND, OR, XOR, ANDN, ORN, SLL, SRL, SRA, ROL, ROR. -/
def dec02 (lit : Bool) (w0 _w1 _w2 _w3 _w4 : BitVec 32) : Except Nat Instr :=
  if decide (fFn w0 = 0#4) then chk lit false true true true true (.and (fS w0) (fD w0) (fA w0) (fB w0))
  else if decide (fFn w0 = 1#4) then chk lit false true true true true (.or (fS w0) (fD w0) (fA w0) (fB w0))
  else if decide (fFn w0 = 2#4) then chk lit false true true true true (.xor (fS w0) (fD w0) (fA w0) (fB w0))
  else if decide (fFn w0 = 3#4) then chk lit false true true true true (.andn (fS w0) (fD w0) (fA w0) (fB w0))
  else if decide (fFn w0 = 4#4) then chk lit false true true true true (.orn (fS w0) (fD w0) (fA w0) (fB w0))
  else if decide (fFn w0 = 5#4) then chk lit false true true true true (.sll (fS w0) (fD w0) (fA w0) (fB w0))
  else if decide (fFn w0 = 6#4) then chk lit false true true true true (.srl (fS w0) (fD w0) (fA w0) (fB w0))
  else if decide (fFn w0 = 7#4) then chk lit false true true true true (.sra (fS w0) (fD w0) (fA w0) (fB w0))
  else if decide (fFn w0 = 8#4) then chk lit false true true true true (.rol (fS w0) (fD w0) (fA w0) (fB w0))
  else if decide (fFn w0 = 9#4) then chk lit false true true true true (.ror (fS w0) (fD w0) (fA w0) (fB w0))
  else noSel lit

/-- Major 0x03: CLZ, FFS, POPC, BREV. -/
def dec03 (lit : Bool) (w0 _w1 _w2 _w3 _w4 : BitVec 32) : Except Nat Instr :=
  if decide ((fFn w0).extractLsb' 0 2 = 0#2) then chk lit false true (decide (fB w0 = 0#6)) true true (.clz (fS w0) ((fFn w0).extractLsb' 2 2) (fD w0) (fA w0))
  else if decide ((fFn w0).extractLsb' 0 2 = 1#2) then chk lit false true (decide (fB w0 = 0#6)) true true (.ffs (fS w0) ((fFn w0).extractLsb' 2 2) (fD w0) (fA w0))
  else if decide ((fFn w0).extractLsb' 0 2 = 2#2) then chk lit false true (decide (fB w0 = 0#6)) true true (.popc (fS w0) ((fFn w0).extractLsb' 2 2) (fD w0) (fA w0))
  else if decide ((fFn w0).extractLsb' 0 2 = 3#2) then chk lit false true (decide (fB w0 = 0#6)) true true (.brev (fS w0) ((fFn w0).extractLsb' 2 2) (fD w0) (fA w0))
  else noSel lit

/-- Major 0x04: ADDI, ADDI_LIT. -/
def dec04 (lit : Bool) (w0 w1 w2 _w3 _w4 : BitVec 32) : Except Nat Instr :=
  if lit then chk lit true true (decide (fImm10 w0 = 0#10)) true true (.addiLit (fS w0) (fD w0) (fA w0) (w2 ++ w1))
  else chk lit false true true true true (.addi (fS w0) (fD w0) (fA w0) (fImm10 w0))

/-- Major 0x05: ANDI, ANDI_LIT. -/
def dec05 (lit : Bool) (w0 w1 w2 _w3 _w4 : BitVec 32) : Except Nat Instr :=
  if lit then chk lit true true (decide (fImm10 w0 = 0#10)) true true (.andiLit (fS w0) (fD w0) (fA w0) (w2 ++ w1))
  else chk lit false true true true true (.andi (fS w0) (fD w0) (fA w0) (fImm10 w0))

/-- Major 0x06: ORI, ORI_LIT. -/
def dec06 (lit : Bool) (w0 w1 w2 _w3 _w4 : BitVec 32) : Except Nat Instr :=
  if lit then chk lit true true (decide (fImm10 w0 = 0#10)) true true (.oriLit (fS w0) (fD w0) (fA w0) (w2 ++ w1))
  else chk lit false true true true true (.ori (fS w0) (fD w0) (fA w0) (fImm10 w0))

/-- Major 0x07: XORI, XORI_LIT. -/
def dec07 (lit : Bool) (w0 w1 w2 _w3 _w4 : BitVec 32) : Except Nat Instr :=
  if lit then chk lit true true (decide (fImm10 w0 = 0#10)) true true (.xoriLit (fS w0) (fD w0) (fA w0) (w2 ++ w1))
  else chk lit false true true true true (.xori (fS w0) (fD w0) (fA w0) (fImm10 w0))

/-- Major 0x08: SLTI, SLTI_LIT. -/
def dec08 (lit : Bool) (w0 w1 w2 _w3 _w4 : BitVec 32) : Except Nat Instr :=
  if lit then chk lit true true (decide (fImm10 w0 = 0#10)) true true (.sltiLit (fS w0) (fD w0) (fA w0) (w2 ++ w1))
  else chk lit false true true true true (.slti (fS w0) (fD w0) (fA w0) (fImm10 w0))

/-- Major 0x09: SLLI, SRLI, SRAI. -/
def dec09 (lit : Bool) (w0 _w1 _w2 _w3 _w4 : BitVec 32) : Except Nat Instr :=
  if decide ((fImm10 w0).extractLsb' 8 2 = 0#2) then chk lit false true (decide ((fImm10 w0).extractLsb' 6 2 = 0#2)) true true (.slli (fS w0) (fD w0) (fA w0) ((fImm10 w0).extractLsb' 0 6))
  else if decide ((fImm10 w0).extractLsb' 8 2 = 1#2) then chk lit false true (decide ((fImm10 w0).extractLsb' 6 2 = 0#2)) true true (.srli (fS w0) (fD w0) (fA w0) ((fImm10 w0).extractLsb' 0 6))
  else if decide ((fImm10 w0).extractLsb' 8 2 = 2#2) then chk lit false true (decide ((fImm10 w0).extractLsb' 6 2 = 0#2)) true true (.srai (fS w0) (fD w0) (fA w0) ((fImm10 w0).extractLsb' 0 6))
  else noSel lit

/-- Major 0x0A: LIMM, LIMM_LIT. -/
def dec0A (lit : Bool) (w0 w1 w2 _w3 _w4 : BitVec 32) : Except Nat Instr :=
  if lit then chk lit true true (decide ((fA w0) = 0#6) && decide (fImm10 w0 = 0#10)) true true (.limmLit (fS w0) (fD w0) (w2 ++ w1))
  else chk lit false true (decide ((fA w0) = 0#6)) true true (.limm (fS w0) (fD w0) (fImm10 w0))

/-- Major 0x0B: ADPC. -/
def dec0B (lit : Bool) (w0 _w1 _w2 _w3 _w4 : BitVec 32) : Except Nat Instr :=
  chk lit false true (decide ((fA w0) = 0#6)) true true (.adpc (fS w0) (fD w0) (fImm10 w0))

/-- Major 0x0C: BFX. -/
def dec0C (lit : Bool) (w0 w1 w2 _w3 _w4 : BitVec 32) : Except Nat Instr :=
  chk lit false ((!decide (((fImm16 w1).extractLsb' 8 7) = 0#7) && decide (((fImm16 w1).extractLsb' 0 6).toNat + ((fImm16 w1).extractLsb' 8 7).toNat ≤ 64))) (decide ((fB w0) = 0#6) && decide ((fE w1) = 0#6) && decide ((fC w1) = 0#6) && decide (fFn w0 = 0#4) && decide (fFn2 w1 = 0#4) && decide (((fImm16 w1).extractLsb' 6 2) = 0#2) && decide (w2 = 0#32)) true true (.bfx (fS w0) (fD w0) (fA w0) ((fImm16 w1).getLsbD 15) ((fImm16 w1).extractLsb' 8 7) ((fImm16 w1).extractLsb' 0 6))

/-- Major 0x0D: BFI. -/
def dec0D (lit : Bool) (w0 w1 w2 _w3 _w4 : BitVec 32) : Except Nat Instr :=
  chk lit false ((!decide (((fImm16 w1).extractLsb' 8 7) = 0#7) && decide (((fImm16 w1).extractLsb' 0 6).toNat + ((fImm16 w1).extractLsb' 8 7).toNat ≤ 64))) (decide ((fB w0) = 0#6) && decide ((fE w1) = 0#6) && decide ((fC w1) = 0#6) && decide (fFn w0 = 0#4) && decide (fFn2 w1 = 0#4) && decide (((fImm16 w1).extractLsb' 15 1) = 0#1) && decide (((fImm16 w1).extractLsb' 6 2) = 0#2) && decide (w2 = 0#32)) true true (.bfi (fS w0) (fD w0) (fA w0) ((fImm16 w1).extractLsb' 8 7) ((fImm16 w1).extractLsb' 0 6))

/-- Major 0x0E: SEXT_B, SEXT_H, SEXT_W, ZEXT_B, ZEXT_H, ZEXT_W. -/
def dec0E (lit : Bool) (w0 _w1 _w2 _w3 _w4 : BitVec 32) : Except Nat Instr :=
  if decide (fFn w0 = 0#4) then chk lit false true (decide ((fB w0) = 0#6)) true true (.sextB (fS w0) (fD w0) (fA w0))
  else if decide (fFn w0 = 1#4) then chk lit false true (decide ((fB w0) = 0#6)) true true (.sextH (fS w0) (fD w0) (fA w0))
  else if decide (fFn w0 = 2#4) then chk lit false true (decide ((fB w0) = 0#6)) true true (.sextW (fS w0) (fD w0) (fA w0))
  else if decide (fFn w0 = 4#4) then chk lit false true (decide ((fB w0) = 0#6)) true true (.zextB (fS w0) (fD w0) (fA w0))
  else if decide (fFn w0 = 5#4) then chk lit false true (decide ((fB w0) = 0#6)) true true (.zextH (fS w0) (fD w0) (fA w0))
  else if decide (fFn w0 = 6#4) then chk lit false true (decide ((fB w0) = 0#6)) true true (.zextW (fS w0) (fD w0) (fA w0))
  else noSel lit

/-- Major 0x10: BR, BEQZ, BNEZ, BLTZ, BGEZ, BGTZ, BLEZ. -/
def dec10 (lit : Bool) (w0 _w1 _w2 _w3 _w4 : BitVec 32) : Except Nat Instr :=
  if decide (fCond w0 = 0#3) then chk lit false true (decide ((fJA w0) = 0#6)) true true (.br (fS w0) (fOff13 w0))
  else if decide (fCond w0 = 1#3) then chk lit false true true true true (.beqz (fS w0) (fJA w0) (fOff13 w0))
  else if decide (fCond w0 = 2#3) then chk lit false true true true true (.bnez (fS w0) (fJA w0) (fOff13 w0))
  else if decide (fCond w0 = 3#3) then chk lit false true true true true (.bltz (fS w0) (fJA w0) (fOff13 w0))
  else if decide (fCond w0 = 4#3) then chk lit false true true true true (.bgez (fS w0) (fJA w0) (fOff13 w0))
  else if decide (fCond w0 = 5#3) then chk lit false true true true true (.bgtz (fS w0) (fJA w0) (fOff13 w0))
  else if decide (fCond w0 = 6#3) then chk lit false true true true true (.blez (fS w0) (fJA w0) (fOff13 w0))
  else noSel lit

/-- Major 0x11: BPANY, BPNONE. -/
def dec11 (lit : Bool) (w0 _w1 _w2 _w3 _w4 : BitVec 32) : Except Nat Instr :=
  if decide (fCond w0 = 0#3) then chk lit false true true (decide ((fJA w0).toNat < 8)) true (.bpany (fS w0) ((fJA w0).setWidth 3) (fOff13 w0))
  else if decide (fCond w0 = 1#3) then chk lit false true true (decide ((fJA w0).toNat < 8)) true (.bpnone (fS w0) ((fJA w0).setWidth 3) (fOff13 w0))
  else noSel lit

/-- Major 0x12: BCMP. -/
def dec12 (lit : Bool) (w0 w1 w2 _w3 _w4 : BitVec 32) : Except Nat Instr :=
  chk lit false (decide ((fFn w0).toNat ≤ 5)) (decide (fD w0 = 0#6) && decide (w1 = 0#32)) true true (.bcmp (fS w0) (fFn w0) (fA w0) (fB w0) w2)

/-- Major 0x13: CALL. -/
def dec13 (lit : Bool) (w0 _w1 _w2 _w3 _w4 : BitVec 32) : Except Nat Instr :=
  chk lit false true true true true (.call (fS w0) (fOff22 w0))

/-- Major 0x14: JR, RET, CALLR. -/
def dec14 (lit : Bool) (w0 _w1 _w2 _w3 _w4 : BitVec 32) : Except Nat Instr :=
  if decide (fFn w0 = 0#4) then chk lit false true (decide ((fD w0) = 0#6) && decide ((fB w0) = 0#6)) true true (.jr (fS w0) (fA w0))
  else if decide (fFn w0 = 1#4) then chk lit false true (decide ((fD w0) = 0#6) && decide ((fA w0) = 0#6) && decide ((fB w0) = 0#6)) true true (.ret (fS w0))
  else if decide (fFn w0 = 2#4) then chk lit false true (decide ((fD w0) = 0#6) && decide ((fB w0) = 0#6)) true true (.callr (fS w0) (fA w0))
  else noSel lit

/-- Major 0x15: JTAB. -/
def dec15 (lit : Bool) (w0 w1 w2 _w3 _w4 : BitVec 32) : Except Nat Instr :=
  chk lit false true (decide ((fD w0) = 0#6) && decide ((fE w1) = 0#6) && decide ((fC w1) = 0#6) && decide (fFn w0 = 0#4) && decide (fFn2 w1 = 0#4) && decide (w2 = 0#32)) true true (.jtab (fS w0) (fA w0) (fB w0) (fImm16 w1))

/-- Major 0x18: TRAP, ERET. -/
def dec18 (lit : Bool) (w0 _w1 _w2 _w3 _w4 : BitVec 32) : Except Nat Instr :=
  if decide (fFn w0 = 0#4) then chk lit false true (decide ((fD w0) = 0#6) && decide ((fB w0) = 0#6)) true true (.trap (fS w0) (fA w0))
  else if decide (fFn w0 = 1#4) then chk lit false true (decide ((fD w0) = 0#6) && decide ((fA w0) = 0#6) && decide ((fB w0) = 0#6)) true true (.eret (fS w0))
  else noSel lit

/-- Major 0x19: CSRR, CSRW, CSRX. -/
def dec19 (lit : Bool) (w0 w1 w2 _w3 _w4 : BitVec 32) : Except Nat Instr :=
  if decide (fFn w0 = 0#4) then chk lit false true (decide ((fA w0) = 0#6) && decide ((fB w0) = 0#6) && decide ((fE w1) = 0#6) && decide ((fC w1) = 0#6) && decide (fFn2 w1 = 0#4) && decide (((fImm16 w1).extractLsb' 12 4) = 0#4) && decide (w2 = 0#32)) true (csrReadable ((fImm16 w1).extractLsb' 0 12)) (.csrr (fS w0) (fD w0) ((fImm16 w1).extractLsb' 0 12))
  else if decide (fFn w0 = 1#4) then chk lit false true (decide ((fD w0) = 0#6) && decide ((fB w0) = 0#6) && decide ((fE w1) = 0#6) && decide ((fC w1) = 0#6) && decide (fFn2 w1 = 0#4) && decide (((fImm16 w1).extractLsb' 12 4) = 0#4) && decide (w2 = 0#32)) true (csrWritable ((fImm16 w1).extractLsb' 0 12)) (.csrw (fS w0) (fA w0) ((fImm16 w1).extractLsb' 0 12))
  else if decide (fFn w0 = 2#4) then chk lit false true (decide ((fB w0) = 0#6) && decide ((fE w1) = 0#6) && decide ((fC w1) = 0#6) && decide (fFn2 w1 = 0#4) && decide (((fImm16 w1).extractLsb' 12 4) = 0#4) && decide (w2 = 0#32)) true (csrWritable ((fImm16 w1).extractLsb' 0 12)) (.csrx (fS w0) (fD w0) (fA w0) ((fImm16 w1).extractLsb' 0 12))
  else noSel lit

/-- Major 0x20: LD, LD_LIT. -/
def dec20 (lit : Bool) (w0 w1 w2 _w3 _w4 : BitVec 32) : Except Nat Instr :=
  if lit then chk lit (!decide ((fOrd w0) = 2#2)) (!decide ((fOrd w0) = 2#2)) (decide (fOff6 w0 = 0#6)) true true (.ldLit (fS w0) (fD w0) (fA w0) (fSize w0) (fOrd w0) (w2 ++ w1))
  else chk lit false (!decide ((fOrd w0) = 2#2)) true true true (.ld (fS w0) (fD w0) (fA w0) (fSize w0) (fOrd w0) (fOff6 w0))

/-- Major 0x21: LDZ, LDZ_LIT. -/
def dec21 (lit : Bool) (w0 w1 w2 _w3 _w4 : BitVec 32) : Except Nat Instr :=
  if lit then chk lit (!decide ((fOrd w0) = 2#2)) (!decide ((fOrd w0) = 2#2)) (decide (fOff6 w0 = 0#6)) true true (.ldzLit (fS w0) (fD w0) (fA w0) (fSize w0) (fOrd w0) (w2 ++ w1))
  else chk lit false (!decide ((fOrd w0) = 2#2)) true true true (.ldz (fS w0) (fD w0) (fA w0) (fSize w0) (fOrd w0) (fOff6 w0))

/-- Major 0x22: ST, ST_LIT. -/
def dec22 (lit : Bool) (w0 w1 w2 _w3 _w4 : BitVec 32) : Except Nat Instr :=
  if lit then chk lit (!decide ((fOrd w0) = 1#2)) (!decide ((fOrd w0) = 1#2)) (decide (fOff6 w0 = 0#6)) true true (.stLit (fS w0) (fD w0) (fA w0) (fSize w0) (fOrd w0) (w2 ++ w1))
  else chk lit false (!decide ((fOrd w0) = 1#2)) true true true (.st (fS w0) (fD w0) (fA w0) (fSize w0) (fOrd w0) (fOff6 w0))

/-- Major 0x23: PREF, PREF_LIT. -/
def dec23 (lit : Bool) (w0 w1 w2 _w3 _w4 : BitVec 32) : Except Nat Instr :=
  if lit then chk lit (decide (fOrd w0 = 0#2)) (decide (fOrd w0 = 0#2)) (decide (fD w0 = 0#6) && decide (fOff6 w0 = 0#6)) true true (.prefLit (fS w0) (fA w0) (fSize w0) (w2 ++ w1))
  else chk lit false (decide (fOrd w0 = 0#2)) (decide (fD w0 = 0#6)) true true (.pref (fS w0) (fA w0) (fSize w0) (fOff6 w0))

/-- Major 0x28: AMOADD, AMOAND, AMOOR, AMOXOR, AMOMIN, AMOMAX, AMOMINN, AMOMAXN, AMOSWP, AMOCAS, AMOFADD. -/
def dec28 (lit : Bool) (w0 w1 w2 _w3 _w4 : BitVec 32) : Except Nat Instr :=
  if decide (fFn w0 = 0#4) then chk lit false (decide ((fFn2 w1).toNat ≤ 4) && decide (((fImm16 w1).extractLsb' 0 3).toNat ≤ 5) && decide (2 ≤ ((fImm16 w1).extractLsb' 4 2).toNat)) (decide ((fE w1) = 0#6) && decide ((fC w1) = 0#6) && decide (((fImm16 w1).extractLsb' 8 8) = 0#8) && decide (((fImm16 w1).extractLsb' 6 2) = 0#2) && decide (((fImm16 w1).extractLsb' 3 1) = 0#1) && (!decide ((fFn2 w1) = 0#4) || decide (((fImm16 w1).extractLsb' 0 3) = 0#3))) true true (.amoadd (fS w0) (fD w0) (fA w0) (fB w0) ((fImm16 w1).extractLsb' 4 2) ((fImm16 w1).extractLsb' 0 3) (fFn2 w1) w2)
  else if decide (fFn w0 = 1#4) then chk lit false (decide ((fFn2 w1).toNat ≤ 4) && decide (((fImm16 w1).extractLsb' 0 3).toNat ≤ 5) && decide (2 ≤ ((fImm16 w1).extractLsb' 4 2).toNat)) (decide ((fE w1) = 0#6) && decide ((fC w1) = 0#6) && decide (((fImm16 w1).extractLsb' 8 8) = 0#8) && decide (((fImm16 w1).extractLsb' 6 2) = 0#2) && decide (((fImm16 w1).extractLsb' 3 1) = 0#1) && (!decide ((fFn2 w1) = 0#4) || decide (((fImm16 w1).extractLsb' 0 3) = 0#3))) true true (.amoand (fS w0) (fD w0) (fA w0) (fB w0) ((fImm16 w1).extractLsb' 4 2) ((fImm16 w1).extractLsb' 0 3) (fFn2 w1) w2)
  else if decide (fFn w0 = 2#4) then chk lit false (decide ((fFn2 w1).toNat ≤ 4) && decide (((fImm16 w1).extractLsb' 0 3).toNat ≤ 5) && decide (2 ≤ ((fImm16 w1).extractLsb' 4 2).toNat)) (decide ((fE w1) = 0#6) && decide ((fC w1) = 0#6) && decide (((fImm16 w1).extractLsb' 8 8) = 0#8) && decide (((fImm16 w1).extractLsb' 6 2) = 0#2) && decide (((fImm16 w1).extractLsb' 3 1) = 0#1) && (!decide ((fFn2 w1) = 0#4) || decide (((fImm16 w1).extractLsb' 0 3) = 0#3))) true true (.amoor (fS w0) (fD w0) (fA w0) (fB w0) ((fImm16 w1).extractLsb' 4 2) ((fImm16 w1).extractLsb' 0 3) (fFn2 w1) w2)
  else if decide (fFn w0 = 3#4) then chk lit false (decide ((fFn2 w1).toNat ≤ 4) && decide (((fImm16 w1).extractLsb' 0 3).toNat ≤ 5) && decide (2 ≤ ((fImm16 w1).extractLsb' 4 2).toNat)) (decide ((fE w1) = 0#6) && decide ((fC w1) = 0#6) && decide (((fImm16 w1).extractLsb' 8 8) = 0#8) && decide (((fImm16 w1).extractLsb' 6 2) = 0#2) && decide (((fImm16 w1).extractLsb' 3 1) = 0#1) && (!decide ((fFn2 w1) = 0#4) || decide (((fImm16 w1).extractLsb' 0 3) = 0#3))) true true (.amoxor (fS w0) (fD w0) (fA w0) (fB w0) ((fImm16 w1).extractLsb' 4 2) ((fImm16 w1).extractLsb' 0 3) (fFn2 w1) w2)
  else if decide (fFn w0 = 4#4) then chk lit false (decide ((fFn2 w1).toNat ≤ 4) && decide (((fImm16 w1).extractLsb' 0 3).toNat ≤ 5) && decide (2 ≤ ((fImm16 w1).extractLsb' 4 2).toNat)) (decide ((fE w1) = 0#6) && decide ((fC w1) = 0#6) && decide (((fImm16 w1).extractLsb' 8 8) = 0#8) && decide (((fImm16 w1).extractLsb' 6 2) = 0#2) && decide (((fImm16 w1).extractLsb' 3 1) = 0#1) && (!decide ((fFn2 w1) = 0#4) || decide (((fImm16 w1).extractLsb' 0 3) = 0#3))) true true (.amomin (fS w0) (fD w0) (fA w0) (fB w0) ((fImm16 w1).extractLsb' 4 2) ((fImm16 w1).extractLsb' 0 3) (fFn2 w1) w2)
  else if decide (fFn w0 = 5#4) then chk lit false (decide ((fFn2 w1).toNat ≤ 4) && decide (((fImm16 w1).extractLsb' 0 3).toNat ≤ 5) && decide (2 ≤ ((fImm16 w1).extractLsb' 4 2).toNat)) (decide ((fE w1) = 0#6) && decide ((fC w1) = 0#6) && decide (((fImm16 w1).extractLsb' 8 8) = 0#8) && decide (((fImm16 w1).extractLsb' 6 2) = 0#2) && decide (((fImm16 w1).extractLsb' 3 1) = 0#1) && (!decide ((fFn2 w1) = 0#4) || decide (((fImm16 w1).extractLsb' 0 3) = 0#3))) true true (.amomax (fS w0) (fD w0) (fA w0) (fB w0) ((fImm16 w1).extractLsb' 4 2) ((fImm16 w1).extractLsb' 0 3) (fFn2 w1) w2)
  else if decide (fFn w0 = 6#4) then chk lit false (decide ((fFn2 w1).toNat ≤ 4) && decide (((fImm16 w1).extractLsb' 0 3).toNat ≤ 5) && decide (2 ≤ ((fImm16 w1).extractLsb' 4 2).toNat)) (decide ((fE w1) = 0#6) && decide ((fC w1) = 0#6) && decide (((fImm16 w1).extractLsb' 8 8) = 0#8) && decide (((fImm16 w1).extractLsb' 6 2) = 0#2) && decide (((fImm16 w1).extractLsb' 3 1) = 0#1) && (!decide ((fFn2 w1) = 0#4) || decide (((fImm16 w1).extractLsb' 0 3) = 0#3))) true true (.amominn (fS w0) (fD w0) (fA w0) (fB w0) ((fImm16 w1).extractLsb' 4 2) ((fImm16 w1).extractLsb' 0 3) (fFn2 w1) w2)
  else if decide (fFn w0 = 7#4) then chk lit false (decide ((fFn2 w1).toNat ≤ 4) && decide (((fImm16 w1).extractLsb' 0 3).toNat ≤ 5) && decide (2 ≤ ((fImm16 w1).extractLsb' 4 2).toNat)) (decide ((fE w1) = 0#6) && decide ((fC w1) = 0#6) && decide (((fImm16 w1).extractLsb' 8 8) = 0#8) && decide (((fImm16 w1).extractLsb' 6 2) = 0#2) && decide (((fImm16 w1).extractLsb' 3 1) = 0#1) && (!decide ((fFn2 w1) = 0#4) || decide (((fImm16 w1).extractLsb' 0 3) = 0#3))) true true (.amomaxn (fS w0) (fD w0) (fA w0) (fB w0) ((fImm16 w1).extractLsb' 4 2) ((fImm16 w1).extractLsb' 0 3) (fFn2 w1) w2)
  else if decide (fFn w0 = 8#4) then chk lit false (decide ((fFn2 w1).toNat ≤ 4) && decide (((fImm16 w1).extractLsb' 0 3).toNat ≤ 5) && decide (2 ≤ ((fImm16 w1).extractLsb' 4 2).toNat)) (decide ((fE w1) = 0#6) && decide ((fC w1) = 0#6) && decide (((fImm16 w1).extractLsb' 8 8) = 0#8) && decide (((fImm16 w1).extractLsb' 6 2) = 0#2) && decide (((fImm16 w1).extractLsb' 3 1) = 0#1) && (!decide ((fFn2 w1) = 0#4) || decide (((fImm16 w1).extractLsb' 0 3) = 0#3))) true true (.amoswp (fS w0) (fD w0) (fA w0) (fB w0) ((fImm16 w1).extractLsb' 4 2) ((fImm16 w1).extractLsb' 0 3) (fFn2 w1) w2)
  else if decide (fFn w0 = 9#4) then chk lit false (decide ((fFn2 w1).toNat ≤ 4) && decide (((fImm16 w1).extractLsb' 0 3).toNat ≤ 5) && decide (2 ≤ ((fImm16 w1).extractLsb' 4 2).toNat)) (decide ((fE w1) = 0#6) && decide (((fImm16 w1).extractLsb' 8 8) = 0#8) && decide (((fImm16 w1).extractLsb' 6 2) = 0#2) && decide (((fImm16 w1).extractLsb' 3 1) = 0#1) && (!decide ((fFn2 w1) = 0#4) || decide (((fImm16 w1).extractLsb' 0 3) = 0#3))) true true (.amocas (fS w0) (fD w0) (fA w0) (fB w0) (fC w1) ((fImm16 w1).extractLsb' 4 2) ((fImm16 w1).extractLsb' 0 3) (fFn2 w1) w2)
  else if decide (fFn w0 = 10#4) then chk lit false (decide ((fFn2 w1).toNat ≤ 4) && decide (((fImm16 w1).extractLsb' 0 3).toNat ≤ 5) && (decide (((fImm16 w1).extractLsb' 6 2) = 0#2) && decide (((fImm16 w1).extractLsb' 4 2) = 2#2) || (decide (((fImm16 w1).extractLsb' 6 2) = 1#2) || decide (((fImm16 w1).extractLsb' 6 2) = 2#2)) && decide (((fImm16 w1).extractLsb' 4 2) = 1#2))) (decide ((fE w1) = 0#6) && decide ((fC w1) = 0#6) && decide (((fImm16 w1).extractLsb' 8 8) = 0#8) && decide (((fImm16 w1).extractLsb' 3 1) = 0#1) && (!decide ((fFn2 w1) = 0#4) || decide (((fImm16 w1).extractLsb' 0 3) = 0#3))) true true (.amofadd (fS w0) (fD w0) (fA w0) (fB w0) ((fImm16 w1).extractLsb' 6 2) ((fImm16 w1).extractLsb' 4 2) ((fImm16 w1).extractLsb' 0 3) (fFn2 w1) w2)
  else noSel lit

/-- Major 0x29: FENCE. -/
def dec29 (lit : Bool) (w0 _w1 _w2 _w3 _w4 : BitVec 32) : Except Nat Instr :=
  chk lit false (decide ((fA w0).toNat < 4) && decide ((fB w0).toNat < 6) && decide (((fB w0).setWidth 3).toNat ≤ 5)) (decide (fFn w0 = 0#4) && decide (fD w0 = 0#6)) true true (.fence (fS w0) ((fA w0).setWidth 2) ((fB w0).setWidth 3))

/-- Major 0x2A: WAITA, WAITA_LIT. -/
def dec2A (lit : Bool) (w0 w1 w2 w3 w4 : BitVec 32) : Except Nat Instr :=
  if lit then chk lit (decide ((fFn w0).toNat ≤ 7)) (decide ((fFn w0).toNat ≤ 7) && decide ((fFn2 w1).toNat ≤ 1) && decide (((fImm16 w1).extractLsb' 0 3).toNat ≤ 5)) (decide (((fImm16 w1).extractLsb' 6 10) = 0#10) && decide (((fImm16 w1).extractLsb' 3 1) = 0#1) && decide (w2 = 0#32) && (!decide ((fFn2 w1) = 0#4) || decide (((fImm16 w1).extractLsb' 0 3) = 0#3))) true true (.waitaLit (fS w0) (fD w0) (fA w0) (fB w0) (fE w1) (fC w1) (fFn w0) ((fImm16 w1).extractLsb' 4 2) ((fImm16 w1).extractLsb' 0 3) (fFn2 w1) (w4 ++ w3))
  else chk lit false (decide ((fFn w0).toNat ≤ 7) && decide ((fFn2 w1).toNat ≤ 1) && decide (((fImm16 w1).extractLsb' 0 3).toNat ≤ 5)) (decide (((fImm16 w1).extractLsb' 6 10) = 0#10) && decide (((fImm16 w1).extractLsb' 3 1) = 0#1) && (!decide ((fFn2 w1) = 0#4) || decide (((fImm16 w1).extractLsb' 0 3) = 0#3))) true true (.waita (fS w0) (fD w0) (fA w0) (fB w0) (fE w1) (fC w1) (fFn w0) ((fImm16 w1).extractLsb' 4 2) ((fImm16 w1).extractLsb' 0 3) (fFn2 w1) w2)

/-- Major 0x2B: BAR, BARARV, BARWT. -/
def dec2B (lit : Bool) (w0 _w1 _w2 _w3 _w4 : BitVec 32) : Except Nat Instr :=
  if decide (fFn w0 = 0#4) then chk lit false true (decide ((fA w0) = 0#6) && decide ((fB w0) = 0#6)) true true (.bar (fS w0) (fD w0))
  else if decide (fFn w0 = 1#4) then chk lit false true (decide ((fA w0) = 0#6) && decide ((fB w0) = 0#6)) true true (.bararv (fS w0) (fD w0))
  else if decide (fFn w0 = 2#4) then chk lit false true true true true (.barwt (fS w0) (fD w0) (fA w0) (fB w0))
  else noSel lit

/-- Major 0x30: VLD, VST. -/
def dec30 (lit : Bool) (w0 w1 w2 _w3 _w4 : BitVec 32) : Except Nat Instr :=
  if decide (fFn w0 = 0#4) then chk lit false true (decide ((fB w0) = 0#6) && decide ((fE w1) = 0#6) && decide (fImm16 w1 = 0#16)) (decide ((fD w0).toNat < 32) && decide ((fC w1).toNat < 8)) true (.vld (fS w0) ((fD w0).setWidth 5) (fA w0) ((fC w1).setWidth 3) (fFn2 w1) w2)
  else if decide (fFn w0 = 1#4) then chk lit false true (decide ((fB w0) = 0#6) && decide ((fE w1) = 0#6) && decide (fFn2 w1 = 0#4) && decide (fImm16 w1 = 0#16)) (decide ((fD w0).toNat < 32) && decide ((fC w1).toNat < 8)) true (.vst (fS w0) ((fD w0).setWidth 5) (fA w0) ((fC w1).setWidth 3) w2)
  else noSel lit

/-- Major 0x31: VADD, VSUB, VMUL, VMAX, VMIN, VABS, VNEG, VFMA, VFMS. -/
def dec31 (lit : Bool) (w0 _w1 _w2 _w3 _w4 : BitVec 32) : Except Nat Instr :=
  if decide (fFn w0 = 0#4) then chk lit false true true true true (.vadd (fS w0) (fVD w0) (fVA w0) (fVB w0) (fVP w0))
  else if decide (fFn w0 = 1#4) then chk lit false true true true true (.vsub (fS w0) (fVD w0) (fVA w0) (fVB w0) (fVP w0))
  else if decide (fFn w0 = 2#4) then chk lit false true true true true (.vmul (fS w0) (fVD w0) (fVA w0) (fVB w0) (fVP w0))
  else if decide (fFn w0 = 3#4) then chk lit false true true true true (.vmax (fS w0) (fVD w0) (fVA w0) (fVB w0) (fVP w0))
  else if decide (fFn w0 = 4#4) then chk lit false true true true true (.vmin (fS w0) (fVD w0) (fVA w0) (fVB w0) (fVP w0))
  else if decide (fFn w0 = 5#4) then chk lit false true (decide (fVB w0 = 0#5)) true true (.vabs (fS w0) (fVD w0) (fVA w0) (fVP w0))
  else if decide (fFn w0 = 6#4) then chk lit false true (decide (fVB w0 = 0#5)) true true (.vneg (fS w0) (fVD w0) (fVA w0) (fVP w0))
  else if decide (fFn w0 = 7#4) then chk lit false true true true true (.vfma (fS w0) (fVD w0) (fVA w0) (fVB w0) (fVP w0))
  else if decide (fFn w0 = 8#4) then chk lit false true true true true (.vfms (fS w0) (fVD w0) (fVA w0) (fVB w0) (fVP w0))
  else noSel lit

/-- Major 0x32: VIADD, VISUB, VIMUL, VAND, VOR, VXOR, VSHL, VSHR. -/
def dec32 (lit : Bool) (w0 _w1 _w2 _w3 _w4 : BitVec 32) : Except Nat Instr :=
  if decide (fFn w0 = 0#4) then chk lit false true true true true (.viadd (fS w0) (fVD w0) (fVA w0) (fVB w0) (fVP w0))
  else if decide (fFn w0 = 1#4) then chk lit false true true true true (.visub (fS w0) (fVD w0) (fVA w0) (fVB w0) (fVP w0))
  else if decide (fFn w0 = 2#4) then chk lit false true true true true (.vimul (fS w0) (fVD w0) (fVA w0) (fVB w0) (fVP w0))
  else if decide (fFn w0 = 3#4) then chk lit false true true true true (.vand (fS w0) (fVD w0) (fVA w0) (fVB w0) (fVP w0))
  else if decide (fFn w0 = 4#4) then chk lit false true true true true (.vor (fS w0) (fVD w0) (fVA w0) (fVB w0) (fVP w0))
  else if decide (fFn w0 = 5#4) then chk lit false true true true true (.vxor (fS w0) (fVD w0) (fVA w0) (fVB w0) (fVP w0))
  else if decide (fFn w0 = 6#4) then chk lit false true true true true (.vshl (fS w0) (fVD w0) (fVA w0) (fVB w0) (fVP w0))
  else if decide (fFn w0 = 7#4) then chk lit false true true true true (.vshr (fS w0) (fVD w0) (fVA w0) (fVB w0) (fVP w0))
  else noSel lit

/-- Major 0x33: VCMP, VSEL. -/
def dec33 (lit : Bool) (w0 _w1 _w2 _w3 _w4 : BitVec 32) : Except Nat Instr :=
  if !decide (fFn w0 = 8#4) then chk lit false (decide ((fFn w0).toNat ≤ 5)) true (decide ((fVD w0).toNat < 8)) true (.vcmp (fS w0) (fFn w0) ((fVD w0).setWidth 3) (fVA w0) (fVB w0) (fVP w0))
  else if decide (fFn w0 = 8#4) then chk lit false true true true true (.vsel (fS w0) (fVD w0) (fVA w0) (fVB w0) (fVP w0))
  else noSel lit

/-- Major 0x34: VCVT, VQNT, VDQNT. -/
def dec34 (lit : Bool) (w0 w1 w2 _w3 _w4 : BitVec 32) : Except Nat Instr :=
  if decide (fFn w0 = 0#4) then chk lit false (!decide ((fFn2 w1) = 0#4) && !decide ((fFn2 w1) = 9#4) && decide (((fImm16 w1).extractLsb' 0 3).toNat ≤ 4)) (decide ((fE w1) = 0#6) && decide (((fImm16 w1).extractLsb' 6 10) = 0#10) && decide (w2 = 0#32)) (decide ((fD w0).toNat < 32) && decide ((fA w0).toNat < 32) && decide ((fC w1).toNat < 8)) true (.vcvt (fS w0) ((fD w0).setWidth 5) ((fA w0).setWidth 5) (fB w0) ((fC w1).setWidth 3) ((fImm16 w1).extractLsb' 3 3) ((fImm16 w1).extractLsb' 0 3) (fFn2 w1))
  else if decide (fFn w0 = 1#4) then chk lit false (decide (4 ≤ (fFn2 w1).toNat) && decide ((fFn2 w1).toNat ≤ 9) && decide (((fImm16 w1).extractLsb' 0 3).toNat ≤ 4)) (decide ((fC w1) = 0#6) && decide (((fImm16 w1).extractLsb' 6 10) = 0#10) && decide (w2 = 0#32)) (decide ((fD w0).toNat < 32) && decide ((fA w0).toNat < 32)) true (.vqnt (fS w0) ((fD w0).setWidth 5) ((fA w0).setWidth 5) (fB w0) (fE w1) ((fImm16 w1).extractLsb' 3 3) ((fImm16 w1).extractLsb' 0 3) (fFn2 w1))
  else if decide (fFn w0 = 2#4) then chk lit false (decide (1 ≤ (fFn2 w1).toNat) && decide ((fFn2 w1).toNat ≤ 3) && decide (((fImm16 w1).extractLsb' 0 3).toNat ≤ 4)) (decide (((fImm16 w1).extractLsb' 6 10) = 0#10) && decide (w2 = 0#32)) (decide ((fD w0).toNat < 32) && decide ((fA w0).toNat < 32) && decide ((fC w1).toNat < 8)) true (.vdqnt (fS w0) ((fD w0).setWidth 5) ((fA w0).setWidth 5) (fB w0) (fE w1) ((fC w1).setWidth 3) ((fImm16 w1).extractLsb' 3 3) ((fImm16 w1).extractLsb' 0 3) (fFn2 w1))
  else noSel lit

/-- Major 0x35: VEXP2, VLOG2, VRCP, VRSQ, VTANH. -/
def dec35 (lit : Bool) (w0 _w1 _w2 _w3 _w4 : BitVec 32) : Except Nat Instr :=
  if decide (fFn w0 = 0#4) then chk lit false true (decide (fVB w0 = 0#5)) true true (.vexp2 (fS w0) (fVD w0) (fVA w0) (fVP w0))
  else if decide (fFn w0 = 1#4) then chk lit false true (decide (fVB w0 = 0#5)) true true (.vlog2 (fS w0) (fVD w0) (fVA w0) (fVP w0))
  else if decide (fFn w0 = 2#4) then chk lit false true (decide (fVB w0 = 0#5)) true true (.vrcp (fS w0) (fVD w0) (fVA w0) (fVP w0))
  else if decide (fFn w0 = 3#4) then chk lit false true (decide (fVB w0 = 0#5)) true true (.vrsq (fS w0) (fVD w0) (fVA w0) (fVP w0))
  else if decide (fFn w0 = 4#4) then chk lit false true (decide (fVB w0 = 0#5)) true true (.vtanh (fS w0) (fVD w0) (fVA w0) (fVP w0))
  else noSel lit

/-- Major 0x36: VRED, VSMX_STEP, VSMX_MERGE, VSMX_FINAL, VSMX_INIT. -/
def dec36 (lit : Bool) (w0 w1 w2 _w3 _w4 : BitVec 32) : Except Nat Instr :=
  if decide (fFn w0 = 0#4) then chk lit false (decide ((fFn2 w1).toNat ≤ 4)) (decide ((fB w0) = 0#6) && decide ((fE w1) = 0#6) && decide (fImm16 w1 = 0#16) && decide (w2 = 0#32)) (decide ((fD w0).toNat < 32) && decide ((fA w0).toNat < 32) && decide ((fC w1).toNat < 8)) true (.vred (fS w0) ((fD w0).setWidth 5) ((fA w0).setWidth 5) ((fC w1).setWidth 3) (fFn2 w1))
  else if decide (fFn w0 = 1#4) && decide (fFn2 w1 = 0#4) then chk lit false true (decide ((fB w0) = 0#6) && decide (fImm16 w1 = 0#16) && decide (w2 = 0#32)) (decide ((fD w0).toNat < 32) && decide ((fA w0).toNat < 32) && decide ((fE w1).toNat < 32) && decide ((fC w1).toNat < 8)) true (.vsmxStep (fS w0) ((fD w0).setWidth 5) ((fA w0).setWidth 5) ((fE w1).setWidth 5) ((fC w1).setWidth 3))
  else if decide (fFn w0 = 1#4) && decide (fFn2 w1 = 1#4) then chk lit false true (decide ((fB w0) = 0#6) && decide ((fC w1) = 0#6) && decide (fImm16 w1 = 0#16) && decide (w2 = 0#32)) (decide ((fD w0).toNat < 32) && decide ((fA w0).toNat < 32) && decide ((fE w1).toNat < 32)) true (.vsmxMerge (fS w0) ((fD w0).setWidth 5) ((fA w0).setWidth 5) ((fE w1).setWidth 5))
  else if decide (fFn w0 = 1#4) && decide (fFn2 w1 = 2#4) then chk lit false true (decide ((fA w0) = 0#6) && decide ((fB w0) = 0#6) && decide ((fC w1) = 0#6) && decide (fImm16 w1 = 0#16) && decide (w2 = 0#32)) (decide ((fD w0).toNat < 32) && decide ((fE w1).toNat < 32)) true (.vsmxFinal (fS w0) ((fD w0).setWidth 5) ((fE w1).setWidth 5))
  else if decide (fFn w0 = 1#4) && decide (fFn2 w1 = 3#4) then chk lit false true (decide ((fD w0) = 0#6) && decide ((fA w0) = 0#6) && decide ((fB w0) = 0#6) && decide ((fC w1) = 0#6) && decide (fImm16 w1 = 0#16) && decide (w2 = 0#32)) (decide ((fE w1).toNat < 32)) true (.vsmxInit (fS w0) ((fE w1).setWidth 5))
  else noSel lit

/-- Major 0x37: VRAND, VDROP. -/
def dec37 (lit : Bool) (w0 w1 w2 _w3 _w4 : BitVec 32) : Except Nat Instr :=
  if decide (fFn w0 = 0#4) then chk lit false true (decide ((fB w0) = 0#6) && decide ((fE w1) = 0#6) && decide (fFn2 w1 = 0#4) && decide (fImm16 w1 = 0#16) && decide (w2 = 0#32)) (decide ((fD w0).toNat < 32) && decide ((fC w1).toNat < 8)) true (.vrand (fS w0) ((fD w0).setWidth 5) (fA w0) ((fC w1).setWidth 3))
  else if decide (fFn w0 = 1#4) then chk lit false true (decide (fFn2 w1 = 0#4) && decide (fImm16 w1 = 0#16)) (decide ((fD w0).toNat < 32) && decide ((fA w0).toNat < 32) && decide ((fC w1).toNat < 8)) true (.vdrop (fS w0) ((fD w0).setWidth 5) ((fA w0).setWidth 5) (fB w0) (fE w1) ((fC w1).setWidth 3) w2)
  else noSel lit

/-- Major 0x38: VPERM, VBCAST, VBCAST_LIT, VMOVX, VMOVV, FMTGET, FMTSET. -/
def dec38 (lit : Bool) (w0 w1 w2 w3 w4 : BitVec 32) : Except Nat Instr :=
  if decide (fFn w0 = 0#4) then chk lit false true (decide ((fE w1) = 0#6) && decide (fFn2 w1 = 0#4) && decide (fImm16 w1 = 0#16) && decide (w2 = 0#32)) (decide ((fD w0).toNat < 32) && decide ((fA w0).toNat < 32) && decide ((fB w0).toNat < 32) && decide ((fC w1).toNat < 8)) true (.vperm (fS w0) ((fD w0).setWidth 5) ((fA w0).setWidth 5) ((fB w0).setWidth 5) ((fC w1).setWidth 3))
  else if decide (fFn w0 = 1#4) && !lit then chk lit false true (decide ((fB w0) = 0#6) && decide ((fE w1) = 0#6) && decide (fImm16 w1 = 0#16) && decide (w2 = 0#32)) (decide ((fD w0).toNat < 32) && decide ((fC w1).toNat < 8)) true (.vbcast (fS w0) ((fD w0).setWidth 5) (fA w0) ((fC w1).setWidth 3) (fFn2 w1))
  else if decide (fFn w0 = 1#4) && lit then chk lit true true (decide ((fA w0) = 0#6) && decide ((fB w0) = 0#6) && decide ((fE w1) = 0#6) && decide (fImm16 w1 = 0#16) && decide (w2 = 0#32)) (decide ((fD w0).toNat < 32) && decide ((fC w1).toNat < 8)) true (.vbcastLit (fS w0) ((fD w0).setWidth 5) ((fC w1).setWidth 3) (fFn2 w1) (w4 ++ w3))
  else if decide (fFn w0 = 2#4) then chk lit false true (decide ((fB w0) = 0#6) && decide ((fE w1) = 0#6) && decide ((fC w1) = 0#6) && decide (fFn2 w1 = 0#4) && decide (((fImm16 w1).extractLsb' 7 9) = 0#9) && decide (w2 = 0#32)) (decide ((fA w0).toNat < 32)) true (.vmovx (fS w0) (fD w0) ((fA w0).setWidth 5) ((fImm16 w1).extractLsb' 0 7))
  else if decide (fFn w0 = 3#4) then chk lit false true (decide ((fB w0) = 0#6) && decide ((fE w1) = 0#6) && decide ((fC w1) = 0#6) && decide (fFn2 w1 = 0#4) && decide (((fImm16 w1).extractLsb' 7 9) = 0#9) && decide (w2 = 0#32)) (decide ((fD w0).toNat < 32)) true (.vmovv (fS w0) ((fD w0).setWidth 5) (fA w0) ((fImm16 w1).extractLsb' 0 7))
  else if decide (fFn w0 = 4#4) then chk lit false true (decide ((fB w0) = 0#6) && decide ((fE w1) = 0#6) && decide ((fC w1) = 0#6) && decide (fFn2 w1 = 0#4) && decide (((fImm16 w1).extractLsb' 1 15) = 0#15) && decide (w2 = 0#32)) (decide ((fA w0).toNat < 32) && (!((fImm16 w1).getLsbD 0) || decide (((fA w0).setWidth 5).toNat ≤ 15))) true (.fmtget (fS w0) (fD w0) ((fA w0).setWidth 5) ((fImm16 w1).getLsbD 0))
  else if decide (fFn w0 = 5#4) then chk lit false ((!((fImm16 w1).getLsbD 0) || decide ((fFn2 w1) = 1#4) || decide ((fFn2 w1) = 14#4))) (decide ((fA w0) = 0#6) && decide ((fB w0) = 0#6) && decide ((fE w1) = 0#6) && decide ((fC w1) = 0#6) && decide (((fImm16 w1).extractLsb' 1 15) = 0#15) && decide (w2 = 0#32)) (decide ((fD w0).toNat < 32) && (!((fImm16 w1).getLsbD 0) || decide (((fD w0).setWidth 5).toNat ≤ 15))) true (.fmtset (fS w0) ((fD w0).setWidth 5) ((fImm16 w1).getLsbD 0) (fFn2 w1))
  else noSel lit

/-- Major 0x39: VLOOP, VSTRM, VSTOP. -/
def dec39 (lit : Bool) (w0 w1 w2 _w3 _w4 : BitVec 32) : Except Nat Instr :=
  if decide (fFn w0 = 0#4) then chk lit false true (decide ((fD w0) = 0#6) && decide ((fB w0) = 0#6) && decide ((fE w1) = 0#6) && decide ((fC w1) = 0#6) && decide (fFn2 w1 = 0#4) && decide (((fImm16 w1).extractLsb' 4 12) = 0#12) && decide (w2 = 0#32)) true true (.vloop (fS w0) (fA w0) ((fImm16 w1).extractLsb' 0 4))
  else if decide (fFn w0 = 1#4) then chk lit false true (decide ((fB w0) = 0#6) && decide ((fE w1) = 0#6) && decide ((fC w1) = 0#6) && decide (fFn2 w1 = 0#4) && decide (fImm16 w1 = 0#16)) (decide ((fD w0).toNat < 32) && decide (24 ≤ ((fD w0).setWidth 5).toNat)) true (.vstrm (fS w0) ((fD w0).setWidth 5) (fA w0) w2)
  else if decide (fFn w0 = 2#4) then chk lit false true (decide ((fB w0) = 0#6) && decide ((fE w1) = 0#6) && decide ((fC w1) = 0#6) && decide (fFn2 w1 = 0#4) && decide (fImm16 w1 = 0#16) && decide (w2 = 0#32)) (decide ((fA w0).toNat < 32) && decide (24 ≤ ((fA w0).setWidth 5).toNat)) true (.vstop (fS w0) (fD w0) ((fA w0).setWidth 5))
  else noSel lit

/-- Major 0x3A: VCLZ, VFFS, VPOPC. -/
def dec3A (lit : Bool) (w0 _w1 _w2 _w3 _w4 : BitVec 32) : Except Nat Instr :=
  if decide ((fFn w0).extractLsb' 0 2 = 0#2) then chk lit false true (decide (fVB w0 = 0#5)) true true (.vclz (fS w0) ((fFn w0).extractLsb' 2 2) (fVD w0) (fVA w0) (fVP w0))
  else if decide ((fFn w0).extractLsb' 0 2 = 1#2) then chk lit false true (decide (fVB w0 = 0#5)) true true (.vffs (fS w0) ((fFn w0).extractLsb' 2 2) (fVD w0) (fVA w0) (fVP w0))
  else if decide ((fFn w0).extractLsb' 0 2 = 2#2) then chk lit false true (decide (fVB w0 = 0#5)) true true (.vpopc (fS w0) ((fFn w0).extractLsb' 2 2) (fVD w0) (fVA w0) (fVP w0))
  else noSel lit

/-- Major 0x40: MXMUL, MXSPM. -/
def dec40 (lit : Bool) (w0 w1 w2 _w3 _w4 : BitVec 32) : Except Nat Instr :=
  if decide (fFn w0 = 0#4) then chk lit false true (decide ((fD w0) = 0#6) && decide (fFn2 w1 = 0#4) && decide (fImm16 w1 = 0#16) && decide (w2 = 0#32)) true true (.mxmul (fS w0) (fA w0) (fB w0) (fE w1) (fC w1))
  else if decide (fFn w0 = 1#4) then chk lit false true (decide ((fD w0) = 0#6) && decide (fFn2 w1 = 0#4) && decide (fImm16 w1 = 0#16) && decide (w2 = 0#32)) true true (.mxspm (fS w0) (fA w0) (fB w0) (fE w1) (fC w1))
  else noSel lit

/-- Major 0x41: MXDRN. -/
def dec41 (lit : Bool) (w0 w1 w2 _w3 _w4 : BitVec 32) : Except Nat Instr :=
  chk lit false true (decide ((fD w0) = 0#6) && decide ((fE w1) = 0#6) && decide (fFn w0 = 0#4) && decide (fFn2 w1 = 0#4) && decide (fImm16 w1 = 0#16) && decide (w2 = 0#32)) true true (.mxdrn (fS w0) (fA w0) (fB w0) (fC w1))

/-- Major 0x42: MXCLR, MXWAIT, MXSTAT. -/
def dec42 (lit : Bool) (w0 _w1 _w2 _w3 _w4 : BitVec 32) : Except Nat Instr :=
  if decide (fFn w0 = 0#4) then chk lit false (decide ((fB w0 = 1#6 ∨ fB w0 = 14#6))) (decide (fA w0 = 0#6)) (decide ((fD w0).toNat < 16)) true (.mxclr (fS w0) ((fD w0).setWidth 4) (decide (fB w0 = 14#6)))
  else if decide (fFn w0 = 1#4) then chk lit false true (decide ((fA w0) = 0#6) && decide ((fB w0) = 0#6)) true true (.mxwait (fS w0) (fD w0))
  else if decide (fFn w0 = 2#4) then chk lit false true (decide ((fA w0) = 0#6) && decide ((fB w0) = 0#6)) true true (.mxstat (fS w0) (fD w0))
  else noSel lit

/-- Major 0x43: MXREM. -/
def dec43 (lit : Bool) (w0 w1 w2 _w3 _w4 : BitVec 32) : Except Nat Instr :=
  chk lit false true (decide (fFn w0 = 0#4) && decide (fFn2 w1 = 0#4) && decide (fImm16 w1 = 0#16) && decide (w2 = 0#32)) true true (.mxrem (fS w0) (fD w0) (fA w0) (fB w0) (fE w1) (fC w1))

/-- Major 0x44: CPY, CPYG, CPYS, CPYR. -/
def dec44 (lit : Bool) (w0 w1 w2 _w3 _w4 : BitVec 32) : Except Nat Instr :=
  if decide (fFn w0 = 0#4) then chk lit false true (decide ((fD w0) = 0#6) && decide (fFn2 w1 = 0#4) && decide (fImm16 w1 = 0#16) && decide (w2 = 0#32)) true true (.cpy (fS w0) (fA w0) (fB w0) (fE w1) (fC w1))
  else if decide (fFn w0 = 1#4) then chk lit false true (decide ((fD w0) = 0#6) && decide (fFn2 w1 = 0#4) && decide (fImm16 w1 = 0#16) && decide (w2 = 0#32)) true true (.cpyg (fS w0) (fA w0) (fB w0) (fE w1) (fC w1))
  else if decide (fFn w0 = 2#4) then chk lit false true (decide ((fD w0) = 0#6) && decide (fFn2 w1 = 0#4) && decide (fImm16 w1 = 0#16) && decide (w2 = 0#32)) true true (.cpys (fS w0) (fA w0) (fB w0) (fE w1) (fC w1))
  else if decide (fFn w0 = 3#4) then chk lit false true (decide ((fD w0) = 0#6) && decide (fFn2 w1 = 0#4) && decide (fImm16 w1 = 0#16) && decide (w2 = 0#32)) true true (.cpyr (fS w0) (fA w0) (fB w0) (fE w1) (fC w1))
  else noSel lit

/-- Major 0x45: CPYWAIT, CPYSTAT. -/
def dec45 (lit : Bool) (w0 _w1 _w2 _w3 _w4 : BitVec 32) : Except Nat Instr :=
  if decide (fFn w0 = 0#4) then chk lit false true (decide ((fA w0) = 0#6) && decide ((fB w0) = 0#6)) true true (.cpywait (fS w0) (fD w0))
  else if decide (fFn w0 = 1#4) then chk lit false true (decide ((fA w0) = 0#6) && decide ((fB w0) = 0#6)) true true (.cpystat (fS w0) (fD w0))
  else noSel lit

/-- Major 0x46: BUFDCL, BUFSET, BUFQRY. -/
def dec46 (lit : Bool) (w0 w1 w2 _w3 _w4 : BitVec 32) : Except Nat Instr :=
  if decide (fFn w0 = 0#4) then chk lit false true (decide ((fD w0) = 0#6) && decide ((fE w1) = 0#6) && decide ((fC w1) = 0#6) && decide (fFn2 w1 = 0#4) && decide (((fImm16 w1).extractLsb' 5 11) = 0#11) && decide (w2 = 0#32)) true true (.bufdcl (fS w0) (fA w0) (fB w0) ((fImm16 w1).extractLsb' 0 5))
  else if decide (fFn w0 = 1#4) then chk lit false ((decide ((fFn2 w1) = 0#4) || decide ((fFn2 w1) = 2#4))) (decide ((fD w0) = 0#6) && decide ((fA w0) = 0#6) && decide ((fB w0) = 0#6) && decide ((fE w1) = 0#6) && decide ((fC w1) = 0#6) && decide (((fImm16 w1).extractLsb' 5 11) = 0#11) && decide (w2 = 0#32)) true true (.bufset (fS w0) ((fImm16 w1).extractLsb' 0 5) (fFn2 w1))
  else if decide (fFn w0 = 2#4) then chk lit false true (decide ((fA w0) = 0#6) && decide ((fB w0) = 0#6) && decide ((fE w1) = 0#6) && decide ((fC w1) = 0#6) && decide (fFn2 w1 = 0#4) && decide (((fImm16 w1).extractLsb' 5 11) = 0#11) && decide (w2 = 0#32)) true true (.bufqry (fS w0) (fD w0) ((fImm16 w1).extractLsb' 0 5))
  else noSel lit

/-- Major 0x48: SEND, SEND_REPLAY, SENDR. -/
def dec48 (lit : Bool) (w0 w1 w2 _w3 _w4 : BitVec 32) : Except Nat Instr :=
  if decide (fFn w0 = 0#4) && decide (fFn2 w1 = 0#4) then chk lit false (decide (w2.toNat ≤ 256)) (decide ((fE w1) = 0#6) && decide ((fC w1) = 0#6) && decide (((fImm16 w1).extractLsb' 15 1) = 0#1) && (((fImm16 w1).getLsbD 12) || decide (((fImm16 w1).extractLsb' 6 6) = 0#6))) true true (.send (fS w0) (fD w0) (fA w0) (fB w0) ((fImm16 w1).getLsbD 14) ((fImm16 w1).getLsbD 13) ((fImm16 w1).getLsbD 12) ((fImm16 w1).extractLsb' 6 6) ((fImm16 w1).extractLsb' 0 6) w2)
  else if decide (fFn w0 = 0#4) && decide (fFn2 w1 = 1#4) then chk lit false (decide (w2.toNat ≤ 256)) (decide ((fA w0) = 0#6) && decide ((fE w1) = 0#6) && decide (fImm16 w1 = 0#16) && decide (w2 = 0#32)) true true (.sendReplay (fS w0) (fD w0) (fB w0) (fC w1))
  else if decide (fFn w0 = 1#4) && decide (fFn2 w1 = 0#4) then chk lit false (decide (w2.toNat ≤ 256)) (decide ((fA w0) = 0#6) && decide ((fE w1) = 0#6) && decide ((fC w1) = 0#6) && decide (((fImm16 w1).extractLsb' 15 1) = 0#1) && decide (((fImm16 w1).extractLsb' 0 14) = 0#14)) true true (.sendr (fS w0) (fD w0) (fB w0) ((fImm16 w1).getLsbD 14) w2)
  else noSel lit

/-- Major 0x49: MSGLD, MSGFREE. -/
def dec49 (lit : Bool) (w0 _w1 _w2 _w3 _w4 : BitVec 32) : Except Nat Instr :=
  if decide (fFn w0 = 0#4) then chk lit false true (decide ((fB w0) = 0#6)) true true (.msgld (fS w0) (fD w0) (fA w0))
  else if decide (fFn w0 = 1#4) then chk lit false true (decide ((fD w0) = 0#6) && decide ((fA w0) = 0#6) && decide ((fB w0) = 0#6)) true true (.msgfree (fS w0))
  else noSel lit

/-- Major 0x4A: TAGEN, TAGDIS, HOLD, RELEASE, SETPRI. -/
def dec4A (lit : Bool) (w0 _w1 _w2 _w3 _w4 : BitVec 32) : Except Nat Instr :=
  if decide (fFn w0 = 0#4) then chk lit false true (decide ((fB w0) = 0#6)) true true (.tagen (fS w0) (fD w0) (fA w0))
  else if decide (fFn w0 = 1#4) then chk lit false true (decide ((fB w0) = 0#6)) true true (.tagdis (fS w0) (fD w0) (fA w0))
  else if decide (fFn w0 = 2#4) then chk lit false true (decide ((fB w0) = 0#6)) true true (.hold (fS w0) (fD w0) (fA w0))
  else if decide (fFn w0 = 3#4) then chk lit false true (decide ((fB w0) = 0#6)) true true (.release (fS w0) (fD w0) (fA w0))
  else if decide (fFn w0 = 4#4) then chk lit false true true true true (.setpri (fS w0) (fD w0) (fA w0) (fB w0))
  else noSel lit

/-- Major 0x4C: SPAWN. -/
def dec4C (lit : Bool) (w0 w1 w2 _w3 _w4 : BitVec 32) : Except Nat Instr :=
  chk lit false true (decide ((fE w1) = 0#6) && decide ((fC w1) = 0#6) && decide (fFn w0 = 0#4) && decide (fFn2 w1 = 0#4) && decide (fImm16 w1 = 0#16) && decide (w2 = 0#32)) true true (.spawn (fS w0) (fD w0) (fA w0) (fB w0))

/-- Major 0x4D: FORK, JOIN. -/
def dec4D (lit : Bool) (w0 _w1 _w2 _w3 _w4 : BitVec 32) : Except Nat Instr :=
  if decide (fFn w0 = 0#4) then chk lit false true (decide ((fB w0) = 0#6)) true true (.fork (fS w0) (fD w0) (fA w0))
  else if decide (fFn w0 = 1#4) then chk lit false true true ((decide ((fD w0).toNat < 4) || decide (11 < (fD w0).toNat))) true (.join (fS w0) (fD w0) (fA w0) (fB w0))
  else noSel lit

/-- Major 0x4E: QPUSH, QPOP, QSTAT. -/
def dec4E (lit : Bool) (w0 w1 w2 _w3 _w4 : BitVec 32) : Except Nat Instr :=
  if decide (fFn w0 = 0#4) then chk lit false true (decide ((fE w1) = 0#6) && decide (fFn2 w1 = 0#4) && decide (fImm16 w1 = 0#16) && decide (w2 = 0#32)) true true (.qpush (fS w0) (fD w0) (fA w0) (fB w0) (fC w1))
  else if decide (fFn w0 = 1#4) then chk lit false true (decide ((fE w1) = 0#6) && decide (fFn2 w1 = 0#4) && decide (fImm16 w1 = 0#16) && decide (w2 = 0#32)) true true (.qpop (fS w0) (fD w0) (fA w0) (fB w0) (fC w1))
  else if decide (fFn w0 = 2#4) then chk lit false true (decide ((fB w0) = 0#6) && decide ((fE w1) = 0#6) && decide ((fC w1) = 0#6) && decide (fFn2 w1 = 0#4) && decide (fImm16 w1 = 0#16) && decide (w2 = 0#32)) true true (.qstat (fS w0) (fD w0) (fA w0))
  else noSel lit

/-- Major 0x4F: ACTDEF. -/
def dec4F (lit : Bool) (w0 w1 w2 _w3 _w4 : BitVec 32) : Except Nat Instr :=
  chk lit false true (decide ((fE w1) = 0#6) && decide (fFn w0 = 0#4) && decide (fFn2 w1 = 0#4) && decide (((fImm16 w1).extractLsb' 6 1) = 0#1) && decide (w2 = 0#32)) true true (.actdef (fS w0) (fD w0) (fA w0) (fB w0) (fC w1) ((fImm16 w1).extractLsb' 12 4) ((fImm16 w1).extractLsb' 8 4) ((fImm16 w1).getLsbD 7) ((fImm16 w1).extractLsb' 0 6))

/-- Major 0x50: CDEF, CBIND, CUNB. -/
def dec50 (lit : Bool) (w0 w1 w2 _w3 _w4 : BitVec 32) : Except Nat Instr :=
  if decide (fFn w0 = 0#4) then chk lit false true (decide ((fE w1) = 0#6) && decide ((fC w1) = 0#6) && decide (fFn2 w1 = 0#4) && decide (w2 = 0#32)) true true (.cdef (fS w0) (fD w0) (fA w0) (fB w0) (fImm16 w1))
  else if decide (fFn w0 = 1#4) then chk lit false true (decide ((fE w1) = 0#6) && decide ((fC w1) = 0#6) && decide (fFn2 w1 = 0#4) && decide (w2 = 0#32)) true true (.cbind (fS w0) (fD w0) (fA w0) (fB w0) (fImm16 w1))
  else if decide (fFn w0 = 2#4) then chk lit false true (decide ((fB w0) = 0#6) && decide ((fE w1) = 0#6) && decide ((fC w1) = 0#6) && decide (fFn2 w1 = 0#4) && decide (w2 = 0#32)) true true (.cunb (fS w0) (fD w0) (fA w0) (fImm16 w1))
  else noSel lit

/-- Major 0x51: CLD, CST. -/
def dec51 (lit : Bool) (w0 w1 w2 _w3 _w4 : BitVec 32) : Except Nat Instr :=
  if decide (fFn w0 = 0#4) then chk lit false true (decide (fFn2 w1 = 0#4) && decide (w2 = 0#32)) true true (.cld (fS w0) (fD w0) (fA w0) (fB w0) (fE w1) (fC w1) (fImm16 w1))
  else if decide (fFn w0 = 1#4) then chk lit false true (decide ((fE w1) = 0#6) && decide (fFn2 w1 = 0#4) && decide (w2 = 0#32)) true true (.cst (fS w0) (fD w0) (fA w0) (fB w0) (fC w1) (fImm16 w1))
  else noSel lit

/-- Major 0x52: CSNAP, CUNSNAP, CGEN_START, CGEN_HOLD, CGEN_RELEASE, CGEN_PINLIM, CGEN_WAITGEN, CSTAT. -/
def dec52 (lit : Bool) (w0 w1 w2 _w3 _w4 : BitVec 32) : Except Nat Instr :=
  if decide (fFn w0 = 0#4) then chk lit false true (decide ((fB w0) = 0#6) && decide ((fC w1) = 0#6) && decide (fFn2 w1 = 0#4) && decide (fImm16 w1 = 0#16) && decide (w2 = 0#32)) true true (.csnap (fS w0) (fD w0) (fA w0) (fE w1))
  else if decide (fFn w0 = 1#4) then chk lit false true (decide ((fD w0) = 0#6) && decide ((fE w1) = 0#6) && decide ((fC w1) = 0#6) && decide (fFn2 w1 = 0#4) && decide (fImm16 w1 = 0#16) && decide (w2 = 0#32)) true true (.cunsnap (fS w0) (fA w0) (fB w0))
  else if decide (fFn w0 = 2#4) && decide (fFn2 w1 = 0#4) then chk lit false true (decide ((fB w0) = 0#6) && decide ((fE w1) = 0#6) && decide ((fC w1) = 0#6) && decide (fImm16 w1 = 0#16) && decide (w2 = 0#32)) true true (.cgenStart (fS w0) (fD w0) (fA w0))
  else if decide (fFn w0 = 2#4) && decide (fFn2 w1 = 1#4) then chk lit false true (decide ((fE w1) = 0#6) && decide ((fC w1) = 0#6) && decide (fImm16 w1 = 0#16) && decide (w2 = 0#32)) true true (.cgenHold (fS w0) (fD w0) (fA w0) (fB w0))
  else if decide (fFn w0 = 2#4) && decide (fFn2 w1 = 2#4) then chk lit false true (decide ((fB w0) = 0#6) && decide ((fE w1) = 0#6) && decide ((fC w1) = 0#6) && decide (fImm16 w1 = 0#16) && decide (w2 = 0#32)) true true (.cgenRelease (fS w0) (fD w0) (fA w0))
  else if decide (fFn w0 = 2#4) && decide (fFn2 w1 = 3#4) then chk lit false true (decide ((fE w1) = 0#6) && decide ((fC w1) = 0#6) && decide (fImm16 w1 = 0#16) && decide (w2 = 0#32)) true true (.cgenPinlim (fS w0) (fD w0) (fA w0) (fB w0))
  else if decide (fFn w0 = 2#4) && decide (fFn2 w1 = 4#4) then chk lit false true (decide ((fE w1) = 0#6) && decide (fImm16 w1 = 0#16) && decide (w2 = 0#32)) true true (.cgenWaitgen (fS w0) (fD w0) (fA w0) (fB w0) (fC w1))
  else if decide (fFn w0 = 3#4) then chk lit false (decide ((fFn2 w1).toNat ≤ 2)) (decide ((fB w0) = 0#6) && decide ((fE w1) = 0#6) && decide ((fC w1) = 0#6) && decide (w2 = 0#32) && (!decide ((fFn2 w1) = 2#4) || decide ((fImm16 w1).toNat ≤ 7)) && (!decide ((fFn2 w1) = 1#4) || decide ((fImm16 w1) = 0#16))) true true (.cstat (fS w0) (fD w0) (fA w0) (fImm16 w1) (fFn2 w1))
  else noSel lit

/-- Major 0x53: CPREC, CCOMMIT. -/
def dec53 (lit : Bool) (w0 _w1 _w2 _w3 _w4 : BitVec 32) : Except Nat Instr :=
  if decide (fFn w0 = 0#4) then chk lit false true (decide ((fB w0) = 0#6)) true true (.cprec (fS w0) (fD w0) (fA w0))
  else if decide (fFn w0 = 1#4) then chk lit false true (decide ((fB w0) = 0#6)) true true (.ccommit (fS w0) (fD w0) (fA w0))
  else noSel lit

/-- Major 0x54: KAPPEND. -/
def dec54 (lit : Bool) (w0 w1 w2 _w3 _w4 : BitVec 32) : Except Nat Instr :=
  chk lit false true (decide ((fE w1) = 0#6) && decide (fFn w0 = 0#4) && decide (fFn2 w1 = 0#4) && decide (fImm16 w1 = 0#16) && decide (w2 = 0#32)) true true (.kappend (fS w0) (fD w0) (fA w0) (fB w0) (fC w1))

/-- Major 0x55: KLOOK, KQRY, KREHOME. -/
def dec55 (lit : Bool) (w0 w1 w2 _w3 _w4 : BitVec 32) : Except Nat Instr :=
  if decide (fFn w0 = 0#4) then chk lit false (decide ((fFn2 w1).toNat ≤ 1)) (decide ((fC w1) = 0#6) && decide (fImm16 w1 = 0#16) && decide (w2 = 0#32)) true true (.klook (fS w0) (fD w0) (fA w0) (fB w0) (fE w1) (fFn2 w1))
  else if decide (fFn w0 = 1#4) then chk lit false true (decide (fFn2 w1 = 0#4) && decide (((fImm16 w1).extractLsb' 10 6) = 0#6) && decide (w2 = 0#32)) true true (.kqry (fS w0) (fD w0) (fA w0) (fB w0) (fE w1) (fC w1) ((fImm16 w1).extractLsb' 4 6) ((fImm16 w1).extractLsb' 0 4))
  else if decide (fFn w0 = 2#4) then chk lit false true (decide ((fE w1) = 0#6) && decide (fFn2 w1 = 0#4) && decide (fImm16 w1 = 0#16) && decide (w2 = 0#32)) true true (.krehome (fS w0) (fD w0) (fA w0) (fB w0) (fC w1))
  else noSel lit

/-- Major 0x56: FLPOP, FLPUSH. -/
def dec56 (lit : Bool) (w0 _w1 _w2 _w3 _w4 : BitVec 32) : Except Nat Instr :=
  if decide (fFn w0 = 0#4) then chk lit false true (decide ((fB w0) = 0#6)) true true (.flpop (fS w0) (fD w0) (fA w0))
  else if decide (fFn w0 = 1#4) then chk lit false true true true true (.flpush (fS w0) (fD w0) (fA w0) (fB w0))
  else noSel lit

/-- Major 0x58: LNCFG, LNRANK, LNCOMMIT, LNSTAT. -/
def dec58 (lit : Bool) (w0 w1 w2 _w3 _w4 : BitVec 32) : Except Nat Instr :=
  if decide (fFn w0 = 0#4) then chk lit false true (decide ((fE w1) = 0#6) && decide ((fC w1) = 0#6) && decide (fFn2 w1 = 0#4) && decide (fImm16 w1 = 0#16) && decide (w2 = 0#32)) true true (.lncfg (fS w0) (fD w0) (fA w0) (fB w0))
  else if decide (fFn w0 = 1#4) then chk lit false true (decide ((fE w1) = 0#6) && decide ((fC w1) = 0#6) && decide (fFn2 w1 = 0#4) && decide (fImm16 w1 = 0#16) && decide (w2 = 0#32)) true true (.lnrank (fS w0) (fD w0) (fA w0) (fB w0))
  else if decide (fFn w0 = 2#4) then chk lit false true (decide ((fB w0) = 0#6) && decide ((fE w1) = 0#6) && decide ((fC w1) = 0#6) && decide (fFn2 w1 = 0#4) && decide (fImm16 w1 = 0#16) && decide (w2 = 0#32)) true true (.lncommit (fS w0) (fD w0) (fA w0))
  else if decide (fFn w0 = 3#4) then chk lit false true (decide ((fB w0) = 0#6) && decide ((fE w1) = 0#6) && decide ((fC w1) = 0#6) && decide (fFn2 w1 = 0#4) && decide (fImm16 w1 = 0#16) && decide (w2 = 0#32)) true true (.lnstat (fS w0) (fD w0) (fA w0))
  else noSel lit

/-- Major 0x5C: FLOW_OPEN, FLOW_CLOSE, FLOW_QRY. -/
def dec5C (lit : Bool) (w0 w1 w2 _w3 _w4 : BitVec 32) : Except Nat Instr :=
  if decide (fFn2 w1 = 0#4) then chk lit false true (decide ((fE w1) = 0#6) && decide ((fC w1) = 0#6) && decide (fFn w0 = 0#4) && decide (fImm16 w1 = 0#16) && decide (w2 = 0#32)) true true (.flowOpen (fS w0) (fD w0) (fA w0) (fB w0))
  else if decide (fFn2 w1 = 1#4) then chk lit false true (decide ((fB w0) = 0#6) && decide ((fE w1) = 0#6) && decide ((fC w1) = 0#6) && decide (fFn w0 = 0#4) && decide (fImm16 w1 = 0#16) && decide (w2 = 0#32)) true true (.flowClose (fS w0) (fD w0) (fA w0))
  else if decide (fFn2 w1 = 2#4) then chk lit false true (decide ((fB w0) = 0#6) && decide ((fE w1) = 0#6) && decide ((fC w1) = 0#6) && decide (fFn w0 = 0#4) && decide (fImm16 w1 = 0#16) && decide (w2 = 0#32)) true true (.flowQry (fS w0) (fD w0) (fA w0))
  else noSel lit

/-- Major 0x5D: CGFORM, CGSIG, CGWAIT, CGSTAT. -/
def dec5D (lit : Bool) (w0 w1 w2 _w3 _w4 : BitVec 32) : Except Nat Instr :=
  if decide (fFn w0 = 0#4) then chk lit false true (decide ((fE w1) = 0#6) && decide (fFn2 w1 = 0#4) && decide (fImm16 w1 = 0#16) && decide (w2 = 0#32)) true true (.cgform (fS w0) (fD w0) (fA w0) (fB w0) (fC w1))
  else if decide (fFn w0 = 1#4) then chk lit false true (decide ((fE w1) = 0#6) && decide ((fC w1) = 0#6) && decide (fFn2 w1 = 0#4) && decide (fImm16 w1 = 0#16) && decide (w2 = 0#32)) true true (.cgsig (fS w0) (fD w0) (fA w0) (fB w0))
  else if decide (fFn w0 = 2#4) then chk lit false true (decide (fFn2 w1 = 0#4) && decide (fImm16 w1 = 0#16) && decide (w2 = 0#32)) true true (.cgwait (fS w0) (fD w0) (fA w0) (fB w0) (fE w1) (fC w1))
  else if decide (fFn w0 = 3#4) then chk lit false true (decide ((fB w0) = 0#6) && decide ((fE w1) = 0#6) && decide ((fC w1) = 0#6) && decide (fFn2 w1 = 0#4) && decide (fImm16 w1 = 0#16) && decide (w2 = 0#32)) true true (.cgstat (fS w0) (fD w0) (fA w0))
  else noSel lit

/-- Major 0x60: TLBW, TLBINV, TLBPRB. -/
def dec60 (lit : Bool) (w0 w1 w2 _w3 _w4 : BitVec 32) : Except Nat Instr :=
  if decide (fFn w0 = 0#4) then chk lit false true (decide (fFn2 w1 = 0#4) && decide (fImm16 w1 = 0#16) && decide (w2 = 0#32)) true true (.tlbw (fS w0) (fD w0) (fA w0) (fB w0) (fE w1) (fC w1))
  else if decide (fFn w0 = 1#4) then chk lit false true (decide ((fE w1) = 0#6) && decide (fFn2 w1 = 0#4) && decide (fImm16 w1 = 0#16) && decide (w2 = 0#32)) true true (.tlbinv (fS w0) (fD w0) (fA w0) (fB w0) (fC w1))
  else if decide (fFn w0 = 2#4) then chk lit false true (decide ((fB w0) = 0#6) && decide (fFn2 w1 = 0#4) && decide (fImm16 w1 = 0#16) && decide (w2 = 0#32)) true true (.tlbprb (fS w0) (fD w0) (fA w0) (fE w1) (fC w1))
  else noSel lit

/-- Major 0x61: CAPSET. -/
def dec61 (lit : Bool) (w0 w1 w2 _w3 _w4 : BitVec 32) : Except Nat Instr :=
  chk lit false true (decide ((fB w0) = 0#6) && decide ((fE w1) = 0#6) && decide ((fC w1) = 0#6) && decide (fFn w0 = 0#4) && decide (fFn2 w1 = 0#4) && decide (fImm16 w1 = 0#16) && decide (w2 = 0#32)) true true (.capset (fS w0) (fD w0) (fA w0))

/-- Major 0x62: CTXQ. -/
def dec62 (lit : Bool) (w0 _w1 _w2 _w3 _w4 : BitVec 32) : Except Nat Instr :=
  chk lit false true (decide ((fB w0) = 0#6) && decide (fFn w0 = 0#4)) true true (.ctxq (fS w0) (fD w0) (fA w0))

/-- Major 0x63: SLOGQ. -/
def dec63 (lit : Bool) (w0 _w1 _w2 _w3 _w4 : BitVec 32) : Except Nat Instr :=
  chk lit false true (decide ((fB w0) = 0#6) && decide (fFn w0 = 0#4)) true true (.slogq (fS w0) (fD w0) (fA w0))

/-- The lengths a major defines (R47, R45): `some (literal length)` for each LEN it has; the Bool says "with a literal". -/
def lenKind (wide lits : Bool) (ln : BitVec 2) : Option Bool :=
  if wide then (if ln = 2#2 then some false else if lits && ln = 3#2 then some true else none)
  else (if ln = 0#2 then some false else if lits && ln = 1#2 then some true else none)

/-- Check 2 of R46, then the major's own decoder. -/
def withLen (wide lits : Bool) (f : Bool → Except Nat Instr) (w0 : BitVec 32) : Except Nat Instr :=
  match lenKind wide lits (fLen w0) with
  | none => .error 2
  | some l => f l

/-- The instruction that five words at an address begin with, or the number of the first failing check of R46. Words beyond the
instruction's length are not looked at. -/
def decodeWords (w0 w1 w2 w3 w4 : BitVec 32) : Except Nat Instr :=
  match (fMajor w0).toNat with
  | 0 => withLen false false (fun l => dec00 l w0 w1 w2 w3 w4) w0
  | 1 => withLen false false (fun l => dec01 l w0 w1 w2 w3 w4) w0
  | 2 => withLen false false (fun l => dec02 l w0 w1 w2 w3 w4) w0
  | 3 => withLen false false (fun l => dec03 l w0 w1 w2 w3 w4) w0
  | 4 => withLen false true (fun l => dec04 l w0 w1 w2 w3 w4) w0
  | 5 => withLen false true (fun l => dec05 l w0 w1 w2 w3 w4) w0
  | 6 => withLen false true (fun l => dec06 l w0 w1 w2 w3 w4) w0
  | 7 => withLen false true (fun l => dec07 l w0 w1 w2 w3 w4) w0
  | 8 => withLen false true (fun l => dec08 l w0 w1 w2 w3 w4) w0
  | 9 => withLen false false (fun l => dec09 l w0 w1 w2 w3 w4) w0
  | 10 => withLen false true (fun l => dec0A l w0 w1 w2 w3 w4) w0
  | 11 => withLen false false (fun l => dec0B l w0 w1 w2 w3 w4) w0
  | 12 => withLen true false (fun l => dec0C l w0 w1 w2 w3 w4) w0
  | 13 => withLen true false (fun l => dec0D l w0 w1 w2 w3 w4) w0
  | 14 => withLen false false (fun l => dec0E l w0 w1 w2 w3 w4) w0
  | 16 => withLen false false (fun l => dec10 l w0 w1 w2 w3 w4) w0
  | 17 => withLen false false (fun l => dec11 l w0 w1 w2 w3 w4) w0
  | 18 => withLen true false (fun l => dec12 l w0 w1 w2 w3 w4) w0
  | 19 => withLen false false (fun l => dec13 l w0 w1 w2 w3 w4) w0
  | 20 => withLen false false (fun l => dec14 l w0 w1 w2 w3 w4) w0
  | 21 => withLen true false (fun l => dec15 l w0 w1 w2 w3 w4) w0
  | 24 => withLen false false (fun l => dec18 l w0 w1 w2 w3 w4) w0
  | 25 => withLen true false (fun l => dec19 l w0 w1 w2 w3 w4) w0
  | 32 => withLen false true (fun l => dec20 l w0 w1 w2 w3 w4) w0
  | 33 => withLen false true (fun l => dec21 l w0 w1 w2 w3 w4) w0
  | 34 => withLen false true (fun l => dec22 l w0 w1 w2 w3 w4) w0
  | 35 => withLen false true (fun l => dec23 l w0 w1 w2 w3 w4) w0
  | 40 => withLen true false (fun l => dec28 l w0 w1 w2 w3 w4) w0
  | 41 => withLen false false (fun l => dec29 l w0 w1 w2 w3 w4) w0
  | 42 => withLen true true (fun l => dec2A l w0 w1 w2 w3 w4) w0
  | 43 => withLen false false (fun l => dec2B l w0 w1 w2 w3 w4) w0
  | 48 => withLen true false (fun l => dec30 l w0 w1 w2 w3 w4) w0
  | 49 => withLen false false (fun l => dec31 l w0 w1 w2 w3 w4) w0
  | 50 => withLen false false (fun l => dec32 l w0 w1 w2 w3 w4) w0
  | 51 => withLen false false (fun l => dec33 l w0 w1 w2 w3 w4) w0
  | 52 => withLen true false (fun l => dec34 l w0 w1 w2 w3 w4) w0
  | 53 => withLen false false (fun l => dec35 l w0 w1 w2 w3 w4) w0
  | 54 => withLen true false (fun l => dec36 l w0 w1 w2 w3 w4) w0
  | 55 => withLen true false (fun l => dec37 l w0 w1 w2 w3 w4) w0
  | 56 => withLen true true (fun l => dec38 l w0 w1 w2 w3 w4) w0
  | 57 => withLen true false (fun l => dec39 l w0 w1 w2 w3 w4) w0
  | 58 => withLen false false (fun l => dec3A l w0 w1 w2 w3 w4) w0
  | 64 => withLen true false (fun l => dec40 l w0 w1 w2 w3 w4) w0
  | 65 => withLen true false (fun l => dec41 l w0 w1 w2 w3 w4) w0
  | 66 => withLen false false (fun l => dec42 l w0 w1 w2 w3 w4) w0
  | 67 => withLen true false (fun l => dec43 l w0 w1 w2 w3 w4) w0
  | 68 => withLen true false (fun l => dec44 l w0 w1 w2 w3 w4) w0
  | 69 => withLen false false (fun l => dec45 l w0 w1 w2 w3 w4) w0
  | 70 => withLen true false (fun l => dec46 l w0 w1 w2 w3 w4) w0
  | 72 => withLen true false (fun l => dec48 l w0 w1 w2 w3 w4) w0
  | 73 => withLen false false (fun l => dec49 l w0 w1 w2 w3 w4) w0
  | 74 => withLen false false (fun l => dec4A l w0 w1 w2 w3 w4) w0
  | 76 => withLen true false (fun l => dec4C l w0 w1 w2 w3 w4) w0
  | 77 => withLen false false (fun l => dec4D l w0 w1 w2 w3 w4) w0
  | 78 => withLen true false (fun l => dec4E l w0 w1 w2 w3 w4) w0
  | 79 => withLen true false (fun l => dec4F l w0 w1 w2 w3 w4) w0
  | 80 => withLen true false (fun l => dec50 l w0 w1 w2 w3 w4) w0
  | 81 => withLen true false (fun l => dec51 l w0 w1 w2 w3 w4) w0
  | 82 => withLen true false (fun l => dec52 l w0 w1 w2 w3 w4) w0
  | 83 => withLen false false (fun l => dec53 l w0 w1 w2 w3 w4) w0
  | 84 => withLen true false (fun l => dec54 l w0 w1 w2 w3 w4) w0
  | 85 => withLen true false (fun l => dec55 l w0 w1 w2 w3 w4) w0
  | 86 => withLen false false (fun l => dec56 l w0 w1 w2 w3 w4) w0
  | 88 => withLen true false (fun l => dec58 l w0 w1 w2 w3 w4) w0
  | 92 => withLen true false (fun l => dec5C l w0 w1 w2 w3 w4) w0
  | 93 => withLen true false (fun l => dec5D l w0 w1 w2 w3 w4) w0
  | 96 => withLen true false (fun l => dec60 l w0 w1 w2 w3 w4) w0
  | 97 => withLen true false (fun l => dec61 l w0 w1 w2 w3 w4) w0
  | 98 => withLen false false (fun l => dec62 l w0 w1 w2 w3 w4) w0
  | 99 => withLen false false (fun l => dec63 l w0 w1 w2 w3 w4) w0
  | _ => .error 1

/-- The words of an instruction, first word first (R39 to R45); none for an act of a unit. -/
def encode : Instr → List (BitVec 32)
  | .nop m => [tWord 0#4 0#6 0#6 0#6 0#7 m 0#2]
  | .align m n => [tWord 1#4 (n.extractLsb' 6 6) (n.extractLsb' 0 6) 0#6 0#7 m 0#2]
  | .endFiring m => [tWord 2#4 0#6 0#6 0#6 0#7 m 0#2]
  | .yield m => [tWord 3#4 0#6 0#6 0#6 0#7 m 0#2]
  | .add m d a b => [tWord 0#4 b a d 1#7 m 0#2]
  | .sub m d a b => [tWord 1#4 b a d 1#7 m 0#2]
  | .mul m d a b => [tWord 2#4 b a d 1#7 m 0#2]
  | .mulh m d a b => [tWord 3#4 b a d 1#7 m 0#2]
  | .mulhn m d a b => [tWord 4#4 b a d 1#7 m 0#2]
  | .div m d a b => [tWord 5#4 b a d 1#7 m 0#2]
  | .divn m d a b => [tWord 6#4 b a d 1#7 m 0#2]
  | .rem m d a b => [tWord 7#4 b a d 1#7 m 0#2]
  | .remn m d a b => [tWord 8#4 b a d 1#7 m 0#2]
  | .min m d a b => [tWord 9#4 b a d 1#7 m 0#2]
  | .max m d a b => [tWord 10#4 b a d 1#7 m 0#2]
  | .minn m d a b => [tWord 11#4 b a d 1#7 m 0#2]
  | .maxn m d a b => [tWord 12#4 b a d 1#7 m 0#2]
  | .slt m d a b => [tWord 13#4 b a d 1#7 m 0#2]
  | .sltn m d a b => [tWord 14#4 b a d 1#7 m 0#2]
  | .and m d a b => [tWord 0#4 b a d 2#7 m 0#2]
  | .or m d a b => [tWord 1#4 b a d 2#7 m 0#2]
  | .xor m d a b => [tWord 2#4 b a d 2#7 m 0#2]
  | .andn m d a b => [tWord 3#4 b a d 2#7 m 0#2]
  | .orn m d a b => [tWord 4#4 b a d 2#7 m 0#2]
  | .sll m d a b => [tWord 5#4 b a d 2#7 m 0#2]
  | .srl m d a b => [tWord 6#4 b a d 2#7 m 0#2]
  | .sra m d a b => [tWord 7#4 b a d 2#7 m 0#2]
  | .rol m d a b => [tWord 8#4 b a d 2#7 m 0#2]
  | .ror m d a b => [tWord 9#4 b a d 2#7 m 0#2]
  | .clz m w d a => [tWord (w ++ 0#2) 0#6 a d 3#7 m 0#2]
  | .ffs m w d a => [tWord (w ++ 1#2) 0#6 a d 3#7 m 0#2]
  | .popc m w d a => [tWord (w ++ 2#2) 0#6 a d 3#7 m 0#2]
  | .brev m w d a => [tWord (w ++ 3#2) 0#6 a d 3#7 m 0#2]
  | .addi m d a imm => [iWord imm a d 4#7 m 0#2]
  | .addiLit m d a lit => [iWord 0#10 a d 4#7 m 1#2, litLo lit, litHi lit]
  | .andi m d a imm => [iWord imm a d 5#7 m 0#2]
  | .andiLit m d a lit => [iWord 0#10 a d 5#7 m 1#2, litLo lit, litHi lit]
  | .ori m d a imm => [iWord imm a d 6#7 m 0#2]
  | .oriLit m d a lit => [iWord 0#10 a d 6#7 m 1#2, litLo lit, litHi lit]
  | .xori m d a imm => [iWord imm a d 7#7 m 0#2]
  | .xoriLit m d a lit => [iWord 0#10 a d 7#7 m 1#2, litLo lit, litHi lit]
  | .slti m d a imm => [iWord imm a d 8#7 m 0#2]
  | .sltiLit m d a lit => [iWord 0#10 a d 8#7 m 1#2, litLo lit, litHi lit]
  | .slli m d a amt => [iWord (0#2 ++ 0#2 ++ amt) a d 9#7 m 0#2]
  | .srli m d a amt => [iWord (1#2 ++ 0#2 ++ amt) a d 9#7 m 0#2]
  | .srai m d a amt => [iWord (2#2 ++ 0#2 ++ amt) a d 9#7 m 0#2]
  | .limm m d imm => [iWord imm 0#6 d 10#7 m 0#2]
  | .limmLit m d lit => [iWord 0#10 0#6 d 10#7 m 1#2, litLo lit, litHi lit]
  | .adpc m d imm => [iWord imm 0#6 d 11#7 m 0#2]
  | .bfx m d a sx len pos => [tWord 0#4 0#6 a d 12#7 m 2#2, wWord (bit sx ++ len ++ 0#2 ++ pos : BitVec 16) 0#4 0#6 0#6, 0#32]
  | .bfi m d a len pos => [tWord 0#4 0#6 a d 13#7 m 2#2, wWord (0#1 ++ len ++ 0#2 ++ pos : BitVec 16) 0#4 0#6 0#6, 0#32]
  | .sextB m d a => [tWord 0#4 0#6 a d 14#7 m 0#2]
  | .sextH m d a => [tWord 1#4 0#6 a d 14#7 m 0#2]
  | .sextW m d a => [tWord 2#4 0#6 a d 14#7 m 0#2]
  | .zextB m d a => [tWord 4#4 0#6 a d 14#7 m 0#2]
  | .zextH m d a => [tWord 5#4 0#6 a d 14#7 m 0#2]
  | .zextW m d a => [tWord 6#4 0#6 a d 14#7 m 0#2]
  | .br m off => [jWord off 0#6 0#3 16#7 m 0#2]
  | .beqz m a off => [jWord off a 1#3 16#7 m 0#2]
  | .bnez m a off => [jWord off a 2#3 16#7 m 0#2]
  | .bltz m a off => [jWord off a 3#3 16#7 m 0#2]
  | .bgez m a off => [jWord off a 4#3 16#7 m 0#2]
  | .bgtz m a off => [jWord off a 5#3 16#7 m 0#2]
  | .blez m a off => [jWord off a 6#3 16#7 m 0#2]
  | .bpany m p off => [jWord off (p.setWidth 6) 0#3 17#7 m 0#2]
  | .bpnone m p off => [jWord off (p.setWidth 6) 1#3 17#7 m 0#2]
  | .bcmp m cond a b off => [tWord cond b a 0#6 18#7 m 2#2, 0#32, off]
  | .call m off => [lWord off 19#7 m 0#2]
  | .jr m a => [tWord 0#4 0#6 a 0#6 20#7 m 0#2]
  | .ret m => [tWord 1#4 0#6 0#6 0#6 20#7 m 0#2]
  | .callr m a => [tWord 2#4 0#6 a 0#6 20#7 m 0#2]
  | .jtab m a b len => [tWord 0#4 b a 0#6 21#7 m 2#2, wWord len 0#4 0#6 0#6, 0#32]
  | .trap m a => [tWord 0#4 0#6 a 0#6 24#7 m 0#2]
  | .eret m => [tWord 1#4 0#6 0#6 0#6 24#7 m 0#2]
  | .csrr m d csr => [tWord 0#4 0#6 0#6 d 25#7 m 2#2, wWord (0#4 ++ csr : BitVec 16) 0#4 0#6 0#6, 0#32]
  | .csrw m a csr => [tWord 1#4 0#6 a 0#6 25#7 m 2#2, wWord (0#4 ++ csr : BitVec 16) 0#4 0#6 0#6, 0#32]
  | .csrx m d a csr => [tWord 2#4 0#6 a d 25#7 m 2#2, wWord (0#4 ++ csr : BitVec 16) 0#4 0#6 0#6, 0#32]
  | .ld m t a size ord off => [mWord off ord size a t 32#7 m 0#2]
  | .ldLit m t a size ord lit => [mWord 0#6 ord size a t 32#7 m 1#2, litLo lit, litHi lit]
  | .ldz m t a size ord off => [mWord off ord size a t 33#7 m 0#2]
  | .ldzLit m t a size ord lit => [mWord 0#6 ord size a t 33#7 m 1#2, litLo lit, litHi lit]
  | .st m t a size ord off => [mWord off ord size a t 34#7 m 0#2]
  | .stLit m t a size ord lit => [mWord 0#6 ord size a t 34#7 m 1#2, litLo lit, litHi lit]
  | .pref m a size off => [mWord off 0#2 size a 0#6 35#7 m 0#2]
  | .prefLit m a size lit => [mWord 0#6 0#2 size a 0#6 35#7 m 1#2, litLo lit, litHi lit]
  | .amoadd m d a b size scope ord off => [tWord 0#4 b a d 40#7 m 2#2, wWord (0#8 ++ 0#2 ++ size ++ 0#1 ++ scope : BitVec 16) ord 0#6 0#6, off]
  | .amoand m d a b size scope ord off => [tWord 1#4 b a d 40#7 m 2#2, wWord (0#8 ++ 0#2 ++ size ++ 0#1 ++ scope : BitVec 16) ord 0#6 0#6, off]
  | .amoor m d a b size scope ord off => [tWord 2#4 b a d 40#7 m 2#2, wWord (0#8 ++ 0#2 ++ size ++ 0#1 ++ scope : BitVec 16) ord 0#6 0#6, off]
  | .amoxor m d a b size scope ord off => [tWord 3#4 b a d 40#7 m 2#2, wWord (0#8 ++ 0#2 ++ size ++ 0#1 ++ scope : BitVec 16) ord 0#6 0#6, off]
  | .amomin m d a b size scope ord off => [tWord 4#4 b a d 40#7 m 2#2, wWord (0#8 ++ 0#2 ++ size ++ 0#1 ++ scope : BitVec 16) ord 0#6 0#6, off]
  | .amomax m d a b size scope ord off => [tWord 5#4 b a d 40#7 m 2#2, wWord (0#8 ++ 0#2 ++ size ++ 0#1 ++ scope : BitVec 16) ord 0#6 0#6, off]
  | .amominn m d a b size scope ord off => [tWord 6#4 b a d 40#7 m 2#2, wWord (0#8 ++ 0#2 ++ size ++ 0#1 ++ scope : BitVec 16) ord 0#6 0#6, off]
  | .amomaxn m d a b size scope ord off => [tWord 7#4 b a d 40#7 m 2#2, wWord (0#8 ++ 0#2 ++ size ++ 0#1 ++ scope : BitVec 16) ord 0#6 0#6, off]
  | .amoswp m d a b size scope ord off => [tWord 8#4 b a d 40#7 m 2#2, wWord (0#8 ++ 0#2 ++ size ++ 0#1 ++ scope : BitVec 16) ord 0#6 0#6, off]
  | .amocas m d a b c size scope ord off => [tWord 9#4 b a d 40#7 m 2#2, wWord (0#8 ++ 0#2 ++ size ++ 0#1 ++ scope : BitVec 16) ord 0#6 c, off]
  | .amofadd m d a b ft size scope ord off => [tWord 10#4 b a d 40#7 m 2#2, wWord (0#8 ++ ft ++ size ++ 0#1 ++ scope : BitVec 16) ord 0#6 0#6, off]
  | .fence m kind scope => [tWord 0#4 (scope.setWidth 6) (kind.setWidth 6) 0#6 41#7 m 0#2]
  | .waita m d a b e c cond size scope ord imm => [tWord cond b a d 42#7 m 2#2, wWord (0#10 ++ size ++ 0#1 ++ scope : BitVec 16) ord e c, imm]
  | .waitaLit m d a b e c cond size scope ord lit => [tWord cond b a d 42#7 m 3#2, wWord (0#10 ++ size ++ 0#1 ++ scope : BitVec 16) ord e c, 0#32, litLo lit, litHi lit]
  | .bar m d => [tWord 0#4 0#6 0#6 d 43#7 m 0#2]
  | .bararv m d => [tWord 1#4 0#6 0#6 d 43#7 m 0#2]
  | .barwt m d a b => [tWord 2#4 b a d 43#7 m 0#2]
  | .vld m d a p fmt off => [tWord 0#4 0#6 a (d.setWidth 6) 48#7 m 2#2, wWord 0#16 fmt 0#6 (p.setWidth 6), off]
  | .vst m d a p off => [tWord 1#4 0#6 a (d.setWidth 6) 48#7 m 2#2, wWord 0#16 0#4 0#6 (p.setWidth 6), off]
  | .vadd m d a b p => [vWord 0#4 p b a d 49#7 m 0#2]
  | .vsub m d a b p => [vWord 1#4 p b a d 49#7 m 0#2]
  | .vmul m d a b p => [vWord 2#4 p b a d 49#7 m 0#2]
  | .vmax m d a b p => [vWord 3#4 p b a d 49#7 m 0#2]
  | .vmin m d a b p => [vWord 4#4 p b a d 49#7 m 0#2]
  | .vabs m d a p => [vWord 5#4 p 0#5 a d 49#7 m 0#2]
  | .vneg m d a p => [vWord 6#4 p 0#5 a d 49#7 m 0#2]
  | .vfma m d a b p => [vWord 7#4 p b a d 49#7 m 0#2]
  | .vfms m d a b p => [vWord 8#4 p b a d 49#7 m 0#2]
  | .viadd m d a b p => [vWord 0#4 p b a d 50#7 m 0#2]
  | .visub m d a b p => [vWord 1#4 p b a d 50#7 m 0#2]
  | .vimul m d a b p => [vWord 2#4 p b a d 50#7 m 0#2]
  | .vand m d a b p => [vWord 3#4 p b a d 50#7 m 0#2]
  | .vor m d a b p => [vWord 4#4 p b a d 50#7 m 0#2]
  | .vxor m d a b p => [vWord 5#4 p b a d 50#7 m 0#2]
  | .vshl m d a b p => [vWord 6#4 p b a d 50#7 m 0#2]
  | .vshr m d a b p => [vWord 7#4 p b a d 50#7 m 0#2]
  | .vcmp m cond d a b p => [vWord cond p b a (d.setWidth 5) 51#7 m 0#2]
  | .vsel m d a b p => [vWord 8#4 p b a d 51#7 m 0#2]
  | .vcvt m d a b p part mode fmt => [tWord 0#4 b (a.setWidth 6) (d.setWidth 6) 52#7 m 2#2, wWord (0#10 ++ part ++ mode : BitVec 16) fmt 0#6 (p.setWidth 6), 0#32]
  | .vqnt m d a b e part mode fmt => [tWord 1#4 b (a.setWidth 6) (d.setWidth 6) 52#7 m 2#2, wWord (0#10 ++ part ++ mode : BitVec 16) fmt e 0#6, 0#32]
  | .vdqnt m d a b e p part mode fmt => [tWord 2#4 b (a.setWidth 6) (d.setWidth 6) 52#7 m 2#2, wWord (0#10 ++ part ++ mode : BitVec 16) fmt e (p.setWidth 6), 0#32]
  | .vexp2 m d a p => [vWord 0#4 p 0#5 a d 53#7 m 0#2]
  | .vlog2 m d a p => [vWord 1#4 p 0#5 a d 53#7 m 0#2]
  | .vrcp m d a p => [vWord 2#4 p 0#5 a d 53#7 m 0#2]
  | .vrsq m d a p => [vWord 3#4 p 0#5 a d 53#7 m 0#2]
  | .vtanh m d a p => [vWord 4#4 p 0#5 a d 53#7 m 0#2]
  | .vred m d a p op => [tWord 0#4 0#6 (a.setWidth 6) (d.setWidth 6) 54#7 m 2#2, wWord 0#16 op 0#6 (p.setWidth 6), 0#32]
  | .vsmxStep m d a e p => [tWord 1#4 0#6 (a.setWidth 6) (d.setWidth 6) 54#7 m 2#2, wWord 0#16 0#4 (e.setWidth 6) (p.setWidth 6), 0#32]
  | .vsmxMerge m d a e => [tWord 1#4 0#6 (a.setWidth 6) (d.setWidth 6) 54#7 m 2#2, wWord 0#16 1#4 (e.setWidth 6) 0#6, 0#32]
  | .vsmxFinal m d e => [tWord 1#4 0#6 0#6 (d.setWidth 6) 54#7 m 2#2, wWord 0#16 2#4 (e.setWidth 6) 0#6, 0#32]
  | .vsmxInit m e => [tWord 1#4 0#6 0#6 0#6 54#7 m 2#2, wWord 0#16 3#4 (e.setWidth 6) 0#6, 0#32]
  | .vrand m d a p => [tWord 0#4 0#6 a (d.setWidth 6) 55#7 m 2#2, wWord 0#16 0#4 0#6 (p.setWidth 6), 0#32]
  | .vdrop m d a b e p scale => [tWord 1#4 b (a.setWidth 6) (d.setWidth 6) 55#7 m 2#2, wWord 0#16 0#4 e (p.setWidth 6), scale]
  | .vperm m d a b p => [tWord 0#4 (b.setWidth 6) (a.setWidth 6) (d.setWidth 6) 56#7 m 2#2, wWord 0#16 0#4 0#6 (p.setWidth 6), 0#32]
  | .vbcast m d a p fmt => [tWord 1#4 0#6 a (d.setWidth 6) 56#7 m 2#2, wWord 0#16 fmt 0#6 (p.setWidth 6), 0#32]
  | .vbcastLit m d p fmt lit => [tWord 1#4 0#6 0#6 (d.setWidth 6) 56#7 m 3#2, wWord 0#16 fmt 0#6 (p.setWidth 6), 0#32, litLo lit, litHi lit]
  | .vmovx m d a n => [tWord 2#4 0#6 (a.setWidth 6) d 56#7 m 2#2, wWord (0#9 ++ n : BitVec 16) 0#4 0#6 0#6, 0#32]
  | .vmovv m d a n => [tWord 3#4 0#6 a (d.setWidth 6) 56#7 m 2#2, wWord (0#9 ++ n : BitVec 16) 0#4 0#6 0#6, 0#32]
  | .fmtget m d a acc => [tWord 4#4 0#6 (a.setWidth 6) d 56#7 m 2#2, wWord (0#15 ++ bit acc : BitVec 16) 0#4 0#6 0#6, 0#32]
  | .fmtset m d acc fmt => [tWord 5#4 0#6 0#6 (d.setWidth 6) 56#7 m 2#2, wWord (0#15 ++ bit acc : BitVec 16) fmt 0#6 0#6, 0#32]
  | .vloop m a cnt => [tWord 0#4 0#6 a 0#6 57#7 m 2#2, wWord (0#12 ++ cnt : BitVec 16) 0#4 0#6 0#6, 0#32]
  | .vstrm m d a off => [tWord 1#4 0#6 a (d.setWidth 6) 57#7 m 2#2, wWord 0#16 0#4 0#6 0#6, off]
  | .vstop m d a => [tWord 2#4 0#6 (a.setWidth 6) d 57#7 m 2#2, wWord 0#16 0#4 0#6 0#6, 0#32]
  | .vclz m w d a p => [vWord (w ++ 0#2) p 0#5 a d 58#7 m 0#2]
  | .vffs m w d a p => [vWord (w ++ 1#2) p 0#5 a d 58#7 m 0#2]
  | .vpopc m w d a p => [vWord (w ++ 2#2) p 0#5 a d 58#7 m 0#2]
  | .mxmul m a b e c => [tWord 0#4 b a 0#6 64#7 m 2#2, wWord 0#16 0#4 e c, 0#32]
  | .mxspm m a b e c => [tWord 1#4 b a 0#6 64#7 m 2#2, wWord 0#16 0#4 e c, 0#32]
  | .mxdrn m a b c => [tWord 0#4 b a 0#6 65#7 m 2#2, wWord 0#16 0#4 0#6 c, 0#32]
  | .mxclr m d i32 => [tWord 0#4 (bif i32 then 14#6 else 1#6) 0#6 (d.setWidth 6) 66#7 m 0#2]
  | .mxwait m d => [tWord 1#4 0#6 0#6 d 66#7 m 0#2]
  | .mxstat m d => [tWord 2#4 0#6 0#6 d 66#7 m 0#2]
  | .mxrem m d a b e c => [tWord 0#4 b a d 67#7 m 2#2, wWord 0#16 0#4 e c, 0#32]
  | .cpy m a b e c => [tWord 0#4 b a 0#6 68#7 m 2#2, wWord 0#16 0#4 e c, 0#32]
  | .cpyg m a b e c => [tWord 1#4 b a 0#6 68#7 m 2#2, wWord 0#16 0#4 e c, 0#32]
  | .cpys m a b e c => [tWord 2#4 b a 0#6 68#7 m 2#2, wWord 0#16 0#4 e c, 0#32]
  | .cpyr m a b e c => [tWord 3#4 b a 0#6 68#7 m 2#2, wWord 0#16 0#4 e c, 0#32]
  | .cpywait m d => [tWord 0#4 0#6 0#6 d 69#7 m 0#2]
  | .cpystat m d => [tWord 1#4 0#6 0#6 d 69#7 m 0#2]
  | .bufdcl m a b n => [tWord 0#4 b a 0#6 70#7 m 2#2, wWord (0#11 ++ n : BitVec 16) 0#4 0#6 0#6, 0#32]
  | .bufset m n bs => [tWord 1#4 0#6 0#6 0#6 70#7 m 2#2, wWord (0#11 ++ n : BitVec 16) bs 0#6 0#6, 0#32]
  | .bufqry m d n => [tWord 2#4 0#6 0#6 d 70#7 m 2#2, wWord (0#11 ++ n : BitVec 16) 0#4 0#6 0#6, 0#32]
  | .send m d a b rlx tr rply rtag tag len => [tWord 0#4 b a d 72#7 m 2#2, wWord (0#1 ++ bit rlx ++ bit tr ++ bit rply ++ rtag ++ tag : BitVec 16) 0#4 0#6 0#6, len]
  | .sendReplay m d b c => [tWord 0#4 b 0#6 d 72#7 m 2#2, wWord 0#16 1#4 0#6 c, 0#32]
  | .sendr m d b rlx len => [tWord 1#4 b 0#6 d 72#7 m 2#2, wWord (0#1 ++ bit rlx ++ 0#14 : BitVec 16) 0#4 0#6 0#6, len]
  | .msgld m d a => [tWord 0#4 0#6 a d 73#7 m 0#2]
  | .msgfree m => [tWord 1#4 0#6 0#6 0#6 73#7 m 0#2]
  | .tagen m d a => [tWord 0#4 0#6 a d 74#7 m 0#2]
  | .tagdis m d a => [tWord 1#4 0#6 a d 74#7 m 0#2]
  | .hold m d a => [tWord 2#4 0#6 a d 74#7 m 0#2]
  | .release m d a => [tWord 3#4 0#6 a d 74#7 m 0#2]
  | .setpri m d a b => [tWord 4#4 b a d 74#7 m 0#2]
  | .spawn m d a b => [tWord 0#4 b a d 76#7 m 2#2, wWord 0#16 0#4 0#6 0#6, 0#32]
  | .fork m d a => [tWord 0#4 0#6 a d 77#7 m 0#2]
  | .join m d a b => [tWord 1#4 b a d 77#7 m 0#2]
  | .qpush m d a b c => [tWord 0#4 b a d 78#7 m 2#2, wWord 0#16 0#4 0#6 c, 0#32]
  | .qpop m d a b c => [tWord 1#4 b a d 78#7 m 2#2, wWord 0#16 0#4 0#6 c, 0#32]
  | .qstat m d a => [tWord 2#4 0#6 a d 78#7 m 2#2, wWord 0#16 0#4 0#6 0#6, 0#32]
  | .actdef m d a b c prod cons noout tag => [tWord 0#4 b a d 79#7 m 2#2, wWord (prod ++ cons ++ bit noout ++ 0#1 ++ tag : BitVec 16) 0#4 0#6 c, 0#32]
  | .cdef m d a b n => [tWord 0#4 b a d 80#7 m 2#2, wWord n 0#4 0#6 0#6, 0#32]
  | .cbind m d a b n => [tWord 1#4 b a d 80#7 m 2#2, wWord n 0#4 0#6 0#6, 0#32]
  | .cunb m d a n => [tWord 2#4 0#6 a d 80#7 m 2#2, wWord n 0#4 0#6 0#6, 0#32]
  | .cld m d a b e c n => [tWord 0#4 b a d 81#7 m 2#2, wWord n 0#4 e c, 0#32]
  | .cst m d a b c n => [tWord 1#4 b a d 81#7 m 2#2, wWord n 0#4 0#6 c, 0#32]
  | .csnap m d a e => [tWord 0#4 0#6 a d 82#7 m 2#2, wWord 0#16 0#4 e 0#6, 0#32]
  | .cunsnap m a b => [tWord 1#4 b a 0#6 82#7 m 2#2, wWord 0#16 0#4 0#6 0#6, 0#32]
  | .cgenStart m d a => [tWord 2#4 0#6 a d 82#7 m 2#2, wWord 0#16 0#4 0#6 0#6, 0#32]
  | .cgenHold m d a b => [tWord 2#4 b a d 82#7 m 2#2, wWord 0#16 1#4 0#6 0#6, 0#32]
  | .cgenRelease m d a => [tWord 2#4 0#6 a d 82#7 m 2#2, wWord 0#16 2#4 0#6 0#6, 0#32]
  | .cgenPinlim m d a b => [tWord 2#4 b a d 82#7 m 2#2, wWord 0#16 3#4 0#6 0#6, 0#32]
  | .cgenWaitgen m d a b c => [tWord 2#4 b a d 82#7 m 2#2, wWord 0#16 4#4 0#6 c, 0#32]
  | .cstat m d a n sel => [tWord 3#4 0#6 a d 82#7 m 2#2, wWord n sel 0#6 0#6, 0#32]
  | .cprec m d a => [tWord 0#4 0#6 a d 83#7 m 0#2]
  | .ccommit m d a => [tWord 1#4 0#6 a d 83#7 m 0#2]
  | .kappend m d a b c => [tWord 0#4 b a d 84#7 m 2#2, wWord 0#16 0#4 0#6 c, 0#32]
  | .klook m d a b e fwd => [tWord 0#4 b a d 85#7 m 2#2, wWord 0#16 fwd e 0#6, 0#32]
  | .kqry m d a b e c rtag nb => [tWord 1#4 b a d 85#7 m 2#2, wWord (0#6 ++ rtag ++ nb : BitVec 16) 0#4 e c, 0#32]
  | .krehome m d a b c => [tWord 2#4 b a d 85#7 m 2#2, wWord 0#16 0#4 0#6 c, 0#32]
  | .flpop m d a => [tWord 0#4 0#6 a d 86#7 m 0#2]
  | .flpush m d a b => [tWord 1#4 b a d 86#7 m 0#2]
  | .lncfg m d a b => [tWord 0#4 b a d 88#7 m 2#2, wWord 0#16 0#4 0#6 0#6, 0#32]
  | .lnrank m d a b => [tWord 1#4 b a d 88#7 m 2#2, wWord 0#16 0#4 0#6 0#6, 0#32]
  | .lncommit m d a => [tWord 2#4 0#6 a d 88#7 m 2#2, wWord 0#16 0#4 0#6 0#6, 0#32]
  | .lnstat m d a => [tWord 3#4 0#6 a d 88#7 m 2#2, wWord 0#16 0#4 0#6 0#6, 0#32]
  | .flowOpen m d a b => [tWord 0#4 b a d 92#7 m 2#2, wWord 0#16 0#4 0#6 0#6, 0#32]
  | .flowClose m d a => [tWord 0#4 0#6 a d 92#7 m 2#2, wWord 0#16 1#4 0#6 0#6, 0#32]
  | .flowQry m d a => [tWord 0#4 0#6 a d 92#7 m 2#2, wWord 0#16 2#4 0#6 0#6, 0#32]
  | .cgform m d a b c => [tWord 0#4 b a d 93#7 m 2#2, wWord 0#16 0#4 0#6 c, 0#32]
  | .cgsig m d a b => [tWord 1#4 b a d 93#7 m 2#2, wWord 0#16 0#4 0#6 0#6, 0#32]
  | .cgwait m d a b e c => [tWord 2#4 b a d 93#7 m 2#2, wWord 0#16 0#4 e c, 0#32]
  | .cgstat m d a => [tWord 3#4 0#6 a d 93#7 m 2#2, wWord 0#16 0#4 0#6 0#6, 0#32]
  | .tlbw m d a b e c => [tWord 0#4 b a d 96#7 m 2#2, wWord 0#16 0#4 e c, 0#32]
  | .tlbinv m d a b c => [tWord 1#4 b a d 96#7 m 2#2, wWord 0#16 0#4 0#6 c, 0#32]
  | .tlbprb m d a e c => [tWord 2#4 0#6 a d 96#7 m 2#2, wWord 0#16 0#4 e c, 0#32]
  | .capset m d a => [tWord 0#4 0#6 a d 97#7 m 2#2, wWord 0#16 0#4 0#6 0#6, 0#32]
  | .ctxq m d a => [tWord 0#4 0#6 a d 98#7 m 0#2]
  | .slogq m d a => [tWord 0#4 0#6 a d 99#7 m 0#2]
  | .undefinedEncoding w0 w1 _ => [w0, w1]
  | .varResultReturn _ _ => []
  | .selectorDecision _ => []
  | .quantumExpiry _ => []
  | .alignWaitExpiry _ _ => []
  | .requestArrival _ _ => []
  | .requestRetry _ _ => []
  | .replyArrival _ => []
  | .autoReplySend _ => []
  | .spawnArrival _ _ => []
  | .spawnAnswer _ _ => []
  | .mxremArrival _ _ => []
  | .matrixCmdStart _ => []
  | .matrixCmdComplete _ => []
  | .copyCmdComplete _ _ => []
  | .mword _ _ _ => []
  | .mgo _ _ => []
  | .cword _ _ _ => []
  | .cgo _ _ => []
  | .heldGoAccept _ _ => []
  | .walkRequest _ _ => []
  | .walkTimeout _ _ => []
  | .cellDispatch _ _ _ => []
  | .pinExpiry _ _ _ => []
  | .poisonOpening _ _ _ => []
  | .cellReadWake _ _ => []
  | .waitRecheck _ _ => []
  | .waitLimitExpiry _ _ => []
  | .governorSample _ => []
  | .queueRefill _ => []
  | .stageQueueDescWrite _ _ _ => []
  | .krehomeTarget _ _ => []
  | .krehomeAnswer _ _ => []
  | .rdupPropagate _ _ => []
  | .rdupInvalidateAck _ _ => []
  | .fabricStoreArrival _ _ _ _ _ => []
  | .fabricReleaseApply _ _ _ _ _ _ _ => []
  | .flowPacketArrival _ _ _ _ _ _ _ => []
  | .linkFlitReceive _ _ _ _ => []
  | .linkAckReceive _ _ _ _ => []
  | .laneLockLoss _ _ => []
  | .portRetrainDone _ _ _ => []
  | .retrain _ _ => []
  | .remoteLimitExpiry _ => []
  | .groupJoinArrival _ _ _ _ _ _ => []
  | .groupCommitArrival _ _ => []
  | .groupAbortMsg _ _ _ => []
  | .cgwaitLimit _ _ => []
  | .cgformLimit _ _ => []
  | .cgansCommit _ => []
  | .cgansRefuse _ => []
  | .doorbell _ _ _ => []
  | .queuePacketRead _ _ => []
  | .launchRelease _ => []
  | .contextResume _ _ => []
  | .launchComplete _ => []
  | .launchLimitExpiry _ => []
  | .hostLinkAccess _ _ _ _ _ => []
  | .ctxctlClear _ _ => []
  | .ctxctlRetire _ _ => []
  | .unfreeze _ _ => []
  | .wfgo _ => []
  | .walkImageLoadDone _ => []
  | .twgo _ => []
  | .userQueueDescWrite _ _ _ _ => []
  | .freeListRegWrite _ _ _ => []
  | .schedout _ _ => []
  | .freefFrame _ _ _ => []
  | .freefBivouac _ _ => []
  | .registerWrite _ _ _ => []
  | .frontEndError _ => []
  | .correctedError _ _ _ => []
  | .uncorrectableError _ _ _ => []
  | .patrolScrub _ _ => []
  | .stbyPowerUp  => []
  | .stbyPowerDown  => []
  | .mainPowerUp _ _ _ => []
  | .mainPowerDown  => []
  | .firmwareUpdate _ _ _ => []
  | .perstLink0  => []
  | .perstLink1  => []
  | .reset _ => []
  | .pwrlim _ => []
  | .trip _ => []
  | .powerWindow _ => []
  | .thermalThrottle _ _ => []
  | .thermalTrip _ _ => []
  | .mgmtRead _ => []
  | .spdmMeasurement _ => []
  | .programTrafficAck _ _ _ => []
  | .remoteAccessArrival _ _ _ _ _ _ => []
  | .errorTriageWord _ => []
  | .thermalThrottleEnd _ _ => []

/-- The first word: what a trap reports as the instruction (R129). -/
def firstWord (i : Instr) : BitVec 32 := (encode i).headD 0#32

/-- Word 1, or zero where the instruction has none (R46). -/
def secondWord (i : Instr) : BitVec 32 := ((encode i).drop 1).headD 0#32

/-- Word `n` of a list of words, zero beyond its end. -/
def wordAt (ws : List (BitVec 32)) (n : Nat) : BitVec 32 := (ws.drop n).headD 0#32

/-- The decoder on a list of words. -/
def decodeList (ws : List (BitVec 32)) : Except Nat Instr :=
  decodeWords (wordAt ws 0) (wordAt ws 1) (wordAt ws 2) (wordAt ws 3) (wordAt ws 4)

/-- The bytes of a word, lowest address first (R2). -/
def wordBytes (w : BitVec 32) : List (BitVec 8) :=
  [w.extractLsb' 0 8, w.extractLsb' 8 8, w.extractLsb' 16 8, w.extractLsb' 24 8]

/-- A word from its four bytes, lowest address first (R2). -/
def bytesWord (b0 b1 b2 b3 : BitVec 8) : BitVec 32 := b3 ++ b2 ++ b1 ++ b0

/-- The words that hold a number whose bit 0 is the least significant bit of the first word. Bits above `nbits` are zero. -/
def tableWords (nbits w : Nat) : List (BitVec 32) :=
  let v := w % 2 ^ nbits
  [BitVec.ofNat 32 v, BitVec.ofNat 32 (v / 2 ^ 32), BitVec.ofNat 32 (v / 2 ^ 64), BitVec.ofNat 32 (v / 2 ^ 96),
   BitVec.ofNat 32 (v / 2 ^ 128)]

/-- The instruction the decoder reads from words numbered as the opcode table numbers them. -/
def decodeTableWord (nbits w : Nat) : Option Instr :=
  match decodeList (tableWords nbits w) with
  | .ok i => some i
  | .error _ => none

end Sys2Proof
end

