-- ==== Sys2Proof/Config.lean ====
section
/-! DEFINITION. The free values: constants without a body, applied to the counter State.tick or to operands. Nothing can
evaluate them, so every statement holds for every value of them. Each is named in a log entry. -/
namespace Sys2Proof

/-- An open byte (R403: a frame granule read through a window). -/
opaque Config.freeByte : Nat → BitVec 8
/-- An open choice between two allowed outcomes (R178: old or copied byte; R448: old or new code word). -/
opaque Config.freeBit : Nat → Nat → Bool
/-- An open 64-bit value (R129: the syndrome of MCHECK). -/
opaque Config.freeWord : Nat → BitVec 64
/-- The routine table of a launch image: for a tag the image binds, the offset of its routine and its priority (R278; log 15). -/
opaque Config.imageTags : List (BitVec 8) → Nat → Option (Nat × Nat)
/-- Which matrix instruction a command of the register page or of MXREM stands for, by its four words (R166, R175): 0 MXMUL,
1 MXSPM, 2 MXDRN, taken modulo 3. -/
opaque Config.matrixOp : List (BitVec 64) → Nat

end Sys2Proof
end

