-- ==== Sys2Proof/Word.lean ====
section
/-! DEFINITION. The 64-bit word and the sparse table that holds numbered pieces of state (registers, tags, cores). -/
namespace Sys2Proof

/-- A 64-bit register value (R34). -/
abbrev Word := BitVec 64

/-- Numbered things, in rising order of number. A number that is not listed holds the default its reader names. -/
structure Tab (α : Type) where
  l : List (Nat × α) := []
  deriving DecidableEq, Repr

namespace Tab
variable {α : Type}

/-- The entry listed under `k`. -/
def look : List (Nat × α) → Nat → Option α
  | [], _ => none
  | (j, v) :: r, k => if j = k then some v else look r k

/-- The list with `v` under `k`, in rising order. -/
def ins : List (Nat × α) → Nat → α → List (Nat × α)
  | [], k, v => [(k, v)]
  | (j, u) :: r, k, v => if j = k then (k, v) :: r else if k < j then (k, v) :: (j, u) :: r else (j, u) :: ins r k v

def get? (t : Tab α) (k : Nat) : Option α := look t.l k
def get (t : Tab α) (k : Nat) (d : α) : α := (look t.l k).getD d
def put (t : Tab α) (k : Nat) (v : α) : Tab α := ⟨ins t.l k v⟩
def del (t : Tab α) (k : Nat) : Tab α := ⟨t.l.filter (fun e => e.1 ≠ k)⟩
def map (t : Tab α) (g : Nat → α → α) : Tab α := ⟨t.l.map (fun e => (e.1, g e.1 e.2))⟩
/-- The numbers listed. -/
def keys (t : Tab α) : List Nat := t.l.map (·.1)

end Tab
end Sys2Proof
end

