-- ==== Sys2Proof/Machine/Flags.lean ====
section
/-! DEFINITION. Number formats, the one rounding function and the flags (R35, R36, R56 to R80), Mix64 (R72), and the exact
values of the special functions (R141, R143). Flags are a number with SAT 32, NV 16, DZ 8, OF 4, UF 2, NX 1 (R78). -/
namespace Sys2Proof.Machine

/-- An exact rational `n / d`, `d` positive. -/
structure Q where
  n : Int
  d : Nat
  deriving DecidableEq, Repr

def Q.int (i : Int) : Q := ⟨i, 1⟩
def Q.neg (a : Q) : Q := ⟨-a.n, a.d⟩
def Q.abs (a : Q) : Q := ⟨a.n.natAbs, a.d⟩
/-- Exact sum, over the larger denominator where one divides the other. -/
def Q.add (a b : Q) : Q :=
  if a.d = b.d then ⟨a.n + b.n, a.d⟩
  else if a.d % b.d = 0 then ⟨a.n + b.n * (a.d / b.d : Nat), a.d⟩
  else if b.d % a.d = 0 then ⟨a.n * (b.d / a.d : Nat) + b.n, b.d⟩
  else ⟨a.n * b.d + b.n * a.d, a.d * b.d⟩
def Q.sub (a b : Q) : Q := a.add b.neg
def Q.mul (a b : Q) : Q := ⟨a.n * b.n, a.d * b.d⟩
/-- Exact quotient by a nonzero `b`. -/
def Q.div (a b : Q) : Q := ⟨if b.n < 0 then -(a.n * b.d) else a.n * b.d, a.d * b.n.natAbs⟩
/-- `a · 2^e`. -/
def Q.scale (a : Q) (e : Int) : Q := if e ≥ 0 then ⟨a.n * 2 ^ e.toNat, a.d⟩ else ⟨a.n, a.d * 2 ^ (-e).toNat⟩
def Q.lt (a b : Q) : Bool := a.n * b.d < b.n * a.d
def Q.eq (a b : Q) : Bool := a.n * b.d = b.n * a.d
def Q.le (a b : Q) : Bool := a.n * b.d ≤ b.n * a.d

/-- floor(log2 (a / b)) of positive `a`, `b`. -/
def floorLog2 (a b : Nat) : Int :=
  let l : Int := (a.log2 : Int) - b.log2
  let ge := if l ≥ 0 then a ≥ b * 2 ^ l.toNat else a * 2 ^ (-l).toNat ≥ b
  if ge then l else l - 1

/-- A real value or a special one. A zero keeps its sign (R57, R59). -/
inductive Fp where
  | nan
  | inf (neg : Bool)
  | num (neg : Bool) (q : Q)
  deriving DecidableEq, Repr

def Fp.ofQ (q : Q) : Fp := .num (q.n < 0) q
def Fp.zero (neg : Bool) : Fp := .num neg (Q.int 0)
def Fp.isNan : Fp → Bool | .nan => true | _ => false
def Fp.isInf : Fp → Bool | .inf _ => true | _ => false

/-! ### Formats, by tag (R36) -/

/-- Bits of an element as packed (R35): a byte for RAW and the 6-bit formats. -/
def elemBits : Nat → Nat
  | 1 | 14 | 15 => 32
  | 2 | 3 | 12 | 13 => 16
  | 8 | 9 => 4
  | _ => 8

/-- Elements of a 512-bit register (R35). -/
def elemCount (t : Nat) : Nat := 512 / elemBits t

def manBits : Nat → Nat
  | 1 => 23 | 2 => 7 | 3 => 10 | 4 => 3 | 5 => 2 | 6 => 2 | 7 => 3 | _ => 1
def expBits : Nat → Nat
  | 1 => 8 | 2 => 8 | 3 => 5 | 4 => 4 | 5 => 5 | 6 => 3 | 7 => 2 | _ => 2
def fmtBias : Nat → Nat
  | 1 => 127 | 2 => 127 | 3 => 15 | 4 => 7 | 5 => 15 | 6 => 3 | _ => 1
def isFloat (t : Nat) : Bool := 1 ≤ t && t ≤ 8
def isInt (t : Nat) : Bool := 10 ≤ t && t ≤ 15
def isSigned (t : Nat) : Bool := t = 10 || t = 12 || t = 14
/-- FP32, BF16 or FP16. -/
def isWide (t : Nat) : Bool := 1 ≤ t && t ≤ 3
/-- The format holds infinities (R58). -/
def hasInf (t : Nat) : Bool := isWide t || t = 5
/-- Bits of sign, exponent and significand together (R56). -/
def fltBits (t : Nat) : Nat := 1 + expBits t + manBits t
/-- The code of the largest finite magnitude (R56, R58). -/
def maxCode : Nat → Nat
  | 1 => 0x7F7FFFFF | 2 => 0x7F7F | 3 => 0x7BFF | 4 => 0x7E | 5 => 0x7B | 6 => 0x1F | 7 => 0x1F | _ => 7
/-- The canonical NaN (R58). -/
def nanCode : Nat → Nat
  | 1 => 0x7FC00000 | 2 => 0x7FC0 | 3 => 0x7E00 | 4 => 0x7F | 5 => 0x7E | _ => 0
def infCode : Nat → Nat
  | 1 => 0x7F800000 | 2 => 0x7F80 | 3 => 0x7C00 | _ => 0x7C

def intMin (t : Nat) : Int := if isSigned t then -(2 ^ (elemBits t - 1) : Nat) else 0
def intMax (t : Nat) : Int := if isSigned t then (2 ^ (elemBits t - 1) : Nat) - 1 else (2 ^ elemBits t : Nat) - 1
/-- The integer a code stands for (R60). -/
def intVal (t c : Nat) : Int := if isSigned t && c ≥ 2 ^ (elemBits t - 1) then (c : Int) - 2 ^ elemBits t else c
def intCode (t : Nat) (i : Int) : Nat := (i % 2 ^ elemBits t).toNat

/-- The LQ4 table Q (R61). -/
def lq4Q (c : Nat) : Int :=
  ([-127, -92, -70, -53, -38, -25, -12, 0, 11, 23, 35, 48, 62, 79, 100, 127] : List Int).getD c 0

/-- The value of a floating code (R57, R58). Bits above the format are ignored. -/
def fltVal (t c0 : Nat) : Fp :=
  let c := c0 % 2 ^ fltBits t
  let neg := c / 2 ^ (fltBits t - 1) = 1
  let m := manBits t
  let mag := c % 2 ^ (fltBits t - 1)
  let e := mag / 2 ^ m
  let f := mag % 2 ^ m
  if hasInf t && e = 2 ^ expBits t - 1 then (if f = 0 then .inf neg else .nan)
  else if t = 4 && mag = 0x7F then .nan
  else
    let k : Int := if e = 0 then f else 2 ^ m + f
    .num neg ((Q.int (if neg then -k else k)).scale ((if e = 0 then 1 else e : Nat) - fmtBias t - m : Int))

/-- The value of an element with tag `t` (RAW and LQ4 as levels; R60, R61). -/
def elemVal (t c : Nat) : Fp :=
  if isFloat t then fltVal t c
  else if t = 9 then Fp.ofQ ⟨lq4Q c, 127⟩
  else Fp.ofQ (Q.int (intVal t c))

/-! ### Rounding (R67 to R71) -/

/-- Whether a magnitude with floor `fl` and remainder `r / b` rounds away from zero. Modes of R67. -/
def roundsAway (mode : Nat) (neg : Bool) (fl r b hsr : Nat) : Bool :=
  match mode with
  | 0 => 2 * r > b || (2 * r = b && fl % 2 = 1)
  | 1 => false
  | 2 => neg
  | 3 => !neg
  | _ => r * 2 ^ 32 / b > hsr

/-- Round onto a floating format: code and flags. `q` is not zero. -/
def roundFlt (t mode hsr : Nat) (q : Q) : Nat × Nat :=
  let neg := q.n < 0
  let m := manBits t
  let e := floorLog2 q.n.natAbs q.d
  let eqMin : Int := 1 - fmtBias t - m
  let eq : Int := max (e - m) eqMin
  let s := (Q.scale q.abs (-eq))
  let fl := s.n.natAbs / s.d
  let r := s.n.natAbs % s.d
  let sign := if neg then 2 ^ (fltBits t - 1) else 0
  let code (k : Nat) : Nat := k + (eq - eqMin).toNat * 2 ^ m
  let ovf := code fl > maxCode t || (code fl = maxCode t && r > 0)
  let md := if mode = 4 && ovf then 0 else mode
  let k := if r > 0 && roundsAway md neg fl r s.d hsr then fl + 1 else fl
  let nx := if r > 0 then 1 else 0
  if code k > maxCode t then
    if hasInf t then
      (if mode = 0 || mode = 4 || (mode = 3 && !neg) || (mode = 2 && neg) then infCode t + sign else maxCode t + sign, 5)
    else (maxCode t + sign, 33)
  else (code k + sign, nx ||| (if r > 0 && code k < 2 ^ m then 2 else 0))

/-- Round onto the integers: the integer, and whether it was inexact. -/
def roundIntQ (mode hsr : Nat) (q : Q) : Int × Bool :=
  let neg := q.n < 0
  let fl := q.n.natAbs / q.d
  let r := q.n.natAbs % q.d
  let k : Nat := if r > 0 && roundsAway mode neg fl r q.d hsr then fl + 1 else fl
  (if neg then -(k : Int) else k, r > 0)

/-- Round onto an integer format. A value outside gives NV from a floating source, SAT from an integer one (R70, R77). -/
def roundInt (t mode hsr : Nat) (fromInt : Bool) (q : Q) : Nat × Nat :=
  let out := (Q.int (intMax t)).lt q || q.lt (Q.int (intMin t))
  let (k, inx) := roundIntQ (if mode = 4 && out then 0 else mode) hsr q
  let bad := if fromInt then 32 else 16
  if k > intMax t then (intCode t (intMax t), bad)
  else if k < intMin t then (intCode t (intMin t), bad)
  else (intCode t k, if inx then 1 else 0)

/-- The greatest LQ4 code whose level, times 127, is at most `y` (given `y ≥ -127`). -/
def lq4Floor (y : Q) : Nat := ((List.range 16).filter (fun c => (Q.int (lq4Q c)).le y)).length - 1

/-- Round onto the sixteen LQ4 levels (R68, R70, R75). -/
def roundLq4 (mode hsr : Nat) (x : Q) : Nat × Nat :=
  let y := x.mul (Q.int 127)
  if (Q.int 127).lt y then (15, if mode = 1 || mode = 2 then 1 else 33)
  else if y.lt (Q.int (-127)) then (0, if mode = 1 || mode = 3 then 1 else 33)
  else
    let lo := lq4Floor y
    if (Q.int (lq4Q lo)).eq y then (lo, 0)
    else
      let hi := lo + 1
      let neg := x.n < 0
      let gap := (lq4Q hi - lq4Q lo).natAbs
      let above := y.sub (Q.int (lq4Q lo))
      let fromTz := if neg then (Q.int (lq4Q hi)).sub y else above
      let c := match mode with
        | 0 => if (above.mul (Q.int 2)).eq (Q.int gap) then (if lo % 2 = 0 then lo else hi)
               else if (Q.int gap).lt (above.mul (Q.int 2)) then hi else lo
        | 1 => if neg then hi else lo
        | 2 => lo
        | 3 => hi
        | _ => if fromTz.n.natAbs * 2 ^ 32 / (fromTz.d * gap) > hsr then (if neg then lo else hi)
               else (if neg then hi else lo)
      (c, 1)

/-- Round a nonzero real into the format of tag `t` (R69). -/
def roundTo (t mode hsr : Nat) (fromInt : Bool) (q : Q) : Nat × Nat :=
  if isFloat t then roundFlt t mode hsr q else if t = 9 then roundLq4 mode hsr q else roundInt t mode hsr fromInt q

/-- A value, special or not, converted into the format of tag `t` (R59, R69, R76): code and flags. -/
def convTo (t mode hsr : Nat) (fromInt : Bool) (x : Fp) : Nat × Nat :=
  let sign (neg : Bool) : Nat := if neg then 2 ^ (fltBits t - 1) else 0
  match x with
  | .nan => if isFloat t then (nanCode t, if 6 ≤ t then 16 else 0) else if t = 9 then (7, 16) else (0, 16)
  | .inf neg =>
    if hasInf t then (infCode t + sign neg, 0)
    else if isFloat t then (maxCode t + sign neg, 32)
    else if t = 9 then (if neg then 0 else 15, 32)
    else (intCode t (if neg then intMin t else intMax t), 16)
  | .num neg q =>
    if q.n = 0 then (if isFloat t then sign neg else if t = 9 then 7 else 0, 0)
    else roundTo t mode hsr fromInt q

/-! ### Exact arithmetic with special values (R79, R135) -/

def Fp.neg : Fp → Fp
  | .nan => .nan
  | .inf n => .inf (!n)
  | .num n q => .num (!n) q.neg
def Fp.abs : Fp → Fp
  | .nan => .nan
  | .inf _ => .inf false
  | .num _ q => .num false q.abs

/-- a + b with the flags the operation itself raises. -/
def fpAdd : Fp → Fp → Fp × Nat
  | .nan, _ => (.nan, 0)
  | _, .nan => (.nan, 0)
  | .inf a, .inf b => if a = b then (.inf a, 0) else (.nan, 16)
  | .inf a, _ => (.inf a, 0)
  | _, .inf b => (.inf b, 0)
  | .num a p, .num b q =>
    let s := p.add q
    (.num (if s.n = 0 then a && b && p.n = 0 && q.n = 0 else s.n < 0) s, 0)

/-- a × b. -/
def fpMul : Fp → Fp → Fp × Nat
  | .nan, _ => (.nan, 0)
  | _, .nan => (.nan, 0)
  | .inf a, .inf b => (.inf (a != b), 0)
  | .inf a, .num b q => if q.n = 0 then (.nan, 16) else (.inf (a != b), 0)
  | .num a p, .inf b => if p.n = 0 then (.nan, 16) else (.inf (a != b), 0)
  | .num a p, .num b q => (.num (a != b) (p.mul q), 0)

/-- d + a × b, the product's own invalid raised whatever d is (R79). -/
def fpFma (d a b : Fp) : Fp × Nat :=
  let (p, f) := fpMul a b
  let (r, g) := fpAdd d p
  (r, f ||| g)

/-- −0 below +0 (R135): whether `a` is below `b`, neither a NaN. -/
def fpBelow : Fp → Fp → Bool
  | .inf a, .inf b => a && !b
  | .inf a, _ => a
  | _, .inf b => !b
  | .num a p, .num b q => p.lt q || (p.n = 0 && q.n = 0 && a && !b)
  | _, _ => false

def fpMax (a b : Fp) : Fp := if a.isNan || b.isNan then .nan else if fpBelow a b then b else a
def fpMin (a b : Fp) : Fp := if a.isNan || b.isNan then .nan else if fpBelow b a then b else a

/-- Numeric order, −0 equal to +0; false with a NaN (R137). -/
def fpLt : Fp → Fp → Bool
  | .nan, _ => false
  | _, .nan => false
  | .inf a, .inf b => a && !b
  | .inf a, _ => a
  | _, .inf b => !b
  | .num _ p, .num _ q => p.lt q
def fpEq : Fp → Fp → Bool
  | .inf a, .inf b => a = b
  | .num _ p, .num _ q => p.eq q
  | _, _ => false

/-- A floating result rounded by RNE into the format of tag `t`, with the flags of its operation. -/
def finish (t : Nat) (r : Fp × Nat) : Nat × Nat :=
  let (c, f) := convTo t 0 0 false r.1
  (c, f ||| r.2)

/-! ### Mix64 (R72) -/

def mix64 (z : Word) : Word :=
  let a := z ^^^ (z >>> 32)
  let b := a * 0xA3B195E74C2D0F69#64
  let c := b ^^^ (b >>> 29)
  let d := c * 0xC6F127D83B5E94A3#64
  d ^^^ (d >>> 32)

/-- HsrBits of an address under a seed. -/
def hsrBits (seed addr : Word) : Nat := (mix64 (addr ^^^ mix64 seed)).toNat % 2 ^ 32
/-- The high half of the same mix (R144, R145). -/
def randBits (seed addr : Word) : Nat := (mix64 (addr ^^^ mix64 seed)).toNat / 2 ^ 32

/-! ### Special functions (R141, R143): exact cases exact, irrational values to several hundred bits, then marked inexact by
a last bit, so that one rounding gives the exact value's rounding (log 8). -/

/-- Integer square root, bit by bit from bit `n`. -/
def isqrtFrom : Nat → Nat → Nat → Nat
  | 0, x, r => if (r + 1) * (r + 1) ≤ x then r + 1 else r
  | n + 1, x, r => isqrtFrom n x (if (r + 2 ^ (n + 1)) * (r + 2 ^ (n + 1)) ≤ x then r + 2 ^ (n + 1) else r)
def isqrt (x : Nat) : Nat := isqrtFrom (x.log2 / 2 + 1) x 0

/-- 2^K · ln 2 by its series. -/
def ln2Sum (K : Nat) : Nat → Nat
  | 0 => 0
  | k + 1 => 2 ^ K / ((k + 1) * 2 ^ (k + 1)) + ln2Sum K k
/-- 2^K · e^(x / 2^K) by Taylor's series. -/
def expSum (K x : Nat) : Nat → Nat → Nat → Nat
  | 0, _, _ => 0
  | n + 1, i, term => term + expSum K x n (i + 1) (term * x / 2 ^ K / (i + 1))
/-- 2^K · atanh(z / 2^K). -/
def atanhSum (K z2 : Nat) : Nat → Nat → Nat → Nat
  | 0, _, _ => 0
  | n + 1, i, p => p / (2 * i + 1) + atanhSum K z2 n (i + 1) (p * z2 / 2 ^ K)

def fixK : Nat := 640

/-- 2^t of a real t, kept between −2000 and 2000. -/
def exp2Q (t : Q) : Q :=
  let i : Int := t.n / t.d
  let r := (t.n % t.d).toNat
  if i > 2000 then (Q.int 1).scale 2000
  else if i < -2000 then (Q.int 1).scale (-2000)
  else if r = 0 then (Q.int 1).scale i
  else
    let x := r * ln2Sum fixK 700 / t.d
    ((⟨2 * (expSum fixK x 140 0 (2 ^ fixK) : Nat) + 1, 2 ^ (fixK + 1)⟩ : Q)).scale i

/-- log2 of a positive real other than 1. -/
def log2Q (x : Q) : Q :=
  let e := floorLog2 x.n.natAbs x.d
  let y := x.scale (-e)
  let num := y.n.natAbs - y.d
  if num = 0 then Q.int e
  else
    let z := num * 2 ^ fixK / (y.n.natAbs + y.d)
    let ln := 2 * atanhSum fixK (z * z / 2 ^ fixK) 210 0 z
    ⟨2 * (e * 2 ^ fixK + ((ln * 2 ^ fixK / ln2Sum fixK 700 : Nat) : Int)) + 1, 2 ^ (fixK + 1)⟩

/-- tanh of a nonzero real. -/
def tanhQ (a : Q) : Q :=
  let m := a.abs
  let r : Q :=
    if (Q.int 64).lt m then ⟨2 ^ 120 - 1, 2 ^ 120⟩
    else
      let u := exp2Q ((⟨-(2 * m.n * 2 ^ fixK), m.d * ln2Sum fixK 700⟩ : Q))
      ((Q.int 1).sub u).div ((Q.int 1).add u)
  if a.n < 0 then r.neg else r

/-- 1/√x of a positive real. -/
def rsqrtQ (x : Q) : Q :=
  let t := x.d * 2 ^ (2 * fixK)
  let r := isqrt (t / x.n.natAbs)
  if r * r * x.n.natAbs = t then ⟨r, 2 ^ fixK⟩ else ⟨2 * (r : Int) + 1, 2 ^ (fixK + 1)⟩

/-- The five special functions by fn (R141): exact value and own flags. -/
def specialFn (fn : Nat) (a : Fp) : Fp × Nat :=
  match fn, a with
  | _, .nan => (.nan, 0)
  | 0, .inf n => (if n then .zero false else .inf false, 0)
  | 0, .num _ q => (.ofQ (exp2Q q), 0)
  | 1, .inf n => if n then (.nan, 16) else (.inf false, 0)
  | 1, .num _ q =>
    if q.n = 0 then (.inf true, 8) else if q.n < 0 then (.nan, 16)
    else if q.eq (Q.int 1) then (.zero false, 0) else (.ofQ (log2Q q), 0)
  | 2, .inf n => (.zero n, 0)
  | 2, .num n q => if q.n = 0 then (.inf n, 8) else (.ofQ ((Q.int 1).div q), 0)
  | 3, .inf n => if n then (.nan, 16) else (.zero false, 0)
  | 3, .num n q => if q.n = 0 then (.inf n, 8) else if q.n < 0 then (.nan, 16) else (.ofQ (rsqrtQ q), 0)
  | _, .inf n => (.ofQ (Q.int (if n then -1 else 1)), 0)
  | _, .num n q => if q.n = 0 then (.zero n, 0) else (.ofQ (tanhQ q), 0)

/-! ### Packed elements (R35) -/

/-- Element `i` of width `w` of a 512-bit value, as a number. -/
def getEl (v : BitVec 512) (w i : Nat) : Nat := (v.toNat >>> (w * i)) % 2 ^ w
/-- The value with element `i` of width `w` replaced. -/
def setEl (v : BitVec 512) (w i c : Nat) : BitVec 512 :=
  let old := getEl v w i
  BitVec.ofNat 512 (v.toNat - old <<< (w * i) + (c % 2 ^ w) <<< (w * i))
/-- A register from its elements, lowest first. -/
def ofEls (w : Nat) : List Nat → Nat
  | [] => 0
  | c :: r => c % 2 ^ w + ofEls w r <<< w
def elems (v : BitVec 512) (w : Nat) : List Nat := (List.range (512 / w)).map (getEl v w)

/-! ### Packed bit counts (R113) -/

def popcount : Nat → Nat → Nat
  | 0, _ => 0
  | n + 1, x => x % 2 + popcount n (x / 2)
def lowestSet : Nat → Nat → Nat → Nat
  | 0, i, _ => i
  | n + 1, i, x => if x % 2 = 1 then i else lowestSet n (i + 1) (x / 2)
def bitrev : Nat → Nat → Nat → Nat
  | 0, _, r => r
  | n + 1, x, r => bitrev n (x / 2) (2 * r + x % 2)
/-- CLZ, FFS, POPC, BREV of an `n`-bit element. -/
def bitOp (op n x : Nat) : Nat :=
  match op with
  | 0 => if x = 0 then n else n - 1 - x.log2
  | 1 => lowestSet n 0 x
  | 2 => popcount n x
  | _ => bitrev n x 0

end Sys2Proof.Machine
end

