-- ==== Sys2Proof/Machine/State.lean ====
section
/-! DEFINITION. The state of the package as plain data: every piece of state the spec names, per firing, core, camp, die and
package, the memory of the domain, and the model's own fields (agenda, turn, tick: log 3). Field defaults are the reset
values. -/
namespace Sys2Proof.Machine

/-- Why a step stops with a fault. -/
inductive Fault where
  /-- Raised by `step` when the agenda names a core the package does not have. Safe: no such act exists (R12, R13). -/
  | noSuchUnit
  deriving DecidableEq, Repr

/-- Why a step is refused. -/
inductive Refusal where
  /-- An instruction the model gives no meaning. Raised by no arm of `exec`. Safe. -/
  | notModelled (mnemonic : String)
  deriving DecidableEq, Repr

/-- A frame is free, holds a firing that may issue, a parked one (R33), or a stopped one (R402). -/
inductive FStat where | free | ready | parked | stopped
  deriving DecidableEq, Repr

/-- Why a firing stays at its instruction: not at all; a table walk (R366); the side log (R201); a full queue, sequencer or
outbox or a held-back access, which the core waits with (R157, R282); an instruction's own wait; the ALIGN wait (R289). -/
inductive Hold where | no | walk | slog | stall | wait | align
  deriving DecidableEq, Repr

/-- What a firing was started for (R280, R320, R370). -/
inductive Src where | launch | msg | actor | formula | task | spawn | bivouac | walk
  deriving DecidableEq, Repr

/-- A trap still to be delivered at a group boundary (R129, R156, R421). -/
structure Trap where
  cause : Nat
  t1 : Word
  t2 : Word
  t3 : Word
  deriving DecidableEq, Repr

/-- A wait that lets the rest of the group issue (R229, R232, R174, R179): registers are written when it ends. -/
inductive WaitK where
  | waita (va size cond : Nat) (k : Word) (d e : Nat)
  | bar (phase d : Nat)
  | barwt (phase d : Nat)
  | mx (d : Nat)
  | cpy (d : Nat)
  deriving DecidableEq, Repr

structure Wait where
  kind : WaitK
  /-- Later accesses are held until it ends (R194, R234, R164). -/
  acq : Bool
  /-- It carries a cycle limit (R230). -/
  limited : Bool
  pc : Word
  w0 : Word
  /-- The limit has passed: the next read ends it (R229). -/
  late : Bool := false
  /-- Its cycle limit (R230). -/
  lim : Nat := 0
  deriving DecidableEq, Repr

/-- A stream register v24 to v31 (R148 to R153). -/
structure Stream where
  base : Word
  write : Bool
  fmt : BitVec 4
  n0 : Nat
  n1 : Nat
  n2 : Nat
  s0 : Word
  s1 : Word
  s2 : Word
  pos : Nat
  /-- Memory when the VSTRM issued, which run-ahead reads may still see (R153). -/
  snap : Option (List Host.Cell) := none
  deriving DecidableEq, Repr

/-- The formula a firing computes (R245). -/
structure Formula where
  t : Nat
  cell : Nat
  gen : Nat
  rank : Nat
  members : Nat
  committed : Bool
  deriving DecidableEq, Repr

/-- A message: header fields of R309, the payload, and the extra kinds the request network carries (MXREM R175, formula
dispatch R245). `words` holds the four command words of an MXREM, or x4 to x9 of a dispatch. -/
inductive MsgKind where | plain | mxrem | dispatch | spawn
  deriving DecidableEq, Repr

structure Msg where
  kind : MsgKind := .plain
  ctx : Nat := 0
  dst : Nat := 0
  src : Nat := 0
  auto : Bool := false
  reply : Bool := false
  rply : Bool := false
  tag : Nat := 0
  rtag : Nat := 0
  payload : List (BitVec 8) := []
  entry : Word := 0#64
  words : List Word := []
  capw : Word := 0#64
  /-- Its number among the core's arrivals (R281). -/
  no : Nat := 0
  deriving DecidableEq, Repr

/-- The wait summary of an engine kept by a firing (R174, R179). -/
structure Summary where
  seq : Nat := 0
  flags : Nat := 0
  code : Nat := 0
  open_ : Nat := 0
  deriving DecidableEq, Repr

/-- What an actor firing reserved (R297). -/
structure Resv where
  inq : Nat
  pops : Nat
  outq : Nat
  pushes : Nat
  deriving DecidableEq, Repr

/-- One frame: R34, R38 and the per-frame state of R126, R132, R174, R281, R290, R315. -/
structure Frame where
  stat : FStat := .free
  pc : Word := 0#64
  x : Tab Word := {}
  v : Tab (BitVec 512) := {}
  vtag : Tab (BitVec 4) := {}
  p : Tab Word := {}
  fflags : BitVec 6 := 0#6
  epc : Word := 0#64
  cause : Word := 0#64
  tval : Word := 0#64
  tval2 : Word := 0#64
  tval3 : Word := 0#64
  handler : Bool := false
  /-- Registers of the group: Variable ones outstanding, Sequenced ones (R32), numbered 64 · file + number. -/
  out : List Nat := []
  seq : List Nat := []
  /-- Results of the group not returned yet (R33). -/
  unret : Nat := 0
  waits : List Wait := []
  hold : Hold := .no
  /-- The instruction waits for the side log, or has just stopped waiting for it (R374). -/
  behind : Bool := false
  /-- The limit of the instruction's own wait has passed. -/
  expired : Bool := false
  /-- What an instruction that waits at its place has already fixed. -/
  saved : List Nat := []
  /-- Addresses and packages of the remote accesses the instruction has sent, the newest first (R419); 2^16 is added to the package where a
  unit makes the access for it (R335). -/
  far : List (Nat × Nat) := []
  /-- Flow marks that a release AMO on its way carries (R215). -/
  marks : List (Nat × Nat) := []
  /-- Byte addresses of the load or AMO that is parked behind the side log (R374). -/
  parkedAt : List Nat := []
  /-- The END that waits for results (R120); a YIELD at its decision point (R322). -/
  ending : Bool := false
  yielded : Bool := false
  quantum : Bool := false
  parkNo : Nat := 0
  deferred : List Trap := []
  /-- The first deferred trap is taken at the instruction the firing waits at (R129, R201). -/
  now : Bool := false
  streams : Tab Stream := {}
  /-- The trap among the deferred ones that a VLOOP's body left (R156). -/
  body : Option Trap := none
  /-- A trap with its epc that waits for the results of the group's earlier instructions (R126). -/
  owed : Option (Trap × Word) := none
  /-- Iteration and body index of an interrupted VLOOP (R132). -/
  vloop : Option (Nat × Nat) := none
  /-- The words of that VLOOP and of its body's instructions, handed over once (R154). -/
  loopW : List (List (BitVec 32)) := []
  src : Src := .launch
  tag : Nat := 0
  msg : Option Msg := none
  slot : Option Nat := none
  owes : Option (Nat × Nat) := none
  fm : Option Formula := none
  joinc : Word := 0#64
  resv : Option Resv := none
  mxs : Summary := {}
  cps : Summary := {}
  /-- The walk a translation service core's firing serves: its token (R368), and BODY of the event a trap posts (R370). -/
  token : Nat := 0
  wbody : Nat := 0
  deriving DecidableEq, Repr

/-- The kind of a route tag (R277, R328). -/
inductive TagKind where
  | unbound
  | affine
  | actor (inq outq c p : Nat) (noout : Bool)
  deriving DecidableEq, Repr

structure Tag where
  kind : TagKind := .unbound
  entry : Word := 0#64
  bpri : Nat := 0
  epri : Nat := 0
  e : Bool := false
  h : Nat := 0
  pass : Nat := 0
  deriving DecidableEq, Repr

structure OutE where
  msg : Msg
  refused : Bool := false
  deriving DecidableEq, Repr

/-- A task record (R290): its eight words and the core that pushed or sent it. -/
structure Task where
  words : List Word
  from_ : Nat
  deriving DecidableEq, Repr

/-- Who issued an engine command: a firing, a firing that has ended since, or the register page or a remote core (R167 step 7,
R175). -/
inductive Issuer where
  | firing (f : Nat)
  | ended (f : Nat)
  | regs
  deriving DecidableEq, Repr

structure Cmd where
  op : Nat
  w0 : Word
  w1 : Word
  w2 : Word
  w3 : Word
  who : Issuer
  seq : Nat := 0
  /-- Buffers the command moved to filling and to draining (R185). -/
  fills : List Nat := []
  drains : List Nat := []
  /-- A refusal found when a memory-mapped command was accepted (R163), 0 for none. -/
  bad : Nat := 0
  /-- The formula the issuer was computing (R246, R247). -/
  fm : Option Formula := none
  /-- What acceptance fixes: operand records, buffer bases, byte ranges read, and the seed (R73, R161, R167, R182). -/
  recs : List Word := []
  bases : List Nat := []
  opnds : List (Nat × Nat) := []
  seed : Word := 0#64
  /-- A transfer of a sequencer, which may write CELL pages (R247, R266). -/
  own : Bool := false
  /-- A copy whose writes are done, while its completion waits for them to reach its SCOPE (R164, R202): units, flags, code. -/
  ended : Option (Nat × Nat × Nat) := none
  deriving DecidableEq, Repr

/-- A go that waits at the register page for a queue entry (R167): its words, the value stored, and the firing that stored it. -/
structure HeldGo where
  words : List Word
  v : Word
  core : Nat
  frame : Nat
  deriving DecidableEq, Repr

/-- An engine: its queue of accepted commands, commands executing, acceptance count, last status, word latches and held go
(R157, R162, R166, R167). -/
structure Engine where
  queue : List Cmd := []
  running : List Cmd := []
  /-- Result of the running matrix command: units, flags, code. -/
  result : Option (Nat × Nat × Nat) := none
  count : Nat := 0
  last : Word := 0#64
  /-- The STAT register shows MISSING_WORD (R163, R167). -/
  missing : Bool := false
  latch : Tab Word := {}
  held : List HeldGo := []
  deriving DecidableEq, Repr

structure Buf where
  base : Nat := 0
  len : Nat := 0
  span : Nat := 0
  state : Nat := 0
  deriving DecidableEq, Repr

/-- A store side-log entry (R373, R381): the bytes it writes at offsets from `va`, in elements of `unit` bytes (R197); a vector store or
push also keeps the STRADDLE that R206 would raise. -/
structure SlogE where
  frame : Nat
  biv : Bool := false
  va : Nat
  size : Nat
  bytes : List (Nat × BitVec 8)
  order : Nat
  unit : Nat := 1
  strad : Option Trap := none
  /-- A mailbox write of an engine (R165). -/
  engine : Bool := false
  /-- Its firing has ended (R374). -/
  gone : Bool := false
  /-- A release store (R194), numbered as one where it goes to another package (R214). -/
  rel : Bool := false
  deriving DecidableEq, Repr

structure Flow where
  pkg : Nat
  ordered : Bool
  grouped : Bool
  group : Nat
  inc : Nat
  dead : Bool := false
  next : Nat
  delivered : Nat
  deriving DecidableEq, Repr

/-- A translation entry of any level (R366, R367, R372). -/
structure TlbEnt where
  ctx : Nat
  va : Nat
  w : Word
  a : Bool := false
  d : Bool := false
  deriving DecidableEq, Repr

/-- The gang a core's context belongs to (R287, R290). -/
structure Gang where
  launch : Nat
  rank : Nat
  cores : List Nat
  steal : Nat
  bar : Nat
  /-- Memory when the packet was consumed: what fetches may still see (R448). -/
  code : List Host.Cell
  /-- How often the core's launch firing has passed the ALIGN at each address (R289). -/
  aligns : Tab Nat := {}
  deriving DecidableEq, Repr

structure Core where
  ctxid : Nat := 0
  capw : Word := 0#64
  tvec : Word := 0#64
  seed : Word := 0#64
  obuflim : Nat := 16
  heapbase : Word := 0#64
  heaplim : Word := 0#64
  prefdrop : Word := 0#64
  partw : Word := 0#64
  tags : Tab Tag := {}
  lastStart : Tab Nat := {}
  issuing : Option Nat := none
  parks : Nat := 0
  inbox : Tab Msg := {}
  arrNo : Nat := 0
  outbox : List OutE := []
  /-- Requests outstanding that expect replies: the tag each reply goes to, 64 for a SPAWN (R305). -/
  awaits : List Nat := []
  autos : List Msg := []
  deque : List Task := []
  mx : Engine := {}
  cp : Engine := {}
  accTag : Tab (BitVec 4) := {}
  accPoison : List Nat := []
  /-- Raw block registers, by the context whose operation left them (R103, R172). -/
  raws : Tab (List Nat) := {}
  bufs : Tab Buf := {}
  slog : Tab SlogE := {}
  slogNo : Nat := 0
  slogFails : Nat := 0
  flows : Tab Flow := {}
  flowSeq : Tab Nat := {}
  owner : Tab (Nat × Nat) := {}
  tlb : List TlbEnt := []
  gang : Option Gang := none
  lastUsed : Nat := 0
  /-- The resident context is frozen (R394). -/
  frozen : Bool := false
  /-- KREHOME moves in transit: offset of the cairn area, key, frame (R342). -/
  moving : List (Nat × Nat × Nat) := []
  /-- Its context is to be pre-empted at the next boundary that allows it (R404, R405). -/
  leave : Bool := false
  deriving DecidableEq, Repr

/-- A stage queue (R294 to R297). -/
structure SQueue where
  ringbase : Word := 0#64
  enable : Bool := false
  ctx : Nat := 0
  ringsize : Nat := 0
  share : Nat := 0
  high : Nat := 0
  low : Nat := 0
  head : Nat := 0
  tail : Nat := 0
  bank : List (List (BitVec 8)) := []
  /-- A pop has started a refill (R296). -/
  refill : Bool := false
  broken : Bool := false
  resvPop : Nat := 0
  resvPush : Nat := 0
  deriving DecidableEq, Repr

structure Camp where
  tlb : List TlbEnt := []
  qs : Tab SQueue := {}
  deriving DecidableEq, Repr

/-- A hardware barrier (R231 to R233). `arr` holds A_m per member core. -/
structure Barrier where
  armed : Bool := false
  members : List Nat := []
  c : Nat := 0
  arr : Tab Nat := {}
  aborted : Bool := false
  deriving DecidableEq, Repr

/-- A sheet of the directory (R449): physical address of T, creating context, member CCOMMITs of cells that compute
(cell, generation, rank; R246), errors of generations whose cell is stale again (cell, generation, reason; R254), cells whose poison
opening waits (R255), poisoned versions of input cells (cell, generation; R256), and the buffers' pages as CDEF found them (virtual and
physical page number; R239). -/
structure SheetE where
  pa : Nat
  ctx : Nat
  /-- T as the creating CDEF gave it, which dispatches show (R245). -/
  va : Nat := 0
  commits : List (Nat × Nat × Nat) := []
  errs : List (Nat × Nat × Nat) := []
  poisonWait : List Nat := []
  poisoned : List (Nat × Nat) := []
  pages : List (Nat × Nat) := []
  /-- The page entry the creating CDEF found T under: whether its page has replicas (R209). -/
  w : Word := 0#64
  deriving DecidableEq, Repr

/-- A Lantern slot (R347 to R350). -/
structure LSlot where
  ctx : Nat := 0
  record : List (BitVec 8) := []
  round : Nat := 0
  lastn : Nat := 0
  m : Nat := 0
  pinf : Bool := false
  nan : Bool := false
  state : Nat := 0
  rank : List Nat := []
  f : Nat := 0
  deriving DecidableEq, Repr

structure FreeList where
  stack : Word := 0#64
  enable : Bool := false
  ctx : Nat := 0
  cap : Nat := 0
  vbase : Word := 0#64
  top : Nat := 0
  stride : Nat := 0
  deriving DecidableEq, Repr

/-- A user-mode queue of a die (R383). -/
structure UQueue where
  ring : Word := 0#64
  enable : Bool := false
  error : Bool := false
  ctx : Nat := 0
  log2 : Nat := 0
  limit : Nat := 0
  head : Nat := 0
  promised : Nat := 0
  deriving DecidableEq, Repr

/-- A Palcen Link port (R416, R417): width code, training mark, numbers of the transmit and receive sides. -/
structure Port where
  width : Nat := 0
  training : Bool := false
  nextTx : Nat := 0
  replay : List Nat := []
  /-- Packets that wait for room among the 2,048 unacknowledged flits. -/
  waitTx : Nat := 0
  lastRx : Option Nat := none
  crcFails : Nat := 0
  deriving DecidableEq, Repr

structure Die where
  /-- Barriers, keyed by 64 · launch + number. -/
  bars : Tab Barrier := {}
  dir : List SheetE := []
  lantern : Tab LSlot := {}
  fl : FreeList := {}
  /-- Formula dispatches on their way to cores (R245). -/
  dispatch : List OutE := []
  prevHigh : List Nat := []
  assist : Nat := 0
  ctxbase : Nat := 0
  evbase : Nat := 0
  evput : Nat := 0
  evlog2 : Nat := 4
  wfbase : Nat := 0
  wfsize : Word := 0#64
  wfstat : Nat := 0
  wfbusy : Bool := false
  /-- The words stored to TWVA, TWENT, TWCTX and TWTOK since the last TWGO (R167, R382). -/
  tw : Tab Word := {}
  twstat : Nat := 0
  queues : Tab UQueue := {}
  fnmap : Tab (BitVec 256) := {}
  walkImg : Option (List (BitVec 8)) := none
  walkEntry : Nat := 0
  tlb : List TlbEnt := []
  rlimit : Nat := 2 ^ 32
  secnt : Nat := 0
  uecnt : Nat := 0
  ports : Tab Port := {}
  seqs : Tab Nat := {}
  attest : BitVec 256 := 0#256
  /-- Privileged causes posted in host-assisted triage, not acted on yet (R396): key 8192 · ctxid + core, frame. -/
  triage : List (Nat × Nat) := []
  serial : Nat := 0
  feDown : Bool := false
  booted : Bool := false
  deriving DecidableEq, Repr

/-- Who waits for a walk (R366 to R369, R374). -/
inductive Who where
  | frame (k f : Nat)
  | slog (k n : Nat)
  | unit (u : Nat)
  deriving DecidableEq, Repr

structure Walk where
  who : Who
  core : Nat
  ctx : Nat
  va : Nat
  kind : Nat
  /-- Needs R, W, X. -/
  needs : Bool × Bool × Bool
  /-- 0 until the request has been taken or posted (R368, R396). -/
  token : Nat := 0
  deriving DecidableEq, Repr

/-- An answer that grants nothing, kept until the access that waited meets it (R369, R375). -/
structure Ans where
  who : Who
  ctx : Nat
  page : Nat
  reason : Nat
  deriving DecidableEq, Repr

/-- A collective group entry of the package (R425, R427). -/
structure Join where
  core : Nat
  pkg : Nat
  ctx : Nat
  record : List (BitVec 8)
  prop : Nat
  deriving DecidableEq, Repr

structure Group where
  state : Nat := 0
  ctx : Nat := 0
  inc : Nat := 0
  reason : Nat := 0
  dropped : Nat := 0
  /-- Members as (core, package), in rank order, and the default limit. -/
  members : List (Nat × Nat) := []
  deflim : Nat := 0
  joins : List Join := []
  posted : Bool := false
  deriving DecidableEq, Repr

/-- A program store or release on its way to another package (R213, R214): its number in the pair, whether it is a release
and its release number, and the firing and launch that issued it. -/
structure PStore where
  num : Nat
  rel : Option Nat
  pa : Nat
  bytes : List (BitVec 8)
  core : Nat
  frame : Nat
  launch : Nat
  /-- A switch has completed the release for its firing (R213). -/
  switched : Bool := false
  /-- The release's address, the context, and the epoch of its number (R420, R421). -/
  va : Nat := 0
  ctx : Nat := 0
  epoch : Nat := 0
  /-- High-water marks of the core's flows toward the package (R215). -/
  marks : List (Nat × Nat) := []
  deriving DecidableEq, Repr

/-- A release that waits for the delivered count and flow marks (R214, R215). -/
structure RelWait where
  num : Nat
  count : Nat
  marks : List (Nat × Nat)
  pa : Nat
  bytes : List (BitVec 8)
  /-- An AMO with release order: operation, size, operand and comparand (R214, R216). -/
  amo : Option (Nat × Nat × Word × Word) := none
  deriving DecidableEq, Repr

/-- A flow arriving from another package (R212): its first number, the number before which all are delivered, later numbers delivered,
and packets held for an ordered flow. -/
structure InFlow where
  start : Nat := 0
  next : Nat := 0
  got : List Nat := []
  held : List (Nat × (Nat × List (BitVec 8))) := []
  deriving DecidableEq, Repr

/-- Program traffic with one other package (R213 to R216, R420): epochs, numbers sent and delivered, what waits. -/
structure Peer where
  txEpoch : Nat := 0
  stores : Nat := 0
  releases : Nat := 0
  pending : List PStore := []
  timedOut : Bool := false
  /-- The newest epoch of this package's traffic that the other one has met (R420). -/
  learnt : Nat := 0
  /-- Items that are never performed: epoch and store number (R419, R420). -/
  lost : List (Nat × Nat) := []
  rxEpoch : Nat := 0
  applied : List Nat := []
  delivered : Nat := 0
  /-- Release numbers applied, and the number up to which all are (R214, R216). -/
  relApplied : List Nat := []
  relDone : Nat := 0
  relWait : List RelWait := []
  flows : Tab InFlow := {}
  deriving DecidableEq, Repr

/-- A store of an RDUP page not applied at every replica yet: home frame address, bytes, home die, dies still to reach, PROP,
and the storing core (R209 to R211). -/
structure Rdup where
  pa : Nat
  bytes : List (BitVec 8)
  home : Nat
  dies : List Nat
  atomic : Bool
  core : Nat
  ctx : Nat := 0
  /-- The copy of the core that wrote it (R164). -/
  seq : Option Nat := none
  deriving DecidableEq, Repr

/-- A launch consumed and not complete (R387 to R390). -/
structure Launch where
  id : Nat
  die : Nat
  q : Nat
  ctx : Nat
  after : Bool
  scope : Nat
  steal : Nat
  bar : Nat
  image : Word
  size : Nat
  entry : Nat
  gangw : Word
  partw : Word
  arg : Word
  signal : Word
  cores : List Nat
  released : Bool := false
  failed : Option Int := none
  ended : Bool := false
  /-- The store to SIGNAL faulted (R387). -/
  sigFault : Bool := false
  /-- Ended by its LIMIT, and the guilt of R390's last step not charged yet. -/
  owes : Bool := false
  code : List Host.Cell := []
  deriving DecidableEq, Repr

/-- Package management registers (R444). -/
structure Mgmt where
  pwrlim : Nat := 3200
  /-- The limit in force in the window that runs: PWRLIM as the window found it (R446). -/
  limit : Nat := 3200
  pwrnow : Nat := 0
  hotdie : Nat := 0
  temp : Nat := 0
  /-- Each die's hottest junction. -/
  temps : Tab Nat := {}
  tripd : Nat := 0
  throt : Nat := 0
  /-- Dies throttled to hold PWRLIM (R439), which THROT shows beside those that are too hot. -/
  pthrot : Nat := 0
  /-- The power-off request to the board, asserted (R440). -/
  offReq : Bool := false
  trip : Bool := false
  ready : Bool := false
  bootfail : Bool := false
  svn : Nat := 0
  deriving DecidableEq, Repr

/-- Whose turn it is: an act of a unit or of the outside, or a core. -/
inductive Act where
  | unit (e : Instr)
  | core (k : Nat)
  deriving DecidableEq, Repr

/-- The package. -/
structure State where
  pkg : Nat := 0
  cores : Tab Core := {}
  frames : Tab Frame := {}
  camps : Tab Camp := {}
  dies : Tab Die := {}
  mem : List Host.Cell := []
  /-- Poisoned units: first byte and size (R411, R412). -/
  poison : List (Nat × Nat) := []
  groups : Tab Group := {}
  launches : List Launch := []
  /-- Slots whose retirement waits for the SIGNALs of the context's launches (R362). -/
  retiring : List Nat := []
  launchNo : Nat := 0
  replies : List Msg := []
  peers : Tab Peer := {}
  rdup : List Rdup := []
  walks : List Walk := []
  ans : List Ans := []
  /-- Pre-empted contexts: key 8192 · ctxid + core; the core's state and its frames (R405). -/
  savedCores : Tab Core := {}
  savedFrames : Tab (List (Nat × Frame)) := {}
  frozenFns : List Nat := []
  frozenMgmt : Bool := false
  mgmt : Mgmt := {}
  main : Bool := false
  stby : Bool := false
  linkUp : List Nat := []
  flash : List (BitVec 64) := []
  /-- The last read that was answered to a master outside: the master, what it named, and the value (R393, R434, R444). -/
  answered : Option (Nat × Nat × Nat) := none
  /-- The model's own fields (log 3). -/
  agenda : List Act := []
  turn : Nat := 0
  unitTurn : Bool := false
  unitNo : Nat := 0
  tick : Nat := 0
  deriving DecidableEq, Repr

/-- The machine right after reset: nothing powered, no launch, every table empty (R4, R438, R442 and the registers' own
reset values; log 2 for values the spec gives none). -/
def State.reset : State where

end Sys2Proof.Machine
end

