-- ==== Sys2Proof/Machine/Base.lean ====
section
/-! DEFINITION. Accessors of the state, bit fields, memory and poison, the address map (R20, R21), pools and granules (R16,
R17, R365, R406), translation entries (R366, R367, R372) and walks (R368, R369). -/
namespace Sys2Proof.Machine

/-! ### Bits and bytes -/

/-- Bits lo + n − 1 : lo of a word. -/
def fld (w : Word) (lo n : Nat) : Nat := (w.toNat >>> lo) % 2 ^ n
def nfld (w lo n : Nat) : Nat := (w >>> lo) % 2 ^ n
def b2n (b : Bool) : Nat := if b then 1 else 0
def wd (n : Nat) : Word := BitVec.ofNat 64 n
/-- The low `n` bits read as two's complement, in 64 bits. -/
def sext (n v : Nat) : Word :=
  BitVec.ofInt 64 (if v % 2 ^ n ≥ 2 ^ (n - 1) then (v % 2 ^ n : Nat) - (2 ^ n : Nat) else (v % 2 ^ n : Nat))
/-- Little-endian bytes (R2). -/
def bytesOf : Nat → Nat → List (BitVec 8)
  | 0, _ => []
  | n + 1, v => BitVec.ofNat 8 v :: bytesOf n (v / 256)
def ofBytes : List (BitVec 8) → Nat
  | [] => 0
  | b :: r => b.toNat + 256 * ofBytes r
/-- Eight-byte words of a byte list. -/
def words64 : Nat → List (BitVec 8) → List Word
  | 0, _ => []
  | n + 1, l => wd (ofBytes (l.take 8)) :: words64 n (l.drop 8)

/-! ### Cores, frames, camps, dies -/

def State.core (s : State) (k : Nat) : Core := s.cores.get k {}
def State.setCore (s : State) (k : Nat) (c : Core) : State := { s with cores := s.cores.put k c }
def State.updCore (s : State) (k : Nat) (g : Core → Core) : State := s.setCore k (g (s.core k))
def State.fr (s : State) (k f : Nat) : Frame := s.frames.get (32 * k + f) {}
def State.setFr (s : State) (k f : Nat) (r : Frame) : State := { s with frames := s.frames.put (32 * k + f) r }
def State.updFr (s : State) (k f : Nat) (g : Frame → Frame) : State := s.setFr k f (g (s.fr k f))
def State.die (s : State) (d : Nat) : Die := s.dies.get d {}
def State.setDie (s : State) (d : Nat) (v : Die) : State := { s with dies := s.dies.put d v }
def State.updDie (s : State) (d : Nat) (g : Die → Die) : State := s.setDie d (g (s.die d))
def State.camp (s : State) (c : Nat) : Camp := s.camps.get c {}
def State.updCamp (s : State) (c : Nat) (g : Camp → Camp) : State := { s with camps := s.camps.put c (g (s.camp c)) }

/-- The die and the camp (48 · die + camp) of a core; cores from 4,608 are the translation service cores (R12). -/
def dieOf (k : Nat) : Nat := if k < 4608 then k / 768 else (k - 4608) / 48
def campOf (k : Nat) : Nat :=
  if k < 4608 then 48 * (k / 768) + 6 * (k % 768 / 24 / 4) + k % 24 / 4 else k - 4608
def isTsc (k : Nat) : Bool := 4608 ≤ k
/-- The cores of a camp in index order. -/
def campCores (c : Nat) : List Nat := ((List.range 768).map (· + 768 * (c / 48))).filter (fun k => campOf k = c)

/-- The raw block registers of the resident context (R172). -/
def Core.raw (c : Core) : List Nat := c.raws.get c.ctxid []

/-- The issuing core and frame. -/
def State.me (s : State) : Nat := s.turn
def State.fi (s : State) : Nat := (s.core s.turn).issuing.getD 0
def State.cur (s : State) : Frame := s.fr s.turn s.fi
def State.setCur (s : State) (r : Frame) : State := s.setFr s.turn s.fi r
def State.updCur (s : State) (g : Frame → Frame) : State := s.setCur (g s.cur)
def State.myCore (s : State) : Core := s.core s.turn
def State.updMine (s : State) (g : Core → Core) : State := s.updCore s.turn g
/-- One more free value used. -/
def State.ticked (s : State) : State := { s with tick := s.tick + 1 }

/-- x register `n` of a frame; x0 reads zero (R34). -/
def Frame.rx (r : Frame) (n : Nat) : Word := if n = 0 then 0#64 else r.x.get n 0#64
def Frame.wx (r : Frame) (n : Nat) (v : Word) : Frame := if n = 0 then r else { r with x := r.x.put n v }
/-- p register; p0 reads all ones (R34). -/
def Frame.rp (r : Frame) (n : Nat) : Word := if n = 0 then -1#64 else r.p.get n 0#64
def Frame.wp (r : Frame) (n : Nat) (v : Word) : Frame := if n = 0 then r else { r with p := r.p.put n v }
def Frame.rv (r : Frame) (n : Nat) : BitVec 512 := r.v.get n 0#512
def Frame.rt (r : Frame) (n : Nat) : Nat := (r.vtag.get n 0#4).toNat
def Frame.wv (r : Frame) (n : Nat) (v : BitVec 512) (t : Nat) : Frame :=
  { r with v := r.v.put n v, vtag := r.vtag.put n (BitVec.ofNat 4 t) }
def State.x (s : State) (n : BitVec 6) : Word := s.cur.rx n.toNat
def State.xn (s : State) (n : BitVec 6) : Nat := (s.x n).toNat
/-- Raise flags in the firing's fflags (R78, R79). -/
def State.flag (s : State) (g : Nat) : State := s.updCur fun r => { r with fflags := r.fflags ||| BitVec.ofNat 6 g }

/-! ### Memory: one canonical list of (address, byte); an unlisted byte reads 0 (log 1) -/

def rdCell : List Host.Cell → Nat → BitVec 8
  | [], _ => 0#8
  | (a, v) :: r, b => if a = b then v else rdCell r b
/-- The list with byte `v` at `b`: rising addresses, no zero listed. -/
def wrCell : List Host.Cell → Nat → BitVec 8 → List Host.Cell
  | [], b, v => if v = 0#8 then [] else [(b, v)]
  | (a, u) :: r, b, v =>
    if a = b then (if v = 0#8 then r else (b, v) :: r)
    else if b < a then (if v = 0#8 then (a, u) :: r else (b, v) :: (a, u) :: r)
    else (a, u) :: wrCell r b v
/-- The canonical form: addresses strictly above `lo`, strictly rising, no byte zero. -/
def memWfFrom : Nat → List Host.Cell → Bool
  | _, [] => true
  | lo, (a, v) :: r => lo ≤ a && v ≠ 0#8 && memWfFrom (a + 1) r
def Memory.wf (m : List Host.Cell) : Bool := memWfFrom 0 m

def State.rd (s : State) (a : Nat) : BitVec 8 := rdCell s.mem a
def State.rdBytes (s : State) (a : Nat) : Nat → List (BitVec 8)
  | 0 => []
  | n + 1 => s.rd a :: s.rdBytes (a + 1) n
def State.rdN (s : State) (a n : Nat) : Nat := ofBytes (s.rdBytes a n)
def wrCells : List Host.Cell → Nat → List (BitVec 8) → List Host.Cell
  | m, _, [] => m
  | m, a, b :: r => wrCells (wrCell m a b) (a + 1) r

/-- A poisoned unit touches one of the `n` bytes from `a` (R412). -/
def State.poisonedAt (s : State) (a n : Nat) : Bool := s.poison.any fun u => u.1 < a + n && a < u.1 + u.2
/-- Units wholly inside the `n` bytes from `a` lose their poison (R412). -/
def unpoison (p : List (Nat × Nat)) (a n : Nat) : List (Nat × Nat) :=
  p.filter fun u => !(a ≤ u.1 && u.1 + u.2 ≤ a + n)
/-- Store bytes at a physical address: every write to memory of the model is this one. -/
def State.store (s : State) (a : Nat) (l : List (BitVec 8)) : State :=
  { s with mem := wrCells s.mem a l, poison := unpoison s.poison a l.length }
def State.wrN (s : State) (a n v : Nat) : State := s.store a (bytesOf n v)
def State.rd64 (s : State) (a : Nat) : Word := wd (s.rdN a 8)

/-! ### The address map (R19 to R24) -/

inductive Region where
  | main (die : Nat)
  | sram (k off : Nat)
  | regs (off : Nat)
  | host
  | hole
  deriving DecidableEq, Repr

def hostBase (link : Nat) : Nat := 2 ^ 56 * (1 + link)
/-- The package field: bits 52:40. A register value of 64 bits is taken whole: bits 55:53 stay part of the address a list or record is
found at, and a value from 2^56 on names host memory (DESIGN CHOICE, log 122). -/
def pkgOf (pa : Nat) : Nat := pa / 2 ^ 40 % 2 ^ 13
def localOf (pa : Nat) : Nat := pa % 2 ^ 40
def regionOf (pa : Nat) : Region :=
  let l := localOf pa
  if pa ≥ 2 ^ 56 then .host
  else if l < 0x9000000000 then .main (l / 0x1800000000)
  else if 0xC000000000 ≤ l && l < 0xC120000000 then .sram (l % 0x1000000000 / 0x100000) (l % 0x100000)
  else if 0xF000000000 ≤ l && l < 0xF180000000 then .regs (l % 0x1000000000)
  else .hole
/-- A package-local address of this package. -/
def State.here (s : State) (l : Nat) : Nat := s.pkg * 2 ^ 40 + l
def State.isOwn (s : State) (pa : Nat) : Bool := pa < 2 ^ 56 && pkgOf pa = s.pkg
def selfBase : Nat := 0xFF000000000000
def inSelf (va : Nat) : Bool := selfBase ≤ va && va < selfBase + 0x100000
def inHole (va : Nat) : Bool := selfBase + 0x100000 ≤ va && va < selfBase + 0x200000

/-! ### Pools (R14, R16, R17) -/

def pwFrames (w : Word) : Nat := fld w 0 4
def pwAccs (w : Word) : Nat := fld w 16 5
def pwScratch (w : Word) : Nat := fld w 32 9
def scratchLo (w : Word) : Nat := (pwFrames w + pwAccs w) * 4096
def scratchHi (w : Word) : Nat := scratchLo w + pwScratch w * 4096
/-- The `n` bytes from pool offset `off` lie in scratchpad granules. -/
def inScratch (w : Word) (off n : Nat) : Bool := scratchLo w ≤ off && off + n ≤ scratchHi w
/-- First offset of the range outside the scratchpad. -/
def firstOutside (w : Word) (off : Nat) : Nat := if scratchLo w ≤ off && off < scratchHi w then scratchHi w else off

def findOwner : List (Nat × (Nat × Nat)) → Nat → Nat → Option Nat
  | [], _, _ => none
  | (p, o) :: r, c, g => if o = (c, g) then some p else findOwner r c g
/-- The physical granule of a context's granule `g` on core `k` (R406); its own number where the map names none. -/
def Core.phys (c : Core) (ctx g : Nat) : Nat := (findOwner c.owner.l ctx g).getD g
def savedKey (ctx k : Nat) : Nat := 8192 * ctx + k
/-- Physical address of a byte of core `k`'s pool as the resident context numbers it. -/
def State.poolPa (s : State) (k off : Nat) : Nat :=
  s.here (0xC000000000 + k * 0x100000 + (s.core k).phys (s.core k).ctxid (off / 4096) * 4096 + off % 4096)
def State.poolBytes (s : State) (k off : Nat) : Nat → List (BitVec 8)
  | 0 => []
  | n + 1 => s.rd (s.poolPa k off) :: s.poolBytes k (off + 1) n
def State.poolN (s : State) (k off n : Nat) : Nat := ofBytes (s.poolBytes k off n)
def State.poolPut (s : State) (k off : Nat) : List (BitVec 8) → State
  | [] => s
  | b :: r => (s.store (s.poolPa k off) [b]).poolPut k (off + 1) r
/-- One write that covers the bytes at these physical addresses clears the poison of every unit it covers whole (R412). -/
def State.heal (s : State) (as : List Nat) : State :=
  { s with poison := s.poison.filter fun u => !(List.range u.2).all fun i => as.contains (u.1 + i) }
def State.poolStore (s : State) (k off : Nat) (l : List (BitVec 8)) : State :=
  (s.poolPut k off l).heal ((List.range l.length).map fun i => s.poolPa k (off + i))

/-! ### Context records (R361) -/

/-- A range meets a hole; no hole is shorter than an access. -/
def holeIn (pa n : Nat) : Bool := regionOf pa = .hole || regionOf (pa + n - 1) = .hole
/-- Physical reads and writes by a unit at an address software gave: a byte of a hole reads ones and its write is dropped (R447). -/
def State.holeBytes (s : State) (pa : Nat) : Nat → List (BitVec 8)
  | 0 => []
  | n + 1 => (if regionOf pa = .hole then 0xFF#8 else s.rd pa) :: s.holeBytes (pa + 1) n
def State.holeStore (s : State) (pa : Nat) : List (BitVec 8) → State
  | [] => s
  | b :: r => (if regionOf pa = .hole then s else s.store pa [b]).holeStore (pa + 1) r
def State.unitBytes (s : State) (pa n : Nat) : List (BitVec 8) := if holeIn pa n then s.holeBytes pa n else s.rdBytes pa n
def State.unitStore (s : State) (pa : Nat) (l : List (BitVec 8)) : State := if holeIn pa l.length then s.holeStore pa l else s.store pa l
def State.unitRd (s : State) (pa n : Nat) : Nat := ofBytes (s.unitBytes pa n)
def State.unitWr (s : State) (pa n v : Nat) : State := s.unitStore pa (bytesOf n v)
def State.ctxPa (s : State) (slot : Nat) : Nat := (s.die 0).ctxbase + 64 * slot
def State.ctxDw (s : State) (slot off : Nat) : Word := wd (s.unitRd (s.ctxPa slot + off) 8)
/-- The live slot that holds a context (R361); identifier 0 is none. -/
def State.slotOf (s : State) (ctx : Nat) : Option Nat :=
  if ctx = 0 then none
  else (List.range 256).find? fun n => let w := s.ctxDw n 0; fld w 16 1 = 1 && fld w 0 16 = ctx
def State.ctxFlag (s : State) (ctx bit : Nat) : Bool :=
  match s.slotOf ctx with
  | some n => fld (s.ctxDw n 0) bit 1 = 1
  | none => false
def State.barred (s : State) (ctx : Nat) : Bool := s.ctxFlag ctx 18
def State.frozen (s : State) (ctx : Nat) : Bool := s.ctxFlag ctx 17
/-- Replace bits lo + n − 1 : lo of a word by `v`. -/
def putFld (w : Word) (lo n v : Nat) : Word :=
  wd (w.toNat - fld w lo n <<< lo + (v % 2 ^ n) <<< lo)
def State.setCtxFld (s : State) (slot lo n v : Nat) : State :=
  s.unitWr (s.ctxPa slot) 8 (putFld (s.ctxDw slot 0) lo n v).toNat

/-! ### Windows of pools (R365) -/

/-- Offset of a context's core record from the directory at SAVE, if it names one (R409). -/
def State.savePa (s : State) (ctx k : Nat) : Option Nat :=
  match s.slotOf ctx with
  | none => none
  | some n =>
    let save := (s.ctxDw n 0x10).toNat
    let e := wd (s.unitRd (save + 8 * k) 8)
    if fld e 0 32 = 0 then none else some (save + fld e 0 32 * 0x10000)
/-- HELD of the directory entry of core `k` (R409). -/
def State.setHeld (s : State) (ctx k : Nat) (b : Bool) : State :=
  match s.slotOf ctx with
  | none => s
  | some n =>
    let a := (s.ctxDw n 0x10).toNat + 8 * k
    s.unitWr a 8 (putFld (wd (s.unitRd a 8)) 62 1 (b2n b)).toNat
def State.heldSave (s : State) (ctx k : Nat) : Bool := (s.savedCores.get? (savedKey ctx k)).isSome
/-- Where context `ctx` finds byte `off` of core `k`'s pool: `none` where it may not reach it (R17, R365). A saved image may lie in a
hole, which reads ones and drops writes (R447). -/
def State.windowPa (s : State) (ctx k off : Nat) : Option Nat :=
  if (s.core k).ctxid = ctx then
    (if inScratch (s.core k).partw off 1 then some (s.poolPa k off) else none)
  else
    match s.savedCores.get? (savedKey ctx k), s.savePa ctx k with
    | some c, some r =>
      if !inScratch c.partw off 1 then none
      else if nfld (s.unitRd (r + 0x100 + off / 4096 / 8) 1) (off / 4096 % 8) 1 = 1 then some (r + 0x10000 + off)
      else some (s.here (0xC000000000 + k * 0x100000 + (s.core k).phys ctx (off / 4096) * 4096 + off % 4096))
    | _, _ => none

/-! ### Translation entries (R366, R367, R372) -/

def pageBits (w : Word) : Nat := match fld w 10 2 with | 0 => 12 | 1 => 16 | 2 => 21 | _ => 26
def entR (w : Word) : Bool := fld w 62 1 = 1
def entW (w : Word) : Bool := fld w 61 1 = 1
def entX (w : Word) : Bool := fld w 60 1 = 1
def entCell (w : Word) : Bool := fld w 59 1 = 1
def entRdup (w : Word) : Bool := fld w 58 1 = 1
def entProp (w : Word) : Bool := fld w 57 1 = 1
def entHost (w : Word) : Bool := fld w 56 1 = 1
def entHome (w : Word) : Nat := fld w 53 3
/-- Physical address of the frame; host pages lie above 2^56 in the model's one map. -/
def entFrame (w : Word) : Nat := (if entHost w then hostBase (entHome w) else 0) + fld w 12 41 * 4096
def TlbEnt.hit (e : TlbEnt) (ctx va : Nat) : Bool := e.ctx = ctx && e.va ≤ va && va < e.va + 2 ^ pageBits e.w
def TlbEnt.pa (e : TlbEnt) (va : Nat) : Nat := entFrame e.w + (va - e.va)
def findEnt : List TlbEnt → Nat → Nat → Option TlbEnt
  | [], _, _ => none
  | e :: r, ctx, va => if e.hit ctx va then some e else findEnt r ctx va
/-- First, second, last level in that order, with the level that hit (R366, R378). -/
def State.tlbLook (s : State) (k ctx va : Nat) : Option (TlbEnt × Nat) :=
  match findEnt (s.core k).tlb ctx va with
  | some e => some (e, 1)
  | none => match findEnt (s.camp (campOf k)).tlb ctx va with
    | some e => some (e, 2)
    | none => match findEnt (s.die (dieOf k)).tlb ctx va with
      | some e => some (e, 3)
      | none => none
def markIn (ctx va : Nat) (wr : Bool) (l : List TlbEnt) : List TlbEnt :=
  l.map fun e => if e.hit ctx va then { e with a := true, d := e.d || wr } else e
/-- The A bit, and for a write the D bit, of the entries used (R372). -/
def State.markAD (s : State) (k ctx va : Nat) (wr : Bool) : State :=
  ((s.updCore k fun c => { c with tlb := markIn ctx va wr c.tlb }).updCamp (campOf k)
    fun c => { c with tlb := markIn ctx va wr c.tlb }).updDie (dieOf k) fun d => { d with tlb := markIn ctx va wr d.tlb }
/-- A level takes an entry, dropping what overlaps it and the oldest beyond its size (R366, R371). -/
def addEnt (cap : Nat) (e : TlbEnt) (l : List TlbEnt) : List TlbEnt :=
  (e :: l.filter fun o => !(o.ctx = e.ctx && o.va < e.va + 2 ^ pageBits e.w && e.va < o.va + 2 ^ pageBits o.w)).take cap

/-- Result of translating for a unit or firing. -/
inductive Xl where
  | hit (pa : Nat) (w : Word)
  | refused
  | miss
  deriving DecidableEq, Repr

def permits (w : Word) (needs : Bool × Bool × Bool) : Bool :=
  (!needs.1 || entR w) && (!needs.2.1 || entW w) && (!needs.2.2 || entX w)
def State.xl (s : State) (k ctx va : Nat) (needs : Bool × Bool × Bool) : Xl :=
  match s.tlbLook k ctx va with
  | none => .miss
  | some (e, _) => if permits e.w needs then .hit (e.pa va) e.w else .refused
/-- A unit of die `d` uses its die's last level (R202, R366). -/
def State.unitXl (s : State) (d ctx va : Nat) (needs : Bool × Bool × Bool) : Xl :=
  match findEnt (s.die d).tlb ctx va with
  | none => .miss
  | some e => if permits e.w needs then .hit (e.pa va) e.w else .refused

def needR : Bool × Bool × Bool := (true, false, false)
def needW : Bool × Bool × Bool := (false, true, false)
def needRW : Bool × Bool × Bool := (true, true, false)
def needX : Bool × Bool × Bool := (false, false, true)

/-- Where core `k` reads: its die's replica of an RDUP page (R208, R209). -/
def dieRead (d pa : Nat) (w : Word) : Nat :=
  if entRdup w then pa - 0x1800000000 * entHome w + 0x1800000000 * d else pa
def readPa (k pa : Nat) (w : Word) : Nat := dieRead (dieOf k) pa w
def isRemote (s : State) (pa : Nat) : Bool := pa < 2 ^ 56 && pkgOf pa ≠ s.pkg

/-! ### Walks (R368, R369) -/

def pageOf (va : Nat) : Nat := va / 4096
/-- The answer a waiter has got for a page, if it granted nothing. -/
def State.ansFor (s : State) (w : Who) (ctx va : Nat) : Option Nat :=
  (s.ans.find? fun a => a.who = w && a.ctx = ctx && a.page = pageOf va).map (·.reason)
def State.dropAns (s : State) (w : Who) (ctx va : Nat) : State :=
  { s with ans := s.ans.filter fun a => !(a.who = w && a.ctx = ctx && a.page = pageOf va) }
/-- Two ranges meet. -/
def spans (a n b m : Nat) : Bool := a < b + m && b < a + n
/-- Start a walk, unless the waiter already has one for the page. -/
def State.startWalk (s : State) (w : Who) (k ctx va kind : Nat) (needs : Bool × Bool × Bool) : State :=
  if s.walks.any fun q => q.who = w && q.ctx = ctx && pageOf q.va = pageOf va then s
  else { s with walks := s.walks ++ [⟨w, k, ctx, va, kind, needs, 0⟩] }

/-- A unit's access to one address in a context: its physical place, its entry marked, or no answer yet (a walk is under way), or the
kind of failure: 1 unmapped, 2 permission (R335, R369). A register page (R178) and a window granule that R17 or R365 closes fail as
kind 2; an address whose bits 63:56 are set, and one in the self window or its hole, fails as kind 1 (DESIGN CHOICE, log 123). -/
inductive UAcc where
  | go (s : State) (pa : Nat) (w : Word)
  | wait (s : State)
  | fail (s : State) (kind : Nat)
  deriving Repr

/-- The A bit, and for a write the D bit, of the last-level entry a unit used (R372). -/
def State.unitMark (s : State) (d ctx va : Nat) (wr : Bool) : State := s.updDie d fun v => { v with tlb := markIn ctx va wr v.tlb }
def State.unitAcc (s : State) (d u ctx va : Nat) (needs : Bool × Bool × Bool) : UAcc :=
  if va ≥ 2 ^ 56 || inSelf va || inHole va then .fail s 1
  else match s.unitXl d ctx va needs with
    | .hit pa w =>
      let t := s.unitMark d ctx va needs.2.1
      (match regionOf pa with
      | .regs _ => .fail s 2
      | .sram j off =>
        if s.isOwn pa then (match s.windowPa ctx j off with | some q => .go t q w | none => .fail s 2) else .go t pa w
      | _ => .go t pa w)
    | _ => match s.ansFor (.unit u) ctx va with
      | some r => .fail (s.dropAns (.unit u) ctx va) (r + 1)
      | none => .wait (s.startWalk (.unit u) (768 * d) ctx va (if needs.2.1 then 4 else 0) needs)

end Sys2Proof.Machine
end

