-- ==== Sys2Proof/Machine/SheetOps.lean ====
section
/-! DEFINITION. The recalculation sequencer's operations on a sheet table at physical address T (R235 to R257): headers and
descriptors are bytes of memory; member commits and overlaid errors stand in the die's directory entry. -/
namespace Sys2Proof.Machine

/-! ### Fields of the table (R237, R238) -/

/-- The die that homes a table, whose sequencer runs the sheet (R237). -/
def sheetDie (t : Nat) : Nat := match regionOf t with | .main d => d | _ => 0
def State.sheetE (s : State) (d t : Nat) : Option SheetE := (s.die d).dir.find? (·.pa = t)
/-- The sequencer stores into the table at `t`: at the home frame, and at once in every replica of an RDUP page (R209; DEDUCED,
log 154). -/
def State.seqStore (s : State) (t a : Nat) (l : List (BitVec 8)) : State :=
  match s.sheetE (sheetDie t) t with
  | none => s.store a l
  | some e => (if entRdup e.w then List.range 6 else []).foldl (fun s d => s.store (dieRead d a e.w) l) (s.store a l)
/-- A number of `n` bytes. -/
def State.seqN (s : State) (t a n v : Nat) : State := s.seqStore t a (bytesOf n v)

def State.hdr (s : State) (t off : Nat) : Word := s.rd64 (t + off)
def State.setHdr (s : State) (t off lo n v : Nat) : State := s.seqN t (t + off) 8 (putFld (s.hdr t off) lo n v).toNat
def dscPa (t n : Nat) : Nat := t + 0x1000 + 128 * n
def State.dsc (s : State) (t n off : Nat) : Word := s.rd64 (dscPa t n + off)
def State.setDsc (s : State) (t n off lo w v : Nat) : State :=
  s.seqN t (dscPa t n + off) 8 (putFld (s.dsc t n off) lo w v).toNat
def State.ncells (s : State) (t : Nat) : Nat := fld (s.hdr t 0) 0 17
def State.setup (s : State) (t : Nat) : Bool := fld (s.hdr t 0) 31 1 = 1
def State.opened (s : State) (t : Nat) : Nat := fld (s.hdr t 8) 32 32
def State.done (s : State) (t : Nat) : Nat := fld (s.hdr t 8) 0 32
def State.fgen (s : State) (t n : Nat) : Nat := fld (s.dsc t n 0x20) 32 32
def State.bgen (s : State) (t n : Nat) : Nat := fld (s.dsc t n 0x20) 0 32
def State.sgen (s : State) (t n : Nat) : Nat := fld (s.dsc t n 0x28) 32 32
def State.later (s : State) (t n : Nat) : Nat := fld (s.dsc t n 0x28) 16 4
def State.cellState (s : State) (t n : Nat) : Nat := fld (s.dsc t n 0x28) 12 3
def State.kind (s : State) (t n : Nat) : Nat := fld (s.dsc t n 0x28) 10 2
def State.rank (s : State) (t n : Nat) : Nat := fld (s.dsc t n 0x28) 20 12
def State.nprec (s : State) (t n : Nat) : Nat := fld (s.dsc t n 0x48) 24 4
def State.prec (s : State) (t n k : Nat) : Nat := s.rdN (dscPa t n + 0x50 + 2 * k) 2
def State.precs (s : State) (t n : Nat) : List Nat := (List.range (s.nprec t n)).map (s.prec t n)
/-- Virtual addresses of the front and the back buffer. -/
def State.frontBuf (s : State) (t n : Nat) : Word :=
  if fld (s.dsc t n 0x28) 15 1 = 0 then s.dsc t n 0 else s.dsc t n 8
def State.backBuf (s : State) (t n : Nat) : Word :=
  if fld (s.dsc t n 0x28) 15 1 = 0 then s.dsc t n 8 else s.dsc t n 0
/-- Generations compare within a window of 2^31 (R235). -/
def gle (a b : Nat) : Bool := (b + 2 ^ 32 - a) % 2 ^ 32 < 2 ^ 31
def glt (a b : Nat) : Bool := a ≠ b && gle a b
def gnext (g : Nat) : Nat := (g + 1) % 2 ^ 32
/-- The version that holds a cell's value at `g`, if a buffer does: its generation and the buffer's address (R250). -/
def State.version (s : State) (t n g : Nat) : Option (Nat × Word) :=
  if s.fgen t n ≠ 0 && gle (s.fgen t n) g then some (s.fgen t n, s.frontBuf t n)
  else if s.bgen t n ≠ 0 && gle (s.bgen t n) g then some (s.bgen t n, s.backBuf t n)
  else none
def State.bufAt (s : State) (t n g : Nat) : Option Word := (s.version t n g).map (·.2)
/-- Bytes of a cell's buffer: ROWS times PITCH or the packed row (R239, R161). -/
def packedRow (tag cols : Nat) : Nat := (cols * elemBits tag + 7) / 8
def shapeBytes (shape layout : Word) : Nat :=
  let pitch := fld layout 0 20
  fld shape 0 12 * (if pitch = 0 then packedRow (fld shape 32 4) (fld shape 16 12) else pitch)
def State.bufBytes (s : State) (t n : Nat) : Nat := shapeBytes (s.dsc t n 0x10) (s.dsc t n 0x18)

def State.unfinished (s : State) (t : Nat) : Nat := (s.opened t + 2 ^ 32 - s.done t) % 2 ^ 32

/-! ### Staged edits (R237, R252) -/

structure Edit where
  slot : Nat
  gen : Nat
  cell : Nat
  nprec : Nat
  precs : List Nat
  unbind : Bool
  deriving DecidableEq, Repr

def State.edits (s : State) (t : Nat) : List Edit :=
  (List.range 4).filterMap fun i =>
    let b := t + 0x100 + 128 * i
    let w := s.rd64 (b + 0x40)
    if fld w 31 1 = 1 then
      let np := fld (s.rd64 (b + 0x18)) 0 4
      some ⟨i, fld w 32 32, fld w 0 16, np, (List.range np).map fun k => s.rdN (b + 0x20 + 2 * k) 2,
        s.rdBytes b 64 |>.all (· = 0#8)⟩
    else none
def State.freeEdit (s : State) (t : Nat) : Option Nat :=
  (List.range 4).find? fun i => fld (s.rd64 (t + 0x100 + 128 * i + 0x40)) 31 1 = 0
/-- Precedents of a cell in the graph of generation `h`: the newest staged edit up to `h`, else the descriptor (R242). -/
def State.precsAt (s : State) (t h n : Nat) : List Nat :=
  let es := (s.edits t).filter fun e => e.cell = n && gle e.gen h
  match es with
  | [] => s.precs t n
  | e :: r => (r.foldl (fun a b => if gle a.gen b.gen then b else a) e).precs
/-- Direct dependants in the graph of `h`. -/
def State.depsAt (s : State) (t h n : Nat) : List Nat :=
  (List.range (s.ncells t)).filter fun m => (s.precsAt t h m).contains n
/-- Cells reached through dependants from a list, itself included. -/
def State.closure (s : State) (t h : Nat) : Nat → List Nat → List Nat → List Nat
  | 0, _, seen => seen
  | _ + 1, [], seen => seen
  | k + 1, n :: r, seen =>
    if seen.contains n then s.closure t h k r seen else s.closure t h k (s.depsAt t h n ++ r) (seen ++ [n])
def sheetFuel : Nat := 1000000

/-! ### Marks and states (R248) -/

def State.staleFor (s : State) (t n g : Nat) : Bool :=
  let st := s.cellState t n
  (st = 1 || st = 2) && (s.sgen t n = g ||
    (glt (s.sgen t n) g && (g + 2 ^ 32 - s.sgen t n) % 2 ^ 32 ≤ 4 &&
      nfld (s.later t n) ((g + 2 ^ 32 - s.sgen t n) % 2 ^ 32 - 1) 1 = 1))
def State.markStale (s : State) (t h n : Nat) : State :=
  let st := s.cellState t n
  if st = 1 || st = 2 then
    if s.sgen t n = h then s
    else s.setDsc t n 0x28 16 4 (s.later t n ||| 2 ^ ((h + 2 ^ 32 - s.sgen t n) % 2 ^ 32 - 1))
  else (s.setDsc t n 0x28 12 3 1).setDsc t n 0x28 32 32 h
def State.updSheet (s : State) (d t : Nat) (g : SheetE → SheetE) : State :=
  s.updDie d fun v => { v with dir := v.dir.map fun e => if e.pa = t then g e else e }
/-- After a cell has ended generation SGEN: it becomes stale for the next generation LATER names, or `st` (R246, R248). -/
def State.leaveGen (s : State) (t n st : Nat) : State :=
  let l := s.later t n
  if l = 0 then s.setDsc t n 0x28 12 3 st
  else
    let k := lowestSet 4 0 l
    ((s.setDsc t n 0x28 12 3 1).setDsc t n 0x28 32 32 ((s.sgen t n + 1 + k) % 2 ^ 32)).setDsc t n 0x28 16 4 (l >>> (k + 1))
/-- Errors of a cell at generations up to `g`: generation and reason. -/
def State.errsTo (s : State) (d t n g : Nat) : List (Nat × Nat) :=
  let old := match s.sheetE d t with
    | none => []
    | some e => (e.errs.filter fun r => r.1 = n && gle r.2.1 g).map (·.2)
  old ++ (if s.cellState t n = 3 && gle (s.sgen t n) g then [(s.sgen t n, fld (s.dsc t n 0x28) 0 8)] else [])
/-- The newest of some errors. -/
def newestErr : List (Nat × Nat) → Option (Nat × Nat)
  | [] => none
  | a :: r => some (r.foldl (fun a b => if gle a.1 b.1 then b else a) a)
/-- The reason a cell is in error at `g` (R254), if it is: no version up to `g` is newer than the error. -/
def State.errAt (s : State) (d t n g : Nat) : Option Nat :=
  match newestErr (s.errsTo d t n g) with
  | none => none
  | some (h, r) =>
    let newer (v : Nat) : Bool := v ≠ 0 && gle v g && glt h v
    if newer (s.fgen t n) || newer (s.bgen t n) then none else some r
/-- The error a cell is in stays known for its generations once the cell leaves that state (R248, R254). -/
def State.keepErr (s : State) (d t n : Nat) : State :=
  if s.cellState t n = 3 then
    s.updSheet d t fun e => { e with errs := e.errs ++ [(n, s.sgen t n, fld (s.dsc t n 0x28) 0 8)] }
  else s

/-! ### The fault record (R257) -/

def State.faultRec (s : State) (t gen cell kind : Nat) (detail : Word) (named : List Nat) : State :=
  let b := t + 0xC0
  let fs := s.rd64 (b + 0x20) + 1#64
  ((((s.seqN t b 8 (kind + named.length * 2 ^ 8 + cell * 2 ^ 16 + gen * 2 ^ 32)).seqN t (b + 8) 8 detail.toNat).seqN t (b + 0x10) 16
    ((named ++ List.replicate 8 0).take 8 |>.foldr (fun c a => c + a * 2 ^ 16) 0)).seqN t (b + 0x20) 8 fs.toNat)

/-! ### Chains and ranks (R238, R253) -/

def depSlots (s : State) (t n : Nat) : List (Nat × Nat) :=
  (List.range (s.ncells t)).flatMap fun m =>
    ((List.range (s.nprec t m)).filter fun k => s.prec t m k = n).map fun k => (m, k)
/-- Write the dependant chain of cell `n`, in rising order of cell and slot (log 9). -/
def writeChain (t : Nat) : State → List (Nat × Nat) → State
  | s, [] => s
  | s, (m, k) :: r =>
    let v := match r with | [] => 0 | (m', k') :: _ => 2 ^ 19 + k' * 2 ^ 16 + m'
    writeChain t (s.seqN t (dscPa t m + 0x60 + 4 * k) 4 v) r
def State.chain (s : State) (t n : Nat) : State :=
  let l := depSlots s t n
  let v := match l with | [] => 0 | (m, k) :: _ => 2 ^ 19 + k * 2 ^ 16 + m
  writeChain t (s.setDsc t n 0x48 0 20 v) l
def State.chains (s : State) (t : Nat) : State := (List.range (s.ncells t)).foldl (fun s n => s.chain t n) s
/-- One pass of rank computation over a rank list in the graph of `h`. -/
def State.rankPass (s : State) (t h : Nat) (rk : List Nat) (formula : Nat → Bool) : List Nat :=
  (List.range (s.ncells t)).map fun n =>
    if formula n then 1 + ((s.precsAt t h n).map fun p => rk.getD p 0).foldl max 0 else 0
def State.ranksFrom (s : State) (t h : Nat) (formula : Nat → Bool) : Nat → List Nat → List Nat
  | 0, rk => rk
  | k + 1, rk => let r2 := s.rankPass t h rk formula; if r2 = rk then rk else s.ranksFrom t h formula k r2
/-- Ranks of all cells in the graph of `h`; `extra` names a cell a new edit makes a formula or an input. -/
def State.ranksAt (s : State) (t h : Nat) : List Nat :=
  let formula (n : Nat) : Bool :=
    match (s.edits t).filter fun e => e.cell = n && gle e.gen h with
    | [] => s.kind t n = 2
    | e :: r => !(r.foldl (fun a b => if gle a.gen b.gen then b else a) e).unbind
  s.ranksFrom t h formula 5000 (List.replicate (s.ncells t) 0)
def State.writeRanks (s : State) (t : Nat) : State :=
  let rk := s.ranksFrom t (s.done t) (fun n => s.kind t n = 2) 5000 (List.replicate (s.ncells t) 0)
  (List.range (s.ncells t)).foldl (fun s n => s.setDsc t n 0x28 20 12 (rk.getD n 0)) s

/-! ### Bindings (R239, R240, R252) -/

/-- Write a binding record into the descriptor of cell `n`; an all-zero record unbinds it. -/
def State.applyBind (s : State) (t n : Nat) (r : List (BitVec 8)) : State :=
  let g (o k : Nat) : Nat := ofBytes ((r.drop o).take k)
  let np := g 0x18 1 % 16
  let s := if r.all (· = 0#8) then s.setDsc t n 0x28 10 2 1 else s.setDsc t n 0x28 10 2 2
  let s := ((s.seqN t (dscPa t n + 0x30) 8 (g 0 8)).seqN t (dscPa t n + 0x38) 8 (g 8 8)).seqN t (dscPa t n + 0x40) 8 (g 0x10 8)
  let s := (s.setDsc t n 0x48 24 4 np).seqN t (dscPa t n + 0x50) 16 (g 0x20 (2 * np))
  ((s.seqN t (dscPa t n + 0x60) 32 0).chains t).writeRanks t
/-- The staged edit of a generation that becomes current takes effect and frees its slot. -/
def State.applyEdit (s : State) (t g : Nat) : State :=
  match (s.edits t).find? (·.gen = g) with
  | none => s
  | some e =>
    let b := t + 0x100 + 128 * e.slot
    (s.applyBind t e.cell (s.rdBytes b 64)).seqN t (b + 0x40) 8 0

/-! ### Commits, errors, finishing (R243, R246, R254) -/

/-- A cell that computes or is stale for `g` ends in error; PROPAGATED writes no record (R257). -/
def State.endError (s : State) (d t n g reason : Nat) (detail : Word) : State :=
  let s := if reason = 5 then s else s.faultRec t g n reason detail []
  let s := s.setDsc t n 0x28 0 8 reason
  let s := if s.later t n = 0 then s else s.updSheet d t fun e => { e with errs := e.errs ++ [(n, g, reason)] }
  let s := s.updSheet d t fun e => { e with commits := e.commits.filter fun c => !(c.1 = n && c.2.1 = g) }
  s.leaveGen t n 3
/-- Whether the version of input `p` that generation `g` reads is poisoned (R256). -/
def State.poisonedFor (s : State) (d t p g : Nat) : Bool :=
  match s.sheetE d t, s.version t p g with
  | some e, some (v, _) => e.poisoned.contains (p, v)
  | _, _ => false
/-- The front version of input `n` is poisoned; a version no buffer holds any more is forgotten. -/
def State.poisonFront (s : State) (d t n : Nat) : State :=
  let live (r : Nat × Nat) : Bool := r.1 ≠ n || r.2 = s.bgen t n
  s.updSheet d t fun e => { e with poisoned := e.poisoned.filter live ++ [(n, s.fgen t n)] }
/-- One pass: cells stale (not computing) for the current generation whose precedent is in error or poisoned for it (R248, R254, R256). -/
def State.failPass (s : State) (d t g : Nat) : Option State :=
  ((List.range (s.ncells t)).find? fun n => s.cellState t n = 1 && s.sgen t n = g &&
    (s.precs t n).any fun p => !s.staleFor t p g && ((s.errAt d t p g).isSome || s.poisonedFor d t p g)).map fun n =>
    let pois := (s.precs t n).any fun p => s.poisonedFor d t p g
    s.endError d t n g (if pois then 6 else 5) 0#64
/-- Errors spread, finished generations close and staged edits of the next one take effect. -/
def State.settle (s : State) (d t : Nat) : Nat → State
  | 0 => s
  | k + 1 =>
    if s.setup t || s.done t = s.opened t then s
    else
      let g := gnext (s.done t)
      match s.failPass d t g with
      | some s' => s'.settle d t k
      | none =>
        if (List.range (s.ncells t)).any fun n => s.staleFor t n g then s
        else
          let s := s.setHdr t 8 0 32 g
          (if s.done t = s.opened t then s else s.applyEdit t (gnext g)).settle d t k
/-- Open generation OPENED + 1, naming cells to mark; `flip` is the cell a CST stored (R241). A cell that an earlier generation still has to
compute stays stale for it (R248; log 135). -/
def State.openGen (s : State) (d t : Nat) (named : List Nat) (flip : Option Nat) : State :=
  let h := gnext (s.opened t)
  let s := match flip with
    | none => s
    | some n =>
      let fg := s.fgen t n
      let s := s.keepErr d t n
      let s := ((s.setDsc t n 0x28 15 1 (1 - fld (s.dsc t n 0x28) 15 1)).setDsc t n 0x20 0 32 fg).setDsc t n 0x20 32 32 h
      if s.cellState t n = 1 || s.cellState t n = 2 then s else (s.setDsc t n 0x28 12 3 0).setDsc t n 0x28 32 32 h
  let s := (s.closure t h sheetFuel named []).foldl (fun s n => (s.keepErr d t n).markStale t h n) s
  let cur : Bool := s.done t = s.opened t
  let s := s.setHdr t 8 32 32 h
  let s := bif cur then s.applyEdit t h else s
  s.settle d t sheetFuel
/-- The back buffer may be written (R244). -/
def State.backFree (s : State) (t n : Nat) : Bool :=
  let b := s.bgen t n
  let f := s.fgen t n
  b = 0 || !(((List.range 16).any fun p =>
      let w := s.hdr t (0x20 + 8 * p)
      fld w 32 1 = 1 && gle b (fld w 0 32) && glt (fld w 0 32) f) ||
    ((List.range (s.unfinished t)).any fun i =>
      let p := (s.done t + 1 + i) % 2 ^ 32
      gle b p && glt p f))
/-- The last member's success flips the buffers (R246). -/
def State.commitCell (s : State) (d t n g : Nat) : State :=
  let fg := s.fgen t n
  let s := ((s.setDsc t n 0x28 15 1 (1 - fld (s.dsc t n 0x28) 15 1)).setDsc t n 0x20 0 32 fg).setDsc t n 0x20 32 32 g
  let s := s.updSheet d t fun e => { e with commits := e.commits.filter fun c => !(c.1 = n && c.2.1 = g) }
  (s.leaveGen t n 0).settle d t sheetFuel
/-- A member's failure, where the cell still computes that generation (R246). -/
def State.cellFail (s : State) (fm : Formula) (reason : Nat) (detail : Word) : State :=
  if s.cellState fm.t fm.cell = 2 && s.sgen fm.t fm.cell = fm.gen then
    (s.endError (sheetDie fm.t) fm.t fm.cell fm.gen reason detail).settle (sheetDie fm.t) fm.t sheetFuel
  else s
/-- The dispatch candidate of the current generation: lowest rank, then lowest number (R243). Stale cells whose precedents are in error or
poisoned have ended (`settle`). -/
def State.dispatchCell (s : State) (t : Nat) : Option Nat :=
  if s.setup t || s.done t = s.opened t then none
  else
    let g := gnext (s.done t)
    let cells := List.range (s.ncells t)
    if (cells.filter fun n => s.cellState t n = 2).length ≥ 1024 then none
    else
      let held := fld (s.hdr t 0x10) 15 1 = 1
      let ready := cells.filter fun n => s.cellState t n = 1 && s.sgen t n = g && s.kind t n = 2 &&
        ((s.precs t n).all fun p => !s.staleFor t p g) && s.backFree t n &&
        (!held || s.rank t n < fld (s.hdr t 0x10) 0 12)
      match ready with
      | [] => none
      | n :: r => some (r.foldl (fun a b => if s.rank t b < s.rank t a then b else a) n)

end Sys2Proof.Machine
end

