-- ==== Sys2Proof/Machine/Units.lean ====
section
/-! DEFINITION. Operations several units share: events (R218, R450), barriers (R231, R233), replies the part writes (R315),
collective aborts (R428, R429), ending a launch (R390), guilt and barring (R391, R392), freezing (R394). -/
namespace Sys2Proof.Machine

/-! ### Events -/

/-- Post an event on a die's ring (R218, R382): source number, ring slot, EVPUT. -/
def State.post (s : State) (d cls idx kind body : Nat) : State :=
  let v := s.die d
  let key := 256 * cls + idx
  let sq := v.seqs.get key 0
  let lo := idx + cls * 2 ^ 8 + d * 2 ^ 16 + s.pkg * 2 ^ 19 + sq * 2 ^ 32 + kind * 2 ^ 48
  let at_ := v.evbase + 16 * (v.evput % 2 ^ v.evlog2)
  let s := if v.evbase = 0 then s else (s.unitWr at_ 8 lo).unitWr (at_ + 8) 8 (body % 2 ^ 64)
  s.updDie d fun v => { v with seqs := v.seqs.put key ((sq + 1) % 65536), evput := (v.evput + 1) % 2 ^ 32 }

/-! ### Wait words of barriers (R232) -/

def barWord (status phase : Nat) : Word := wd (status * 2 ^ 32 + phase % 2 ^ 32)
/-- Phase p of a barrier with C phases complete (R231). -/
def phaseDone (c p : Nat) : Bool := let n := (c + 2 ^ 32 - p) % 2 ^ 32; 1 ≤ n && n ≤ 2 ^ 31
/-- The die whose table holds the counts of a gang's barrier. -/
def Gang.home (g : Gang) : Nat := dieOf (g.cores.headD 0)
/-- Key of a gang's barrier in the table: its number, and the launch it is armed for, whose counts pre-emption saves (R233). -/
def Gang.barKey (g : Gang) : Nat := 64 * g.launch + g.bar % 64
def State.barOf (s : State) (g : Gang) : Barrier := (s.die g.home).bars.get g.barKey {}
def State.setBar (s : State) (g : Gang) (b : Barrier) : State :=
  s.updDie g.home fun v => { v with bars := v.bars.put g.barKey b }
/-- End the barrier waits of a frame that a phase or an abort ends; the registers are written (R232). -/
def endBarWaits (b : Barrier) (r : Frame) : Frame :=
  let ends (w : Wait) : Option (Nat × Word) :=
    match w.kind with
    | .bar p d => if b.aborted then some (d, barWord 3 p) else if phaseDone b.c p then some (d, barWord 0 p) else none
    | .barwt p d => if b.aborted then some (d, barWord 3 b.c) else if phaseDone b.c p then some (d, barWord 0 b.c) else none
    | _ => none
  let r2 := r.waits.foldl (fun r w => match ends w with | some (d, v) => r.wx d v | none => r) r
  { r2 with waits := r.waits.filter fun w => (ends w).isNone }
def framesOf (k : Nat) : List Nat := if isTsc k then List.range 24 else List.range 9
def Core.inLaunch (c : Core) (id : Nat) : Bool := match c.gang with | some g => g.launch = id | none => false
/-- A phase or an abort of the gang's barrier ends waits of its firings, resident or pre-empted (R232, R233). -/
def State.barSweep (s : State) (g : Gang) : State :=
  let b := s.barOf g
  let s := g.cores.foldl (fun s k => if (s.core k).inLaunch g.launch then (framesOf k).foldl (fun s f =>
    if (s.fr k f).waits = [] then s else s.updFr k f (endBarWaits b)) s else s) s
  { s with savedFrames := s.savedFrames.map fun key l =>
      if (s.savedCores.get key {}).inLaunch g.launch then l.map fun e => (e.1, endBarWaits b e.2) else l }
/-- Abort a gang's barrier (R233). -/
def State.barAbort (s : State) (g : Gang) : State :=
  (s.setBar g { s.barOf g with aborted := true }).barSweep g
def State.coreBarAbort (s : State) (k : Nat) : State :=
  match (s.core k).gang with
  | some g => s.barAbort g
  | none => s

/-! ### Replies the part writes (R315) -/

def State.sendReply (s : State) (k : Nat) (m : Msg) : State :=
  if (s.core k).outbox.length < 16 then { s with replies := s.replies ++ [m] }
  else s.updCore k fun c => { c with autos := c.autos ++ [m] }
/-- The AUTO reply of a firing that owes one. -/
def autoMsg (ctx k : Nat) (o : Nat × Nat) : Msg := { ctx := ctx, dst := o.1, src := k, auto := true, reply := true, tag := o.2 }
def State.autoReply (s : State) (k f : Nat) : State :=
  match (s.fr k f).owes with
  | none => s
  | some o => (s.sendReply k (autoMsg (s.core k).ctxid k o)).updFr k f fun r => { r with owes := none }
/-- Every AUTO reply that waits at a core leaves: an entry is free (R315). -/
def State.flushAutos (s : State) (k : Nat) : State :=
  { (s.updCore k fun c => { c with autos := [] }) with replies := s.replies ++ (s.core k).autos }

/-! ### Packets toward another package (R213, R216, R416) -/

def State.port (s : State) (p : Nat) : Port := (s.die (p / 3)).ports.get (p % 3) {}
def State.setPort (s : State) (p : Nat) (v : Port) : State := s.updDie (p / 3) fun d => { d with ports := d.ports.put (p % 3) v }
/-- The plane of traffic to package `t`: its own, or another while that one is down. -/
def State.plane (s : State) (t : Nat) : Option Nat := (t % 18 :: List.range 18).find? fun p => (s.port p).width ≠ 0
/-- Waiting packets become flits while fewer than 2,048 are unacknowledged. -/
def Port.fill (p : Port) : Port :=
  let n := min p.waitTx (2048 - p.replay.length)
  { p with replay := p.replay ++ (List.range n).map fun i => (p.nextTx + i) % 4096
           nextTx := (p.nextTx + n) % 4096
           waitTx := p.waitTx - n }
/-- `n` packets leave through port `p`. -/
def State.sendOn (s : State) (p n : Nat) : State := s.setPort p { s.port p with waitTx := (s.port p).waitTx + n }.fill
/-- `n` packets leave for package `t`. -/
def State.flits (s : State) (t n : Nat) : State :=
  match s.plane t with
  | some p => s.sendOn p n
  | none => s
/-! ### Collective aborts (R428, R429) -/

def State.group (s : State) (g : Nat) : Group := s.groups.get g {}
def State.setGroup (s : State) (g : Nat) (v : Group) : State := { s with groups := s.groups.put g v }
def Group.member (v : Group) (pkg k : Nat) : Bool := v.members.contains (k, pkg)
/-- Codes of what an instruction that waits has saved: a CGWAIT, a CGFORM, either ended by an abort, a CGFORM that has formed, and
one answered BADREC. -/
def savGroup : Nat := 7
def savForm : Nat := 6
def savAborted : Nat := 8
def savFormed : Nat := 5
def savBadRec : Nat := 4
/-- And of a SEND that has a reply slot and waits for an outbox entry. -/
def savResv : Nat := 26
/-- What an instruction of group `g` has saved once its incarnation has aborted. -/
def Frame.groupEnds (g reason : Nat) (v : Group) (r : Frame) : Frame :=
  match r.saved with
  | [a, h, i] => if (a = savGroup || a = savForm) && h = g && (i = v.inc || v.state = 1) then { r with saved := [savAborted, h, i, reason] } else r
  | _ => r
def Core.flowsDie (g : Nat) (v : Group) (c : Core) : Core :=
  { c with flows := c.flows.map fun _ x => if x.grouped && x.group = g && x.inc = v.inc then { x with dead := true } else x }
/-- A package records an abort (R429 steps 1, 2, 4 and 5): the reason, the event, and what waits or is open here, pre-empted contexts
among it. -/
def State.groupEnd (s : State) (g reason : Nat) : State :=
  let v := s.group g
  if v.state = 3 || v.state = 0 then s
  else
    let s := (s.setGroup g { v with state := 3, reason := reason, joins := [] }).post 0 3 0 0x0607
      (g + reason * 2 ^ 8 + v.inc * 2 ^ 16)
    let s := { s with frames := s.frames.map fun _ r => r.groupEnds g reason v
                      savedFrames := s.savedFrames.map fun _ l => l.map fun (e : Nat × Frame) => (e.1, e.2.groupEnds g reason v) }
    { s with cores := s.cores.map fun _ c => c.flowsDie g v, savedCores := s.savedCores.map fun _ c => c.flowsDie g v }
/-- Packages of a group's members but this one. -/
def Group.others (v : Group) (pkg : Nat) : List Nat := ((v.members.map (·.2)).filter (· ≠ pkg)).eraseDups
/-- One message to every other member package leaves on every plane that is up (R429 step 3). -/
def State.tellOthers (s : State) (v : Group) : State :=
  (List.range 18).foldl (fun s p => if (s.port p).width = 0 then s else s.sendOn p (v.others s.pkg).length) s
/-- A cause of this package aborts a group: a formed incarnation is reported to the other member packages (R428, R429). -/
def State.groupAbort (s : State) (g reason : Nat) : State :=
  let v := s.group g
  let s := s.groupEnd g reason
  if v.state = 2 then s.tellOthers v else s
/-- Abort every formed incarnation a core is a member of with a context (R428). -/
def State.memberLost (s : State) (ctx k reason : Nat) : State :=
  (s.groups.keys).foldl (fun s g =>
    let v := s.group g
    if v.state = 2 && v.ctx = ctx && v.member s.pkg k then s.groupAbort g reason else s) s

/-! ### Stores and their numbers (R213 to R216) -/

/-- An atomic store to the line of an RDUP page has acknowledgements outstanding: whatever page names the line, a write waits (R210, R222). -/
def State.lineHeld (s : State) (pa : Nat) : Bool := s.rdup.any fun r => r.atomic && spans r.pa r.bytes.length (pa / 64 * 64) 64
/-- A line of `n` bytes has. -/
def State.linesHeld (s : State) (pa n : Nat) : Bool := (List.range (n / 64 + 2)).any fun i => 64 * i < pa % 64 + n && s.lineHeld (pa + 64 * i)
/-- The core number the model gives the units of a die as issuers of stores. -/
def unitHart (d : Nat) : Nat := 10000 + d
/-- The frame number the model gives the engines of a core, and units that signal, as issuers of releases. -/
def engFrame : Nat := 98
/-- High-water marks of a core's open flows toward package `t`: the last number each has issued (R215). -/
def Core.marks (c : Core) (t : Nat) : List (Nat × Nat) :=
  (c.flows.l.filter fun e => e.2.pkg = t).map fun e => (e.1, (e.2.next + 2 ^ 32 - 1) % 2 ^ 32)
/-- Numbers one more program store toward package `t`, and one more release where it is one (R213, R214): the pair's new record. -/
def Peer.count (p : Peer) (rel : Bool) : Peer :=
  { p with stores := (p.stores + 1) % 2 ^ 32, releases := if rel then (p.releases + 1) % 2 ^ 32 else p.releases }
/-- A store of frame `f` of core `k` in context `ctx` at a place already translated: the home of an RDUP page with its replicas to
follow (R209 to R211), another package, whose acknowledgement is to come (R213), or memory itself. -/
def State.put (s : State) (k f ctx pa : Nat) (w : Word) (l : List (BitVec 8)) (rel : Option Nat) : State :=
  if entRdup w then
    let h := entHome w
    let s := if entProp w then s.store pa l else s
    { s with rdup := s.rdup ++ [{ pa := pa, bytes := l, home := h, dies := (List.range 6).filter (· ≠ h), atomic := !entProp w, core := k, ctx := ctx }] }
  else if isRemote s pa then
    let p := (s.peers.get (pkgOf pa) {}).count rel.isSome
    let e : PStore := { num := p.stores, rel := rel.map fun _ => p.releases, pa := pa, bytes := l, core := k, frame := f,
                        launch := (match (s.core k).gang with | some g => g.launch | none => 0), va := rel.getD 0, ctx := ctx,
                        epoch := p.txEpoch, marks := if rel.isSome then (s.core k).marks (pkgOf pa) else [] }
    { s.flits (pkgOf pa) 1 with peers := s.peers.put (pkgOf pa) { p with pending := p.pending ++ [e] } }
  else s.unitStore pa l
/-- A store of a unit of die `d` for context `ctx`. -/
def State.unitPut (s : State) (d ctx pa : Nat) (w : Word) (l : List (BitVec 8)) : State := s.put (unitHart d) 99 ctx pa w l none
/-- Stores of a firing that ends are no longer its own (R421). -/
def State.unlinkStores (s : State) (k f : Nat) : State :=
  { s with peers := s.peers.map fun _ p => { p with pending := p.pending.map fun q => if q.core = k && q.frame = f && q.ctx = (s.core k).ctxid then { q with frame := 99 } else q } }

/-- Replies a firing that ends no longer expects: a reply slot that its SEND reserved, the answer to its SPAWN, whose record still in the
outbox is nobody's (R314). -/
def Core.forget (c : Core) (f : Nat) (r : Frame) : Core :=
  { c with
    awaits := (match r.saved with
      | a :: t :: _ => if a = savResv then c.awaits.erase t else if a = 32 then c.awaits.erase 64 else c.awaits
      | _ => c.awaits)
    outbox := c.outbox.map fun e => if e.msg.kind = .spawn && e.msg.no = f then { e with msg := { e.msg with no := 99 } } else e }
/-- Stores in the side log and engine commands of a firing that ends are no longer its own (R120, R374). -/
def State.orphan (s : State) (k f : Nat) : State :=
  let c (m : Cmd) : Cmd := if m.who = .firing f then { m with who := .ended f } else m
  let g (e : Engine) : Engine := { e with queue := e.queue.map c, running := e.running.map c }
  (s.unlinkStores k f).updCore k fun v =>
    { v.forget f (s.fr k f) with
      mx := g v.mx, cp := g v.cp
      slog := v.slog.map fun _ e => if e.frame = f then { e with gone := true } else e }

/-! ### Ending a launch (R390) -/

/-- Discard a core's firing: its formula ends in error, its owed reply is written, its frame is empty. -/
def State.dropFrame (s : State) (k f : Nat) : State :=
  let r := s.fr k f
  if r.stat = .free then s
  else
    let s := (s.autoReply k f).orphan k f
    let s := match r.fm with
      | some fm => if fm.committed then s else s.cellFail fm 1 0#64
      | none => s
    { s.setFr k f {} with
      walks := s.walks.filter fun w => w.who ≠ Who.frame k f
      ans := s.ans.filter fun a => a.who ≠ Who.frame k f }
/-- A pre-empted firing is discarded: its cell ends in error, and the reply it owes is sent (R246, R315). -/
def State.dropSaved (s : State) (ctx k : Nat) (r : Frame) : State :=
  let s := match r.owes with
    | some o => { s with replies := s.replies ++ [autoMsg ctx k o] }
    | none => s
  match r.fm with
  | some fm => if fm.committed then s else s.cellFail fm 1 0#64
  | none => s
/-- A firing or a side-log entry of core `k` waits; a unit's walk is not the core's. -/
def Who.on (w : Who) (k : Nat) : Bool :=
  match w with | .frame j _ => j = k | .slog j _ => j = k | .unit _ => false
/-- Nothing waits in an engine. -/
def Core.idleEngines (c : Core) : Bool :=
  c.mx.queue.isEmpty && c.mx.running.isEmpty && c.mx.held.isEmpty && c.cp.queue.isEmpty && c.cp.running.isEmpty && c.cp.held.isEmpty
/-- What an ended launch leaves of a core beside its engines. -/
def Core.cleared (c : Core) : Core :=
  { c with issuing := none, inbox := {}, outbox := [], awaits := [], deque := [], slog := {}, moving := [] }
/-- Steps 1 and 3 of R390 on one member core. Of a pre-empted context the checkpointed engine commands stay, which run to their end once it is
resident again (DEDUCED, log 143). -/
def State.clearCore (s : State) (ctx k : Nat) : State :=
  if (s.core k).ctxid ≠ ctx then
    let s := (s.savedFrames.get (savedKey ctx k) []).foldl (fun s e => s.dropSaved ctx k e.2) s
    let c := s.savedCores.get (savedKey ctx k) {}
    let s := { s with replies := s.replies ++ c.autos, savedFrames := s.savedFrames.del (savedKey ctx k) }
    if c.idleEngines then
      { (if s.heldSave ctx k then s.setHeld ctx k false else s) with savedCores := s.savedCores.del (savedKey ctx k) }
    else { s with savedCores := s.savedCores.put (savedKey ctx k) { c.cleared with autos := [] } }
  else
    let s := ((List.range 9).foldl (fun s f => s.dropFrame k f) s).flushAutos k
    { (s.updCore k (·.cleared)) with
      replies := s.replies.filter fun m => !(m.dst = k && m.ctx = ctx)
      walks := s.walks.filter fun w => !w.who.on k
      ans := s.ans.filter fun a => !a.who.on k }
/-- Write SIGNAL where its page is translated and no store to its line is outstanding (R210); the front end's walk otherwise (R387, R389). -/
def State.signal (s : State) (L : Launch) (v : Int) : Option State :=
  if L.signal = 0#64 then some s
  else match s.unitAcc L.die (1000 + L.die) L.ctx L.signal.toNat needW with
    | .go s pa w =>
      let nv : Int := if v = 0 then (s.unitRd pa 8 : Nat) - 1 else v
      if s.lineHeld pa then none else some (s.put (unitHart L.die) engFrame L.ctx pa w (bytesOf 8 (nv % 2 ^ 64).toNat) (some L.signal.toNat))
    | _ => none
def State.dropLaunch (s : State) (id : Nat) : State := { s with launches := s.launches.filter (·.id ≠ id) }
def State.putLaunch (s : State) (L : Launch) : State :=
  { s with launches := s.launches.map fun o => if o.id = L.id then L else o }
/-- SIGNAL receives a completion value, and the launch is over; a page that waits for a walk is written by LAUNCH_COMPLETE. -/
def State.sigOut (s : State) (L : Launch) (v : Int) : State :=
  match s.signal L v with
  | some s => s.dropLaunch L.id
  | none =>
    match s.unitAcc L.die (1000 + L.die) L.ctx L.signal.toNat needW with
    | .fail s' _ => s'.putLaunch { L with ended := true, failed := some v, sigFault := true }
    | .wait s' => s'.putLaunch { L with ended := true, failed := some v }
    | .go s _ _ => s.putLaunch { L with ended := true, failed := some v }
/-- The engines of a core do nothing: its context is frozen (R394), and its launch has not ended, whose commands run to their end (R390). -/
def State.halted (s : State) (k : Nat) : Bool := (s.core k).frozen && s.launches.any fun L => (s.core k).inLaunch L.id && !L.ended
/-- Replica pushes a release of issuer `k` on die `d` waits for (R194, R199, R202, R210, R211): its own, which at a scope of a die or
narrower that die must have applied (DEDUCED, log 144), and at a scope of the package or wider every push the die has applied, for the issuer
may have observed the store. -/
def State.pushesDue (s : State) (k d : Nat) (wide : Bool) : Bool :=
  s.rdup.any fun r => (r.core = k && (r.atomic || wide || r.dies.contains d)) || (wide && !r.atomic && !r.dies.contains d)
/-- Those of core `k`. -/
def State.pushWaits (s : State) (k : Nat) (wide : Bool) : Bool := s.pushesDue k (dieOf k) wide
/-- Every write of a gang is performed at its SCOPE, its engine commands among them: SIGNAL may be written (R202, R389, R390). -/
def State.gangDone (s : State) (L : Launch) : Bool :=
  (L.cores.all fun k => if (s.core k).ctxid = L.ctx then (s.core k).idleEngines else (s.savedCores.get (savedKey L.ctx k) {}).idleEngines) &&
    !L.cores.any (fun k => s.pushWaits k (L.scope ≥ 3)) &&
    !s.peers.l.any fun p => L.scope ≥ 3 && p.2.pending.any fun q => L.cores.contains q.core && q.ctx = L.ctx
/-- The gang of a launch, as its barrier sees it. -/
def Launch.gang (L : Launch) : Gang := { launch := L.id, rank := 0, cores := L.cores, steal := L.steal, bar := L.bar, code := [] }
/-- End a launch with a completion value (R390 steps 1 to 5, R392, R362, R436). A SIGNAL that waits for the gang's engine commands and
writes, or for a walk, is written by LAUNCH_COMPLETE. -/
def State.launchEnd (s : State) (L : Launch) (v : Int) : State :=
  let s := if L.released then
      let s := L.cores.foldl (fun s k => s.clearCore L.ctx k) s
      let s := s.barAbort L.gang
      L.cores.foldl (fun s k => s.memberLost L.ctx k 3) s
    else s
  if L.released && !s.gangDone L then s.putLaunch { L with ended := true, failed := some v } else s.sigOut L v

/-! ### Guilt and barring (R391, R392) -/

def State.endCtxLaunches (s : State) (ctx : Nat) (v : Int) : State :=
  (s.launches.filter fun L => L.ctx = ctx && !L.ended).foldl (fun s L => s.launchEnd L v) s
def State.guilt (s : State) (ctx reason : Nat) : State :=
  match s.slotOf ctx with
  | none => s
  | some n =>
    let w := s.ctxDw n 0
    let g := min 255 (fld w 24 8 + 1)
    let s := (s.setCtxFld n 24 8 g).post 0 2 0 0x0401 (n + g * 2 ^ 8 + reason * 2 ^ 16)
    if g > fld w 32 8 && fld w 18 1 = 0 then
      ((s.setCtxFld n 18 1 1).post 0 2 0 0x0402 n).endCtxLaunches ctx (-3)
    else s

/-- R390 step 6, after step 5: the guilt of a launch that its LIMIT ended, now or once SIGNAL is written. -/
def State.limitGuilt (s : State) (L : Launch) : State :=
  if s.launches.any (·.id = L.id) then
    { s with launches := s.launches.map fun o => if o.id = L.id then { o with owes := true } else o }
  else s.guilt L.ctx 3

/-! ### Freezing (R393, R394) -/

/-- Master identities (R393). -/
def mCtx (slot : Nat) : Nat := slot
def mFn (fn : Nat) : Nat := 2 ^ 16 + fn
def mMgmt : Nat := 2 ^ 17
def State.freezeCtx (s : State) (ctx : Nat) : State :=
  match s.slotOf ctx with
  | none => s
  | some n =>
    let s := s.setCtxFld n 17 1 1
    let s := (s.launches.filter fun L => L.ctx = ctx && L.released && !L.ended).foldl (fun s L =>
      L.cores.foldl (fun s k => s.memberLost ctx k 3) (s.barAbort L.gang)) s
    (s.cores.keys).foldl (fun s k => if (s.core k).ctxid = ctx then s.updCore k fun c => { c with frozen := true } else s) s
/-- Freeze a violating master and post the event (R394). -/
def State.freeze (s : State) (d master addr : Nat) : State :=
  let s := s.post d 2 0 0x0403 (master + addr % 2 ^ 40 * 2 ^ 24)
  if master ≥ 2 ^ 17 then { s with frozenMgmt := true }
  else if master ≥ 2 ^ 16 then { s with frozenFns := if s.frozenFns.contains (master % 128) then s.frozenFns else s.frozenFns ++ [master % 128] }
  else s.freezeCtx (fld (s.ctxDw master 0) 0 16)

end Sys2Proof.Machine
end

