-- ==== Sys2Proof/Machine/Ops.lean ====
section
/-! DEFINITION. The shared operations of every meaning: stopping a firing (R127, R402), taking a trap (R126), the return
(R125), group boundaries (R30 to R33), the end of a firing (R120), walks' answers and the side log (R369, R373, R374), and the
frame in which each instruction issues. -/
namespace Sys2Proof.Machine

/-! ### Stopping and trapping -/

/-- The cell a stopped firing computes ends with DOUBLE where that stopped it, its own CCOMMIT done or not, and as ENDED where another cause
did (R246, R257; DEDUCED, log 125). -/
def State.cellStop (s : State) (r : Frame) : State :=
  match r.fm with
  | some fm => if r.cause = 0x81#64 then s.cellFail fm 4 r.tval else if fm.committed then s else s.cellFail fm 1 0#64
  | none => s
/-- What the recovery core does about a stopped firing (R402). -/
def State.actOnStop (s : State) (k f : Nat) : State :=
  let r := s.fr k f
  let s := (s.coreBarAbort k).cellStop r
  let s := (s.autoReply k f).memberLost (s.core k).ctxid k 4
  if r.cause = 0x83#64 then s else s.guilt (s.core k).ctxid 4
/-- What it does about one whose context has been pre-empted. -/
def State.actOnSaved (s : State) (ctx k f : Nat) : State :=
  let key := savedKey ctx k
  match (s.savedFrames.get key []).find? fun e => e.1 = f && e.2.stat = .stopped with
  | none => s
  | some (_, r) =>
    let s := match (s.savedCores.get key {}).gang with
      | some g => s.barAbort g
      | none => s
    let s := s.cellStop r
    let s := match r.owes with
      | some o => { s with replies := s.replies ++ [autoMsg ctx k o] }
      | none => s
    let s := { s with savedFrames := s.savedFrames.put key ((s.savedFrames.get key []).map fun (e : Nat × Frame) => if e.1 = f then (e.1, { e.2 with owes := none }) else e) }
    let s := s.memberLost ctx k 4
    if r.cause = 0x83#64 then s else s.guilt ctx 4
/-- The recovery core acts on a stop it has posted, of the context and core of a key (R396, R402). -/
def State.actOn (s : State) (key f : Nat) : State :=
  let k := key % 8192
  if (s.core k).ctxid = key / 8192 then (if (s.fr k f).stat = .stopped then s.actOnStop k f else s)
  else s.actOnSaved (key / 8192) k f
/-- Stop a firing with a cause and its values (R127); in host-assisted triage the recovery core waits (R396). What it waited for writes its
frame no more. -/
def State.stopFiring (s : State) (k f : Nat) (t : Trap) : State :=
  let c := (s.core k).ctxid
  let s := s.updFr k f fun r => { r with stat := .stopped, hold := .no, epc := r.pc, cause := wd t.cause, tval := t.t1,
                                         tval2 := t.t2, tval3 := t.t3, waits := [], owed := none, body := none }
  let s := s.updCore k fun v => { v with issuing := if v.issuing = some f then none else v.issuing }
  let body := k % 8192 + (if f = 8 then 0 else f) * 2 ^ 13 + ((s.slotOf c).getD 0) * 2 ^ 16 + t.cause * 2 ^ 24 +
    (if t.cause = 0x81 then fld t.t3 0 8 * 2 ^ 32 else 0) + (if f = 8 then 2 ^ 40 else 0)
  let s := s.post (dieOf k) 3 0 0x0601 body
  if nfld (s.die (dieOf k)).assist 3 1 = 1 then s.updDie (dieOf k) fun v => { v with triage := v.triage ++ [(savedKey c k, f)] }
  else s.actOnStop k f

/-- The firing parks where it stands; the core chooses again (R282). -/
def State.parkFrame (s : State) (k f : Nat) (g : Frame → Frame) : State :=
  let n := (s.core k).parks
  (s.updFr k f fun r => { g r with stat := .parked, parkNo := n }).updCore k fun c =>
    { c with issuing := if c.issuing = some f then none else c.issuing, parks := n + 1 }

/-- What an instruction that waits at its place has fixed is forgotten: it completes, or traps with no effect. -/
def Frame.settled (r : Frame) : Frame :=
  { r with hold := .no, expired := false, behind := false, saved := [], far := [], marks := [], parkedAt := [] }
/-- The instruction that waits for a unit's remote access: its limit may end the wait (R335, R419). -/
def Frame.unitFar (r : Frame) (va pkg : Nat) : Frame := { r with far := (va, 2 ^ 16 + pkg) :: r.far.filter (· ≠ (va, 2 ^ 16 + pkg)) }
/-- The frame at its handler (R126 steps 3 to 7). -/
def Frame.handle (r : Frame) (tvec : Word) (t : Trap) (epc : Word) : Frame :=
  { r with epc := epc, cause := wd t.cause, tval := t.t1, tval2 := t.t2, tval3 := t.t3, handler := true,
           pc := tvec, out := [], seq := [], body := none, owed := none }
/-- Steps 3 to 7 of R126. A deferred trap that is due where the handler's group begins meets the handler flag (R127, R129). -/
def State.deliver (s : State) (k f : Nat) (t : Trap) (epc : Word) : State :=
  let s' := s.updFr k f fun r => r.handle (s.core k).tvec t epc
  match (s.fr k f).deferred with
  | [] => s'
  | d :: ds => (s'.updFr k f fun r => { r with deferred := ds, now := false }).stopFiring k f ⟨0x81, wd d.cause, d.t1, wd t.cause⟩
/-- A program cause enters the handler, once the results of the group's earlier instructions have returned (R126); with the handler flag set
or tvec zero, and for a privileged cause, the firing stops (R127). `epc` is the address to save. -/
def State.enterTrap (s : State) (k f : Nat) (t : Trap) (epc : Word) : State :=
  let r := s.fr k f
  if t.cause ≥ 0x80 then s.stopFiring k f t
  else if r.handler then s.stopFiring k f ⟨0x81, wd t.cause, t.t1, r.cause⟩
  else if (s.core k).tvec = 0#64 then s.stopFiring k f ⟨0x81, wd t.cause, t.t1, 0#64⟩
  else
    let g (r : Frame) : Frame := { r.settled with vloop := none, loopW := [], ending := false }
    if r.unret = 0 && r.waits.isEmpty then (s.updFr k f g).deliver k f t epc
    else s.parkFrame k f fun r => { g r with owed := some (t, epc) }

/-! ### The side log and the answers of walks (R368, R369, R373, R374) -/

/-- Firings held for the side log of a core issue again. -/
def State.wakeSlog (s : State) (k : Nat) : State :=
  (framesOf k).foldl (fun s f => if (s.fr k f).hold = .slog then
    s.updFr k f fun r => { r with hold := .no, stat := .ready } else s) s
def State.failLaunch (s : State) (k : Nat) (v : Int) : State :=
  match (s.core k).gang with
  | none => s
  | some g => { s with launches := s.launches.map fun L => if L.id = g.launch then { L with failed := some v } else L }
def SlogE.len (e : SlogE) : Nat := (e.bytes.map (·.1 + 1)).foldl max 0
def SlogE.touches (e : SlogE) (a n : Nat) : Bool := e.bytes.any fun b => a ≤ e.va + b.1 && e.va + b.1 < a + n
/-- The firing waits at a release, or is a load or AMO parked behind this entry (R374). -/
def Frame.waitsOn (r : Frame) (e : SlogE) : Bool := r.behind && (r.parkedAt.isEmpty || r.parkedAt.any fun a => e.touches a 1)
/-- A resident firing learns of a logged store that failed (R129): at the instruction that waits for the side log, else at its next group
boundary. A VLOOP whose body waits stops instead, and the boundary after it takes the trap (R156; DEDUCED, log 124). -/
def Frame.slogTrap (r : Frame) (e : SlogE) (t : Trap) : Frame :=
  if !r.waitsOn e then { r with deferred := r.deferred ++ [t] }
  else if r.vloop.isSome then { r with deferred := r.deferred ++ [t], saved := [60], body := some t }
  else { r with deferred := t :: r.deferred, now := true }
/-- A logged store fails with a trap (R374): delivered to a resident firing; guilt and −5 for one that has ended. -/
def State.slogFail (s : State) (k n : Nat) (t : SlogE → Trap) : State :=
  match (s.core k).slog.get? n with
  | none => s
  | some e =>
    let s := s.updCore k fun c => { c with slog := c.slog.del n, slogFails := (c.slogFails + 1) % 65536 }
    let s := { s with walks := s.walks.filter fun w => w.who ≠ Who.slog k n }
    let s := if e.biv then s.guilt (s.core k).ctxid 5
      else if e.gone then ((s.guilt (s.core k).ctxid 5).failLaunch k (-5))
      else if (s.fr k e.frame).stat = .stopped then s
      else s.updFr k e.frame (·.slogTrap e (t e))
    s.wakeSlog k
/-- SLOG_FAULT of entry `n` with its reason (R129). -/
def slogFault (n reason : Nat) (e : SlogE) : Trap := ⟨0x13, wd e.va, wd n, wd reason⟩
/-- A waiter's walk ends without a grant (R369): reason 0 unmapped, 1 permission. -/
def State.walkNo (s : State) (w : Walk) (reason : Nat) : State :=
  let s := { s with walks := s.walks.filter fun q => q ≠ w }
  match w.who with
  | .slog k n => s.slogFail k n (slogFault n reason)
  | .frame k f =>
    let s := { s with ans := s.ans ++ [(⟨w.who, w.ctx, pageOf w.va, reason⟩ : Ans)] }
    s.updFr k f fun r => if r.hold = Hold.walk then { r with hold := .no, stat := .ready } else r
  | .unit _ => { s with ans := s.ans ++ [(⟨w.who, w.ctx, pageOf w.va, reason⟩ : Ans)] }
/-- A translation service firing that traps ends its walk and posts the event (R370). -/
def State.walkFault (s : State) (k f : Nat) : State :=
  let tok := (s.fr k f).token
  let s := s.post (dieOf k) 2 0 0x0405 (s.fr k f).wbody
  let s := (s.setFr k f {}).updCore k fun c => { c with issuing := if c.issuing = some f then none else c.issuing }
  match s.walks.find? (·.token = tok) with
  | none => s
  | some w => s.walkNo w 0

/-- A trap of the firing in frame `f` of core `k`, wherever it runs (R126, R127, R370). -/
def State.takeTrap (s : State) (k f : Nat) (t : Trap) (epc : Word) : State :=
  if isTsc k then s.walkFault k f else s.enterTrap k f t epc

/-- An instruction raises its own cause: where a VLOOP of the group left a trap, that one is delivered, and epc holds the
instruction (R156). -/
def State.raise (s : State) (k f : Nat) (t : Trap) (epc : Word) : State :=
  match (s.fr k f).body with
  | some d => (s.updFr k f fun r => { r with deferred := r.deferred.erase d, body := none }).takeTrap k f d (s.fr k f).pc
  | none => s.takeTrap k f t epc

/-! ### Group boundaries (R30, R33, R129) -/

/-- A group boundary of the issuing firing: it parks for what has not returned, takes a deferred trap, or begins a group. -/
def State.boundary (s : State) : State :=
  let r := s.cur
  if r.unret ≠ 0 || !r.waits.isEmpty then s.parkFrame s.turn s.fi id
  else match r.deferred with
    | t :: ts => (s.setCur { r with deferred := ts, now := false }).takeTrap s.turn s.fi t r.pc
    | [] =>
      let s' := s.setCur { r with out := [], seq := [] }
      if r.quantum then
        (s'.updCur fun r => { r with quantum := false, parkNo := (s.core s.turn).parks }).updMine fun c =>
          { c with issuing := none, parks := c.parks + 1 }
      else s'

/-- The part of a heap (R302, R310): capacity in messages, PUT and TAKE. -/
def State.heapCap (s : State) (k : Nat) : Nat :=
  let c := s.core k
  let b := c.heapbase.toNat
  let l := c.heaplim.toNat
  if l ≤ b || !inScratch c.partw b (l - b) || (c.tags.get 63 {}).kind = .unbound then 0 else (l - b - 64) / 320
def State.heapPut (s : State) (k : Nat) : Nat := s.poolN k (s.core k).heapbase.toNat 4
def State.heapTake (s : State) (k : Nat) : Nat := s.poolN k ((s.core k).heapbase.toNat + 8) 4
/-- Open values of x12 to x63 (R34, R280). -/
def openX (t : Nat) : Tab Word := ⟨(List.range 52).map fun n => (n + 12, Config.freeWord (t + n))⟩
/-- x registers a new firing in frame `f` finds: what the launch's earlier firing there left in x12 to x63 (R359; DEDUCED, log 75), else open
values. -/
def State.startX (s : State) (k f : Nat) : Tab Word :=
  if (s.fr k f).x.l.isEmpty then openX s.tick else (s.fr k f).x.del 1
/-- A routine entry from an image: the image's base plus the offset its table gives, on a word boundary (R29, R51). -/
def entryAt (base : Word) (off : Nat) : Word := (base + wd off) &&& ~~~3#64
/-- Start the Bivouac firing (R320), unless one is resident. -/
def State.startBivouac (s : State) (k : Nat) : State :=
  if (s.fr k 8).stat ≠ .free then s
  else
    let c := s.core k
    let r : Frame := { stat := .ready, pc := (c.tags.get 63 {}).entry, src := .bivouac, tag := 63, parkNo := c.parks, x := s.startX k 8 }
    let r := ((r.wx 2 (wd (selfBase + scratchLo c.partw))).wx 3 (wd (63 + 0xFFFF * 2 ^ 16))).wx 4 (wd (selfBase + c.heapbase.toNat))
    { s with tick := s.tick + 52 }.setFr k 8 (r.wx 5 (wd (s.heapCap k)))

/-- What an actor firing left unused of its reservation is returned (R297). -/
def queueIx (q : Nat) : Nat × Nat := (q / 16, q % 16)
def State.squeue (s : State) (q : Nat) : SQueue := (s.camp (queueIx q).1).qs.get (queueIx q).2 {}
def State.setSQueue (s : State) (q : Nat) (v : SQueue) : State :=
  s.updCamp (queueIx q).1 fun c => { c with qs := c.qs.put (queueIx q).2 v }
def State.returnResv (s : State) (r : Option Resv) : State :=
  match r with
  | none => s
  | some v =>
    let a := s.squeue v.inq
    let s := s.setSQueue v.inq { a with resvPop := a.resvPop - v.pops }
    let b := s.squeue v.outq
    if v.pushes = 0 then s else s.setSQueue v.outq { b with resvPush := b.resvPush - v.pushes }

/-- The firing ends and gives up its frame, whose register files keep their values until another firing starts there (R120, R246, R281,
R290, R315, R320, R359). -/
def State.endNow (s : State) (k f : Nat) : State :=
  let r := s.fr k f
  let s := s.autoReply k f
  let s := match r.fm with
    | some fm => if fm.committed then s else s.cellFail fm 1 0#64
    | none => s
  let s := s.returnResv r.resv
  let s := s.updCore k fun c => { c with
    inbox := (match r.slot with | some n => c.inbox.del n | none => c.inbox),
    issuing := (if c.issuing = some f then none else c.issuing) }
  let s := (s.orphan k f).setFr k f { x := r.x, v := r.v, vtag := r.vtag, p := r.p, fflags := r.fflags }
  if f = 8 && !isTsc k && s.heapCap k ≠ 0 && s.heapPut k ≠ s.heapTake k then s.startBivouac k else s

/-- A parked firing all of whose results have returned goes on: the trap they held back, or a deferred one, then its END, else a new
group. -/
def State.wake (s : State) (k f : Nat) : State :=
  let r := s.fr k f
  if r.stat ≠ .parked || r.unret ≠ 0 || !r.waits.isEmpty || r.hold ≠ .no then s
  else match r.owed with
  | some (t, epc) => (s.setFr k f { r with stat := .ready }).deliver k f t epc
  | none => match r.deferred with
    | t :: ts => (s.setFr k f { r with stat := .ready, deferred := ts, now := false }).takeTrap k f t r.pc
    | [] => if r.ending && r.joinc = 0#64 then s.endNow k f else s.setFr k f { r with stat := .ready, out := [], seq := [] }

/-! ### Issuing one instruction -/

/-- What the body of an instruction does: completes, jumps, traps, stays at its place, or has moved control itself. -/
inductive Res where
  | ok (s : State)
  | to (s : State) (pc : Word)
  | trap (s : State) (t : Trap)
  | hold (s : State) (h : Hold)
  | gone (s : State)
  deriving Repr

/-- Numbers of registers for R32. -/
def rX (n : BitVec 6) : Nat := n.toNat
def rP (n : BitVec 3) : Nat := 128 + n.toNat
/-- The first register among those read, then written, that the group has outstanding (R32, log 10). -/
def hazard (r : Frame) (regs : List Nat) : Option Nat := regs.find? fun n => n ≠ 0 && (r.out.contains n || r.seq.contains n)
/-- Write an x register as a Variable result (R31): it stays outstanding, and one more result has to return. -/
def State.wvar (s : State) (d : BitVec 6) (v : Word) : State :=
  s.updCur fun r => { r.wx d.toNat v with out := d.toNat :: r.out, unret := r.unret + 1 }
/-- Write an x register as a Fixed result (R31). -/
def State.wfix (s : State) (d : BitVec 6) (v : Word) : State := s.updCur fun r => r.wx d.toNat v

/-- The instruction completes; the firing stands at `pc`, and at a group boundary if the word carries the marker. -/
def State.retire (s : State) (m : Bool) (pc : Word) : State :=
  let s := s.updCur fun r => { r.settled with pc := pc }
  if m then s.boundary else s
/-- The firing stays at the instruction: the core waits with it, or it parks (R282). -/
def State.stay (s : State) (h : Hold) : State :=
  if h = .stall || h = .align then s.updCur fun r => { r with hold := h, behind := false }
  else s.parkFrame s.turn s.fi fun r => { r with hold := h, behind := h = .slog }
def Res.finish (m : Bool) (len : Nat) : Res → State
  | .ok s => s.retire m (s.cur.pc + wd len)
  | .to s pc => s.retire m pc
  | .trap s t => s.raise s.turn s.fi t s.cur.pc
  | .hold s h => s.stay h
  | .gone s => s

abbrev Out := Host.Outcome State Fault Refusal

/-- Issue one instruction of the issuing firing: a trap due at it, the hazard check of R32, then its body. -/
def issue (m : Bool) (len : Nat) (i : Instr) (regs : List Nat) (body : State → Res) (s : State) : Out :=
  let r := s.cur
  if r.now then
    match r.deferred with
    | t :: ts => .next ((s.setCur { r with deferred := ts, now := false }).takeTrap s.turn s.fi t r.pc)
    | [] => .next (s.setCur { r with now := false })
  else match hazard r regs with
    | some n => .next (s.raise s.turn s.fi ⟨2, (firstWord i).zeroExtend 64, wd n, 0#64⟩ r.pc)
    | none => .next ((body s).finish m len)

/-- The return from a trap (R125): pc, handler flag, and a new group, which is a boundary. -/
def State.leaveTrap (s : State) : State :=
  (s.updCur fun r => { r with handler := false }).retire true s.cur.epc

/-- The first word of an instruction, as trap values show it. -/
def w0 (i : Instr) : Word := (firstWord i).zeroExtend 64

end Sys2Proof.Machine
end

