-- ==== Sys2Proof/Machine/Operands.lean ====
section
/-! DEFINITION. Operands that are not plain x registers: pending tags (R277, R283), the control registers (R37, R38, R310), branch
targets and effective addresses (R115, R118, R122). -/
namespace Sys2Proof.Machine

/-! ### Tags and pending work (R277, R283) -/

def Core.tag (c : Core) (n : Nat) : Tag := c.tags.get n {}
/-- The effective enable (R277). -/
def Tag.en (t : Tag) : Bool := t.e && t.h = 0
/-- A resident firing of a tag: it came from a message, an actor start or a formula dispatch of that tag. -/
def Frame.ofTag (r : Frame) (n : Nat) : Bool :=
  r.stat ≠ .free && r.tag = n && (r.src = .msg || r.src = .actor || r.src = .formula || r.src = .spawn || r.src = .bivouac)
def State.tagBusy (s : State) (k n : Nat) : Bool := (List.range 9).any fun f => (s.fr k f).ofTag n
/-- An inbox slot whose message waits for a firing. -/
def State.waitsSlot (s : State) (k i : Nat) : Bool := !(List.range 9).any fun f => (s.fr k f).stat ≠ .free && (s.fr k f).slot = some i
/-- Reply slots in use: reserved for replies outstanding, or holding a reply (R301, R305). -/
def Core.replySlots (c : Core) : Nat := c.awaits.length + (c.inbox.l.filter fun e => e.1 ≥ 24).length
/-- A message enters an inbox slot, numbered as it arrives. -/
def Core.inboxPut (c : Core) (n : Nat) (g : Msg) : Core :=
  { c with inbox := c.inbox.put n { g with no := c.arrNo }, arrNo := c.arrNo + 1 }
/-- Messages of the inbox that wait for tag `n`: slot and message. -/
def State.waiting (s : State) (k n : Nat) : List (Nat × Msg) :=
  (s.core k).inbox.l.filter fun e => e.2.tag = n && s.waitsSlot k e.1
/-- The pending count of a tag (R277): messages and spawned records in the inbox (R293), sheltered messages (R302). -/
def State.pend (s : State) (k n : Nat) : Nat :=
  (s.waiting k n).length + (if n = 63 && s.heapCap k ≠ 0 then (s.heapPut k + 2 ^ 32 - s.heapTake k) % 2 ^ 32 else 0)
/-- A word with bit `n` set where `g n` holds. -/
def bitsOf (g : Nat → Bool) : Word := wd ((List.range 64).foldl (fun a n => a + if g n then 2 ^ n else 0) 0)

/-! ### Control registers (R37, R38, R310) -/

/-- The registers of class 00 and 01; a number no firing may name reads nothing here (the encoding stops it, R37). -/
def State.csr (s : State) (n : BitVec 12) : Word :=
  let r := s.cur
  let c := s.myCore
  let pri (lo : Nat) : Word := wd ((List.range 32).foldl (fun a i => a + (c.tag (lo + i)).epri * 4 ^ i) 0)
  match n.toNat with
  | 1 => r.fflags.zeroExtend 64
  | 2 => c.seed
  | 3 => wd c.obuflim
  | 4 => c.heapbase
  | 5 => c.heaplim
  | 0x10 => c.tvec
  | 0x11 => r.epc
  | 0x12 => r.cause
  | 0x13 => r.tval
  | 0x14 => r.tval2
  | 0x15 => r.tval3
  | 0x400 => bitsOf fun i => (c.tag i).en
  | 0x401 => bitsOf fun i => s.pend s.turn i ≠ 0
  | 0x402 => pri 0
  | 0x403 => pri 32
  | 0x404 => c.partw
  | 0x405 => wd c.ctxid
  | 0x406 => c.capw
  | 0x407 => c.prefdrop
  | _ => 0#64
def State.setCsr (s : State) (n : BitVec 12) (v : Word) : State :=
  match n.toNat with
  | 1 => s.updCur fun r => { r with fflags := v.truncate 6 }
  | 2 => s.updMine fun c => { c with seed := v }
  | 3 => s.updMine fun c => { c with obuflim := if fld v 0 5 = 0 || fld v 0 5 > 16 then 16 else fld v 0 5 }
  | 4 => s.updMine fun c => { c with heapbase := v &&& 0xFFFC0#64 }
  | 5 => s.updMine fun c => { c with heaplim := v &&& 0xFFFC0#64 }
  | 0x10 => s.updMine fun c => { c with tvec := v &&& ~~~3#64 }
  | 0x11 => s.updCur fun r => { r with epc := v &&& ~~~3#64 }
  | 0x12 => s.updCur fun r => { r with cause := v &&& 0xFF#64 }
  | 0x13 => s.updCur fun r => { r with tval := v }
  | 0x14 => s.updCur fun r => { r with tval2 := v }
  | 0x15 => s.updCur fun r => { r with tval3 := v }
  | _ => s

/-! ### Targets and addresses -/

/-- pc + 4 × a signed word offset of `n` bits (R115, R118). -/
def target {n : Nat} (pc : Word) (off : BitVec n) : Word := pc + 4#64 * off.signExtend 64
/-- off6 × size (R122). -/
def off6 (size : BitVec 2) (off : BitVec 6) : Word := off.signExtend 64 <<< size.toNat
def nbytes (size : BitVec 2) : Nat := 2 ^ size.toNat

end Sys2Proof.Machine
end

