-- ==== Sys2Proof/Machine/Mem.lean ====
section
/-! DEFINITION. The checks and the effect of an access to memory by a firing: R122, R124, R134, R177, R184, R201, R206, R373, one
operation for a naturally aligned access and one for a run of bytes. -/
namespace Sys2Proof.Machine

/-! ### Where an address leads -/

inductive Place where
  /-- Memory: physical address, entry word (zero inside the own pool), offset in the own pool. -/
  | mem (pa : Nat) (w : Word) (off : Option Nat)
  | reg (pa : Nat) (w : Word)
  | badva
  | unmapped
  | refused
  deriving DecidableEq, Repr

/-- A walk firing's physical address (R370): main memory of the domain below 2^53, a package number from 4,608 on included, though R20
has no such package; above it bits 55:53 hold 1 plus the host link (DESIGN CHOICE, log 32). -/
def tscPlace (va : Nat) : Place :=
  match va / 2 ^ 53 with
  | 0 => (match regionOf va with | .main _ => .mem va 0#64 none | _ => .badva)
  | 1 => .mem (hostBase 0 + va % 2 ^ 53) 0#64 none
  | 2 => .mem (hostBase 1 + va % 2 ^ 53) 0#64 none
  | _ => .badva
/-- Place of the `n` bytes at `va` for the firing of core `k` (R17, R23, R24, R365, R366, R370). A granule that R17 or R365 closes is found
before a permission that is refused (R122 steps 3 and 5). -/
def State.place (s : State) (k va n : Nat) (needs : Bool × Bool × Bool) : Place :=
  let c := s.core k
  if isTsc k then tscPlace va
  else if inSelf va then
    if inScratch c.partw (va - selfBase) n then .mem (s.poolPa k (va - selfBase)) 0#64 (some (va - selfBase)) else .badva
  else if inHole va then .badva
  else match s.tlbLook k c.ctxid va with
    | none => .unmapped
    | some (e, _) =>
      let pa := e.pa va
      let go (p : Place) : Place := if permits e.w needs then p else .refused
      match regionOf pa with
      | .regs _ => go (.reg pa e.w)
      | .sram j off =>
        if s.isOwn pa then (match s.windowPa c.ctxid j off with
          | some q => go (.mem q e.w (if j = k then some off else none))
          | none => .badva)
        else go (.mem pa e.w none)
      | _ => go (.mem pa e.w none)

/-! ### What holds an access back -/

/-- LEN of a copy, or rows × bytes of CPYG and CPYS (R176). -/
def Cmd.len (c : Cmd) : Nat := if c.op = 0 || c.op = 3 then fld c.w2 0 36 else fld c.w2 20 16 * fld c.w2 36 16
/-- Ranges of the scoreboard: source, destination, index table (R177). -/
def Cmd.srcRange (c : Cmd) : Nat × Nat := (c.w0.toNat, if c.op = 1 then (if c.len = 0 then 0 else 65536 * fld c.w2 36 16) else c.len)
def Cmd.dstRange (c : Cmd) : Nat × Nat := (c.w1.toNat, if c.op = 2 then (if c.len = 0 then 0 else 65536 * fld c.w2 36 16) else c.len)
def Cmd.idxRange (c : Cmd) : Nat × Nat := (selfBase + fld c.w2 0 20, if c.op = 1 || c.op = 2 then 2 * fld c.w2 20 16 else 0)
def Core.copies (c : Core) : List Cmd := c.cp.running ++ c.cp.queue
def hits (r : Nat × Nat) (a n : Nat) : Bool := spans r.1 r.2 a n && r.2 ≠ 0
def Core.boardHolds (c : Core) (va n : Nat) (wr : Bool) : Bool :=
  c.copies.any fun m => hits m.dstRange va n || (wr && (hits m.srcRange va n || hits m.idxRange va n))
/-- A declared buffer over `n` bytes at a pool offset whose state is not among those allowed (R184): its number and state. -/
def Core.bufBad (c : Core) (off n : Nat) (ok : List Nat) : Option (Nat × Nat) :=
  (c.bufs.l.find? fun b => b.2.len ≠ 0 && spans b.2.base b.2.len off n && !ok.contains b.2.state).map fun b => (b.1, b.2.state)
def rdOk : List Nat := [2, 3]
def wrOk : List Nat := [0]
/-- Entries of the side log that touch the bytes (R124, R373). -/
def Core.slogHits (c : Core) (va n : Nat) : Bool := c.slog.l.any fun e => e.2.touches va n
/-- A store of this core still on its way to another package, or to a replica, that touches the bytes (R124, R210, R213). -/
def State.ownPending (s : State) (k pa n : Nat) : Bool :=
  (s.peers.get (pkgOf pa) {}).pending.any (fun p => p.core = k && spans p.pa p.bytes.length pa n) ||
    s.rdup.any fun r => r.core = k && spans r.pa r.bytes.length pa n && (r.atomic || r.dies.contains (dieOf k))
/-- A port whose path may carry program traffic (R213, R216, R417). -/
def State.pathUp (s : State) : Bool :=
  (List.range 18).any fun n => let p := (s.die (n / 3)).ports.get (n % 3) {}; p.width ≠ 0 && !p.training
/-- Later accesses wait for an acquiring wait of the group (R194, R229, R234, R164). -/
def State.acqWait (s : State) : Bool := s.cur.waits.any (·.acq)
/-- A store also waits for the value of every earlier load, a counted wait's read included (R198). -/
def State.loadWait (s : State) : Bool :=
  s.cur.waits.any fun w => w.acq || (match w.kind with | .waita .. => true | _ => false)
/-- A go of this firing that a register page holds back (R167 step 5). -/
def State.ownGo (s : State) : Bool :=
  s.cores.l.any fun e => (e.2.mx.held ++ e.2.cp.held).any fun h => h.core = s.turn && h.frame = s.fi
/-- What a release waits for (R194, R201, R211, R213): the reads of its group's counted waits, the side log of its firing, stores on
their way to packages other than `dst`, a go that is held, and pushes to replicas. -/
def State.relWaits (s : State) (wide : Bool) (dst : Nat) : Bool :=
  let k := s.turn
  let f := s.fi
  s.loadWait || s.cur.deferred.any (·.cause = 0x13) ||
  (s.core k).slog.l.any (fun e => e.2.frame = f && !e.2.gone && !e.2.biv) ||
    s.peers.l.any (fun p => p.1 ≠ dst && p.2.pending.any fun q => q.core = k && q.frame = f) ||
    s.ownGo || s.pushWaits k wide

/-- What a release that waits does. It is never performed behind a store of its firing that has failed: the firing takes SLOG_FAULT at it
(R374), or the trap of a VLOOP's body in its place (R156), and the SLOG_FAULT still due makes that one DOUBLE. -/
def State.relHold (s : State) : Res :=
  let own := s.myCore.slog.l.any fun e => e.2.frame = s.fi && !e.2.gone && !e.2.biv
  let h : Res := if s.loadWait then .hold s .stall else .hold (s.updCur fun r => { r with parkedAt := [] }) .slog
  match s.cur.deferred.find? (·.cause = 0x13) with
  | some t =>
    if own || s.loadWait then h
    else if s.cur.body.isSome then .trap s t
    else .trap (s.updCur fun r => { r with deferred := r.deferred.erase t, now := false }) t
  | none => h
/-- A load or AMO of these bytes parks behind the side log (R124, R373, R374). -/
def State.parkSlog (s : State) (as : List Nat) : Res := .hold (s.updCur fun r => { r with parkedAt := as }) .slog

/-! ### One naturally aligned access -/

/-- The outcome of an access: a value, or what the instruction does instead. -/
inductive Got (α : Type) where
  | got (s : State) (v : α)
  | stop (r : Res)

def Got.res {α : Type} (g : Got α) (h : State → α → Res) : Res :=
  match g with
  | .got s v => h s v
  | .stop r => r
def Got.bind {α β : Type} (g : Got α) (h : State → α → Got β) : Got β :=
  match g with
  | .got s v => h s v
  | .stop r => .stop r

/-- Steps 1 and 2 of R122. -/
def addrTrap (i : Instr) (ea : Word) (n : Nat) : Option Trap :=
  if fld ea 56 8 ≠ 0 then some ⟨5, ea, w0 i, 0#64⟩
  else if ea.toNat % n ≠ 0 then some ⟨3, ea, w0 i, 0#64⟩
  else none
/-- An access without translation waits for the walk; an answer that grants nothing raises PAGE (R122, R369). -/
def State.needWalk (s : State) (va kind : Nat) (needs : Bool × Bool × Bool) : Res :=
  let w := Who.frame s.turn s.fi
  let c := s.myCore.ctxid
  match s.ansFor w c va with
  | some r => .trap (s.dropAns w c va) ⟨6, wd va, wd kind, wd r⟩
  | none => .hold (s.startWalk w s.turn c va kind needs) .walk
/-- A remote access goes out as one packet and waits; the port's limit may end the wait (R416, R419). -/
def State.waitFar (s : State) (pa va : Nat) (h : Hold) : Res :=
  .hold (s.updCur fun r => { r with far := (va, pkgOf pa) :: r.far.filter (· ≠ (va, pkgOf pa)) }) h
/-- A TIMEOUT toward a package opens an epoch: the pair's numbers begin again (R420). -/
def State.openEpoch (s : State) (t : Nat) : State :=
  let p := s.peers.get t {}
  { s with peers := s.peers.put t { p with txEpoch := (p.txEpoch + 1) % 256, stores := 0, releases := 0, timedOut := false } }
/-- Package `t` has met traffic of the present epoch: what is left of an older one is never performed (R420). -/
def State.learns (s : State) (t : Nat) : State :=
  { s with peers := s.peers.put t { s.peers.get t {} with learnt := (s.peers.get t {}).txEpoch } }
/-- The instruction has sent an access to the package. -/
def Frame.sent (r : Frame) (pkg : Nat) : Bool := r.far.any fun a => a.2 = pkg
/-- The packets up to these marks are delivered (R215). -/
def Core.marksMet (c : Core) (l : List (Nat × Nat)) : Bool :=
  l.all fun m => match c.flows.get? m.1 with | some f => f.dead || phaseDone f.delivered m.2 | none => true
/-- A remote load or AMO is sent, then waits for its answer, and for a path where there is none (R216, R419). An AMO takes a store number
of the pair, and a release number and the flow marks where it releases, and is applied once those are delivered (R213 to R215). -/
def State.remoteStop (s : State) (pa va : Nat) (amo rel : Bool) : Option Res :=
  if !isRemote s pa then none
  else if s.cur.sent (pkgOf pa) then (if s.pathUp && s.myCore.marksMet s.cur.marks then none else some (s.waitFar pa va .wait))
  else
    let s := s.flits (pkgOf pa) 1
    let s := if amo then { s with peers := s.peers.put (pkgOf pa) ((s.peers.get (pkgOf pa) {}).count rel) } else s
    let s := if rel then s.updCur fun r => { r with marks := (s.myCore).marks (pkgOf pa) } else s
    some (s.waitFar pa va .wait)
/-- The bits of an entry that a firing's access used (R372); its own pool and a walk firing use none. -/
def State.used (s : State) (va : Nat) (wr : Bool) : State := if isTsc s.turn then s else s.markAD s.turn s.myCore.ctxid va wr
/-- Outcome of the memory side of a load once its place is known (R122 step 7, R124, R184). -/
def State.loadMem (s : State) (va pa n : Nat) (w : Word) (off : Option Nat) : Got Nat :=
  match off.bind fun o => s.myCore.bufBad o n rdOk with
  | some (b, st) => .stop (.trap s ⟨9, wd b, wd st, wd va⟩)
  | none =>
    if s.ownPending s.turn pa n then .stop (.hold s .stall)
    else match s.remoteStop pa va false false with
      | some r => .stop r
      | none =>
        let q := readPa s.turn pa w
        if s.poisonedAt q n then .stop (.trap s ⟨0x11, wd va, 0#64, 0#64⟩)
        else .got (s.used va false) (s.unitRd q n)
/-- A load of `n` bytes at a naturally aligned address (R122): the value, or a register page's physical address in `regs`. A missing or
refused translation parks the firing for the walk (R122, R134; log 17). -/
def State.load (s : State) (i : Instr) (ea : Word) (n kind : Nat) (regs : State → Nat → Nat → Got Nat) : Got Nat :=
  let va := ea.toNat
  if s.acqWait then .stop (.hold s .stall)
  else match addrTrap i ea n with
    | some t => .stop (.trap s t)
    | none =>
      if s.myCore.slogHits va n then .stop (s.parkSlog ((List.range n).map (· + va)))
      else if s.myCore.boardHolds va n false then .stop (.hold s .stall)
      else match s.place s.turn va n needR with
        | .badva => .stop (.trap s ⟨5, ea, w0 i, 0#64⟩)
        | .unmapped => .stop (s.needWalk va kind needR)
        | .refused => .stop (s.needWalk va kind needR)
        | .reg pa _ => (match s.remoteStop pa va false false with
          | some r => .stop r
          | none => if s.ownPending s.turn pa n then .stop (.hold s .stall) else regs (s.used va false) pa n)
        | .mem pa w off => s.loadMem va pa n w off

/-! ### Stores and the side log -/

/-- What a logged store is besides its bytes: element size, the STRADDLE it would raise, whether an engine made it or it is a release. -/
structure LogAs where
  unit : Nat
  strad : Option Trap := none
  engine : Bool := false
  rel : Bool := false
/-- The store enters the side log as one entry, with a walk for each page that has no translation or refuses it (R373); none when
the log is full. -/
def State.enterSlog (s : State) (k f va size : Nat) (bytes : List (Nat × BitVec 8)) (g : LogAs) : Option State :=
  let c := s.core k
  match (List.range 64).find? fun n => (c.slog.get? n).isNone with
  | none => none
  | some n =>
    let e : SlogE := { frame := f, va := va, size := size, bytes := bytes, order := c.slogNo, unit := g.unit, strad := g.strad, engine := g.engine, rel := g.rel }
    let s := s.setCore k { c with slog := c.slog.put n e, slogNo := c.slogNo + 1 }
    let bad := bytes.filter fun b => !inSelf (va + b.1) && (match s.xl k c.ctxid (va + b.1) needW with | .hit _ _ => false | _ => true)
    some (bad.foldl (fun s b => s.startWalk (.slog k n) k c.ctxid (va + b.1) 4 needW) s)
def enum (l : List (BitVec 8)) : List (Nat × BitVec 8) := (List.range l.length).zip l
/-- A store that needs an entry: the Bivouac firing waits for the walk instead (R303). -/
def State.logOrWalk (s : State) (va size : Nat) (bytes : List (Nat × BitVec 8)) (g : LogAs) : Got Unit :=
  if s.fi = 8 then .stop (s.needWalk va 4 needW)
  else match s.enterSlog s.turn s.fi va size bytes g with
    | some s => .got s ()
    | none => .stop (.hold s .stall)
/-- What a store with order still waits for once it has gone out or is logged: a release for a switch or its target, any store of order ar
until it is performed at .sys (R194, R213). -/
def State.storeHeld (s : State) (ar : Bool) : Option Bool :=
  match s.cur.saved with
  | [9, num, ep] => some (s.peers.l.any fun p => p.2.pending.any fun q =>
      q.num = num && q.epoch = ep && q.core = s.turn && q.rel.isSome && q.frame = s.fi && (ar || !q.switched))
  | [10] => some (s.relWaits true 0xFFFF)
  | _ => none
/-- The memory side of a store, `log` what it does where it has to enter the side log. A release to another package waits at the instruction
until a switch or the target has it (R213); `saved` then holds its number and epoch. A store of order ar to an RDUP page waits until every
replica has it. -/
def State.storeMem (s : State) (i : Instr) (va pa : Nat) (l : List (BitVec 8)) (w : Word) (off : Option Nat) (rel ar : Bool)
    (log : Option (Got Unit)) : Got Unit :=
  match off.bind fun o => s.myCore.bufBad o l.length wrOk with
  | some (b, st) => .stop (.trap s ⟨9, wd b, wd st, wd va⟩)
  | none =>
    if entCell w then .stop (.trap s ⟨7, wd va, w0 i, 0#64⟩)
    else if log.isSome then log.getD (.stop (.hold s .stall))
    else if s.lineHeld pa then .stop (.hold s .stall)
    else
      let s := s.used va true
      let p := s.peers.get (pkgOf pa) {}
      let c := s.myCore.ctxid
      if rel && isRemote s pa then
        (if p.timedOut then .stop (.trap (s.openEpoch (pkgOf pa)) ⟨0x12, wd va, wd (pkgOf pa % 18), 0#64⟩)
        else .stop (((s.put s.turn s.fi c pa w l (some va)).updCur fun r => { r with saved := [9, (p.stores + 1) % 2 ^ 32, p.txEpoch] }).waitFar pa va .slog))
      else if ar && entRdup w then .stop (.hold ((s.put s.turn s.fi c pa w l none).updCur fun r => { r with saved := [10] }) .slog)
      else .got (s.put s.turn s.fi c pa w l none) ()
/-- The go register of a core's register page: a store to it is a release at .core scope (R167 step 2). -/
def isGo (pa : Nat) : Bool :=
  match regionOf pa with
  | .regs o => o % 0x40000000 / 0x1000000 = 1 && (o % 0x1000 = 0x20 || o % 0x1000 = 0x120)
  | _ => false
/-- A store of a naturally aligned run of 1, 2, 4 or 8 bytes (R122, R373). -/
def State.storeAt (s : State) (i : Instr) (ea : Word) (l : List (BitVec 8)) (rel ar : Bool)
    (regs : State → Nat → List (BitVec 8) → Got Unit) : Got Unit :=
  let va := ea.toNat
  let log : Got Unit := (s.logOrWalk va l.length (enum l) { unit := l.length, rel := rel }).bind fun s _ =>
    if ar then .stop (.hold (s.updCur fun r => { r with saved := [10] }) .slog) else .got s ()
  let hit : Option (Got Unit) := if s.myCore.slogHits va l.length && s.fi ≠ 8 then some log else none
  match s.storeHeld ar with
  | some true => .stop (.hold s .slog)
  | some false => .got s ()
  | none =>
    if s.loadWait then .stop (.hold s .stall)
    else match addrTrap i ea l.length with
      | some t => .stop (.trap s t)
      | none =>
        let pl := s.place s.turn va l.length needW
        if rel && s.relWaits true (match pl with | .mem pa _ _ => pkgOf pa | .reg pa _ => pkgOf pa | _ => s.pkg) then .stop s.relHold
        else if s.myCore.boardHolds va l.length true then .stop (.hold s .stall)
        else match pl with
          | .badva => .stop (.trap s ⟨5, ea, w0 i, 0#64⟩)
          | .unmapped => log
          | .refused => log
          | .reg pa w =>
            if entCell w then .stop (.trap s ⟨7, ea, w0 i, 0#64⟩)
            else if hit.isSome then log
            else if isRemote s pa then s.storeMem i va pa l 0#64 none rel ar none
            else if isGo pa && s.relWaits false 0xFFFF then .stop s.relHold
            else regs (s.used va true) pa l
          | .mem pa w off => s.storeMem i va pa l w off rel ar hit

/-! ### A run of bytes -/

/-- The spaces of R134. -/
def space (va : Nat) : Nat := if inSelf va then 0 else if inHole va then 1 else 2
/-- The physical space of a place (R206): main memory of a package, a core's window, a die's register pages, host memory. -/
def spaceOf (pa : Nat) : Nat :=
  match regionOf pa with
  | .main _ => 10000 + pkgOf pa
  | .sram j _ => 10 ^ 9 + pkgOf pa * 8192 + j
  | .regs o => 10 ^ 6 + pkgOf pa * 8 + o / 0x40000000
  | _ => 1
def State.physSpace (s : State) (k va : Nat) : Nat :=
  match s.place k va 1 (false, false, false) with
  | .mem pa _ _ => if inSelf va && !isTsc k then 10 ^ 9 + s.pkg * 8192 + k
    else (match s.xl k (s.core k).ctxid va (false, false, false) with | .hit p _ => spaceOf p | _ => spaceOf pa)
  | .reg pa _ => spaceOf pa
  | _ => 0
def allSame : List Nat → Bool
  | [] => true
  | a :: r => r.all (· = a)
def State.straddles (s : State) (k : Nat) (as : List Nat) : Bool := !allSame (as.map (s.physSpace k))
/-- Which of the straddle rules an access keeps: R134 for the addresses given, R206 for its bytes. -/
structure Straddle where
  virt : List Nat := []
  phys : Bool := false
/-- A vector or stream access whose units, active or not, have these addresses. -/
def Straddle.vec (as : List Nat) : Straddle := { virt := as, phys := true }
/-- Steps 1 to 3 of R122 and the straddle rule of R134 for the bytes at the addresses `as`; `ea` and `len` are the address and length
shown, `al` the alignment of `ea`. The trap, or the places. -/
def State.runChecks (s : State) (i : Instr) (ea : Word) (as : List Nat) (al len : Nat) (sp : Straddle) (needs : Bool × Bool × Bool) :
    Trap ⊕ List (Nat × Place) :=
  match (ea.toNat :: as).find? (· ≥ 2 ^ 56) with
  | some o => .inl ⟨5, wd o, w0 i, 0#64⟩
  | none =>
    if !allSame (sp.virt.map space) then .inl ⟨4, ea, wd len, w0 i⟩
    else if ea.toNat % al ≠ 0 then .inl ⟨3, ea, w0 i, 0#64⟩
    else
      let ps := as.map fun o => (o, s.place s.turn o 1 needs)
      match ps.find? fun p => p.2 = Place.badva with
      | some p => .inl ⟨5, wd p.1, w0 i, 0#64⟩
      | none => .inr ps
def placed : Place → Bool
  | .unmapped => false
  | .refused => false
  | _ => true
/-- First byte of a run in a buffer whose state refuses it. -/
def State.runBuf (s : State) (ok : List Nat) (ps : List (Nat × Place)) : Option Trap :=
  ps.findSome? fun p => match p.2 with
    | .mem _ _ (some off) => (s.myCore.bufBad off 1 ok).map fun b => ⟨9, wd b.1, wd b.2, wd p.1⟩
    | _ => none
/-- The remote packet of a run that still has to go out or to be answered. -/
def State.runFar (s : State) (ps : List (Nat × Place)) : Option Res :=
  ps.findSome? fun p => match p.2 with | .mem pa _ _ => s.remoteStop pa p.1 false false | _ => none
/-- Load the bytes at the addresses `as`, in order (R122, R134, R206), each as `rd` reads its physical place. A register page reads zero
here (R166). -/
def State.loadRun (s : State) (i : Instr) (ea : Word) (as : List Nat) (al len kind : Nat) (sp : Straddle)
    (rd : State → Nat → BitVec 8) : Got (List (BitVec 8)) :=
  if as ≠ [] && s.acqWait then .stop (.hold s .stall)
  else match s.runChecks i ea as al len sp needR with
    | .inl t => .stop (.trap s t)
    | .inr ps =>
      if as.any fun o => s.myCore.slogHits o 1 then .stop (s.parkSlog as)
      else if as.any fun o => s.myCore.boardHolds o 1 false then .stop (.hold s .stall)
      else match s.runBuf rdOk ps with
        | some t => .stop (.trap s t)
        | none => match ps.find? fun p => !placed p.2 with
          | some (o, _) => .stop (s.needWalk o kind needR)
          | none =>
            if sp.phys && s.straddles s.turn as then .stop (.trap s ⟨4, ea, wd len, w0 i⟩)
            else if ps.any fun p => match p.2 with | .mem pa _ _ => s.ownPending s.turn pa 1 | _ => false then .stop (.hold s .stall)
            else match s.runFar ps with
              | some r => .stop r
              | none => match ps.find? fun p => match p.2 with | .mem pa w _ => s.poisonedAt (readPa s.turn pa w) 1 | _ => false with
                | some p => .stop (.trap s ⟨0x11, wd p.1, 0#64, 0#64⟩)
                | none => .got (as.foldl (fun s o => s.used o false) s)
                    (ps.map fun p => match p.2 with | .mem pa w _ => rd s (readPa s.turn pa w) | _ => 0#8)
/-- One byte of memory as it stands. -/
def State.byteNow (s : State) (q : Nat) : BitVec 8 := BitVec.ofNat 8 (s.unitRd q 1)
/-- The least of some addresses. -/
def lowest (as : List Nat) : Nat := as.foldl min (as.headD 0)
/-- Bytes in order as whole elements of `u` bytes: the address of each and its bytes (R197). -/
def runsOf (u : Nat) (l : List (Nat × BitVec 8)) : List (Nat × List (BitVec 8)) :=
  (List.range ((l.length + u - 1) / u)).map fun i => (((l.drop (u * i)).headD (0, 0#8)).1, ((l.drop (u * i)).take u).map (·.2))
/-- Write one element of a vector or logged store of context `ctx`. -/
def State.putEl (s : State) (k f ctx a : Nat) (l : List (BitVec 8)) : State :=
  let mark := if isTsc k || inSelf a then s else s.markAD k ctx a true
  match s.place k a 1 needW with
  | .mem pa w _ => mark.put k f ctx pa w l none
  | .reg _ _ => mark
  | _ => s
/-- The physical addresses, in this package's memory, that one write covers (R412): a page to be propagated is written elsewhere. -/
def State.covers (s : State) (k : Nat) (as : List Nat) : List Nat :=
  as.filterMap fun a => match s.place k a 1 needW with
    | .mem pa w _ => if entRdup w || isRemote s pa then none else some pa
    | _ => none
/-- Write the elements of one store, in order (R197). -/
def State.putAll (s : State) (k f ctx : Nat) (u : Nat) (bytes : List (Nat × BitVec 8)) : State :=
  ((runsOf u bytes).foldl (fun s e => s.putEl k f ctx e.1 e.2) s).heal (s.covers k (bytes.map (·.1)))
/-- The master identity of a context's firing. -/
def State.masterOf (s : State) (ctx : Nat) : Nat := mCtx ((s.slotOf ctx).getD 0)
/-- A violation by a firing of core `k` (R393, R394): the freeze, and the trap it takes. -/
def State.violate (s : State) (k ctx va pa : Nat) : State × Trap :=
  (s.freeze (dieOf k) (s.masterOf ctx) pa, ⟨0x82, wd va, wd (s.masterOf ctx), 0#64⟩)
/-- A store of a context to a register page of this package is a violation (R393): a page of engines of a core where the context neither is
resident nor holds a saved image, a queue, free-list, front-end or recovery page. -/
def State.regBarred (s : State) (ctx pa : Nat) : Bool :=
  let o := localOf pa % 0x1000000000
  let r := o % 0x40000000
  let n := r % 0x1000000 / 0x1000
  let j := 768 * (o / 0x40000000) + n
  s.isOwn pa && (match r / 0x1000000 with
  | 0 => false
  | 1 => n < 768 && (s.core j).ctxid ≠ ctx && !s.heldSave ctx j
  | 5 => false
  | p => p ≤ 6)
/-- The first of some places that lies in a register page which refuses the context (R393). -/
def State.runBarred (s : State) (ps : List (Nat × Place)) : Option (Nat × Nat) :=
  ps.findSome? fun p => match p.2 with | .reg pa _ => (if s.regBarred s.myCore.ctxid pa then some (p.1, pa) else none) | _ => none
/-- Store elements of `u` bytes as one store (R134, R373): into memory, or whole into the side log. Bytes for a register page are discarded
(R166), and one in a page that refuses the context stops the firing (R393). -/
def State.storeRun (s : State) (i : Instr) (ea : Word) (u : Nat) (bytes : List (Nat × BitVec 8)) (al len : Nat) (sp : Straddle) : Got Unit :=
  let as := bytes.map (·.1)
  let va := lowest as
  let t4 : Trap := ⟨4, ea, wd len, w0 i⟩
  let log := s.logOrWalk va 64 (bytes.map fun b => (b.1 - va, b.2)) { unit := u, strad := if sp.phys then some t4 else none }
  if bytes ≠ [] && s.loadWait then .stop (.hold s .stall)
  else match s.runChecks i ea as al len sp needW with
    | .inl t => .stop (.trap s t)
    | .inr ps =>
      if bytes = [] then .got s ()
      else if as.any fun o => s.myCore.boardHolds o 1 true then .stop (.hold s .stall)
      else match s.runBuf wrOk ps with
        | some t => .stop (.trap s t)
        | none => match ps.find? fun p => !placed p.2 with
          | some (o, _) => if s.fi = 8 then .stop (s.needWalk o 4 needW) else log
          | none => match ps.find? fun p => match p.2 with | .mem _ w _ => entCell w | .reg _ w => entCell w | _ => false with
            | some p => .stop (.trap s ⟨7, wd p.1, w0 i, 0#64⟩)
            | none =>
              if sp.phys && s.straddles s.turn as then .stop (.trap s t4)
              else if as.any (fun o => s.myCore.slogHits o 1) && s.fi ≠ 8 then log
              else if ps.any fun p => match p.2 with | .mem pa _ _ => s.lineHeld pa | _ => false then .stop (.hold s .stall)
              else match s.runBarred ps with
                | some b => .stop (let v := s.violate s.turn s.myCore.ctxid b.1 b.2; .trap v.1 v.2)
                | none => .got (s.putAll s.turn s.fi s.myCore.ctxid u bytes) ()

/-! ### Read-modify-write -/

/-- How an AMO is ordered (R194, R221): acquire and release parts, and a scope of the package or wider. -/
structure AmoOrd where
  acq : Bool := false
  rel : Bool := false
  wide : Bool := false
/-- The AMO has read `old` and written; with an acquire part it waits until its write is performed at its scope (R194), and for no entry of the side log. -/
def State.amoDone (s : State) : Option Nat :=
  match s.cur.saved with
  | [11, old] => some old
  | _ => none
/-- The atomic step of an AMO or of a join counter (R222, R224): `g` gives the new value, if one is written, and the answer.
Register pages raise BADVA; a missing or refused translation waits for the walk; PAGE has kind 2. On an RDUP page it waits for the pushes
to the location that its die has not applied, so that no later load goes back (R196). -/
def State.atomic {α : Type} (s : State) (i : Instr) (ea : Word) (n : Nat) (o : AmoOrd) (g : Nat → Option Nat × α) : Got α :=
  let va := ea.toNat
  match s.amoDone with
  | some old => if s.pushWaits s.turn o.wide then .stop (.hold s .slog) else .got s (g old).2
  | none =>
  if s.loadWait then .stop (.hold s .stall)
  else match addrTrap i ea n with
    | some t => .stop (.trap s t)
    | none =>
      let pl := s.place s.turn va n needRW
      if o.rel && s.relWaits o.wide 0xFFFF then .stop s.relHold
      else if s.myCore.slogHits va n then .stop (s.parkSlog ((List.range n).map (· + va)))
      else if s.myCore.boardHolds va n true then .stop (.hold s .stall)
      else match pl with
        | .badva => .stop (.trap s ⟨5, ea, w0 i, 0#64⟩)
        | .reg _ _ => .stop (.trap s ⟨5, ea, w0 i, 0#64⟩)
        | .unmapped => .stop (s.needWalk va 2 needRW)
        | .refused => .stop (s.needWalk va 2 needRW)
        | .mem pa w off =>
          match off.bind fun q => s.myCore.bufBad q n wrOk with
          | some (b, st) => .stop (.trap s ⟨9, wd b, wd st, wd va⟩)
          | none =>
            if entCell w then .stop (.trap s ⟨7, ea, w0 i, 0#64⟩)
            else if o.rel && isRemote s pa && (s.peers.get (pkgOf pa) {}).timedOut then
              .stop (.trap (s.openEpoch (pkgOf pa)) ⟨0x12, wd va, wd (pkgOf pa % 18), 0#64⟩)
            else if s.ownPending s.turn pa n || s.lineHeld pa ||
                s.rdup.any (fun r => spans r.pa r.bytes.length pa n && r.dies.contains (dieOf s.turn)) then .stop (.hold s .stall)
            else match s.remoteStop pa va true o.rel with
              | some r => .stop r
              | none =>
                if s.poisonedAt pa n then .stop (.trap s ⟨0x11, ea, 0#64, 0#64⟩)
                else match g (s.unitRd pa n) with
                  | (none, v) => .got (if isRemote s pa then (s.used va false).learns (pkgOf pa) else s.used va false) v
                  | (some x, v) =>
                    if isRemote s pa then .got (((s.used va true).unitStore pa (bytesOf n x)).learns (pkgOf pa)) v
                    else
                      let t := (s.used va true).put s.turn s.fi s.myCore.ctxid pa w (bytesOf n x) none
                      if o.acq && entRdup w then .stop (.hold (t.updCur fun r => { r with saved := [11, s.unitRd pa n], parkedAt := [2 ^ 64] }) .slog) else .got t v

end Sys2Proof.Machine
end

