-- ==== Sys2Proof/Machine/Commands.lean ====
section
/-! DEFINITION. Engine commands (R157 to R185): command words, operand records, the checks at issue or acceptance, the queues and the
register-page form. -/
namespace Sys2Proof.Machine

/-! ### Refusals: as a trap of an instruction, or as a status code (R159, R163, R170) -/

inductive CmdBad where
  | fmt (field tag : Nat)
  | badva (va : Nat)
  | layout (span rec : Nat)
  | buf (n st va : Nat)
  | straddle (va len : Nat)
  deriving DecidableEq, Repr

def CmdBad.trap (i : Instr) : CmdBad → Trap
  | .fmt f t => ⟨8, w0 i, wd f, wd t⟩
  | .badva va => ⟨5, wd va, w0 i, 0#64⟩
  | .layout a b => ⟨0xA, w0 i, wd a, wd b⟩
  | .buf n st va => ⟨9, wd n, wd st, wd va⟩
  | .straddle va len => ⟨4, wd va, wd len, w0 i⟩
def CmdBad.code : CmdBad → Nat
  | .fmt _ _ => 3
  | .badva _ => 6
  | .layout _ _ => 4
  | .buf _ _ _ => 5
  | .straddle _ _ => 0xE
/-- The first refusal in the list whose condition holds. -/
def firstBad : List (Bool × CmdBad) → Option CmdBad
  | [] => none
  | (c, b) :: r => if c then some b else firstBad r
/-- The first refusal of a list of lists of checks. -/
def firstOf : List (Option CmdBad) → Option CmdBad
  | [] => none
  | some b :: _ => some b
  | none :: r => firstOf r

/-! ### Words and records -/

/-- W3 (R158): reserved bits, SCOPE, MBOX, RLX. -/
def w3Bad (w : Word) : Bool := fld w 60 4 ≠ 0 || fld w 0 3 ≠ 0 || fld w 56 3 ≥ 6
def mbox (w : Word) : Nat := fld w 3 53 * 8
def rlx (w : Word) : Bool := fld w 59 1 = 1
/-- R160. -/
structure Rec where
  rsv : Bool
  off : Nat
  mx : Bool
  fmt : Nat
  cols : Nat
  rows : Nat
  swz : Nat
  trans : Bool
  pitch : Nat
  dmode : Nat
  dcvt : Nat
  tile : Nat
  acc : Bool
  sup : Nat
  soff : Nat
  pen : Bool
  poff : Nat
  men : Bool
  moff : Nat
  korg : Nat
  deriving DecidableEq, Repr

def mkRec (q : List Word) : Rec :=
  let g (i lo n : Nat) : Nat := fld (q.getD i 0#64) lo n
  { rsv := g 0 20 44 ≠ 0 || g 1 37 27 ≠ 0 || g 1 28 4 ≠ 0 || g 1 12 4 ≠ 0 || g 2 24 40 ≠ 0 || g 3 8 56 ≠ 0 || g 4 20 12 ≠ 0 ||
      g 5 20 43 ≠ 0 || g 6 20 43 ≠ 0 || g 7 32 32 ≠ 0
    off := g 0 0 20, mx := g 1 36 1 = 1, fmt := g 1 32 4, cols := g 1 16 12, rows := g 1 0 12
    swz := g 2 21 3, trans := g 2 20 1 = 1, pitch := g 2 0 20
    dmode := g 3 7 1, dcvt := g 3 5 2, tile := g 3 1 4, acc := g 3 0 1 = 1
    sup := g 4 32 32, soff := g 4 0 20, pen := g 5 63 1 = 1, poff := g 5 0 20
    men := g 6 63 1 = 1, moff := g 6 0 20, korg := g 7 0 32 }
def State.recAt (s : State) (k off : Nat) : List Word := words64 8 (s.poolBytes k off 64)
def Cmd.recA (c : Cmd) : Rec := mkRec (c.recs.take 8)
def Cmd.recB (c : Cmd) : Rec := mkRec (c.recs.drop 8)

/-- Element format that enters the array (R98, R160). -/
def Rec.ef (r : Rec) : Nat := if r.acc then [2, 4, 5, 8].getD r.dcvt 2 else r.fmt
def mxFormats : List Nat := [2, 3, 4, 5, 6, 7, 8, 9, 10, 11]
def Rec.packed (r : Rec) : Nat := (r.cols * elemBits r.fmt + 7) / 8
def Rec.rowBytes (r : Rec) : Nat := if r.pitch = 0 then r.packed else r.pitch
/-- Depth stored and rows or columns stored, of A or B (R161). -/
def Rec.depth (r : Rec) (isA : Bool) : Nat := if r.acc then 32 else if isA = r.trans then r.rows else r.cols
def Rec.outer (r : Rec) (isA : Bool) : Nat := if r.acc then 32 else if isA = r.trans then r.cols else r.rows
/-- Logical K (R94, R161). -/
def Rec.kdim (r : Rec) (isA sparse : Bool) : Nat := if sparse && !isA then 2 * r.depth isA else r.depth isA

/-! ### Buffers and ranges -/

def Core.bufOver (c : Core) (off : Nat) : Option (Nat × Buf) := c.bufs.l.find? fun b => b.2.len ≠ 0 && spans b.2.base b.2.len off 1
/-- First byte of a range that is no scratchpad byte (R161). -/
def Core.outScratch (c : Core) (off n : Nat) : Option Nat :=
  if n = 0 || inScratch c.partw off n then none else some (firstOutside c.partw off)
/-- Where byte offset `o` of a buffer lies under span code `z` (R99). -/
def swizzle (z o : Nat) : Nat := if z = 0 then o else o ^^^ (16 * (o / (16 * 2 ^ z) % 2 ^ z))
/-- The rows of a stored operand as pool ranges: a row, or its 16-byte pieces where a swizzle moves them (R99). -/
def Rec.extents (r : Rec) (base : Nat) : List (Nat × Nat) :=
  if r.acc then []
  else (List.range r.rows).flatMap fun i =>
    let a := r.off + i * r.rowBytes
    if r.swz = 0 then [(a, r.packed)]
    else (List.range (r.packed / 16 + 2)).filterMap fun j =>
      let lo := max (a - base) (((a - base) / 16 + j) * 16)
      let hi := min (a - base + r.packed) (((a - base) / 16 + j + 1) * 16)
      if lo < hi then some (base + swizzle r.swz lo, hi - lo) else none
def bufBadOf (c : Core) (ok : List Nat) (r : Nat × Nat) : Option CmdBad :=
  if r.2 = 0 then none
  else match c.bufBad r.1 r.2 ok with
    | some (n, st) => some (.buf n st (selfBase + max r.1 (c.bufs.get n {}).base))
    | none => none
/-- A destination in these parts, of which some of the whole lies `outside` the pool, must lie inside an empty buffer, or in none (R184);
`mine` are buffers the command itself fills. -/
def dstBad (c : Core) (mine : List Nat) (outside : Bool) (rs : List (Nat × Nat)) : Option CmdBad :=
  let l := rs.filter fun r => r.2 ≠ 0
  let meets (b : Buf) (r : Nat × Nat) : Bool := spans b.base b.len r.1 r.2
  let holds (b : Buf) (r : Nat × Nat) : Bool := b.base ≤ r.1 && r.1 + r.2 ≤ b.base + b.len
  (c.bufs.l.find? fun b => b.2.len ≠ 0 && l.any (meets b.2) &&
    ((b.2.state ≠ 0 && !mine.contains b.1) || outside || !l.all (holds b.2))).map fun b =>
      .buf b.1 b.2.state (selfBase + ((l.filter (meets b.2)).map fun r => max r.1 b.2.base).foldl min (2 ^ 20))
def bufsOver (c : Core) (rs : List (Nat × Nat)) : List Nat :=
  (c.bufs.l.filter fun b => b.2.len ≠ 0 && rs.any fun r => r.2 ≠ 0 && spans b.2.base b.2.len r.1 r.2).map (·.1)
/-- The parts of a virtual range that lie in the core's own pool, whatever address names them (R181). -/
def State.ownParts (s : State) (k : Nat) (r : Nat × Nat) : List (Nat × Nat) :=
  if inSelf r.1 then [(r.1 - selfBase, r.2)]
  else (List.range (if r.2 = 0 then 0 else (r.1 + r.2 - 1) / 4096 - r.1 / 4096 + 1)).filterMap fun i =>
    let a := max r.1 ((r.1 / 4096 + i) * 4096)
    match s.xl k (s.core k).ctxid a (false, false, false) with
    | .hit pa _ => match regionOf pa with
      | .sram j off => if s.isOwn pa && j = k then some (off, min (r.1 + r.2) ((r.1 / 4096 + i + 1) * 4096) - a) else none
      | _ => none
    | _ => none
/-- Some byte of a virtual range lies outside the core's pool. -/
def State.outParts (s : State) (k : Nat) (r : Nat × Nat) : Bool := ((s.ownParts k r).map (·.2)).foldl (· + ·) 0 ≠ r.2
/-- The mailbox an issue refuses, whatever address names the granule (R17, R165). An address that no translation names yet names no granule at
issue: its fate is that of the write (DEDUCED, log 156). -/
def State.mboxBad (s : State) (k : Nat) (w3 : Word) : Option CmdBad :=
  let a := mbox w3
  if a = 0 then none
  else if inHole a || (s.ownParts k (a, 8)).any (fun r => !inScratch (s.core k).partw r.1 r.2) then some (.badva a) else none
/-- A tile's tag once the commands accepted before have run (R161); one refused at acceptance changes nothing, and what the running one has
done stands in `accTag`. -/
def Core.tagAfter (c : Core) (t : Nat) : Nat :=
  c.mx.queue.foldl (fun g m =>
    if m.bad ≠ 0 then g
    else if m.op = 3 then (if fld m.w2 0 4 = t then fld m.w2 8 4 else g)
    else if m.op ≤ 1 && fld m.w2 0 4 = t && fld m.w2 4 1 = 1 then (if isInt m.recA.ef then 14 else 1) else g) (c.accTag.get t 0#4).toNat

/-! ### Checks of a matrix command (R159, R161, R170, R171). Operations: 0 MXMUL, 1 MXSPM, 2 MXDRN, 3 MXCLR -/

def opndBad (c : Core) (r : Rec) (isA sparse : Bool) : Option CmdBad :=
  let f := if isA then 3 else 4
  let bad : CmdBad := .fmt f 18
  let tag : CmdBad := .fmt f r.fmt
  let spB := sparse && !isA
  if r.rsv then some bad
  else if r.men != spB || (r.men && r.moff % 128 ≠ 0) || (r.pen && r.poff % 2 ≠ 0) then some bad
  else if r.acc then
    firstBad [(!isA || r.off ≠ 0 || r.rows ≠ 0 || r.cols ≠ 0 || r.fmt ≠ 0 || r.mx || r.swz ≠ 0 || r.trans || r.pitch ≠ 0 ||
        r.sup ≠ 0 || r.soff ≠ 0 || r.korg ≠ 0 || r.tile ≥ pwAccs c.partw, bad),
      (c.tagAfter r.tile ≠ 1, bad)]
  else
    let kk := r.kdim isA sparse
    firstBad [(r.tile ≠ 0 || r.dcvt ≠ 0 || r.dmode ≠ 0 || r.rows = 0 || r.cols = 0, bad),
      ((r.mx && !(4 ≤ r.fmt && r.fmt ≤ 8)) || !mxFormats.contains r.fmt, tag),
      (spB && (r.mx || r.fmt = 9), tag),
      (r.fmt ≠ 9 && (r.korg ≠ 0 || r.sup ≠ 0 || (r.soff ≠ 0 && !r.mx)), bad),
      (elemBits r.fmt = 4 && r.cols % 2 = 1, bad),
      (r.pitch ≠ 0 && r.pitch < r.packed, bad),
      (r.outer isA > 32, bad),
      (spB && kk % 4 ≠ 0, tag),
      (r.fmt = 9 && (r.korg % 64 ≠ 0 || kk % 64 ≠ 0 || r.korg / 16384 ≠ (r.korg + r.outer isA * kk - 1) / 16384), tag)]
/-- Bytes a multiply reads besides the stored rows: scales, permutation table, metadata (R94, R101, R161). -/
def sideRanges (a b : Rec) (sparse : Bool) : List (Nat × Nat) :=
  let kk := a.kdim true sparse
  let sc (r : Rec) (isA : Bool) : List (Nat × Nat) :=
    if r.mx then [(r.soff, r.outer isA * ((kk + 31) / 32))] else if !r.acc && r.fmt = 9 then [(r.soff, r.outer isA * (kk / 64))] else []
  sc a true ++ sc b false ++ (if a.pen then [(a.poff, 2 * kk)] else []) ++ (if sparse then [(b.moff, 4 * kk)] else [])
def rangesBad (c : Core) (rs : List (Nat × Nat)) : Option CmdBad := rs.findSome? fun r => (c.outScratch r.1 r.2).map fun o => .badva (selfBase + o)
/-- The span check of R100. A buffer holds an operand where it holds the byte at OFF, though a later byte lies outside it (DESIGN
CHOICE, log 121). -/
def spanBad (c : Core) (r : Rec) : Option CmdBad :=
  if r.acc then none
  else
    let code := match c.bufOver r.off with | some (_, b) => b.span | none => 0
    if r.swz ≠ code then some (.layout r.swz code) else none
def Core.baseOf (c : Core) (r : Rec) : Nat := match c.bufOver r.off with | some (_, b) => b.base | none => r.off

/-- The words of a matrix command are looked at in the order W0, W1, W2, W3 where several are bad (DESIGN CHOICE, log 146). -/
def w2MulBad (w2 : Word) : Bool := fld w2 6 58 ≠ 0
def recWordBad (w : Word) : Bool := fld w 20 44 ≠ 0 || fld w 0 6 ≠ 0
def mulRanges (m : Cmd) : List (Nat × Nat) :=
  [(m.w0.toNat, 64), (m.w1.toNat, 64)] ++ m.recA.extents (m.bases.getD 0 0) ++ m.recB.extents (m.bases.getD 1 0) ++
    sideRanges m.recA m.recB (m.op = 1)
def State.mulBad (s : State) (k : Nat) (m : Cmd) : Option CmdBad :=
  let c := s.core k
  let sp : Bool := m.op = 1
  let a := m.recA
  let b := m.recB
  let t := fld m.w2 0 4
  let ints := isInt a.ef
  let need := if ints then 14 else 1
  firstOf [
    firstBad [(recWordBad m.w0, .fmt 3 18), (recWordBad m.w1, .fmt 4 18), (w2MulBad m.w2, .fmt 1 18), (w3Bad m.w3, .fmt 2 18)],
    opndBad c a true sp, opndBad c b false sp,
    firstBad [(a.kdim true sp ≠ b.kdim false sp, .fmt 4 18),
      (ints != isInt b.ef, .fmt 4 b.fmt),
      (a.pen != b.pen || (a.pen && a.poff ≠ b.poff), .fmt 4 18),
      (a.pen && (sp || a.mx || b.mx || a.ef = 9 || b.ef = 9), .fmt 3 a.fmt)],
    rangesBad c (mulRanges m), s.mboxBad k m.w3,
    firstBad [(t ≥ pwAccs c.partw, .fmt 5 0), (fld m.w2 4 1 = 0 && c.tagAfter t ≠ need, .fmt 5 (c.tagAfter t))],
    spanBad c a, spanBad c b,
    (mulRanges m).findSome? (bufBadOf c rdOk)]
def rawLen : Nat := 16768
def drnDst (m : Cmd) : List (Nat × Nat) :=
  if fld m.w2 5 1 = 1 then [(m.recA.off, rawLen)] else m.recA.extents (m.bases.getD 0 0)
def State.drnBad (s : State) (k : Nat) (m : Cmd) : Option CmdBad :=
  let c := s.core k
  let r := m.recA
  let t := fld m.w2 0 4
  let tag := c.tagAfter t
  let raw : Bool := fld m.w2 5 1 = 1
  firstOf [
    firstBad [(recWordBad m.w0, .fmt 3 18), (fld m.w2 11 53 ≠ 0 || fld m.w2 6 2 ≠ 0 || fld m.w2 8 3 ≥ 5, .fmt 1 18), (w3Bad m.w3, .fmt 2 18),
      (r.rsv || r.mx || r.acc || r.pen || r.men || r.korg ≠ 0 || r.sup ≠ 0 || r.soff ≠ 0 || r.tile ≠ 0 || r.dcvt ≠ 0 || r.dmode ≠ 0, .fmt 3 18),
      (raw && (r.fmt ≠ 0 || r.rows ≠ 0 || r.cols ≠ 0 || r.pitch ≠ 0 || r.trans || r.swz ≠ 0 || r.off % 64 ≠ 0), .fmt 3 18),
      (raw && (fld m.w2 8 3 ≠ 0 || fld m.w2 4 1 ≠ 0), .fmt 1 18),
      (!raw && !((tag ≠ 14 && 1 ≤ r.fmt && r.fmt ≤ 8) || (tag ≠ 1 && ((1 ≤ r.fmt && r.fmt ≤ 3) || 10 ≤ r.fmt))), .fmt 3 r.fmt),
      (!raw && !(1 ≤ r.rows && r.rows ≤ 32 && 1 ≤ r.cols && r.cols ≤ 32), .fmt 3 18),
      (!raw && r.pitch ≠ 0 && r.pitch < r.packed, .fmt 3 18)],
    rangesBad c ((m.w0.toNat, 64) :: drnDst m), s.mboxBad k m.w3,
    firstBad [(t ≥ pwAccs c.partw, .fmt 5 0), (!raw && tag ≠ 1 && tag ≠ 14, .fmt 5 tag),
      (r.swz ≠ 0 && (c.bufOver r.off).isNone, .layout r.swz 0)],
    bufBadOf c rdOk (m.w0.toNat, 64), dstBad c [] false (drnDst m)]
def clrBad (c : Core) (m : Cmd) : Option CmdBad := if fld m.w2 0 4 ≥ pwAccs c.partw then some (.fmt 5 0) else none
def State.mxBad (s : State) (k : Nat) (m : Cmd) : Option CmdBad :=
  if m.op = 3 then clrBad (s.core k) m else if m.op = 2 then s.drnBad k m else s.mulBad k m
/-- A matrix command as acceptance fixes it: records, bases, seed (R73, R161, R167 step 6). A command of MXREM or of the register page takes
the seed of the core that runs it, as it stands then (DESIGN CHOICE, log 145). -/
def State.mxFix (s : State) (k : Nat) (m : Cmd) : Cmd :=
  let c := s.core k
  if m.op = 3 then m
  else
    let ra := s.recAt k (m.w0.toNat % 2 ^ 20)
    let rb := s.recAt k (m.w1.toNat % 2 ^ 20)
    let m := { m with recs := ra ++ rb, bases := [c.baseOf (mkRec ra), c.baseOf (mkRec rb)], seed := c.seed }
    if m.op = 2 then { m with opnds := [(m.w0.toNat, 64)], fills := bufsOver c (drnDst m) } else { m with opnds := mulRanges m }

/-! ### Checks of a copy (R176). Operations: fn 0 CPY, 1 CPYG, 2 CPYS, 3 CPYR -/

def cpyrFmt (m : Cmd) : Nat := fld m.w2 36 4
def cpyRows (m : Cmd) : Nat := fld m.w2 20 16
def rowLen (m : Cmd) : Nat := fld m.w2 36 16
/-- Row index `i` of the table, read now (R176). -/
def State.idxAt (s : State) (k : Nat) (m : Cmd) (i : Nat) : Nat := s.poolN k (fld m.w2 0 20 + 2 * i) 2
/-- Where a swizzled destination lies: base of the buffer that holds it whole (R176). -/
def State.swzBase (s : State) (k : Nat) (m : Cmd) : Option Nat :=
  match s.ownParts k (m.w1.toNat, 1) with
  | (o, _) :: _ => (match (s.core k).bufOver o with
    | some (_, b) => if o + m.len ≤ b.base + b.len then some b.base else none
    | none => none)
  | [] => none
/-- The checks at issue cover the ranges of R177: no index is read before its row moves (DEDUCED, log 12). Where several words are bad the
field shown is the first found here, that of W3 before W2's, W0's and W1's; an overlap of source and destination shows W1's (DESIGN CHOICE,
log 146). -/
def State.cpyBad (s : State) (k : Nat) (m : Cmd) : Option CmdBad :=
  let c := s.core k
  let src := m.srcRange
  let dst := m.dstRange
  let both := [src, dst].filter fun r => r.2 ≠ 0
  let es := elemBits (cpyrFmt m) / 8
  firstOf [
    firstBad [(w3Bad m.w3, .fmt 2 18),
      (m.op = 0 && fld m.w2 39 13 ≠ 0, .fmt 1 18),
      (m.op = 3 && (fld m.w2 42 10 ≠ 0 || fld m.w2 40 2 = 3 || !(([1, 2, 3, 14, 15] : List Nat).contains (cpyrFmt m)) || m.len % es ≠ 0), .fmt 1 18),
      (m.op = 3 && m.w0.toNat % es ≠ 0, .fmt 3 18), (m.op = 3 && m.w1.toNat % es ≠ 0, .fmt 4 18),
      ((m.op = 1 || m.op = 2) && (fld m.w2 0 20 % 2 = 1 || rowLen m = 0), .fmt 1 18),
      (src.2 ≠ 0 && dst.2 ≠ 0 && spans dst.1 dst.2 src.1 src.2, .fmt 4 18)],
    (both.find? fun r => r.1 + r.2 > 2 ^ 56).map fun r => .badva (max r.1 (2 ^ 56)),
    s.mboxBad k m.w3,
    (both.find? fun r => inSelf r.1 && r.1 + r.2 > selfBase + 0x100000).map fun r => .straddle r.1 r.2,
    (if (m.op = 1 || m.op = 2) && m.len ≠ 0 then rangesBad c [(fld m.w2 0 20, 2 * cpyRows m)] else none),
    (if m.op = 0 && fld m.w2 36 3 ≠ 0 && m.len ≠ 0 && (s.swzBase k m).isNone then some (.layout (fld m.w2 36 3) 0) else none),
    dstBad c [] (s.outParts k dst) (s.ownParts k dst), (s.ownParts k src).findSome? (bufBadOf c [2])]
def State.cpyFix (s : State) (k : Nat) (m : Cmd) : Cmd :=
  { m with fills := bufsOver (s.core k) (s.ownParts k m.dstRange), drains := bufsOver (s.core k) (s.ownParts k m.srcRange),
           bases := (s.swzBase k m).toList }
/-- A later copy is held back by the ranges of those before it (R177). -/
def cpyClash (a b : Cmd) : Bool :=
  hits a.dstRange b.dstRange.1 b.dstRange.2 && b.dstRange.2 ≠ 0 || hits a.srcRange b.dstRange.1 b.dstRange.2 && b.dstRange.2 ≠ 0 ||
    hits a.dstRange b.srcRange.1 b.srcRange.2 && b.srcRange.2 ≠ 0

/-! ### Queues -/

/-- Move buffers as the accepted command does (R184). -/
def moveBufs (c : Core) (m : Cmd) : Tab Buf :=
  let b := m.fills.foldl (fun t n => t.put n { t.get n {} with state := 1 }) c.bufs
  m.drains.foldl (fun t n => t.put n { t.get n {} with state := 3 }) b
/-- Copies that may start: fewer than 16 executing and no range of an earlier copy in the way (R164, R177). -/
def kickCopies : Nat → Engine → Engine
  | 0, e => e
  | n + 1, e => match e.queue with
    | [] => e
    | m :: r => if e.running.length < 16 && !e.running.any (cpyClash · m) then kickCopies n { e with queue := r, running := e.running ++ [m] } else e
/-- A command enters its engine's queue (R157, R162). -/
def State.accept (s : State) (k : Nat) (cp : Bool) (m : Cmd) : State :=
  let c := s.core k
  let e := if cp then c.cp else c.mx
  let n := (e.count + 1) % 65536
  let m := { m with seq := n }
  let e := { e with count := n, queue := e.queue ++ [m] }
  let s := s.setCore k (if cp then { c with cp := kickCopies 16 e, bufs := moveBufs c m } else { c with mx := e, bufs := moveBufs c m })
  match m.who with
  | .firing f => s.updFr k f fun r =>
    if cp then { r with cps := { r.cps with seq := n, open_ := r.cps.open_ + 1 } } else { r with mxs := { r.mxs with seq := n, open_ := r.mxs.open_ + 1 } }
  | _ => s
/-- The queue takes no more commands: two queued, and for copies 16 entries (R157, R177). -/
def Core.full (c : Core) (cp : Bool) : Bool :=
  if cp then c.cp.queue.length ≥ 2 || c.cp.queue.length + c.cp.running.length ≥ 16 else c.mx.queue.length ≥ 2
def statusWord (seq prog queued flags code : Nat) : Word :=
  wd (seq % 65536 * 2 ^ 48 + prog % 2 ^ 24 * 2 ^ 24 + min queued 255 * 2 ^ 16 + flags % 64 * 2 ^ 8 + code)
/-! ### Memory-mapped submission (R166, R167, R175) -/

/-- Accept a command from the register page or a remote core: a refusal completes with its code and, but for a refused mailbox, is
reported as any completion (R159, R163, R167). -/
def State.acceptMm (s : State) (k : Nat) (cp : Bool) (op : Nat) (ws : List Word) : State :=
  let m0 : Cmd := { op := op, w0 := ws.getD 0 0#64, w1 := ws.getD 1 0#64, w2 := ws.getD 2 0#64, w3 := ws.getD 3 0#64, who := .regs }
  let m := if cp then s.cpyFix k m0 else s.mxFix k m0
  match if cp then s.cpyBad k m else s.mxBad k m with
  | none => s.accept k cp m
  | some b => s.accept k cp { m0 with bad := b.code, w3 := if (s.mboxBad k m.w3).isSome then 0#64 else m.w3 }
def latched (e : Engine) : Option (List Word) :=
  match e.latch.get? 0, e.latch.get? 1, e.latch.get? 2, e.latch.get? 3 with
  | some a, some b, some c, some d => some [a, b, c, d]
  | _, _, _, _ => none
def Core.engine (c : Core) (cp : Bool) : Engine := if cp then c.cp else c.mx
def Core.setEngine (c : Core) (cp : Bool) (e : Engine) : Core := if cp then { c with cp := e } else { c with mx := e }
/-- The operation of a submitted command: bits 1:0 of the go for a copy, an open choice for the matrix engine (log 13). -/
def goOp (cp : Bool) (v : Word) (ws : List Word) : Nat := if cp then fld v 0 2 else Config.matrixOp ws % 3
/-- A store of `v` to go takes the latched command, or is refused with MISSING_WORD in the STAT register alone (R163, R167 step 3). -/
def Engine.go (e : Engine) (v : Word) (core frame : Nat) : Engine :=
  match latched e with
  | none => { e with latch := {}, missing := true }
  | some ws => { e with latch := {}, held := e.held ++ [⟨ws, v, core, frame⟩] }
/-- A held go is accepted when an entry is free (R167 step 5). -/
def State.heldGo (s : State) (k : Nat) (cp : Bool) : State :=
  let c := s.core k
  match (c.engine cp).held with
  | h :: r => if c.full cp then s
    else (s.setCore k (c.setEngine cp { c.engine cp with held := r })).acceptMm k cp (goOp cp h.v h.words) h.words
  | [] => s
/-- An engine register of a core: a latch word, or go, by firing `frame` of `core` (R166, R167). -/
def engineSet (c : Core) (off : Nat) (v : Word) (core frame : Nat) : Core :=
  if off < 0x20 then { c with mx := { c.mx with latch := c.mx.latch.put (off / 8) v } }
  else if off = 0x20 then { c with mx := c.mx.go v core frame }
  else if 0x100 ≤ off && off < 0x120 then { c with cp := { c.cp with latch := c.cp.latch.put ((off - 0x100) / 8) v } }
  else if off = 0x120 then { c with cp := c.cp.go v core frame }
  else c
/-- A store to an engine register of the resident context. -/
def State.engineReg (s : State) (k off : Nat) (v : Word) (core frame : Nat) : State :=
  (s.updCore k fun c => engineSet c off v core frame).heldGo k (0x100 ≤ off)
/-- The last status with QUEUED, and MISSING_WORD where the register shows it (R162, R163, R174). -/
def engStat (e : Engine) : Word := putFld e.last 16 8 (min 255 (e.queue.length + e.running.length))
def engStatReg (e : Engine) : Word := if e.missing then putFld (engStat e) 0 8 7 else engStat e

/-- The flow a copy uses; none, which is 0, where its destination is in its own package (R422). A destination not translated now counts as
one in another package. -/
def State.copyFlow (s : State) (k : Nat) (m : Cmd) : Nat :=
  match s.place k m.w1.toNat 1 (false, false, false) with
  | .mem pa _ _ => if isRemote s pa then fld m.w2 52 12 else 0
  | .badva => 0
  | _ => fld m.w2 52 12

end Sys2Proof.Machine
end

