-- ==== Sys2Proof/Machine/Pages.lean ====
section
/-! DEFINITION. Register pages as firings read and write them (R166, R294, R336, R382 to R384, R393, R414, R425). -/
namespace Sys2Proof.Machine

/-! ### Reading -/

def State.engineRd (s : State) (k off : Nat) : Word :=
  if off = 0x28 then engStatReg (s.core k).mx else if off = 0x128 then engStatReg (s.core k).cp else 0#64
def SQueue.rd (q : SQueue) (off : Nat) : Word :=
  match off with
  | 0 => q.ringbase
  | 8 => wd (b2n q.enable * 2 ^ 63 + q.ctx * 2 ^ 32 + q.ringsize * 2 ^ 16 + q.share)
  | 0x10 => wd (q.high * 2 ^ 16 + q.low)
  | 0x18 => wd (q.head * 2 ^ 32 + q.tail % 2 ^ 32)
  | 0x20 => wd q.bank.length
  | _ => 0#64
def FreeList.rd (l : FreeList) (off : Nat) : Word :=
  match off with
  | 0 => l.stack
  | 8 => wd (b2n l.enable * 2 ^ 63 + l.ctx * 2 ^ 32 + l.cap)
  | 0x10 => l.vbase
  | 0x18 => wd l.top
  | 0x20 => wd l.stride
  | _ => 0#64
def UQueue.rd (q : UQueue) (off : Nat) : Word :=
  match off with
  | 0 => q.ring
  | 8 => wd (b2n q.enable * 2 ^ 63 + b2n q.error * 2 ^ 62 + q.ctx * 2 ^ 32 + q.log2)
  | 0x10 => wd q.limit
  | 0x18 => wd (q.promised * 2 ^ 32 + q.head)
  | _ => 0#64
def State.uq (s : State) (d q : Nat) : UQueue := (s.die d).queues.get q {}
def State.setUq (s : State) (d q : Nat) (v : UQueue) : State := s.updDie d fun x => { x with queues := x.queues.put q v }
def State.frozenM (s : State) : Word :=
  wd (b2n s.frozenMgmt + 2 * b2n (s.frozenFns.any (· < 64)) + 4 * b2n (s.frozenFns.any (64 ≤ ·)))
def State.frontRd (s : State) (d off : Nat) : Word :=
  let v := s.die d
  if 0x400 ≤ off && off < 0x1400 then (s.uq d ((off - 0x400) / 64)).rd (off % 64)
  else if 0x2000 ≤ off && off < 0x3000 then
    (if d = 0 then wd ((v.fnmap.get ((off - 0x2000) / 32) 0#256).toNat >>> (64 * (off % 32 / 8))) else 0#64)
  else match off with
    | 0 => wd v.assist
    | 8 => if d = 0 then wd v.ctxbase else 0#64
    | 0x10 => wd v.evbase
    | 0x18 => wd (v.evput * 2 ^ 32 + v.evlog2)
    | 0x20 => s.frozenM
    | 0x40 => wd v.wfbase
    | 0x48 => v.wfsize
    | 0x58 => wd (v.wfstat + 4 * b2n v.wfbusy)
    | 0x128 => wd v.twstat
    | _ => 0#64
def State.notifyRd (s : State) (d q off : Nat) : Word :=
  let u := s.uq d q
  match off with
  | 8 => wd u.head
  | 0x10 => match s.slotOf u.ctx with
    | some n =>
      let w := s.ctxDw n 0
      wd (fld w 24 8 * 256 + b2n u.enable + 2 * b2n u.error + 4 * fld w 18 1 + 8 * fld w 17 1)
    | none => wd (b2n u.enable + 2 * b2n u.error)
  | _ => 0#64
/-- A group's package entry with CODE, MEMBER and RANK zero (R425). -/
def Group.word (g : Group) : Nat := g.inc * 2 ^ 48 + g.dropped * 2 ^ 16 + g.reason * 2 ^ 10 + g.state * 2 ^ 8
def State.recovRd (s : State) (d off : Nat) : Word :=
  let v := s.die d
  if d = 0 && 0x100 ≤ off && off < 0x300 then wd (s.group ((off - 0x100) / 8)).word
  else match off with
    | 0x10 => wd v.rlimit
    | 0x18 => wd ((List.range 3).foldl (fun a p => let t := v.ports.get p {}; a + (t.width + 4 * b2n t.training) * 256 ^ p) 0)
    | 0x28 => wd v.secnt
    | 0x30 => wd v.uecnt
    | _ => 0#64
/-- The package management registers (R444). -/
def Mgmt.rd (m : Mgmt) (off : Nat) : Word :=
  match off with
  | 0 => wd m.pwrlim
  | 8 => wd m.pwrnow
  | 0x10 => wd (m.hotdie * 2 ^ 16 + m.temp)
  | 0x18 => wd (m.tripd * 2 ^ 8 + (m.throt ||| m.pthrot))
  | 0x20 => wd (b2n m.trip * 2 ^ 8 + b2n m.ready * 2 + b2n m.bootfail)
  | 0x30 => wd m.svn
  | _ => 0#64
/-- An 8-byte read of a register page of this package, by its offset from the first one. -/
def State.regRead (s : State) (o : Nat) : Word :=
  let d := o / 0x40000000
  let r := o % 0x40000000
  let off := r % 0x1000
  match r / 0x1000000 with
  | 1 => if r % 0x1000000 / 0x1000 < 768 then s.engineRd (768 * d + r % 0x1000000 / 0x1000) off else 0#64
  | 2 => if r % 0x1000000 / 0x1000 < 48 && off < 1024 then (s.squeue (768 * d + 16 * (r % 0x1000000 / 0x1000) + off / 64)).rd (off % 64) else 0#64
  | 3 => if r % 0x1000000 < 0x1000 then (s.die d).fl.rd off else 0#64
  | 4 => if r % 0x1000000 < 0x4000 then s.frontRd d (r % 0x1000000) else 0#64
  | 5 => if r % 0x1000000 / 0x1000 < 64 then s.notifyRd d (r % 0x1000000 / 0x1000) off else 0#64
  | 6 => if r % 0x1000000 < 0x1000 then s.recovRd d off else 0#64
  | 7 => if d = 0 && r % 0x1000000 < 0x1000 then s.mgmt.rd off else 0#64
  | _ => 0#64

/-! ### Doorbells (R386) -/

def State.queueErr (s : State) (d q : Nat) : State :=
  let u := s.uq d q
  (s.setUq d q { u with error := true }).guilt u.ctx 2
/-- An accepted doorbell is posted (R396); the spec gives the event no KIND of the front end's six and no BODY (R450; DESIGN CHOICE, log 112). -/
def State.bellPost (s : State) (d : Nat) : State :=
  { s.post d 2 0 (0x0401 + (Config.freeWord s.tick).toNat % 6) (Config.freeWord (s.tick + 1)).toNat with tick := s.tick + 2 }
/-- A doorbell, the driver's or a producer's. In the host-assisted mode of queue parsing a producer's is posted and promises nothing: packets
are launched on the driver's doorbells alone (R396; log 112). -/
def State.ringBell (s : State) (d q v : Nat) (driver : Bool) : State :=
  let u := s.uq d q
  let ahead (n : Nat) : Nat := (n + 2 ^ 32 - u.head) % 2 ^ 32
  if !u.enable || s.barred u.ctx then s
  else if ahead v ≤ 2 ^ u.log2 then
    if nfld (s.die d).assist 0 1 = 1 && !driver then s.bellPost d
    else if ahead v > ahead u.promised then s.setUq d q { u with promised := v } else s
  else s.queueErr d q

/-! ### A firing's accesses (R166, R393) -/

/-- A load of a register page: 8 bytes give the register, any other size zero. Registers of another package hold open values. -/
def regLoad (s : State) (pa n : Nat) : Got Nat :=
  if n ≠ 8 then .got s 0
  else if s.isOwn pa then .got s (s.regRead (localOf pa % 0x1000000000)).toNat
  else .got s.ticked (Config.freeWord s.tick).toNat
/-- A store of firing `f` of core `k` to a register page of this package (R166, R393): a size other than 8 is discarded. -/
def State.regPut (s : State) (k f ctx va pa : Nat) (l : List (BitVec 8)) : State × Option Trap :=
  let o := localOf pa % 0x1000000000
  let d := o / 0x40000000
  let r := o % 0x40000000
  let n := r % 0x1000000 / 0x1000
  let j := 768 * d + n
  let v := wd (ofBytes l)
  if s.regBarred ctx pa then ((s.violate k ctx va pa).1, some (s.violate k ctx va pa).2)
  else if l.length ≠ 8 then (s, none)
  else match r / 0x1000000 with
  | 1 =>
    if n ≥ 768 then (s, none)
    else if (s.core j).ctxid = ctx then (s.engineReg j (r % 0x1000) v k f, none)
    else ({ s with savedCores := s.savedCores.put (savedKey ctx j) (engineSet (s.savedCores.get (savedKey ctx j) {}) (r % 0x1000) v k f) }, none)
  | 5 => (if r % 0x1000 = 0 && n < 64 then s.ringBell d n (fld v 0 32) false else s, none)
  | _ => (s, none)
/-- A store by the issuing firing to a register page of its translation. -/
def regStore (va : Nat) (s : State) (pa : Nat) (l : List (BitVec 8)) : Got Unit :=
  match s.regPut s.turn s.fi s.myCore.ctxid va pa l with
  | (s, none) => .got s ()
  | (s, some t) => .stop (.trap s t)

end Sys2Proof.Machine
end

