-- ==== Sys2Proof/Machine/Replay.lean ====
section
/-! DEFINITION. The replay of the side log (R373, R374), a walk that grants (R375), the mailbox writes of engines (R165, R303), and the
completion of their commands (R164, R174, R185). -/
namespace Sys2Proof.Machine

/-! ### Replay -/

/-- What replay finds for a logged store: nothing to do yet, the trap it fails with, or that it may be performed. -/
inductive Replay where
  | wait
  | fail (t : Trap)
  | go
  deriving DecidableEq, Repr
def Place.isReg : Place → Bool
  | .reg _ _ => true
  | _ => false
def Place.cell : Place → Bool
  | .mem _ w _ => entCell w
  | .reg _ w => entCell w
  | _ => false
/-- An atomic store to the line is not acknowledged yet (R210). -/
def State.placeHeld (s : State) : Place → Bool
  | .mem pa _ _ => s.lineHeld pa
  | _ => false
/-- A byte in a declared buffer of the core whose state takes no store (R181, R184). -/
def Core.placeShut (c : Core) : Place → Bool
  | .mem _ _ (some off) => (c.bufBad off 1 wrOk).isSome
  | _ => false
/-- Entry `n` of the side log at its replay (R373, R374): CELL fails it, as does a granule that R17 or R365 closes, an engine's write of a
register page, and a byte of a buffer that takes no store (reason 1), and the STRADDLE that R206 gives a vector store (DESIGN CHOICE,
log 126). -/
def State.slogReady (s : State) (k n : Nat) (e : SlogE) : Replay :=
  let as := e.bytes.map fun b => e.va + b.1
  let ps := as.map fun a => s.place k a 1 needW
  if ps.any fun p => !placed p then .wait
  else if ps.any (·.cell) then .fail (slogFault n 2 e)
  else if ps.any fun p => p = .badva || (e.engine && p.isReg) || (!e.engine && (s.core k).placeShut p) then .fail (slogFault n 1 e)
  else match (if s.straddles k as then e.strad else none) with
    | some t => .fail t
    | none => if ps.any s.placeHeld then .wait else .go
/-- Perform a logged store: a scalar one may meet a register page, whose violation stops a firing still resident (R393). -/
def State.slogPut (s : State) (k : Nat) (e : SlogE) : State :=
  let ctx := (s.core k).ctxid
  let l := e.bytes.map (·.2)
  match s.place k e.va 1 needW with
  | .reg pa _ =>
    let s := s.markAD k ctx e.va true
    if e.size > 8 && !s.regBarred ctx pa then s
    else
      if isRemote s pa then s.put k e.frame ctx pa 0#64 l (if e.rel then some e.va else none)
      else (match s.regPut k e.frame ctx e.va pa l with
        | (s, none) => s
        | (s, some t) => if e.gone || (s.fr k e.frame).stat = .stopped then s else s.stopFiring k e.frame t)
  | .mem pa w _ =>
    if e.rel && isRemote s pa then (s.markAD k ctx e.va true).put k (if e.engine then engFrame else e.frame) ctx pa w l (some e.va)
    else s.putAll k e.frame ctx e.unit (e.bytes.map fun b => (e.va + b.1, b.2))
  | _ => s.putAll k e.frame ctx e.unit (e.bytes.map fun b => (e.va + b.1, b.2))
/-- Walks for the pages of entries that have none under way and no translation. -/
def State.slogWalks (s : State) (k : Nat) : State :=
  (s.core k).slog.l.foldl (fun s p => p.2.bytes.foldl (fun s b =>
    if placed (s.place k (p.2.va + b.1) 1 needW) then s else s.startWalk (.slog k p.1) k (s.core k).ctxid (p.2.va + b.1) 4 needW) s) s
/-- An earlier entry of the log that this one comes after: one with bytes in common (R373), and for a store to a register page any of its
firing, since a go comes after the words before it (R167 step 2). -/
def State.slogAfter (s : State) (k : Nat) (p q : Nat × SlogE) : Bool :=
  q.2.order < p.2.order && ((q.2.bytes.any fun b => p.2.touches (q.2.va + b.1) 1) || (q.2.frame = p.2.frame && (s.place k p.2.va 1 needW).isReg))
/-- Replay what may be replayed, entries in log order where R373 or R167 orders them. -/
def State.slogReplay (s : State) (k : Nat) : Nat → State
  | 0 => s.slogWalks k
  | n + 1 =>
    let es := (s.core k).slog.l
    match es.find? fun p => !es.any (s.slogAfter k p) && s.slogReady k p.1 p.2 ≠ .wait with
    | none => s.slogWalks k
    | some (i, e) =>
      match s.slogReady k i e with
      | .fail t => (s.slogFail k i fun _ => t).slogReplay k n
      | _ =>
        let s := { (s.updCore k fun c => { c with slog := c.slog.del i }) with walks := s.walks.filter fun w => w.who ≠ Who.slog k i }
        ((s.slogPut k e).wakeSlog k).slogReplay k n
/-- Replay at core `k`, where its log holds entries. -/
def State.replay (s : State) (k : Nat) : State := s.slogReplay k (s.core k).slog.l.length
/-- A waiter's walk ends with an entry that is installed (R375); an entry that does not permit the access refuses it. -/
def State.walkYes (s : State) (w : Walk) (e : Word) : State :=
  if !permits e w.needs then s.walkNo w 1
  else
    let s := { s with walks := s.walks.filter fun q => q ≠ w }
    let s := match w.who with
      | .frame k f => s.updFr k f fun r => if r.hold = Hold.walk then { r with hold := .no, stat := .ready } else r
      | _ => s
    s.replay w.core

/-! ### Mailbox writes (R165, R303) -/

def Issuer.frame : Issuer → Nat
  | .firing f => f
  | .ended f => f
  | .regs => 0
def Issuer.gone : Issuer → Bool
  | .firing _ => false
  | _ => true
/-- A mailbox write has to enter the side log (R165, R373). -/
def State.mailLogs (s : State) (k va : Nat) : Bool :=
  match s.place k va 8 needW with
  | .mem _ w _ => entCell w || (s.core k).slogHits va 8
  | .badva => !inSelf va
  | _ => true
/-- Writes a completion comes after are not yet performed at its SCOPE (R164, R202, R211): the engine's, those of the core whose commands it
took, and those it may have observed. -/
def State.cmdDue (s : State) (k : Nat) (m : Cmd) : Bool := s.pushWaits k (fld m.w3 56 3 ≥ 3)
/-- A mailbox write cannot be made yet: it needs an entry and all 64 are in use, or its line waits for acknowledgements (R210, R373). -/
def State.mailWaits (s : State) (k : Nat) (who : Issuer) (va : Nat) : Bool :=
  va ≠ 0 && (if s.mailLogs k va then who.frame ≠ 8 && (List.range 64).all fun n => ((s.core k).slog.get? n).isSome
    else s.placeHeld (s.place k va 8 needW))
/-- A mailbox write of an engine: a release store of the issuing core (R164, R214) that may enter the side log (R165). One for a command of the Bivouac firing
is held by its engine (R303), in an entry above 63. -/
def State.mailbox (s : State) (k : Nat) (who : Issuer) (va : Nat) (v : Word) : State :=
  let c := s.core k
  let f := who.frame
  let l := bytesOf 8 v.toNat
  if va = 0 then s
  else if !s.mailLogs k va then
    (match s.place k va 8 needW with
    | .mem pa w _ => (if inSelf va then s else s.markAD k c.ctxid va true).put k engFrame c.ctxid pa w l (some va)
    | _ => s)
  else match (if f = 8 then some (64 + c.slogNo) else (List.range 64).find? fun n => (c.slog.get? n).isNone) with
    | none => s
    | some n =>
      let e : SlogE := { frame := f, biv := f = 8, va := va, size := 8, bytes := enum l, order := c.slogNo, unit := 8, engine := true, gone := who.gone, rel := true }
      (s.setCore k { c with slog := c.slog.put n e, slogNo := c.slogNo + 1 }).replay k

/-! ### Completion -/

/-- End a firing's wait for its engine commands once none is open (R174, R179). -/
def endEngineWaits (r : Frame) : Frame :=
  let put (r : Frame) (w : Wait) : Frame :=
    match w.kind with
    | .mx d => if r.mxs.open_ = 0 then { r.wx d (statusWord r.mxs.seq 0 0 r.mxs.flags r.mxs.code) with mxs := { r.mxs with flags := 0, code := 0 } } else r
    | .cpy d => if r.cps.open_ = 0 then { r.wx d (statusWord r.cps.seq 0 0 r.cps.flags r.cps.code) with cps := { r.cps with flags := 0, code := 0 } } else r
    | _ => r
  let r2 := r.waits.foldl put r
  { r2 with waits := r.waits.filter fun w => match w.kind with
    | .mx _ => r.mxs.open_ ≠ 0
    | .cpy _ => r.cps.open_ ≠ 0
    | _ => true }
def noteSummary (m : Summary) (flags code : Nat) : Summary :=
  { m with flags := m.flags ||| flags, code := if m.code = 0 then code else m.code, open_ := m.open_ - 1 }
/-- The mailbox of a command; a clear has none (R173). -/
def Cmd.mail (m : Cmd) (cp : Bool) : Nat := if m.op = 3 && !cp then 0 else mbox m.w3
/-- A command is complete: buffers move, the status is released to the mailbox, summaries and waits follow (R164, R174, R185). -/
def State.finishCmd (s : State) (k : Nat) (cp : Bool) (m : Cmd) (prog flags code span : Nat) : State :=
  let c := s.core k
  let b := m.fills.foldl (fun t n => t.put n { t.get n {} with state := if code = 0 then 2 else 0, span := span }) c.bufs
  let b := m.drains.foldl (fun t n => t.put n { t.get n {} with state := if code = 0 then 0 else 2 }) b
  let st := statusWord m.seq prog 0 flags code
  let c := if cp then { c with bufs := b, cp := kickCopies 16 { c.cp with last := st, missing := false } }
    else { c with bufs := b, mx := { c.mx with last := st, missing := false } }
  let s := (s.setCore k c).mailbox k m.who (m.mail cp) st
  let s := match m.who with
    | .firing f => (s.updFr k f fun r => endEngineWaits (if cp then { r with cps := noteSummary r.cps flags code } else { r with mxs := noteSummary r.mxs flags code })).wake k f
    | _ => s
  match m.fm with
  | some fm => if cp && code ≠ 0 then s.cellFail fm 3 (wd code) else s
  | none => s

end Sys2Proof.Machine
end

