-- ==== Sys2Proof/Machine/Copies.lean ====
section
/-! DEFINITION. What a copy moves and how it ends (R176, R178, R209, R247, R422). A copy is performed when it completes; where it stops,
destination bytes past the completed units hold their old or their copied value (R178, log 14). -/
namespace Sys2Proof.Machine

/-- Source and destination address of byte `i` of a copy, as its indices stand. -/
def State.cpyMove (s : State) (k : Nat) (m : Cmd) (i : Nat) : Nat × Nat :=
  match m.op with
  | 1 => (m.w0.toNat + s.idxAt k m (i / rowLen m) * rowLen m + i % rowLen m, m.w1.toNat + i)
  | 2 => (m.w0.toNat + i, m.w1.toNat + s.idxAt k m (i / rowLen m) * rowLen m + i % rowLen m)
  | _ =>
    match m.bases, s.ownParts k (m.w1.toNat, 1) with
    | b :: _, (o, _) :: _ => (m.w0.toNat + i, m.w1.toNat + swizzle (if m.op = 3 then 0 else fld m.w2 36 3) (o - b + i) - (o - b))
    | _, _ => (m.w0.toNat + i, m.w1.toNat + i)
/-- Units of PROG (R162). -/
def Cmd.unit (m : Cmd) : Nat := if m.op = 0 || m.op = 3 then 4096 else rowLen m
/-- Bytes moved as one piece: an element of a CPYR, else a byte. -/
def Cmd.piece (m : Cmd) : Nat := if m.op = 3 then elemBits (cpyrFmt m) / 8 else 1

/-- Outcome of reaching one byte. -/
inductive CpyAt where
  | ok (pa : Nat) (w : Word)
  | code (c : Nat)
  | wait (s : State)
def cpyWho (k : Nat) (m : Cmd) : Who := .unit (2 ^ 30 + 2 ^ 17 * k + m.seq)
/-- An address a copy may reach (R178): its place, a code, or a walk or a path to wait for. -/
def State.cpyReach (s : State) (k : Nat) (m : Cmd) (va : Nat) (needs : Bool × Bool × Bool) : CpyAt :=
  let c := (s.core k).ctxid
  match s.place k va 1 needs with
  | .badva => .code 6
  | .reg _ _ => .code 6
  | .mem pa w _ => if isRemote s pa && !s.pathUp then .wait s else .ok pa w
  | _ => match s.ansFor (cpyWho k m) c va with
    | some _ => .code 9
    | none => .wait (s.startWalk (cpyWho k m) k c va (if needs.2.1 then 4 else 0) needs)
/-- Destination ranges of a copy, row by row where an index table scatters them. -/
def State.dstRows (s : State) (k : Nat) (m : Cmd) : List (Nat × Nat) :=
  if m.op = 2 then (List.range (cpyRows m)).map fun i => (m.w1.toNat + s.idxAt k m i * rowLen m, rowLen m) else [m.dstRange]
/-- A copy write to a CELL page is allowed only into the back buffer of the cell its issuer computes (R247). -/
def State.cellCopy (s : State) (k : Nat) (m : Cmd) : Bool :=
  match m.fm, m.who with
  | some fm, .firing _ =>
    let b := (s.backBuf fm.t fm.cell).toNat
    !fm.committed && s.cellState fm.t fm.cell = 2 && s.sgen fm.t fm.cell = fm.gen &&
      (s.dstRows k m).all fun r => b ≤ r.1 && r.1 + r.2 ≤ b + s.bufBytes fm.t fm.cell
  | _, _ => false
/-- The flow a copy to another package uses is open toward it and not dead (R422, R429). -/
def State.flowOk (s : State) (k : Nat) (m : Cmd) (pkg : Nat) : Bool :=
  let n := fld m.w2 52 12
  n = 0 || (match (s.core k).flows.get? n with | some x => x.pkg = pkg && !x.dead | none => false)
/-- A byte of a declared buffer reached through a window, whose page had no translation when the command was accepted: the table of R184 is
applied as the byte is reached (R181; DESIGN CHOICE, log 141). -/
def State.aliasBad (s : State) (k : Nat) (m : Cmd) (va : Nat) (src : Bool) : Bool :=
  !inSelf va && (match s.place k va 1 (false, false, false) with
    | .mem _ _ (some off) => (match (s.core k).bufOver off with
      | some (n, b) =>
        if src then !m.drains.contains n && b.state ≠ 2 else !m.fills.contains n && b.state ≠ 0
      | none => false)
    | _ => false)
/-- Its destination, all of whose pages have their translations by now, lies partly in a buffer. -/
def State.aliasOut (s : State) (k : Nat) (m : Cmd) : Bool :=
  !inSelf m.w1.toNat && m.op ≠ 2 && (dstBad (s.core k) m.fills (s.outParts k m.dstRange) (s.ownParts k m.dstRange)).isSome
/-- Buffers that such a copy fills and drains, found when its pages have their translations (R184). -/
def State.cpyLate (s : State) (k : Nat) (m : Cmd) : Cmd :=
  let more (l : List Nat) (rs : List (Nat × Nat)) : List Nat := l ++ (bufsOver (s.core k) rs).filter fun n => !l.contains n
  { m with fills := more m.fills (s.ownParts k m.dstRange), drains := more m.drains (s.ownParts k m.srcRange) }
/-- A byte waits for a store of its core on its way, or for the acknowledgements of its line (R164, R210, R222). -/
def State.cpyHeld (s : State) (k pa qa : Nat) (v : Word) : Bool :=
  s.ownPending k pa 1 || s.ownPending k qa 1 || (entRdup v && s.lineHeld qa)
/-- What stands in the way of one byte of the copy, if anything does; `held` says whether stores on their way do. -/
def State.cpyStop (s : State) (k : Nat) (m : Cmd) (held : Bool) (i : Nat) : Option CpyAt :=
  let (a, b) := s.cpyMove k m i
  match s.cpyReach k m a needR with
  | .code c => some (.code c)
  | .wait t => some (.wait t)
  | .ok pa w =>
    if s.aliasBad k m a true then some (.code 5)
    else if s.poisonedAt (readPa k pa w) 1 then some (.code 0xA)
    else match s.cpyReach k m b (if m.op = 3 then needRW else needW) with
      | .code c => some (.code c)
      | .wait t => some (.wait t)
      | .ok qa v =>
        if entCell v && !m.own && !s.cellCopy k m then some (.code 0xC)
        else if s.aliasBad k m b false then some (.code 5)
        else if isRemote s qa && !s.flowOk k m (pkgOf qa) then some (.code 0xD)
        else if m.op = 3 && s.poisonedAt qa 1 then some (.code 0xA)
        else if held && s.cpyHeld k pa qa v then some (.wait s)
        else none
/-- The first byte at which the copy stops. -/
def State.cpyScan (s : State) (k : Nat) (m : Cmd) : Nat → Nat → Option (Nat × CpyAt)
  | 0, _ => none
  | n + 1, i => match s.cpyStop k m true i with
    | some r => some (i, r)
    | none => s.cpyScan k m n (i + 1)
/-- CPYR on one element: floats round once, integers saturate (R176). -/
def reduceEl (t op d x : Nat) : Nat × Nat :=
  if isInt t then
    let a := intVal t d
    let b := intVal t x
    let v := if op = 0 then a + b else if op = 1 then max a b else min a b
    if v > intMax t then (intCode t (intMax t), 32) else if v < intMin t then (intCode t (intMin t), 32) else (intCode t v, 0)
  else
    let a := fltVal t d
    let b := fltVal t x
    finish t (if op = 0 then fpAdd a b else if op = 1 then (fpMax a b, 0) else (fpMin a b, 0))
/-- An element's write: to the home of an RDUP page with its replicas to follow (R209), else to its place. -/
def State.cpyPut (s : State) (k : Nat) (m : Cmd) (pa : Nat) (w : Word) (l : List (BitVec 8)) : State :=
  if entRdup w then
    let t := s.put k 99 (s.core k).ctxid pa w l none
    { t with rdup := s.rdup ++ (t.rdup.drop s.rdup.length).map fun r => { r with seq := some m.seq } }
  else s.unitStore pa l
/-- Move the piece that begins at byte `i`; pieces are never split by a page. -/
def State.cpyOne (s : State) (k : Nat) (m : Cmd) (i : Nat) : State × Nat :=
  let (a, b) := s.cpyMove k m i
  let n := m.piece
  match s.cpyReach k m a needR, s.cpyReach k m b (if m.op = 3 then needRW else needW) with
  | .ok pa w, .ok qa v =>
    let x := s.unitRd (readPa k pa w) n
    let c := (s.core k).ctxid
    let s := (s.markAD k c a false).markAD k c b true
    if m.op = 3 then
      let (y, f) := reduceEl (cpyrFmt m) (fld m.w2 40 2) (s.unitRd qa n) x
      (s.cpyPut k m qa v (bytesOf n y), f)
    else (s.cpyPut k m qa v (bytesOf n x), 0)
  | _, _ => (s, 0)
/-- Move pieces from byte `i`: all of them below `full`, beyond it each one or none as an open choice. -/
def State.cpyRun (s : State) (k : Nat) (m : Cmd) (full t0 : Nat) : Nat → Nat → Nat → State × Nat
  | 0, _, f => (s, f)
  | n + 1, i, f =>
    if i < full || ((s.cpyStop k m false i).isNone && Config.freeBit t0 i) then
      let (s', g) := s.cpyOne k m i
      s'.cpyRun k m full t0 n (i + m.piece) (f ||| g)
    else s.cpyRun k m full t0 n (i + m.piece) f
/-- `n` packets of a copy to another package go out with the next numbers of its flow, and the first `d` of them are delivered (R212, R423);
numbers after a gap count as delivered no more. -/
def State.flowUse (s : State) (k : Nat) (m : Cmd) (n d : Nat) : State :=
  match s.cpyReach k m m.w1.toNat needW with
  | .ok pa _ =>
    let x := fld m.w2 52 12
    if !isRemote s pa then s
    else if x = 0 then s.flits (pkgOf pa) n
    else (s.flits (pkgOf pa) n).updCore k fun c => match c.flows.get? x with
      | some f => { c with flows := c.flows.put x { f with
          next := (f.next + n) % 2 ^ 32, delivered := if f.delivered = f.next then (f.next + d) % 2 ^ 32 else f.delivered } }
      | none => c
  | _ => s
/-- An ended copy completes once its writes are performed at its SCOPE and its mailbox may be written. -/
def State.cpyDone (s : State) (k : Nat) (m : Cmd) : State :=
  match m.ended with
  | none => s
  | some (prog, f, code) =>
    if s.cmdDue k m || s.mailWaits k m.who (m.mail true) then s
    else
      let n := s.copyFlow k m
      let s := s.updCore k fun c => { c with cp := { c.cp with running := c.cp.running.filter (· ≠ m) } }
      let s := s.finishCmd k true m prog f code (if m.op = 0 then fld m.w2 36 3 else 0)
      match (s.core k).flows.get? n with
      | some x => if code = 0xA && x.grouped then (if (s.group x.group).inc = x.inc && (s.group x.group).state = 2 then s.groupAbort x.group 4 else s) else s
      | none => s
/-- The packets that carry `n` bytes; a copy that names no flow it may use sends none (R212, R422). -/
def packets (n code : Nat) : Nat := if code = 0xD then 0 else (n + 255) / 256
/-- The copy ends with a code, its first `i` bytes moved, `sent` of them sent. -/
def State.cpyEnd (s : State) (k : Nat) (m : Cmd) (i sent code : Nat) : State :=
  let len := if m.bad ≠ 0 then 0 else m.len
  let prog := if code = 0 then (if m.unit = 0 then 0 else (len + m.unit - 1) / m.unit) else if m.unit = 0 then 0 else i / m.unit
  let full := if code = 0 then len else prog * m.unit
  let e0 := if code = 0 && m.bad = 0 then s.cpyLate k m else m
  let cover := s.covers k ((List.range full).map fun i => (s.cpyMove k m i).2)
  let (s, f) := s.cpyRun k m full s.tick (if m.piece = 0 then 0 else len / m.piece) 0 0
  let s := ((s.heal cover).flowUse k m (packets sent code) (packets i code)).ticked
  let e := { e0 with ended := some (prog, f, code) }
  let s := s.updCore k fun c => { c with cp := { c.cp with running := c.cp.running.map fun o => if o = m then e else o }, bufs := moveBufs c e }
  { s with ans := s.ans.filter fun a => a.who ≠ cpyWho k m }.cpyDone k e
/-- COPY_CMD_COMPLETE for running copy `m`: it waits where a walk or a path is missing, and while its context is frozen (R394). -/
def State.runCopy (s : State) (k : Nat) (m : Cmd) : State :=
  if s.halted k then s
  else if m.ended.isSome then s.cpyDone k m
  else if m.bad ≠ 0 then s.cpyEnd k m 0 0 m.bad
  else match s.cpyScan k m m.len 0 with
    | none => if s.aliasOut k m then s.cpyEnd k m 0 0 5 else s.cpyEnd k m m.len m.len 0
    | some (i, .code c) => s.cpyEnd k m i i c
    | some (_, .wait t) => t
    | some (i, .ok _ _) => s.cpyEnd k m i i 0

end Sys2Proof.Machine
end

