-- ==== Sys2Proof/Machine/Message.lean ====
section
/-! DEFINITION. END, YIELD and ALIGN, messages, route tags, tasks, stage queues and actors (majors 0x00, 0x48 to 0x4F; R120, R289 to
R297, R301 to R328). -/
namespace Sys2Proof.Machine

/-! ### END, YIELD, ALIGN (R120, R289, R322) -/

/-- A group boundary at which the firing stands, with its results back: a deferred trap, or `g`. -/
def State.atBoundary (s : State) (g : State → Res) : Res :=
  match s.cur.deferred with
  | t :: ts => .gone ((s.updCur fun r => { r with deferred := ts, now := false }).takeTrap s.turn s.fi t s.cur.pc)
  | [] => g s
def State.allBack (s : State) : Bool := s.cur.unret = 0 && s.cur.waits.isEmpty
/-- END parks for its group's results; a task's end decrements the join counter as a release (R290). -/
def execEndFiring (m : Bool) (s : State) : Out :=
  issue m 4 (.endFiring m) [] (fun s =>
    if !s.allBack then .gone (s.parkFrame s.turn s.fi fun r => { r with ending := true })
    else s.atBoundary fun s =>
      if s.cur.joinc ≠ 0#64 then
        (s.atomic (.endFiring m) s.cur.joinc 8 { rel := true, wide := true } fun v => (some (v + 2 ^ 64 - 1), ())).res fun s _ => .gone (s.endNow s.turn s.fi)
      else .gone (s.endNow s.turn s.fi)) s
/-- YIELD parks; a firing with nothing outstanding takes a trap that is due, or stands at a decision point. -/
def execYield (m : Bool) (s : State) : Out :=
  issue m 4 (.yield m) [] (fun s =>
    let k := s.turn
    let f := s.fi
    let back := s.allBack
    let s := s.updCur fun r => { r with pc := r.pc + 4#64 }
    if back && !s.cur.deferred.isEmpty then s.atBoundary fun s => .gone s
    else .gone ((s.parkFrame k f fun r => { r with yielded := true }).wake k f)) s
/-- Members of the core's gang in its camp, by rank. -/
def Gang.mates (g : Gang) (k : Nat) : List Nat := g.cores.filter fun j => campOf j = campOf k
def State.launchFr (s : State) (k : Nat) : Option Nat := (List.range 9).find? fun f => (s.fr k f).stat ≠ .free && (s.fr k f).src = .launch
/-- The core's launch firing waits at an ALIGN at this address. -/
def State.atAlign (s : State) (k : Nat) (pc : Word) : Bool :=
  match s.launchFr k with
  | some f => (s.fr k f).hold = .align && (s.fr k f).pc = pc
  | none => false
/-- End the ALIGN waits at an address. -/
def State.alignEnd (s : State) (ks : List Nat) (pc : Word) : State :=
  ks.foldl (fun s k => if s.atAlign k pc then (match s.launchFr k with
    | some f => s.updFr k f fun r => { r with hold := .no, expired := true }
    | none => s) else s) s
/-- A member of a gang, resident or pre-empted: its core and its frames. -/
def State.mate (s : State) (g : Gang) (k : Nat) : Option (Core × List Frame) :=
  if (s.core k).inLaunch g.launch then some (s.core k, (List.range 9).map (s.fr k))
  else match s.savedCores.get? (savedKey s.myCore.ctxid k) with
    | some c => if c.inLaunch g.launch then some (c, (s.savedFrames.get (savedKey s.myCore.ctxid k) []).map (·.2)) else none
    | none => none
def Gang.passes (g : Gang) (pc : Word) : Nat := g.aligns.get pc.toNat 0
/-- The leader has ended its launch firing, or passed the ALIGN at this address more often than this member: it is past the wait that this
arrival would join (DEDUCED, log 57). -/
def State.leaderPast (s : State) (g : Gang) (leader : Nat) (pc : Word) : Bool :=
  match s.mate g leader with
  | none => true
  | some (c, fs) => match fs.find? fun r => r.stat ≠ .free && r.src = .launch with
    | none => true
    | some r =>
      let n := match c.gang with | some h => h.passes pc | none => 0
      n + b2n (r.expired && r.hold = .no && r.pc = pc) > g.passes pc
def Gang.passed (g : Gang) (pc : Word) : Gang := { g with aligns := g.aligns.put pc.toNat (g.passes pc + 1) }
def State.alignPass (s : State) : Res :=
  .ok (s.updMine fun c => { c with gang := c.gang.map (·.passed s.cur.pc) })
def execAlign (m : Bool) (n : BitVec 12) (s : State) : Out :=
  issue m 4 (.align m n) [] (fun s =>
    match s.cur.src, s.myCore.gang with
    | .launch, some g =>
      let mates := g.mates s.turn
      let leader := mates.headD 0
      if mates.length < 2 || s.cur.expired then s.alignPass
      else if leader ≠ s.turn && s.leaderPast g leader s.cur.pc then s.alignPass
      else if (mates.all fun k => k = s.turn || s.atAlign k s.cur.pc) || (leader = s.turn && n = 0#12) then
        (s.alignEnd mates s.cur.pc).alignPass
      else .hold s .align
    | _, _ => .ok s) s

/-! ### Messages (R309 to R319) -/

def Msg.hdr0 (g : Msg) : Word :=
  wd (g.ctx * 2 ^ 48 + g.dst * 2 ^ 32 + g.src * 2 ^ 16 + b2n g.auto * 2 ^ 8 + b2n g.reply * 2 ^ 7 + b2n g.rply * 2 ^ 6 + g.tag)
def Msg.hdr1 (g : Msg) : Word := wd (g.rtag * 2 ^ 16 + g.payload.length)
/-- The message of a header and payload. -/
def msgOf (h0 h1 : Word) (payload : List (BitVec 8)) : Msg :=
  { ctx := fld h0 48 16, dst := fld h0 32 13, src := fld h0 16 13, auto := fld h0 8 1 = 1, reply := fld h0 7 1 = 1, rply := fld h0 6 1 = 1,
    tag := fld h0 0 6, rtag := fld h1 16 6, payload := payload }
/-- The bytes of an operand record, captured when the instruction first read them; `mark` names the instruction's kind. Of no bytes nothing is
read or checked (R313). -/
def State.capture (s : State) (i : Instr) (ea : Word) (n mark : Nat) (sp : Straddle) : Got (List (BitVec 8)) :=
  match s.cur.saved with
  | a :: r => if a = mark then .got s (r.map (BitVec.ofNat 8)) else .got s []
  | [] => if n = 0 then .got s [] else s.loadRun i ea ((List.range n).map fun b => (ea + wd b).toNat) 8 n 0 sp State.byteNow
/-- The captured bytes are kept while the instruction waits. -/
def State.kept (s : State) (mark : Nat) (l : List (BitVec 8)) : State := s.updCur fun r => { r with saved := mark :: l.map (·.toNat) }
/-- A record of eight words, read as LD reads (R323, R326). -/
def State.record (s : State) (i : Instr) (ea : Word) : Got (List (BitVec 8)) :=
  s.loadRun i ea ((List.range 64).map fun n => (ea + wd n).toNat) 8 64 0 {} State.byteNow
def Core.affine (c : Core) (n : Nat) : Bool := (c.tag n).kind = .affine

/-- A SEND that waits for an outbox entry keeps the reply slot it has reserved, with its tag (R313). -/
def State.reserved (s : State) (t : Nat) (l : List (BitVec 8)) : State := s.updCur fun r => { r with saved := savResv :: t :: l.map (·.toNat) }
def State.unreserve (s : State) (t : Nat) : State := s.updMine fun c => { c with awaits := c.awaits.erase t }
/-- What a SEND waits for comes in this order: the release, a reply slot, an outbox entry. -/
def execSend (m : Bool) (d a b : BitVec 6) (rlx tr rply : Bool) (rtag tag : BitVec 6) (len : BitVec 32) (s : State) : Out :=
  let i := Instr.send m d a b rlx tr rply rtag tag len
  issue m 12 i [rX a, rX b, rX d] (fun s =>
    let c := s.myCore
    if s.xn a ≥ 4608 then .ok (s.wvar d 1#64)
    else if tag.toNat ≥ 60 || (rply && !c.affine rtag.toNat) then .ok (s.wvar d 2#64)
    else if s.loadWait then .hold s .stall
    else
      let held : Bool := s.cur.saved.headD 0 = savResv
      (if held then Got.got s ((s.cur.saved.drop 2).map (BitVec.ofNat 8)) else s.capture i (s.x b) len.toNat 20 { phys := true }).res fun s l =>
      if !held && !rlx && s.relWaits true 0xFFFF then (s.kept 20 l).relHold
      else if rply && !held && c.replySlots ≥ 8 then .hold (s.kept 20 l) .stall
      else if c.outbox.length ≥ c.obuflim && tr then
        .trap (if held then s.unreserve rtag.toNat else s) ⟨0xB, s.x a, tag.zeroExtend 64, wd c.obuflim⟩
      else
        let s := if rply && !held then s.updMine fun c => { c with awaits := c.awaits ++ [rtag.toNat] } else s
        if c.outbox.length ≥ c.obuflim then .hold (if rply then s.reserved rtag.toNat l else s.kept 20 l) .stall
        else
          let g : Msg := { ctx := c.ctxid, dst := s.xn a, src := s.turn, rply := rply, tag := tag.toNat, rtag := (if rply then rtag.toNat else 0), payload := l }
          .ok ((s.updMine fun c => { c with outbox := c.outbox ++ [(⟨g, false⟩ : OutE)] }).wvar d 0#64)) s
def execSendr (m : Bool) (d b : BitVec 6) (rlx : Bool) (len : BitVec 32) (s : State) : Out :=
  let i := Instr.sendr m d b rlx len
  issue m 12 i [rX b, rX d] (fun s =>
    match s.cur.owes with
    | none => .ok (s.wvar d 5#64)
    | some (src, rtag) =>
      if s.loadWait then .hold s .stall
      else (s.capture i (s.x b) len.toNat 21 { phys := true }).res fun s l =>
      if !rlx && s.relWaits true 0xFFFF then (s.kept 21 l).relHold
      else if s.myCore.outbox.length ≥ 16 then .hold (s.kept 21 l) .stall
      else
        let g : Msg := { ctx := s.myCore.ctxid, dst := src, src := s.turn, reply := true, tag := rtag, payload := l }
        .ok (({ s with replies := s.replies ++ [g] }.updCur fun r => { r with owes := none }).wvar d 0#64)) s
/-- Slot number of a pool offset in the heap (R302). -/
def State.heapSlot (s : State) (k : Nat) (va : Word) : Option Nat :=
  let b := selfBase + (s.core k).heapbase.toNat + 64
  if va.toNat < b || (va.toNat - b) % 320 ≠ 0 || (va.toNat - b) / 320 ≥ s.heapCap k then none else some ((va.toNat - b) / 320)
/-- The sheltered message of a heap slot. -/
def State.heapMsg (s : State) (k n : Nat) : Msg :=
  let o := (s.core k).heapbase.toNat + 64 + 320 * n
  let h1 := wd (s.poolN k (o + 8) 8)
  msgOf (wd (s.poolN k o 8)) h1 (s.poolBytes k (o + 32) (min 256 (fld h1 0 9)))
def Core.freeSlot (c : Core) (lo n : Nat) : Option Nat := ((List.range n).map (· + lo)).find? fun j => (c.inbox.get? j).isNone
/-- A message as the bytes of its slot, and back. -/
def Msg.slot (g : Msg) : List (BitVec 8) := bytesOf 8 g.hdr0.toNat ++ bytesOf 8 g.hdr1.toNat ++ g.payload
def slotMsg (l : List (BitVec 8)) : Msg := msgOf (wd (ofBytes (l.take 8))) (wd (ofBytes ((l.drop 8).take 8))) (l.drop 16)
/-- The slot is read once, then the instruction waits for a request slot (R317). -/
def execSendReplay (m : Bool) (d b c : BitVec 6) (s : State) : Out :=
  issue m 12 (.sendReplay m d b c) [rX b, rX c, rX d] (fun s =>
    let enter (g : Msg) : Res :=
      match s.myCore.freeSlot 0 24 with
      | some j => .ok ((s.updMine fun v => v.inboxPut j g).wvar d 0#64)
      | none => if s.cur.expired || fld (s.x c) 0 48 = 0 then .ok (s.wvar d 3#64) else .hold (s.kept 23 g.slot) .wait
    if s.cur.src ≠ .bivouac then .ok (s.wvar d 4#64)
    else match s.cur.saved with
      | 23 :: l => enter (slotMsg (l.map (BitVec.ofNat 8)))
      | _ => match s.heapSlot s.turn (s.x b) with
        | none => .ok (s.wvar d 6#64)
        | some n => enter (s.heapMsg s.turn n)) s
def msgWord (g : Msg) (o : Nat) : Word :=
  if o = 0x100 then g.hdr0 else if o = 0x108 then g.hdr1 else if o = 0x110 then 1#64
  else if o ≤ 248 then wd (ofBytes ((g.payload.drop o).take 8)) else 0#64
def execMsgld (m : Bool) (d a : BitVec 6) (s : State) : Out :=
  issue m 4 (.msgld m d a) [rX a, rX d] (fun s =>
    if s.xn a % 8 ≠ 0 then .trap s ⟨3, s.x a, w0 (.msgld m d a), 0#64⟩
    else .ok (s.wvar d (match s.cur.msg with | some g => msgWord g (s.xn a) | none => 0#64))) s
def execMsgfree (m : Bool) (s : State) : Out :=
  issue m 4 (.msgfree m) [] (fun s =>
    match s.cur.msg, s.cur.slot with
    | some _, some n => .ok ((s.updMine fun c => { c with inbox := c.inbox.del n }).updCur fun r => { r with msg := none, slot := none })
    | _, _ => .ok s) s

/-! ### Tag control (R321) -/

def Tag.kindNo (t : Tag) : Nat := match t.kind with | .unbound => 0 | .affine => 1 | .actor _ _ _ _ _ => 2
def Tag.word (t : Tag) (limit : Bool) : Word :=
  wd (b2n limit * 2 ^ 16 + t.epri * 2 ^ 10 + t.bpri * 2 ^ 8 + t.kindNo * 2 ^ 6 + b2n t.en * 2 ^ 5 + b2n t.e * 2 ^ 4 + t.h)
/-- Act on tag X[a] bits 5:0: its new state and LIMIT. Tags 60 and 63 do not change. -/
def tagOp (i : Instr) (m : Bool) (d a : BitVec 6) (regs : List Nat) (g : State → Tag → Tag × Bool) (s : State) : Out :=
  issue m 4 i (regs ++ [rX d]) (fun s =>
    let n := fld (s.x a) 0 6
    let t := s.myCore.tag n
    if n = 60 || n = 63 then .ok (s.wvar d (t.word false))
    else
      let (u, l) := g s t
      .ok ((s.updMine fun c => { c with tags := c.tags.put n u }).wvar d (u.word l))) s
def execTagen (m : Bool) (d a : BitVec 6) (s : State) : Out := tagOp (.tagen m d a) m d a [rX a] (fun _ t => ({ t with e := true }, false)) s
def execTagdis (m : Bool) (d a : BitVec 6) (s : State) : Out := tagOp (.tagdis m d a) m d a [rX a] (fun _ t => ({ t with e := false }, false)) s
def execHold (m : Bool) (d a : BitVec 6) (s : State) : Out :=
  tagOp (.hold m d a) m d a [rX a] (fun _ t => if t.h ≥ 15 then (t, true) else ({ t with h := t.h + 1 }, false)) s
def execRelease (m : Bool) (d a : BitVec 6) (s : State) : Out :=
  tagOp (.release m d a) m d a [rX a] (fun _ t => if t.h = 0 then (t, true) else ({ t with h := t.h - 1 }, false)) s
def execSetpri (m : Bool) (d a b : BitVec 6) (s : State) : Out :=
  tagOp (.setpri m d a b) m d a [rX a, rX b] (fun s t => ({ t with bpri := fld (s.x b) 0 2, epri := max t.epri (fld (s.x b) 0 2) }, false)) s

/-! ### Tasks (R290 to R293, R323 to R325) -/

/-- The record's fields that must be aligned (R323). -/
def taskTrap (i : Instr) (ws : List Word) : Option Trap :=
  if fld (ws.getD 0 0#64) 0 2 ≠ 0 then some ⟨3, ws.getD 0 0#64, w0 i, 0#64⟩
  else if fld (ws.getD 1 0#64) 0 3 ≠ 0 then some ⟨3, ws.getD 1 0#64, w0 i, 0#64⟩
  else none
/-- Add to a join counter, if there is one. -/
def State.joinAdd (s : State) (i : Instr) (joinc : Word) (v : Nat) : Got Unit :=
  if joinc = 0#64 then .got s () else s.atomic i joinc 8 {} fun x => (some (x + v), ())
/-- Phases of a SPAWN in `saved`: 31, JOINC: its record is in the outbox; 32, accepted or not, JOINC: the answer is on its way; 33: accepted;
34, JOINC: bounced. -/
def execSpawn (m : Bool) (d a b : BitVec 6) (s : State) : Out :=
  let i := Instr.spawn m d a b
  issue m 12 i [rX a, rX b, rX d] (fun s =>
    match s.cur.saved with
    | [33] => .ok (s.wvar d 1#64)
    | [34, j] => (s.joinAdd i (wd j) (2 ^ 64 - 1)).res fun s _ => .ok (s.wvar d 0#64)
    | 31 :: _ => .hold s .wait
    | 32 :: _ => .hold s .wait
    | _ =>
      if s.xn a ≥ 4608 then .ok (s.wvar d 0#64)
      else (s.record i (s.x b)).res fun s l =>
        let ws := words64 8 l
        match taskTrap i ws with
        | some t => .trap s t
        | none =>
          if s.myCore.replySlots ≥ 8 || s.myCore.outbox.length ≥ 16 then .hold s .stall
          else if s.relWaits true 0xFFFF then s.relHold
          else (s.joinAdd i (ws.getD 1 0#64) 1).res fun s _ =>
            let g : Msg := { kind := .spawn, ctx := s.myCore.ctxid, dst := s.xn a, src := s.turn, rply := true, tag := 62, payload := l, no := s.fi }
            let s := s.updMine fun c => { c with awaits := c.awaits ++ [64], outbox := c.outbox ++ [(⟨g, false⟩ : OutE)] }
            .hold (s.updCur fun r => { r with saved := [31, (ws.getD 1 0#64).toNat] }) .wait) s
def execFork (m : Bool) (d a : BitVec 6) (s : State) : Out :=
  let i := Instr.fork m d a
  issue m 4 i [rX a, rX d] (fun s =>
    (s.record i (s.x a)).res fun s l =>
      let ws := words64 8 l
      match taskTrap i ws with
      | some t => .trap s t
      | none =>
        if s.myCore.deque.length ≥ 64 then .ok (s.wvar d 0#64)
        else if s.relWaits true 0xFFFF then s.relHold
        else (s.joinAdd i (ws.getD 1 0#64) 1).res fun s _ =>
          .ok ((s.updMine fun c => { c with deque := c.deque ++ [(⟨ws, s.turn⟩ : Task)] }).wvar d 1#64)) s
/-- The newest record of a deque, oldest first, that names a counter: its place. -/
def newestFor (l : List Task) (j : Word) : Option Nat :=
  (List.range l.length).reverse.find? fun n => (l.getD n ⟨[], 0⟩).words.getD 1 0#64 = j
/-- x4 to x11 as Variable results. -/
def State.wargs (s : State) (ws : List Word) : State :=
  ((List.range 8).zip ws).foldl (fun s e => s.wvar (BitVec.ofNat 6 (4 + e.1)) e.2) s
def execJoin (m : Bool) (d a b : BitVec 6) (s : State) : Out :=
  let i := Instr.join m d a b
  issue m 4 i ([rX a, rX b, rX d] ++ (List.range 8).map (· + 4)) (fun s =>
    let ea := s.x a
    (s.load i ea 8 0 regLoad).res fun s v =>
      if v = 0 then .ok (s.wvar d 0#64)
      else match newestFor s.myCore.deque ea with
        | some n => (s.atomic i ea 8 {} fun x => (some (x + 2 ^ 64 - 1), ())).res fun s _ =>
          let ws := (s.myCore.deque.getD n ⟨[], 0⟩).words
          .ok (((s.updMine fun c => { c with deque := c.deque.eraseIdx n }).wargs ws).wvar d 1#64)
        | none => if s.cur.expired || fld (s.x b) 0 48 = 0 then .ok (s.wvar d 2#64) else .hold s .wait) s

/-! ### Stage queues (R294 to R297, R326, R327) -/

def SQueue.occ (q : SQueue) : Nat := q.tail - q.head
def SQueue.inRing (q : SQueue) : Nat := q.occ - q.bank.length
/-- Die and unit number of the spill engine of a queue. -/
def spillUnit (id : Nat) : Nat := 10000 + id
inductive QR where
  | done (s : State)
  | wait (s : State)
  | broken (s : State)
def State.breakQ (s : State) (id : Nat) : State := s.setSQueue id { s.squeue id with broken := true }
/-- The spill engine writes record number `n` into its ring slot. -/
def State.ringPut (s : State) (id n : Nat) (l : List (BitVec 8)) : QR :=
  let q := s.squeue id
  match s.unitAcc (id / 768) (spillUnit id) q.ctx (q.ringbase.toNat + 64 * (n % q.ringsize)) needW with
  | .go s pa w => .done (s.unitPut (id / 768) q.ctx pa w l)
  | .wait s => .wait s
  | .fail s _ => .broken (s.breakQ id)
def State.ringPuts (s : State) (id : Nat) : Nat → List (List (BitVec 8)) → QR
  | _, [] => .done s
  | n, l :: r => match s.ringPut id n l with
    | .done s => s.ringPuts id (n + 1) r
    | z => z
/-- Records the spill of a full bank moves (R296). -/
def SQueue.spill (q : SQueue) : Nat := min (max 1 (q.share / 4)) q.ringsize
/-- Pushes the queue has room for (R296): the ring's room where it holds records, else the bank's and what the ring keeps after a spill. -/
def SQueue.room (q : SQueue) : Nat := if q.inRing = 0 then q.share - q.bank.length + (q.ringsize - q.spill) else q.ringsize - q.inRing
/-- Append the record to the ring's tail. -/
def State.ringPush (s : State) (id : Nat) (l : List (BitVec 8)) : QR :=
  let q := s.squeue id
  match s.ringPut id q.tail l with
  | .done s => .done (s.setSQueue id { q with tail := q.tail + 1 })
  | z => z
/-- A push with room (R296). -/
def State.pushQ (s : State) (id : Nat) (l : List (BitVec 8)) : QR :=
  let q := s.squeue id
  if q.inRing = 0 && q.bank.length < q.share then .done (s.setSQueue id { q with bank := q.bank ++ [l], tail := q.tail + 1 })
  else if q.inRing = 0 then
    match s.ringPuts id (q.tail - q.spill) (q.bank.drop (q.bank.length - q.spill)) with
    | .done s => (s.setSQueue id { q with bank := q.bank.take (q.bank.length - q.spill) }).ringPush id l
    | z => z
  else s.ringPush id l
/-- The spill engine reads record number `n` of the ring. -/
def State.ringGets (s : State) (id : Nat) : Nat → Nat → QR ⊕ List (List (BitVec 8))
  | _, 0 => .inr []
  | n, m + 1 =>
    let q := s.squeue id
    match s.unitAcc (id / 768) (spillUnit id) q.ctx (q.ringbase.toNat + 64 * (n % q.ringsize)) needR with
    | .wait s => .inl (.wait s)
    | .fail s _ => .inl (.broken (s.breakQ id))
    | .go s pa w =>
      let pa := dieRead (id / 768) pa w
      if s.poisonedAt pa 64 then .inl (.broken (s.breakQ id))
      else match s.ringGets id (n + 1) m with
        | .inr l => .inr (s.unitBytes pa 64 :: l)
        | z => z
/-- The refill that a pop has started (R296). -/
def State.refillQ (s : State) (id : Nat) : QR :=
  let q := s.squeue id
  match s.ringGets id (q.head + q.bank.length) (min q.inRing (q.share - q.bank.length)) with
  | .inl z => z
  | .inr l => .done (s.setSQueue id { s.squeue id with bank := q.bank ++ l, refill := false })
/-- The queue after a pop that took the bank's oldest record. -/
def SQueue.popped (q : SQueue) (own : Bool) : SQueue :=
  { q with bank := q.bank.drop 1, head := q.head + 1, resvPop := (if own then q.resvPop - 1 else q.resvPop)
           refill := q.refill || (q.inRing ≠ 0 && q.bank.length - 1 ≤ q.share / 2) }
/-- The status that stops a queue instruction before it waits (R326). -/
def State.queueBad (s : State) (id : Nat) : Option Nat :=
  let q := s.squeue id
  if id ≥ 4608 then some 7 else if !q.enable then some 9 else if q.ctx ≠ s.myCore.ctxid then some 8 else if q.broken then some 0xA else none
def State.queueLate (s : State) (i : BitVec 6) (c : BitVec 6) (h : Unit → Res) : Res :=
  let q := s.squeue (s.xn i)
  if s.cur.expired || fld (s.x c) 0 48 = 0 then .trap s ⟨0xC, s.x i, wd (q.head % 2 ^ 32), wd (q.tail % 2 ^ 32)⟩ else h ()
def execQpush (m : Bool) (d a b c : BitVec 6) (s : State) : Out :=
  let i := Instr.qpush m d a b c
  issue m 12 i [rX a, rX b, rX c, rX d] (fun s =>
    let id := s.xn a
    match s.queueBad id with
    | some n => .ok (s.wvar d (wd n))
    | none => (s.capture i (s.x b) 64 22 {}).res fun s l =>
      let q := s.squeue id
      let own := match s.cur.resv with | some v => v.outq = id && v.pushes > 0 | none => false
      if s.relWaits true 0xFFFF then (s.kept 22 l).relHold
      else if !own && q.room ≤ q.resvPush then s.queueLate a c fun _ => .hold (s.kept 22 l) .wait
      else match s.pushQ id l with
        | .wait s => .hold (s.kept 22 l) .wait
        | .broken s => .ok (s.wvar d 0xA#64)
        | .done s =>
          let s := if own then
              let q := s.squeue id
              (s.setSQueue id { q with resvPush := q.resvPush - 1 }).updCur fun r =>
                { r with resv := r.resv.map fun v => { v with pushes := v.pushes - 1 } }
            else s
          .ok (s.wvar d 0#64)) s
/-- The destination of a record, checked as a store by steps 1 to 3 and 6 of R122 and translated (R326). The kind that PAGE shows here is
free. -/
def State.storeReady (s : State) (i : Instr) (ea : Word) (n : Nat) : Got Unit :=
  let as := (List.range n).map fun b => (ea + wd b).toNat
  if s.loadWait then .stop (.hold s .stall)
  else match s.runChecks i ea as 8 n {} needW with
    | .inl t => .stop (.trap s t)
    | .inr ps =>
      if as.any fun o => s.myCore.boardHolds o 1 true then .stop (.hold s .stall)
      else match s.runBuf wrOk ps with
        | some t => .stop (.trap s t)
        | none => match ps.find? (·.2.cell) with
          | some p => .stop (.trap s ⟨7, wd p.1, w0 i, 0#64⟩)
          | none => match ps.find? fun p => !placed p.2 with
            | some (o, _) => .stop (s.ticked.needWalk o (if s.fi = 8 then 4 else (Config.freeWord s.tick).toNat) needW)
            | none => .got s ()
def execQpop (m : Bool) (d a b c : BitVec 6) (s : State) : Out :=
  let i := Instr.qpop m d a b c
  issue m 12 i [rX a, rX b, rX c, rX d] (fun s =>
    let id := s.xn a
    match s.queueBad id with
    | some n => .ok (s.wvar d (wd n))
    | none => (s.storeReady i (s.x b) 64).res fun s _ =>
      let q := s.squeue id
      let own := match s.cur.resv with | some v => v.inq = id && v.pops > 0 | none => false
      if !own && q.occ ≤ q.resvPop then s.queueLate a c fun _ => .hold s .wait
      else match (if q.bank.isEmpty then s.refillQ id else .done s) with
        | .wait s => .hold s .wait
        | .broken s => .ok (s.wvar d 0xA#64)
        | .done s =>
          let q := s.squeue id
          (s.storeRun i (s.x b) 8 (((List.range 64).map fun n => (s.x b + wd n).toNat).zip (q.bank.headD [])) 8 64 {}).res fun s _ =>
            let s := s.setSQueue id (q.popped own)
            let s := if own then s.updCur fun r => { r with resv := r.resv.map fun v => { v with pops := v.pops - 1 } } else s
            .ok (s.wvar d 0#64)) s
def execQstat (m : Bool) (d a : BitVec 6) (s : State) : Out :=
  issue m 12 (.qstat m d a) [rX a, rX d] (fun s =>
    let id := s.xn a
    let q := s.squeue id
    .ok (s.wvar d (if id ≥ 4608 then wd (7 * 2 ^ 56) else
      wd ((if q.ctx ≠ s.myCore.ctxid then 8 else 0) * 2 ^ 56 + b2n q.broken * 2 ^ 49 + b2n q.enable * 2 ^ 48 + q.bank.length * 2 ^ 32 +
        q.occ % 2 ^ 32)))) s

/-! ### Actors (R328) -/

def State.actQueueBad (s : State) (id : Nat) : Option Nat :=
  if id ≥ 4608 then some 7 else if !(s.squeue id).enable then some 9 else if (s.squeue id).ctx ≠ s.myCore.ctxid then some 8 else none
def execActdef (m : Bool) (d a b c : BitVec 6) (prod cons : BitVec 4) (noout : Bool) (tag : BitVec 6) (s : State) : Out :=
  let i := Instr.actdef m d a b c prod cons noout tag
  issue m 12 i ([rX a] ++ (if noout then [] else [rX b]) ++ [rX c, rX d]) (fun s =>
    let n := tag.toNat
    let t := s.myCore.tag n
    if n ≥ 60 then .ok (s.wvar d 2#64)
    else if s.tagBusy s.turn n || !(s.waiting s.turn n).isEmpty || s.myCore.awaits.contains n then .ok (s.wvar d 0xB#64)
    else match (s.actQueueBad (s.xn a)).orElse fun _ => if noout then none else s.actQueueBad (s.xn b) with
      | some k => .ok (s.wvar d (wd k))
      | none =>
        if fld (s.x c) 0 2 ≠ 0 || (s.x c = 0#64 && t.entry = 0#64) then .trap s ⟨3, s.x c, w0 i, 0#64⟩
        else
          let u : Tag := { t with kind := .actor (s.xn a) (if noout then 0 else s.xn b) (cons.toNat + 1) (if noout then 0 else prod.toNat + 1) noout,
                                  entry := (if s.x c = 0#64 then t.entry else s.x c) }
          .ok ((s.updMine fun v => { v with tags := v.tags.put n u }).wvar d 0#64)) s

end Sys2Proof.Machine
end

