-- ==== Sys2Proof/Machine/Sheet.lean ====
section
/-! DEFINITION. The cell instructions (majors 0x50 to 0x53; R239 to R242, R249 to R254, R258 to R271). -/
namespace Sys2Proof.Machine

/-! ### Status words and the checks of T (R260, R261, R449) -/

def stWord (code cell gen detail : Nat) : Word :=
  wd (gen % 2 ^ 32 * 2 ^ 32 + cell % 65536 * 2 ^ 16 + detail % 256 * 2 ^ 8 + code)
/-- A status with the generation its rule names; GEN is open where the rule names none. -/
def State.cellSt (s : State) (code cell detail : Nat) (g : Option Nat) : State × Word :=
  match g with
  | some g => (s, stWord code cell g detail)
  | none => (s.ticked, stWord code cell (Config.freeWord s.tick).toNat detail)
/-- Complete with a status in X[d]. -/
def State.endSt (s : State) (d : BitVec 6) (code cell detail : Nat) (g : Option Nat) : Res :=
  let (s, w) := s.cellSt code cell detail g
  .ok (s.wvar d w)
/-- A sheet as an instruction finds it: its die, the physical address of T, and the bytes from T to the end of its page. -/
structure Sheet where
  die : Nat
  t : Nat
  room : Nat
  /-- The page entry T was reached through. -/
  w : Word := 0#64
  deriving DecidableEq, Repr
def needNone : Bool × Bool × Bool := (false, false, false)
/-- The checks of T at issue, in order, then the page and the directory (R260, R449); `bad` is what BADSHEET does. -/
def State.sheetT (s : State) (i : Instr) (a : BitVec 6) (create : Bool) (bad : State → Res) (h : State → Sheet → Res) : Res :=
  let ta := s.xn a
  if s.acqWait then .hold s .stall
  else if ta ≥ 2 ^ 56 then .trap s ⟨5, s.x a, w0 i, 0#64⟩
  else if ta % 4096 ≠ 0 then .trap s ⟨3, s.x a, w0 i, 0#64⟩
  else if isTsc s.turn || inSelf ta then bad s
  else if inHole ta then .trap s ⟨5, s.x a, w0 i, 0#64⟩
  else match s.tlbLook s.turn s.myCore.ctxid ta with
    | none => s.needWalk ta 0 needNone
    | some (e, _) =>
      let pa := e.pa ta
      let s := s.markAD s.turn s.myCore.ctxid ta false
      match regionOf pa with
      | .main d =>
        if !entCell e.w || !s.isOwn pa then bad s
        else if create then h s ⟨d, pa, e.va + 2 ^ pageBits e.w - ta, e.w⟩
        else match s.sheetE d pa with
          | some x => if x.ctx = s.myCore.ctxid then h s ⟨d, pa, e.va + 2 ^ pageBits e.w - ta, e.w⟩ else bad s
          | none => bad s
      | _ => bad s
def State.badSheet (s : State) (d : BitVec 6) (n : Nat) : Res := s.endSt d 0xC n 0 none
/-- The 64-byte record at X[b] (R239), kept while the instruction waits. -/
def State.cellRecord (s : State) (i : Instr) (b : BitVec 6) : Got (List (BitVec 8)) := s.capture i (s.x b) 64 24 {}

/-! ### Definitions (R239, R262) -/

/-- Pages of a buffer that have no translation yet start a walk; a page that is refused or carries no CELL is bad. -/
inductive PagesR where
  | ok (s : State)
  | bad (s : State)
  | wait (s : State)
def State.cellPages (s : State) : List Nat → PagesR
  | [] => .ok s
  | va :: r =>
    let c := s.myCore.ctxid
    let w := Who.frame s.turn s.fi
    if va ≥ 2 ^ 56 || inSelf va || inHole va then .bad s
    else match s.tlbLook s.turn c va with
      | some (e, _) => if entCell e.w then s.cellPages r else .bad s
      | none => match s.ansFor w c va with
        | some _ => .bad (s.dropAns w c va)
        | none => .wait (s.startWalk w s.turn c va 0 needNone)
/-- An address in each page of a range. -/
def pagesOf (b n : Nat) : List Nat :=
  if n = 0 then [] else (List.range ((b + n - 1) / 4096 - b / 4096 + 1)).map fun i => max b ((b / 4096 + i) * 4096)
def defShape (l : List (BitVec 8)) : Word × Word := ((words64 8 l).getD 2 0#64, (words64 8 l).getD 3 0#64)
/-- The record itself, and the table's page. -/
def defBad (l : List (BitVec 8)) (room n : Nat) : Bool :=
  let (sh, la) := defShape l
  let pitch := fld la 0 20
  fld sh 36 28 ≠ 0 || fld sh 28 4 ≠ 0 || fld sh 12 4 ≠ 0 || fld la 24 40 ≠ 0 || (l.drop 32).any (· ≠ 0#8) ||
    fld sh 0 12 = 0 || fld sh 16 12 = 0 || (pitch ≠ 0 && pitch < packedRow (fld sh 32 4) (fld sh 16 12)) ||
    0x1000 + 128 * (n + 1) > room
/-- The buffers of a record (R239). -/
def State.defBufs (s : State) (l : List (BitVec 8)) (ta cells : Nat) : PagesR :=
  let b0 := ((words64 8 l).getD 0 0#64).toNat
  let b1 := ((words64 8 l).getD 1 0#64).toNat
  let n := shapeBytes (defShape l).1 (defShape l).2
  let tl := 0x1000 + 128 * cells
  if b0 % 64 ≠ 0 || b1 % 64 ≠ 0 || spans b0 n b1 n || spans b0 n ta tl || spans b1 n ta tl then .bad s
  else match s.cellPages (pagesOf b0 n ++ pagesOf b1 n) with
    | .ok s => if !s.straddles s.turn (pagesOf b0 n) && !s.straddles s.turn (pagesOf b1 n) then .ok s else .bad s
    | r => r
/-- The physical pages of a range, as the issuing core translates them. -/
def State.pagesAt (s : State) (b n : Nat) : List (Nat × Nat) :=
  (pagesOf b n).filterMap fun va => match s.tlbLook s.turn s.myCore.ctxid va with
    | some (e, _) => some (va / 4096, e.pa va / 4096)
    | none => none
/-- The directory keeps where a cell's buffers lie (log 136). -/
def State.notePages (s : State) (sh : Sheet) (l : List (BitVec 8)) : State :=
  let b (o : Nat) : Nat := ((words64 8 l).getD o 0#64).toNat
  let n := shapeBytes (defShape l).1 (defShape l).2
  let ps := s.pagesAt (b 0) n ++ s.pagesAt (b 1) n
  s.updSheet sh.die sh.t fun e => { e with pages := (e.pages.filter fun p => !ps.any (·.1 = p.1)) ++ ps }
/-- A fresh input cell whose versions begin at generation `g` (R262). -/
def State.defCell (s : State) (t n g : Nat) (l : List (BitVec 8)) : State :=
  let s := s.seqStore t (dscPa t n) (l.take 32 ++ List.replicate 96 0#8)
  (((s.setDsc t n 0x20 32 32 g).setDsc t n 0x28 32 32 g).setDsc t n 0x28 10 2 1).setDsc t n 0x48 32 32 g
/-- A new sheet at T, replacing one there. -/
def State.newSheet (s : State) (d t va : Nat) (w : Word) : State :=
  let s := s.updDie d fun v => { v with dir := (v.dir.filter fun e => e.pa ≠ t) ++ [({ pa := t, ctx := s.myCore.ctxid, va := va, w := w } : SheetE)] }
  let s := s.seqStore t t (List.replicate 4096 0#8)
  ((s.setHdr t 0 31 1 1).setHdr t 0 0 17 1).seqN t (t + 0x18) 8 (2 ^ 32)
/-- A status that needs no record: ABSENT and SETUP (R262). -/
def State.defLate (s : State) (t n : Nat) : Option Nat :=
  if n = 0 then none
  else if s.setup t then (if n > s.ncells t then some 7 else none)
  else if n ≠ s.ncells t then some 8 else none
def State.define (s : State) (d : BitVec 6) (sh : Sheet) (ta n : Nat) (l : List (BitVec 8)) : Res :=
  let t := sh.t
  if n = 0 then
    if (s.sheetE sh.die t).isNone && (s.die sh.die).dir.length ≥ 4096 then s.endSt d 3 n 0 none
    else (((s.newSheet sh.die t ta sh.w).notePages sh l).defCell t 0 0 l).endSt d 0 n 0 none
  else
    let c := s.ncells t
    let s := (s.notePages sh l).defCell t n (s.opened t) l
    if n = c then (s.setHdr t 0 0 17 (c + 1)).endSt d 0 n 0 none
    else ((s.chains t).writeRanks t).endSt d 0 n 0 none
def execCdef (m : Bool) (d a b : BitVec 6) (n : BitVec 16) (s : State) : Out :=
  let i := Instr.cdef m d a b n
  let n := n.toNat
  issue m 12 i [rX a, rX b, rX d] (fun s =>
    s.sheetT i a (n = 0) (fun s => s.badSheet d n) fun s sh =>
      (s.cellRecord i b).res fun s l =>
        match s.defLate sh.t n with
        | some k => s.endSt d k n 0 none
        | none =>
          if defBad l sh.room n then s.endSt d 5 n 0 none
          else match s.defBufs l (s.xn a) (if n = 0 then 1 else max (s.ncells sh.t) (n + 1)) with
            | .bad s => s.endSt d 5 n 0 none
            | .wait s => .hold (s.kept 24 l) .walk
            | .ok s => s.define d sh (s.xn a) n l) s

/-! ### Bindings (R239, R251 to R253, R263, R264) -/

/-- Precedents a binding record names. -/
def bindPrecs (l : List (BitVec 8)) : List Nat :=
  (List.range (min 8 (nfld (ofBytes ((l.drop 0x18).take 8)) 0 4))).map fun k => ofBytes ((l.drop (0x20 + 2 * k)).take 2)
def bindBad (l : List (BitVec 8)) (cells : Nat) : Bool :=
  let w (n : Nat) : Word := (words64 8 l).getD n 0#64
  let g := w 1
  let o := fld g 0 13
  let np := fld (w 3) 0 4
  fld (w 0) 0 2 ≠ 0 || fld g 13 3 ≠ 0 || fld g 22 2 ≠ 0 || fld g 29 35 ≠ 0 || o ≥ 4608 || fld g 16 6 = 0 || fld g 24 5 = 0 ||
    o % 768 / 24 + fld g 16 6 > 32 || o % 24 + fld g 24 5 > 24 || fld (w 3) 4 60 ≠ 0 || np > 8 ||
    (l.drop (0x20 + 2 * np)).any (· ≠ 0#8) || (bindPrecs l).any (· ≥ cells)
/-- A path of dependants from the cell first on a stack of reversed paths to one of `ends`, searched depth first. -/
def State.findPath (s : State) (t h : Nat) (ends : List Nat) : Nat → List (List Nat) → List Nat → Option (List Nat)
  | 0, _, _ => none
  | _ + 1, [], _ => none
  | k + 1, [] :: r, seen => s.findPath t h ends k r seen
  | k + 1, (c :: p) :: r, seen =>
    if ends.contains c then some (c :: p).reverse
    else if seen.contains c then s.findPath t h ends k r seen
    else s.findPath t h ends k ((s.depsAt t h c).map (· :: c :: p) ++ r) (c :: seen)
/-- Whether a cell is a formula in the graph of `h`. -/
def State.formulaAt (s : State) (t h n : Nat) : Bool :=
  match (s.edits t).filter fun e => e.cell = n && gle e.gen h with
  | [] => s.kind t n = 2
  | e :: r => !(r.foldl (fun a b => if gle a.gen b.gen then b else a) e).unbind
/-- Ranks once cell `n` is a formula with precedents `ps`, in the graph of `h`. -/
def State.ranksWith (s : State) (t h n : Nat) (ps : List Nat) : Nat → List Nat → List Nat
  | 0, rk => rk
  | k + 1, rk =>
    let r2 := (List.range (s.ncells t)).map fun c =>
      if c = n then 1 + (ps.map fun p => rk.getD p 0).foldl max 0
      else if s.formulaAt t h c then 1 + ((s.precsAt t h c).map fun p => rk.getD p 0).foldl max 0 else 0
    if r2 = rk then rk else s.ranksWith t h n ps k r2
def State.rankBad (s : State) (t h n : Nat) (ps : List Nat) : Bool :=
  (s.ranksWith t h n ps 4200 (List.replicate (s.ncells t) 0)).any (· > 4095)
/-- No edit can be staged now: four generations unfinished, or no slot. -/
def State.editBusy (s : State) (t : Nat) : Bool := s.unfinished t ≥ 4 || (s.freeEdit t).isNone
/-- Stage an edit for the generation it opens (R252), or apply it in setup (R240): the status. -/
def State.edit (s : State) (d : BitVec 6) (sh : Sheet) (n : Nat) (l : List (BitVec 8)) (named : List Nat) : Res :=
  let t := sh.t
  if s.setup t then (s.applyBind t n l).endSt d 0 n 0 none
  else match s.freeEdit t with
    | none => s.endSt d 3 n 0 none
    | some k =>
      if s.unfinished t ≥ 4 then s.endSt d 3 n 0 none
      else
        let h := gnext (s.opened t)
        let b := t + 0x100 + 128 * k
        let s := (s.seqStore t b l).seqN t (b + 0x40) 8 (h * 2 ^ 32 + 2 ^ 31 + n)
        (s.openGen sh.die t named none).endSt d 0 n 0 (some h)
def execCbind (m : Bool) (d a b : BitVec 6) (n : BitVec 16) (s : State) : Out :=
  let i := Instr.cbind m d a b n
  let n := n.toNat
  issue m 12 i [rX a, rX b, rX d] (fun s =>
    s.sheetT i a false (fun s => s.badSheet d n) fun s sh =>
      (s.cellRecord i b).res fun s l =>
        let t := sh.t
        let h := s.opened t
        if n ≥ s.ncells t then s.endSt d 7 n 0 none
        else if bindBad l (s.ncells t) then s.endSt d 5 n 0 none
        else match s.findPath t h (bindPrecs l) sheetFuel [[n]] [] with
          | some p => .trap (s.faultRec t h n 8 0#64 (p.take 8)) ⟨0x10, s.x a, wd n, wd (min 8 p.length)⟩
          | none =>
            if s.rankBad t h n (bindPrecs l) then s.endSt d 4 n 0 none else s.edit d sh n l [n]) s
def execCunb (m : Bool) (d a : BitVec 6) (n : BitVec 16) (s : State) : Out :=
  let i := Instr.cunb m d a n
  let n := n.toNat
  issue m 12 i [rX a, rX d] (fun s =>
    s.sheetT i a false (fun s => s.badSheet d n) fun s sh =>
      if n ≥ s.ncells sh.t then s.endSt d 7 n 0 none
      else if !s.formulaAt sh.t (s.opened sh.t) n then s.endSt d 6 n 0 none
      else s.edit d sh n (List.replicate 64 0#8) []) s

/-! ### Reading and storing (R249, R250, R265, R266) -/

/-- The limit in X[c] has passed, or the one check it allows is made (R230, R260). -/
def State.late (s : State) (c : BitVec 6) : Bool := s.cur.expired || fld (s.x c) 0 48 = 0
/-- The live pin slot a handle names (R249). -/
def State.pinOf (s : State) (t : Nat) (h : Word) : Option Nat :=
  let p := fld h 32 4
  let w := s.hdr t (0x20 + 8 * p)
  if fld h 36 12 = 0 && fld w 32 1 = 1 && fld w 48 16 = fld h 48 16 && fld w 0 32 = fld h 0 32 then some p else none
def pinTrap (s : State) (a : BitVec 6) (gen : Nat) : Trap := ⟨0xE, s.x a, wd gen, 0#64⟩
/-- A generation up to `g` has still to give the cell a version (R250). -/
def State.cellWaits (s : State) (t n g : Nat) : Bool :=
  (List.range (s.unfinished t)).any fun i =>
    let p := (s.done t + 1 + i) % 2 ^ 32
    gle p g && s.staleFor t n p
/-- CLD ends with an address in X[d] and a status in X[e]. -/
def State.endCld (s : State) (d e : BitVec 6) (addr : Word) (code n detail : Nat) (g : Option Nat) : Res :=
  let (s, w) := s.cellSt code n detail g
  .ok ((s.wvar d addr).wvar e w)
def execCld (m : Bool) (d a b e c : BitVec 6) (n : BitVec 16) (s : State) : Out :=
  let i := Instr.cld m d a b e c n
  let n := n.toNat
  issue m 12 i [rX a, rX b, rX c, rX d, rX e] (fun s =>
    s.sheetT i a false (fun s => s.endCld d e 0#64 0xC n 0 none) fun s sh =>
      let t := sh.t
      let h := s.x b
      let taken := match s.cur.saved with | [41, g] => some g | _ => none
      if taken = none && h ≠ 0#64 && s.pinOf t h = none then .trap s (pinTrap s a (fld h 0 32))
      else
        let g := taken.getD (if h ≠ 0#64 then fld h 0 32 else s.opened t)
        if n ≥ s.ncells t then s.endCld d e 0#64 7 n 0 none
        else if s.setup t then s.endCld d e 0#64 8 n 0 none
        else if glt g (fld (s.dsc t n 0x48) 32 32) then s.endCld d e 0#64 7 n 0 none
        else if s.cellWaits t n g then
          (if s.late c then s.endCld d e 0#64 2 n 0 none else .hold (s.updCur fun r => { r with saved := [41, g] }) .wait)
        else match s.errAt sh.die t n g with
          | some r => s.endCld d e 0#64 1 n r none
          | none =>
            if s.poisonedFor sh.die t n g then .trap s ⟨0x11, (s.bufAt t n g).getD (s.frontBuf t n), 1#64, wd n⟩
            else match s.bufAt t n g with
              | none => .trap s (pinTrap s a (fld h 0 32))
              | some addr => s.endCld d e addr 0 n 0 (some g)) s

/-- Outcome of CST's transfer (R266). -/
inductive CstR where
  | done (s : State)
  | wait (s : State)
  | fail (s : State) (code : Nat)
/-- Transfer the tile at `src` to `dst` as one copy of the issuing core. -/
def State.cstCopy (s : State) (src dst : Word) (len : Nat) : CstR :=
  let k := s.turn
  let m0 : Cmd := { op := 0, w0 := src, w1 := dst, w2 := wd len, w3 := 0#64, who := .regs, seq := 65536 + s.fi, own := true }
  let m := s.cpyFix k m0
  if s.myCore.copies.length ≥ 16 || s.myCore.copies.any (cpyClash · m) then .wait s
  else match s.cpyBad k m with
    | some b => .fail s b.code
    | none =>
      let drop (s : State) : State := { s with ans := s.ans.filter fun a => a.who ≠ cpyWho k m }
      match s.cpyScan k m len 0 with
      | some (_, .wait s) => .wait s
      | some (i, .code c) => .fail (drop (s.cpyRun k m (i / 4096 * 4096) s.tick len 0 0).1.ticked) c
      | some (_, .ok _ _) => .wait s
      | none =>
        let s := drop (s.cpyRun k m len s.tick len 0 0).1
        .done (s.updMine fun c => { c with bufs := m.drains.foldl (fun b j => b.put j { b.get j {} with state := 0 }) c.bufs })
/-- Another CST has a transfer in the cell's back buffer. -/
def State.cstOther (s : State) (t n : Nat) : Bool :=
  s.frames.l.any fun e => e.1 ≠ 32 * s.turn + s.fi && (match e.2.saved with
    | [40, u, m] => u = t && m = n
    | [42, _, _, u, m] => u = t && m = n
    | _ => false)
/-- Replicas have still to take bytes of this firing's transfer: a CST is a release at .pkg (R259). -/
def State.cstDue (s : State) : Bool := s.rdup.any fun r => r.core = s.turn && r.seq = some (65536 + s.fi)
/-- A CST whose limit has passed expires; another waits. -/
def State.cstLate (s : State) (d c : BitVec 6) (n : Nat) (saved : List Nat) : Res :=
  if s.late c then s.endSt d 2 n 0 none else .hold (s.updCur fun r => { r with saved := saved }) .wait
/-- The opening of a CST whose transfer is done (R241, R266). -/
def State.cstOpen (s : State) (d c : BitVec 6) (sh : Sheet) (n : Nat) : Res :=
  if s.unfinished sh.t < 4 && !s.cstDue then
    let h := gnext (s.opened sh.t)
    (s.openGen sh.die sh.t (s.depsAt sh.t h n) (some n)).endSt d 0 n 0 (some h)
  else s.cstLate d c n [40, sh.t, n]
/-- A CST in setup ends the poisoned state of its cell (R256). -/
def State.cured (s : State) (t n : Nat) : State := if s.cellState t n = 4 then s.setDsc t n 0x28 12 3 0 else s
/-- The end of a CST in setup, which opens nothing and ends a poisoned state (R256, R266). -/
def State.cstSetup (s : State) (d c : BitVec 6) (t n : Nat) : Res :=
  if s.cstDue then s.cstLate d c n [43, t, n]
  else (s.cured t n).endSt d 0 n 0 (some (s.opened t))
def State.cstStore (s : State) (d b c : BitVec 6) (sh : Sheet) (n : Nat) : Res :=
  let t := sh.t
  let setup := s.setup t
  if s.cur.saved = [43, t, n] then s.cstSetup d c t n
  else if s.cur.saved = [40, t, n] then s.cstOpen d c sh n
  else if !setup && (!s.backFree t n || s.cstOther t n || s.cellState t n = 2) then s.cstLate d c n []
  else match s.cstCopy (s.x b) (if setup then s.frontBuf t n else s.backBuf t n) (s.bufBytes t n) with
    | .wait s => s.cstLate d c n []
    | .fail s code => s.endSt d 0xD n code none
    | .done s => if setup then s.cstSetup d c t n else s.cstOpen d c sh n
def execCst (m : Bool) (d a b c : BitVec 6) (n : BitVec 16) (s : State) : Out :=
  let i := Instr.cst m d a b c n
  let n := n.toNat
  issue m 12 i [rX a, rX b, rX c, rX d] (fun s =>
    s.sheetT i a false (fun s => s.badSheet d n) fun s sh =>
      if s.relWaits true 0xFFFF then s.relHold
      else if n ≥ s.ncells sh.t then s.endSt d 7 n 0 none
      else if s.formulaAt sh.t (s.opened sh.t) n then s.endSt d 6 n 0 none
      else if (s.cur.fm.map (·.t)) = some sh.t then s.endSt d 0xA n 0 none
      else s.cstStore d b c sh n) s

/-! ### Snapshots, control and status (R249, R267 to R269) -/

def handleOf (p serial gen : Nat) : Word := wd (serial * 2 ^ 48 + p * 2 ^ 32 + gen)
def execCsnap (m : Bool) (d a e : BitVec 6) (s : State) : Out :=
  let i := Instr.csnap m d a e
  issue m 12 i [rX a, rX d, rX e] (fun s =>
    s.sheetT i a false (fun s => s.endCld d e 0#64 0xC 0 0 none) fun s sh =>
      let t := sh.t
      if s.setup t then s.endCld d e 0#64 8 0 0 none
      else match (List.range 16).find? fun p => fld (s.hdr t (0x20 + 8 * p)) 32 1 = 0 with
        | none => s.endCld d e 0#64 0xB 0 0 none
        | some p =>
          let serial := (fld (s.hdr t (0x20 + 8 * p)) 48 16 + 1) % 65536
          let g := s.opened t
          (s.seqN t (t + 0x20 + 8 * p) 8 (serial * 2 ^ 48 + 2 ^ 32 + g)).endCld d e (handleOf p serial g) 0 0 0 (some g)) s
/-- The release follows the firing's earlier loads (R259). On BADSHEET the status has no register to go to. -/
def execCunsnap (m : Bool) (a b : BitVec 6) (s : State) : Out :=
  let i := Instr.cunsnap m a b
  issue m 12 i [rX a, rX b] (fun s =>
    s.sheetT i a false (fun s => .ok s) fun s sh =>
      if s.cur.waits.any (fun w => match w.kind with | .waita _ _ _ _ _ _ => true | _ => false) then .hold s .stall
      else match s.pinOf sh.t (s.x b) with
        | none => .trap s (pinTrap s a (fld (s.x b) 0 32))
        | some p => .ok (s.setHdr sh.t (0x20 + 8 * p) 32 1 0)) s
/-- CGEN on a sheet: BADSHEET, else `h`. -/
def cgenI (i : Instr) (m : Bool) (regs : List Nat) (d a : BitVec 6) (h : State → Sheet → Res) (s : State) : Out :=
  issue m 12 i (regs ++ [rX d]) (fun s => s.sheetT i a false (fun s => s.badSheet d 0) h) s
/-- Leave setup: generation 1 opens with every formula cell stale and every input at generation 1 (R240). -/
def State.startSheet (s : State) (d t : Nat) : State :=
  let s := (s.setHdr t 0 31 1 0).setHdr t 8 32 32 1
  let s := (List.range (s.ncells t)).foldl (fun s n =>
    if s.kind t n = 2 then (s.setDsc t n 0x28 12 3 1).setDsc t n 0x28 32 32 1
    else
      let s := (s.setDsc t n 0x20 32 32 1).setDsc t n 0x28 32 32 1
      if s.cellState t n = 4 then s.poisonFront d t n else s) s
  s.settle d t sheetFuel
def execCgenStart (m : Bool) (d a : BitVec 6) (s : State) : Out :=
  cgenI (.cgenStart m d a) m [rX a] d a (fun s sh =>
    if s.setup sh.t then (s.startSheet sh.die sh.t).endSt d 0 0 0 (some 1) else s.endSt d 8 0 0 none) s
def execCgenHold (m : Bool) (d a b : BitVec 6) (s : State) : Out :=
  cgenI (.cgenHold m d a b) m [rX a, rX b] d a (fun s sh =>
    ((s.setHdr sh.t 0x10 15 1 1).setHdr sh.t 0x10 0 12 (fld (s.x b) 0 12)).endSt d 0 0 0 none) s
def execCgenRelease (m : Bool) (d a : BitVec 6) (s : State) : Out :=
  cgenI (.cgenRelease m d a) m [rX a] d a (fun s sh => (s.setHdr sh.t 0x10 15 1 0).endSt d 0 0 0 none) s
def execCgenPinlim (m : Bool) (d a b : BitVec 6) (s : State) : Out :=
  cgenI (.cgenPinlim m d a b) m [rX a, rX b] d a (fun s sh =>
    if fld (s.x b) 0 48 = 0 then s.endSt d 5 0 0 none
    else (s.seqN sh.t (sh.t + 0x18) 8 (fld (s.x b) 0 48)).endSt d 0 0 0 none) s
def execCgenWaitgen (m : Bool) (d a b c : BitVec 6) (s : State) : Out :=
  cgenI (.cgenWaitgen m d a b c) m [rX a, rX b, rX c] d a (fun s sh =>
    if gle (fld (s.x b) 0 32) (s.done sh.t) then s.endSt d 0 0 0 none
    else if s.late c then s.endSt d 2 0 0 none else .hold s .wait) s
/-- `sel`: 0 a cell's double word 0x28, 1 header 0x008, 2 a double word of the fault record. -/
def State.cstat (s : State) (t n sel : Nat) : Word :=
  match sel with
  | 0 => if n < s.ncells t then s.dsc t n 0x28 else 0#64
  | 1 => s.hdr t 8
  | _ => if n < 8 then s.hdr t (0xC0 + 8 * n) else 0#64
def execCstat (m : Bool) (d a : BitVec 6) (n : BitVec 16) (sel : BitVec 4) (s : State) : Out :=
  let i := Instr.cstat m d a n sel
  issue m 12 i [rX a, rX d] (fun s =>
    s.sheetT i a false (fun s => .ok (s.wvar d 0#64)) fun s sh => .ok (s.wvar d (s.cstat sh.t n.toNat sel.toNat))) s

/-! ### Formula firings (R246, R259, R270, R271) -/

/-- The firing's formula before its CCOMMIT. -/
def Frame.computing (r : Frame) : Option Formula := match r.fm with | some fm => if fm.committed then none else some fm | none => none
def State.cprec (s : State) (fm : Formula) (k : Nat) : Word :=
  if k = 8 then s.backBuf fm.t fm.cell
  else if k < s.nprec fm.t fm.cell then (s.bufAt fm.t (s.prec fm.t fm.cell k) fm.gen).getD 0#64
  else 0#64
def execCprec (m : Bool) (d a : BitVec 6) (s : State) : Out :=
  issue m 4 (.cprec m d a) [rX a, rX d] (fun s =>
    .ok (s.wvar d (match s.cur.computing with | some fm => s.cprec fm (s.xn a) | none => 0#64))) s
/-- A member's success; the last one commits the cell (R246). -/
def State.memberCommit (s : State) (d : Nat) (fm : Formula) : State :=
  if s.cellState fm.t fm.cell = 2 && s.sgen fm.t fm.cell = fm.gen then
    let s := s.updSheet d fm.t fun e => { e with commits := e.commits ++ [(fm.cell, fm.gen, fm.rank)] }
    match s.sheetE d fm.t with
    | some e => if (e.commits.filter fun c => c.1 = fm.cell && c.2.1 = fm.gen).length ≥ fm.members then s.commitCell d fm.t fm.cell fm.gen else s
    | none => s
  else s
def execCcommit (m : Bool) (d a : BitVec 6) (s : State) : Out :=
  issue m 4 (.ccommit m d a) [rX a, rX d] (fun s =>
    match s.cur.computing with
    | none =>
      let w := Config.freeWord s.tick
      .ok (s.ticked.wvar d (stWord 9 (fld w 32 16) (fld w 0 32) 0))
    | some fm =>
      if s.acqWait then .hold s .stall
      else if s.relWaits true 0xFFFF then s.relHold
      else if s.cur.cps.open_ ≠ 0 then .hold s .wait
      else
        let dd := sheetDie fm.t
        let code := fld (s.x a) 0 8
        let s := s.updCur fun r => { r with fm := r.fm.map fun f => { f with committed := true } }
        let s := if code ≠ 0 then s.cellFail fm 2 (wd code) else s.memberCommit dd fm
        match (if s.staleFor fm.t fm.cell fm.gen then none else s.errAt dd fm.t fm.cell fm.gen) with
        | some r => s.endSt d 1 fm.cell r (some fm.gen)
        | none => s.endSt d 0 fm.cell 0 (some fm.gen)) s

end Sys2Proof.Machine
end

