-- ==== Sys2Proof/Machine/Attention.lean ====
section
/-! DEFINITION. Key-value spaces, the free-list engine and the Lantern (majors 0x54 to 0x58; R329 to R352). -/
namespace Sys2Proof.Machine

/-! ### The free-list engine (R336, R337) -/

def freeUnit (d : Nat) : Nat := 2000 + d
/-- What a unit's access to memory gives: bytes or room to go on, a wait, or a kind of MEMFAULT (R335). -/
inductive UMem (α : Type) where
  | got (s : State) (v : α)
  | wait (s : State)
  | fault (s : State) (kind : Nat)
/-- Stores of die `d`'s units that have still to reach a replica (R210, R211). -/
def State.unitDue (s : State) (d : Nat) : Bool := s.rdup.any fun r => r.core = unitHart d
/-- Pushes a unit's release at .pkg waits for (R202, R351). -/
def State.unitRel (s : State) (d : Nat) : Bool := s.pushesDue (unitHart d) d true
/-- One byte a unit reaches for the firing in frame `f` of core `k`: its place. A remote access waits for a path until the firing's limit
has passed, a read waits for the unit's own stores to replicas, and a write for the line's acknowledgements (R210, R335, R419). -/
def State.unitByte (s : State) (d u ctx k f va : Nat) (needs : Bool × Bool × Bool) : UMem (Nat × Word) :=
  match s.unitAcc d u ctx va needs with
  | .wait s => .wait s
  | .fail s kind => .fault s kind
  | .go t pa w =>
    if isRemote s pa && !s.pathUp then
      (if (s.fr k f).expired then .fault s 4 else .wait (s.updFr k f (·.unitFar va (pkgOf pa))))
    else if needs.1 && s.poisonedAt (dieRead d pa w) 1 then .fault s 3
    else if (needs.1 && entRdup w && s.unitDue d) || (needs.2.1 && s.lineHeld pa) then .wait s
    else .got t (pa, w)
/-- The places of some bytes, marked as used, or what the unit does instead. -/
def State.unitPlaces (s : State) (d u ctx k f : Nat) (needs : Bool × Bool × Bool) : List Nat → UMem (List (Nat × Word))
  | [] => .got s []
  | va :: r => match s.unitByte d u ctx k f va needs with
    | .got s p => (match s.unitPlaces d u ctx k f needs r with
      | .got s l => .got s (p :: l)
      | .wait s => .wait s
      | .fault s k => .fault s k)
    | .wait s => .wait s
    | .fault s k => .fault s k
/-- Translations alone, as LNCOMMIT checks them before it writes (R349). -/
def State.unitXlats (s : State) (d u ctx : Nat) (needs : Bool × Bool × Bool) : List Nat → UMem Unit
  | [] => .got s ()
  | va :: r => match s.unitAcc d u ctx va needs with
    | .go _ _ _ => s.unitXlats d u ctx needs r
    | .wait s => .wait s
    | .fail s kind => .fault s kind
def addrs (b n : Nat) : List Nat := (List.range n).map (b + ·)
def State.readPlaces (s : State) (d : Nat) (ps : List (Nat × Word)) : List (BitVec 8) := ps.map fun p => s.byteNow (dieRead d p.1 p.2)
/-- One element of a unit's store: to another package as one numbered packet that is answered (R213), else as any store of the unit. -/
def State.unitEl (s : State) (d ctx pa : Nat) (w : Word) (l : List (BitVec 8)) : State :=
  let t := pkgOf pa
  if isRemote s pa && !entRdup w then { (s.flits t 1).unitStore pa l with peers := s.peers.put t ((s.peers.get t {}).count false) }
  else s.unitPut d ctx pa w l
/-- Write elements of `u` bytes at places a unit has reached, one place for each byte. -/
def State.writePlaces (s : State) (d ctx u : Nat) (ps : List (Nat × Word)) (l : List (BitVec 8)) : State :=
  (List.range (l.length / u)).foldl (fun s i =>
    let p := ps.getD (u * i) (0, 0#64)
    s.unitEl d ctx p.1 p.2 ((l.drop (u * i)).take u)) s

/-- One step of a die's list: the entry read, or a status. -/
inductive FlR where
  | got (s : State) (p : Nat)
  | code (s : State) (c kind : Nat)
  | wait (s : State)
def State.flBad (s : State) (d ctx : Nat) : Option Nat :=
  let l := (s.die d).fl
  if !l.enable then some 0x11 else if l.ctx ≠ ctx then some 0x10 else none
/-- The entry a pop takes for the firing in frame `f` of core `k`; the pop itself lowers TOP. -/
def State.flPeek (s : State) (d ctx k f : Nat) : FlR :=
  let l := (s.die d).fl
  match s.flBad d ctx with
  | some c => .code s c 0
  | none =>
    if l.top = 0 then .code s 0xD 0
    else match s.unitPlaces d (freeUnit d) ctx k f needR (addrs (l.stack.toNat + 4 * (l.top - 1)) 4) with
      | .got s ps => .got s (ofBytes (s.readPlaces d ps))
      | .wait s => .wait s
      | .fault s j => .code s 0x14 j
def State.flDrop (s : State) (d : Nat) : State := s.updDie d fun v => { v with fl := { v.fl with top := v.fl.top - 1 } }
/-- Push a page number on a die's list for a firing: the state after it, or a status. -/
inductive FlW where
  | done (s : State)
  | code (s : State) (c kind : Nat)
  | wait (s : State)
def State.flPush (s : State) (d ctx k f p : Nat) : FlW :=
  let l := (s.die d).fl
  match s.flBad d ctx with
  | some c => .code s c 0
  | none =>
    if p ≥ l.cap then .code s 0xF 0
    else if l.top = l.cap then .code s 0xE 0
    else match s.unitPlaces d (freeUnit d) ctx k f needW (addrs (l.stack.toNat + 4 * l.top) 4) with
      | .got s ps => .done ((s.writePlaces d ctx 4 ps (bytesOf 4 p)).updDie d fun v => { v with fl := { v.fl with top := v.fl.top + 1 } })
      | .wait s => .wait s
      | .fault s j => .code s 0x14 j
def execFlpop (m : Bool) (d a : BitVec 6) (s : State) : Out :=
  issue m 4 (.flpop m d a) [rX a, rX d] (fun s =>
    if s.acqWait then .hold s .stall
    else if s.xn a ≥ 6 then .ok (s.wvar d 0x12#64)
    else match s.flPeek (s.xn a) s.myCore.ctxid s.turn s.fi with
      | .code s c k => .ok (s.wvar d (wd (c + k * 256)))
      | .wait s => .hold s .wait
      | .got s p => .ok ((s.flDrop (s.xn a)).wvar d (wd (p * 2 ^ 32)))) s
def execFlpush (m : Bool) (d a b : BitVec 6) (s : State) : Out :=
  issue m 4 (.flpush m d a b) [rX a, rX b, rX d] (fun s =>
    if s.loadWait then .hold s .stall
    else if s.xn a ≥ 6 then .ok (s.wvar d 0x12#64)
    else if s.relWaits true 0xFFFF then s.relHold
    else match s.flPush (s.xn a) s.myCore.ctxid s.turn s.fi (fld (s.x b) 0 32) with
      | .code s c k => .ok (s.wvar d (wd (c + k * 256)))
      | .wait s => .hold s .wait
      | .done s => .ok (s.wvar d 0#64)) s

/-! ### Descriptors and the cairn area (R329 to R334) -/

structure Kv where
  kvd : Word
  d : Nat
  qtag : Nat
  nslot : Nat
  satdef : Nat
  cairn : Nat
  slots : Nat
  deriving DecidableEq, Repr
/-- The stride P of a page. -/
def Kv.p (v : Kv) : Nat := 64 + 32 * v.d
/-- A header as numbers, kept while an instruction waits, and back. -/
def Kv.pack (v : Kv) : List Nat := [v.kvd.toNat, v.d, v.qtag, v.nslot, v.satdef, v.cairn, v.slots]
def kvUnpack (l : List Nat) : Kv :=
  let g (n : Nat) : Nat := l.getD n 0
  { kvd := wd (g 0), d := g 1, qtag := g 2, nslot := g 3, satdef := g 4, cairn := g 5, slots := g 6 }
def kvOf (kvd : Word) (l : List (BitVec 8)) : Kv :=
  let w (n : Nat) : Word := (words64 8 l).getD n 0#64
  { kvd := kvd, d := fld (w 0) 0 8, qtag := fld (w 0) 8 6, nslot := fld (w 0) 16 7, satdef := fld (w 0) 24 1,
    cairn := fld (w 1) 0 20, slots := fld (w 1) 32 20 }
/-- The cairn area and the slots of a space lie in a core's scratchpad (R331). -/
def kvFits (w : Word) (v : Kv) : Bool := inScratch w v.cairn 4160 && (v.nslot = 0 || inScratch w v.slots (v.nslot * v.p))
def kvBad (c : Core) (l : List (BitVec 8)) (v : Kv) : Bool :=
  let w (n : Nat) : Word := (words64 8 l).getD n 0#64
  fld (w 0) 14 2 ≠ 0 || fld (w 0) 23 1 ≠ 0 || fld (w 0) 25 39 ≠ 0 || fld (w 1) 20 12 ≠ 0 || fld (w 1) 52 12 ≠ 0 ||
    (l.drop 0x18).any (· ≠ 0#8) || !(v.d = 64 || v.d = 128) || v.qtag ≥ 60 || v.nslot > 64 || v.cairn % 64 ≠ 0 || v.slots % 64 ≠ 0 ||
    !kvFits c.partw v
/-- Read the header at X[a] (R331). -/
def State.kv (s : State) (i : Instr) (a : BitVec 6) (bad : State → Res) (h : State → Kv → Res) : Res :=
  (s.loadRun i (s.x a) (addrs (s.xn a) 64) 64 64 0 {} State.byteNow).res fun s l =>
    let v := kvOf (s.x a) l
    if kvBad s.myCore l v then bad s else h s v
/-- The ring home of a hash. -/
def State.ring (s : State) (i : Instr) (v : Kv) (hash : Nat) : Got Nat :=
  s.load i (v.kvd + 0x40#64 + wd (2 * (hash / 2 ^ 52))) 2 0 regLoad
def kvHash (key : Nat) : Nat := (mix64 (wd key)).toNat
def cairnOff (v : Kv) (n : Nat) : Nat := v.cairn + 0x40 + 16 * n
inductive Probe where
  | found (n : Nat)
  | empty (n : Nat)
  | full
  deriving DecidableEq, Repr
def State.probeFrom (s : State) (k : Nat) (v : Kv) (key : Nat) : Nat → Nat → Probe
  | 0, _ => .full
  | j + 1, n =>
    if fld (wd (s.poolN k (cairnOff v n + 8) 8)) 62 2 = 0 then .empty n
    else if s.poolN k (cairnOff v n) 8 = key then .found n
    else s.probeFrom k v key j ((n + 1) % 256)
/-- R334. -/
def State.probe (s : State) (k : Nat) (v : Kv) (key : Nat) : Probe := s.probeFrom k v key 256 (kvHash key % 256)
def State.cairnW (s : State) (k : Nat) (v : Kv) (n : Nat) : Word := wd (s.poolN k (cairnOff v n + 8) 8)
def State.setCairn (s : State) (k : Nat) (v : Kv) (n key w : Nat) : State :=
  (s.poolStore k (cairnOff v n) (bytesOf 8 key)).poolStore k (cairnOff v n + 8) (bytesOf 8 w)
/-- The lowest free slot of a core's area. -/
def State.freePage (s : State) (k : Nat) (v : Kv) : Option Nat :=
  (List.range v.nslot).find? fun n => nfld (s.poolN k v.cairn 8) n 1 = 1
def State.setFree (s : State) (k : Nat) (v : Kv) (n : Nat) (free : Bool) : State :=
  let w := s.poolN k v.cairn 8
  s.poolStore k v.cairn (bytesOf 8 (if free then w ||| 2 ^ n else w - nfld w n 1 * 2 ^ n))
/-- The count of live entries in the area's header changes (R333). -/
def State.liveAdd (s : State) (k : Nat) (v : Kv) (n : Nat) : State :=
  s.poolStore k (v.cairn + 8) (bytesOf 8 ((s.poolN k (v.cairn + 8) 8 + n) % 2 ^ 64))
/-- Address of the page of a KIND 1 or KIND 2 entry (R333). -/
def State.pageVa (s : State) (k : Nat) (v : Kv) (kind loc : Nat) : Nat :=
  if kind = 1 then selfBase + v.slots + loc * v.p
  else ((s.die (dieOf k)).fl.vbase.toNat + loc * (s.die (dieOf k)).fl.stride) % 2 ^ 64
/-- A key of a space is on its way to another core (R342). -/
def Core.inTransit (c : Core) (v : Kv) (key : Nat) : Bool := c.moving.any fun x => x.1 = v.cairn && x.2.1 = key
def stLoc (code loc : Nat) : Word := wd (loc * 2 ^ 32 + code)

/-! ### KAPPEND (R338) -/

/-- 2^e times a value. -/
def Fp.scaleE : Fp → Int → Fp
  | .num n q, e => .num n (q.scale e)
  | x, _ => x
def Fp.mag : Fp → Q
  | .num _ q => q.abs
  | _ => Q.int 0
/-- The scale kt of a token. -/
def tokScale (xs : List Fp) : Int :=
  let a := xs.foldl (fun m x => if m.lt x.mag then x.mag else m) (Q.int 0)
  if a.n = 0 then -127 else max (-127) (min 127 (floorLog2 a.n.natAbs a.d - 8))
/-- Round values times 2^e to E4M3: codes and flags. -/
def toE4M3 (xs : List Fp) (e : Int) : List (BitVec 8) × Nat :=
  let r := xs.map fun x => convTo 4 0 0 false (x.scaleE e)
  (r.map fun c => BitVec.ofNat 8 c.1, r.foldl (fun f c => f ||| c.2) 0)
def bf16s (l : List (BitVec 8)) (n : Nat) : List Fp :=
  (List.range n).map fun j => fltVal 2 (ofBytes ((l.drop (2 * j)).take 2))
/-- Where a KAPPEND's block is to lie: an entry that exists, or a new one. -/
structure Dest where
  entry : Nat
  kind : Nat
  loc : Nat
  new : Bool
  deriving DecidableEq, Repr
/-- The new contents of the page's 64-byte header and of the rows, as (address, byte), with code, SCALE and flags. -/
structure AppR where
  bytes : List (Nat × BitVec 8)
  code : Nat
  scale : Nat
  flags : Nat
/-- The page's scale has to rise for the token: COUNT, the scale now, and SAT say how (R338). -/
structure AppH where
  count : Nat
  k : Int
  sat : Bool
  up : Bool
def appHead (v : Kv) (h : List (BitVec 8)) (new : Bool) (tok : List Fp) : AppH :=
  let kt := tokScale tok
  let count := if new then 0 else (h.getD 1 0#8).toNat
  let k : Int := if new then kt else ((h.getD 0 0#8).toNat : Int) - 127
  { count := count, k := k, sat := (if new then v.satdef else (h.getD 2 0#8).toNat % 2) = 1, up := count > 0 && kt > k }
/-- Addresses of row `n` of K, or of V, of the page at `va`. -/
def Kv.rowK (v : Kv) (va n : Nat) : List Nat := addrs (va + 0x40 + v.d * n) v.d
def Kv.rowV (v : Kv) (va n : Nat) : List Nat := addrs (va + 0x40 + 16 * v.d + v.d * n) v.d
/-- The bytes an append reads beside the header: the rows it requantises, K's then V's. -/
def Kv.liveRows (v : Kv) (va : Nat) (q : AppH) : List Nat :=
  if q.up && !q.sat then (List.range q.count).flatMap (v.rowK va) ++ (List.range q.count).flatMap (v.rowV va) else []
def appendPage (v : Kv) (va : Nat) (q : AppH) (old : List (BitVec 8)) (new : Bool) (tok : List Fp) (t : Nat) : AppR :=
  let kt := tokScale tok
  let k2 := if q.up && !q.sat then kt else q.k
  let re := toE4M3 (old.map fun b => fltVal 4 b.toNat) (q.k - kt)
  let nk := toE4M3 (tok.take v.d) (-k2)
  let nv := toE4M3 (tok.drop v.d) (-k2)
  let sc := (k2 + 127).toNat
  let hd : List (BitVec 8) := if new then [BitVec.ofNat 8 sc, BitVec.ofNat 8 (t + 1), BitVec.ofNat 8 v.satdef] ++ List.replicate 61 0#8
    else [BitVec.ofNat 8 sc, BitVec.ofNat 8 (t + 1)]
  { bytes := (v.liveRows va q).zip re.1 ++ (v.rowK va t).zip nk.1 ++ (v.rowV va t).zip nv.1 ++ (addrs va hd.length).zip hd
    code := if q.up then (if q.sat then 2 else 1) else 0, scale := sc, flags := re.2 ||| nk.2 ||| nv.2 }
/-- Append once the place is known: the header is read, the rows that are requantised where the token fits, and everything else happens with
the page's store, whose header goes last, a release at .core (R338, R339). -/
def State.append (s : State) (i : Instr) (d : BitVec 6) (v : Kv) (key t : Nat) (tok : List Fp) (e : Dest) : Res :=
  let k := s.turn
  let va := s.pageVa k v e.kind e.loc
  let write (q : AppH) (s : State) (old : List (BitVec 8)) : Res :=
    let r := appendPage v va q old e.new tok t
    if s.relWaits false 0xFFFF then s.relHold
    else (s.storeRun i (wd va) 1 r.bytes 1 v.p {}).res fun s _ =>
      let s := if e.new then
          let s := (s.setCairn k v e.entry key (e.kind * 2 ^ 62 + e.loc)).liveAdd k v 1
          if e.kind = 1 then s.setFree k v e.loc false else s.flDrop (dieOf k)
        else s
      .ok ((s.flag r.flags).wvar d (wd (e.loc * 2 ^ 32 + (t + 1) * 2 ^ 16 + r.scale * 2 ^ 8 + r.code)))
  let go (s : State) (h : List (BitVec 8)) : Res :=
    let q := appHead v h e.new tok
    if t ≠ q.count then .ok (s.wvar d 3#64)
    else if q.up && !q.sat then (s.loadRun i (wd va) (v.liveRows va q) 1 v.p 0 {} State.byteNow).res (write q)
    else write q s []
  if e.new then go s [] else (s.loadRun i (wd va) (addrs va 3) 1 3 0 {} State.byteNow).res go
def execKappend (m : Bool) (d a b c : BitVec 6) (s : State) : Out :=
  let i := Instr.kappend m d a b c
  issue m 12 i [rX a, rX b, rX c, rX d] (fun s =>
    s.kv i a (fun s => .ok (s.wvar d 8#64)) fun s v =>
      (s.loadRun i (s.x b) (addrs (s.xn b) (4 * v.d)) 8 (4 * v.d) 0 {} State.byteNow).res fun s l =>
        let tok := bf16s l (2 * v.d)
        let pos := fld (s.x c) 0 32
        let key := fld (s.x c) 32 32 * 2 ^ 32 + pos / 16
        let t := pos % 16
        let k := s.turn
        if tok.any fun x => x.isNan || x.isInf then .ok (s.wvar d 7#64)
        else if s.myCore.inTransit v key then .hold s .wait
        else match s.probe k v key with
          | .found n =>
            let w := s.cairnW k v n
            if fld w 62 2 = 3 then .ok (s.wvar d (stLoc 4 (fld w 0 32)))
            else if fld w 61 1 = 1 then .trap s ⟨7, wd (selfBase + cairnOff v n), w0 i, 0#64⟩
            else s.append i d v key t tok ⟨n, fld w 62 2, fld w 0 32, false⟩
          | r => (s.ring i v (kvHash key)).res fun s home =>
            if home ≥ 4608 then .ok (s.wvar d 8#64)
            else if home ≠ k then .ok (s.wvar d (stLoc 5 home))
            else if t ≠ 0 then .ok (s.wvar d 3#64)
            else match r with
              | .empty n => (match s.freePage k v with
                | some j => s.append i d v key t tok ⟨n, 1, j, true⟩
                | none => match s.flPeek (dieOf k) s.myCore.ctxid k s.fi with
                  | .wait s => .hold s .wait
                  | .code s cd kind => if cd = 0xD then .trap s ⟨0xD, wd (key / 2 ^ 32), wd (dieOf k), 0#64⟩ else .ok (s.wvar d (wd (cd + kind * 256)))
                  | .got s p => s.append i d v key t tok ⟨n, 2, p, true⟩)
              | _ => .ok (s.wvar d 6#64)) s

/-! ### KLOOK, KQRY, KREHOME (R340 to R344) -/

/-- The forward of a query (R341): not made, a trap, a wait, or made. -/
def State.forward (s : State) (v : Kv) (key loc : Nat) (no : Res) (yes : State → Res) : Res :=
  match s.cur.msg with
  | none => no
  | some g =>
    if g.tag ≠ v.qtag || !g.rply || g.payload.length < 32 || loc ≥ 4608 then no
    else
      let hops := (g.payload.getD 0x18 0#8).toNat
      if hops ≥ 2 then .trap s ⟨0xF, wd (key / 2 ^ 32), wd (key % 2 ^ 32), wd s.turn⟩
      else if s.myCore.outbox.length ≥ s.myCore.obuflim then .hold s .stall
      else if s.relWaits true 0xFFFF then s.relHold
      else
        let g2 : Msg := { g with dst := loc, payload := g.payload.set 0x18 (BitVec.ofNat 8 (hops + 1)) }
        let slot := s.cur.slot
        yes ((s.updMine fun c => { c with
          outbox := c.outbox ++ [(⟨g2, false⟩ : OutE)]
          inbox := (match slot with | some n => c.inbox.del n | none => c.inbox) }).updCur fun r =>
            { r with msg := none, slot := none, owes := none })
def execKlook (m : Bool) (d a b e : BitVec 6) (fwd : BitVec 4) (s : State) : Out :=
  let i := Instr.klook m d a b e fwd
  issue m 12 i [rX a, rX b, rX d, rX e] (fun s =>
    let fin (s : State) (p q : Word) : Res := .ok ((s.wvar d p).wvar e q)
    s.kv i a (fun s => fin s 0#64 0#64) fun s v =>
      let key := s.xn b
      if s.myCore.inTransit v key then .hold s .wait
      else match s.probe s.turn v key with
        | .found n =>
          let w := s.cairnW s.turn v n
          if fld w 62 2 = 3 then
            (if fwd = 1#4 then s.forward v key (fld w 0 32) (fin s w 0#64) fun s => fin s w 1#64 else fin s w 0#64)
          else if fld w 61 1 = 1 then fin s w 0#64
          else fin s w (wd (s.pageVa s.turn v (fld w 62 2) (fld w 0 32)))
        | _ => (s.ring i v (kvHash key)).res fun s home => if home ≥ 4608 then fin s 0#64 0#64 else fin s (wd home) 0#64) s
/-- The query record (R344). -/
def queryRec (key q p d n : Nat) : List (BitVec 8) :=
  bytesOf 8 key ++ bytesOf 8 q ++ bytesOf 8 p ++ [0#8, BitVec.ofNat 8 n, BitVec.ofNat 8 d, 0#8, 0#8, 0#8, 0#8, 0#8]
/-- The ring homes of the blocks, in order. -/
def State.homes (s : State) (i : Instr) (v : Kv) : List Nat → Got (List Nat)
  | [] => .got s []
  | key :: r => (s.ring i v (kvHash key)).bind fun s h => (s.homes i v r).bind fun s l => .got s (h :: l)
/-- Send the queries from number `n` on. -/
def State.queries (s : State) (d b e c rtag : BitVec 6) (v : Kv) (hs : List Nat) : Nat → List Nat → Res
  | n, [] => .ok (s.wvar d (wd (n * 256)))
  | n, h :: r =>
    let cr := s.myCore
    if cr.replySlots ≥ 8 then .ok (s.wvar d (wd (n * 256)))
    else if cr.outbox.length ≥ cr.obuflim then .hold (s.updCur fun q => { q with saved := 25 :: n :: v.pack ++ hs }) .stall
    else
      let g : Msg := { ctx := cr.ctxid, dst := h, src := s.turn, rply := true, tag := v.qtag, rtag := rtag.toNat,
                       payload := queryRec (s.xn c + n) (s.xn b) ((s.xn e + n * (64 + 4 * v.d)) % 2 ^ 64) v.d n }
      (s.updMine fun q => { q with outbox := q.outbox ++ [(⟨g, false⟩ : OutE)], awaits := q.awaits ++ [rtag.toNat] }).queries
        d b e c rtag v hs (n + 1) r
/-- The header and the ring entries are read once; the sends are releases at .pkg (R343). -/
def execKqry (m : Bool) (d a b e c rtag : BitVec 6) (nb : BitVec 4) (s : State) : Out :=
  let i := Instr.kqry m d a b e c rtag nb
  issue m 12 i [rX a, rX b, rX c, rX e, rX d] (fun s =>
    let go (s : State) (v : Kv) (n : Nat) (hs : List Nat) : Res :=
      if s.relWaits true 0xFFFF then (s.updCur fun q => { q with saved := 25 :: n :: v.pack ++ hs }).relHold
      else s.queries d b e c rtag v hs n (hs.drop n)
    match s.cur.saved with
    | 25 :: n :: r => go s (kvUnpack r) n (r.drop 7)
    | _ => s.kv i a (fun s => .ok (s.wvar d 8#64)) fun s v =>
      if s.xn b % 64 ≠ 0 || s.xn e % 64 ≠ 0 || inSelf (s.xn b) || inSelf (s.xn e) then .ok (s.wvar d 8#64)
      else if !s.myCore.affine rtag.toNat then .ok (s.wvar d 2#64)
      else if fld (s.x c) 0 32 + nb.toNat ≥ 2 ^ 32 then .ok (s.wvar d 8#64)
      else (s.homes i v ((List.range (nb.toNat + 1)).map (s.xn c + ·))).res fun s hs =>
        if hs.any (· ≥ 4608) then .ok (s.wvar d 8#64) else go s v 0 hs) s
/-- Phases of a KREHOME in `saved`: 51, target, key, entry, KV fields, page: on its way; 52, code, LOC: answered; 53, code, LOC: the
source has acted. -/
def execKrehome (m : Bool) (d a b c : BitVec 6) (s : State) : Out :=
  let i := Instr.krehome m d a b c
  issue m 12 i [rX a, rX b, rX c, rX d] (fun s =>
    match s.cur.saved with
    | [53, code, loc] => .ok (s.wvar d (stLoc code loc))
    | 51 :: _ => .hold s .wait
    | 52 :: _ => .hold s .wait
    | _ => s.kv i a (fun s => .ok (s.wvar d 8#64)) fun s v =>
      let key := s.xn b
      if s.myCore.inTransit v key then .hold s .wait
      else match s.probe s.turn v key with
        | .found n =>
          let w := s.cairnW s.turn v n
          let cell : Bool := fld w 61 1 = 1
          if fld w 62 2 = 3 then .ok (s.wvar d 9#64)
          else if s.xn c ≥ 4608 || s.xn c = s.turn then .ok (s.wvar d 8#64)
          else
            let send (s : State) (page : List (BitVec 8)) : Res :=
              if !cell && s.relWaits true 0xFFFF then s.relHold
              else .hold ((s.updMine fun q => { q with moving := q.moving ++ [(v.cairn, key, s.fi)] }).updCur fun r =>
                { r with saved := 51 :: s.xn c :: key :: w.toNat :: v.pack ++ page.map (·.toNat) }) .wait
            if cell then send s []
            else
              let va := s.pageVa s.turn v (fld w 62 2) (fld w 0 32)
              (s.loadRun i (wd va) (addrs va v.p) 1 v.p 0 {} State.byteNow).res send
        | _ => .ok (s.wvar d 9#64)) s

/-! ### The Lantern (R347 to R351) -/

def lanternUnit (d : Nat) : Nat := 2100 + d
def State.lslot (s : State) (d n : Nat) : LSlot := (s.die d).lantern.get n {}
def State.setLslot (s : State) (d n : Nat) (v : LSlot) : State := s.updDie d fun x => { x with lantern := x.lantern.put n v }
def LSlot.w (v : LSlot) (n : Nat) : Word := (words64 24 v.record).getD n 0#64
def LSlot.npos (v : LSlot) : Nat := fld (v.w 0) 0 13
def LSlot.nlayer (v : LSlot) : Nat := fld (v.w 0) 16 7
def LSlot.share (v : LSlot) : Fp := fltVal 1 (fld (v.w 1) 0 32)
def LSlot.floor (v : LSlot) : Fp := fltVal 1 (fld (v.w 1) 32 32)
def LSlot.kmin (v : LSlot) : Nat := fld (v.w 2) 0 13
def LSlot.kmax (v : LSlot) : Nat := fld (v.w 2) 16 13
def LSlot.dcbase (v : LSlot) : Nat := fld (v.w 7) 0 16
def LSlot.layer (v : LSlot) (n : Nat) : Nat := ofBytes ((v.record.drop (0x40 + 2 * n)).take 2)
/-- R347. -/
def LSlot.bad (v : LSlot) : Bool :=
  fld (v.w 0) 13 3 ≠ 0 || fld (v.w 0) 23 41 ≠ 0 || fld (v.w 2) 13 3 ≠ 0 || fld (v.w 2) 29 35 ≠ 0 || fld (v.w 7) 16 48 ≠ 0 ||
    (List.range 64).any (fun n => nfld (v.layer n) 4 4 ≠ 0) || v.npos < 16 || v.npos > 4096 || v.npos % 16 ≠ 0 ||
    v.nlayer = 0 || v.nlayer > 64 || v.share.isNan || v.share.isInf || fpLt v.share (.num false (Q.int 0)) ||
    fpLt (.num false (Q.int 1)) v.share || v.floor.isNan || v.kmin > v.kmax || v.kmax > v.npos ||
    (v.w 3).toNat % 8 ≠ 0 || (v.w 4).toNat % 8 ≠ 0 || (v.w 5).toNat % 8 ≠ 0 || v.dcbase + v.nlayer * (v.npos / 16) > 65536
/-- Another firing of the die has an LNCOMMIT of the slot under way (R350). -/
def State.lnBusy (s : State) (n : Nat) : Bool :=
  s.frames.l.any fun e => e.1 ≠ 32 * s.turn + s.fi && dieOf (e.1 / 32) = dieOf s.turn && (match e.2.saved with
    | 42 :: j :: _ => j = n
    | _ => false)
/-- A Lantern instruction on slot X[a] of the die, and what refuses it. -/
def State.lnI (s : State) (d a : BitVec 6) (h : State → Nat → LSlot → Res) : Res :=
  if s.acqWait then .hold s .stall
  else if s.xn a ≥ 16 then .ok (s.wvar d 0x12#64)
  else if s.lnBusy (s.xn a) then .hold s .wait
  else h s (s.xn a) (s.lslot (dieOf s.turn) (s.xn a))
def State.lnOwn (s : State) (d : BitVec 6) (v : LSlot) (h : Unit → Res) : Res :=
  if v.state = 0 then .ok (s.wvar d 0x11#64) else if v.ctx ≠ s.myCore.ctxid then .ok (s.wvar d 0x10#64) else h ()
def execLncfg (m : Bool) (d a b : BitVec 6) (s : State) : Out :=
  let i := Instr.lncfg m d a b
  issue m 12 i [rX a, rX b, rX d] (fun s => s.lnI d a fun s n v =>
    let dd := dieOf s.turn
    if v.state ≠ 0 && v.ctx ≠ s.myCore.ctxid then .ok (s.wvar d 0x10#64)
    else if s.x b = 0#64 then .ok ((s.setLslot dd n {}).wvar d 0#64)
    else if s.xn b % 64 ≠ 0 then .ok (s.wvar d 8#64)
    else (s.loadRun i (s.x b) (addrs (s.xn b) 192) 64 192 0 {} State.byteNow).res fun s l =>
      let u : LSlot := { ctx := s.myCore.ctxid, record := l, state := 1 }
      if u.bad then .ok (s.wvar d 8#64) else .ok ((s.setLslot dd n u).wvar d 0#64)) s
/-- Confidence `a` of an earlier position stays before `b` of a later one (R348). -/
def lnBefore (a b : Fp) : Bool := b.isNan || (!a.isNan && !fpLt a b)
def lnInsert (p : Nat × Fp) : List (Nat × Fp) → List (Nat × Fp)
  | [] => [p]
  | q :: r => if lnBefore q.2 p.2 then q :: lnInsert p r else p :: q :: r
/-- The ranking of masked positions, given in rising order. -/
def lnRank (l : List (Nat × Fp)) : List (Nat × Fp) := l.foldl (fun acc p => lnInsert p acc) []
def execLnrank (m : Bool) (d a b : BitVec 6) (s : State) : Out :=
  issue m 12 (.lnrank m d a b) [rX a, rX b, rX d] (fun s => s.lnI d a fun s n v => s.lnOwn d v fun _ =>
    let dd := dieOf s.turn
    if s.xn b % 4 ≠ 0 then .ok (s.wvar d 8#64)
    else if s.relWaits true 0xFFFF then s.relHold
    else match s.unitPlaces dd (lanternUnit dd) v.ctx s.turn s.fi needR (addrs (s.xn b) (4 * v.npos) ++ addrs (v.w 3).toNat (v.npos / 8)) with
      | .wait s => .hold s .wait
      | .fault s k => .ok (s.wvar d (wd (k * 256 + 0x14)))
      | .got s ps =>
        let l := s.readPlaces dd ps
        let mask := ofBytes (l.drop (4 * v.npos))
        let xs := ((List.range v.npos).filter fun j => nfld mask j 1 = 1).map fun j =>
          (j, fltVal 1 (ofBytes ((l.drop (4 * j)).take 4)))
        let nan := xs.any fun x => x.2.isNan
        let pinf := xs.any fun x => x.2 = .inf false
        let u := { v with rank := (lnRank xs).map (·.1), m := xs.length, nan := nan, pinf := pinf, state := 2,
                          f := (xs.filter fun x => fpLt v.floor x.2).length }
        .ok ((s.setLslot dd n u).wvar d (wd (xs.length * 2 ^ 16 + b2n pinf * 2 ^ 9 + b2n nan * 2 ^ 8)))) s
/-- The count a commit takes (R348). -/
def LSlot.take (v : LSlot) : Nat :=
  let q := match v.share with | .num _ q => q | _ => Q.int 0
  let k := max v.kmin (min v.kmax ((q.n.toNat * v.m + (q.d - 1)) / q.d))
  min (min (max k v.f) v.kmax) v.m
/-- Layer `j`'s row of the dirty map for a round and the committed positions (R349). -/
def LSlot.row (v : LSlot) (round j : Nat) (com : List Nat) : Nat :=
  let l := v.layer j
  let per := nfld l 8 8
  let sp := nfld l 0 4
  if per ≠ 0 && round % per = 0 then 2 ^ v.npos - 1
  else (List.range v.npos).foldl (fun acc i => if com.any fun c => i ≤ c + sp && c ≤ i + sp then acc + 2 ^ i else acc) 0
/-- The dirty cells of a round: cell, dirty bits, committed bits, in the order they are stored. -/
def LSlot.cells (v : LSlot) (round : Nat) (com : List Nat) : List (Nat × Nat × Nat) :=
  let crow := com.foldl (fun a c => a ||| 2 ^ c) 0
  (List.range v.nlayer).flatMap fun j =>
    let row := v.row round j com
    (List.range (v.npos / 16)).filterMap fun p =>
      if nfld row (16 * p) 16 = 0 then none else some (v.dcbase + j * (v.npos / 16) + p, nfld row (16 * p) 16, nfld crow (16 * p) 16)
def dirtyRec (round : Nat) (c : Nat × Nat × Nat) : List (BitVec 8) := bytesOf 8 (round % 2 ^ 32) ++ bytesOf 8 c.2.1 ++ bytesOf 8 c.2.2 ++ List.replicate 40 0#8
/-- Where the plain writes of a commit go: the commit list, the mask row, the dirty map. -/
def LSlot.places (v : LSlot) (n : Nat) : List Nat × List Nat × List Nat :=
  (addrs (v.w 4).toNat (8 + 2 * n), addrs (v.w 3).toNat (v.npos / 8), addrs (v.w 5).toNat (v.nlayer * v.npos / 8))
/-- SHEET as the sequencers' directories hold it (R449). -/
def State.lnSheet (s : State) (d : Nat) (v : LSlot) : UMem (Option Sheet) :=
  let t := (v.w 6).toNat
  if t % 4096 ≠ 0 || t ≥ 2 ^ 56 then .got s none
  else match s.unitAcc d (lanternUnit d) v.ctx t needNone with
    | .wait s => .wait s
    | .fail s k => .fault s k
    | .go s pa w => match regionOf pa with
      | .main e => if entCell w && s.isOwn pa && ((s.sheetE e pa).map (·.ctx)) = some v.ctx then .got s (some ⟨e, pa, 0, w⟩) else .got s none
      | _ => .got s none
/-- A defined input cell with format RAW, 1 row and 64 columns. -/
def State.dirtyOk (s : State) (sh : Option Sheet) (c : Nat) : Bool :=
  match sh with
  | none => false
  | some h => c < s.ncells h.t && !s.formulaAt h.t (s.opened h.t) c && s.dsc h.t c 0x10 = wd (64 * 2 ^ 16 + 1)
def lnWord (v : LSlot) (code n cell : Nat) : Word :=
  wd (cell * 2 ^ 48 + v.round % 65536 * 2 ^ 32 + n * 2 ^ 16 + b2n v.pinf * 2 ^ 9 + b2n v.nan * 2 ^ 8 + code)
def lnFault (v : LSlot) (kind n : Nat) : Word := wd (v.round % 65536 * 2 ^ 32 + n * 2 ^ 16 + kind * 2 ^ 8 + 0x14)
/-- Stay at step `ph` of a commit: 1 to 3 the plain writes, 4 + j the j-th dirty cell; `at_` names a cell whose record is written and
whose generation is to open. -/
def State.lnStep (s : State) (n ph : Nat) (at_ : List Nat) : State := s.updCur fun r => { r with saved := 42 :: n :: ph :: at_ }
/-- A write that met a remote timeout, or a place that is gone, stops the commit (R349). -/
def State.lnBreak (s : State) (d : BitVec 6) (n kind : Nat) (v : LSlot) : Res :=
  .ok ((s.setLslot (dieOf s.turn) n { v with state := 1 }).wvar d (lnFault v kind v.lastn))
/-- One write of a commit in elements of `u` bytes; `h` goes on. -/
def State.lnWrite (s : State) (d : BitVec 6) (n ph : Nat) (v : LSlot) (u : Nat) (as : List Nat)
    (l : State → List (Nat × Word) → List (BitVec 8)) (h : State → Res) : Res :=
  let dd := dieOf s.turn
  match s.unitPlaces dd (lanternUnit dd) v.ctx s.turn s.fi needW as with
  | .wait s => .hold (s.lnStep n ph []) .wait
  | .fault s k => s.lnBreak d n k v
  | .got s ps => h (s.writePlaces dd v.ctx u ps (l s ps))
/-- The part waits to store the record of a cell as a CST does (R244, R266). -/
def State.lnCstHeld (s : State) (t c : Nat) : Bool := !s.setup t && (!s.backFree t c || s.cstOther t c || s.cellState t c = 2)
/-- The j-th CST of a commit and those after it (R349 step 4); `wrote` says that its record is written. The commit ends once everything the
Lantern wrote is visible (R351). A cell that is no input any more by its turn stops the commit with CSTFAIL (DESIGN CHOICE, log 153). -/
def State.lnCst (s : State) (d : BitVec 6) (n : Nat) (v : LSlot) (com : List Nat) : Nat → Bool → List (Nat × Nat × Nat) → Res
  | j, _, [] =>
    if s.unitRel (dieOf s.turn) then .hold (s.lnStep n (4 + j) []) .wait
    else .ok ((s.setLslot (dieOf s.turn) n { v with state := 1 }).wvar d (lnWord v 0 v.lastn 0))
  | j, wrote, c :: r =>
    let dd := dieOf s.turn
    match s.lnSheet dd v with
    | .wait s => .hold (if wrote then s else s.lnStep n (4 + j) []) .wait
    | .fault s k => s.lnBreak d n k v
    | .got s none => s.lnBreak d n 1 v
    | .got s (some sh) =>
      let t := sh.t
      let opening (s : State) : Res :=
        if s.setup t then (s.cured t c.1).lnCst d n v com (j + 1) false r
        else if s.unfinished t ≥ 4 || s.unitRel dd then .hold (s.lnStep n (4 + j) [t, c.1]) .wait
        else
          let h := gnext (s.opened t)
          (s.openGen sh.die t (s.depsAt t h c.1) (some c.1)).lnCst d n v com (j + 1) false r
      if !s.dirtyOk (some sh) c.1 then .ok ((s.setLslot dd n { v with state := 1 }).wvar d (lnWord v 0x13 v.lastn c.1))
      else if wrote then opening s
      else if s.lnCstHeld t c.1 then .hold (s.lnStep n (4 + j) []) .wait
      else s.lnWrite d n (4 + j) v 8 (addrs (if s.setup t then s.frontBuf t c.1 else s.backBuf t c.1).toNat 64) (fun _ _ => dirtyRec v.round c) opening
/-- The steps of a commit from `ph` on, for a slot whose ROUND is raised. -/
def State.lnRun (s : State) (d : BitVec 6) (n ph : Nat) (wrote : Bool) : Res :=
  let v := s.lslot (dieOf s.turn) n
  let com := v.rank.take v.lastn
  let (p1, p2, p3) := v.places v.lastn
  let csts (j : Nat) (s : State) : Res :=
    if j = 0 && s.unitRel (dieOf s.turn) then .hold (s.lnStep n 4 []) .wait else s.lnCst d n v com j wrote ((v.cells v.round com).drop j)
  let w3 (s : State) : Res := s.lnWrite d n 3 v 2 p3 (fun _ _ => (List.range v.nlayer).flatMap fun j => bytesOf (v.npos / 8) (v.row v.round j com)) (csts 0)
  let w2 (s : State) : Res := s.lnWrite d n 2 v 2 p2 (fun s ps =>
      let crow := com.foldl (fun a c => a ||| 2 ^ c) 0
      let old := ofBytes (s.readPlaces (dieOf s.turn) ps)
      bytesOf (v.npos / 8) (old - (old &&& crow))) w3
  match ph with
  | 1 => s.lnWrite d n 1 v 2 p1 (fun _ _ => bytesOf 8 (v.round % 2 ^ 32 + v.lastn * 2 ^ 32) ++ com.flatMap (bytesOf 2)) w2
  | 2 => w2 s
  | 3 => w3 s
  | j => csts (j - 4) s
def execLncommit (m : Bool) (d a : BitVec 6) (s : State) : Out :=
  issue m 12 (.lncommit m d a) [rX a, rX d] (fun s => s.lnI d a fun s n v =>
    let dd := dieOf s.turn
    match s.cur.saved with
    | [42, _, ph] => s.lnRun d n ph false
    | [42, _, ph, _, _] => s.lnRun d n ph true
    | _ => s.lnOwn d v fun _ =>
      if v.state ≠ 2 then .ok (s.wvar d 3#64)
      else if s.relWaits true 0xFFFF then s.relHold
      else
        let k := v.take
        let com := v.rank.take k
        let round := (v.round + 1) % 2 ^ 32
        let cs := v.cells round com
        match (if cs = [] then UMem.got s none else s.lnSheet dd v) with
        | .wait s => .hold s .wait
        | .fault s j => .ok (s.wvar d (lnFault v j k))
        | .got s sh => match cs.find? fun c => !s.dirtyOk sh c.1 with
          | some c => .ok (s.wvar d (lnWord v 0x13 k c.1))
          | none =>
            let (p1, p2, p3) := v.places k
            match s.unitXlats dd (lanternUnit dd) v.ctx needW (p1 ++ p2 ++ p3) with
            | .wait s => .hold s .wait
            | .fault s j => .ok (s.wvar d (lnFault v j k))
            | .got s _ => (s.setLslot dd n { v with round := round, lastn := k, state := 1 }).lnRun d n 1 false) s
def LSlot.word (v : LSlot) : Word := wd (v.round * 2 ^ 32 + v.lastn * 2 ^ 19 + v.m * 2 ^ 6 + b2n v.pinf * 8 + b2n v.nan * 4 + v.state)
def execLnstat (m : Bool) (d a : BitVec 6) (s : State) : Out :=
  issue m 12 (.lnstat m d a) [rX a, rX d] (fun s => s.lnI d a fun s _ v =>
    .ok (s.wvar d (if v.ctx = s.myCore.ctxid then v.word else 0#64))) s

end Sys2Proof.Machine
end

