-- ==== Sys2Proof/Machine/Fetch.lean ====
section
/-! DEFINITION. Fetching the words of an instruction (R28, R29, R370, R448) and decoding them. -/
namespace Sys2Proof.Machine

/-- The outcome of fetching one word. -/
inductive FetchW where
  | got (w : BitVec 32)
  | trap (t : Trap)
  | walk
  deriving Repr

/-- A 32-bit word of code at a physical address: where the launch's copy of the code differs, the old word or the new one
(R448); in a hole both read as ones (R447). Of a word stored more than once, only the value at the packet's consumption and the present one are fetched (DESIGN CHOICE,
log 128). -/
def State.codeWord (s : State) (k pa : Nat) : BitVec 32 :=
  let new := BitVec.ofNat 32 (s.unitRd pa 4)
  match (s.core k).gang with
  | none => new
  | some g =>
    let old := BitVec.ofNat 32 (ofBytes [rdCell g.code pa, rdCell g.code (pa + 1), rdCell g.code (pa + 2), rdCell g.code (pa + 3)])
    if old = new || holeIn pa 4 then new else if Config.freeBit s.tick pa then old else new

/-- Fetch the word at `va` for frame `f` of core `k`. A word in the hole raises BADVA (R24), one that no entry maps PAGE kind 1 (R29); one in
the self window, which no entry maps either, PAGE kind 1 with reason 0 at once (DEDUCED, log 11). tval2 of a fetch's BADVA, whose first word
was not read, is 0 (DESIGN CHOICE, log 142). -/
def State.fetchW (s : State) (k f va : Nat) : FetchW :=
  if isTsc k then
    match (s.die (dieOf k)).walkImg with
    | none => .trap ⟨6, wd va, 1#64, 0#64⟩
    | some img =>
      if va + 4 ≤ img.length then .got (BitVec.ofNat 32 (ofBytes ((img.drop va).take 4))) else .trap ⟨6, wd va, 1#64, 0#64⟩
  else if va ≥ 2 ^ 56 || inHole va then .trap ⟨5, wd va, 0#64, 0#64⟩
  else if inSelf va then .trap ⟨6, wd va, 1#64, 0#64⟩
  else
    let c := (s.core k).ctxid
    match s.xl k c va needX with
    | .hit pa w =>
      match regionOf pa with
      | .regs _ => .got 0#32
      | .sram j off => match (if s.isOwn pa then s.windowPa c j off else some pa) with
        | some q => .got (s.codeWord k q)
        | none => .trap ⟨5, wd va, 0#64, 0#64⟩
      | _ =>
        let q := readPa k pa w
        if s.poisonedAt q 4 then .trap ⟨0x11, wd va, 0#64, 0#64⟩ else .got (s.codeWord k q)
    | _ => match s.ansFor (.frame k f) c va with
      | some r => .trap ⟨6, wd va, 1#64, wd r⟩
      | none => .walk

/-- The words of the instruction at `va`, or the first word that could not be fetched. -/
def State.fetchN (s : State) (k f va : Nat) : Nat → Except (Nat × FetchW) (List (BitVec 32))
  | 0 => .ok []
  | n + 1 => match s.fetchW k f va with
    | .got w => match s.fetchN k f (va + 4) n with
      | .ok l => .ok (w :: l)
      | .error e => .error e
    | r => .error (va, r)
def lenWords (w : BitVec 32) : Nat := match (fLen w).toNat with | 0 => 1 | 1 => 3 | 2 => 3 | _ => 5
/-- All words of the instruction at `va`: its first word says how many (R28). -/
def State.fetch (s : State) (k f va : Nat) : Except (Nat × FetchW) (List (BitVec 32)) :=
  match s.fetchN k f va 1 with
  | .ok (w :: _) => s.fetchN k f va (lenWords w)
  | .ok [] => .ok []
  | .error e => .error e
/-- The words of the issuing firing's instruction: those of a VLOOP that is under way have been handed over (R154). -/
def State.fetchCur (s : State) : Except (Nat × FetchW) (List (BitVec 32)) :=
  match s.cur.loopW with
  | l :: _ => .ok l
  | [] => s.fetch s.turn s.fi s.cur.pc.toNat

/-- The instruction the words are; words that are none run UNDEFINED_ENCODING (R46). Word 1 of a LEN 01 word is the low word of its literal
(DESIGN CHOICE, log 129: R28 names word 1 for LEN 10 and 11 only). -/
def wordsInstr (l : List (BitVec 32)) : Instr :=
  match decodeList (l ++ [0#32, 0#32, 0#32, 0#32, 0#32]) with
  | .ok i => i
  | .error n => .undefinedEncoding (l.getD 0 0#32) (l.getD 1 0#32) n

/-- A fetch that did not give the instruction: the firing parks for the walk or takes the fault (R29, R448). -/
def State.fetchFail (s : State) (va : Nat) (r : FetchW) : State :=
  let k := s.turn
  let f := s.fi
  let c := (s.core k).ctxid
  match r with
  | .walk => (s.startWalk (.frame k f) k c va 1 needX).stay .walk
  | .trap t => (s.dropAns (.frame k f) c va).raise k f t s.cur.pc
  | .got _ => s
/-- The fetch sets the accessed bit (R372). -/
def State.fetched (s : State) (va : Nat) : State :=
  if isTsc s.turn then s else s.markAD s.turn s.myCore.ctxid va false

/-- What an instruction has saved that pre-emption may save with it (R405): the waits of collectives, QPUSH, SEND.REPLAY, CST, CLD, and a
VLOOP that stops. -/
def savable : List Nat := [savGroup, savForm, savAborted, savFormed, savBadRec, 22, 23, 40, 41, 43, 60]
/-- Waits at an instruction that pre-emption may save: nothing of it has been sent to another unit. -/
def Frame.mayLeave (r : Frame) : Bool :=
  r.stat = .free || r.stat = .stopped ||
    (r.unret = 0 && r.far = [] && (r.waits.all fun w => match w.kind with | .mx _ => false | .cpy _ => false | _ => true) &&
      (match r.saved with
      | [] => true
      | a :: _ => savable.contains a))
/-- Whether a core may issue: a firing issues there, it does not wait at its place, and nothing holds the core. A context that is to leave
the core finishes only what it cannot leave in the middle of (R405). -/
def State.canIssue (s : State) (k : Nat) : Bool :=
  match (s.core k).issuing with
  | none => false
  | some f => s.main && !(s.core k).frozen && (s.fr k f).stat = .ready && (s.fr k f).hold = .no && (!(s.core k).leave || !(s.fr k f).mayLeave)
/-- The next core after `k` that may issue, in the order of the table; `k` itself where there is no other. -/
def State.nextTurn (s : State) (k : Nat) : Nat :=
  match (s.cores.keys.filter fun j => j > k && s.canIssue j) ++ (s.cores.keys.filter fun j => j ≤ k && s.canIssue j) with
  | j :: _ => j
  | [] => k

end Sys2Proof.Machine
end

