-- ==== Sys2Proof/Machine/Isolation.lean ====
section
/-! DEFINITION. Translation instructions, rights and queries (majors 0x60 to 0x63; R363, R367, R375 to R381). -/
namespace Sys2Proof.Machine

/-! ### TLBW (R375, R376), also as the front end performs it for the host -/

/-- Whether a context holds a right (R363): the capability word of the core that waits, else that of the record. -/
def State.hasRight (s : State) (ctx : Nat) (w : Option Walk) (bit : Nat) : Bool :=
  let r : Word := match s.slotOf ctx with | some n => s.ctxDw n 8 | none => 0#64
  let c : Word := match w with | some q => if (s.core q.core).ctxid = ctx then (s.core q.core).capw else r | none => r
  fld c bit 1 = 1
def dieOfPlace (pa : Nat) : Option Nat :=
  match regionOf pa with
  | .main d => some d
  | .sram k _ => some (dieOf k)
  | .regs o => some (o / 0x40000000)
  | _ => none
/-- The first check an entry fails, as a status; 0 for none. -/
def State.entryBad (s : State) (e va : Word) (ctx : Word) (w : Option Walk) : Nat :=
  let n := 2 ^ pageBits e
  let f := entFrame e
  let host := entHost e
  if fld e 0 10 ≠ 0 || va.toNat ≥ 2 ^ 56 || va.toNat % n ≠ 0 || fld e 12 41 * 4096 % n ≠ 0 then 1
  else if fld ctx 16 48 ≠ 0 || (s.slotOf ctx.toNat).isNone then 6
  else if spans va.toNat n selfBase 0x200000 || (!host && (pkgOf f > 4607 || regionOf f = .hole || regionOf (f + n - 1) = .hole)) then 2
  else if (if host then entHome e > 1 else dieOfPlace f ≠ some (entHome e)) then 3
  else if entRdup e && (host || !s.isOwn f || !(match regionOf f with | .main _ => true | _ => false)) then 4
  else if (host && !s.hasRight ctx.toNat w 4) || (!host && !s.isOwn f && !s.hasRight ctx.toNat w 3) then 5
  else 0
/-- A core, a camp and a die take an entry. -/
def State.install (s : State) (d : Nat) (w : Option Walk) (x : TlbEnt) : State :=
  let s := s.updDie d fun v => { v with tlb := addEnt 8192 x v.tlb }
  match w with
  | some q => (match q.who with
    | .unit _ => s
    | _ => (s.updCamp (campOf q.core) fun c => { c with tlb := addEnt 2048 x c.tlb }).updCore q.core fun c => { c with tlb := addEnt 64 x c.tlb })
  | none => s
/-- TLBW with its operands on die `d`: the state after it and the status. -/
def State.tlbw (s : State) (d : Nat) (e va ctx tok : Word) : State × Nat :=
  let w := if tok = 0#64 then none else s.walks.find? fun q => wd q.token = tok
  if tok ≠ 0#64 && w.isNone then (s, 7)
  else if fld e 63 1 = 1 then (match w with | some q => (s.walkNo q (fld e 0 1), 0) | none => (s, 0))
  else match s.entryBad e va ctx w with
    | 0 =>
      let s := s.install d w { ctx := ctx.toNat, va := va.toNat, w := e }
      (match w with | some q => (s.walkYes q e, 0) | none => (s, 0))
    | n => (s, n)
def privTrap (i : Instr) : Trap := ⟨0x80, w0 i, 0#64, 0#64⟩
def execTlbw (m : Bool) (d a b e c : BitVec 6) (s : State) : Out :=
  let i := Instr.tlbw m d a b e c
  issue m 12 i [rX a, rX b, rX c, rX e, rX d] (fun s =>
    if !isTsc s.turn then .trap s (privTrap i)
    else
      let r := s.tlbw (dieOf s.turn) (s.x a) (s.x b) (wd (fld (s.x c) 0 16)) (s.x e)
      .ok (r.1.wvar d (wd r.2))) s

/-! ### TLBINV and TLBPRB (R377, R378) -/

/-- The context an instruction names: its own for 0; a firing may name no other. -/
def State.named (s : State) (c : BitVec 6) : Option Nat :=
  if s.x c = 0#64 then some s.myCore.ctxid
  else if isTsc s.turn || s.xn c = s.myCore.ctxid then some (s.xn c) else none
def TlbEnt.within (x : TlbEnt) (ctx a n : Nat) : Bool := x.ctx = ctx && (n = 0 || spans x.va (2 ^ pageBits x.w) a n)
/-- Reads a stream has not made yet are made at their pops: through the translation that then stands. -/
def Frame.noSnap (r : Frame) : Frame := { r with streams := r.streams.map fun _ st => { st with snap := none } }
/-- Remove a context's entries in a range at every level, and make the tokens of its walks there stale. -/
def State.tlbDrop (s : State) (ctx a n : Nat) : State :=
  let g (l : List TlbEnt) : List TlbEnt := l.filter fun x => !x.within ctx a n
  { s with
    cores := s.cores.map fun _ c => { c with tlb := g c.tlb }
    frames := s.frames.map fun key r => if (s.core (key / 32)).ctxid = ctx then r.noSnap else r
    savedFrames := s.savedFrames.map fun key l => if key / 8192 = ctx then l.map fun e => (e.1, e.2.noSnap) else l
    camps := s.camps.map fun _ c => { c with tlb := g c.tlb }
    dies := s.dies.map fun _ v => { v with tlb := g v.tlb }
    walks := s.walks.map fun q => if q.ctx = ctx && (n = 0 || spans (pageOf q.va * 4096) 4096 a n) then { q with token := 0 } else q }
/-- Stores of the context, translated before, that are still to be performed elsewhere. -/
def State.ctxPending (s : State) (ctx : Nat) : Bool :=
  s.peers.l.any (fun p => p.2.pending.any fun q => q.ctx = ctx) || s.rdup.any fun r => r.ctx = ctx
def execTlbinv (m : Bool) (d a b c : BitVec 6) (s : State) : Out :=
  let i := Instr.tlbinv m d a b c
  issue m 12 i [rX a, rX b, rX c, rX d] (fun s =>
    match s.named c with
    | none => .trap s (privTrap i)
    | some ctx =>
      if s.xn a % 4096 ≠ 0 || s.xn b % 4096 ≠ 0 then .ok (s.wvar d 1#64)
      else
        let s := s.tlbDrop ctx (s.xn a) (s.xn b)
        if s.ctxPending ctx then .hold s .wait else .ok (s.wvar d 0#64)) s
/-- The entry word as TLBPRB shows it. -/
def TlbEnt.shown (x : TlbEnt) (pfn : Bool) : Word :=
  let w := putFld (putFld x.w 9 1 (b2n x.a)) 8 1 (b2n x.d)
  if pfn then w else putFld w 12 41 0
def execTlbprb (m : Bool) (d a e c : BitVec 6) (s : State) : Out :=
  let i := Instr.tlbprb m d a e c
  issue m 12 i [rX a, rX c, rX d, rX e] (fun s =>
    match s.named c with
    | none => .trap s (privTrap i)
    | some ctx =>
      match (if s.xn a ≥ 2 ^ 56 then none else s.tlbLook s.turn ctx (s.xn a)) with
      | some (x, n) => .ok ((s.wvar d (x.shown (isTsc s.turn))).wvar e (wd n))
      | none => .ok ((s.wvar d 0#64).wvar e 0#64)) s

/-! ### CAPSET, CTXQ, SLOGQ (R379 to R381) -/

/-- A capability word: bits 63:5 are reserved and read as zero (R4, R363). -/
def capBits (w : Word) : Word := w &&& 0x1F#64
def execCapset (m : Bool) (d a : BitVec 6) (s : State) : Out :=
  issue m 12 (.capset m d a) [rX a, rX d] (fun s =>
    let w := capBits (s.myCore.capw &&& s.x a)
    .ok ((s.updMine fun c => { c with capw := w }).wvar d w)) s
def execCtxq (m : Bool) (d a : BitVec 6) (s : State) : Out :=
  issue m 4 (.ctxq m d a) [rX a, rX d] (fun s =>
    .ok (s.wvar d (match s.slotOf s.myCore.ctxid, s.xn a with
      | some n, 0 => s.ctxDw n 0
      | some n, 1 => s.ctxDw n 8
      | some n, 2 => wd (fld (s.ctxDw n 0x18) 0 48)
      | some n, 3 => wd n
      | _, _ => 0#64))) s
/-- The answers for every page of an entry have arrived: its replay is under way (R381). -/
def State.replaying (s : State) (k : Nat) (e : SlogE) : Bool := e.bytes.all fun b => placed (s.place k (e.va + b.1) 1 needW)
def SlogE.word (e : SlogE) (replay : Bool) : Word :=
  let z := match e.size with | 1 => 0 | 2 => 1 | 4 => 2 | 8 => 3 | _ => 4
  wd (2 ^ 63 + b2n replay * 2 ^ 62 + z * 2 ^ 59 + e.frame % 8 * 2 ^ 56 + e.va % 2 ^ 56)
def execSlogq (m : Bool) (d a : BitVec 6) (s : State) : Out :=
  issue m 4 (.slogq m d a) [rX a, rX d] (fun s =>
    let c := s.myCore
    .ok (s.wvar d (
      if s.xn a < 64 then (match c.slog.get? (s.xn a) with | some e => e.word (s.replaying s.turn e) | none => 0#64)
      else if s.xn a = 64 then wd (c.slogFails % 65536 * 2 ^ 16 + (c.slog.l.filter fun e => e.1 < 64).length) else 0#64))) s

end Sys2Proof.Machine
end

