-- ==== Sys2Proof/Machine/Recovery.lean ====
section
/-! DEFINITION. Fabric flows and collective groups (majors 0x5C, 0x5D; R422 to R433). -/
namespace Sys2Proof.Machine

/-! ### Flows (R422, R423) -/

def execFlowOpen (m : Bool) (d a b : BitVec 6) (s : State) : Out :=
  let i := Instr.flowOpen m d a b
  issue m 12 i [rX a, rX b, rX d] (fun s =>
    let c := s.myCore
    let opt := s.x b
    let grouped : Bool := fld opt 1 1 = 1
    let g := s.group (fld opt 8 6)
    if fld c.capw 1 1 = 0 then .trap s (privTrap i)
    else if s.xn a ≥ 4608 || s.xn a = s.pkg then .ok (s.wvar d 8#64)
    else if fld opt 2 6 ≠ 0 || fld opt 14 50 ≠ 0 then .ok (s.wvar d 3#64)
    else if grouped && g.state ≠ 2 then .ok (s.wvar d 7#64)
    else if grouped && !g.member s.pkg s.turn then .ok (s.wvar d 4#64)
    else match ((List.range 31).map (· + 1)).find? fun n => (c.flows.get? n).isNone with
      | none => .ok (s.wvar d 9#64)
      | some n =>
        let q := (c.flowSeq.get n 0 + 1) % 2 ^ 32
        let x : Flow := { pkg := s.xn a, ordered := fld opt 0 1 = 1, grouped := grouped, group := fld opt 8 6, inc := g.inc, next := q, delivered := q }
        .ok ((s.updMine fun c => { c with flows := c.flows.put n x }).wvar d (wd (q * 2 ^ 32 + n * 2 ^ 16)))) s
/-- Slot `n` is free again; its next flow goes on numbering. -/
def State.freeFlow (s : State) (n : Nat) (x : Flow) : State :=
  s.updMine fun c => { c with flows := c.flows.del n, flowSeq := c.flowSeq.put n ((x.next + 2 ^ 32 - 1) % 2 ^ 32) }
/-- A close waits until every packet is delivered; the limit of the wait is RLIMIT (R419, R423). -/
def execFlowClose (m : Bool) (d a : BitVec 6) (s : State) : Out :=
  issue m 12 (.flowClose m d a) [rX a, rX d] (fun s =>
    let n := s.xn a
    match s.myCore.flows.get? n with
    | none => .ok (s.wvar d 0xA#64)
    | some x =>
      if x.dead then .ok ((s.freeFlow n x).wvar d 0#64)
      else if s.myCore.copies.any fun q => s.copyFlow s.turn q = n then .ok (s.wvar d 0xB#64)
      else if x.delivered = x.next then .ok ((s.freeFlow n x).wvar d 0#64)
      else if s.cur.expired then .ok ((s.freeFlow n x).wvar d 0xC#64)
      else .hold (s.updCur (·.unitFar 0 x.pkg)) .wait) s
def execFlowQry (m : Bool) (d a : BitVec 6) (s : State) : Out :=
  issue m 12 (.flowQry m d a) [rX a, rX d] (fun s =>
    .ok (s.wvar d (match s.myCore.flows.get? (s.xn a) with
      | none => 0xA#64
      | some x => wd (x.next * 2 ^ 32 + x.pkg * 2 ^ 16 + b2n x.dead * 2 ^ 10 + b2n x.grouped * 2 ^ 9 + b2n x.ordered * 2 ^ 8)))) s

/-! ### Groups (R425 to R433) -/

/-- CODE, REASON and INC, as collective instructions return them. -/
def cgWord (code reason inc : Nat) : Word := wd (inc * 2 ^ 48 + reason * 2 ^ 10 + code)
def State.endCg (s : State) (d : BitVec 6) (code : Nat) (g : Group) : Res := .ok (s.wvar d (cgWord code g.reason g.inc))
def Group.foreign (g : Group) (ctx : Nat) : Bool := g.state ≠ 0 && g.ctx ≠ ctx
/-- Members of a group record, or none where it is bad (R426). -/
def cgMembers (l : List (BitVec 8)) : Option (List (Nat × Nat)) :=
  let n := ofBytes (l.take 8)
  let lim := ofBytes ((l.drop 8).take 8)
  if n = 0 || n > 4096 || lim = 0 || lim ≥ 2 ^ 48 then none
  else
    let ms := (List.range n).map fun j => wd (ofBytes ((l.drop (16 + 4 * j)).take 4))
    if ms.any fun w => fld w 13 3 ≠ 0 || fld w 29 3 ≠ 0 || fld w 0 13 ≥ 4608 || fld w 16 13 ≥ 4608 then none
    else
      let ps := ms.map fun w => (fld w 0 13, fld w 16 13)
      if ps.eraseDups.length = ps.length then some ps else none
/-- A CGFORM that joined group `g` has formed. -/
def Frame.forms (g inc : Nat) (r : Frame) : Frame :=
  match r.saved with
  | [a, h, _] => if a = savForm && h = g then { r with saved := [savFormed, g, inc] } else r
  | _ => r
/-- The members' packages set their entry formed, and joining CGFORMs of this package return OK (R427). -/
def State.formed (s : State) (g inc : Nat) : State :=
  let v := s.group g
  let s := (s.setGroup g { v with state := 2, inc := inc, reason := 0, dropped := 0, joins := [], posted := false }).post 0 3 0 0x0609 (g + inc * 2 ^ 16)
  { s with frames := s.frames.map fun _ r => r.forms g inc
           savedFrames := s.savedFrames.map fun _ l => l.map fun (e : Nat × Frame) => (e.1, e.2.forms g inc) }
/-- Rank 0's package commits: the commit leaves for every other member package. -/
def State.commit (s : State) (g inc : Nat) : State :=
  ((s.group g).others s.pkg).foldl (fun s t => s.flits t 1) (s.formed g inc)
/-- The largest proposal that compares higher, modulo 2^16. -/
def maxProp : List Nat → Nat
  | [] => 0
  | a :: r => r.foldl (fun m p => if (p + 2 ^ 16 - m) % 2 ^ 16 < 2 ^ 15 then p else m) a
/-- The joins a group entry of rank 0's package holds cover all members: commit, or post for the host (R427, R433). -/
def State.tryCommit (s : State) (g : Nat) : State :=
  let v := s.group g
  match v.joins with
  | [] => s
  | j :: _ => match cgMembers j.record with
    | none => s
    | some ms =>
      if ms.all fun m => v.joins.any fun x => (x.core, x.pkg) = m then
        (if nfld (s.die 0).assist 2 1 = 1 then
          (if v.posted then s else (s.setGroup g { v with posted := true }).post 0 3 0 0x0608 (g + maxProp (v.joins.map (·.prop)) * 2 ^ 16))
         else s.commit g (maxProp (v.joins.map (·.prop))))
      else s
/-- A CGFORM's join of group `g` is answered BADREC. -/
def Frame.badRec (g : Nat) (r : Frame) : Frame :=
  match r.saved with
  | [a, h, _] => if a = savForm && h = g then { r with saved := [savBadRec, g] } else r
  | _ => r
/-- A join reaches the package of rank 0; one whose record differs is answered BADREC, a remote one by a message. -/
def State.joinArrive (s : State) (g : Nat) (j : Join) : State :=
  let v := s.group g
  if v.joins.any fun x => x.record ≠ j.record then
    if j.pkg ≠ s.pkg then s.flits j.pkg 1
    else if (s.core j.core).ctxid = j.ctx then
      { s with frames := s.frames.map fun key r => if key / 32 = j.core then r.badRec g else r }
    else { s with savedFrames := s.savedFrames.map fun key l =>
      if key = savedKey j.ctx j.core then l.map fun (e : Nat × Frame) => (e.1, e.2.badRec g) else l }
  else (s.setGroup g { v with joins := (v.joins.filter fun x => !(x.core = j.core && x.pkg = j.pkg)) ++ [j] }).tryCommit g
/-- Join group `g` with a record, and wait; joins of other packages may have come before. -/
def State.join (s : State) (g : Nat) (l : List (BitVec 8)) (ms : List (Nat × Nat)) : Res :=
  let v := s.group g
  let c := s.myCore.ctxid
  let v1 := if v.state = 1 then v else { v with state := 1, ctx := c, members := ms, deflim := ofBytes ((l.drop 8).take 8), posted := false }
  let s := (s.setGroup g v1).updCur fun r => { r with saved := [savForm, g, v.inc] }
  let s := match ms with
    | (_, p) :: _ => if p = s.pkg then s.joinArrive g ⟨s.turn, s.pkg, c, l, (v.inc + 1) % 2 ^ 16⟩ else s.flits p 1
    | [] => s
  .hold s .wait
/-- The record at X[b]: its head, then its members. -/
def State.cgRecord (s : State) (i : Instr) (b : BitVec 6) (h : State → List (BitVec 8) → Res) : Res :=
  (s.loadRun i (s.x b) (cgAddrs (s.xn b) 16) 8 16 0 {} State.byteNow).res fun s l =>
    let n := ofBytes (l.take 8)
    if n = 0 || n > 4096 then h s l
    else (s.loadRun i (s.x b) (cgAddrs (s.xn b) (16 + 4 * n)) 8 (16 + 4 * n) 0 {} State.byteNow).res h
where
  cgAddrs (b n : Nat) : List Nat := (List.range n).map (b + ·)
def execCgform (m : Bool) (d a b c : BitVec 6) (s : State) : Out :=
  let i := Instr.cgform m d a b c
  issue m 12 i [rX a, rX b, rX c, rX d] (fun s =>
    let g := s.xn a
    let v := s.group g
    match s.cur.saved with
    | [x, _, inc] =>
      if x = savFormed then .ok (s.wvar d (cgWord 0 0 inc)) else .hold s .wait
    | [_, _, inc, reason] => .ok (s.wvar d (cgWord 1 reason inc))
    | [_, _] => s.endCg d 3 v
    | _ =>
      if fld s.myCore.capw 2 1 = 0 then .trap s (privTrap i)
      else if g ≥ 64 then .ok (s.wvar d 2#64)
      else if v.foreign s.myCore.ctxid then .ok (s.wvar d 6#64)
      else if s.x b = 0#64 then
        (if v.state = 1 || v.state = 2 then s.endCg d 5 v else (s.setGroup g { v with state := 0, members := [] }).endCg d 0 v)
      else if v.state = 2 || (v.state = 1 && s.frames.l.any fun e => e.1 / 32 = s.turn && e.2.saved.take 2 = [savForm, g]) then s.endCg d 5 v
      else s.cgRecord i b fun s l =>
        match cgMembers l with
        | none => s.endCg d 3 v
        | some ms =>
          if !ms.contains (s.turn, s.pkg) then s.endCg d 4 v
          else if s.relWaits true 0xFFFF then s.relHold
          else s.join g l ms) s
def execCgsig (m : Bool) (d a b : BitVec 6) (s : State) : Out :=
  let i := Instr.cgsig m d a b
  issue m 12 i [rX a, rX b, rX d] (fun s =>
    let g := s.xn a
    let v := s.group g
    if fld s.myCore.capw 2 1 = 0 then .trap s (privTrap i)
    else if g ≥ 64 then .ok (s.wvar d 2#64)
    else if v.foreign s.myCore.ctxid then .ok (s.wvar d 6#64)
    else if s.x b = 0#64 || s.xn b > 4 then s.endCg d 3 v
    else if v.state = 0 || v.state = 1 then s.endCg d 7 v
    else if !v.member s.pkg s.turn then s.endCg d 4 v
    else if v.state = 3 then s.endCg d 1 v
    else
      let s := s.groupAbort g (s.xn b)
      s.endCg d 0 (s.group g)) s
def execCgwait (m : Bool) (d a b e c : BitVec 6) (s : State) : Out :=
  let i := Instr.cgwait m d a b e c
  issue m 12 i [rX a, rX b, rX c, rX e, rX d] (fun s =>
    let g := s.xn a
    let v := s.group g
    let go (s : State) (inc : Nat) : Res :=
      ((s.updCur fun r => { r with saved := [savGroup, g, inc] }).load i (s.x b) 8 0 regLoad).res fun s x =>
        if x ≥ s.xn e then .ok (s.wvar d (cgWord 0 0 inc)) else .hold s .wait
    match s.cur.saved with
    | [_, _, inc, reason] => .ok (s.wvar d (cgWord 1 reason inc))
    | [_, _, inc] => go s inc
    | _ =>
      if g ≥ 64 then .ok (s.wvar d 2#64)
      else if v.foreign s.myCore.ctxid then .ok (s.wvar d 6#64)
      else if v.state = 0 || v.state = 1 then s.endCg d 7 v
      else if !v.member s.pkg s.turn then s.endCg d 4 v
      else if s.xn b % 8 ≠ 0 then .trap s ⟨3, s.x b, w0 i, 0#64⟩
      else if v.state = 3 then s.endCg d 1 v
      else go s v.inc) s
/-- Rank of a core among the members. -/
def Group.rankOf (g : Group) (pkg k : Nat) : Nat := g.members.findIdx fun m => m = (k, pkg)
def execCgstat (m : Bool) (d a : BitVec 6) (s : State) : Out :=
  issue m 12 (.cgstat m d a) [rX a, rX d] (fun s =>
    let g := s.xn a
    let v := s.group g
    .ok (s.wvar d (
      if g ≥ 64 then 2#64
      else if v.foreign s.myCore.ctxid then 6#64
      else wd (v.word + (if v.member s.pkg s.turn then 2 ^ 44 + v.rankOf s.pkg s.turn * 2 ^ 32 else 0))))) s

end Sys2Proof.Machine
end

