-- ==== Sys2Proof/Machine/Squarer.lean ====
section
/-! DEFINITION. What a matrix command computes (R81 to R105) and what a drain writes (R171, R172). -/
namespace Sys2Proof.Machine

/-! ### Reading operands -/

/-- Pool offsets of the bytes that hold stored element (r, c): pitch, then each byte through the swizzle from the buffer's base
(R99, R161). -/
def Rec.at (r : Rec) (base row col : Nat) : List Nat :=
  (List.range (max 1 (elemBits r.fmt / 8))).map fun i => base + swizzle r.swz (r.off - base + row * r.rowBytes + col * elemBits r.fmt / 8 + i)
def State.opnd (s : State) (k : Nat) (r : Rec) (base row col : Nat) : Nat :=
  let v := ofBytes ((r.at base row col).flatMap fun a => s.poolBytes k a 1)
  if elemBits r.fmt = 4 then nfld v (4 * (col % 2)) 4 else v
/-- The scale byte of MX block `b` of line `n` (R161); none is NaN (R65). -/
def State.mxScale (s : State) (k : Nat) (r : Rec) (kk n b : Nat) : Option Int :=
  let e := s.poolN k (r.soff + n * ((kk + 31) / 32) + b) 1
  if e = 255 then none else some ((e : Int) - 127)
def scaleFp (e : Option Int) (x : Fp) : Fp :=
  match e, x with
  | none, _ => .nan
  | some i, .num g q => .num g (q.scale i)
  | _, x => x
/-- Element `j` along k of line `n` (a row of A, a column of B); missing ones are +0 (R81). LQ4 elements are table entries (R92). -/
def State.lineEl (s : State) (k : Nat) (r : Rec) (base : Nat) (isA : Bool) (kk n j : Nat) : Fp :=
  let (row, col) := if isA = r.trans then (j, n) else (n, j)
  if row ≥ r.rows || col ≥ r.cols then .zero false
  else
    let c := s.opnd k r base row col
    if r.fmt = 9 then Fp.ofQ (Q.int (lq4Q c))
    else if r.mx then scaleFp (s.mxScale k r kk n (j / 32)) (elemVal r.fmt c)
    else elemVal r.fmt c
/-- Pool bytes of accumulator tile `t` (R16, R98; log 6). -/
def Core.tileOff (c : Core) (t : Nat) : Nat := (pwFrames c.partw + t) * 4096
def State.tile (s : State) (k t : Nat) : List Nat := (List.range 1024).map fun n => s.poolN k ((s.core k).tileOff t + 4 * n) 4
def State.setTile (s : State) (k t : Nat) (l : List Nat) : State := s.poolStore k ((s.core k).tileOff t) (l.flatMap (bytesOf 4))
/-- A from an accumulator tile through the down-converter (R98): lines and flags. -/
def State.downLines (s : State) (k : Nat) (r : Rec) (seed : Word) : List (List Fp) × Nat :=
  let l := s.tile k r.tile
  let one (n : Nat) : Nat × Nat :=
    let a := wd (selfBase + (s.core k).tileOff r.tile + 4 * n)
    convTo r.ef (if r.dmode = 1 then 4 else 0) (hsrBits seed a) false (fltVal 1 (l.getD n 0))
  ((List.range 32).map fun i => (List.range 32).map fun j => fltVal r.ef (one (32 * i + j)).1,
   (List.range 1024).foldl (fun f n => f ||| (one n).2) 0)
/-- Positions of kept elements: compressed row n of column j (R94). -/
def State.metaPos (s : State) (k moff n j : Nat) : Nat := nfld (s.poolN k (moff + (32 * n + j) / 4) 1) (2 * ((32 * n + j) % 4)) 2
def State.metaOk (s : State) (k : Nat) (r : Rec) (rows : Nat) : Bool :=
  (List.range (rows / 2)).all fun g => (List.range 32).all fun j => s.metaPos k r.moff (2 * g) j < s.metaPos k r.moff (2 * g + 1) j
def State.permOf (s : State) (k : Nat) (r : Rec) (kk : Nat) : List Nat := (List.range kk).map fun i => s.poolN k (r.poff + 2 * i) 2
def isPerm (l : List Nat) : Bool := l.all (· < l.length) && (List.range l.length).all fun i => l.contains i

/-! ### Alignment and the block (R83, R84, R86, R96) -/

def pathF (t : Nat) : Nat := if t = 2 || t = 3 then 15 else if t = 4 || t = 5 then 9 else if t = 10 || t = 11 then 8 else 7
def alignExp (t : Nat) (seg : List Fp) : Int :=
  if t = 10 || t = 11 then 8
  else if t = 9 then 7
  else (seg.foldl (fun m x => match x with
    | .num _ q => if q.n = 0 then m else max m (floorLog2 q.n.natAbs q.d + 1)
    | _ => m) (-512))
/-- A NaN or infinite element, whose result R89 sets, enters S, RA and CB as 0 (R84 gives it no integer; DESIGN CHOICE, log 121). -/
def alignElem (t : Nat) (e : Int) (x : Fp) : Int :=
  match x with
  | .num _ q => if t = 9 then q.n else if q.n = 0 then 0 else (roundIntQ 0 0 (q.scale (pathF t - e))).1
  | _ => 0
structure Seg where
  e : Int
  al : List Int
  bad : Bool
  nv : Bool
  deriving DecidableEq, Repr
def mkSeg (t : Nat) (seg : List Fp) : Seg :=
  let e := alignExp t seg
  { e := e, al := seg.map (alignElem t e), bad := seg.any fun x => x.isNan || x.isInf,
    nv := seg.any (·.isInf) && !seg.any (·.isNan) }
def sumSq (l : List Int) : Nat := l.foldl (fun a x => a + (x * x).toNat) 0
/-- S, row term and P of one cell (R86, R96). -/
structure CellReg where
  sq : Nat
  row : Nat
  p : Int
  deriving DecidableEq, Repr
def cellReg (a b : List Int) (cb : Nat) : CellReg :=
  let s := (a.zip b).foldl (fun t x => t + ((x.1 + x.2) * (x.1 + x.2)).toNat) 0
  let r := sumSq a
  { sq := s, row := r, p := ((s : Int) - r - cb) / 2 }
structure Block where
  a : List Seg
  b : List Seg
  cb : List Nat
  cells : List CellReg
  deriving Repr
/-- One k-block from the lines of A and B; `pos` gives the logical k of kept element n of column j in sparse mode. -/
def mkBlock (ta tb : Nat) (la lb : List (List Fp)) (kb : Nat) (pos : Option (Nat → Nat → Nat)) : Block :=
  let a := la.map fun l => mkSeg ta (((l.drop (32 * kb)).take 32) ++ List.replicate (32 - ((l.drop (32 * kb)).take 32).length) (Fp.zero false))
  let n := if pos.isSome then 16 else 32
  let b := lb.map fun l => mkSeg tb ((l.drop (n * kb)).take n)
  let cb := b.map fun g => sumSq g.al
  let cells := (List.range 1024).map fun c =>
    let ga := a.getD (c / 32) ⟨0, [], false, false⟩
    let gb := b.getD (c % 32) ⟨0, [], false, false⟩
    let al := match pos with
      | none => ga.al
      | some f => (List.range gb.al.length).map fun i => ga.al.getD (f (n * kb + i) (c % 32) - 32 * kb) 0
    cellReg (if pos.isSome then al else al) (gb.al ++ List.replicate (al.length - gb.al.length) 0) (cb.getD (c % 32) 0)
  { a := a, b := b, cb := cb, cells := cells }

/-! ### The accumulator (R88 to R92) -/

/-- Factor of a line in one block: a power of two, or the LQ4 scale code (R88, R92). -/
def State.lineF (s : State) (k : Nat) (r : Rec) (isA : Bool) (kk n kb : Nat) (g : Seg) : Q :=
  if r.ef = 9 then (if n < r.outer isA then Q.int (s.poolN k (r.soff + n * (kk / 64) + kb / 2) 1) else Q.int 1)
  else (Q.int 1).scale (g.e - pathF r.ef)
/-- K of R92 with its flags: NaN with NV where a superscale is negative, infinite or NaN; infinite where K overflows (R70). A
superscale of −0 counts as zero (DESIGN CHOICE, log 121). -/
def lqK (a b : Rec) : Fp × Nat :=
  let sup (r : Rec) : List Fp := if r.ef = 9 then [fltVal 1 r.sup] else []
  let l := sup a ++ sup b
  if l.any fun x => match x with | .num _ q => q.n < 0 | _ => true then (.nan, 16)
  else
    let q := l.foldl (fun p x => match x with | .num _ q => (p.mul q).div (Q.int (127 * 255)) | _ => p) (Q.int 1)
    if q.n = 0 then (.num false (Q.int 0), 0)
    else
      let (c, f) := roundFlt 1 0 0 q
      (fltVal 1 c, f)
/-- V × K rounded once to FP32 (R92): its value and flags. The spec gives an exact zero product no sign and a zero V under an infinite K no
result: both are +0, with no flag (DESIGN CHOICE, log 121). -/
def lqScaled (kq : Fp) (v : Q) : Fp × Nat :=
  if v.n = 0 then (.zero false, 0)
  else match kq with
    | .num _ q => if q.n = 0 then (.zero false, 0) else let (c, f) := finish 1 (.ofQ (v.mul q), 0); (fltVal 1 c, f)
    | .inf _ => (.inf (v.n < 0), 0)
    | .nan => (.nan, 0)
/-- One element after one block: its new bits and the flags (R88 to R90, R92). A finite V leaves an infinite element unchanged. -/
def accStep (int lq : Bool) (kq : Fp) (c : Nat) (bad : Bool) (v : Q) : Nat × Nat :=
  if int then
    let x := intVal 14 c + v.n / v.d
    if x > intMax 14 then (intCode 14 (intMax 14), 32) else if x < intMin 14 then (intCode 14 (intMin 14), 32) else (intCode 14 x, 0)
  else if bad || (lq && kq.isNan) then (nanCode 1, 0)
  else
    let (x, f) := if lq then lqScaled kq v else (Fp.ofQ v, 0)
    if (fltVal 1 c).isInf then (c, f)
    else
      let (r, g) := finish 1 (fpAdd (fltVal 1 c) x)
      (r, f ||| g)
/-- Any poisoned byte among those of a list of pool ranges (R412). -/
def State.poolPoison (s : State) (k : Nat) (rs : List (Nat × Nat)) : Bool := rs.any fun r => (List.range r.2).any fun i => s.poisonedAt (s.poolPa k (r.1 + i)) 1
/-- Bytes of one operand a block reads: the elements at the depths `js` of every line. -/
def blockBytes (r : Rec) (base : Nat) (isA : Bool) (js : List Nat) : List (Nat × Nat) :=
  if r.acc then []
  else (List.range (r.outer isA)).flatMap fun l => js.flatMap fun j =>
    let (row, col) := if isA = r.trans then (j, l) else (l, j)
    if row < r.rows && col < r.cols then (r.at base row col).map fun a => (a, 1) else []
/-- Scale bytes one operand gives block `kb` (R161). -/
def blockScales (r : Rec) (isA : Bool) (kk kb : Nat) : List (Nat × Nat) :=
  if r.acc then []
  else if r.mx then (List.range (r.outer isA)).map fun n => (r.soff + n * ((kk + 31) / 32) + kb, 1)
  else if r.fmt = 9 then (List.range (r.outer isA)).map fun n => (r.soff + n * (kk / 64) + kb / 2, 1)
  else []
structure MulRun where
  acc : List Nat
  flags : Nat
  prog : Nat
  code : Nat
  raw : List Nat
/-- Poison in what block `kb` reads: the tile at the first block, scales and elements; `pi` is the permutation (R101, R170, R412). -/
def State.blockPoison (s : State) (k : Nat) (m : Cmd) (pi : Nat → Nat) (kb : Nat) : Bool :=
  let a := m.recA
  let b := m.recB
  let kk := a.kdim true (m.op = 1)
  let d := if m.op = 1 then 16 else 32
  let js (n hi : Nat) : List Nat := ((List.range n).map (· + n * kb)).filterMap fun j => if j < hi then some (pi j) else none
  (kb = 0 && (s.core k).accPoison.contains (fld m.w2 0 4)) ||
    s.poolPoison k (blockScales a true kk kb ++ blockScales b false kk kb ++ blockBytes a (m.bases.getD 0 0) true (js 32 kk) ++
      blockBytes b (m.bases.getD 1 0) false (js d (b.depth false)))
/-- Blocks in ascending k (R88); poison ends the command, earlier blocks standing (R170). `poi` says which blocks read poison. -/
def State.mulBlocks (s : State) (k : Nat) (m : Cmd) (poi : Nat → Bool) (la lb : List (List Fp)) (pos : Option (Nat → Nat → Nat)) (kq : Fp) : Nat → Nat → MulRun → MulRun
  | 0, _, z => z
  | n + 1, kb, z =>
    let a := m.recA
    let b := m.recB
    let sp := pos.isSome
    let kk := a.kdim true sp
    if poi kb then { z with code := 0xA }
    else
      let blk := mkBlock a.ef b.ef la lb kb pos
      let int := isInt a.ef
      let lq : Bool := a.ef = 9 || b.ef = 9
      let nv := if (blk.a ++ blk.b).any (·.nv) then 16 else 0
      let out := (List.range 1024).map fun c =>
        let ga := blk.a.getD (c / 32) ⟨0, [], false, false⟩
        let gb := blk.b.getD (c % 32) ⟨0, [], false, false⟩
        let p := (blk.cells.getD c ⟨0, 0, 0⟩).p
        let v := if p = 0 then Q.int 0 else ((Q.int p).mul (s.lineF k a true kk (c / 32) kb ga)).mul (s.lineF k b false kk (c % 32) kb gb)
        accStep int lq kq (z.acc.getD c 0) (ga.bad || gb.bad) v
      let raw := (blk.cells.map fun r => r.sq % 2 ^ 37 + (if r.p < 0 then 2 ^ 63 else 0)) ++ blk.cells.map (·.row) ++ blk.cb ++
        (blk.a ++ blk.b).map fun g => (g.e % 65536).toNat
      s.mulBlocks k m poi la lb pos kq n (kb + 1)
        { acc := out.map (·.1), flags := out.foldl (fun f x => f ||| x.2) (z.flags ||| nv), prog := kb + 1, code := 0, raw := raw }
/-- Run MXMUL or MXSPM: state, units, flags, code. The metadata and the permutation table are checked before any operand is read
(R95, R101, R170). A poisoned record, metadata tile or table ends the command with POISON before that check and before ZERO (DESIGN CHOICE,
log 147). -/
def State.runMul (s : State) (k : Nat) (m : Cmd) : State × Nat × Nat × Nat :=
  let a := m.recA
  let b := m.recB
  let sp : Bool := m.op = 1
  let kk := a.kdim true sp
  let t := fld m.w2 0 4
  let zero : Bool := fld m.w2 4 1 = 1
  if s.poolPoison k [(m.w0.toNat, 64), (m.w1.toNat, 64)] || (sp && s.poolPoison k [(b.moff, 4 * kk)]) then (s, 0, 0, 0xA)
  else if sp && !s.metaOk k b (kk / 2) then (s, 0, 0, 1)
  else if a.pen && s.poolPoison k [(a.poff, 2 * kk)] then (s, 0, 0, 0xA)
  else if a.pen && !isPerm (s.permOf k a kk) then (s, 0, 0, 2)
  else
    let perm := s.permOf k a kk
    let pi (j : Nat) : Nat := if a.pen then perm.getD j 0 else j
    let (la, f0) := if a.acc then
        let (l, f) := s.downLines k a m.seed
        (l.map fun r => (List.range kk).map fun j => r.getD (pi j) (.zero false), f)
      else ((List.range 32).map fun n => (List.range kk).map fun j => s.lineEl k a (m.bases.getD 0 0) true kk n (pi j), 0)
    let lb := (List.range 32).map fun n => (List.range (b.depth false)).map fun j => s.lineEl k b (m.bases.getD 1 0) false kk n (pi j)
    let pos : Option (Nat → Nat → Nat) := if sp then some fun n j => 4 * (n / 2) + s.metaPos k b.moff n j else none
    let need := if isInt a.ef then 14#4 else 1#4
    let src : Bool := a.acc && (s.core k).accPoison.contains a.tile
    let s := if zero then s.updCore k fun c => { c with accTag := c.accTag.put t need, accPoison := c.accPoison.filter (· ≠ t) } else s
    let poi (kb : Nat) : Bool := (kb = 0 && src) || s.blockPoison k m pi kb
    let acc := if zero then List.replicate 1024 0 else s.tile k t
    let lq : Bool := a.ef = 9 || b.ef = 9
    let (kq, f1) := lqK a b
    let z := s.mulBlocks k m poi la lb pos kq ((kk + 31) / 32) 0 { acc := acc, flags := f0 ||| (if lq then f1 else 0), prog := 0, code := 0, raw := [] }
    let s := s.setTile k t z.acc
    let s := if fld m.w2 5 1 = 1 && z.code = 0 then s.updCore k fun c => { c with raws := c.raws.put c.ctxid z.raw } else s
    (s, z.prog, z.flags, z.code)

/-! ### Drains and clears (R171 to R173) -/

/-- The raw registers as bytes; zeros with −512 in every exponent where none are kept (R172). -/
def rawBytes (raw : List Nat) : List (BitVec 8) :=
  let l := if raw = [] then List.replicate 2080 0 ++ List.replicate 64 (65536 - 512) else raw
  (l.take 2080).flatMap (bytesOf 8) ++ (l.drop 2080).flatMap (bytesOf 2)
def State.drainEl (s : State) (k : Nat) (m : Cmd) (tag : Nat) (l : List Nat) (i j : Nat) : State × Nat :=
  let r := m.recA
  let (row, col) := if r.trans then (j, i) else (i, j)
  let as := r.at (m.bases.getD 0 0) row col
  let a := as.headD 0
  let w := elemBits r.fmt
  let hi : Bool := w = 4 && col % 2 = 1
  let addr := wd (selfBase + a) ||| (if hi then 0x8000000000000000#64 else 0#64)
  let (c, f) := convTo r.fmt (fld m.w2 8 3) (hsrBits m.seed addr) (tag = 14) (elemVal tag (l.getD (32 * i + j) 0))
  let l := if w = 4 then [BitVec.ofNat 8 (if hi then s.poolN k a 1 % 16 + 16 * c else c)] else bytesOf (w / 8) c
  ((as.zip l).foldl (fun s b => s.poolStore k b.1 [b.2]) s, f)
def State.runDrn (s : State) (k : Nat) (m : Cmd) : State × Nat × Nat × Nat :=
  let r := m.recA
  let t := fld m.w2 0 4
  if s.poolPoison k [(m.w0.toNat, 64)] then (s, 0, 0, 0xA)
  else if fld m.w2 5 1 = 1 then (s.poolStore k r.off (rawBytes (s.core k).raw), 0, 0, 0)
  else if (s.core k).accPoison.contains t then (s, 0, 0, 0xA)
  else
    let tag := ((s.core k).accTag.get t 0#4).toNat
    let l := s.tile k t
    let (rows, cols) := if r.trans then (r.cols, r.rows) else (r.rows, r.cols)
    let (s, f) := (List.range (rows * cols)).foldl (fun (z : State × Nat) n =>
      let (s, f) := z.1.drainEl k m tag l (n / cols) (n % cols)
      (s, z.2 ||| f)) (s, 0)
    let s := s.heal ((r.extents (m.bases.getD 0 0)).flatMap fun e => (List.range e.2).map fun i => s.poolPa k (e.1 + i))
    (if fld m.w2 4 1 = 1 then s.setTile k t (List.replicate 1024 0) else s, 0, f, 0)
def State.runClr (s : State) (k : Nat) (m : Cmd) : State × Nat × Nat × Nat :=
  let t := fld m.w2 0 4
  let s := s.updCore k fun c => { c with accTag := c.accTag.put t (BitVec.ofNat 4 (fld m.w2 8 4)), accPoison := c.accPoison.filter (· ≠ t) }
  (s.setTile k t (List.replicate 1024 0), 0, 0, 0)
def State.runMx (s : State) (k : Nat) (m : Cmd) : State × Nat × Nat × Nat :=
  if m.bad ≠ 0 then (s, 0, 0, m.bad)
  else match m.op with
    | 2 => s.runDrn k m
    | 3 => s.runClr k m
    | _ => s.runMul k m
/-- The engine takes its oldest command (R164): its effect, with the result kept until it completes. Nothing happens while the context is
frozen (R394). -/
def State.startMx (s : State) (k : Nat) : State :=
  let e := (s.core k).mx
  match e.running, e.queue with
  | [], m :: r =>
    if s.halted k then s else
    let (s, p, f, c) := s.runMx k m
    s.updCore k fun v => { v with mx := { v.mx with running := [m], queue := r, result := some (p, f, c) } }
  | _, _ => s
def State.endMx (s : State) (k : Nat) : State :=
  let e := (s.core k).mx
  match e.running, e.result with
  | m :: _, some (p, f, c) =>
    if s.halted k || s.cmdDue k m || s.mailWaits k m.who (m.mail false) then s else
    (s.updCore k fun v => { v with mx := { v.mx with running := [], result := none } }).finishCmd k false m p f c (if m.op = 2 then m.recA.swz else 0)
  | _, _ => s

end Sys2Proof.Machine
end

