-- ==== Sys2Proof/Machine/Save.lean ====
section
/-! DEFINITION. Pre-emption: stopping a context on a core, its core record, granules claimed and reloaded, resuming (R403 to R410). The
plain data of savedCores and savedFrames stands for the record's opaque areas. -/
namespace Sys2Proof.Machine

/-- The heap slot as the part writes it (R302). -/
def heapBytes (g : Msg) : List (BitVec 8) :=
  bytesOf 8 g.hdr0.toNat ++ bytesOf 8 g.hdr1.toNat ++ List.replicate 16 0#8 ++ g.payload ++ List.replicate (256 - g.payload.length + 32) 0#8

/-! ### The core record (R410) -/

def taskBytes (t : Task) : List (BitVec 8) := ((List.range 8).map fun i => t.words.getD i 0#64).flatMap fun w => bytesOf 8 w.toNat
def slogBytes (e : SlogE) : List (BitVec 8) :=
  bytesOf 8 (e.word false).toNat ++ ((List.range 64).map fun i => ((e.bytes.find? fun b => b.1 = i).map (·.2)).getD 0#8) ++ List.replicate 24 0#8
/-- Slots of `n` bytes each, empty ones zero. -/
def slotBytes (n count : Nat) (f : Nat → Option (List (BitVec 8))) : List (BitVec 8) :=
  (List.range count).flatMap fun i => (f i).getD (List.replicate n 0#8)
/-- The areas whose layout software knows: deque, side log, inbox, outbox, raw block registers. -/
def State.writeRecord (s : State) (ctx k : Nat) : State :=
  match s.savePa ctx k, s.savedCores.get? (savedKey ctx k) with
  | some r, some c =>
    ((((s.unitStore (r + 0x500) (slotBytes 64 64 fun i => (c.deque[i]?).map taskBytes)).unitStore (r + 0x1500)
      (slotBytes 96 64 fun i => (c.slog.get? i).map slogBytes)).unitStore (r + 0x2D00)
      (slotBytes 320 32 fun i => (c.inbox.get? i).map heapBytes)).unitStore (r + 0x5500)
      (slotBytes 320 16 fun i => (c.outbox[i]?).map fun e => heapBytes e.msg)).unitStore (r + 0x6900) (rawBytes c.raw)
  | _, _ => s

/-! ### Stopping a context on a core (R405) -/

/-- Every firing of the core stands where its context may be taken off (R405). -/
def State.mayLeave (s : State) (k : Nat) : Bool := (framesOf k).all (fun f => (s.fr k f).mayLeave) && (s.core k).moving.isEmpty
/-- What stays with the core when its context leaves: translations, granule map, raw block registers of each context (R172). -/
def Core.bare (c : Core) : Core := { tlb := c.tlb, owner := c.owner, raws := c.raws }
/-- The resident context leaves the core; its waits and log entries walk again when it resumes. -/
def State.preempt (s : State) (k : Nat) : State :=
  let c := s.core k
  let key := savedKey c.ctxid k
  let fs := (framesOf k).filterMap fun f =>
    let r := s.fr k f
    if r.stat = .free then none else some (f, if r.hold = .walk then { r with hold := .no, stat := .ready } else r)
  let s := { s with
    savedCores := s.savedCores.put key { c with issuing := none, leave := false, frozen := false, lastUsed := s.tick }
    savedFrames := s.savedFrames.put key fs
    walks := s.walks.filter fun w => !w.who.on k
    ans := s.ans.filter fun a => !a.who.on k }
  let s := (framesOf k).foldl (fun s f => s.setFr k f {}) (s.setCore k c.bare)
  let s := match s.savePa c.ctxid k with
    | some r => s.unitStore (r + 0x100) (List.replicate 32 0#8)
    | none => s
  ((s.setHeld c.ctxid k true).writeRecord c.ctxid k).ticked

/-! ### Granules (R406, R407) -/

def Core.held (c : Core) (p : Nat) : Option (Nat × Nat) := c.owner.get? p
/-- Owners of granules that have ended are no owners. -/
def State.dropOwners (s : State) (k ctx : Nat) : State :=
  s.updCore k fun c => { c with owner := ⟨c.owner.l.filter fun e => e.2.1 ≠ ctx && s.heldSave e.2.1 k⟩ }
/-- The granule to claim for `ctx` where all are held: of the context that was resident longest ago, and not its own. -/
def State.victim (s : State) (k ctx : Nat) : Option (Nat × Nat × Nat) :=
  match (s.core k).owner.l.filter fun e => s.heldSave e.2.1 k && e.2.1 ≠ (s.core k).ctxid && e.2.1 ≠ ctx with
  | [] => none
  | a :: r => some (r.foldl (fun a b => if (s.savedCores.get (savedKey b.2.1 k) {}).lastUsed < (s.savedCores.get (savedKey a.2.1 k) {}).lastUsed then b else a) a)
/-- The poison of `n` bytes moves with them (R412). -/
def State.carryPoison (s : State) (src dst n : Nat) : State :=
  { s with poison := s.poison ++ (s.poison.filter fun u => src ≤ u.1 && u.1 + u.2 ≤ src + n).map fun u => (dst + (u.1 - src), u.2) }
def granulePa (s : State) (k p : Nat) : Nat := s.here (0xC000000000 + k * 0x100000 + p * 4096)
/-- A claimed granule is written to its owner's pool image and its INIMG bit is set. -/
def State.image (s : State) (k p ctx g : Nat) : State :=
  match s.savePa ctx k with
  | none => s
  | some r =>
    let b := s.unitRd (r + 0x100 + g / 8) 1
    let a := r + 0x10000 + 4096 * g
    ((s.unitStore a (s.rdBytes (granulePa s k p) 4096)).carryPoison (granulePa s k p) a 4096).unitWr (r + 0x100 + g / 8) 1 (b ||| 2 ^ (g % 8))
/-- Take a physical granule for granule `g` of `ctx`: one nobody holds, else one of a context that is not resident. -/
def State.takeGranule (s : State) (k ctx g : Nat) : State × Nat :=
  match (List.range 256).find? fun p => ((s.core k).owner.get? p).isNone with
  | some p => (s.updCore k fun c => { c with owner := c.owner.put p (ctx, g) }, p)
  | none => match s.victim k ctx with
    | some (p, c, h) => ((s.image k p c h).updCore k fun x => { x with owner := x.owner.put p (ctx, g) }, p)
    | none => (s, g)
def State.takeAll (s : State) (k ctx : Nat) (gs : List Nat) : State := gs.foldl (fun s g => (s.takeGranule k ctx g).1) s
/-- Granules of the image come back before anything issues. -/
def State.reload (s : State) (k ctx : Nat) : State :=
  match s.savePa ctx k with
  | none => s
  | some r =>
    (List.range 256).foldl (fun s g =>
      let b := s.unitRd (r + 0x100 + g / 8) 1
      if nfld b (g % 8) 1 = 0 then s
      else
        let (s, p) := s.takeGranule k ctx g
        let a := r + 0x10000 + 4096 * g
        ((s.store (granulePa s k p) (s.unitBytes a 4096)).carryPoison a (granulePa s k p) 4096).unitWr (r + 0x100 + g / 8) 1 (b - 2 ^ (g % 8))) s
/-- A message as a slot of the record holds it. -/
def Msg.fromSlot (g : Msg) (l : List (BitVec 8)) : Msg :=
  let h1 := wd (ofBytes ((l.drop 8).take 8))
  { msgOf (wd (ofBytes (l.take 8))) h1 ((l.drop 32).take (min 256 (fld h1 0 9))) with kind := g.kind, entry := g.entry, words := g.words, capw := g.capw, no := g.no }
/-- The raw block registers from their layout (R172). -/
def rawOf (l : List (BitVec 8)) : List Nat :=
  ((List.range 2080).map fun i => ofBytes ((l.drop (8 * i)).take 8)) ++ (List.range 64).map fun i => ofBytes ((l.drop (16640 + 2 * i)).take 2)
/-- What the record holds in the areas whose layout software knows, for as many tasks, entries and messages as were saved (R410; log 35). -/
def State.readRecord (s : State) (ctx k : Nat) (c : Core) : Core :=
  match s.savePa ctx k with
  | none => c
  | some r =>
    { c with
      deque := (c.deque.zipIdx).map fun e => { e.1 with words := words64 8 (s.unitBytes (r + 0x500 + 64 * e.2) 64) }
      slog := c.slog.map fun n e => if n ≥ 64 then e else
        { e with bytes := e.bytes.map fun b => if b.1 < 64 then (b.1, ((s.unitBytes (r + 0x1500 + 96 * n + 8 + b.1) 1).headD 0#8)) else b }
      inbox := c.inbox.map fun n g => g.fromSlot (s.unitBytes (r + 0x2D00 + 320 * n) 320)
      outbox := (c.outbox.zipIdx).map fun e => { e.1 with msg := e.1.msg.fromSlot (s.unitBytes (r + 0x5500 + 320 * e.2) 320) }
      raws := c.raws.put ctx (rawOf (s.unitBytes (r + 0x6900) 16768)) }
/-- A saved context is resident again on its core. -/
def State.resumeCtx (s : State) (k ctx : Nat) : State :=
  let key := savedKey ctx k
  match s.savedCores.get? key with
  | none => s
  | some c =>
    let now := s.core k
    let s := s.reload k ctx
    let now' := s.core k
    let c := s.readRecord ctx k { c with raws := now.raws }
    let s := { s with savedCores := s.savedCores.del key }
    let s := s.setCore k { c with tlb := now.tlb, owner := now'.owner }
    let s := (s.savedFrames.get key []).foldl (fun s e => s.setFr k e.1 e.2) s
    let s := ({ s with savedFrames := s.savedFrames.del key }).setHeld ctx k false
    (framesOf k).foldl (fun s f => s.wake k f) (s.replay k)

end Sys2Proof.Machine
end

