-- ==== Sys2Proof/Machine/Access.lean ====
section
/-! DEFINITION. Scalar loads, stores, prefetches and the jump table (majors 0x15, 0x20 to 0x23; R119, R122 to R124). -/
namespace Sys2Proof.Machine

/-! ### Shapes -/

/-- A literal offset that is no multiple of the size traps whatever the base register holds (R45). -/
def litBad (len n : Nat) (off : Word) : Bool := len = 12 && off.toNat % n ≠ 0
/-- LD and LDZ: order ar also waits for what a release waits for (R194, R195). -/
def loadI (i : Instr) (m : Bool) (len : Nat) (t a : BitVec 6) (size ord : BitVec 2) (off : Word) (sx : Bool) (s : State) : Out :=
  issue m len i [rX a, rX t] (fun s =>
    let n := nbytes size
    let ea := s.x a + off
    if litBad len n off then .trap s ⟨3, ea, w0 i, 0#64⟩
    else if ord = 3#2 && s.relWaits true 0xFFFF then s.relHold
    else (s.load i ea n 0 regLoad).res fun s v => .ok (s.wvar t (if sx then sext (8 * n) v else wd v))) s
/-- ST: orders rel and ar are releases at .sys, and ar also holds later accesses until it is performed (R194, R195, R201). -/
def storeI (i : Instr) (m : Bool) (len : Nat) (t a : BitVec 6) (size ord : BitVec 2) (off : Word) (s : State) : Out :=
  issue m len i [rX a, rX t] (fun s =>
    let n := nbytes size
    let ea := s.x a + off
    if litBad len n off then .trap s ⟨3, ea, w0 i, 0#64⟩
    else (s.storeAt i ea (bytesOf n (s.xn t)) (ord = 2#2 || ord = 3#2) (ord = 3#2) (regStore ea.toNat)).res fun s _ => .ok s) s
/-- A prefetch has no effect but the count of those dropped (R122, R123). Whether one to another package completes with TIMEOUT is open, and
it does where no path is up (DESIGN CHOICE, log 127). -/
def prefDrops (s : State) (ea : Word) (n : Nat) : Bool :=
  let late (pa : Nat) : Bool := isRemote s pa && (!s.pathUp || Config.freeBit s.tick ea.toNat)
  fld ea 56 8 ≠ 0 || ea.toNat % n ≠ 0 || (match s.place s.turn ea.toNat n needR with
    | .mem pa w _ => late pa || s.poisonedAt (readPa s.turn pa w) n
    | .reg pa _ => late pa
    | _ => true)
def prefI (i : Instr) (m : Bool) (len : Nat) (a : BitVec 6) (size : BitVec 2) (off : Word) (s : State) : Out :=
  issue m len i [rX a] (fun s =>
    let n := nbytes size
    .ok (if litBad len n off || prefDrops s (s.x a + off) n then s.ticked.updMine fun c => { c with prefdrop := c.prefdrop + 1#64 } else s.ticked)) s

/-! ### Instructions -/

def execLd (m : Bool) (t a : BitVec 6) (size ord : BitVec 2) (off : BitVec 6) (s : State) : Out :=
  loadI (.ld m t a size ord off) m 4 t a size ord (off6 size off) true s
def execLdLit (m : Bool) (t a : BitVec 6) (size ord : BitVec 2) (lit : Word) (s : State) : Out :=
  loadI (.ldLit m t a size ord lit) m 12 t a size ord lit true s
def execLdz (m : Bool) (t a : BitVec 6) (size ord : BitVec 2) (off : BitVec 6) (s : State) : Out :=
  loadI (.ldz m t a size ord off) m 4 t a size ord (off6 size off) false s
def execLdzLit (m : Bool) (t a : BitVec 6) (size ord : BitVec 2) (lit : Word) (s : State) : Out :=
  loadI (.ldzLit m t a size ord lit) m 12 t a size ord lit false s
def execSt (m : Bool) (t a : BitVec 6) (size ord : BitVec 2) (off : BitVec 6) (s : State) : Out :=
  storeI (.st m t a size ord off) m 4 t a size ord (off6 size off) s
def execStLit (m : Bool) (t a : BitVec 6) (size ord : BitVec 2) (lit : Word) (s : State) : Out :=
  storeI (.stLit m t a size ord lit) m 12 t a size ord lit s
def execPref (m : Bool) (a : BitVec 6) (size : BitVec 2) (off : BitVec 6) (s : State) : Out :=
  prefI (.pref m a size off) m 4 a size (off6 size off) s
def execPrefLit (m : Bool) (a : BitVec 6) (size : BitVec 2) (lit : Word) (s : State) : Out :=
  prefI (.prefLit m a size lit) m 12 a size lit s
/-- Branch through a table of 32-bit word offsets (R119). -/
def execJtab (m : Bool) (a b : BitVec 6) (len : BitVec 16) (s : State) : Out :=
  issue m 12 (.jtab m a b len) [rX a, rX b] (fun s =>
    let addr := s.x b + 4#64 * s.x a
    if s.xn a ≥ len.toNat then .ok s
    else if fld (s.x b) 0 2 ≠ 0 then .trap s ⟨3, addr, w0 (.jtab m a b len), 0#64⟩
    else (s.load (.jtab m a b len) addr 4 3 regLoad).res fun s v => .to s (s.cur.pc + 4#64 * sext 32 v)) s

end Sys2Proof.Machine
end

