-- ==== Sys2Proof/Machine/Matrix.lean ====
section
/-! DEFINITION. Matrix, copy and buffer instructions (majors 0x40 to 0x46; R157 to R185). -/
namespace Sys2Proof.Machine

/-! ### Shapes -/

/-- Wait for something that ends later while the group goes on issuing (R31, R174, R229, R232): the registers stay outstanding. -/
def State.await (s : State) (regs : List (BitVec 6)) (w : Wait) : State :=
  s.updCur fun r => { r with out := regs.map (·.toNat) ++ r.out, waits := r.waits ++ [w] }
/-- Issue a command of the instruction's four words (R157, R164, R170, R176). -/
def cmdIssue (i : Instr) (m : Bool) (regs : List Nat) (cp : Bool) (op : Nat) (w : State → Word × Word × Word × Word) (s : State) : Out :=
  issue m 12 i regs (fun s =>
    if s.loadWait || s.myCore.full cp then .hold s .stall
    else
      let (w0, w1, w2, w3) := w s
      let m0 : Cmd := { op := op, w0 := w0, w1 := w1, w2 := w2, w3 := w3, who := .firing s.fi, fm := s.cur.fm }
      let c := if cp then s.cpyFix s.turn m0 else s.mxFix s.turn m0
      match (if cp then s.cpyBad s.turn c else s.mxBad s.turn c) with
      | some b => .trap s (b.trap i)
      | none => if !rlx w3 && s.relWaits false 0xFFFF then s.relHold else .ok (s.accept s.turn cp c)) s
/-- A wait for the engine's commands of this firing (R174, R179). -/
def engWait (i : Instr) (m : Bool) (d : BitVec 6) (kind : WaitK) (sm : Frame → Summary) (clear : Frame → Frame) (s : State) : Out :=
  issue m 4 i [rX d] (fun s =>
    let u := sm s.cur
    if u.open_ = 0 then .ok ((s.wvar d (statusWord u.seq 0 0 u.flags u.code)).updCur clear)
    else .ok (s.await [d] { kind := kind, acq := true, limited := false, pc := s.cur.pc, w0 := w0 i })) s
def Core.buf (c : Core) (n : Nat) : Buf := c.bufs.get n {}
def bufTrap (s : State) (n : BitVec 5) : Trap :=
  ⟨9, n.zeroExtend 64, wd (s.myCore.buf n.toNat).state, wd (selfBase + (s.myCore.buf n.toNat).base)⟩

/-! ### Matrix engine -/

def execMxmul (m : Bool) (a b e c : BitVec 6) (s : State) : Out :=
  cmdIssue (.mxmul m a b e c) m [rX c, rX e, rX a, rX b] false 0 (fun s => (s.x c, s.x e, s.x a, s.x b)) s
def execMxspm (m : Bool) (a b e c : BitVec 6) (s : State) : Out :=
  cmdIssue (.mxspm m a b e c) m [rX c, rX e, rX a, rX b] false 1 (fun s => (s.x c, s.x e, s.x a, s.x b)) s
def execMxdrn (m : Bool) (a b c : BitVec 6) (s : State) : Out :=
  cmdIssue (.mxdrn m a b c) m [rX c, rX a, rX b] false 2 (fun s => (s.x c, 0#64, s.x a, s.x b)) s
/-- The tile and its new tag travel in W2 of the model's command. -/
def execMxclr (m : Bool) (d : BitVec 4) (i32 : Bool) (s : State) : Out :=
  issue m 4 (.mxclr m d i32) [] (fun s =>
    if s.loadWait || s.myCore.full false then .hold s .stall
    else
      let w2 := wd (d.toNat + (if i32 then 14 else 1) * 256)
      let c : Cmd := { op := 3, w0 := 0#64, w1 := 0#64, w2 := w2, w3 := 0#64, who := .firing s.fi }
      match s.mxBad s.turn c with
      | some b => .trap s (b.trap (.mxclr m d i32))
      | none => .ok (s.accept s.turn false c)) s
def execMxwait (m : Bool) (d : BitVec 6) (s : State) : Out :=
  engWait (.mxwait m d) m d (.mx d.toNat) (·.mxs) (fun r => { r with mxs := { r.mxs with flags := 0, code := 0 } }) s
def execMxstat (m : Bool) (d : BitVec 6) (s : State) : Out :=
  issue m 4 (.mxstat m d) [rX d] (fun s => .ok (s.wvar d (engStat s.myCore.mx))) s
/-- The command travels on the request network in an outbox entry (R175). -/
def execMxrem (m : Bool) (d a b e c : BitVec 6) (s : State) : Out :=
  issue m 12 (.mxrem m d a b e c) [rX d, rX c, rX e, rX a, rX b] (fun s =>
    if s.xn d ≥ 4608 then .trap s ⟨8, w0 (.mxrem m d a b e c), 0#64, 18#64⟩
    else if s.loadWait then .hold s .stall
    else if !rlx (s.x b) && s.relWaits true 0xFFFF then s.relHold
    else if s.myCore.outbox.length ≥ 16 then .hold s .stall
    else
      let g : Msg := { kind := .mxrem, ctx := s.myCore.ctxid, dst := s.xn d, src := s.turn, capw := s.myCore.capw,
                       words := [s.x c, s.x e, s.x a, s.x b] }
      .ok (s.updMine fun v => { v with outbox := v.outbox ++ [(⟨g, false⟩ : OutE)] })) s

/-! ### Copy engine -/

def execCpy (m : Bool) (a b e c : BitVec 6) (s : State) : Out :=
  cmdIssue (.cpy m a b e c) m [rX c, rX e, rX a, rX b] true 0 (fun s => (s.x c, s.x e, s.x a, s.x b)) s
def execCpyg (m : Bool) (a b e c : BitVec 6) (s : State) : Out :=
  cmdIssue (.cpyg m a b e c) m [rX c, rX e, rX a, rX b] true 1 (fun s => (s.x c, s.x e, s.x a, s.x b)) s
def execCpys (m : Bool) (a b e c : BitVec 6) (s : State) : Out :=
  cmdIssue (.cpys m a b e c) m [rX c, rX e, rX a, rX b] true 2 (fun s => (s.x c, s.x e, s.x a, s.x b)) s
def execCpyr (m : Bool) (a b e c : BitVec 6) (s : State) : Out :=
  cmdIssue (.cpyr m a b e c) m [rX c, rX e, rX a, rX b] true 3 (fun s => (s.x c, s.x e, s.x a, s.x b)) s
def execCpywait (m : Bool) (d : BitVec 6) (s : State) : Out :=
  engWait (.cpywait m d) m d (.cpy d.toNat) (·.cps) (fun r => { r with cps := { r.cps with flags := 0, code := 0 } }) s
def execCpystat (m : Bool) (d : BitVec 6) (s : State) : Out :=
  issue m 4 (.cpystat m d) [rX d] (fun s => .ok (s.wvar d (engStat s.myCore.cp))) s

/-! ### Buffers (R181 to R184) -/

def State.setBuf (s : State) (n : Nat) (b : Buf) : State := s.updMine fun c => { c with bufs := c.bufs.put n b }
/-- What refuses a declaration, in the order of R181. -/
def bufdclBad (c : Core) (n off len : Nat) : Option CmdBad :=
  firstOf [
    firstBad [(off % 64 ≠ 0, .badva (selfBase + off))],
    (c.outScratch off len).map fun o => .badva (selfBase + o),
    firstBad [(len % 64 ≠ 0, .badva (selfBase + off + len / 64 * 64))],
    (c.bufs.l.find? fun b => b.1 ≠ n && b.2.len ≠ 0 && spans b.2.base b.2.len off len).map fun b =>
      .buf b.1 b.2.state (selfBase + max off b.2.base)]
def execBufdcl (m : Bool) (a b : BitVec 6) (n : BitVec 5) (s : State) : Out :=
  issue m 12 (.bufdcl m a b n) [rX a, rX b] (fun s =>
    let o := s.myCore.buf n.toNat
    if s.acqWait then .hold s .stall
    else if o.len ≠ 0 && (o.state = 1 || o.state = 3) then .trap s (bufTrap s n)
    else if s.x b = 0#64 then .ok (s.setBuf n.toNat {})
    else match bufdclBad s.myCore n.toNat (s.xn a) (s.xn b) with
      | some k => .trap s (k.trap (.bufdcl m a b n))
      | none => .ok (s.setBuf n.toNat { base := s.xn a, len := s.xn b })) s
/-- A matrix command, or a copy by its index table, still reads the buffer (R182). -/
def Core.bufRead (c : Core) (o : Buf) : Bool :=
  ((c.mx.running ++ c.mx.queue).any fun m => m.opnds.any fun r => r.2 ≠ 0 && spans r.1 r.2 o.base o.len) ||
    c.copies.any fun m => m.idxRange.2 ≠ 0 && spans (fld m.w2 0 20) m.idxRange.2 o.base o.len
/-- `bs` is 0 for empty, 2 for full. -/
def execBufset (m : Bool) (n : BitVec 5) (bs : BitVec 4) (s : State) : Out :=
  issue m 12 (.bufset m n bs) [] (fun s =>
    let o := s.myCore.buf n.toNat
    if s.acqWait then .hold s .stall
    else if o.len = 0 then .trap s ⟨9, n.zeroExtend 64, 0#64, 0#64⟩
    else if o.state = 1 || o.state = 3 then .trap s (bufTrap s n)
    else if bs = 2#4 then .ok (s.setBuf n.toNat { o with state := 2 })
    else if s.myCore.bufRead o then .hold s .stall
    else .ok (s.setBuf n.toNat { o with state := 0 })) s
def execBufqry (m : Bool) (d : BitVec 6) (n : BitVec 5) (s : State) : Out :=
  issue m 12 (.bufqry m d n) [rX d] (fun s =>
    let o := s.myCore.buf n.toNat
    if s.acqWait then .hold s .stall
    else .ok (s.wvar d (if o.len = 0 then 0#64 else wd (o.len * 2 ^ 32 + o.base * 2 ^ 8 + o.span * 8 + 4 + o.state)))) s

end Sys2Proof.Machine
end

