-- ==== Sys2Proof/Machine/Sync.lean ====
section
/-! DEFINITION. Atomics, fences, waits and barriers (majors 0x28 to 0x2B; R220 to R234). -/
namespace Sys2Proof.Machine

/-! ### The AMO family (R220 to R225) -/

/-- New value of a bitwise or integer AMO on `n` bytes (R222). -/
def amoVal (op n old opd : Nat) : Nat :=
  let b := 8 * n
  let sg (v : Nat) : Int := if v ≥ 2 ^ (b - 1) then (v : Int) - 2 ^ b else v
  match op with
  | 0 => (old + opd) % 2 ^ b
  | 1 => old &&& opd
  | 2 => old ||| opd
  | 3 => old ^^^ opd
  | 4 => if sg old ≤ sg opd then old else opd
  | 5 => if sg old ≥ sg opd then old else opd
  | 6 => min old opd
  | 7 => max old opd
  | _ => opd
/-- FAdd of R223: bits and flags. FT 0 FP32, 1 BF16, 2 FP16. -/
def fAdd (ft : Nat) (old opd : Nat) : Nat × Nat :=
  let t := if ft = 0 then 1 else ft + 1
  finish t (fpAdd (fltVal t old) (fltVal t opd))
/-- The order of an AMO: 0 rlx, 1 acq, 2 rel, 3 ar, 4 sc (R194, R221). -/
def amoOrd (scope : BitVec 3) (ord : BitVec 4) : AmoOrd := { acq := ord = 1#4 || ord.toNat ≥ 3, rel := ord.toNat ≥ 2, wide := scope.toNat ≥ 3 }
/-- An AMO: `g` gives the new value, if one is written, and flags. Release parts wait by R201. -/
def amoI (i : Instr) (m : Bool) (regs : List Nat) (d a : BitVec 6) (size : BitVec 2) (scope : BitVec 3) (ord : BitVec 4) (off : BitVec 32)
    (sx : Bool) (g : State → Nat → Nat → Option Nat × Nat) (s : State) : Out :=
  issue m 12 i regs (fun s =>
    let n := nbytes size
    (s.atomic i (s.x a + off.signExtend 64) n (amoOrd scope ord) (fun old => ((g s n old).1, (old, (g s n old).2)))).res
      fun s v => .ok ((s.flag v.2).wvar d (if sx then sext (8 * n) v.1 else wd v.1))) s
/-- The low 8n bits of a register. -/
def State.low (s : State) (b : BitVec 6) (n : Nat) : Nat := s.xn b % 2 ^ (8 * n)

def execAmoadd (m : Bool) (d a b : BitVec 6) (size : BitVec 2) (scope : BitVec 3) (ord : BitVec 4) (off : BitVec 32) (s : State) : Out :=
  amoI (.amoadd m d a b size scope ord off) m [rX a, rX b, rX d] d a size scope ord off true (fun s n old => (some (amoVal 0 n old (s.low b n)), 0)) s
def execAmoand (m : Bool) (d a b : BitVec 6) (size : BitVec 2) (scope : BitVec 3) (ord : BitVec 4) (off : BitVec 32) (s : State) : Out :=
  amoI (.amoand m d a b size scope ord off) m [rX a, rX b, rX d] d a size scope ord off true (fun s n old => (some (amoVal 1 n old (s.low b n)), 0)) s
def execAmoor (m : Bool) (d a b : BitVec 6) (size : BitVec 2) (scope : BitVec 3) (ord : BitVec 4) (off : BitVec 32) (s : State) : Out :=
  amoI (.amoor m d a b size scope ord off) m [rX a, rX b, rX d] d a size scope ord off true (fun s n old => (some (amoVal 2 n old (s.low b n)), 0)) s
def execAmoxor (m : Bool) (d a b : BitVec 6) (size : BitVec 2) (scope : BitVec 3) (ord : BitVec 4) (off : BitVec 32) (s : State) : Out :=
  amoI (.amoxor m d a b size scope ord off) m [rX a, rX b, rX d] d a size scope ord off true (fun s n old => (some (amoVal 3 n old (s.low b n)), 0)) s
def execAmomin (m : Bool) (d a b : BitVec 6) (size : BitVec 2) (scope : BitVec 3) (ord : BitVec 4) (off : BitVec 32) (s : State) : Out :=
  amoI (.amomin m d a b size scope ord off) m [rX a, rX b, rX d] d a size scope ord off true (fun s n old => (some (amoVal 4 n old (s.low b n)), 0)) s
def execAmomax (m : Bool) (d a b : BitVec 6) (size : BitVec 2) (scope : BitVec 3) (ord : BitVec 4) (off : BitVec 32) (s : State) : Out :=
  amoI (.amomax m d a b size scope ord off) m [rX a, rX b, rX d] d a size scope ord off true (fun s n old => (some (amoVal 5 n old (s.low b n)), 0)) s
def execAmominn (m : Bool) (d a b : BitVec 6) (size : BitVec 2) (scope : BitVec 3) (ord : BitVec 4) (off : BitVec 32) (s : State) : Out :=
  amoI (.amominn m d a b size scope ord off) m [rX a, rX b, rX d] d a size scope ord off false (fun s n old => (some (amoVal 6 n old (s.low b n)), 0)) s
def execAmomaxn (m : Bool) (d a b : BitVec 6) (size : BitVec 2) (scope : BitVec 3) (ord : BitVec 4) (off : BitVec 32) (s : State) : Out :=
  amoI (.amomaxn m d a b size scope ord off) m [rX a, rX b, rX d] d a size scope ord off false (fun s n old => (some (amoVal 7 n old (s.low b n)), 0)) s
def execAmoswp (m : Bool) (d a b : BitVec 6) (size : BitVec 2) (scope : BitVec 3) (ord : BitVec 4) (off : BitVec 32) (s : State) : Out :=
  amoI (.amoswp m d a b size scope ord off) m [rX a, rX b, rX d] d a size scope ord off true (fun s n old => (some (amoVal 8 n old (s.low b n)), 0)) s
def execAmocas (m : Bool) (d a b c : BitVec 6) (size : BitVec 2) (scope : BitVec 3) (ord : BitVec 4) (off : BitVec 32) (s : State) : Out :=
  amoI (.amocas m d a b c size scope ord off) m [rX a, rX b, rX c, rX d] d a size scope ord off true
    (fun s n old => (if old = s.low c n then some (s.low b n) else none, 0)) s
def execAmofadd (m : Bool) (d a b : BitVec 6) (ft size : BitVec 2) (scope : BitVec 3) (ord : BitVec 4) (off : BitVec 32) (s : State) : Out :=
  amoI (.amofadd m d a b ft size scope ord off) m [rX a, rX b, rX d] d a size scope ord off false
    (fun s n old => (some (fAdd ft.toNat old (s.low b n)).1, (fAdd ft.toNat old (s.low b n)).2)) s

/-! ### FENCE (R226, R227) -/

/-- Later accesses come after the reads of the group's waits. -/
def State.fenceWaits (s : State) : State :=
  s.updCur fun r => { r with waits := r.waits.map fun w => { w with acq := true } }
/-- Kinds: 0 acq, 1 rel, 2 ar, 3 sc. -/
def execFence (m : Bool) (kind : BitVec 2) (scope : BitVec 3) (s : State) : Out :=
  issue m 4 (.fence m kind scope) [] (fun s =>
    if kind ≠ 0#2 && s.relWaits (scope.toNat ≥ 3) 0xFFFF then s.relHold else .ok s.fenceWaits) s

/-! ### WAITA (R228 to R230) -/

def waitHolds (cond n v : Nat) (k : Word) : Bool :=
  let b := 8 * n
  let q := k.toNat % 2 ^ b
  let sg (v : Nat) : Int := if v ≥ 2 ^ (b - 1) then (v : Int) - 2 ^ b else v
  match cond with
  | 0 => v = q
  | 1 => v ≠ q
  | 2 => sg v < sg q
  | 3 => sg v ≥ sg q
  | 4 => v < q
  | 5 => v ≥ q
  | 6 => v &&& q ≠ 0
  | _ => v &&& q = 0
def waitVal (cond n v : Nat) : Word := if cond ≤ 3 then sext (8 * n) v else wd v
/-- WAITA with operand `opd` and limit L = X[c] bits 47:0; a limit of 0 makes one read. -/
def waitI (i : Instr) (m : Bool) (len : Nat) (d a b e c : BitVec 6) (cond : BitVec 4) (size : BitVec 2) (ord : BitVec 4) (opd : Word)
    (s : State) : Out :=
  issue m len i [rX a, rX b, rX c, rX d, rX e] (fun s =>
    let n := nbytes size
    let k := s.x b + opd
    (s.load i (s.x a) n 0 regLoad).res fun s v =>
      if waitHolds cond.toNat n v k then .ok ((s.wvar d (waitVal cond.toNat n v)).wvar e 1#64)
      else if fld (s.x c) 0 48 = 0 then .ok ((s.wvar d (waitVal cond.toNat n v)).wvar e 0#64)
      else .ok (s.await [d, e] { kind := .waita (s.xn a) n cond.toNat k d.toNat e.toNat, acq := ord = 1#4, limited := true, lim := fld (s.x c) 0 48, pc := s.cur.pc, w0 := w0 i })) s
def execWaita (m : Bool) (d a b e c : BitVec 6) (cond : BitVec 4) (size : BitVec 2) (scope : BitVec 3) (ord : BitVec 4) (imm : BitVec 32)
    (s : State) : Out :=
  waitI (.waita m d a b e c cond size scope ord imm) m 12 d a b e c cond size ord (imm.signExtend 64) s
def execWaitaLit (m : Bool) (d a b e c : BitVec 6) (cond : BitVec 4) (size : BitVec 2) (scope : BitVec 3) (ord : BitVec 4) (lit : Word)
    (s : State) : Out :=
  waitI (.waitaLit m d a b e c cond size scope ord lit) m 20 d a b e c cond size ord lit s

/-! ### Barriers (R231 to R234) -/

/-- The gang of the issuing core where its barrier is armed and the core a member. -/
def State.myBar (s : State) : Option (Gang × Barrier) :=
  match s.myCore.gang with
  | none => none
  | some g => let b := s.barOf g; if b.armed && b.members.contains s.turn then some (g, b) else none
def Gang.wide (g : Gang) : Bool := g.cores.any fun k => dieOf k ≠ g.home
/-- Phases complete in order while every member has arrived (R231). -/
def Barrier.advance : Nat → Barrier → Barrier
  | 0, b => b
  | n + 1, b =>
    if b.members.all fun k => phaseDone (b.arr.get k 0) b.c then Barrier.advance n { b with c := (b.c + 1) % 2 ^ 32 } else b
/-- Count an arrival of this core (R232). -/
def State.arrive (s : State) (g : Gang) (b : Barrier) : State :=
  let a := b.arr.get s.turn 0
  (s.setBar g (Barrier.advance 4 { b with arr := b.arr.put s.turn ((a + 1) % 2 ^ 32) })).barSweep g
/-- The word for a core without an armed barrier: PHASE is open there. -/
def State.barNone (s : State) (d : BitVec 6) : State := s.ticked.wvar d (barWord 4 (Config.freeWord s.tick).toNat)
/-- BAR and BARARV: the arrival, then for BAR the wait. -/
def barI (i : Instr) (m : Bool) (d : BitVec 6) (wait : Bool) (s : State) : Out :=
  issue m 4 i [rX d] (fun s =>
    match s.myBar with
    | none => .ok (s.barNone d)
    | some (g, b) =>
      let a := b.arr.get s.turn 0
      if b.aborted then .ok (s.wvar d (barWord 3 a))
      else if (a + 2 ^ 32 - b.c) % 2 ^ 32 ≥ 2 then .ok (s.wvar d (barWord 1 a))
      else if s.relWaits g.wide 0xFFFF then s.relHold
      else
        let s := s.arrive g b
        if !wait || phaseDone (s.barOf g).c a then .ok (s.wvar d (barWord 0 a))
        else .ok (s.await [d] { kind := .bar a d.toNat, acq := true, limited := false, pc := s.cur.pc, w0 := w0 i })) s
def execBar (m : Bool) (d : BitVec 6) (s : State) : Out := barI (.bar m d) m d true s
def execBararv (m : Bool) (d : BitVec 6) (s : State) : Out := barI (.bararv m d) m d false s
def execBarwt (m : Bool) (d a b : BitVec 6) (s : State) : Out :=
  issue m 4 (.barwt m d a b) [rX a, rX b, rX d] (fun s =>
    let p := fld (s.x a) 0 32
    match s.myBar with
    | none => .ok (s.barNone d)
    | some (_, r) =>
      if r.aborted then .ok (s.wvar d (barWord 3 r.c))
      else if phaseDone r.c p then .ok (s.wvar d (barWord 0 r.c))
      else if fld (s.x b) 0 48 = 0 then .ok (s.wvar d (barWord 2 r.c))
      else .ok (s.await [d] { kind := .barwt p d.toNat, acq := true, limited := true, lim := fld (s.x b) 0 48, pc := s.cur.pc, w0 := w0 (.barwt m d a b) })) s

end Sys2Proof.Machine
end

