-- ==== Sys2Proof/Machine/Firings.lean ====
section
/-! DEFINITION. The selector, the arrival of messages, spawns and matrix commands, and the ends of waits (R277 to R307). -/
namespace Sys2Proof.Machine

/-- A unit's event always gives a next state; with MAIN down every unit is held in reset (R438). -/
def unitAct (g : State → State) (s : State) : Out := .next (if s.main then g s else s)

/-- A store to an engine register by no firing of this package. -/
def State.engineIn (s : State) (k off : Nat) (v : Word) : State := s.engineReg k off v (unitHart 0) 99

/-! ### Results and waits -/

/-- A parked firing issues its instruction again; a stopped one stays stopped. -/
def State.resume (s : State) (k f : Nat) : State :=
  s.updFr k f fun r => if r.stat = .stopped || r.stat = .free then r else { r with hold := .no, stat := .ready }
/-- One result of a firing's group returns (R33). -/
def execVarResultReturn (k f : Nat) (s : State) : Out :=
  unitAct (fun s => if (s.fr k f).stat = .free || (s.fr k f).unret = 0 then s
    else (s.updFr k f fun r => { r with unret := r.unret - 1 }).wake k f) s
/-- The issuing firing has issued for 65,536 cycles (R282). -/
def execQuantumExpiry (k : Nat) (s : State) : Out :=
  unitAct (fun s => match (s.core k).issuing with
    | some f => s.updFr k f fun r => { r with quantum := true }
    | none => s) s
/-- A leader's n cycles, or a member's own 8,192, have passed at an ALIGN (R289). -/
def execAlignWaitExpiry (k f : Nat) (s : State) : Out :=
  unitAct (fun s =>
    let r := s.fr k f
    match (s.core k).gang with
    | none => s
    | some g =>
      if r.hold ≠ .align || s.launchFr k ≠ some f then s
      else if (g.mates k).headD k = k then s.alignEnd (g.mates k) r.pc else s.alignEnd [k] r.pc) s
/-- End a counted wait that reads memory (R229, R230): its registers are written, or a trap of the read is delivered. -/
def State.waitaEnd (s : State) (k f : Nat) (w : Wait) (d e : Nat) (v x : Word) : State :=
  (s.updFr k f fun r => { (r.wx d v).wx e x with waits := r.waits.erase w }).wake k f
/-- What a WAITA's read meets: a value, a trap, or something it has to wait for. -/
inductive WRead where
  | val (s : State) (v : Nat)
  | trap (s : State) (t : Trap)
  | later (s : State)
/-- A read of the wait of frame `f`, checked as LD (R122, R124, R184, R229). -/
def State.waitaRead (s : State) (k f va size : Nat) (w : Wait) : WRead :=
  let c := s.core k
  let who := Who.frame k f
  let walk : WRead := match s.ansFor who c.ctxid va with
    | some r => .trap (s.dropAns who c.ctxid va) ⟨6, wd va, 0#64, wd r⟩
    | none => .later (s.startWalk who k c.ctxid va 0 needR)
  if c.slogHits va size || c.boardHolds va size false then .later s
  else match s.place k va size needR with
    | .badva => .trap s ⟨5, wd va, w.w0, 0#64⟩
    | .unmapped => walk
    | .refused => walk
    | .reg pa _ =>
      let s := if isTsc k then s else s.markAD k c.ctxid va false
      if isRemote s pa && !s.pathUp then .later s
      else if size ≠ 8 then .val s 0
      else if s.isOwn pa then .val s (s.regRead (localOf pa % 0x1000000000)).toNat
      else .val s.ticked (Config.freeWord s.tick).toNat
    | .mem pa e off =>
      match off.bind fun o => c.bufBad o size rdOk with
      | some (b, st) => .trap s ⟨9, wd b, wd st, wd va⟩
      | none =>
        if s.ownPending k pa size || (isRemote s pa && !s.pathUp) then .later s
        else if s.poisonedAt (readPa k pa e) size then .trap s ⟨0x11, wd va, 0#64, 0#64⟩
        else .val (if isTsc k || inSelf va then s else s.markAD k c.ctxid va false) (s.unitRd (readPa k pa e) size)
/-- A trap of a wait's read: epc is the WAITA, and the results of earlier instructions return first (R33, R126). Later waits of the group, which
ERET performs again, end. -/
def State.waitTrap (s : State) (k f : Nat) (w : Wait) (t : Trap) : State :=
  (s.updFr k f fun r => { r with waits := r.waits.takeWhile (· ≠ w), pc := w.pc }).takeTrap k f t w.pc
/-- Check one wait again, where it still stands. A read after the limit ends it whatever its value (R229). -/
def State.recheckWait (s : State) (k f : Nat) (w : Wait) : State :=
  if !(s.fr k f).waits.contains w then s
  else match w.kind with
  | .waita va size cond q d e =>
    (match s.waitaRead k f va size w with
    | .later s => s
    | .trap s t => s.waitTrap k f w t
    | .val s v =>
      if waitHolds cond size v q then s.waitaEnd k f w d e (waitVal cond size v) 1#64
      else if w.late then s.waitaEnd k f w d e (waitVal cond size v) 0#64
      else s)
  | _ => s
def State.recheckWaits (s : State) (k f : Nat) : State := (s.fr k f).waits.foldl (fun s w => s.recheckWait k f w) s
/-- WAIT_RECHECK: the condition a firing waits for is looked at again (R228, R230, R282). -/
def State.recheck (s : State) (k f : Nat) : State :=
  let s := s.recheckWaits k f
  match (s.fr k f).hold with
  | .wait => s.resume k f
  | .stall => s.updFr k f fun r => { r with hold := .no }
  | .slog => s.resume k f
  | .no => s.wake k f
  | _ => s
def execWaitRecheck (k f : Nat) (s : State) : Out := unitAct (fun s => if (s.fr k f).stat = .free then s else s.recheck k f) s
/-- A woken CLD, CST or cgen.waitgen (tag 60) looks again (R279). -/
def execCellReadWake (k f : Nat) (s : State) : Out :=
  unitAct (fun s => if (s.fr k f).stat ≠ .free && (s.fr k f).hold = .wait then s.resume k f else s) s
/-- The limit of one wait passes (R229, R230, R232): a counted wait makes its last read, at once or when it can. -/
def State.limitOne (s : State) (k f : Nat) (w : Wait) : State :=
  match w.kind with
  | .barwt _ d => (match (s.core k).gang with
    | some g => (s.updFr k f fun r => { r.wx d (barWord 2 (s.barOf g).c) with waits := r.waits.erase w }).wake k f
    | none => s)
  | _ => (s.updFr k f fun r => { r with waits := r.waits.map fun v => if v = w then { w with late := true } else v }).recheckWait k f { w with late := true }
/-- Waits of a frame whose limit may be the next to pass: one that began later with no smaller limit comes after (R229, R230). -/
def nextLimits (l : List Wait) : List Wait :=
  let l := l.filter fun w => w.limited && !w.late
  ((l.zipIdx).filter fun e => !(l.take e.2).any fun v => v.lim ≤ e.1.lim).map (·.1)
/-- A cycle limit of a frame passes (R230): that of one of its waits, or of the instruction that waits at its place, which is issued again.
Which of several comes first is open (log 149). -/
def State.limitPass (s : State) (k f : Nat) : State :=
  let l := nextLimits (s.fr k f).waits
  let own : Bool := (s.fr k f).hold = .wait
  match l[(Config.freeWord s.tick).toNat % (l.length + b2n own)]? with
  | some w => s.ticked.limitOne k f w
  | none => if own then (s.ticked.updFr k f fun r => { r with expired := true }).resume k f else s.ticked
def execWaitLimitExpiry (k f : Nat) (s : State) : Out := unitAct (fun s => if (s.fr k f).stat = .free then s else s.limitPass k f) s

/-! ### The selector (R282 to R286) -/

def State.frameCount (s : State) (k : Nat) : Nat := if isTsc k then 24 else min 8 (pwFrames (s.core k).partw)
def State.freeFrame (s : State) (k : Nat) : Option Nat := (List.range (s.frameCount k)).find? fun f => (s.fr k f).stat = .free
/-- An actor's input and room (R297). -/
def State.actorReady (s : State) (k inq outq c p : Nat) (noout : Bool) : Bool :=
  let a := s.squeue inq
  let b := s.squeue outq
  a.enable && !a.broken && a.ctx = (s.core k).ctxid && a.resvPop + c ≤ a.occ &&
    (noout || (b.enable && !b.broken && b.ctx = (s.core k).ctxid && b.resvPush + p ≤ b.room))
/-- An enabled tag that is ready (R283). -/
def State.tagReady (s : State) (k n : Nat) : Bool :=
  let t := (s.core k).tag n
  t.en && n ≠ 60 && n ≠ 63 && !s.tagBusy k n &&
    (match t.kind with
    | .actor i o c p z => s.actorReady k i o c p z
    | _ => !(s.waiting k n).isEmpty)
def State.framePri (s : State) (k f : Nat) : Nat :=
  match (s.fr k f).src with
  | .launch => 0
  | .task => 0
  | .walk => 0
  | _ => ((s.core k).tag (s.fr k f).tag).epri
/-- The frame that parked longest ago. -/
def State.oldest (s : State) (k : Nat) : List Nat → Option Nat
  | [] => none
  | f :: r => some (r.foldl (fun a b => if (s.fr k b).parkNo < (s.fr k a).parkNo then b else a) f)
/-- A passed-over candidate ages (R285). -/
def Tag.age (t : Tag) : Tag :=
  if t.pass + 1 ≥ 4096 then { t with pass := 0, epri := min 3 (t.epri + 1) } else { t with pass := t.pass + 1 }
def State.ageTags (s : State) (k : Nat) (ts : List Nat) : State :=
  s.updCore k fun c => { c with tags := ts.foldl (fun t n => t.put n (t.get n {}).age) c.tags }
/-- A firing that yielded and whose decision this is joins the rotation as if it had just parked (R322). -/
def State.rejoin (s : State) (k g : Nat) : State :=
  if (s.fr k g).yielded && (s.fr k g).stat = .ready then
    (s.updFr k g fun r => { r with yielded := false, parkNo := (s.core k).parks }).updCore k fun c => { c with parks := c.parks + 1 }
  else s
/-- The firing in frame `f` issues; its quantum begins (R282). -/
def State.choose (s : State) (k f : Nat) : State :=
  let s := s.updFr k f fun r => { r with quantum := false }
  let s := (framesOf k).foldl (fun s g => s.rejoin k g) s
  s.updCore k fun c => { c with issuing := some f }

/-- A firing's registers at its start (R34, R280). -/
def Frame.args (r : Frame) (x2 x3 : Word) (ws : List Word) : Frame :=
  ((List.range 8).zip (ws ++ List.replicate 8 0#64)).foldl (fun r e => r.wx (4 + e.1) e.2) ((r.wx 2 x2).wx 3 x3)
/-- Put a firing into frame `f`. -/
def State.begin (s : State) (k f : Nat) (r : Frame) (x3 : Word) (ws : List Word) : State :=
  let c := s.core k
  let r0 : Frame := { r with stat := .ready, x := s.startX k f, parkNo := c.parks }
  ({ s with tick := s.tick + 52 }).setFr k f (r0.args (wd (selfBase + scratchLo c.partw)) x3 ws)
def srcWord (tag src : Nat) : Word := wd (tag + src * 2 ^ 16)
/-- The earliest message that waits for a tag. -/
def firstMsg : List (Nat × Msg) → Option (Nat × Msg)
  | [] => none
  | a :: r => some (r.foldl (fun a b => if b.2.no < a.2.no then b else a) a)
/-- A task record starts in frame `f`. -/
def State.beginTask (s : State) (k f : Nat) (src : Src) (t : Task) : State :=
  s.begin k f { src := src, tag := 62, pc := t.words.getD 0 0#64 &&& ~~~3#64, joinc := t.words.getD 1 0#64 } (srcWord 62 t.from_) t.words
/-- Start the next firing of a ready tag in frame `f` (R280, R281, R245, R297). -/
def State.beginTag (s : State) (k f n : Nat) : State :=
  let t := (s.core k).tag n
  match t.kind with
  | .actor i o c p z =>
    let a := s.squeue i
    let s := s.setSQueue i { a with resvPop := a.resvPop + c }
    let b := s.squeue o
    let s := if z then s else s.setSQueue o { b with resvPush := b.resvPush + p }
    let x5 := if z then Config.freeWord (s.tick + 60) else wd o
    { s.begin k f { src := .actor, tag := n, pc := t.entry, resv := some ⟨i, c, o, if z then 0 else p⟩ } (srcWord n 0xFFFF) [wd i, x5] with
      tick := s.tick + 61 }
  | _ =>
    match firstMsg (s.waiting k n) with
      | none => s
      | some (slot, g) =>
        if g.kind = .spawn then (s.updCore k fun c => { c with inbox := c.inbox.del slot }).beginTask k f .spawn ⟨words64 8 g.payload, g.src⟩
        else if g.kind = .dispatch then
          let w5 := g.words.getD 1 0#64
          let w8 := g.words.getD 4 0#64
          let fm : Formula := { t := g.capw.toNat, cell := fld w5 32 16, gen := fld w5 0 32, rank := fld w8 0 16, members := fld w8 16 16, committed := false }
          s.begin k f { src := .formula, tag := 61, pc := g.entry, fm := some fm, slot := some slot } (srcWord 61 0xFFFF) g.words
        else
          s.begin k f { src := .msg, tag := n, pc := t.entry, msg := some g, slot := some slot,
                        owes := (if g.rply && !g.reply then some (g.src, g.rtag) else none) } (srcWord n g.src)
            (words64 8 (g.payload.take 64))
/-- Where a thief looks, in order (R291): the rest of its camp, beginning after itself, the other camps of its die, other dies. -/
def Gang.victims (g : Gang) (k : Nat) : List Nat :=
  let camp := g.mates k
  let rest := (camp.filter fun j => j > k) ++ camp.filter fun j => j < k
  let die := if g.steal = 0 then [] else g.cores.filter fun j => dieOf j = dieOf k && campOf j ≠ campOf k
  let pkg := if g.steal ≤ 1 then [] else g.cores.filter fun j => dieOf j ≠ dieOf k
  rest ++ die ++ pkg
/-- Work of the own deque's newest end, or another's oldest record. -/
def State.dequeWork (s : State) (k f : Nat) : Option State :=
  match (s.core k).deque.reverse with
  | t :: r => some (((s.updCore k fun c => { c with deque := r.reverse }).beginTask k f .task t).choose k f)
  | [] => match (s.core k).gang with
    | none => none
    | some g => match (g.victims k).find? fun j => !(s.core j).deque.isEmpty && (s.core j).ctxid = (s.core k).ctxid with
      | none => none
      | some j => match (s.core j).deque with
        | t :: r => some (((s.updCore j fun c => { c with deque := r }).beginTask k f .task t).choose k f)
        | [] => none
/-- The tag that is next in the rotation at a priority. -/
def Core.nextTag (c : Core) (p : Nat) (ts : List Nat) : Nat :=
  let l := c.lastStart.get p 0
  match (ts.filter fun n => n > l) ++ ts with
  | n :: _ => n
  | [] => 0
/-- A decision with nothing issuing: the Bivouac firing first, then the highest priority, resident firings before starts, then tasks
(R282 to R286, R303). A firing that yielded issues only where there is no other candidate (R322). -/
def State.decide (s : State) (k : Nat) : State :=
  let ready := (List.range (s.frameCount k)).filter fun f => (s.fr k f).stat = .ready
  let res := ready.filter fun f => !(s.fr k f).yielded
  let biv : Bool := !isTsc k && (s.fr k 8).stat = .ready
  let free := s.freeFrame k
  let rt := if free.isNone || isTsc k then [] else (List.range 64).filter fun n => s.tagReady k n
  if biv && !(s.fr k 8).yielded then (s.ageTags k rt).choose k 8
  else
    let pris := res.map (s.framePri k) ++ rt.map fun n => ((s.core k).tag n).epri
    let p := pris.foldl max 0
    match s.oldest k (res.filter fun f => s.framePri k f = p) with
    | some f => (s.ageTags k rt).choose k f
    | none =>
      match free, rt.filter fun n => ((s.core k).tag n).epri = p with
      | some f, n :: r =>
        let n := (s.core k).nextTag p (n :: r)
        let s := s.ageTags k (rt.filter (· ≠ n))
        let s := s.updCore k fun c => { c with
          lastStart := c.lastStart.put p n
          tags := c.tags.put n { c.tags.get n {} with epri := (c.tags.get n {}).bpri, pass := 0 } }
        (s.beginTag k f n).choose k f
      | _, _ =>
        let work := match free with | some f => if isTsc k || !rt.isEmpty then none else s.dequeWork k f | none => none
        match work with
        | some s => s
        | none => match (if biv then some 8 else s.oldest k ready) with
          | some f => (s.ageTags k rt).choose k f
          | none => s
/-- While the context is to leave the core, only firings issue that stand inside an instruction which pre-emption cannot save (R405). -/
def State.decideLeaving (s : State) (k : Nat) : State :=
  match s.oldest k ((framesOf k).filter fun f => (s.fr k f).stat = .ready && !(s.fr k f).mayLeave) with
  | some f => s.choose k f
  | none => s
def execSelectorDecision (k : Nat) (s : State) : Out :=
  unitAct (fun s =>
    if k ≥ 4896 || (s.core k).issuing.isSome || (s.core k).frozen then s
    else if (s.core k).leave then s.decideLeaving k
    else s.decide k) s

/-! ### Requests (R301 to R305, R314) -/

/-- An outbox entry frees; the AUTO replies that wait take it first, each until it is injected (R315). -/
def State.freeOut (s : State) (k n : Nat) : State := (s.updCore k fun c => { c with outbox := c.outbox.eraseIdx n }).flushAutos k
/-- Shelter a request at core `j`, if its heap has room. -/
def State.shelter (s : State) (j : Nat) (g : Msg) : Option State :=
  let cap := s.heapCap j
  let put := s.heapPut j
  if cap = 0 || (put + 2 ^ 32 - s.heapTake j) % 2 ^ 32 ≥ cap then none
  else
    let b := (s.core j).heapbase.toNat
    some (((s.poolStore j (b + 64 + 320 * (put % cap)) (heapBytes g)).poolStore j b (bytesOf 8 ((put + 1) % 2 ^ 32))).startBivouac j)
/-- Accept, shelter or refuse a request at its destination. -/
def State.arrive1 (s : State) (g : Msg) : Option State :=
  let j := g.dst
  let c := s.core j
  let kindOk : Bool := g.kind = .dispatch || c.affine g.tag
  if c.ctxid ≠ g.ctx || !kindOk then none
  else
    let heapEmpty : Bool := s.heapCap j = 0 || s.heapPut j = s.heapTake j
    match c.freeSlot 0 24 with
    | some n => if heapEmpty then some (s.updCore j fun c => c.inboxPut n g) else if g.kind = .dispatch then none else s.shelter j g
    | none => if g.kind = .dispatch then none else s.shelter j g
/-- No entry before number `n` goes to the same core (R314). -/
def headFor (l : List OutE) (n : Nat) : Option OutE :=
  match l[n]? with
  | some e => if (l.take n).any fun o => o.msg.dst = e.msg.dst then none else some e
  | none => none
/-- Offer outbox entry `n` of core `k`, first (`again` false) or after a refusal; units 4896 + die hold a sequencer's dispatches. -/
def State.offer (s : State) (k n : Nat) (again : Bool) : State :=
  let l := if k < 4896 then (s.core k).outbox else (s.die (k - 4896)).dispatch
  match headFor l n with
  | none => s
  | some e =>
    if e.refused ≠ again || e.msg.kind = .mxrem || e.msg.kind = .spawn then s
    else match s.arrive1 e.msg with
      | some s => if k < 4896 then s.freeOut k n else s.updDie (k - 4896) fun v => { v with dispatch := v.dispatch.eraseIdx n }
      | none =>
        let l := l.set n { e with refused := true }
        if k < 4896 then s.updCore k fun c => { c with outbox := l } else s.updDie (k - 4896) fun v => { v with dispatch := l }
def execRequestArrival (k n : Nat) (s : State) : Out := unitAct (fun s => s.offer k n false) s
def execRequestRetry (k n : Nat) (s : State) : Out := unitAct (fun s => s.offer k n true) s
/-- A reply fills the slot its sender reserved (R305, R408). -/
def State.replyIn (c : Core) (g : Msg) : Core :=
  let c := { c with awaits := c.awaits.erase g.tag }
  match c.freeSlot 24 8 with
  | some n => if c.affine g.tag then c.inboxPut n g else c
  | none => c
def execReplyArrival (n : Nat) (s : State) : Out :=
  unitAct (fun s => match s.replies[n]? with
    | none => s
    | some g =>
      let s := { s with replies := s.replies.eraseIdx n }
      if (s.core g.dst).ctxid = g.ctx then s.updCore g.dst fun c => State.replyIn c g
      else match s.savedCores.get? (savedKey g.ctx g.dst) with
        | some c => { s with savedCores := s.savedCores.put (savedKey g.ctx g.dst) (State.replyIn c g) }.writeRecord g.ctx g.dst
        | none => s) s
def execAutoReplySend (k : Nat) (s : State) : Out :=
  unitAct (fun s => if (s.core k).outbox.length < 16 then s.flushAutos k else s) s
/-- Spawned records that wait for a frame at core `j`. -/
def State.spawns (s : State) (j : Nat) : Nat := ((s.core j).inbox.l.filter fun e => e.2.kind = .spawn).length
/-- The target of a spawned record accepts it: tag 62 is enabled, fewer than 8 wait, its context is the sender's, and the request can take a
slot (R293, R301, R408; log 133). -/
def State.spawnOk (s : State) (j ctx : Nat) : Option Nat :=
  let c := s.core j
  let heapEmpty : Bool := s.heapCap j = 0 || s.heapPut j = s.heapTake j
  if (c.tag 62).en && s.spawns j < 8 && c.ctxid = ctx && heapEmpty then c.freeSlot 0 24 else none
/-- Outbox entry `n`, a spawned record, leaves for its target, which takes it into a slot or not. -/
def State.spawnIn (s : State) (k n : Nat) (e : OutE) : State :=
  match s.spawnOk e.msg.dst e.msg.ctx with
  | some slot => (s.freeOut k n).updCore e.msg.dst fun c => c.inboxPut slot e.msg
  | none => s.freeOut k n
/-- The spawned record of frame `f` reaches its target, after earlier requests of the core to it (R314), and is accepted or bounced; `f` 99
names the record of a firing that has ended, which expects no answer. -/
def execSpawnArrival (k f : Nat) (s : State) : Out :=
  unitAct (fun s => match (s.fr k f).saved, (List.range 16).find? fun n => ((s.core k).outbox[n]?).any fun e => e.msg.kind = .spawn && e.msg.no = f with
    | [31, joinc], some n => (match headFor (s.core k).outbox n with
      | none => s
      | some e => (s.spawnIn k n e).updFr k f fun r => { r with saved := [32, b2n (s.spawnOk e.msg.dst e.msg.ctx).isSome, joinc] })
    | _, some n => (match headFor (s.core k).outbox n with
      | none => s
      | some e => if f ≠ 99 then s else (s.spawnIn k n e).updCore k fun c => { c with awaits := c.awaits.erase 64 })
    | _, _ => s) s
/-- The answer returns: 1, or the counter is to be lowered again. -/
def execSpawnAnswer (k f : Nat) (s : State) : Out :=
  unitAct (fun s => match (s.fr k f).saved with
    | [32, ok, joinc] =>
      ((s.updFr k f fun r => { r with saved := if ok = 1 then [33] else [34, joinc] }).updCore k fun c =>
        { c with awaits := c.awaits.erase 64 }).resume k f
    | _ => s) s
/-- A matrix command of another core arrives (R175): refused for its rights once the sender can write the mailbox,
refused for a full queue, or accepted. -/
def execMxremArrival (k n : Nat) (s : State) : Out :=
  unitAct (fun s => match headFor (s.core k).outbox n with
    | none => s
    | some e =>
      let j := e.msg.dst
      if e.msg.kind ≠ .mxrem then s
      else if (s.core j).ctxid ≠ e.msg.ctx || fld e.msg.capw 0 1 = 0 then
        if s.mailWaits k .regs (mbox (e.msg.words.getD 3 0#64)) then s else ((s.freeOut k n).mailbox k .regs (mbox (e.msg.words.getD 3 0#64)) (statusWord (fld (Config.freeWord s.tick) 0 16) 0 0 0 8)).ticked
      else if (s.core j).full false then s.updCore k fun c => { c with outbox := c.outbox.set n { e with refused := true } }
      else (s.freeOut k n).acceptMm j false (goOp false 0#64 e.msg.words) e.msg.words) s

end Sys2Proof.Machine
end

