-- ==== Sys2Proof/Machine/Engines.lean ====
section
/-! DEFINITION. Acts of the engines, the walk units, the sequencers, the governor, the spill engines and the key-value hardware. -/
namespace Sys2Proof.Machine

/-! ### Matrix and copy engines (R164, R166, R167, R170 to R178) -/

def execMatrixCmdStart (k : Nat) (s : State) : Out := unitAct (·.startMx k) s
def execMatrixCmdComplete (k : Nat) (s : State) : Out := unitAct (·.endMx k) s
/-- The n-th executing copy completes, stops with a code, or waits. -/
def execCopyCmdComplete (k n : Nat) (s : State) : Out :=
  unitAct (fun s => match (s.core k).cp.running[n]? with | some m => s.runCopy k m | none => s) s
def execMword (k : Nat) (j : BitVec 2) (v : BitVec 64) (s : State) : Out := unitAct (·.engineIn k (8 * j.toNat) v) s
def execMgo (k : Nat) (v : BitVec 64) (s : State) : Out := unitAct (·.engineIn k 0x20 v) s
def execCword (k : Nat) (j : BitVec 2) (v : BitVec 64) (s : State) : Out := unitAct (·.engineIn k (0x100 + 8 * j.toNat) v) s
def execCgo (k : Nat) (v : BitVec 64) (s : State) : Out := unitAct (·.engineIn k 0x120 v) s
def execHeldGoAccept (k : Nat) (cp : Bool) (s : State) : Out := unitAct (·.heldGo k cp) s

/-! ### Walks (R368 to R370, R396) -/

def tokenOf (die camp serial : Nat) : Nat := 2 ^ 31 + die * 2 ^ 22 + camp * 2 ^ 16 + serial
def tscOf (k : Nat) : Nat := 4608 + campOf k
/-- BODY of a walk's events (R368, R370). -/
def Walk.body (w : Walk) : Nat := w.va / 4096 % 2 ^ 44 + w.ctx * 2 ^ 44 + w.kind * 2 ^ 60
/-- The walk is the oldest of its camp that nothing has taken yet. -/
def nextWalk (l : List Walk) (n : Nat) : Option Walk :=
  match l[n]? with
  | some w => if w.token ≠ 0 || (l.take n).any (fun q => q.token = 0 && campOf q.core = campOf w.core) then none else some w
  | none => none
def State.setToken (s : State) (n tok : Nat) : State :=
  { s with walks := (s.walks.zipIdx).map fun e => if e.2 = n then { e.1 with token := tok } else e.1 }
/-- A walk firing's registers: x4 to x7 as given, the others open. -/
def walkX (t va w5 tok : Nat) (root : Word) : Tab Word :=
  ⟨(List.range 63).map fun n => (n + 1, if n = 3 then wd va else if n = 4 then wd w5 else if n = 5 then wd tok else if n = 6 then root
    else Config.freeWord (t + n))⟩
def execWalkRequest (die n : Nat) (s : State) : Out :=
  unitAct (fun s => match nextWalk s.walks n with
    | none => s
    | some w =>
      if dieOf w.core ≠ die then s
      else
        let v := s.die die
        if nfld v.assist 1 1 = 1 || v.walkImg.isNone then
          let sq := v.seqs.get (256 * 2) 0
          ((s.post die 2 0 0x0404 w.body).setToken n (tokenOf die 0 sq))
        else
          let k := tscOf w.core
          match s.freeFrame k with
          | none => s
          | some f =>
            let tok := tokenOf die (campOf w.core % 48) v.serial
            let root : Word := match s.slotOf w.ctx with | some j => s.ctxDw j 0x20 | none => 0#64
            let s := (s.setToken n tok).updDie die fun v => { v with serial := (v.serial + 1) % 65536 }
            { s.setFr k f { stat := .ready, pc := wd v.walkEntry, src := .walk, token := tok, wbody := w.body, parkNo := (s.core k).parks,
                            x := walkX s.tick w.va (w.ctx + w.kind * 2 ^ 16) tok root } with tick := s.tick + 63 }) s
/-- WALKLIM passes for a walk (R369). -/
def execWalkTimeout (die n : Nat) (s : State) : Out :=
  unitAct (fun s => match s.walks[n]? with
    | some w => if dieOf w.core = die then s.walkNo w 0 else s
    | none => s) s

/-! ### Recalculation sequencers (R243 to R245, R249, R255) -/

/-- Cores of a binding's gang, row-major from its origin (R239, R245). -/
def gangCores (g : Word) : List Nat :=
  let o := fld g 0 13
  (List.range (fld g 16 6)).flatMap fun r => (List.range (fld g 24 5)).map fun c => o + 24 * r + c
def execCellDispatch (die i n : Nat) (s : State) : Out :=
  unitAct (fun s => match (s.die die).dir[i]? with
    | none => s
    | some e =>
      let t := e.pa
      if s.dispatchCell t ≠ some n then s
      else
        let g := gnext (s.done t)
        let cs := gangCores (s.dsc t n 0x38)
        let ws (r : Nat) : List Word := [wd e.va, wd (n * 2 ^ 32 + g), s.dsc t n 0x40, s.backBuf t n, wd (cs.length * 2 ^ 16 + r), wd (s.nprec t n)]
        let ms := (cs.zipIdx).map fun c =>
          (⟨{ kind := .dispatch, ctx := e.ctx, dst := c.1, tag := 61, entry := s.dsc t n 0x30, capw := wd t, words := ws c.2 }, false⟩ : OutE)
        (s.setDsc t n 0x28 12 3 2).updDie die fun v => { v with dispatch := v.dispatch ++ ms }) s
def execPinExpiry (die i slot : Nat) (s : State) : Out :=
  unitAct (fun s => match (s.die die).dir[i]? with
    | some e => if slot < 16 then s.setHdr e.pa (0x20 + 8 * slot) 32 1 0 else s
    | none => s) s
def execPoisonOpening (die i n : Nat) (s : State) : Out :=
  unitAct (fun s => match (s.die die).dir[i]? with
    | some e =>
      if e.poisonWait.contains n && s.unfinished e.pa < 4 then
        (s.updSheet die e.pa fun e => { e with poisonWait := e.poisonWait.filter (· ≠ n) }).openGen die e.pa [n] none
      else s
    | none => s) s

/-! ### The stage governor (R298 to R300) -/

def dieQueues (s : State) (die : Nat) : List Nat := ((List.range 768).map (768 * die + ·)).filter fun q => (s.squeue q).enable
/-- The actor tags of a core bound to an input queue; with the queue, each names a stage (R298). -/
def Core.actorsOf (c : Core) (q : Nat) : List Nat :=
  (c.tags.l.filter fun e => match e.2.kind with | .actor i _ _ _ _ => i = q | _ => false).map (·.1)
def State.stageOn (s : State) (k q n : Nat) : Bool := ((s.core k).actorsOf q).contains n && ((s.core k).tag n).e
/-- The lowest core of the die that may move from the stage of tag `a` on queue `d` to the consumer of `n`, with the consumer's tag. -/
def State.donorCore (s : State) (die d a n : Nat) (used : List Nat) : Option (Nat × Nat) :=
  (s.cores.keys.filter fun k => !isTsc k && dieOf k = die && !used.contains k).findSome? fun k =>
    if s.stageOn k d a && s.cores.keys.any (fun j => j ≠ k && s.stageOn j d a) then
      (((s.core k).actorsOf n).find? fun b => !((s.core k).tag b).e).map fun b => (k, b)
    else none
def State.governOne (s : State) (die n : Nat) (donors used : List Nat) : State × List Nat :=
  match (donors.flatMap fun d => (List.range 60).map fun a => (d, a)).findSome? fun x => (s.donorCore die x.1 x.2 n used).map fun y => (x.2, y) with
  | none => (s, used)
  | some (a, k, b) =>
    let s := if nfld (s.die die).assist 4 1 = 1 then s
      else s.updCore k fun c =>
        let t := c.tags.put a { c.tags.get a {} with e := false }
        { c with tags := t.put b { t.get b {} with e := true } }
    (s.post die 1 0 0x0301 (k + a * 2 ^ 16 + b * 2 ^ 24 + n * 2 ^ 32), k :: used)
def execGovernorSample (die : Nat) (s : State) : Out :=
  unitAct (fun s =>
    let qs := dieQueues s die
    let high := qs.filter fun q => (s.squeue q).occ > (s.squeue q).high
    let needy := high.filter fun q => (s.die die).prevHigh.contains q
    let donors := qs.filter fun q => (s.squeue q).occ < (s.squeue q).low
    let s := (needy.foldl (fun z n => z.1.governOne die n donors z.2) (s, [])).1
    s.updDie die fun v => { v with prevHigh := high }) s

/-! ### Stage queues (R295, R296) -/

/-- The refill that a pop has started goes on (R296). -/
def execQueueRefill (id : Nat) (s : State) : Out :=
  unitAct (fun s =>
    let q := s.squeue id
    if !q.enable || q.broken || !q.refill then s
    else match s.refillQ id with
      | .wait s => s
      | .broken s => s
      | .done s => s) s
/-- R295. -/
def State.queueWrite (s : State) (id off : Nat) (v : Word) : State :=
  let q := s.squeue id
  let body : SQueue := { q with ctx := fld v 32 16, ringsize := fld v 16 16, share := fld v 0 9 }
  if q.enable then
    (if off = 8 && fld v 63 1 = 0 && q.occ = 0 then s.setSQueue id { body with enable := false } else s)
  else match off with
    | 0 => s.setSQueue id { q with ringbase := v }
    | 8 =>
      let camp := id / 16
      let used := ((List.range 16).map fun j => let p := s.squeue (16 * camp + j); if p.enable then p.share else 0).foldl (· + ·) 0
      let bad : Bool := body.share = 0 || used + body.share > 256 || (q.ringbase.toNat % 64 ≠ 0 && body.ringsize ≠ 0)
      if fld v 63 1 = 1 && !bad then s.setSQueue id { body with enable := true, head := 0, tail := 0, bank := [], refill := false, broken := false }
      else s.setSQueue id body
    | 0x10 => s.setSQueue id { q with high := fld v 16 16, low := fld v 0 16 }
    | _ => s
def execStageQueueDescWrite (id : Nat) (off : BitVec 6) (v : BitVec 64) (s : State) : Out :=
  unitAct (fun s => if id < 4608 then s.queueWrite id off.toNat v else s) s

/-! ### KREHOME's target and answer (R342) -/

/-- A page moved: at its place, with the entry's KIND and LOC; a status; or a walk or a path to wait for. -/
inductive MoveR where
  | placed (s : State) (kind loc : Nat)
  | code (s : State) (c : Nat)
  | wait (s : State)
/-- The page at its place on the target, for the KREHOME in frame `f` of core `k`. -/
def State.movePage (s : State) (k f j : Nat) (v : Kv) (page : List (BitVec 8)) : MoveR :=
  match s.freePage j v with
  | some n => .placed ((s.poolStore j (v.slots + n * v.p) page).setFree j v n false) 1 n
  | none =>
    let d := dieOf j
    let c := (s.core j).ctxid
    match s.flPeek d c k f with
    | .wait s => .wait s
    | .code s x kind => .code s (if x = 0xD then 0xB else x + kind * 256)
    | .got s p =>
      match s.unitPlaces d (freeUnit d) c k f needW (addrs (s.pageVa j v 2 p) page.length) with
      | .wait s => .wait s
      | .fault s kind => .code s (0x14 + kind * 256)
      | .got s ps => .placed ((s.writePlaces d c 8 ps page).flDrop d) 2 p
def State.moveAnswer (s : State) (k f : Nat) (code loc : Nat) (rest : List Nat) : State :=
  s.updFr k f fun r => { r with saved := 52 :: code :: loc :: rest, expired := false, far := [] }
/-- The target's step. Where the space does not fit the target's own scratchpad (R17), it answers BADDESC (DESIGN CHOICE, log 137). -/
def State.moveTarget (s : State) (k f j key : Nat) (w : Word) (v : Kv) (page : List (BitVec 8)) : State :=
  let rest := j :: key :: w.toNat :: v.pack
  let put (s : State) (n : Nat) : State :=
    if fld w 61 1 = 1 then
      (((s.setCairn j v n key (putFld w 0 32 0).toNat).liveAdd j v 1).moveAnswer k f 0 0 rest)
    else match s.movePage k f j v page with
      | .placed s kind loc => (((s.setCairn j v n key (kind * 2 ^ 62 + loc)).liveAdd j v 1).moveAnswer k f 0 loc rest)
      | .code s c => s.moveAnswer k f c 0 rest
      | .wait s => s
  if (s.core j).ctxid ≠ (s.core k).ctxid then s.moveAnswer k f 0xC 0 rest
  else if !kvFits (s.core j).partw v then s.moveAnswer k f 8 0 rest
  else match s.probe j v key with
    | .found n => if fld (s.cairnW j v n) 62 2 = 3 then put s n else s.moveAnswer k f 0xA 0 rest
    | .empty n => put s n
    | .full => s.moveAnswer k f 6 0 rest
def execKrehomeTarget (k f : Nat) (s : State) : Out :=
  unitAct (fun s => match (s.fr k f).saved with
    | 51 :: j :: key :: w :: r => s.moveTarget k f j key (wd w) (kvUnpack r) ((r.drop 7).map (BitVec.ofNat 8))
    | _ => s) s
/-- The transit ends: the status and LOC stand for the waiting KREHOME. -/
def State.moveDone (s : State) (k f code loc : Nat) (v : Kv) (key : Nat) : State :=
  ((s.updCore k fun c => { c with moving := c.moving.filter fun x => !(x.1 = v.cairn && x.2.1 = key) }).updFr k f fun r =>
    { r with saved := [53, code, loc] }).resume k f
def execKrehomeAnswer (k f : Nat) (s : State) : Out :=
  unitAct (fun s => match (s.fr k f).saved with
    | 52 :: code :: loc :: j :: key :: w :: r =>
      let v := kvUnpack r
      let e := wd w
      if code ≠ 0 then s.moveDone k f code loc v key
      else match s.probe k v key with
        | .found n =>
          let stub (s : State) : State := (s.setCairn k v n key (3 * 2 ^ 62 + j)).liveAdd k v (2 ^ 64 - 1)
          if fld e 61 1 = 1 then (stub s).moveDone k f 0 loc v key
          else if fld e 62 2 = 1 then ((stub s).setFree k v (fld e 0 32) true).moveDone k f 0 loc v key
          else match s.flPush (dieOf k) (s.core k).ctxid k f (fld e 0 32) with
            | .done s => (stub s).moveDone k f 0 loc v key
            | .code s c kind => (stub s).moveDone k f (c + kind * 256) loc v key
            | .wait s => s
        | _ => s.moveDone k f 0 loc v key
    | _ => s) s

end Sys2Proof.Machine
end

