-- ==== Sys2Proof/Machine/Fabric.lean ====
section
/-! DEFINITION. Acts of the fabric: replicas of read-duplicated pages, traffic from other packages, the link layer, remote limits, and
collective groups (R208 to R216, R416 to R421, R427 to R433). -/
namespace Sys2Proof.Machine

/-! ### Read-duplicated pages (R209 to R211) -/

/-- The frame of die `d`'s replica (R208). -/
def Rdup.at_ (r : Rdup) (d : Nat) : Nat := r.pa - 0x1800000000 * r.home + 0x1800000000 * d
def sameLine (a b : Rdup) : Bool := spans (a.pa / 64 * 64) 64 (b.pa / 64 * 64) 64
/-- Firings of a core held for a release look again (R201, R211). -/
def State.afterRelease (s : State) (k : Nat) : State := s.wakeSlog k
/-- Logged stores that waited for a line's acknowledgements are performed (R210, R373). -/
def State.replayAll (s : State) : State := s.cores.keys.foldl (fun s k => if (s.core k).slog.l.isEmpty then s else s.replay k) s
def State.dropRdup (s : State) (n : Nat) : State := { s with rdup := s.rdup.eraseIdx n }
/-- A push of a non-atomic store is applied at one die, after those of earlier stores to the line. -/
def execRdupPropagate (n die : Nat) (s : State) : Out :=
  unitAct (fun s => match s.rdup[n]? with
    | none => s
    | some r =>
      if r.atomic || !r.dies.contains die || (s.rdup.take n).any (fun q => sameLine q r && q.dies.contains die) then s
      else
        let s := s.store (r.at_ die) r.bytes
        let ds := r.dies.erase die
        (if ds = [] then s.dropRdup n else { s with rdup := s.rdup.set n { r with dies := ds } }).afterRelease r.core) s
/-! ### Program traffic from another package (R213 to R216, R420) -/

def State.peer (s : State) (t : Nat) : Peer := s.peers.get t {}
def State.setPeer (s : State) (t : Nat) (p : Peer) : State := { s with peers := s.peers.put t p }
/-- Where traffic of another package finds an address of this one: memory, or through a window the scratchpad of the context resident there;
every other granule is closed (R17; DESIGN CHOICE, log 138). -/
def State.homePa (s : State) (pa : Nat) : Option Nat :=
  if !s.isOwn pa then none
  else match regionOf pa with
    | .main _ => some pa
    | .sram k off => s.windowPa (s.core k).ctxid k off
    | _ => none
/-- The bytes granule by granule, `n` granules at most; those a closed granule would take are dropped (R17). -/
def State.homeStore (s : State) (pa : Nat) (l : List (BitVec 8)) : Nat → State
  | 0 => s
  | n + 1 =>
    let m := 4096 - pa % 4096
    let t := match s.homePa pa with
      | some q => s.store q (l.take m)
      | none => s
    if l.length ≤ m then t else t.homeStore (pa + m) (l.drop m) n
/-- A write at its home on this package: memory, or an engine's words and a queue's doorbell (R166). -/
def State.homeWrite (s : State) (pa : Nat) (l : List (BitVec 8)) : State :=
  match regionOf pa with
  | .regs o =>
    let d := o / 0x40000000
    let r := o % 0x40000000
    let n := r % 0x1000000 / 0x1000
    if l.length ≠ 8 || !s.isOwn pa then s
    else if r / 0x1000000 = 1 && n < 768 then s.engineIn (768 * d + n) (r % 0x1000) (wd (ofBytes l))
    else if r / 0x1000000 = 5 && n < 64 && r % 0x1000 = 0 then s.ringBell d n (ofBytes l % 2 ^ 32) false
    else s
  | _ => s.homeStore pa l (l.length / 4096 + 2)
/-- `a` comes after `b`, or is it, within a window of 2^31. -/
def seqGe (a b : Nat) : Bool := (a + 2 ^ 32 - b % 2 ^ 32) % 2 ^ 32 < 2 ^ 31
def advance (l : List Nat) : Nat → Nat → Nat
  | 0, d => d
  | n + 1, d => if l.contains ((d + 1) % 2 ^ 32) then advance l n ((d + 1) % 2 ^ 32) else d
/-- A store number has been applied: the delivered count follows. -/
def Peer.note (p : Peer) (num : Nat) : Peer :=
  let l := p.applied ++ [num]
  let d := advance l l.length p.delivered
  { p with applied := l.filter fun n => !seqGe d n, delivered := d }
/-- The store number has been applied already (R213). -/
def Peer.seen (p : Peer) (num : Nat) : Bool := p.applied.contains num || seqGe p.delivered num
/-- A release number has been applied. -/
def Peer.noteRel (p : Peer) (num : Nat) : Peer :=
  let l := p.relApplied ++ [num]
  let d := advance l l.length p.relDone
  { p with relApplied := l.filter fun n => !seqGe d n, relDone := d }
/-- The release number waits or has been applied (R214, R216). -/
def Peer.seenRel (p : Peer) (num : Nat) : Bool := p.relApplied.contains num || seqGe p.relDone num || p.relWait.any (·.num = num)
/-- What an arrival of an epoch meets: a newer epoch begins, an older one is discarded. -/
def Peer.epochIn (p : Peer) (e : Nat) : Option Peer :=
  if e = p.rxEpoch then some p
  else if (e + 256 - p.rxEpoch) % 256 < 128 then
    some { p with rxEpoch := e, applied := [], delivered := 0, relApplied := [], relDone := 0, relWait := [] }
  else none
/-- A flow has delivered every packet up to a mark (R215); of a flow no packet of which has arrived, only the mark 0 is reached. -/
def Peer.marked (p : Peer) (m : Nat × Nat) : Bool :=
  match p.flows.get? m.1 with
  | some f => !seqGe m.2 f.next
  | none => m.2 = 0
/-- What an AMO writes and whether it does: `op` 1 to 9 as R222 orders them, 10 compare and swap, 11 to 13 floating add of FT 0 to 2. -/
def amoNew (op n old : Nat) (v cmp : Word) : Option Nat :=
  let opd := v.toNat % 2 ^ (8 * n)
  if op = 0 || op > 13 then none
  else if op = 10 then (if old = cmp.toNat % 2 ^ (8 * n) then some opd else none)
  else if op > 10 then some (fAdd (op - 11) old opd).1
  else some (amoVal (op - 1) n old opd)
/-- An AMO of another package at its home (R222). -/
def State.amoHome (s : State) (op pa n : Nat) (v cmp : Word) : State :=
  match s.homePa pa with
  | none => s
  | some q =>
    if pa % n ≠ 0 || s.poisonedAt q n then s
    else match amoNew op n (s.rdN q n) v cmp with
      | some x => s.wrN q n x
      | none => s
/-- Apply the releases that wait and whose counts and marks are met (R214, R215), and whose line is free (R210). -/
def State.applyReleases (s : State) (src : Nat) : Nat → State
  | 0 => s
  | f + 1 =>
    let p := s.peer src
    match p.relWait.find? fun r => seqGe p.delivered r.count && r.marks.all p.marked && !s.linesHeld r.pa 8 with
    | none => s
    | some r =>
      let q := ({ p with relWait := p.relWait.erase r }.noteRel r.num).note ((r.count + 1) % 2 ^ 32)
      let t := match r.amo with
        | some (op, n, v, cmp) => s.amoHome op r.pa n v cmp
        | none => s.homeWrite r.pa r.bytes
      (t.setPeer src q).applyReleases src f
def State.applyAll (s : State) (src : Nat) : State := s.applyReleases src ((s.peer src).relWait.length)
/-- A release arrives with the peer's record of its epoch: it waits, unless it is a repeat. -/
def State.releaseIn (s : State) (src : Nat) (p : Peer) (r : RelWait) : State :=
  if p.seenRel r.num then s.setPeer src p else (s.setPeer src { p with relWait := p.relWait ++ [r] }).applyAll src
/-- Releases that waited for a line's acknowledgements are applied. -/
def State.applyPeers (s : State) : State := s.peers.keys.foldl (fun s t => s.applyAll t) s
/-- A die's invalidate acknowledgement for an atomic store returns; with the last one the store is visible everywhere. -/
def execRdupInvalidateAck (n die : Nat) (s : State) : Out :=
  unitAct (fun s => match s.rdup[n]? with
    | none => s
    | some r =>
      if !r.atomic || !r.dies.contains die || (s.rdup.take n).any (sameLine · r) then s
      else
        let ds := r.dies.erase die
        if ds = [] then
          (((((List.range 6).foldl (fun s d => s.store (r.at_ d) r.bytes) s).dropRdup n).afterRelease r.core).replayAll).applyPeers
        else { s with rdup := s.rdup.set n { r with dies := ds } }) s
def execFabricStoreArrival (src : Nat) (epoch : BitVec 8) (num : BitVec 32) (pa : Nat) (bytes : List (BitVec 8)) (s : State) : Out :=
  unitAct (fun s =>
    if src = s.pkg || s.linesHeld pa bytes.length then s
    else match (s.peer src).epochIn epoch.toNat with
      | none => s
      | some p =>
        if p.seen num.toNat then s.setPeer src p
        else ((s.homeWrite pa bytes).setPeer src (p.note num.toNat)).applyAll src) s
def execFabricReleaseApply (src : Nat) (epoch : BitVec 8) (num count : BitVec 32) (marks : List (Nat × Nat)) (pa : Nat)
    (bytes : List (BitVec 8)) (s : State) : Out :=
  unitAct (fun s =>
    if src = s.pkg then s
    else match (s.peer src).epochIn epoch.toNat with
      | none => s
      | some p => s.releaseIn src p { num := num.toNat, count := count.toNat, marks := marks, pa := pa, bytes := bytes }) s
def okSize (n : Nat) : Nat := if ([1, 2, 4, 8] : List Nat).contains n then n else 8
/-- A remote load (op 0) or AMO (op as `amoNew` has it) reaches its home, with operand and comparand in `v`. Its tag holds epoch and store
number; an AMO with release order also carries release number, count and marks, and waits as a release does (R213 to R216). -/
def execRemoteAccessArrival (src op pa size : Nat) (v : BitVec 64 × BitVec 64) (tag : AccessTag) (s : State) : Out :=
  unitAct (fun s =>
    let n := okSize size
    if src = s.pkg || op = 0 || op > 13 then s
    else match (s.peer src).epochIn tag.epoch.toNat with
      | none => s
      | some p => match tag.rel with
        | some r => s.releaseIn src p { num := r.num.toNat, count := r.count.toNat, marks := r.marks, pa := pa, bytes := [], amo := some (op, n, v.1, v.2) }
        | none => if s.linesHeld pa n then s else if p.seen tag.num.toNat then s.setPeer src p else ((s.amoHome op pa n v.1 v.2).setPeer src (p.note tag.num.toNat)).applyAll src) s

/-! ### Flows (R212, R215, R430) -/

/-- Packets of an ordered flow that have become next are written in their order. -/
def State.flowDrain (s : State) (f : InFlow) : Nat → State × InFlow
  | 0 => (s, f)
  | n + 1 =>
    match f.held.find? fun h => h.1 = f.next && !s.linesHeld h.2.1 h.2.2.length with
    | some h => (s.homeWrite h.2.1 h.2.2).flowDrain { f with next := (f.next + 1) % 2 ^ 32, held := f.held.erase h } n
    | none => (s, f)
/-- Packet `q` of an unordered flow is delivered. -/
def InFlow.deliver (f : InFlow) (q : Nat) : InFlow :=
  let l := f.got ++ [q]
  let d := advance l l.length ((f.next + 2 ^ 32 - 1) % 2 ^ 32)
  { f with got := l.filter fun n => !seqGe d n, next := (d + 1) % 2 ^ 32 }
/-- The flow a packet belongs to: the one the slot holds, or a new one that begins at `start`; a packet of an earlier one has none. -/
def Peer.flowOf (p : Peer) (flow start : Nat) : Option InFlow :=
  match p.flows.get? flow with
  | none => some { start := start, next := start }
  | some f => if f.start = start then some f else if seqGe start f.next then some { start := start, next := start } else none
/-- A packet of a flow arrives (R212, R422, R423): `seq` holds its number and the first number of the flow, `flow` names the core and its
slot. -/
def execFlowPacketArrival (src flow : Nat) (seq : BitVec 32 × BitVec 32) (ordered : Bool) (grp : Option (Nat × BitVec 16)) (pa : Nat)
    (bytes : List (BitVec 8)) (s : State) : Out :=
  unitAct (fun s =>
    let stale : Bool := match grp with | some (g, i) => (s.group g).inc ≠ i.toNat | none => false
    if src = s.pkg || s.linesHeld pa bytes.length then s
    else if stale then (match grp with
      | some (g, _) => if g < 64 then s.setGroup g { s.group g with dropped := min 0xFFFF ((s.group g).dropped + 1) } else s
      | none => s)
    else
      let q := seq.1.toNat
      let p := s.peer src
      match p.flowOf flow seq.2.toNat with
      | none => s
      | some f =>
        if !seqGe q f.next || f.got.contains q || f.held.any (·.1 = q) then s
        else
          let (s, f) :=
            if ordered then s.flowDrain { f with held := f.held ++ [(q, (pa, bytes))] } (f.held.length + 1)
            else (s.homeWrite pa bytes, f.deliver q)
          (s.setPeer src { p with flows := p.flows.put flow f }).applyAll src) s

/-! ### The link layer (R416 to R418) -/

def portNo (die port : Nat) : Nat := 3 * die + port % 3
/-- The port begins to train. -/
def State.train (s : State) (p : Nat) : State := s.setPort p { s.port p with training := true, crcFails := 0 }
def execLinkFlitReceive (die port : Nat) (num : BitVec 12) (crcOk : Bool) (s : State) : Out :=
  unitAct (fun s =>
    let n := portNo die port
    let p := s.port n
    let want := match p.lastRx with | some r => (r + 1) % 4096 | none => 0
    if die ≥ 6 || p.width = 0 || p.training || num.toNat ≠ want then s
    else if crcOk then s.setPort n { p with lastRx := some want, crcFails := 0 }
    else if p.crcFails ≥ 1 then s.train n
    else s.setPort n { p with crcFails := 1 }) s
/-- An acknowledgement, or the receiver's report, of the last accepted number: the flits up to it leave the buffer. -/
def execLinkAckReceive (die port : Nat) (num : BitVec 12) (report : Bool) (s : State) : Out :=
  unitAct (fun s =>
    let n := portNo die port
    let p := s.port n
    if die ≥ 6 || !p.replay.contains num.toNat || (p.training && !report) then s
    else s.setPort n { p with replay := p.replay.drop (p.replay.findIdx (· = num.toNat) + 1) }.fill) s
def execLaneLockLoss (die port : Nat) (s : State) : Out :=
  unitAct (fun s => if die ≥ 6 || (s.port (portNo die port)).width = 0 then s else s.train (portNo die port)) s
def laneWidth (l : BitVec 16) : Nat :=
  if l = 0xFFFF#16 then 1 else if l &&& 0xFF#16 = 0xFF#16 then 2 else if l >>> 8 = 0xFF#16 then 3 else 0
/-- No plane is up: incarnations with a member on another package abort (R428). -/
def State.linksDown (s : State) : State :=
  if (List.range 18).any fun p => (s.port p).width ≠ 0 then s
  else (s.groups.keys).foldl (fun s g =>
    if (s.group g).state = 2 && (s.group g).members.any (·.2 ≠ s.pkg) then s.groupAbort g 1 else s) s
def execPortRetrainDone (die port : Nat) (lanes : BitVec 16) (s : State) : Out :=
  unitAct (fun s =>
    let n := portNo die port
    let p := s.port n
    let w := laneWidth lanes
    if die ≥ 6 || !p.training then s
    else if w = 0 then
      let s := (s.setPort n { p with width := 0, training := false, replay := [], waitTx := 0 }).post die 4 (port % 3) 0x0605 n
      (s.flits n (p.replay.length + p.waitTx)).linksDown
    else
      let s := s.setPort n { p with width := w, training := false }
      if w = p.width then s
      else s.post die 4 (port % 3) (if p.width ≠ 0 && w ≠ 1 then 0x0604 else 0x0606) (n + w * 2 ^ 8)) s
/-- Bits of RETRAIN: each port named trains. -/
def State.retrain (s : State) (die : Nat) (mask : BitVec 3) : State :=
  (List.range 3).foldl (fun s p => if mask.getLsbD p && s.main then s.train (3 * die + p) else s) s
def execRetrain (die : Nat) (mask : BitVec 3) (s : State) : Out := unitAct (fun s => if die < 6 then s.retrain die mask else s) s

/-! ### Acknowledgements and limits (R213, R419 to R421) -/

/-- Whether an item may still be performed at its home: it has met no newer epoch (R420), and a release comes after no store that is lost
(R214, R421). -/
def Peer.alive (p : Peer) (q : PStore) : Bool :=
  (q.epoch + 256 - p.learnt) % 256 < 128 && !(q.rel.isSome && p.lost.any fun n => n.1 = q.epoch && seqGe q.num n.2)
/-- A pending item leaves, never performed. -/
def Peer.lose (p : Peer) (q : PStore) : Peer := { p with pending := p.pending.erase q, lost := p.lost ++ [(q.epoch, q.num)] }
/-- A pending store or release is applied at its home, if it still may be; what a register page of another package does with it the state
does not show. -/
def State.perform (s : State) (t : Nat) (q : PStore) : State :=
  let p := s.peer t
  if !p.alive q then s.setPeer t (p.lose q)
  else
    let s := s.setPeer t { p with pending := p.pending.erase q, learnt := q.epoch }
    match regionOf q.pa with
    | .regs _ => s
    | _ => s.unitStore q.pa q.bytes
/-- The switch has accepted the release with that store number, or the destination has applied every item up to it; no count goes past a
lost one (R213). -/
def execProgramTrafficAck (dst : Nat) (count : BitVec 32) (sw : Bool) (s : State) : Out :=
  unitAct (fun s =>
    let p := s.peer dst
    let past (n : Nat × Nat) : Bool := n.1 = p.txEpoch && !sw && seqGe count.toNat n.2
    let mine := p.pending.filter fun q => q.epoch = p.txEpoch && !p.lost.any past && (if sw then q.num = count.toNat && q.rel.isSome else seqGe count.toNat q.num)
    let s :=
      if sw then s.setPeer dst { p with pending := p.pending.map fun q => if mine.contains q then { q with switched := true } else q }
      else mine.foldl (fun s q => s.perform dst q) s
    mine.foldl (fun s q => s.afterRelease q.core) s) s
/-- A firing takes TIMEOUT at the instruction it waits at. -/
def State.timeoutAt (s : State) (k f va pkg : Nat) : State :=
  (s.updFr k f fun r => { r with deferred := ⟨0x12, wd va, wd (pkg % 18), 0#64⟩ :: r.deferred, now := true, far := [], hold := .no, stat := .ready })
/-- The limit of an access an instruction waits with (R419); a unit's access for it ends instead (R335, R349). -/
def State.farLimit (s : State) (k f : Nat) : State :=
  let r := s.fr k f
  match r.far with
  | [] => s
  | (va, t) :: l =>
    if r.hold = .no || r.stat = .stopped then s
    else if t ≥ 2 ^ 16 then (s.updFr k f fun r => { r with expired := true, far := l }).resume k f
    else
      let s := match r.saved with
        | [9, num, ep] => (match (s.peer t).pending.find? fun (q : PStore) => q.num = num && q.epoch = ep && q.core = k with
          | some q => s.setPeer t ((s.peer t).lose q)
          | none => s)
        | _ => s
      (s.openEpoch t).timeoutAt k f va t
/-- TIMEOUT of a release that was completed early, for the next group boundary (R421). -/
def lateTrap (t : Nat) (q : PStore) : Trap := ⟨0x12, wd q.va, wd (t % 18), 1#64⟩
/-- A release that a switch had completed was not applied in time: its firing, resident or pre-empted, takes TIMEOUT at its next group
boundary; once it has ended, its launch fails (R421). A release of an engine or of SIGNAL is no firing's (DEDUCED, log 144). -/
def State.lateRelease (s : State) (t : Nat) (q : PStore) : State :=
  let r := s.fr q.core q.frame
  let key := savedKey q.ctx q.core
  let goes (r : Frame) : Bool := q.frame < 32 && r.stat ≠ .free && r.stat ≠ .stopped
  if q.frame = engFrame then s
  else if (s.core q.core).ctxid = q.ctx && goes r then
    s.updFr q.core q.frame fun r => { r with deferred := r.deferred ++ [lateTrap t q] }
  else if (s.core q.core).ctxid ≠ q.ctx && (s.savedFrames.get key []).any (fun e => e.1 = q.frame && goes e.2) then
    { s with savedFrames := s.savedFrames.put key ((s.savedFrames.get key []).map fun e =>
        if e.1 = q.frame then (e.1, { e.2 with deferred := e.2.deferred ++ [lateTrap t q] }) else e) }
  else
    let s := { s with launches := s.launches.map fun (L : Launch) => if L.id = q.launch then { L with failed := some (-1) } else L }
    s.guilt q.ctx 7
/-- The limit of pending item `j` toward package `t`. -/
def State.pendLimit (s : State) (t j : Nat) : State :=
  match (s.peer t).pending[j]? with
  | none => s
  | some q =>
    let p := s.peer t
    let lose (l : List PStore) (s : State) : State := s.setPeer t (l.foldl (fun p x => p.lose x) (s.peer t))
    let before := p.pending.filter fun x => x.epoch = q.epoch && seqGe q.num x.num
    let run (l : List PStore) (s : State) : State :=
      { (if Config.freeBit s.tick 0 then l.foldl (fun s x => s.perform t x) s else lose l s) with tick := s.tick + 1 }
    match q.rel with
    | none =>
      let s := run [q] ((before.filter fun x => x ≠ q && x.core = q.core && spans x.pa x.bytes.length q.pa q.bytes.length).foldl (fun s x => s.perform t x) s)
      s.setPeer t { s.peer t with timedOut := true }
    | some _ =>
      if q.switched then ((run before s).openEpoch t).lateRelease t q
      else match (framesOf q.core).find? fun f => (s.fr q.core f).saved = [9, q.num, q.epoch] with
        | some f => s.farLimit q.core f
        | none => ((lose [q] s).openEpoch t).lateRelease t q
/-- The limit of a running copy whose bytes, the first or a later one, reach another package (R178, R428). -/
def State.copyLimit (s : State) (k n : Nat) : State :=
  match (s.core k).cp.running[n]? with
  | none => s
  | some m =>
    let far (va : Nat) : Option Nat := match s.place k va 1 (false, false, false) with | .mem pa _ _ => if isRemote s pa then some (pkgOf pa) else none | _ => none
    let i := (match s.cpyScan k m m.len 0 with | some (i, _) => i | none => m.len)
    let far1 (j : Nat) : Option Nat := let (a, b) := s.cpyMove k m j; (far b).orElse fun _ => far a
    match (List.range (min (i + 1) m.len)).findSome? far1 with
    | none => s
    | some t =>
      if m.bad ≠ 0 || m.len = 0 || m.ended.isSome then s
      else
        let fl := (s.core k).flows.get? (s.copyFlow k m)
        let s := (s.cpyEnd k m ((Config.freeWord s.tick).toNat % (i + 1)) i 0xB).openEpoch t
        match fl with
        | some x => if x.grouped && (s.group x.group).inc = x.inc && (s.group x.group).state = 2 then s.groupAbort x.group 2 else s
        | none => s
/-- The limit of a WAITA's read of another package. -/
def State.waitaLimit (s : State) (k f : Nat) : State :=
  let pick (w : Wait) : Option (Nat × Nat) := match w.kind with
    | .waita va size _ _ _ _ => (match s.place k va size needR with
      | .mem pa _ _ => if isRemote s pa then some (va, pkgOf pa) else none
      | .reg pa _ => if isRemote s pa then some (va, pkgOf pa) else none
      | _ => none)
    | _ => none
  match (s.fr k f).waits.find? fun w => (pick w).isSome with
  | some w => (match pick w with
    | some (va, t) => (s.openEpoch t).waitTrap k f w ⟨0x12, wd va, wd (t % 18), 0#64⟩
    | none => s)
  | none => s
/-- REMOTE_LIMIT_EXPIRY: n = 4m names the access of frame 32·core + frame = m, 4m + 1 pending item m mod 2^16 of package m / 2^16, 4m + 2
running copy m mod 64 of core m / 64, 4m + 3 a WAITA of frame m. -/
def execRemoteLimitExpiry (n : Nat) (s : State) : Out :=
  unitAct (fun s =>
    let m := n / 4
    match n % 4 with
    | 0 => s.farLimit (m / 32) (m % 32)
    | 1 => s.pendLimit (m / 2 ^ 16) (m % 2 ^ 16)
    | 2 => s.copyLimit (m / 64) (m % 64)
    | _ => s.waitaLimit (m / 32) (m % 32)) s

/-! ### Collective groups (R427 to R433) -/

def execGroupJoinArrival (g core pkgNo : Nat) (ctx : BitVec 16) (record : List (BitVec 8)) (prop : BitVec 16) (s : State) : Out :=
  unitAct (fun s =>
    let here : Bool := match cgMembers record with | some ((_, p) :: _) => p = s.pkg | _ => false
    if g ≥ 64 || pkgNo = s.pkg || !here then s else s.joinArrive g ⟨core, pkgNo, ctx.toNat, record, prop.toNat⟩) s
def execGroupCommitArrival (g : Nat) (inc : BitVec 16) (s : State) : Out :=
  unitAct (fun s =>
    let v := s.group g
    if g ≥ 64 then s
    else if v.state = 1 then s.formed g inc.toNat
    else if v.state = 3 && v.inc ≠ inc.toNat then
      ((s.setGroup g { v with inc := inc.toNat, reason := 2 }).post 0 3 0 0x0607 (g + 2 * 2 ^ 8 + inc.toNat * 2 ^ 16)).tellOthers v
    else s) s
def execGroupAbortMsg (g : Nat) (inc : BitVec 16) (reason : BitVec 3) (s : State) : Out :=
  unitAct (fun s =>
    let v := s.group g
    if g ≥ 64 then s
    else if v.inc ≠ inc.toNat then s.setGroup g { v with dropped := min 0xFFFF (v.dropped + 1) }
    else if v.state = 2 && reason ≠ 0#3 && reason.toNat ≤ 4 then s.groupEnd g reason.toNat
    else s) s
def execCgwaitLimit (k f : Nat) (s : State) : Out :=
  unitAct (fun s => match (s.fr k f).saved with
    | [a, g, i] => if a = savGroup && (s.group g).inc = i && (s.group g).state = 2 then s.groupAbort g 2 else s
    | _ => s) s
def execCgformLimit (k f : Nat) (s : State) : Out :=
  unitAct (fun s => match (s.fr k f).saved with
    | [a, g, _] => if a = savForm && (s.group g).state = 1 then s.groupAbort g 2 else s
    | _ => s) s
/-- The host's word on a formation that is posted (R433). -/
def State.answerCommit (s : State) (g : Nat) : State :=
  let v := s.group g
  if v.posted && v.state = 1 then s.commit g (maxProp (v.joins.map (·.prop))) else s
def State.answerRefuse (s : State) (g : Nat) : State :=
  if (s.group g).posted then s.setGroup g { s.group g with joins := [], posted := false } else s
def execCgansCommit (g : Nat) (s : State) : Out := unitAct (fun s => s.answerCommit g) s
def execCgansRefuse (g : Nat) (s : State) : Out := unitAct (fun s => s.answerRefuse g) s

end Sys2Proof.Machine
end

