-- ==== Sys2Proof/Machine/Hash.lean ====
section
/-! DEFINITION. SHA3-256, which measures images and extends the attestation logs (R370, R434 step 5). -/
namespace Sys2Proof.Machine

/-- Rotations of the 25 lanes, lane x + 5y. -/
def keccakRot : List Nat :=
  [0, 1, 62, 28, 27, 36, 44, 6, 55, 20, 3, 10, 43, 25, 39, 41, 45, 15, 21, 8, 18, 2, 61, 56, 14]
def keccakRc : List (BitVec 64) :=
  [0x0000000000000001#64, 0x0000000000008082#64, 0x800000000000808A#64, 0x8000000080008000#64, 0x000000000000808B#64, 0x0000000080000001#64,
   0x8000000080008081#64, 0x8000000000008009#64, 0x000000000000008A#64, 0x0000000000000088#64, 0x0000000080008009#64, 0x000000008000000A#64] ++
  [0x000000008000808B#64, 0x800000000000008B#64, 0x8000000000008089#64, 0x8000000000008003#64, 0x8000000000008002#64, 0x8000000000000080#64,
   0x000000000000800A#64, 0x800000008000000A#64, 0x8000000080008081#64, 0x8000000000008080#64, 0x0000000080000001#64, 0x8000000080008008#64]
/-- One round of the permutation on the lanes. -/
def keccakRound (a : List (BitVec 64)) (rc : BitVec 64) : List (BitVec 64) :=
  let g (l : List (BitVec 64)) (i : Nat) : BitVec 64 := l.getD i 0#64
  let c := (List.range 5).map fun x => g a x ^^^ g a (x + 5) ^^^ g a (x + 10) ^^^ g a (x + 15) ^^^ g a (x + 20)
  let d := (List.range 5).map fun x => g c ((x + 4) % 5) ^^^ (g c ((x + 1) % 5)).rotateLeft 1
  let e := (List.range 25).map fun i => (g a i ^^^ g d (i % 5)).rotateLeft (keccakRot.getD i 0)
  let b := (List.range 25).map fun i => g e ((i % 5 + 3 * (i / 5)) % 5 + 5 * (i % 5))
  (List.range 25).map fun i =>
    (g b i ^^^ (~~~(g b ((i + 1) % 5 + 5 * (i / 5))) &&& g b ((i + 2) % 5 + 5 * (i / 5)))) ^^^ (if i = 0 then rc else 0#64)
/-- Absorb blocks of 17 lanes. -/
def keccakAbsorb : Nat → List (BitVec 64) → List (BitVec 64) → List (BitVec 64)
  | 0, _, st => st
  | n + 1, m, st =>
    keccakAbsorb n (m.drop 17) (keccakRc.foldl keccakRound ((st.zipIdx).map fun e => if e.2 < 17 then e.1 ^^^ m.getD e.2 0#64 else e.1))
/-- The message with its padding, to a multiple of 136 bytes. -/
def sha3Pad (l : List (BitVec 8)) : List (BitVec 8) :=
  let n := 136 - l.length % 136
  l ++ (List.range n).map fun i => (if i = 0 then 0x06#8 else 0#8) ||| (if i + 1 = n then 0x80#8 else 0#8)
/-- The SHA3-256 digest of some bytes, its first byte lowest. -/
def sha3 (l : List (BitVec 8)) : BitVec 256 :=
  let p := sha3Pad l
  let st := keccakAbsorb (p.length / 136) (words64 (p.length / 8) p) (List.replicate 25 0#64)
  BitVec.ofNat 256 ((st.take 4).foldr (fun w a => w.toNat + a * 2 ^ 64) 0)
/-- A log extended by a digest: M ← SHA3-256(M ‖ digest) (R434). -/
def extendLog (m d : BitVec 256) : BitVec 256 := sha3 (bytesOf 32 m.toNat ++ bytesOf 32 d.toNat)

end Sys2Proof.Machine
end

