-- ==== Sys2Proof/Machine/FrontEnd.lean ====
section
/-! DEFINITION. The command front end: queues, packets, launches, scheduling, masters and its register pages (R287, R288, R361 to R365,
R370, R382 to R396, R403 to R407, R414, R444 to R446). -/
namespace Sys2Proof.Machine

/-! ### Launch packets (R385, R387) -/

/-- Global coordinates of a core, and the core at them (R287). -/
def globalRow (k : Nat) : Nat := 32 * (k / 768 / 3) + k % 768 / 24
def globalCol (k : Nat) : Nat := 24 * (k / 768 % 3) + k % 24
def coreAt (r c : Nat) : Nat := 768 * (3 * (r / 32) + c / 24) + 24 * (r % 32) + c % 24
/-- Cores of a launch's rectangle, row-major; none where GANG breaks R385. -/
def gangRect (g : Word) : Option (List Nat) :=
  let o := fld g 0 13
  let rows := fld g 16 7
  let cols := fld g 24 7
  if fld g 13 3 ≠ 0 || fld g 23 1 ≠ 0 || fld g 31 33 ≠ 0 || o ≥ 4608 || rows = 0 || rows > 64 || cols = 0 || cols > 72 ||
      globalRow o + rows > 64 || globalCol o + cols > 72 then none
  else some ((List.range rows).flatMap fun r => (List.range cols).map fun c => coreAt (globalRow o + r) (globalCol o + c))
/-- R15. -/
def partBad (w : Word) : Bool :=
  pwFrames w = 0 || pwFrames w > 8 || pwAccs w > 16 || pwFrames w + pwAccs w + pwScratch w > 256 ||
    fld w 41 23 ≠ 0 || fld w 21 11 ≠ 0 || fld w 4 12 ≠ 0
def signalOk (w : Word) : Bool := w.toNat % 8 = 0
/-- A packet's words are malformed (R387). -/
def packetBad (q : List Word) : Bool :=
  let g (i : Nat) : Word := q.getD i 0#64
  let h := g 0
  if fld h 16 8 = 0 then fld h 1 7 ≠ 0 || fld h 24 40 ≠ 0 || (q.drop 1).any (· ≠ 0#64)
  else
    let size := fld (g 2) 0 17
    let entry := fld (g 2) 32 16
    fld h 16 8 ≠ 1 || fld h 1 7 ≠ 0 || fld h 30 2 ≠ 0 || fld h 38 26 ≠ 0 || g 7 ≠ 0#64 || fld h 25 3 > 5 || fld h 28 2 = 3 ||
      (g 1).toNat % 64 ≠ 0 || size < 4 || size > 65536 || size % 4 ≠ 0 || entry % 4 ≠ 0 || entry ≥ size ||
      (gangRect (g 3)).isNone || partBad (g 4) || !signalOk (g 6)
def mkLaunch (id die q ctx : Nat) (p : List Word) (code : List Host.Cell) : Launch :=
  let g (i : Nat) : Word := p.getD i 0#64
  { id := id, die := die, q := q, ctx := ctx, after := fld (g 0) 24 1 = 1, scope := fld (g 0) 25 3, steal := fld (g 0) 28 2,
    bar := fld (g 0) 32 6, image := g 1, size := fld (g 2) 0 17, entry := fld (g 2) 32 16, gangw := g 3, partw := g 4, arg := g 5,
    signal := g 6, cores := (gangRect (g 3)).getD [], code := code }

/-! ### Parsing a queue (R386, R387) -/

/-- A producer's doorbell. -/
def execDoorbell (die q : Nat) (v : BitVec 32) (s : State) : Out :=
  unitAct (fun s => if die < 6 && q < 64 then s.ringBell die q v.toNat false else s) s
def frontUnit (die q : Nat) : Nat := 3000 + 64 * die + q
/-- The queue may be parsed: enabled, without error, its context neither barred nor frozen, no launch of it waiting, the front end up. -/
def State.mayParse (s : State) (die q : Nat) : Bool :=
  let u := s.uq die q
  die < 6 && q < 64 && !(s.die die).feDown && u.enable && !u.error && (s.slotOf u.ctx).isSome && !s.barred u.ctx && !s.frozen u.ctx &&
    u.promised ≠ u.head && !s.launches.any fun L => L.die = die && L.q = q && !L.released && !L.ended
/-- A malformed packet: one guilt, and −2 to a valid SIGNAL. -/
def State.malformed (s : State) (die q ctx : Nat) (p : List Word) : State :=
  let s := s.guilt ctx 1
  if !signalOk (p.getD 6 0#64) then s
  else
    let L : Launch := { mkLaunch s.launchNo die q ctx p [] with released := false, cores := [] }
    { s with launchNo := s.launchNo + 1, launches := s.launches ++ [L] }.sigOut L (-2)
def execQueuePacketRead (die q : Nat) (s : State) : Out :=
  unitAct (fun s =>
    let u := s.uq die q
    if !s.mayParse die q then s
    else match s.unitAcc die (frontUnit die q) u.ctx (u.ring.toNat + 64 * (u.head % 2 ^ u.log2)) needR with
      | .wait s => s
      | .fail s _ => s.queueErr die q
      | .go s pa w =>
        let p := words64 8 (s.unitBytes (dieRead die pa w) 64)
        if s.poisonedAt (dieRead die pa w) 64 then s.queueErr die q
        else if fld (p.getD 0 0#64) 0 1 = 0 || fld (p.getD 0 0#64) 8 8 ≠ u.head / 2 ^ u.log2 % 256 then s
        else
          let s := s.setUq die q { u with head := (u.head + 1) % 2 ^ 32 }
          if packetBad p then s.malformed die q u.ctx p
          else if fld (p.getD 0 0#64) 16 8 = 0 then s
          else { s with launchNo := s.launchNo + 1, launches := s.launches ++ [mkLaunch s.launchNo die q u.ctx p s.mem] }) s

/-! ### Releasing a launch (R287, R388, R404) -/

/-- The launch a core runs, released and not complete. -/
def State.runs (s : State) (k : Nat) : Option Launch :=
  match (s.core k).gang with
  | some g => s.launches.find? fun L => L.id = g.launch && L.released && !L.ended
  | none => none
inductive Seat where
  | free
  | preempt
  | no
  deriving DecidableEq, Repr
/-- What stands on a core a launch needs. -/
def State.seat (s : State) (L : Launch) (k : Nat) : Seat :=
  if s.heldSave L.ctx k then .no
  else match s.runs k with
    | some R => if R.ctx = L.ctx || nfld (s.die L.die).assist 5 1 = 1 || (s.savePa R.ctx k).isNone then .no else .preempt
    | none => if (s.core k).idleEngines then .free else .no
/-- A barrier number is armed on a die of the rectangle by a gang that runs somewhere. -/
def State.barArmed (s : State) (L : Launch) : Bool :=
  s.launches.any fun R => R.id ≠ L.id && R.released && !R.ended && R.bar = L.bar &&
    (R.cores.any fun k => L.cores.any fun j => dieOf j = dieOf k) &&
    R.cores.any fun k => match (s.core k).gang with | some g => g.launch = R.id | none => false
/-- Outcome of reading an image. -/
inductive ImgRd where
  | got (s : State) (l : List (BitVec 8))
  | wait (s : State)
  | fault (s : State)
/-- The front end reads `n` bytes at `va` of a context, page by page, from its die's replica of an RDUP page (R209). -/
def State.readVa (s : State) (d u ctx : Nat) : Nat → Nat → Nat → ImgRd
  | 0, _, _ => .got s []
  | p + 1, va, n =>
    if n = 0 then .got s []
    else
      let m := min n (4096 - va % 4096)
      match s.unitAcc d u ctx va needR with
      | .wait s => .wait s
      | .fail s _ => .fault s
      | .go s pa w =>
        let q := dieRead d pa w
        if s.poisonedAt q m then .fault s
        else match s.readVa d u ctx p (va + m) (n - m) with
          | .got t l => .got t (s.unitBytes q m ++ l)
          | r => r
/-- Tags as the image sets them (R278). -/
def imageTags (img : List (BitVec 8)) (base : Word) : Tab Tag :=
  ⟨(List.range 64).filterMap fun n =>
    match Config.imageTags img n with
    | some (off, pri) =>
      let p := if n = 63 then 3 else pri % 4
      some (n, ({ kind := .affine, entry := entryAt base off, bpri := p, epri := p, e := true } : Tag))
    | none => if n = 61 || n = 62 then some (n, ({ e := true } : Tag)) else none⟩
/-- One member core takes the launch: granules, registers, tags, and its launch firing (R14, R16, R278, R280, R364). -/
def State.seatCore (s : State) (L : Launch) (img : List (BitVec 8)) (rank k : Nat) : State :=
  let s := (s.dropOwners k L.ctx).takeAll k L.ctx (List.range (pwFrames L.partw + pwAccs L.partw + pwScratch L.partw))
  let c := s.core k
  let n := (s.slotOf L.ctx).getD 0
  let g : Gang := { launch := L.id, rank := rank, cores := L.cores, steal := L.steal, bar := L.bar, code := L.code }
  let s := (framesOf k).foldl (fun s f => s.setFr k f {}) s
  let s := s.setCore k { c.bare with
    ctxid := L.ctx, capw := capBits (s.ctxDw n 8), tvec := s.ctxDw n 0x28 &&& ~~~3#64, partw := L.partw, tags := imageTags img L.image, gang := some g,
    flows := (if c.ctxid = L.ctx then c.flows else {}), flowSeq := (if c.ctxid = L.ctx then c.flowSeq else {}), lastUsed := s.tick }
  s.begin k 0 { src := .launch, pc := L.image + wd L.entry } (srcWord 0 0xFFFF) [L.arg, wd rank, wd L.cores.length, L.gangw]
def State.release (s : State) (L : Launch) (img : List (BitVec 8)) : State :=
  let s := (L.cores.zipIdx).foldl (fun s e => s.seatCore L img e.2 e.1) s
  (s.setBar L.gang { armed := true, members := L.cores }).putLaunch { L with released := true }
/-- A launch's image cannot be read: −4, one guilt, no release. -/
def State.noImage (s : State) (L : Launch) : State := (s.sigOut L (-4)).guilt L.ctx 6
def State.releaseIf (s : State) (L : Launch) : State :=
  let earlier := s.launches.any fun R => R.id < L.id && R.die = L.die && R.q = L.q
  let same := s.launches.any fun R => R.id ≠ L.id && R.released && !R.ended && R.die = L.die && R.q = L.q && R.cores.any L.cores.contains
  if L.released || L.ended || (L.after && earlier) || same || s.barArmed L || s.barred L.ctx || s.frozen L.ctx || (s.slotOf L.ctx).isNone ||
      (s.die L.die).feDown then s
  else if L.cores.any fun k => s.seat L k = .no then s
  else
    let need := L.cores.filter fun k => s.seat L k = .preempt
    let s := need.foldl (fun s k => if s.mayLeave k then s.preempt k else s.updCore k fun c => { c with leave := true }) s
    if L.cores.any fun k => s.seat L k ≠ .free then s
    else match s.readVa L.die (3600 + L.die) L.ctx 17 L.image.toNat L.size with
      | .wait s => s
      | .fault s => s.noImage L
      | .got s img => s.release L img
def execLaunchRelease (n : Nat) (s : State) : Out :=
  unitAct (fun s => match s.launches[n]? with | some L => s.releaseIf L | none => s) s

/-! ### Retiring a context (R362) -/

/-- Nothing of the context is left on a core (R362 steps 3 and 5, R364). -/
def State.wipeCore (s : State) (ctx k : Nat) : State :=
  let s := if s.heldSave ctx k then s.setHeld ctx k false else s
  let s := { s with savedCores := s.savedCores.del (savedKey ctx k), savedFrames := s.savedFrames.del (savedKey ctx k) }
  let s := if (s.core k).ctxid = ctx then s.setCore k (s.core k).bare else s
  s.updCore k fun c => { c with owner := ⟨c.owner.l.filter fun e => e.2.1 ≠ ctx⟩, raws := c.raws.del ctx }
/-- Steps 3 to 6 of R362. -/
def State.retireRest (s : State) (slot : Nat) : State :=
  let ctx := fld (s.ctxDw slot 0) 0 16
  let ks := (s.cores.keys ++ (s.savedCores.keys.filter fun q => q / 8192 = ctx).map (· % 8192)).eraseDups
  let s := ks.foldl (fun s k => s.wipeCore ctx k) s
  let s := s.tlbDrop ctx 0 0
  let s := { s with
    retiring := s.retiring.filter (· ≠ slot)
    camps := s.camps.map fun _ c => { c with qs := c.qs.map fun _ q => if q.ctx = ctx then { q with enable := false } else q }
    dies := s.dies.map fun _ v => { v with
      fl := (if v.fl.ctx = ctx then { v.fl with enable := false } else v.fl)
      lantern := ⟨v.lantern.l.filter fun e => e.2.ctx ≠ ctx⟩
      dir := v.dir.filter fun e => e.ctx ≠ ctx }
    groups := s.groups.map fun _ g => if g.ctx = ctx then { g with state := 0, members := [], joins := [], posted := false } else g }
  let s := ((((s.setCtxFld slot 16 1 0).setCtxFld slot 24 8 0).setCtxFld slot 18 1 0).setCtxFld slot 17 1 0)
  s.post 0 2 0 0x0406 slot
/-- Retirements whose launches are over go on. -/
def State.retireOn (s : State) : State :=
  s.retiring.foldl (fun s n => if s.launches.any fun L => L.ctx = fld (s.ctxDw n 0) 0 16 then s else s.retireRest n) s
/-- CTXCTL bit 9, in the order of R362: the SIGNALs of step 2 are written before step 3. -/
def State.ctxRetire (s : State) (slot : Nat) : State :=
  let w := s.ctxDw slot 0
  let ctx := fld w 0 16
  if fld w 16 1 = 0 || s.retiring.contains slot then s
  else
    let s := { s with dies := s.dies.map fun _ v => { v with queues := v.queues.map fun _ u => if u.ctx = ctx then { u with enable := false } else u } }
    ({ s.endCtxLaunches ctx (-6) with retiring := s.retiring ++ [slot] }).retireOn

/-! ### Resuming, completing, limits (R288, R389, R390, R407) -/

/-- The launch of a context saved on a core has ended: only its engine commands are left (R390 step 4). -/
def State.savedOver (s : State) (k ctx : Nat) : Bool :=
  match (s.savedCores.get (savedKey ctx k) {}).gang with
  | some g => s.launches.any fun L => L.id = g.launch && L.ended
  | none => false
/-- A saved context comes back to a core where nothing runs and its barrier number is free; one whose launch has ended for its engine
commands (DEDUCED, log 143). -/
def State.mayResume (s : State) (k ctx : Nat) : Bool :=
  s.heldSave ctx k && (s.runs k).isNone && (s.core k).idleEngines && (framesOf k).all (fun f => (s.fr k f).stat = .free) &&
    (s.slotOf ctx).isSome && (s.savedOver k ctx || (!s.barred ctx && !s.frozen ctx &&
    (match (s.savedCores.get (savedKey ctx k) {}).gang with
    | some g => (match s.launches.find? fun L => L.id = g.launch with | some L => !s.barArmed L | none => true)
    | none => true)))
def execContextResume (k : Nat) (ctx : BitVec 16) (s : State) : Out :=
  unitAct (fun s => if s.mayResume k ctx.toNat then (s.dropOwners k (s.core k).ctxid).resumeCtx k ctx.toNat else s) s
def Core.quiet (c : Core) : Bool :=
  c.deque.isEmpty && c.outbox.isEmpty && c.awaits.isEmpty && c.autos.isEmpty && c.idleEngines && c.slog.l.isEmpty
/-- The gang has retired on a core, and the core's side log is empty (R288, R389). -/
def State.retired (s : State) (L : Launch) (k : Nat) : Bool :=
  if (s.core k).ctxid = L.ctx then
    (s.core k).quiet && (framesOf k).all (fun f => (s.fr k f).stat = .free) && (List.range 64).all fun n => s.pend k n = 0
  else match s.savedCores.get? (savedKey L.ctx k) with
    | some c => c.quiet && (s.savedFrames.get (savedKey L.ctx k) []).isEmpty && c.inbox.l.isEmpty
    | none => true
def execLaunchComplete (n : Nat) (s : State) : Out :=
  unitAct (fun s => match s.launches[n]? with
    | none => s
    | some L =>
      let due (s : State) : State := if L.owes then s.limitGuilt L else s
      (if L.sigFault then due ((s.dropLaunch L.id).queueErr L.die L.q)
      else if !s.gangDone L then s
      else if L.ended then due (s.sigOut L (L.failed.getD 0))
      else if L.released && L.cores.all fun k => s.retired L k then
        (L.cores.foldl (fun s k => s.memberLost L.ctx k 3) s).sigOut L (L.failed.getD 0)
      else s).retireOn) s
def execLaunchLimitExpiry (n : Nat) (s : State) : Out :=
  unitAct (fun s => match s.launches[n]? with
    | some L => if L.ended then s else (s.launchEnd L (-1)).limitGuilt L
    | none => s) s

/-! ### Scheduling by the host, and stopped frames (R403, R404, R414) -/

/-- SCHEDOUT: the resident context leaves the core, now or at its next boundary. -/
def State.schedOut (s : State) (k : Nat) : State :=
  let c := s.core k
  if k ≥ 4608 || c.ctxid = 0 || (s.savePa c.ctxid k).isNone || (s.runs k).isNone then s.updCore k fun c => { c with leave := false }
  else if s.mayLeave k then s.preempt k
  else s.updCore k fun c => { c with leave := true }
def execSchedout (die core : Nat) (s : State) : Out :=
  unitAct (fun s => if die < 6 && core < 768 then s.schedOut (768 * die + core) else s) s
/-- A stopped frame is freed, and its firing counts as ended. -/
def State.freeStopped (s : State) (k f : Nat) : State := if (s.fr k f).stat = .stopped then s.endNow k f else s
def execFreefFrame (die core f : Nat) (s : State) : Out :=
  unitAct (fun s => if die < 6 && core < 768 && f < 8 then s.freeStopped (768 * die + core) f else s) s
def execFreefBivouac (die core : Nat) (s : State) : Out :=
  unitAct (fun s => if die < 6 && core < 768 then s.freeStopped (768 * die + core) 8 else s) s

/-! ### Clearing a context (R392, R395) -/

def State.thaw (s : State) (ctx : Nat) : State :=
  { s with cores := s.cores.map fun _ c => if c.ctxid = ctx then { c with frozen := false } else c }
/-- CTXCTL bit 8. -/
def State.ctxClear (s : State) (slot : Nat) : State :=
  (((s.setCtxFld slot 24 8 0).setCtxFld slot 18 1 0).setCtxFld slot 17 1 0).thaw (fld (s.ctxDw slot 0) 0 16)
/-! ### Masters (R393 to R395, R445) -/

def isFn (m : Nat) : Bool := m / 2 ^ 16 = 1
def fnOf (m : Nat) : Nat := m % 128
def isDriver (m : Nat) : Bool := isFn m && fnOf m % 64 = 0
def isMgmt (m : Nat) : Bool := m / 2 ^ 16 = 2
/-- The die whose ring gets a master's violation: its link's, or die 0 (R26). -/
def dieOfMaster (m : Nat) : Nat := if isFn m then fnOf m / 64 else 0
/-- A violating master is frozen and the event posted; with MAIN down, which holds the rings' memory in reset, the port is frozen alone
(R393, R394, R438). -/
def State.violation (s : State) (m pa : Nat) : State :=
  if s.main then s.freeze (dieOfMaster m) m pa else if isMgmt m then { s with frozenMgmt := true } else s
def State.isFrozenM (s : State) (m : Nat) : Bool :=
  if isMgmt m then s.frozenMgmt else if isFn m then s.frozenFns.contains (fnOf m) else false
/-- UNFREEZE by a master (R395). -/
def State.unfreezeBy (s : State) (m who : Nat) : State :=
  if m = who then s
  else if isMgmt who then (if isDriver m then { s with frozenMgmt := false } else s)
  else if isFn who then { s with frozenFns := s.frozenFns.filter (· ≠ fnOf who) }
  else if who / 2 ^ 16 = 0 then (s.setCtxFld (who % 256) 17 1 0).thaw (fld (s.ctxDw (who % 256) 0) 0 16)
  else s
/-- A host function's right to the notify page of a queue (R393). -/
def State.fnReaches (s : State) (f ctx : Nat) : Bool :=
  match s.slotOf ctx with
  | some n => ((s.die 0).fnmap.get f 0#256).getLsbD n
  | none => true

/-! ### Walk images, and TLBW by the host (R167, R370, R375, R382) -/

def State.wfGo (s : State) (d : Nat) : State :=
  s.updDie d fun v => if nfld v.assist 1 1 = 1 then { v with wfbusy := true } else { v with wfstat := 2 }
def execWfgo (die : Nat) (s : State) : Out := unitAct (fun s => if die < 6 then s.wfGo die else s) s
def execWalkImageLoadDone (die : Nat) (s : State) : Out :=
  unitAct (fun s =>
    let v := s.die die
    let n := fld v.wfsize 0 17
    let e := fld v.wfsize 32 16
    let hole : Bool := regionOf v.wfbase = .hole || regionOf (v.wfbase + n - 1) = .hole
    if !v.wfbusy then s
    else if n < 4 || n > 65536 || n % 4 ≠ 0 || e % 4 ≠ 0 || e ≥ n || hole || s.poisonedAt v.wfbase n then
      s.updDie die fun v => { v with wfbusy := false, wfstat := 3 }
    else
      let img := s.rdBytes v.wfbase n
      s.updDie die fun v => { v with wfbusy := false, wfstat := 1, walkImg := some img, walkEntry := e,
                                     attest := extendLog v.attest (sha3 img) }) s
/-- TWGO: a missing word refuses it, and leaves TWSTAT open (R167). -/
def State.twGo (s : State) (d : Nat) : State :=
  let v := s.die d
  let clear (s : State) (st : Nat) : State := s.updDie d fun v => { v with tw := {}, twstat := st }
  match v.tw.get? 0, v.tw.get? 1, v.tw.get? 2, v.tw.get? 3 with
  | some va, some e, some c, some t =>
    let r := s.tlbw d e va (wd (fld c 0 16)) t
    clear r.1 r.2
  | _, _, _, _ => (clear s (fld (Config.freeWord s.tick) 0 8)).ticked
def execTwgo (die : Nat) (s : State) : Out := unitAct (fun s => if die < 6 then s.twGo die else s) s

/-! ### Descriptors (R336, R383) -/

def State.uqWrite (s : State) (d q off : Nat) (v : Word) : State :=
  let u := s.uq d q
  let body : UQueue := { u with ctx := fld v 32 16, log2 := fld v 0 5 }
  if u.enable then (if off = 8 && fld v 63 1 = 0 then s.setUq d q { body with enable := false } else s)
  else match off with
    | 0 => s.setUq d q { u with ring := v }
    | 8 =>
      let bad : Bool := body.log2 < 2 || body.log2 > 16 || u.limit = 0 || (s.slotOf body.ctx).isNone || u.ring.toNat % 64 ≠ 0
      s.setUq d q (if fld v 63 1 = 1 && !bad then { body with enable := true, head := 0, promised := 0, error := false } else body)
    | 0x10 => s.setUq d q { u with limit := fld v 0 48 }
    | _ => s
def execUserQueueDescWrite (die q : Nat) (off : BitVec 6) (v : BitVec 64) (s : State) : Out :=
  unitAct (fun s => if die < 6 && q < 64 then s.uqWrite die q off.toNat v else s) s
def State.flWrite (s : State) (d off : Nat) (v : Word) : State :=
  let l := (s.die d).fl
  let set (l : FreeList) : State := s.updDie d fun x => { x with fl := l }
  if l.enable then (if off = 8 && fld v 63 1 = 0 then set { l with enable := false, ctx := fld v 32 16, cap := fld v 0 32 } else s)
  else match off with
    | 0 => set { l with stack := v }
    | 8 => set { l with enable := fld v 63 1 = 1, ctx := fld v 32 16, cap := fld v 0 32 }
    | 0x10 => set { l with vbase := v }
    | 0x18 => set { l with top := fld v 0 32 }
    | 0x20 => set { l with stride := fld v 0 20 }
    | _ => s
def execFreeListRegWrite (die : Nat) (off : BitVec 12) (v : BitVec 64) (s : State) : Out :=
  unitAct (fun s => if die < 6 then s.flWrite die off.toNat v else s) s

/-! ### Register pages (R4, R166, R382, R414, R444, R445) -/

def State.frontWrite (s : State) (m d off : Nat) (v : Word) : State :=
  if 0x400 ≤ off && off < 0x1400 then s.uqWrite d ((off - 0x400) / 64) (off % 64) v
  else if 0x2000 ≤ off && off < 0x3000 then
    (if d ≠ 0 then s
    else
      let f := (off - 0x2000) / 32
      let j := 64 * (off % 32 / 8)
      let old := ((s.die 0).fnmap.get f 0#256).toNat
      s.updDie 0 fun x => { x with fnmap := x.fnmap.put f (BitVec.ofNat 256 (old - ((old >>> j) % 2 ^ 64) <<< j + v.toNat <<< j)) })
  else match off with
    | 0 => s.updDie d fun x => { x with assist := fld v 0 6 }
    | 8 => if d = 0 then s.updDie 0 fun x => { x with ctxbase := v.toNat } else s
    | 0x10 => s.updDie d fun x => { x with evbase := v.toNat }
    | 0x18 => s.updDie d fun x => { x with evlog2 := max 4 (min 20 (fld v 0 5)) }
    | 0x28 => s.unfreezeBy m (fld v 0 18)
    | 0x30 =>
      let s := if fld v 8 1 = 1 then s.ctxClear (fld v 0 8) else s
      if fld v 9 1 = 1 && !isMgmt m then s.ctxRetire (fld v 0 8) else s
    | 0x40 => s.updDie d fun x => { x with wfbase := v.toNat }
    | 0x48 => s.updDie d fun x => { x with wfsize := wd (fld v 32 16 * 2 ^ 32 + fld v 0 17) }
    | 0x50 => s.wfGo d
    | 0x100 => s.updDie d fun x => { x with tw := x.tw.put 0 v }
    | 0x108 => s.updDie d fun x => { x with tw := x.tw.put 1 v }
    | 0x110 => s.updDie d fun x => { x with tw := x.tw.put 2 v }
    | 0x118 => s.updDie d fun x => { x with tw := x.tw.put 3 v }
    | 0x120 => s.twGo d
    | _ => s
def State.recovWrite (s : State) (d off : Nat) (v : Word) : State :=
  match off with
  | 0 => if fld v 16 1 = 1 && fld v 0 10 < 768 then s.schedOut (768 * d + fld v 0 10) else s
  | 8 =>
    if fld v 0 10 ≥ 768 then s
    else s.freeStopped (768 * d + fld v 0 10) (if fld v 19 1 = 1 then 8 else fld v 16 3)
  | 0x10 => s.updDie d fun x => { x with rlimit := fld v 0 48 }
  | 0x20 => s.retrain d (v.truncate 3)
  | 0x300 =>
    if d ≠ 0 then s
    else if fld v 8 1 = 1 then s.answerCommit (fld v 0 6) else s.answerRefuse (fld v 0 6)
  | _ => s
/-- PWRLIM as it is stored, 400 to 3,200 W (R444). The clamp sees the whole 64-bit value (DESIGN CHOICE, log 140). -/
def clampPower (v : Word) : Nat := max 400 (min 3200 v.toNat)
/-- A reset: what survives is given (R442, R444; log 2). TRIP survives (R440), and the temperature registers show what the junctions are
(R438). -/
def State.cold (s : State) (mem : List Host.Cell) (poison : List (Nat × Nat)) : State :=
  { State.reset with
    pkg := s.pkg, mem := mem, poison := poison, stby := s.stby, flash := s.flash, agenda := s.agenda, tick := s.tick,
    mgmt := { ({} : Mgmt) with trip := s.mgmt.trip, temps := s.mgmt.temps, temp := s.mgmt.temp, hotdie := s.mgmt.hotdie, throt := s.mgmt.throt } }
/-- The digests of the flash image, two of 256 bits. -/
def digest256 (l : List (BitVec 64)) : BitVec 256 := BitVec.ofNat 256 ((l.take 4).foldr (fun w a => w.toNat + a * 2 ^ 64) 0)
/-- Boot from step 2 of R434: every die extends its log by both digests, the front ends load, links and ports train. -/
def State.boot (s : State) (digests : List (BitVec 64)) (svn : Nat) (ok : Bool) : State :=
  let s := { s with main := true }
  if !ok then { s with mgmt := { s.mgmt with bootfail := true, ready := false } }
  else
    let s := (List.range 6).foldl (fun s d => s.updDie d fun v => { v with
      booted := true, attest := extendLog (extendLog v.attest (digest256 digests)) (digest256 (digests.drop 4)) }) s
    let s := (List.range 18).foldl (fun s p => s.setPort p { s.port p with training := true }) s
    { s with linkUp := [0, 1], mgmt := { s.mgmt with bootfail := false, ready := true, svn := svn } }
/-- An address of a core's pool in this package. -/
def State.inPool (s : State) (a : Nat) : Bool :=
  s.isOwn a && (match regionOf a with | .sram _ _ => true | _ => false)
/-- A warm reset (R442): the pools are discarded, main memory and its poison stay; the boot checks the image the flash holds. -/
def State.warm (s : State) : State :=
  (s.cold (s.mem.filter fun c => !s.inPool c.1) (s.poison.filter fun u => !s.inPool u.1)).boot s.flash s.mgmt.svn (!s.mgmt.bootfail)
/-- A write of the package management page (R444, R445). A write of 1 to TRIP clears TRIPD too, for which the spec states no clearing of its
own (DESIGN CHOICE, log 139). -/
def State.mgmtWrite (s : State) (m off : Nat) (v : Word) : State :=
  match off with
  | 0 => { s with mgmt := { s.mgmt with pwrlim := clampPower v } }
  | 0x20 => if isMgmt m && fld v 8 1 = 1 then { s with mgmt := { s.mgmt with trip := false, tripd := 0 } } else s
  | 0x28 => if fld v 0 1 = 1 then s.warm else s
  | _ => s
/-- A write by a master to a register page, at offset `o` from the first, is a violation (R393, R445): by the management port outside its set,
by a host function but 0 to a front-end page or to PWRLIM or RESET, by a context to a queue, free-list, front-end or recovery page; and by a
host function to the notify page of a queue whose context it does not reach. -/
def State.masterBarred (s : State) (m o : Nat) : Bool :=
  let d := o / 0x40000000
  let r := o % 0x40000000
  let p := r / 0x1000000
  let q := r % 0x1000000
  if isMgmt m then !(d = 0 && ((p = 7 && (q = 0 || q = 0x20 || q = 0x28)) || (p = 4 && (q = 0x28 || q = 0x30))))
  else if isFn m then
    (!isDriver m && (p = 4 || (p = 7 && d = 0 && (q = 0 || q = 0x28)))) ||
      (p = 5 && q / 0x1000 < 64 && !s.fnReaches (fnOf m) (s.uq d (q / 0x1000)).ctx)
  else p = 2 || p = 3 || p = 4 || p = 6
/-- An 8-byte store by a master to a register page of this package, at an offset from the first page. A context's store to the package
management page has no effect (R445). -/
def State.pageWrite (s : State) (m o : Nat) (v : Word) : State :=
  let d := o / 0x40000000
  let r := o % 0x40000000
  let n := r % 0x1000000 / 0x1000
  let off := r % 0x1000
  if s.isFrozenM m then s
  else if s.masterBarred m o then s.violation m (s.here (0xF000000000 + o))
  else match r / 0x1000000 with
    | 1 => if n < 768 then s.engineIn (768 * d + n) off v else s
    | 2 => if n < 48 && off < 1024 then s.queueWrite (768 * d + 16 * n + off / 64) (off % 64) v else s
    | 3 => if n = 0 then s.flWrite d off v else s
    | 4 => if n < 4 then s.frontWrite m d (r % 0x1000000) v else s
    | 5 => if n < 64 && off = 0 then s.ringBell d n (fld v 0 32) (isDriver m) else s
    | 6 => if n = 0 then s.recovWrite d off v else s
    | 7 => if d = 0 && n = 0 && (isMgmt m || isFn m) then s.mgmtWrite m off v else s
    | _ => s
/-- A write of the management port, which works on STBY: with MAIN down only the package management page takes it (R438, R445). -/
def State.portWrite (s : State) (o : Nat) (v : Word) : State :=
  if !s.stby then s
  else if s.main || s.masterBarred mMgmt o || (o % 0x40000000 / 0x1000000 = 7 && o % 0x1000 ≠ 0x28) then s.pageWrite mMgmt o v else s
def execRegisterWrite (master : BitVec 18) (pa : Nat) (v : BitVec 64) (s : State) : Out :=
  .next (match regionOf pa with
    | .regs o => if !s.isOwn pa then s
      else if isMgmt master.toNat then s.portWrite o v
      else if s.main then s.pageWrite master.toNat o v else s
    | _ => s)
def execCtxctlClear (master : BitVec 18) (slot : BitVec 8) (s : State) : Out :=
  unitAct (fun s => s.pageWrite master.toNat 0x4000030 (wd (slot.toNat + 2 ^ 8))) s
def execCtxctlRetire (master : BitVec 18) (slot : BitVec 8) (s : State) : Out :=
  unitAct (fun s => s.pageWrite master.toNat 0x4000030 (wd (slot.toNat + 2 ^ 9))) s
def execUnfreeze (master : BitVec 18) (who : BitVec 18) (s : State) : Out :=
  unitAct (fun s => s.pageWrite master.toNat 0x4000028 (wd who.toNat)) s
/-- A read of a register page that host function `f` may not make (R393): page 4 but from function 0 of its link, a notify page of
a queue of a context it does not reach. -/
def State.fnReadBad (s : State) (f o : Nat) : Bool :=
  let p := o % 0x40000000 / 0x1000000
  let q := o % 0x1000000 / 0x1000
  (p = 4 && f % 64 ≠ 0) || (p = 5 && q < 64 && !s.fnReaches f (s.uq (o / 0x40000000) q).ctx)
/-- A read is answered to a master outside the part. -/
def State.answer (s : State) (m a v : Nat) : State := { s with answered := some (m, a, v) }
/-- A host function's access at a package-local address (R17, R365, R393, R394, R447), or, from 2^56 on, an access of the host to its own memory
(log 148). A violating read, and every read of a frozen function, gives all ones. -/
def execHostLinkAccess (fn : Nat) (wr : Bool) (pa size : Nat) (v : BitVec 64) (s : State) : Out :=
  unitAct (fun s =>
    let f := fn % 128
    let m := mFn f
    let a := s.here (pa % 2 ^ 40)
    let n := min size 8
    let mem (a : Nat) : State := if wr then s.store a (bytesOf n v.toNat) else s.answer m a (s.unitRd a n)
    let ones (s : State) : State := if wr then s else s.answer m a (2 ^ (8 * n) - 1)
    if pa ≥ 2 ^ 56 then (if wr then s.store pa (bytesOf n v.toNat) else s.answer m pa (s.unitRd pa n))
    else if !s.linkUp.contains (f / 64) then s
    else if s.frozenFns.contains f then ones s
    else if holeIn a n then ones (s.violation m a)
    else match regionOf a with
      | .main _ => mem a
      | .sram _ _ => if f % 64 ≠ 0 then ones (s.violation m a) else mem a
      | .regs o =>
        if wr then (if size = 8 && pa % 8 = 0 then s.pageWrite m o v else if s.masterBarred m o then s.violation m a else s)
        else if s.fnReadBad f o then ones (s.violation m a)
        else s.answer m a (if size = 8 && pa % 8 = 0 then (s.regRead o).toNat else 0)
      | _ => ones (s.violation m a)) s

end Sys2Proof.Machine
end

