-- ==== Sys2Proof/Machine/Package.lean ====
section
/-! DEFINITION. Soft errors, front-end reload, power, reset, thermal events and management (R370, R396, R411 to R413, R434 to R446). -/
namespace Sys2Proof.Machine

/-! ### Soft errors (R411 to R413, R255, R256) -/

/-- Structures by their place in the table of R411, then the side log (log 16). -/
def unitPool : Nat := 0
def unitCache : Nat := 1
def unitStack : Nat := 2
def unitTlb : Nat := 4
def unitQueue : Nat := 5
def unitSlog : Nat := 6
def errBody (unit : BitVec 8) (addr : BitVec 56) : Nat := unit.toNat + addr.toNat * 2 ^ 8
def execCorrectedError (die : Nat) (unit : BitVec 8) (addr : BitVec 56) (s : State) : Out :=
  unitAct (fun s => if die ≥ 6 then s
    else (s.post die 3 0 0x0602 (errBody unit addr)).updDie die fun v => { v with secnt := min (2 ^ 32 - 1) (v.secnt + 1) }) s
/-- The scrubber reads and corrects, and changes no value. -/
def execPatrolScrub (die : Nat) (addr : BitVec 56) (s : State) : Out := unitAct (fun s => let _ := (die, addr); s) s
/-- The unit that holds the byte at `a` becomes poisoned. -/
def State.poisonUnit (s : State) (a n : Nat) : State :=
  let u := (a / n * n, n)
  if s.poison.contains u then s else { s with poison := s.poison ++ [u] }
/-- Whether a buffer of `len` bytes at `b` has a byte among the `n` from `pa`. A page is found through the translation the die holds, else
where CDEF found it (R239; DESIGN CHOICE, log 136). -/
def State.bufHas (s : State) (d : Nat) (e : SheetE) (b len pa n : Nat) : Bool :=
  (List.range (len / 4096 + 2)).any fun i =>
    let lo := max b ((b / 4096 + i) * 4096)
    let hi := min (b + len) ((b / 4096 + i + 1) * 4096)
    lo < hi && (match s.unitXl d e.ctx lo needNone, e.pages.find? (·.1 = lo / 4096) with
      | .hit p _, _ => spans p (hi - lo) pa n
      | _, some q => spans (4096 * q.2 + lo % 4096) (hi - lo) pa n
      | _, none => false)
/-- A line of cell `c`'s front buffer is damaged: a formula cell's generation is to be opened, an input cell is poisoned and the cells
that read it end in error (R248, R255, R256). In setup nothing is opened (R240). -/
def State.cellPoison (s : State) (d : Nat) (e : SheetE) (a c : Nat) : State :=
  let t := e.pa
  let s := s.faultRec t (s.fgen t c) c 7 (wd (a / 64 * 64)) []
  if s.kind t c = 2 then
    (if s.setup t then s else s.updSheet d t fun x => { x with poisonWait := if x.poisonWait.contains c then x.poisonWait else x.poisonWait ++ [c] })
  else
    let s := s.poisonFront d t c
    (if s.cellState t c = 0 then s.setDsc t c 0x28 12 3 4 else s).settle d t sheetFuel
/-- An error in a line is compared with the front buffers of every sheet. -/
def State.cellError (s : State) (a n : Nat) : State :=
  (List.range 6).foldl (fun s d => (s.die d).dir.foldl (fun s e =>
    (List.range (s.ncells e.pa)).foldl (fun s c =>
      if s.kind e.pa c ≠ 0 && s.bufHas d e (s.frontBuf e.pa c).toNat (s.bufBytes e.pa c) (a / n * n) n then s.cellPoison d e a c else s) s) s) s
/-- A pre-empted firing stops with MCHECK (R402, R413): its frame, saved, keeps the cause. -/
def State.stopSaved (s : State) (ctx k f : Nat) (r : Frame) (t : Trap) : State :=
  let key := savedKey ctx k
  let r2 := { r with stat := .stopped, hold := .no, epc := r.pc, cause := wd t.cause, tval := t.t1, tval2 := t.t2, tval3 := t.t3 }
  let s := { s with savedFrames := s.savedFrames.put key ((s.savedFrames.get key []).map fun (e : Nat × Frame) => if e.1 = f then (f, r2) else e) }
  let s := s.post (dieOf k) 3 0 0x0601 (k + (if f = 8 then 0 else f) * 2 ^ 13 + ((s.slotOf ctx).getD 0) * 2 ^ 16 + t.cause * 2 ^ 24 + (if f = 8 then 2 ^ 40 else 0))
  if nfld (s.die (dieOf k)).assist 3 1 = 1 then s.updDie (dieOf k) fun v => { v with triage := v.triage ++ [(key, f)] }
  else s.actOnSaved ctx k f
/-- An error in a pool granule: a frame's firing stops with MCHECK, a tile or bytes are poisoned. -/
def State.poolError (s : State) (unit : Nat) (k off a : Nat) : State :=
  let c := s.core k
  let (ctx, g) := (c.owner.get? (off / 4096)).getD (c.ctxid, off / 4096)
  let t : Trap := ⟨0x83, wd unit, Config.freeWord s.tick, 0#64⟩
  if ctx = c.ctxid then
    if g < pwFrames c.partw then
      let s := s.ticked
      (match (s.fr k g).stat with
      | .free => s
      | .stopped => s
      | _ => s.stopFiring k g t)
    else if g < pwFrames c.partw + pwAccs c.partw then
      s.updCore k fun c => { c with accPoison := if c.accPoison.contains (g - pwFrames c.partw) then c.accPoison else c.accPoison ++ [g - pwFrames c.partw] }
    else s.poisonUnit a 8
  else match s.savedCores.get? (savedKey ctx k) with
    | none => s.poisonUnit a 8
    | some v =>
      if g < pwFrames v.partw then
        match (s.savedFrames.get (savedKey ctx k) []).find? fun e => e.1 = g && e.2.stat ≠ .stopped with
        | none => s
        | some (_, r) => s.ticked.stopSaved ctx k g r t
      else if g < pwFrames v.partw + pwAccs v.partw then
        { s with savedCores := s.savedCores.put (savedKey ctx k) { v with accPoison := v.accPoison ++ [g - pwFrames v.partw] } }
      else s.poisonUnit a 8
/-- The bytes an uncorrected error poisons: 8 in a memory-side cache, 32 in a stack (R411). -/
def softGranule (unit : Nat) : Nat := if unit = unitCache then 8 else 32
/-- What an uncorrectable error does, by structure; a side-log entry fails as a walk without an answer. An error in a TLB drops the address's
entries in every TLB of the die (DEDUCED, log 111). -/
def State.damage (s : State) (die unit addr : Nat) : State :=
  let a := s.here (addr % 2 ^ 40)
  let drop (l : List TlbEnt) : List TlbEnt := l.filter fun e => !(e.va ≤ addr && addr < e.va + 2 ^ pageBits e.w)
  if unit = unitPool then (match regionOf a with
    | .sram k off => s.poolError unit k off a
    | _ => s)
  else if unit = unitCache || unit = unitStack then (match regionOf a with
    | .main _ => (s.poisonUnit a (softGranule unit)).cellError a (softGranule unit)
    | _ => s)
  else if unit = unitTlb then
    { (s.updDie die fun v => { v with tlb := drop v.tlb }) with
      cores := s.cores.map fun k c => if dieOf k = die then { c with tlb := drop c.tlb } else c
      camps := s.camps.map fun n c => if n / 48 = die then { c with tlb := drop c.tlb } else c }
  else if unit = unitQueue then (if addr < 4608 then s.breakQ addr else s)
  else if unit = unitSlog then s.slogFail (addr / 1024 % 4608) (addr % 1024) (slogFault (addr % 1024) 0)
  else s
def execUncorrectableError (die : Nat) (unit : BitVec 8) (addr : BitVec 56) (s : State) : Out :=
  unitAct (fun s => if die ≥ 6 then s
    else
      let s := (s.post die 3 0 0x0603 (errBody unit addr)).updDie die fun v => { v with uecnt := min (2 ^ 32 - 1) (v.uecnt + 1) }
      s.damage die unit.toNat addr.toNat) s

/-! ### The front end's reload, and triage by the host (R396, R436) -/

/-- The bitstream is loaded again: parsing goes on, and launches not released are ended with −1, without guilt. -/
def State.reloadFront (s : State) (d : Nat) : State :=
  let s := s.updDie d fun v => { v with feDown := false }
  (s.launches.filter fun L => L.die = d && !L.released && !L.ended).foldl (fun s L => s.launchEnd L (-1)) s
def execFrontEndError (die : Nat) (s : State) : Out :=
  unitAct (fun s => if die ≥ 6 then s
    else if nfld (s.die die).assist 3 1 = 1 then s.updDie die fun v => { v with feDown := true }
    else s.reloadFront die) s
/-- The host's word: stops that were posted are acted on, and a waiting reload goes on. -/
def execErrorTriageWord (die : Nat) (s : State) : Out :=
  unitAct (fun s =>
    let l := (s.die die).triage
    let s := s.updDie die fun v => { v with triage := [] }
    let s := l.foldl (fun s e => s.actOn e.1 e.2) s
    if (s.die die).feDown then s.reloadFront die else s) s

/-! ### Power, boot and reset (R434, R435, R438, R442, R443) -/

/-- An act of the board or the management side, which MAIN does not gate. -/
def boardAct (g : State → State) (s : State) : Out := .next (g s)
def execStbyPowerUp (s : State) : Out := boardAct (fun s => { s with stby := true }) s
/-- With STBY lost nothing keeps a value but the flash. -/
def execStbyPowerDown (s : State) : Out :=
  boardAct (fun s => { State.reset with pkg := s.pkg, flash := s.flash, agenda := s.agenda, tick := s.tick }) s
/-- MAIN rises: a cold reset, then the boot, which writes the image's digests as the flash holds them; `ok` is the outcome of step 4's checks
(log 105). While the power-off request stands MAIN has not been removed (R440). -/
def execMainPowerUp (digests : List (BitVec 64)) (svn : BitVec 16) (ok : Bool) (s : State) : Out :=
  boardAct (fun s => if !s.stby || s.main || s.mgmt.offReq then s else { s.cold [] [] with flash := digests }.boot digests svn.toNat ok) s
/-- MAIN falls: every unit is held in reset but those of R438, whose PWRLIM and TRIPD stay till MAIN rises (DESIGN CHOICE, log 155). -/
def execMainPowerDown (s : State) : Out :=
  boardAct (fun s =>
    let t := s.cold [] []
    { t with mgmt := { t.mgmt with pwrlim := s.mgmt.pwrlim, tripd := s.mgmt.tripd } }) s
/-- A new image is accepted only in the boot ROM, after a check failed (R435). -/
def execFirmwareUpdate (digests : List (BitVec 64)) (svn : BitVec 16) (ok : Bool) (s : State) : Out :=
  boardAct (fun s => if s.main && s.mgmt.bootfail && ok then { s with flash := digests }.boot digests svn.toNat true else s) s
/-- PERST# of link 0 requests a warm reset, whether or not the last boot passed its checks (R442). -/
def execPerstLink0 (s : State) : Out := boardAct (fun s => if s.main then s.warm else s) s
/-- Link 1 is reset, and trains again once the part is READY. -/
def execPerstLink1 (s : State) : Out :=
  boardAct (fun s => if s.main then { s with linkUp := s.linkUp.filter (· ≠ 1) ++ (if s.mgmt.ready then [1] else []) } else s) s
def execReset (v : BitVec 64) (s : State) : Out := boardAct (fun s => if s.main && !s.frozenMgmt then s.mgmtWrite mMgmt 0x28 v else s) s
def execPwrlim (v : BitVec 64) (s : State) : Out := boardAct (fun s => if s.stby && !s.frozenMgmt then s.mgmtWrite mMgmt 0 v else s) s
def execTrip (v : BitVec 64) (s : State) : Out := boardAct (fun s => if s.stby && !s.frozenMgmt then s.mgmtWrite mMgmt 0x20 v else s) s

/-! ### Power and thermal events (R439, R440, R444) -/

/-- A 1 ms window ends: its average, which throttling has held to the limit in force, and PWRLIM is in force in the next (R439, R446). Which
dies are throttled to hold it is open (DESIGN CHOICE, log 155); an average above the limit names no window. -/
def execPowerWindow (avg : BitVec 12) (s : State) : Out :=
  boardAct (fun s => if !s.main || avg.toNat > s.mgmt.limit then s
    else { s with mgmt := { s.mgmt with pwrnow := avg.toNat, limit := s.mgmt.pwrlim, pthrot := (Config.freeWord s.tick).toNat % 64 }, tick := s.tick + 1 }) s
def setBitN (w n : Nat) : Nat := w ||| 2 ^ n
def clearBitN (w n : Nat) : Nat := if w.testBit n then w - 2 ^ n else w
/-- A die reports its junction; HOTDIE and TEMP show the hottest, and THROT shows the die at 105 °C or above (R440). -/
def Mgmt.report (m : Mgmt) (die temp : Nat) : Mgmt :=
  let t := m.temps.put die temp
  let h := (List.range 6).foldl (fun a d => if t.get d 0 > t.get a 0 then d else a) 0
  { m with temps := t, hotdie := h, temp := t.get h 0, throt := if temp ≥ 105 then setBitN m.throt die else clearBitN m.throt die }
/-- At 115 °C the die trips: TRIP is set, the power-off request asserted while MAIN is up, and every unit stops (R440). -/
def Mgmt.tripAt (m : Mgmt) (die : Nat) (main : Bool) : Mgmt := { m with trip := true, tripd := setBitN m.tripd die, offReq := main || m.offReq }
/-- A junction is at a temperature: the die reports it, is throttled or not, and trips at 115 °C. The sensors are on STBY (R438). -/
def State.junction (s : State) (die temp : Nat) : State :=
  if die ≥ 6 || !s.stby then s
  else
    let m := s.mgmt.report die temp
    if temp ≥ 115 then { s with main := false, mgmt := m.tripAt die s.main } else { s with mgmt := m }
/-- A junction reaches 105 °C. -/
def execThermalThrottle (die : Nat) (temp : BitVec 8) (s : State) : Out := boardAct (fun s => s.junction die temp.toNat) s
/-- It falls below 105 °C. -/
def execThermalThrottleEnd (die : Nat) (temp : BitVec 8) (s : State) : Out := boardAct (fun s => s.junction die temp.toNat) s
/-- It reaches 115 °C. -/
def execThermalTrip (die : Nat) (temp : BitVec 8) (s : State) : Out := boardAct (fun s => s.junction die temp.toNat) s
/-- The management port reads a register by its offset (R444); a frozen port's message is discarded (R394). -/
def execMgmtRead (off : BitVec 12) (s : State) : Out :=
  boardAct (fun s => if s.stby && !s.frozenMgmt then s.answer mMgmt off.toNat (s.mgmt.rd off.toNat).toNat else s) s
/-- An SPDM measurement reads a die's attestation log (R434). -/
def execSpdmMeasurement (die : Nat) (s : State) : Out :=
  boardAct (fun s => if s.stby && !s.frozenMgmt && die < 6 then s.answer mMgmt die (s.die die).attest.toNat else s) s

end Sys2Proof.Machine
end

