-- ==== Sys2Proof/Machine/Auto.lean ====
section
/-! DEFINITION. The order in which units act when the agenda is empty (log 3): in turn, the next act of the list that changes the state. Acts of
the outside, and limits, come only from the agenda. -/
namespace Sys2Proof.Machine

/-- Firings that wait at their place, on any core. -/
def State.waiters (s : State) : List (Nat × Nat) :=
  (s.frames.l.filter fun e => e.2.stat ≠ .free && (e.2.stat = .parked || e.2.waits ≠ [] || e.2.hold = .wait || e.2.hold = .stall || e.2.hold = .slog)).map fun e =>
    (e.1 / 32, e.1 % 32)
/-- Every waiting firing looks again, but for those that `still` says would only wait on. -/
def State.recheckAll (still : State → Nat → Nat → Bool) (s : State) : State :=
  s.waiters.foldl (fun s e => if still s e.1 e.2 then s.recheckWaits e.1 e.2 else s.recheck e.1 e.2) s
/-- Acts of one core. -/
def coreActs (s : State) (k : Nat) : List (State → Out) :=
  let c := s.core k
  ((framesOf k).filter fun f => (s.fr k f).unret ≠ 0).map (execVarResultReturn k ·) ++
    (if c.issuing.isNone then [execSelectorDecision k] else []) ++
    [execMatrixCmdComplete k, execMatrixCmdStart k] ++ (List.range c.cp.running.length).map (execCopyCmdComplete k ·) ++
    [execHeldGoAccept k false, execHeldGoAccept k true, execAutoReplySend k] ++
    (List.range c.outbox.length).flatMap (fun n => [execRequestArrival k n, execMxremArrival k n, execRequestRetry k n]) ++
    (framesOf k).flatMap (fun f => if (s.fr k f).saved = [] then [] else
      [execSpawnArrival k f, execSpawnAnswer k f, execKrehomeTarget k f, execKrehomeAnswer k f]) ++
    (if c.leave then [execSchedout (k / 768) (k % 768)] else [])
/-- Acts of one die's units. -/
def dieActs (s : State) (d : Nat) : List (State → Out) :=
  let v := s.die d
  (List.range s.walks.length).map (execWalkRequest d ·) ++
    (v.dir.zipIdx).flatMap (fun e => (match s.dispatchCell e.1.pa with | some n => [execCellDispatch d e.2 n] | none => []) ++
      e.1.poisonWait.map (execPoisonOpening d e.2 ·)) ++
    (List.range v.dispatch.length).flatMap (fun n => [execRequestArrival (4896 + d) n, execRequestRetry (4896 + d) n]) ++
    (v.queues.keys.filter fun q => (s.uq d q).enable).map (execQueuePacketRead d ·) ++
    (if v.wfbusy then [execWalkImageLoadDone d] else [])
/-- Acts of the package. -/
def packageActs (s : State) : List (State → Out) :=
  (List.range s.replies.length).map (execReplyArrival ·) ++
    (List.range s.rdup.length).flatMap (fun n => (List.range 6).flatMap fun d => [execRdupPropagate n d, execRdupInvalidateAck n d]) ++
    (if s.pathUp then s.peers.keys.flatMap fun t => (s.peer t).pending.map fun q => execProgramTrafficAck t (BitVec.ofNat 32 q.num) false else []) ++
    (s.camps.keys.flatMap fun c => ((s.camp c).qs.keys).map fun q => execQueueRefill (16 * c + q)) ++
    (List.range s.launches.length).flatMap (fun n => [execLaunchComplete n, execLaunchRelease n]) ++
    s.savedCores.keys.map fun q => execContextResume (q % 8192) (BitVec.ofNat 16 (q / 8192))
/-- The first act that changes the state; the next search begins after it, so that no unit waits for ever. -/
def firstChange (s : State) : List ((State → Out) × Nat) → Option Out
  | [] => none
  | (g, n) :: r => match g s with
    | .next t => if t = s then firstChange s r else some (.next { t with unitNo := n + 1 })
    | o => some o
def autoAct (still : State → Nat → Nat → Bool) (s : State) : Option (Host.Outcome State Fault Refusal) :=
  let l := (s.cores.keys.flatMap (coreActs s) ++ (List.range 6).flatMap (dieActs s) ++ packageActs s ++ [unitAct (·.recheckAll still)]).zipIdx
  let n := s.unitNo % l.length
  firstChange s (l.drop n ++ l.take n)

end Sys2Proof.Machine
end

