-- ==== Sys2Proof/Machine/Scalar.lean ====
section
/-! DEFINITION. Integer, bit, branch, call, control-register and trap instructions (majors 0x00 to 0x18 but for those that touch
memory; R106 to R121, R125). -/
namespace Sys2Proof.Machine

/-! ### Shapes -/

/-- X[d] ← g of X[a] and X[b], Fixed (R31, R108). -/
def aluR (i : Instr) (m : Bool) (d a b : BitVec 6) (g : Word → Word → Word) (s : State) : Out :=
  issue m 4 i [rX a, rX b, rX d] (fun s => .ok (s.wfix d (g (s.x a) (s.x b)))) s
/-- X[d] ← g of X[a], Fixed; the word is `len` bytes long. -/
def aluU (i : Instr) (m : Bool) (len : Nat) (d a : BitVec 6) (g : Word → Word) (s : State) : Out :=
  issue m len i [rX a, rX d] (fun s => .ok (s.wfix d (g (s.x a)))) s
/-- Branch by 4 × off words when X[a] passes the test (R115). -/
def branch (i : Instr) (m : Bool) (a : BitVec 6) (off : BitVec 13) (t : Word → Bool) (s : State) : Out :=
  issue m 4 i [rX a] (fun s => if t (s.x a) then .to s (target s.cur.pc off) else .ok s) s
/-- Branch on all 64 bits of a predicate (R116). -/
def branchP (i : Instr) (m : Bool) (p : BitVec 3) (off : BitVec 13) (t : Word → Bool) (s : State) : Out :=
  issue m 4 i [rP p] (fun s => if t (s.cur.rp p.toNat) then .to s (target s.cur.pc off) else .ok s) s
/-- Jump to an address in a register; a target off a word boundary traps at the jump, the link unwritten (R29, R118). -/
def jumpTo (i : Instr) (m : Bool) (regs : List Nat) (t : State → Word) (link : Bool) (s : State) : Out :=
  issue m 4 i regs (fun s =>
    if fld (t s) 0 2 ≠ 0 then .trap s ⟨3, t s, w0 i, 0#64⟩
    else .to (if link then s.wfix 1#6 (s.cur.pc + 4#64) else s) (t s)) s
/-- A control-register access: class 11 raises PRIV (R37); the value read is Variable (R121). -/
def csrAcc (i : Instr) (m : Bool) (regs : List Nat) (n : BitVec 12) (body : State → State) (s : State) : Out :=
  issue m 12 i regs (fun s => if csrClass3 n then .trap s ⟨0x80, w0 i, n.zeroExtend 64, 0#64⟩ else .ok (body s)) s

/-! ### Values -/

def divS (a b : Word) : Word := if b = 0#64 then -1#64 else BitVec.ofInt 64 (a.toInt.tdiv b.toInt)
def divU (a b : Word) : Word := if b = 0#64 then -1#64 else a / b
def remS (a b : Word) : Word := if b = 0#64 then a else BitVec.ofInt 64 (a.toInt.tmod b.toInt)
def remU (a b : Word) : Word := if b = 0#64 then a else a % b
def mulhS (a b : Word) : Word := BitVec.ofInt 64 (a.toInt * b.toInt / 2 ^ 64)
def mulhU (a b : Word) : Word := wd (a.toNat * b.toNat / 2 ^ 64)
/-- Bits 5:0 of a shift amount (R108). -/
def amt (b : Word) : Nat := b.toNat % 64
/-- The packed bit operations of R113: `op` 0 CLZ, 1 FFS, 2 POPC, 3 BREV on elements of 8 · 2^w bits. -/
def packed (op : Nat) (w : BitVec 2) (v : Word) : Word :=
  let n := 8 * 2 ^ w.toNat
  wd (ofEls n ((List.range (64 / n)).map fun i => bitOp op n (fld v (n * i) n)))
def bfxVal (sx : Bool) (len : BitVec 7) (pos : BitVec 6) (v : Word) : Word :=
  let f := fld v pos.toNat len.toNat
  if sx then sext len.toNat f else wd f
def bfiVal (len : BitVec 7) (pos : BitVec 6) (d a : Word) : Word := putFld d pos.toNat len.toNat (fld a 0 len.toNat)
/-- The conditions of BCMP (R44). -/
def bcmpHolds (cond : BitVec 4) (a b : Word) : Bool :=
  match cond.toNat with
  | 0 => a = b
  | 1 => a ≠ b
  | 2 => a.slt b
  | 3 => b.sle a
  | 4 => a.ult b
  | _ => b.ule a

/-! ### Integer arithmetic and logic (R108 to R112) -/

def execAdd (m : Bool) (d a b : BitVec 6) (s : State) : Out := aluR (.add m d a b) m d a b (fun a b => a + b) s
def execSub (m : Bool) (d a b : BitVec 6) (s : State) : Out := aluR (.sub m d a b) m d a b (fun a b => a - b) s
def execMul (m : Bool) (d a b : BitVec 6) (s : State) : Out := aluR (.mul m d a b) m d a b (fun a b => a * b) s
def execMulh (m : Bool) (d a b : BitVec 6) (s : State) : Out := aluR (.mulh m d a b) m d a b (mulhS) s
def execMulhn (m : Bool) (d a b : BitVec 6) (s : State) : Out := aluR (.mulhn m d a b) m d a b (mulhU) s
def execDiv (m : Bool) (d a b : BitVec 6) (s : State) : Out := aluR (.div m d a b) m d a b (divS) s
def execDivn (m : Bool) (d a b : BitVec 6) (s : State) : Out := aluR (.divn m d a b) m d a b (divU) s
def execRem (m : Bool) (d a b : BitVec 6) (s : State) : Out := aluR (.rem m d a b) m d a b (remS) s
def execRemn (m : Bool) (d a b : BitVec 6) (s : State) : Out := aluR (.remn m d a b) m d a b (remU) s
def execMin (m : Bool) (d a b : BitVec 6) (s : State) : Out := aluR (.min m d a b) m d a b (fun a b => if a.slt b then a else b) s
def execMax (m : Bool) (d a b : BitVec 6) (s : State) : Out := aluR (.max m d a b) m d a b (fun a b => if a.slt b then b else a) s
def execMinn (m : Bool) (d a b : BitVec 6) (s : State) : Out := aluR (.minn m d a b) m d a b (fun a b => if a.ult b then a else b) s
def execMaxn (m : Bool) (d a b : BitVec 6) (s : State) : Out := aluR (.maxn m d a b) m d a b (fun a b => if a.ult b then b else a) s
def execSlt (m : Bool) (d a b : BitVec 6) (s : State) : Out := aluR (.slt m d a b) m d a b (fun a b => wd (b2n (a.slt b))) s
def execSltn (m : Bool) (d a b : BitVec 6) (s : State) : Out := aluR (.sltn m d a b) m d a b (fun a b => wd (b2n (a.ult b))) s
def execAnd (m : Bool) (d a b : BitVec 6) (s : State) : Out := aluR (.and m d a b) m d a b (fun a b => a &&& b) s
def execOr (m : Bool) (d a b : BitVec 6) (s : State) : Out := aluR (.or m d a b) m d a b (fun a b => a ||| b) s
def execXor (m : Bool) (d a b : BitVec 6) (s : State) : Out := aluR (.xor m d a b) m d a b (fun a b => a ^^^ b) s
def execAndn (m : Bool) (d a b : BitVec 6) (s : State) : Out := aluR (.andn m d a b) m d a b (fun a b => a &&& ~~~b) s
def execOrn (m : Bool) (d a b : BitVec 6) (s : State) : Out := aluR (.orn m d a b) m d a b (fun a b => a ||| ~~~b) s
def execSll (m : Bool) (d a b : BitVec 6) (s : State) : Out := aluR (.sll m d a b) m d a b (fun a b => a <<< amt b) s
def execSrl (m : Bool) (d a b : BitVec 6) (s : State) : Out := aluR (.srl m d a b) m d a b (fun a b => a >>> amt b) s
def execSra (m : Bool) (d a b : BitVec 6) (s : State) : Out := aluR (.sra m d a b) m d a b (fun a b => a.sshiftRight (amt b)) s
def execRol (m : Bool) (d a b : BitVec 6) (s : State) : Out := aluR (.rol m d a b) m d a b (fun a b => a.rotateLeft (amt b)) s
def execRor (m : Bool) (d a b : BitVec 6) (s : State) : Out := aluR (.ror m d a b) m d a b (fun a b => a.rotateRight (amt b)) s

def execClz (m : Bool) (w : BitVec 2) (d a : BitVec 6) (s : State) : Out := aluU (.clz m w d a) m 4 d a (packed 0 w) s
def execFfs (m : Bool) (w : BitVec 2) (d a : BitVec 6) (s : State) : Out := aluU (.ffs m w d a) m 4 d a (packed 1 w) s
def execPopc (m : Bool) (w : BitVec 2) (d a : BitVec 6) (s : State) : Out := aluU (.popc m w d a) m 4 d a (packed 2 w) s
def execBrev (m : Bool) (w : BitVec 2) (d a : BitVec 6) (s : State) : Out := aluU (.brev m w d a) m 4 d a (packed 3 w) s

def execAddi (m : Bool) (d a : BitVec 6) (imm : BitVec 10) (s : State) : Out :=
  aluU (.addi m d a imm) m 4 d a (fun v => v + imm.signExtend 64) s
def execAddiLit (m : Bool) (d a : BitVec 6) (lit : Word) (s : State) : Out :=
  aluU (.addiLit m d a lit) m 12 d a (fun v => v + lit) s
def execAndi (m : Bool) (d a : BitVec 6) (imm : BitVec 10) (s : State) : Out :=
  aluU (.andi m d a imm) m 4 d a (fun v => v &&& imm.signExtend 64) s
def execAndiLit (m : Bool) (d a : BitVec 6) (lit : Word) (s : State) : Out :=
  aluU (.andiLit m d a lit) m 12 d a (fun v => v &&& lit) s
def execOri (m : Bool) (d a : BitVec 6) (imm : BitVec 10) (s : State) : Out :=
  aluU (.ori m d a imm) m 4 d a (fun v => v ||| imm.signExtend 64) s
def execOriLit (m : Bool) (d a : BitVec 6) (lit : Word) (s : State) : Out :=
  aluU (.oriLit m d a lit) m 12 d a (fun v => v ||| lit) s
def execXori (m : Bool) (d a : BitVec 6) (imm : BitVec 10) (s : State) : Out :=
  aluU (.xori m d a imm) m 4 d a (fun v => v ^^^ imm.signExtend 64) s
def execXoriLit (m : Bool) (d a : BitVec 6) (lit : Word) (s : State) : Out :=
  aluU (.xoriLit m d a lit) m 12 d a (fun v => v ^^^ lit) s
def execSlti (m : Bool) (d a : BitVec 6) (imm : BitVec 10) (s : State) : Out :=
  aluU (.slti m d a imm) m 4 d a (fun v => wd (b2n (v.slt (imm.signExtend 64)))) s
def execSltiLit (m : Bool) (d a : BitVec 6) (lit : Word) (s : State) : Out :=
  aluU (.sltiLit m d a lit) m 12 d a (fun v => wd (b2n (v.slt lit))) s
def execSlli (m : Bool) (d a : BitVec 6) (amt : BitVec 6) (s : State) : Out := aluU (.slli m d a amt) m 4 d a (fun v => v <<< amt.toNat) s
def execSrli (m : Bool) (d a : BitVec 6) (amt : BitVec 6) (s : State) : Out := aluU (.srli m d a amt) m 4 d a (fun v => v >>> amt.toNat) s
def execSrai (m : Bool) (d a : BitVec 6) (amt : BitVec 6) (s : State) : Out := aluU (.srai m d a amt) m 4 d a (fun v => v.sshiftRight amt.toNat) s
/-- A value that depends on no register but the pc. -/
def setX (i : Instr) (m : Bool) (len : Nat) (d : BitVec 6) (g : Word → Word) (s : State) : Out :=
  issue m len i [rX d] (fun s => .ok (s.wfix d (g s.cur.pc))) s
def execLimm (m : Bool) (d : BitVec 6) (imm : BitVec 10) (s : State) : Out := setX (.limm m d imm) m 4 d (fun _ => imm.signExtend 64) s
def execLimmLit (m : Bool) (d : BitVec 6) (lit : Word) (s : State) : Out := setX (.limmLit m d lit) m 12 d (fun _ => lit) s
def execAdpc (m : Bool) (d : BitVec 6) (imm : BitVec 10) (s : State) : Out := setX (.adpc m d imm) m 4 d (fun pc => target pc imm) s
def execBfx (m : Bool) (d a : BitVec 6) (sx : Bool) (len : BitVec 7) (pos : BitVec 6) (s : State) : Out :=
  aluU (.bfx m d a sx len pos) m 12 d a (bfxVal sx len pos) s
def execBfi (m : Bool) (d a : BitVec 6) (len : BitVec 7) (pos : BitVec 6) (s : State) : Out :=
  issue m 12 (.bfi m d a len pos) [rX a, rX d] (fun s => .ok (s.wfix d (bfiVal len pos (s.x d) (s.x a)))) s
def execSextB (m : Bool) (d a : BitVec 6) (s : State) : Out := aluU (.sextB m d a) m 4 d a (fun v => (v.truncate 8).signExtend 64) s
def execSextH (m : Bool) (d a : BitVec 6) (s : State) : Out := aluU (.sextH m d a) m 4 d a (fun v => (v.truncate 16).signExtend 64) s
def execSextW (m : Bool) (d a : BitVec 6) (s : State) : Out := aluU (.sextW m d a) m 4 d a (fun v => (v.truncate 32).signExtend 64) s
def execZextB (m : Bool) (d a : BitVec 6) (s : State) : Out := aluU (.zextB m d a) m 4 d a (fun v => (v.truncate 8).zeroExtend 64) s
def execZextH (m : Bool) (d a : BitVec 6) (s : State) : Out := aluU (.zextH m d a) m 4 d a (fun v => (v.truncate 16).zeroExtend 64) s
def execZextW (m : Bool) (d a : BitVec 6) (s : State) : Out := aluU (.zextW m d a) m 4 d a (fun v => (v.truncate 32).zeroExtend 64) s

/-! ### Branches and calls (R115 to R118) -/

def execBr (m : Bool) (off : BitVec 13) (s : State) : Out := branch (.br m off) m 0#6 off (fun _ => true) s
def execBeqz (m : Bool) (a : BitVec 6) (off : BitVec 13) (s : State) : Out := branch (.beqz m a off) m a off (fun v => decide (v = 0#64)) s
def execBnez (m : Bool) (a : BitVec 6) (off : BitVec 13) (s : State) : Out := branch (.bnez m a off) m a off (fun v => decide (v ≠ 0#64)) s
def execBltz (m : Bool) (a : BitVec 6) (off : BitVec 13) (s : State) : Out := branch (.bltz m a off) m a off (fun v => v.slt 0#64) s
def execBgez (m : Bool) (a : BitVec 6) (off : BitVec 13) (s : State) : Out := branch (.bgez m a off) m a off (fun v => !v.slt 0#64) s
def execBgtz (m : Bool) (a : BitVec 6) (off : BitVec 13) (s : State) : Out := branch (.bgtz m a off) m a off (fun v => (0#64).slt v) s
def execBlez (m : Bool) (a : BitVec 6) (off : BitVec 13) (s : State) : Out := branch (.blez m a off) m a off (fun v => !(0#64).slt v) s
def execBpany (m : Bool) (p : BitVec 3) (off : BitVec 13) (s : State) : Out := branchP (.bpany m p off) m p off (fun v => decide (v ≠ 0#64)) s
def execBpnone (m : Bool) (p : BitVec 3) (off : BitVec 13) (s : State) : Out := branchP (.bpnone m p off) m p off (fun v => decide (v = 0#64)) s
def execBcmp (m : Bool) (cond : BitVec 4) (a b : BitVec 6) (off : BitVec 32) (s : State) : Out :=
  issue m 12 (.bcmp m cond a b off) [rX a, rX b] (fun s =>
    if bcmpHolds cond (s.x a) (s.x b) then .to s (target s.cur.pc off) else .ok s) s
def execCall (m : Bool) (off : BitVec 22) (s : State) : Out :=
  issue m 4 (.call m off) [1] (fun s => .to (s.wfix 1#6 (s.cur.pc + 4#64)) (target s.cur.pc off)) s
def execJr (m : Bool) (a : BitVec 6) (s : State) : Out := jumpTo (.jr m a) m [rX a] (fun s => s.x a) false s
def execRet (m : Bool) (s : State) : Out := jumpTo (.ret m) m [1] (fun s => s.x 1#6) false s
def execCallr (m : Bool) (a : BitVec 6) (s : State) : Out := jumpTo (.callr m a) m [rX a, 1] (fun s => s.x a) true s

/-! ### NOP, traps, control registers (R46, R120, R121, R125) -/

def execNop (m : Bool) (s : State) : Out := issue m 4 (.nop m) [] (fun s => .ok s) s
def execTrap (m : Bool) (a : BitVec 6) (s : State) : Out :=
  issue m 4 (.trap m a) [rX a] (fun s => .gone (s.raise s.turn s.fi ⟨0x14, s.x a, 0#64, 0#64⟩ (s.cur.pc + 4#64))) s
def execEret (m : Bool) (s : State) : Out :=
  issue m 4 (.eret m) [] (fun s => if s.cur.handler then .gone s.leaveTrap else .trap s ⟨0x15, w0 (.eret m), 0#64, 0#64⟩) s
def execCsrr (m : Bool) (d : BitVec 6) (csr : BitVec 12) (s : State) : Out :=
  csrAcc (.csrr m d csr) m [rX d] csr (fun s => s.wvar d (s.csr csr)) s
def execCsrw (m : Bool) (a : BitVec 6) (csr : BitVec 12) (s : State) : Out :=
  csrAcc (.csrw m a csr) m [rX a] csr (fun s => s.setCsr csr (s.x a)) s
def execCsrx (m : Bool) (d a : BitVec 6) (csr : BitVec 12) (s : State) : Out :=
  csrAcc (.csrx m d a csr) m [rX a, rX d] csr (fun s => (s.setCsr csr (s.x a)).wvar d (s.csr csr)) s
/-- Words that are no instruction (R46): UNDEF with the number of the check that failed. -/
def execUndefinedEncoding (w0 w1 : BitVec 32) (chk : Nat) (s : State) : Out :=
  issue false 4 (.nop false) [] (fun s => .trap s ⟨1, w0.zeroExtend 64, wd chk, w1.zeroExtend 64⟩) s

end Sys2Proof.Machine
end

