-- ==== Sys2Proof/Machine/Vector.lean ====
section
/-! DEFINITION. Vector instructions, streams and the sequencer (majors 0x30 to 0x3A; R130 to R156). The sequencer executes in
program order, so each instruction takes its effect where it issues. -/
namespace Sys2Proof.Machine

/-! ### Streams (R148 to R153) -/

def Stream.unit (st : Stream) : Nat := max 1 (elemBits st.fmt.toNat / 8)
/-- E: units of one step. -/
def Stream.perStep (st : Stream) : Nat := 64 / st.unit
def Stream.total (st : Stream) : Nat := st.n0 * st.n1 * st.n2
/-- Units of the next step. -/
def Stream.next (st : Stream) : Nat := min st.perStep (st.total - st.pos)
/-- Address of unit `u` (R149). -/
def Stream.addr (st : Stream) (u : Nat) : Nat :=
  (st.base + wd (u % st.n0) * st.s0 + wd (u / st.n0 % st.n1) * st.s1 + wd (u / (st.n0 * st.n1)) * st.s2).toNat
/-- Addresses of the bytes of the next step, in lane order. -/
def Stream.bytesAt (st : Stream) : List Nat :=
  (List.range st.next).flatMap fun j => (List.range st.unit).map (· + st.addr (st.pos + j))
def Frame.stream (r : Frame) (n : Nat) : Option Stream := r.streams.get? n
def Frame.reads (r : Frame) (n : Nat) : Option Stream := (r.stream n).filter (!·.write)
def Frame.writes (r : Frame) (n : Nat) : Option Stream := (r.stream n).filter (·.write)
/-- Bytes of register `n` that no exhausted stream masks (R150). -/
def Frame.laneBytes (r : Frame) (n : Nat) : Nat := match r.stream n with | some st => st.next * st.unit | none => 64
/-- Element `n` of width `w` of register `g` is not masked. -/
def Frame.lane (r : Frame) (g w n : Nat) : Bool := (n + 1) * w ≤ 8 * r.laneBytes g
/-- An element of a register of tag `t` is governed by this predicate bit (R35). -/
def Frame.pbit (r : Frame) (p : BitVec 3) (t n : Nat) : Bool := fld (r.rp p.toNat) (if elemBits t = 4 then n / 2 else n) 1 = 1 && n < 128
/-- An element is active in an instruction whose operands `gs` share the tag `t` (R130, R150). -/
def Frame.act (r : Frame) (p : BitVec 3) (t : Nat) (gs : List Nat) (n : Nat) : Bool := r.pbit p t n && gs.all fun g => r.lane g (elemBits t) n

/-! ### FORMAT (R131, R150) -/

def fmtTrap (i : Instr) (b : Nat × Nat) : Trap := ⟨8, w0 i, wd b.1, wd b.2⟩
/-- Register `n` as a source under operand field `f`. -/
def Frame.srcBad (r : Frame) (f n : Nat) (ok : Nat → Bool) : Option (Nat × Nat) :=
  if (r.writes n).isSome then some (f, 17) else if ok (r.rt n) then none else some (f, r.rt n)
/-- Register `n` as a destination of tag `t`. -/
def Frame.dstBad (r : Frame) (f n t : Nat) : Option (Nat × Nat) :=
  if (r.reads n).isSome then some (f, 16)
  else match r.writes n with
    | some st => if st.fmt.toNat = t then none else some (f, t)
    | none => none

/-! ### What a vector instruction writes -/

/-- Elements (index, code) of width `w` and tag for register `d`, those of them pushed into a write stream, flags, and the x, p and
state registers written. -/
structure VOut where
  d : Option Nat := none
  w : Nat := 8
  tag : Nat := 0
  els : List (Nat × Nat) := []
  push : Option (List Nat) := none
  flags : Nat := 0
  x : List (BitVec 6 × Word) := []
  p : List (BitVec 3 × Word) := []
  st : Option (Nat × BitVec 512) := none
  /-- A free value was used. -/
  used : Bool := false

/-- A byte that a pop delivers: as memory stands, or as it stood when the VSTRM issued, whole units either way (R153; DESIGN CHOICE,
log 131: no value between the two). -/
def Stream.byte (st : Stream) (s : State) (q : Nat) : BitVec 8 :=
  match st.snap with
  | none => s.byteNow q
  | some m => if Config.freeBit s.tick (q / st.unit * st.unit) && regionOf q ≠ .hole then rdCell m q else s.byteNow q
/-- Values of the read streams among the registers, one step each; lanes beyond the stream keep their bits. No stream moves yet
(R150, R151). -/
def State.pops (s : State) (i : Instr) : List Nat → Got (List (Nat × BitVec 512))
  | [] => .got s []
  | n :: r => match s.cur.reads n with
    | none => s.pops i r
    | some st =>
      (s.loadRun i (wd (st.bytesAt.headD 0)) st.bytesAt 1 (st.perStep * st.unit) 0 (Straddle.vec st.bytesAt) st.byte).bind fun s bs =>
        (s.pops i r).bind fun s l =>
          let k := 8 * bs.length
          let v := BitVec.ofNat 512 (ofBytes bs + (s.cur.rv n).toNat >>> k <<< k)
          .got s ((n, if st.fmt = 6#4 || st.fmt = 7#4 then v &&& BitVec.ofNat 512 (ofBytes (List.replicate 64 0x3F#8)) else v) :: l)
/-- The value of a register in this instruction. -/
def State.vval (s : State) (l : List (Nat × BitVec 512)) (n : Nat) : BitVec 512 := ((l.find? (·.1 = n)).map (·.2)).getD (s.cur.rv n)
/-- Register value after the write: 6-bit formats keep bits 7:6 zero (R35, R130). -/
def VOut.value (o : VOut) (old : BitVec 512) : BitVec 512 :=
  o.els.foldl (fun v e => setEl v o.w e.1 (if o.tag = 6 || o.tag = 7 then e.2 % 64 else e.2)) old
/-- Push the step's units that hold written elements; those passed over still count for the spaces of R134 (R150, R151). -/
def State.vpush (s : State) (i : Instr) (o : VOut) (v : BitVec 512) : Got Unit :=
  match o.d with
  | none => .got s ()
  | some n => match s.cur.writes n with
    | none => .got s ()
    | some st =>
      let els := (o.push.getD (o.els.map (·.1))).filter fun e => s.cur.lane n o.w e
      let hit (b : Nat) : Bool := els.any fun e => spans (e * o.w) o.w (8 * (b / st.unit * st.unit)) (8 * st.unit)
      let all := st.bytesAt
      let bs := ((List.range all.length).zip all).filterMap fun q => if hit q.1 then some (q.2, BitVec.ofNat 8 (getEl v 8 q.1)) else none
      let first := all.headD 0
      s.storeRun i (wd (if first < 2 ^ 56 then first else (bs.headD (0, 0#8)).1)) st.unit bs 1 (st.perStep * st.unit) (Straddle.vec all)
/-- Streams take their step; popped values and results are written (R31, R150). -/
def Frame.vput (r : Frame) (named : List Nat) (l : List (Nat × BitVec 512)) (o : VOut) (v : BitVec 512) (last : Bool) : Frame :=
  let r := l.foldl (fun r e => { r with v := r.v.put e.1 e.2 }) r
  let r := { r with streams := r.streams.map fun n st => if named.contains n then { st with pos := st.pos + st.next } else st }
  let wd1 (r : Frame) : Frame := match o.d with | some n => r.wv n v o.tag | none => r
  let wst (r : Frame) : Frame := match o.st with | some (n, u) => r.wv n u 1 | none => r
  let r := if last then wd1 (wst r) else wst (wd1 r)
  let r := o.p.foldl (fun r e => r.wp e.1.toNat e.2) r
  { r with fflags := r.fflags ||| BitVec.ofNat 6 o.flags,
           seq := (o.d.toList.map (64 + ·)) ++ (o.st.toList.map (64 + ·.1)) ++ ((o.p.filter (·.1 ≠ 0#3)).map (128 + ·.1.toNat)) ++ r.seq }
/-- One vector instruction: FORMAT checks, one step of each stream among `srcs` and the destination, the calculation from the
registers' values, the push, then every write. Two results for one register land in an open order. -/
def vdo (i : Instr) (chk : Frame → List (Option (Nat × Nat))) (srcs : List Nat) (work : State → (Nat → BitVec 512) → VOut) (s : State) : Res :=
  match (chk s.cur).findSome? id with
  | some b => .trap s (fmtTrap i b)
  | none => (s.pops i srcs.eraseDups).res fun s l =>
    let o := work s (s.vval l)
    let v := match o.d with | some n => o.value (s.vval l n) | none => 0#512
    (s.vpush i o v).res fun s _ =>
      let both := match o.d, o.st with | some n, some (e, _) => n == e | _, _ => false
      let s := s.updCur fun r => r.vput (srcs ++ o.d.toList) l o v (both && Config.freeBit s.tick 0)
      let s := o.x.foldl (fun s e => s.wvar e.1 e.2) s
      .ok (if both || o.used || !l.isEmpty then s.ticked else s)

/-- Apply `g` to every active element index: results and joined flags. -/
def elwise (n : Nat) (act : Nat → Bool) (g : Nat → Nat × Nat) : List (Nat × Nat) × Nat :=
  (List.range n).foldl (fun z k => if act k then (z.1 ++ [(k, (g k).1)], z.2 ||| (g k).2) else z) ([], 0)

/-! ### Arithmetic (R135, R136, R141, R147) -/

/-- a, b and, where read, d of one floating tag. -/
def vfltRun (i : Instr) (d a : BitVec 5) (b : Option (BitVec 5)) (rd : Bool) (p : BitVec 3) (g : Fp → Fp → Fp → Fp × Nat) (s : State) : Res :=
  let t := s.cur.rt a.toNat
  let srcs := a.toNat :: (b.toList.map (·.toNat)) ++ (if rd then [d.toNat] else [])
  vdo i (fun r => [r.srcBad 1 a.toNat isWide] ++ (b.toList.map fun b => r.srcBad 2 b.toNat (· == t)) ++
      (if rd then [r.srcBad 0 d.toNat (· == t)] else []) ++ [r.dstBad 0 d.toNat t]) srcs
    (fun s v =>
      let w := elemBits t
      let z := elwise (elemCount t) (s.cur.act p t (d.toNat :: srcs)) fun n =>
        finish t (g (elemVal t (getEl (v d.toNat) w n)) (elemVal t (getEl (v a.toNat) w n)) (elemVal t (getEl (v (b.getD 0#5).toNat) w n)))
      { d := some d.toNat, w := w, tag := t, els := z.1, flags := z.2 }) s
/-- Integer and bitwise operations: d takes a's tag. -/
def vintRun (i : Instr) (d a b : BitVec 5) (p : BitVec 3) (okA : Nat → Bool) (okB : Nat → Nat → Bool) (g : Nat → Nat → Nat → Nat) (s : State) : Res :=
  let t := s.cur.rt a.toNat
  vdo i (fun r => [r.srcBad 1 a.toNat okA, r.srcBad 2 b.toNat (okB t), r.dstBad 0 d.toNat t]) [a.toNat, b.toNat]
    (fun s v =>
      let w := elemBits t
      let z := elwise (elemCount t) (s.cur.act p t [d.toNat, a.toNat, b.toNat]) fun n => (g t (getEl (v a.toNat) w n) (getEl (v b.toNat) w n), 0)
      { d := some d.toNat, w := w, tag := t, els := z.1 }) s
def vspecRun (i : Instr) (fn : Nat) (d a : BitVec 5) (p : BitVec 3) (s : State) : Res :=
  vfltRun i d a none false p (fun _ x _ => specialFn fn x) s
def vbitRun (i : Instr) (op : Nat) (wc : BitVec 2) (d a : BitVec 5) (p : BitVec 3) (s : State) : Res :=
  let w := 8 * 2 ^ wc.toNat
  let t := match wc.toNat with | 0 => 11 | 1 => 13 | 2 => 15 | _ => 0
  vdo i (fun r => [r.srcBad 1 a.toNat fun _ => true, r.dstBad 0 d.toNat t]) [a.toNat]
    (fun s v =>
      let z := elwise (512 / w) (fun n => fld (s.cur.rp p.toNat) n 1 = 1 && s.cur.lane a.toNat w n && s.cur.lane d.toNat w n)
        fun n => (bitOp op w (getEl (v a.toNat) w n), 0)
      { d := some d.toNat, w := w, tag := t, els := z.1 }) s
def sameTag (t u : Nat) : Bool := t == u
/-- A shift count's tag: an integer of a's width. -/
def shiftTag (t u : Nat) : Bool := isInt u && elemBits u = elemBits t
def shlEl (t x n : Nat) : Nat := if n ≥ elemBits t then 0 else x <<< n
def shrEl (t x n : Nat) : Nat :=
  if isSigned t then intCode t (if n ≥ elemBits t then (if intVal t x < 0 then -1 else 0) else intVal t x >>> n)
  else if n ≥ elemBits t then 0 else x >>> n

/-! ### Compare and select (R137) -/

/-- The six conditions, and whether the comparison raises NV. -/
def vcmpEl (c : Nat) (x y : Fp) : Bool × Nat :=
  let bad := x.isNan || y.isNan
  let r := match c with
    | 0 => fpEq x y
    | 1 => !fpEq x y
    | 2 => fpLt x y
    | 3 => fpLt x y || fpEq x y
    | 4 => fpLt y x
    | _ => fpLt y x || fpEq x y
  (r, if bad && c ≥ 2 then 16 else 0)
def vcmpRun (i : Instr) (cond : BitVec 4) (d : BitVec 3) (a b : BitVec 5) (p : BitVec 3) (s : State) : Res :=
  let t := s.cur.rt a.toNat
  vdo i (fun r => [r.srcBad 1 a.toNat fun t => isWide t || isInt t, r.srcBad 2 b.toNat (· == t)]) [a.toNat, b.toNat]
    (fun s v =>
      let w := elemBits t
      let z := elwise (elemCount t) (s.cur.act p t [a.toNat, b.toNat]) fun n =>
        let c := vcmpEl cond.toNat (elemVal t (getEl (v a.toNat) w n)) (elemVal t (getEl (v b.toNat) w n))
        (b2n c.1, c.2)
      { p := [(d, wd (z.1.foldl (fun m e => m + e.2 * 2 ^ e.1) 0))], flags := z.2 }) s
/-- An element that the end of either operand's stream masks is inactive, whichever operand the predicate selects (DESIGN CHOICE, log 152). -/
def vselRun (i : Instr) (d a b : BitVec 5) (p : BitVec 3) (s : State) : Res :=
  let t := s.cur.rt a.toNat
  vdo i (fun r => [r.srcBad 1 a.toNat fun _ => true, r.srcBad 2 b.toNat (· == t), r.dstBad 0 d.toNat t]) [a.toNat, b.toNat]
    (fun s v =>
      let w := elemBits t
      let z := elwise (elemCount t) (s.cur.act 0#3 t [d.toNat, a.toNat, b.toNat]) fun n =>
        (if s.cur.pbit p t n then getEl (v a.toNat) w n else getEl (v b.toNat) w n, 0)
      { d := some d.toNat, w := w, tag := t, els := z.1 }) s

/-! ### Conversion and quantisation (R138 to R140) -/

/-- (destination element, source element) pairs of part `p`. -/
def cvtPairs (es ed p : Nat) : List (Nat × Nat) :=
  if es ≤ ed then (List.range es).map fun k => (p * es + k, k) else (List.range ed).map fun k => (k, p * ed + k)
/-- Convert the pairs whose elements are active. -/
def State.cvtEls (s : State) (p : BitVec 3) (d a td ta : Nat) (prs : List (Nat × Nat)) (g : Nat → Nat → Nat × Nat) : List (Nat × Nat) × Nat :=
  prs.foldl (fun z q =>
    if s.cur.pbit p td q.1 && s.cur.lane d (elemBits td) q.1 && s.cur.lane a (elemBits ta) q.2 then
      (z.1 ++ [(q.1, (g q.1 q.2).1)], z.2 ||| (g q.1 q.2).2) else z) ([], 0)
def vcvtRun (i : Instr) (d a : BitVec 5) (b : BitVec 6) (p part mode : BitVec 3) (fmt : BitVec 4) (s : State) : Res :=
  let ta := s.cur.rt a.toNat
  let td := fmt.toNat
  let es := elemCount ta
  let ed := elemCount td
  vdo i (fun r => [r.srcBad 1 a.toNat fun t => t ≠ 0 && t ≠ 9, if part.toNat ≥ max (ed / es) (es / ed) then some (1, ta) else none,
      r.dstBad 0 d.toNat td]) [a.toNat]
    (fun s v =>
      let z := s.cvtEls p d.toNat a.toNat td ta (cvtPairs es ed part.toNat) fun dk sk =>
        convTo td mode.toNat (hsrBits s.myCore.seed (s.x b + wd dk)) (isInt ta) (elemVal ta (getEl (v a.toNat) (elemBits ta) sk))
      { d := some d.toNat, w := elemBits td, tag := td, els := z.1, flags := z.2 }) s
/-- EMAX of R66. -/
def emaxOf (t : Nat) : Int := match t with | 4 => 8 | 5 => 15 | 6 => 4 | _ => 2
def fpMag : Fp → Q
  | .num _ q => q.abs
  | _ => Q.int 0
/-- Greatest magnitude among the finite values. -/
def maxMag (l : List Fp) : Q := l.foldl (fun m x => if m.lt (fpMag x) then fpMag x else m) (Q.int 0)
/-- The MX block of R66: codes, scale byte, flags. -/
def mxQuant (t mode : Nat) (hsr : Nat → Nat) (l : List Fp) : List Nat × Nat × Nat :=
  let m := maxMag l
  if l.any fun x => x.isNan || x.isInf then (l.map fun _ => 0, 255, 16)
  else if m.n = 0 then (l.map fun x => (convTo t 0 0 false x).1, 0, 0)
  else
    let k := max (-127) (min 127 (floorLog2 m.n.natAbs m.d - emaxOf t))
    let cs := ((List.range l.length).zip l).map fun e =>
      convTo t mode (hsr e.1) false (match e.2 with | .num g q => .num g (q.scale (-k)) | x => x)
    (cs.map (·.1), (k + 127).toNat, cs.foldl (fun f c => f ||| c.2) 0)
/-- The LQ4 block of R63 with a supplied superscale: codes, scale code, flags. A superscale of −0 counts as zero (DESIGN CHOICE, log 121). -/
def lq4Quant (mode : Nat) (hsr : Nat → Nat) (sup : Fp) (l : List Fp) : List Nat × Nat × Nat :=
  match sup with
  | .num _ sq =>
    if sq.n < 0 then (l.map fun _ => 7, 0, 16)
    else
      let c := if sq.n = 0 then 0 else
        let q := ((maxMag l).mul (Q.int 255)).div sq
        min 255 ((q.n.natAbs + q.d - 1) / q.d)
      let cs := ((List.range l.length).zip l).map fun e => match e.2 with
        | .num g q => if c = 0 || q.n = 0 then (7, 0) else convTo 9 mode (hsr e.1) false (.num g (((q.mul (Q.int 255)).div sq).div (Q.int c)))
        | x => convTo 9 mode 0 false x
      (cs.map (·.1), c, cs.foldl (fun f c => f ||| c.2) 0)
  | _ => (l.map fun _ => 7, 0, 16)
/-- The block's elements that the end of a write stream d masks are inactive: they count as +0 and are not written (R130, R150; DESIGN CHOICE,
log 130). A FORMAT for a or p out of place, or for a block register that is a stream, names field 1 and a's tag (DESIGN CHOICE, log 150). -/
def vqntRun (i : Instr) (d a : BitVec 5) (b e : BitVec 6) (part mode : BitVec 3) (fmt : BitVec 4) (s : State) : Res :=
  let ta := s.cur.rt a.toNat
  let td := fmt.toNat
  let blk := if td = 9 then 64 else 32
  let g := max 1 (blk / elemCount ta)
  let rs := (List.range g).map (· + a.toNat)
  let other (r : Frame) : Option (Nat × Nat) := if a.toNat % g ≠ 0 then none else (rs.find? fun n => r.rt n ≠ ta).map fun n => (1, r.rt n)
  let bad (r : Frame) : Bool := a.toNat % g ≠ 0 || (g > 1 && rs.any fun n => (r.stream n).isSome) || part.toNat ≥ elemCount td / blk
  vdo i (fun r => [r.srcBad 1 a.toNat isWide, other r, if bad r then some (1, ta) else none, r.dstBad 0 d.toNat td])
    (if g = 1 then [a.toNat] else [])
    (fun s v =>
      let w := elemBits ta
      let on (k : Nat) : Bool := s.cur.lane d.toNat (elemBits td) (part.toNat * blk + k)
      let val (n k : Nat) : Fp := if s.cur.lane n w k then elemVal ta (getEl (v n) w k) else .zero false
      let all := rs.flatMap fun n => (List.range (elemCount ta)).map (val n)
      let xs := ((List.range blk).zip all).map fun e => if on e.1 then e.2 else .zero false
      let hsr (k : Nat) : Nat := hsrBits s.myCore.seed (s.x b + wd k)
      let (cs, sc, fl) := if td = 9 then lq4Quant mode.toNat hsr (fltVal 1 (s.xn e)) xs else mxQuant td mode.toNat hsr xs
      { d := some d.toNat, w := elemBits td, tag := td, flags := fl, x := [(e, wd sc)],
        els := (((List.range blk).map (· + part.toNat * blk)).zip cs).filter fun e => s.cur.lane d.toNat (elemBits td) e.1 }) s
/-- One element times its block's scale, rounded (R62, R65, R140). A superscale of −0 counts as zero (DESIGN CHOICE, log 121). -/
def dqEl (td mode hsr : Nat) (ta c : Nat) (sc : Word) : Nat × Nat :=
  if ta = 9 then
    match fltVal 1 (fld sc 32 32) with
    | .num _ q => if q.n < 0 then (nanCode td, 16) else convTo td mode hsr false (.ofQ (((q.mul (Q.int (fld sc 0 8))).mul (Q.int (lq4Q c))).div (Q.int (255 * 127))))
    | _ => (nanCode td, 16)
  else if fld sc 0 8 = 255 then (nanCode td, 0)
  else convTo td mode hsr false (match elemVal ta c with | .num g q => .num g (q.scale ((fld sc 0 8 : Int) - 127)) | x => x)
/-- A p out of place names field 1 and a's tag (DESIGN CHOICE, log 150). -/
def vdqntRun (i : Instr) (d a : BitVec 5) (b e : BitVec 6) (p part mode : BitVec 3) (fmt : BitVec 4) (s : State) : Res :=
  let ta := s.cur.rt a.toNat
  let td := fmt.toNat
  let es := elemCount ta
  let ed := elemCount td
  vdo i (fun r => [r.srcBad 1 a.toNat fun t => 4 ≤ t && t ≤ 9, if part.toNat ≥ es / ed then some (1, ta) else none, r.dstBad 0 d.toNat td]) [a.toNat]
    (fun s v =>
      let z := s.cvtEls p d.toNat a.toNat td ta (cvtPairs es ed part.toNat) fun dk sk =>
        dqEl td mode.toNat (hsrBits s.myCore.seed (s.x b + wd dk)) ta (getEl (v a.toNat) (elemBits ta) sk) (s.x e)
      { d := some d.toNat, w := elemBits td, tag := td, els := z.1, flags := z.2 }) s

/-! ### Reduction and softmax (R142, R143) -/

/-- Exact sum of a list: +0 unless every addend is −0; NV where both infinities are added. -/
def fpSum (l : List Fp) : Fp × Nat :=
  if l.any (· == .inf true) && l.any (· == .inf false) then (.nan, 16)
  else match l with
    | [] => (.zero false, 0)
    | x :: r => (r.foldl (fun a y => (fpAdd a y).1) x, 0)
def vredRun (i : Instr) (d a : BitVec 5) (p : BitVec 3) (op : BitVec 4) (s : State) : Res :=
  let t := s.cur.rt a.toNat
  let acc : Bool := op = 1#4
  let srcs := a.toNat :: (if acc then [d.toNat] else [])
  vdo i (fun r => [r.srcBad 1 a.toNat fun t => isWide t || (isInt t && op ≠ 4#4)] ++ (if acc then [r.srcBad 0 d.toNat (· == t)] else []) ++
      [r.dstBad 0 d.toNat t]) srcs
    (fun s v =>
      let w := elemBits t
      let on := (List.range (elemCount t)).filter fun n => s.cur.act p t [a.toNat] n && s.cur.lane d.toNat w 0
      let xs := on.map fun n => elemVal t (getEl (v a.toNat) w n)
      let lo : Fp := if isInt t then .ofQ (Q.int (intMin t)) else .inf true
      let hi : Fp := if isInt t then .ofQ (Q.int (intMax t)) else .inf false
      let r : Fp × Nat := match op.toNat with
        | 0 => fpSum xs
        | 1 => fpSum (elemVal t (getEl (v d.toNat) w 0) :: xs)
        | 2 => (xs.foldl fpMax lo, 0)
        | 3 => (xs.foldl fpMin hi, 0)
        | _ => ((xs.map Fp.abs).foldl fpMax (.zero false), 0)
      let c := convTo t 0 0 (isInt t) r.1
      { d := some d.toNat, w := w, tag := t, flags := r.2 ||| c.2, els := (0, c.1) :: ((List.range (elemCount t)).drop 1).map fun n => (n, 0) }) s
def oneF : Nat := 0x3F800000
/-- Round(X2(x − y)) (R143). -/
def x2 (x y : Fp) : Nat × Nat :=
  let (t, f) := fpAdd x y.neg
  finish 1 ((specialFn 0 t).1, f)
/-- m, l, α, status after a step, the p values of the active lanes, and flags. -/
def smxStep (m l : Nat) (st : Nat) (xs : List (Nat × Fp)) : List Nat × List (Nat × Nat) × Nat :=
  let n := nanCode 1
  let inv := xs.any fun x => x.2.isNan || x.2 == .inf false
  if inv || (fltVal 1 m).isNan then ([n, n, n, if inv then st ||| 2 else st], xs.map fun x => (x.1, n), 0)
  else
    let m' := xs.foldl (fun a x => fpMax a x.2) (fltVal 1 m)
    let none := m' == .inf true
    let a := if none then (oneF, 0) else x2 (fltVal 1 m) m'
    let ps := xs.map fun x => (x.1, if none then (0, 0) else x2 x.2 m')
    let (pr, f1) := fpMul (fltVal 1 a.1) (fltVal 1 l)
    let (sm, f2) := fpSum (pr :: ps.map fun q => fltVal 1 q.2.1)
    let lr := finish 1 (sm, f1 ||| f2)
    ([(convTo 1 0 0 false m').1, lr.1, a.1, st], ps.map fun q => (q.1, q.2.1), ps.foldl (fun f q => f ||| q.2.2) (a.2 ||| lr.2))
/-- m, l, αe and αa, and flags, after a merge. -/
def smxMerge (m l ma la : Nat) : List Nat × Nat :=
  let n := nanCode 1
  if (fltVal 1 m).isNan || (fltVal 1 ma).isNan then ([n, n, n, n], 0)
  else
    let m' := fpMax (fltVal 1 m) (fltVal 1 ma)
    let none := m' == .inf true
    let a := if none then (oneF, 0) else x2 (fltVal 1 m) m'
    let b := if none then (oneF, 0) else x2 (fltVal 1 ma) m'
    let (p, f1) := fpMul (fltVal 1 a.1) (fltVal 1 l)
    let (q, f2) := fpMul (fltVal 1 b.1) (fltVal 1 la)
    let (sm, f3) := fpSum [p, q]
    let lr := finish 1 (sm, f1 ||| f2 ||| f3)
    ([(convTo 1 0 0 false m').1, lr.1, a.1, b.1], a.2 ||| b.2 ||| lr.2)
/-- The state register with lanes 0 to 3 replaced. -/
def smxPut (v : BitVec 512) (l : List Nat) : BitVec 512 := ((List.range 4).zip l).foldl (fun v e => setEl v 32 e.1 e.2) v
def fp32Tag (t : Nat) : Bool := t == 1
def smxChk (a : Option (BitVec 5)) (e d : BitVec 5) (r : Frame) : List (Option (Nat × Nat)) :=
  (a.toList.map fun a => r.srcBad 1 a.toNat fp32Tag) ++
    [if (r.reads e.toNat).isSome then some (4, 16) else none, r.srcBad 4 e.toNat fp32Tag, r.dstBad 0 d.toNat 1]
def vsmxStepRun (i : Instr) (d a e : BitVec 5) (p : BitVec 3) (s : State) : Res :=
  vdo i (smxChk (some a) e d) [a.toNat]
    (fun s v =>
      let on := (List.range 16).filter (s.cur.act p 1 [a.toNat, d.toNat])
      let ev := v e.toNat
      let (st, ps, fl) := smxStep (getEl ev 32 0) (getEl ev 32 1) (getEl ev 32 3) (on.map fun n => (n, fltVal 1 (getEl (v a.toNat) 32 n)))
      { d := some d.toNat, w := 32, tag := 1, flags := fl, push := some on, st := some (e.toNat, smxPut ev st),
        els := (List.range 16).map fun n => (n, ((ps.find? (·.1 = n)).map (·.2)).getD 0) }) s
/-- Where the end of a read stream a masks its lane 0 or 1, there is nothing to merge: V[e] keeps m, l and α, and elements 0 and 1 of d are
inactive; a masked lane 3 gives no status (R130, R150; DESIGN CHOICE, log 130). -/
def vsmxMergeRun (i : Instr) (d a e : BitVec 5) (s : State) : Res :=
  vdo i (smxChk (some a) e d) [a.toNat]
    (fun s v =>
      let ev := v e.toNat
      let av := v a.toNat
      let on : Bool := s.cur.lane a.toNat 32 1
      let (st, fl) := smxMerge (getEl ev 32 0) (getEl ev 32 1) (getEl av 32 0) (getEl av 32 1)
      let ml := if on then st.take 3 else (List.range 3).map (getEl ev 32)
      let status := getEl ev 32 3 ||| (if s.cur.lane a.toNat 32 3 then getEl av 32 3 else 0)
      let r (n : Nat) : Nat := if n = 0 then st.getD 2 0 else if n = 1 then st.getD 3 0 else 0
      { d := some d.toNat, w := 32, tag := 1, flags := if on then fl else 0, st := some (e.toNat, smxPut ev (ml ++ [status])),
        els := ((List.range 16).filter fun n => s.cur.lane d.toNat 32 n && (on || n ≥ 2)).map fun n => (n, r n) }) s
def vsmxFinalRun (i : Instr) (d e : BitVec 5) (s : State) : Res :=
  vdo i (smxChk none e d) []
    (fun s v =>
      let ev := v e.toNat
      let empty := fltVal 1 (getEl ev 32 0) == .inf true
      let r := if empty || !s.cur.lane d.toNat 32 0 then (0, 0) else finish 1 (specialFn 2 (fltVal 1 (getEl ev 32 1)))
      { d := some d.toNat, w := 32, tag := 1, flags := r.2,
        st := some (e.toNat, if empty then setEl ev 32 3 (getEl ev 32 3 ||| 1) else ev),
        els := ((List.range 16).filter (s.cur.lane d.toNat 32)).map fun n => (n, if n = 0 then r.1 else 0) }) s
def vsmxInitRun (i : Instr) (e : BitVec 5) (s : State) : Res :=
  vdo i (fun r => [r.dstBad 4 e.toNat 1]) []
    (fun _ _ => { d := some e.toNat, w := 32, tag := 1, els := [(0, infCode 1 + 2 ^ 31), (1, 0), (2, oneF), (3, 0)] }) s

/-! ### Random numbers, moves and tags (R144 to R146) -/

def vrandRun (i : Instr) (d : BitVec 5) (a : BitVec 6) (p : BitVec 3) (s : State) : Res :=
  vdo i (fun r => [r.dstBad 0 d.toNat 15]) []
    (fun s _ =>
      let z := elwise 16 (s.cur.act p 15 [d.toNat]) fun n => (randBits s.myCore.seed (s.x a + wd (4 * n)), 0)
      { d := some d.toNat, w := 32, tag := 15, els := z.1 }) s
def vdropRun (i : Instr) (d a : BitVec 5) (b e : BitVec 6) (p : BitVec 3) (scale : BitVec 32) (s : State) : Res :=
  let t := s.cur.rt a.toNat
  vdo i (fun r => [r.srcBad 1 a.toNat isWide, r.dstBad 0 d.toNat t]) [a.toNat]
    (fun s v =>
      let w := elemBits t
      let keep (n : Nat) : Bool := s.cur.lane a.toNat w n && s.cur.lane d.toNat w n && randBits s.myCore.seed (s.x b + wd (w / 8 * n)) < fld (s.x e) 0 32
      let z := elwise (elemCount t) (fun _ => true) fun n =>
        if keep n then finish t (fpMul (elemVal t (getEl (v a.toNat) w n)) (fltVal 1 scale.toNat)) else (0, 0)
      { d := some d.toNat, w := w, tag := t, els := z.1, flags := z.2,
        p := [(p, wd ((List.range (elemCount t)).foldl (fun m n => m + if keep n then 2 ^ n else 0) 0))] }) s
/-- Tags permuted by byte. -/
def byteTag (t : Nat) : Bool := t = 0 || t = 6 || t = 7 || t = 8 || t = 9
def vpermRun (i : Instr) (d a b : BitVec 5) (p : BitVec 3) (s : State) : Res :=
  let t := s.cur.rt a.toNat
  let w := if byteTag t then 8 else elemBits t
  let okB (u : Nat) : Bool := (u = 11 || u = 13 || u = 15) && elemBits u = w
  vdo i (fun r => [r.srcBad 1 a.toNat fun _ => true, r.srcBad 2 b.toNat okB, r.dstBad 0 d.toNat t]) [a.toNat, b.toNat]
    (fun s v =>
      let ix (n : Nat) : Nat := getEl (v b.toNat) w n
      let z := elwise (512 / w) (fun n => fld (s.cur.rp p.toNat) n 1 = 1 && s.cur.lane b.toNat w n && s.cur.lane d.toNat w n &&
          (ix n ≥ 512 / w || s.cur.lane a.toNat w (ix n))) fun n => (if ix n ≥ 512 / w then 0 else getEl (v a.toNat) w (ix n), 0)
      { d := some d.toNat, w := w, tag := t, els := z.1 }) s
def vbcastRun (i : Instr) (d : BitVec 5) (g : State → Word) (p : BitVec 3) (fmt : BitVec 4) (s : State) : Res :=
  let t := fmt.toNat
  vdo i (fun r => [r.dstBad 0 d.toNat t]) []
    (fun s _ =>
      let w := elemBits t
      let z := elwise (elemCount t) (s.cur.act p t [d.toNat]) fun _ => (fld (g s) 0 w, 0)
      { d := some d.toNat, w := w, tag := t, els := z.1 }) s
/-- An element that the stream's end masks has no stated value: a free one. Bits 7:6 of a 6-bit element are ignored (R35). -/
def vmovxRun (i : Instr) (d : BitVec 6) (a : BitVec 5) (n : BitVec 7) (s : State) : Res :=
  let t := s.cur.rt a.toNat
  let w := elemBits t
  vdo i (fun r => [r.srcBad 1 a.toNat fun _ => true]) [a.toNat]
    (fun s v =>
      let open_ := !s.cur.lane a.toNat w n.toNat
      let c := (if open_ then fld (Config.freeWord s.tick) 0 w else getEl (v a.toNat) w n.toNat) % (if t = 6 || t = 7 then 64 else 2 ^ w)
      { used := open_, x := [(d, if n.toNat ≥ elemCount t then 0#64 else if isSigned t then sext w c else wd c)] }) s
def vmovvRun (i : Instr) (d : BitVec 5) (a : BitVec 6) (n : BitVec 7) (s : State) : Res :=
  let t := s.cur.rt d.toNat
  let w := elemBits t
  vdo i (fun r => [r.dstBad 0 d.toNat t]) []
    (fun s _ => { d := some d.toNat, w := w, tag := t,
                  els := if n.toNat < elemCount t && s.cur.lane d.toNat w n.toNat then [(n.toNat, fld (s.x a) 0 w)] else [] }) s
/-- An instruction on a tile's tag acts in the matrix engine's order (R146). -/
def tileOp (i : Instr) (t : Nat) (g : State → Res) (s : State) : Res :=
  if t ≥ pwAccs s.myCore.partw then .trap s (fmtTrap i (5, 0))
  else if s.myCore.mx.queue.isEmpty && s.myCore.mx.running.isEmpty then g s
  else .hold s .stall
def fmtgetRun (i : Instr) (d : BitVec 6) (a : BitVec 5) (acc : Bool) (s : State) : Res :=
  if acc then tileOp i a.toNat (fun s => .ok (s.wvar d ((s.myCore.accTag.get a.toNat 0#4).zeroExtend 64))) s
  else
    vdo i (fun r => [r.srcBad 1 a.toNat fun _ => true]) [a.toNat] (fun s _ => { x := [(d, wd (s.cur.rt a.toNat))] }) s
/-- The bits stay; a write stream takes them as its step. -/
def fmtsetRun (i : Instr) (d : BitVec 5) (acc : Bool) (fmt : BitVec 4) (s : State) : Res :=
  if acc then tileOp i d.toNat (fun s => .ok (s.updMine fun c => { c with accTag := c.accTag.put d.toNat fmt })) s
  else vdo i (fun r => [r.dstBad 0 d.toNat fmt.toNat]) []
    (fun _ _ => { d := some d.toNat, w := 8, tag := fmt.toNat, push := some (List.range 64) }) s

/-! ### Loads and stores (R133, R134) -/

/-- Bytes of a register whose element is active. -/
def Frame.actBytes (r : Frame) (p : BitVec 3) (t g : Nat) : List Nat :=
  (List.range 64).filter fun b => r.act p t [g] (8 * b / elemBits t)
def vldRun (i : Instr) (d : BitVec 5) (a : BitVec 6) (p : BitVec 3) (fmt : BitVec 4) (off : BitVec 32) (s : State) : Res :=
  let t := fmt.toNat
  let ea := s.x a + off.signExtend 64
  match s.cur.dstBad 0 d.toNat t with
  | some b => .trap s (fmtTrap i b)
  | none =>
    let bs := s.cur.actBytes p t d.toNat
    let as := bs.map fun b => (ea + wd b).toNat
    (s.loadRun i ea as (max 1 (elemBits t / 8)) 64 0 (Straddle.vec as) State.byteNow).res fun s l =>
      vdo i (fun _ => []) [] (fun s _ =>
        { d := some d.toNat, w := 8, tag := t, els := bs.zip (l.map (·.toNat)) }) s
def vstRun (i : Instr) (d : BitVec 5) (a : BitVec 6) (p : BitVec 3) (off : BitVec 32) (s : State) : Res :=
  let t := s.cur.rt d.toNat
  let ea := s.x a + off.signExtend 64
  match s.cur.srcBad 0 d.toNat fun _ => true with
  | some b => .trap s (fmtTrap i b)
  | none => (s.pops i [d.toNat]).res fun s l =>
    let bs := s.cur.actBytes p t d.toNat
    let u := max 1 (elemBits t / 8)
    (s.storeRun i ea u (bs.map fun b => ((ea + wd b).toNat, BitVec.ofNat 8 (getEl (s.vval l d.toNat) 8 b))) u 64
      (Straddle.vec (bs.map fun b => (ea + wd b).toNat))).res
      fun s _ => .ok ((if l.isEmpty then s else s.ticked).updCur fun r => r.vput [d.toNat] l {} 0#512 false)

/-! ### VSTRM and VSTOP (R148, R149, R152) -/

/-- The eight words of a descriptor, loaded in order. -/
def State.loadWords (s : State) (i : Instr) (ea : Word) : Nat → Got (List Word)
  | 0 => .got s []
  | n + 1 => (s.load i ea 8 0 regLoad).bind fun s v => (s.loadWords i (ea + 8#64) n).bind fun s l => .got s (wd v :: l)
structure SDesc where
  st : Stream
  levels : Nat
  bad : Bool
def mkStream (l : List Word) : SDesc :=
  let g (n : Nat) : Word := l.getD n 0#64
  let lv := fld (g 1) 5 2
  let n (k : Nat) : Nat := match k with | 0 => fld (g 2) 0 32 | 1 => fld (g 2) 32 32 | _ => fld (g 3) 0 32
  let cnt (k : Nat) : Nat := if k < lv then n k else 1
  { levels := lv,
    st := { base := g 0, write := fld (g 1) 4 1 = 1, fmt := BitVec.ofNat 4 (fld (g 1) 0 4), n0 := cnt 0, n1 := cnt 1, n2 := cnt 2,
            s0 := g 4, s1 := g 5, s2 := g 6, pos := 0 },
    bad := lv = 0 || fld (g 1) 7 57 ≠ 0 || fld (g 3) 32 32 ≠ 0 || g 7 ≠ 0#64 ||
      (List.range 3).any fun k => if k < lv then n k = 0 else n k ≠ 0 || g (4 + k) ≠ 0#64 }
/-- A store of the issuing firing is not performed yet. -/
def State.ownDue (s : State) : Bool :=
  s.myCore.slog.l.any (fun e => e.2.frame = s.fi && !e.2.gone && !e.2.biv) ||
    s.peers.l.any (fun p => p.2.pending.any fun q => q.core = s.turn && q.frame = s.fi) || s.rdup.any fun r => r.core = s.turn
/-- Run-ahead reads may see memory as it stands at the VSTRM; where a store of the firing is not in it yet they are made at the pop
(R153, log 131). -/
def State.streamSnap (s : State) (st : Stream) : Option (List Host.Cell) := if st.write || s.ownDue then none else some s.mem
/-- A descriptor that fails both tests raises FORMAT (DESIGN CHOICE, log 151). -/
def vstrmRun (i : Instr) (d : BitVec 5) (a : BitVec 6) (off : BitVec 32) (s : State) : Res :=
  let ea := s.x a + off.signExtend 64
  if (s.cur.writes d.toNat).isSome && s.ownDue then .hold s .stall
  else (s.loadWords i ea 8).res fun s l =>
    let q := mkStream l
    if q.bad then .trap s (fmtTrap i (1, q.st.fmt.toNat))
    else if (l.getD 0 0#64 :: (l.drop 4).take q.levels).any fun v => v.toNat % q.st.unit ≠ 0 then .trap s ⟨3, q.st.base, w0 i, 0#64⟩
    else .ok (s.updCur fun r => { r with streams := r.streams.put d.toNat { q.st with snap := s.streamSnap q.st }, vtag := r.vtag.put d.toNat q.st.fmt, seq := (64 + d.toNat) :: r.seq })
/-- The wait is for every pushed unit to be performed. -/
def vstopRun (d : BitVec 6) (a : BitVec 5) (s : State) : Res :=
  match s.cur.stream a.toNat with
  | none => .ok (s.wvar d 0#64)
  | some st =>
    if st.write && s.ownDue then .hold s .stall
    else .ok ((s.updCur fun r => { r with streams := r.streams.del a.toNat }).wvar d (wd (min (st.total - st.pos) (2 ^ 64 - 1))))

/-! ### VLOOP (R154 to R156) -/

/-- The meaning of an instruction that a loop body may hold. -/
def bodyOf : Instr → Option (State → Res)
  | .vadd m d a b p => some (vfltRun (.vadd m d a b p) d a (some b) false p fun _ x y => fpAdd x y)
  | .vsub m d a b p => some (vfltRun (.vsub m d a b p) d a (some b) false p fun _ x y => fpAdd x y.neg)
  | .vmul m d a b p => some (vfltRun (.vmul m d a b p) d a (some b) false p fun _ x y => fpMul x y)
  | .vmax m d a b p => some (vfltRun (.vmax m d a b p) d a (some b) false p fun _ x y => (fpMax x y, 0))
  | .vmin m d a b p => some (vfltRun (.vmin m d a b p) d a (some b) false p fun _ x y => (fpMin x y, 0))
  | .vabs m d a p => some (vfltRun (.vabs m d a p) d a none false p fun _ x _ => (x.abs, 0))
  | .vneg m d a p => some (vfltRun (.vneg m d a p) d a none false p fun _ x _ => (x.neg, 0))
  | .vfma m d a b p => some (vfltRun (.vfma m d a b p) d a (some b) true p fun z x y => fpFma z x y)
  | .vfms m d a b p => some (vfltRun (.vfms m d a b p) d a (some b) true p fun z x y => fpFma z x.neg y)
  | .viadd m d a b p => some (vintRun (.viadd m d a b p) d a b p isInt sameTag fun _ x y => x + y)
  | .visub m d a b p => some (vintRun (.visub m d a b p) d a b p isInt sameTag fun t x y => x + 2 ^ elemBits t - y)
  | .vimul m d a b p => some (vintRun (.vimul m d a b p) d a b p isInt sameTag fun _ x y => x * y)
  | .vand m d a b p => some (vintRun (.vand m d a b p) d a b p (fun _ => true) sameTag fun _ x y => x &&& y)
  | .vor m d a b p => some (vintRun (.vor m d a b p) d a b p (fun _ => true) sameTag fun _ x y => x ||| y)
  | .vxor m d a b p => some (vintRun (.vxor m d a b p) d a b p (fun _ => true) sameTag fun _ x y => x ^^^ y)
  | .vshl m d a b p => some (vintRun (.vshl m d a b p) d a b p isInt shiftTag shlEl)
  | .vshr m d a b p => some (vintRun (.vshr m d a b p) d a b p isInt shiftTag shrEl)
  | .vcmp m c d a b p => some (vcmpRun (.vcmp m c d a b p) c d a b p)
  | .vsel m d a b p => some (vselRun (.vsel m d a b p) d a b p)
  | .vcvt m d a b p part mode fmt => if b = 0#6 then some (vcvtRun (.vcvt m d a b p part mode fmt) d a b p part mode fmt) else none
  | .vexp2 m d a p => some (vspecRun (.vexp2 m d a p) 0 d a p)
  | .vlog2 m d a p => some (vspecRun (.vlog2 m d a p) 1 d a p)
  | .vrcp m d a p => some (vspecRun (.vrcp m d a p) 2 d a p)
  | .vrsq m d a p => some (vspecRun (.vrsq m d a p) 3 d a p)
  | .vtanh m d a p => some (vspecRun (.vtanh m d a p) 4 d a p)
  | .vred m d a p op => some (vredRun (.vred m d a p op) d a p op)
  | .vsmxStep m d a e p => some (vsmxStepRun (.vsmxStep m d a e p) d a e p)
  | .vsmxMerge m d a e => some (vsmxMergeRun (.vsmxMerge m d a e) d a e)
  | .vsmxFinal m d e => some (vsmxFinalRun (.vsmxFinal m d e) d e)
  | .vsmxInit m e => some (vsmxInitRun (.vsmxInit m e) e)
  | .vperm m d a b p => some (vpermRun (.vperm m d a b p) d a b p)
  | .fmtset m d acc fmt => some (fmtsetRun (.fmtset m d acc fmt) d acc fmt)
  | .vclz m w d a p => some (vbitRun (.vclz m w d a p) 0 w d a p)
  | .vffs m w d a p => some (vbitRun (.vffs m w d a p) 1 w d a p)
  | .vpopc m w d a p => some (vbitRun (.vpopc m w d a p) 2 w d a p)
  | _ => none
/-- Why a body word is refused (R155): a number of R46, 4 or 5. -/
def bodyBad (l : List (BitVec 32)) : Option Nat :=
  match wordsInstr l with
  | .undefinedEncoding _ _ c => some c
  | j => if (bodyOf j).isNone then some 4 else if fS (l.getD 0 0#32) then some 5 else none
/-- What a body word does at each pass. -/
def bodyFn (l : List (BitVec 32)) : State → Res := (bodyOf (wordsInstr l)).getD fun s => .ok s
/-- The pc after a loop that stands at `pc`, with these words in its body. -/
def loopEnd (pc : Word) (b : List (List (BitVec 32))) : Word := b.foldl (fun p l => p + wd (4 * l.length)) (pc + 12#64)
/-- The words of the body's instructions, or what the VLOOP does instead. A body word that cannot be fetched faults at the VLOOP, whose
address epc shows (DESIGN CHOICE, log 132). -/
def State.loopBody (s : State) (i : Instr) (pc : Nat) : Nat → Got (List (List (BitVec 32)))
  | 0 => .got s []
  | n + 1 => match s.fetch s.turn s.fi pc with
    | .error e => .stop (.gone (s.fetchFail e.1 e.2))
    | .ok l =>
      match bodyBad l with
      | some c => .stop (.trap s ⟨1, w0 i, wd c, (l.getD 0 0#32).zeroExtend 64⟩)
      | none => ((s.fetched pc).loopBody i (pc + 4 * l.length) n).bind fun s r => .got s (l :: r)
/-- How far a loop has come: it ended, a body instruction trapped, or it waits at iteration and index. -/
inductive LoopR where
  | fin (s : State)
  | trap (s : State) (t : Trap)
  | hold (s : State) (h : Hold) (it k : Nat)
/-- One pass through the body from index `k`. -/
def loopPass (it : Nat) : Nat → List (State → Res) → State → LoopR
  | _, [], s => .fin s
  | k, g :: r, s => match g s with
    | .ok s => loopPass it (k + 1) r s
    | .trap s t => .trap s t
    | .hold s h => .hold s h it k
    | .to s _ => .fin s
    | .gone s => .fin s
/-- `n` more passes, the first from index `k`. -/
def loopRun (body : List (State → Res)) : Nat → Nat → Nat → State → LoopR
  | 0, _, _, s => .fin s
  | n + 1, it, k, s => match loopPass it k (body.drop k) s with
    | .fin s => loopRun body n (it + 1) 0 s
    | r => r
/-- The body a VLOOP has handed over, or hands over now (R154). -/
def State.loopWords (s : State) (i : Instr) (cnt : BitVec 4) : Got (List (List (BitVec 32))) :=
  match s.cur.loopW with
  | _ :: b => .got s b
  | [] => s.loopBody i (s.cur.pc.toNat + 12) (cnt.toNat + 1)
/-- The loop is over. -/
def Frame.unloop (r : Frame) : Frame := { r with vloop := none, loopW := [] }
/-- A body instruction's fault stops the loop and waits for the group boundary (R156). -/
def Frame.bodyFault (r : Frame) (t : Trap) : Frame :=
  { r.unloop with deferred := r.deferred ++ [t], body := r.body.orElse fun _ => some t }
/-- A loop whose body waited behind a store that failed has stopped (log 124). -/
def vloopRun (i : Instr) (a : BitVec 6) (cnt : BitVec 4) (s : State) : Res :=
  (s.loopWords i cnt).res fun s b =>
    let p := s.cur.vloop.getD (0, 0)
    let pc := loopEnd s.cur.pc b
    if s.cur.saved = [60] then .to (s.updCur (·.unloop)) pc
    else match loopRun (b.map bodyFn) (fld (s.x a) 0 32 - p.1) p.1 p.2 s with
    | .fin s => .to (s.updCur (·.unloop)) pc
    | .trap s t => .to (s.updCur (·.bodyFault t)) pc
    | .hold s h it k => .hold (s.updCur fun f => { f with vloop := some (it, k), loopW := encode i :: b }) h

/-! ### Instructions -/

def execVld (m : Bool) (d : BitVec 5) (a : BitVec 6) (p : BitVec 3) (fmt : BitVec 4) (off : BitVec 32) (s : State) : Out :=
  issue m 12 (.vld m d a p fmt off) [rX a] (vldRun (.vld m d a p fmt off) d a p fmt off) s
def execVst (m : Bool) (d : BitVec 5) (a : BitVec 6) (p : BitVec 3) (off : BitVec 32) (s : State) : Out :=
  issue m 12 (.vst m d a p off) [rX a] (vstRun (.vst m d a p off) d a p off) s
def execVadd (m : Bool) (d a b : BitVec 5) (p : BitVec 3) (s : State) : Out :=
  issue m 4 (.vadd m d a b p) [] (vfltRun (.vadd m d a b p) d a (some b) false p fun _ x y => fpAdd x y) s
def execVsub (m : Bool) (d a b : BitVec 5) (p : BitVec 3) (s : State) : Out :=
  issue m 4 (.vsub m d a b p) [] (vfltRun (.vsub m d a b p) d a (some b) false p fun _ x y => fpAdd x y.neg) s
def execVmul (m : Bool) (d a b : BitVec 5) (p : BitVec 3) (s : State) : Out :=
  issue m 4 (.vmul m d a b p) [] (vfltRun (.vmul m d a b p) d a (some b) false p fun _ x y => fpMul x y) s
def execVmax (m : Bool) (d a b : BitVec 5) (p : BitVec 3) (s : State) : Out :=
  issue m 4 (.vmax m d a b p) [] (vfltRun (.vmax m d a b p) d a (some b) false p fun _ x y => (fpMax x y, 0)) s
def execVmin (m : Bool) (d a b : BitVec 5) (p : BitVec 3) (s : State) : Out :=
  issue m 4 (.vmin m d a b p) [] (vfltRun (.vmin m d a b p) d a (some b) false p fun _ x y => (fpMin x y, 0)) s
def execVabs (m : Bool) (d a : BitVec 5) (p : BitVec 3) (s : State) : Out :=
  issue m 4 (.vabs m d a p) [] (vfltRun (.vabs m d a p) d a none false p fun _ x _ => (x.abs, 0)) s
def execVneg (m : Bool) (d a : BitVec 5) (p : BitVec 3) (s : State) : Out :=
  issue m 4 (.vneg m d a p) [] (vfltRun (.vneg m d a p) d a none false p fun _ x _ => (x.neg, 0)) s
def execVfma (m : Bool) (d a b : BitVec 5) (p : BitVec 3) (s : State) : Out :=
  issue m 4 (.vfma m d a b p) [] (vfltRun (.vfma m d a b p) d a (some b) true p fun z x y => fpFma z x y) s
def execVfms (m : Bool) (d a b : BitVec 5) (p : BitVec 3) (s : State) : Out :=
  issue m 4 (.vfms m d a b p) [] (vfltRun (.vfms m d a b p) d a (some b) true p fun z x y => fpFma z x.neg y) s
def execViadd (m : Bool) (d a b : BitVec 5) (p : BitVec 3) (s : State) : Out :=
  issue m 4 (.viadd m d a b p) [] (vintRun (.viadd m d a b p) d a b p isInt sameTag fun _ x y => x + y) s
def execVisub (m : Bool) (d a b : BitVec 5) (p : BitVec 3) (s : State) : Out :=
  issue m 4 (.visub m d a b p) [] (vintRun (.visub m d a b p) d a b p isInt sameTag fun t x y => x + 2 ^ elemBits t - y) s
def execVimul (m : Bool) (d a b : BitVec 5) (p : BitVec 3) (s : State) : Out :=
  issue m 4 (.vimul m d a b p) [] (vintRun (.vimul m d a b p) d a b p isInt sameTag fun _ x y => x * y) s
def execVand (m : Bool) (d a b : BitVec 5) (p : BitVec 3) (s : State) : Out :=
  issue m 4 (.vand m d a b p) [] (vintRun (.vand m d a b p) d a b p (fun _ => true) sameTag fun _ x y => x &&& y) s
def execVor (m : Bool) (d a b : BitVec 5) (p : BitVec 3) (s : State) : Out :=
  issue m 4 (.vor m d a b p) [] (vintRun (.vor m d a b p) d a b p (fun _ => true) sameTag fun _ x y => x ||| y) s
def execVxor (m : Bool) (d a b : BitVec 5) (p : BitVec 3) (s : State) : Out :=
  issue m 4 (.vxor m d a b p) [] (vintRun (.vxor m d a b p) d a b p (fun _ => true) sameTag fun _ x y => x ^^^ y) s
def execVshl (m : Bool) (d a b : BitVec 5) (p : BitVec 3) (s : State) : Out :=
  issue m 4 (.vshl m d a b p) [] (vintRun (.vshl m d a b p) d a b p isInt shiftTag shlEl) s
def execVshr (m : Bool) (d a b : BitVec 5) (p : BitVec 3) (s : State) : Out :=
  issue m 4 (.vshr m d a b p) [] (vintRun (.vshr m d a b p) d a b p isInt shiftTag shrEl) s
def execVcmp (m : Bool) (cond : BitVec 4) (d : BitVec 3) (a b : BitVec 5) (p : BitVec 3) (s : State) : Out :=
  issue m 4 (.vcmp m cond d a b p) [] (vcmpRun (.vcmp m cond d a b p) cond d a b p) s
def execVsel (m : Bool) (d a b : BitVec 5) (p : BitVec 3) (s : State) : Out :=
  issue m 4 (.vsel m d a b p) [] (vselRun (.vsel m d a b p) d a b p) s
def execVcvt (m : Bool) (d a : BitVec 5) (b : BitVec 6) (p part mode : BitVec 3) (fmt : BitVec 4) (s : State) : Out :=
  issue m 12 (.vcvt m d a b p part mode fmt) [rX b] (vcvtRun (.vcvt m d a b p part mode fmt) d a b p part mode fmt) s
def execVqnt (m : Bool) (d a : BitVec 5) (b e : BitVec 6) (part mode : BitVec 3) (fmt : BitVec 4) (s : State) : Out :=
  issue m 12 (.vqnt m d a b e part mode fmt) [rX b, rX e] (vqntRun (.vqnt m d a b e part mode fmt) d a b e part mode fmt) s
def execVdqnt (m : Bool) (d a : BitVec 5) (b e : BitVec 6) (p part mode : BitVec 3) (fmt : BitVec 4) (s : State) : Out :=
  issue m 12 (.vdqnt m d a b e p part mode fmt) [rX b, rX e] (vdqntRun (.vdqnt m d a b e p part mode fmt) d a b e p part mode fmt) s
def execVexp2 (m : Bool) (d a : BitVec 5) (p : BitVec 3) (s : State) : Out := issue m 4 (.vexp2 m d a p) [] (vspecRun (.vexp2 m d a p) 0 d a p) s
def execVlog2 (m : Bool) (d a : BitVec 5) (p : BitVec 3) (s : State) : Out := issue m 4 (.vlog2 m d a p) [] (vspecRun (.vlog2 m d a p) 1 d a p) s
def execVrcp (m : Bool) (d a : BitVec 5) (p : BitVec 3) (s : State) : Out := issue m 4 (.vrcp m d a p) [] (vspecRun (.vrcp m d a p) 2 d a p) s
def execVrsq (m : Bool) (d a : BitVec 5) (p : BitVec 3) (s : State) : Out := issue m 4 (.vrsq m d a p) [] (vspecRun (.vrsq m d a p) 3 d a p) s
def execVtanh (m : Bool) (d a : BitVec 5) (p : BitVec 3) (s : State) : Out := issue m 4 (.vtanh m d a p) [] (vspecRun (.vtanh m d a p) 4 d a p) s
def execVred (m : Bool) (d a : BitVec 5) (p : BitVec 3) (op : BitVec 4) (s : State) : Out :=
  issue m 12 (.vred m d a p op) [] (vredRun (.vred m d a p op) d a p op) s
def execVsmxStep (m : Bool) (d a e : BitVec 5) (p : BitVec 3) (s : State) : Out :=
  issue m 12 (.vsmxStep m d a e p) [] (vsmxStepRun (.vsmxStep m d a e p) d a e p) s
def execVsmxMerge (m : Bool) (d a e : BitVec 5) (s : State) : Out :=
  issue m 12 (.vsmxMerge m d a e) [] (vsmxMergeRun (.vsmxMerge m d a e) d a e) s
def execVsmxFinal (m : Bool) (d e : BitVec 5) (s : State) : Out := issue m 12 (.vsmxFinal m d e) [] (vsmxFinalRun (.vsmxFinal m d e) d e) s
def execVsmxInit (m : Bool) (e : BitVec 5) (s : State) : Out := issue m 12 (.vsmxInit m e) [] (vsmxInitRun (.vsmxInit m e) e) s
def execVrand (m : Bool) (d : BitVec 5) (a : BitVec 6) (p : BitVec 3) (s : State) : Out :=
  issue m 12 (.vrand m d a p) [rX a] (vrandRun (.vrand m d a p) d a p) s
def execVdrop (m : Bool) (d a : BitVec 5) (b e : BitVec 6) (p : BitVec 3) (scale : BitVec 32) (s : State) : Out :=
  issue m 12 (.vdrop m d a b e p scale) [rX b, rX e] (vdropRun (.vdrop m d a b e p scale) d a b e p scale) s
def execVperm (m : Bool) (d a b : BitVec 5) (p : BitVec 3) (s : State) : Out := issue m 12 (.vperm m d a b p) [] (vpermRun (.vperm m d a b p) d a b p) s
def execVbcast (m : Bool) (d : BitVec 5) (a : BitVec 6) (p : BitVec 3) (fmt : BitVec 4) (s : State) : Out :=
  issue m 12 (.vbcast m d a p fmt) [rX a] (vbcastRun (.vbcast m d a p fmt) d (fun s => s.x a) p fmt) s
def execVbcastLit (m : Bool) (d : BitVec 5) (p : BitVec 3) (fmt : BitVec 4) (lit : Word) (s : State) : Out :=
  issue m 20 (.vbcastLit m d p fmt lit) [] (vbcastRun (.vbcastLit m d p fmt lit) d (fun _ => lit) p fmt) s
def execVmovx (m : Bool) (d : BitVec 6) (a : BitVec 5) (n : BitVec 7) (s : State) : Out :=
  issue m 12 (.vmovx m d a n) [rX d] (vmovxRun (.vmovx m d a n) d a n) s
def execVmovv (m : Bool) (d : BitVec 5) (a : BitVec 6) (n : BitVec 7) (s : State) : Out :=
  issue m 12 (.vmovv m d a n) [rX a] (vmovvRun (.vmovv m d a n) d a n) s
def execFmtget (m : Bool) (d : BitVec 6) (a : BitVec 5) (acc : Bool) (s : State) : Out :=
  issue m 12 (.fmtget m d a acc) [rX d] (fmtgetRun (.fmtget m d a acc) d a acc) s
def execFmtset (m : Bool) (d : BitVec 5) (acc : Bool) (fmt : BitVec 4) (s : State) : Out :=
  issue m 12 (.fmtset m d acc fmt) [] (fmtsetRun (.fmtset m d acc fmt) d acc fmt) s
def execVloop (m : Bool) (a : BitVec 6) (cnt : BitVec 4) (s : State) : Out :=
  issue m 12 (.vloop m a cnt) [rX a] (vloopRun (.vloop m a cnt) a cnt) s
def execVstrm (m : Bool) (d : BitVec 5) (a : BitVec 6) (off : BitVec 32) (s : State) : Out :=
  issue m 12 (.vstrm m d a off) [rX a] (vstrmRun (.vstrm m d a off) d a off) s
def execVstop (m : Bool) (d : BitVec 6) (a : BitVec 5) (s : State) : Out := issue m 12 (.vstop m d a) [rX d] (vstopRun d a) s
def execVclz (m : Bool) (w : BitVec 2) (d a : BitVec 5) (p : BitVec 3) (s : State) : Out :=
  issue m 4 (.vclz m w d a p) [] (vbitRun (.vclz m w d a p) 0 w d a p) s
def execVffs (m : Bool) (w : BitVec 2) (d a : BitVec 5) (p : BitVec 3) (s : State) : Out :=
  issue m 4 (.vffs m w d a p) [] (vbitRun (.vffs m w d a p) 1 w d a p) s
def execVpopc (m : Bool) (w : BitVec 2) (d a : BitVec 5) (p : BitVec 3) (s : State) : Out :=
  issue m 4 (.vpopc m w d a p) [] (vbitRun (.vpopc m w d a p) 2 w d a p) s

end Sys2Proof.Machine
end

