-- ==== Sys2Proof/Machine/Dispatch.lean ====
section
/-! DEFINITION. The meaning of every instruction: one arm per constructor. -/
namespace Sys2Proof.Machine

def exec (i : Instr) (s : State) : Host.Outcome State Fault Refusal :=
  match i with
  | .nop m => Sys2Proof.Machine.execNop m s
  | .align m n => Sys2Proof.Machine.execAlign m n s
  | .endFiring m => Sys2Proof.Machine.execEndFiring m s
  | .yield m => Sys2Proof.Machine.execYield m s
  | .add m d a b => Sys2Proof.Machine.execAdd m d a b s
  | .sub m d a b => Sys2Proof.Machine.execSub m d a b s
  | .mul m d a b => Sys2Proof.Machine.execMul m d a b s
  | .mulh m d a b => Sys2Proof.Machine.execMulh m d a b s
  | .mulhn m d a b => Sys2Proof.Machine.execMulhn m d a b s
  | .div m d a b => Sys2Proof.Machine.execDiv m d a b s
  | .divn m d a b => Sys2Proof.Machine.execDivn m d a b s
  | .rem m d a b => Sys2Proof.Machine.execRem m d a b s
  | .remn m d a b => Sys2Proof.Machine.execRemn m d a b s
  | .min m d a b => Sys2Proof.Machine.execMin m d a b s
  | .max m d a b => Sys2Proof.Machine.execMax m d a b s
  | .minn m d a b => Sys2Proof.Machine.execMinn m d a b s
  | .maxn m d a b => Sys2Proof.Machine.execMaxn m d a b s
  | .slt m d a b => Sys2Proof.Machine.execSlt m d a b s
  | .sltn m d a b => Sys2Proof.Machine.execSltn m d a b s
  | .and m d a b => Sys2Proof.Machine.execAnd m d a b s
  | .or m d a b => Sys2Proof.Machine.execOr m d a b s
  | .xor m d a b => Sys2Proof.Machine.execXor m d a b s
  | .andn m d a b => Sys2Proof.Machine.execAndn m d a b s
  | .orn m d a b => Sys2Proof.Machine.execOrn m d a b s
  | .sll m d a b => Sys2Proof.Machine.execSll m d a b s
  | .srl m d a b => Sys2Proof.Machine.execSrl m d a b s
  | .sra m d a b => Sys2Proof.Machine.execSra m d a b s
  | .rol m d a b => Sys2Proof.Machine.execRol m d a b s
  | .ror m d a b => Sys2Proof.Machine.execRor m d a b s
  | .clz m w d a => Sys2Proof.Machine.execClz m w d a s
  | .ffs m w d a => Sys2Proof.Machine.execFfs m w d a s
  | .popc m w d a => Sys2Proof.Machine.execPopc m w d a s
  | .brev m w d a => Sys2Proof.Machine.execBrev m w d a s
  | .addi m d a imm => Sys2Proof.Machine.execAddi m d a imm s
  | .addiLit m d a lit => Sys2Proof.Machine.execAddiLit m d a lit s
  | .andi m d a imm => Sys2Proof.Machine.execAndi m d a imm s
  | .andiLit m d a lit => Sys2Proof.Machine.execAndiLit m d a lit s
  | .ori m d a imm => Sys2Proof.Machine.execOri m d a imm s
  | .oriLit m d a lit => Sys2Proof.Machine.execOriLit m d a lit s
  | .xori m d a imm => Sys2Proof.Machine.execXori m d a imm s
  | .xoriLit m d a lit => Sys2Proof.Machine.execXoriLit m d a lit s
  | .slti m d a imm => Sys2Proof.Machine.execSlti m d a imm s
  | .sltiLit m d a lit => Sys2Proof.Machine.execSltiLit m d a lit s
  | .slli m d a amt => Sys2Proof.Machine.execSlli m d a amt s
  | .srli m d a amt => Sys2Proof.Machine.execSrli m d a amt s
  | .srai m d a amt => Sys2Proof.Machine.execSrai m d a amt s
  | .limm m d imm => Sys2Proof.Machine.execLimm m d imm s
  | .limmLit m d lit => Sys2Proof.Machine.execLimmLit m d lit s
  | .adpc m d imm => Sys2Proof.Machine.execAdpc m d imm s
  | .bfx m d a sx len pos => Sys2Proof.Machine.execBfx m d a sx len pos s
  | .bfi m d a len pos => Sys2Proof.Machine.execBfi m d a len pos s
  | .sextB m d a => Sys2Proof.Machine.execSextB m d a s
  | .sextH m d a => Sys2Proof.Machine.execSextH m d a s
  | .sextW m d a => Sys2Proof.Machine.execSextW m d a s
  | .zextB m d a => Sys2Proof.Machine.execZextB m d a s
  | .zextH m d a => Sys2Proof.Machine.execZextH m d a s
  | .zextW m d a => Sys2Proof.Machine.execZextW m d a s
  | .br m off => Sys2Proof.Machine.execBr m off s
  | .beqz m a off => Sys2Proof.Machine.execBeqz m a off s
  | .bnez m a off => Sys2Proof.Machine.execBnez m a off s
  | .bltz m a off => Sys2Proof.Machine.execBltz m a off s
  | .bgez m a off => Sys2Proof.Machine.execBgez m a off s
  | .bgtz m a off => Sys2Proof.Machine.execBgtz m a off s
  | .blez m a off => Sys2Proof.Machine.execBlez m a off s
  | .bpany m p off => Sys2Proof.Machine.execBpany m p off s
  | .bpnone m p off => Sys2Proof.Machine.execBpnone m p off s
  | .bcmp m cond a b off => Sys2Proof.Machine.execBcmp m cond a b off s
  | .call m off => Sys2Proof.Machine.execCall m off s
  | .jr m a => Sys2Proof.Machine.execJr m a s
  | .ret m => Sys2Proof.Machine.execRet m s
  | .callr m a => Sys2Proof.Machine.execCallr m a s
  | .jtab m a b len => Sys2Proof.Machine.execJtab m a b len s
  | .trap m a => Sys2Proof.Machine.execTrap m a s
  | .eret m => Sys2Proof.Machine.execEret m s
  | .csrr m d csr => Sys2Proof.Machine.execCsrr m d csr s
  | .csrw m a csr => Sys2Proof.Machine.execCsrw m a csr s
  | .csrx m d a csr => Sys2Proof.Machine.execCsrx m d a csr s
  | .ld m t a size ord off => Sys2Proof.Machine.execLd m t a size ord off s
  | .ldLit m t a size ord lit => Sys2Proof.Machine.execLdLit m t a size ord lit s
  | .ldz m t a size ord off => Sys2Proof.Machine.execLdz m t a size ord off s
  | .ldzLit m t a size ord lit => Sys2Proof.Machine.execLdzLit m t a size ord lit s
  | .st m t a size ord off => Sys2Proof.Machine.execSt m t a size ord off s
  | .stLit m t a size ord lit => Sys2Proof.Machine.execStLit m t a size ord lit s
  | .pref m a size off => Sys2Proof.Machine.execPref m a size off s
  | .prefLit m a size lit => Sys2Proof.Machine.execPrefLit m a size lit s
  | .amoadd m d a b size scope ord off => Sys2Proof.Machine.execAmoadd m d a b size scope ord off s
  | .amoand m d a b size scope ord off => Sys2Proof.Machine.execAmoand m d a b size scope ord off s
  | .amoor m d a b size scope ord off => Sys2Proof.Machine.execAmoor m d a b size scope ord off s
  | .amoxor m d a b size scope ord off => Sys2Proof.Machine.execAmoxor m d a b size scope ord off s
  | .amomin m d a b size scope ord off => Sys2Proof.Machine.execAmomin m d a b size scope ord off s
  | .amomax m d a b size scope ord off => Sys2Proof.Machine.execAmomax m d a b size scope ord off s
  | .amominn m d a b size scope ord off => Sys2Proof.Machine.execAmominn m d a b size scope ord off s
  | .amomaxn m d a b size scope ord off => Sys2Proof.Machine.execAmomaxn m d a b size scope ord off s
  | .amoswp m d a b size scope ord off => Sys2Proof.Machine.execAmoswp m d a b size scope ord off s
  | .amocas m d a b c size scope ord off => Sys2Proof.Machine.execAmocas m d a b c size scope ord off s
  | .amofadd m d a b ft size scope ord off => Sys2Proof.Machine.execAmofadd m d a b ft size scope ord off s
  | .fence m kind scope => Sys2Proof.Machine.execFence m kind scope s
  | .waita m d a b e c cond size scope ord imm => Sys2Proof.Machine.execWaita m d a b e c cond size scope ord imm s
  | .waitaLit m d a b e c cond size scope ord lit => Sys2Proof.Machine.execWaitaLit m d a b e c cond size scope ord lit s
  | .bar m d => Sys2Proof.Machine.execBar m d s
  | .bararv m d => Sys2Proof.Machine.execBararv m d s
  | .barwt m d a b => Sys2Proof.Machine.execBarwt m d a b s
  | .vld m d a p fmt off => Sys2Proof.Machine.execVld m d a p fmt off s
  | .vst m d a p off => Sys2Proof.Machine.execVst m d a p off s
  | .vadd m d a b p => Sys2Proof.Machine.execVadd m d a b p s
  | .vsub m d a b p => Sys2Proof.Machine.execVsub m d a b p s
  | .vmul m d a b p => Sys2Proof.Machine.execVmul m d a b p s
  | .vmax m d a b p => Sys2Proof.Machine.execVmax m d a b p s
  | .vmin m d a b p => Sys2Proof.Machine.execVmin m d a b p s
  | .vabs m d a p => Sys2Proof.Machine.execVabs m d a p s
  | .vneg m d a p => Sys2Proof.Machine.execVneg m d a p s
  | .vfma m d a b p => Sys2Proof.Machine.execVfma m d a b p s
  | .vfms m d a b p => Sys2Proof.Machine.execVfms m d a b p s
  | .viadd m d a b p => Sys2Proof.Machine.execViadd m d a b p s
  | .visub m d a b p => Sys2Proof.Machine.execVisub m d a b p s
  | .vimul m d a b p => Sys2Proof.Machine.execVimul m d a b p s
  | .vand m d a b p => Sys2Proof.Machine.execVand m d a b p s
  | .vor m d a b p => Sys2Proof.Machine.execVor m d a b p s
  | .vxor m d a b p => Sys2Proof.Machine.execVxor m d a b p s
  | .vshl m d a b p => Sys2Proof.Machine.execVshl m d a b p s
  | .vshr m d a b p => Sys2Proof.Machine.execVshr m d a b p s
  | .vcmp m cond d a b p => Sys2Proof.Machine.execVcmp m cond d a b p s
  | .vsel m d a b p => Sys2Proof.Machine.execVsel m d a b p s
  | .vcvt m d a b p part mode fmt => Sys2Proof.Machine.execVcvt m d a b p part mode fmt s
  | .vqnt m d a b e part mode fmt => Sys2Proof.Machine.execVqnt m d a b e part mode fmt s
  | .vdqnt m d a b e p part mode fmt => Sys2Proof.Machine.execVdqnt m d a b e p part mode fmt s
  | .vexp2 m d a p => Sys2Proof.Machine.execVexp2 m d a p s
  | .vlog2 m d a p => Sys2Proof.Machine.execVlog2 m d a p s
  | .vrcp m d a p => Sys2Proof.Machine.execVrcp m d a p s
  | .vrsq m d a p => Sys2Proof.Machine.execVrsq m d a p s
  | .vtanh m d a p => Sys2Proof.Machine.execVtanh m d a p s
  | .vred m d a p op => Sys2Proof.Machine.execVred m d a p op s
  | .vsmxStep m d a e p => Sys2Proof.Machine.execVsmxStep m d a e p s
  | .vsmxMerge m d a e => Sys2Proof.Machine.execVsmxMerge m d a e s
  | .vsmxFinal m d e => Sys2Proof.Machine.execVsmxFinal m d e s
  | .vsmxInit m e => Sys2Proof.Machine.execVsmxInit m e s
  | .vrand m d a p => Sys2Proof.Machine.execVrand m d a p s
  | .vdrop m d a b e p scale => Sys2Proof.Machine.execVdrop m d a b e p scale s
  | .vperm m d a b p => Sys2Proof.Machine.execVperm m d a b p s
  | .vbcast m d a p fmt => Sys2Proof.Machine.execVbcast m d a p fmt s
  | .vbcastLit m d p fmt lit => Sys2Proof.Machine.execVbcastLit m d p fmt lit s
  | .vmovx m d a n => Sys2Proof.Machine.execVmovx m d a n s
  | .vmovv m d a n => Sys2Proof.Machine.execVmovv m d a n s
  | .fmtget m d a acc => Sys2Proof.Machine.execFmtget m d a acc s
  | .fmtset m d acc fmt => Sys2Proof.Machine.execFmtset m d acc fmt s
  | .vloop m a cnt => Sys2Proof.Machine.execVloop m a cnt s
  | .vstrm m d a off => Sys2Proof.Machine.execVstrm m d a off s
  | .vstop m d a => Sys2Proof.Machine.execVstop m d a s
  | .vclz m w d a p => Sys2Proof.Machine.execVclz m w d a p s
  | .vffs m w d a p => Sys2Proof.Machine.execVffs m w d a p s
  | .vpopc m w d a p => Sys2Proof.Machine.execVpopc m w d a p s
  | .mxmul m a b e c => Sys2Proof.Machine.execMxmul m a b e c s
  | .mxspm m a b e c => Sys2Proof.Machine.execMxspm m a b e c s
  | .mxdrn m a b c => Sys2Proof.Machine.execMxdrn m a b c s
  | .mxclr m d i32 => Sys2Proof.Machine.execMxclr m d i32 s
  | .mxwait m d => Sys2Proof.Machine.execMxwait m d s
  | .mxstat m d => Sys2Proof.Machine.execMxstat m d s
  | .mxrem m d a b e c => Sys2Proof.Machine.execMxrem m d a b e c s
  | .cpy m a b e c => Sys2Proof.Machine.execCpy m a b e c s
  | .cpyg m a b e c => Sys2Proof.Machine.execCpyg m a b e c s
  | .cpys m a b e c => Sys2Proof.Machine.execCpys m a b e c s
  | .cpyr m a b e c => Sys2Proof.Machine.execCpyr m a b e c s
  | .cpywait m d => Sys2Proof.Machine.execCpywait m d s
  | .cpystat m d => Sys2Proof.Machine.execCpystat m d s
  | .bufdcl m a b n => Sys2Proof.Machine.execBufdcl m a b n s
  | .bufset m n bs => Sys2Proof.Machine.execBufset m n bs s
  | .bufqry m d n => Sys2Proof.Machine.execBufqry m d n s
  | .send m d a b rlx tr rply rtag tag len => Sys2Proof.Machine.execSend m d a b rlx tr rply rtag tag len s
  | .sendReplay m d b c => Sys2Proof.Machine.execSendReplay m d b c s
  | .sendr m d b rlx len => Sys2Proof.Machine.execSendr m d b rlx len s
  | .msgld m d a => Sys2Proof.Machine.execMsgld m d a s
  | .msgfree m => Sys2Proof.Machine.execMsgfree m s
  | .tagen m d a => Sys2Proof.Machine.execTagen m d a s
  | .tagdis m d a => Sys2Proof.Machine.execTagdis m d a s
  | .hold m d a => Sys2Proof.Machine.execHold m d a s
  | .release m d a => Sys2Proof.Machine.execRelease m d a s
  | .setpri m d a b => Sys2Proof.Machine.execSetpri m d a b s
  | .spawn m d a b => Sys2Proof.Machine.execSpawn m d a b s
  | .fork m d a => Sys2Proof.Machine.execFork m d a s
  | .join m d a b => Sys2Proof.Machine.execJoin m d a b s
  | .qpush m d a b c => Sys2Proof.Machine.execQpush m d a b c s
  | .qpop m d a b c => Sys2Proof.Machine.execQpop m d a b c s
  | .qstat m d a => Sys2Proof.Machine.execQstat m d a s
  | .actdef m d a b c prod cons noout tag => Sys2Proof.Machine.execActdef m d a b c prod cons noout tag s
  | .cdef m d a b n => Sys2Proof.Machine.execCdef m d a b n s
  | .cbind m d a b n => Sys2Proof.Machine.execCbind m d a b n s
  | .cunb m d a n => Sys2Proof.Machine.execCunb m d a n s
  | .cld m d a b e c n => Sys2Proof.Machine.execCld m d a b e c n s
  | .cst m d a b c n => Sys2Proof.Machine.execCst m d a b c n s
  | .csnap m d a e => Sys2Proof.Machine.execCsnap m d a e s
  | .cunsnap m a b => Sys2Proof.Machine.execCunsnap m a b s
  | .cgenStart m d a => Sys2Proof.Machine.execCgenStart m d a s
  | .cgenHold m d a b => Sys2Proof.Machine.execCgenHold m d a b s
  | .cgenRelease m d a => Sys2Proof.Machine.execCgenRelease m d a s
  | .cgenPinlim m d a b => Sys2Proof.Machine.execCgenPinlim m d a b s
  | .cgenWaitgen m d a b c => Sys2Proof.Machine.execCgenWaitgen m d a b c s
  | .cstat m d a n sel => Sys2Proof.Machine.execCstat m d a n sel s
  | .cprec m d a => Sys2Proof.Machine.execCprec m d a s
  | .ccommit m d a => Sys2Proof.Machine.execCcommit m d a s
  | .kappend m d a b c => Sys2Proof.Machine.execKappend m d a b c s
  | .klook m d a b e fwd => Sys2Proof.Machine.execKlook m d a b e fwd s
  | .kqry m d a b e c rtag nb => Sys2Proof.Machine.execKqry m d a b e c rtag nb s
  | .krehome m d a b c => Sys2Proof.Machine.execKrehome m d a b c s
  | .flpop m d a => Sys2Proof.Machine.execFlpop m d a s
  | .flpush m d a b => Sys2Proof.Machine.execFlpush m d a b s
  | .lncfg m d a b => Sys2Proof.Machine.execLncfg m d a b s
  | .lnrank m d a b => Sys2Proof.Machine.execLnrank m d a b s
  | .lncommit m d a => Sys2Proof.Machine.execLncommit m d a s
  | .lnstat m d a => Sys2Proof.Machine.execLnstat m d a s
  | .flowOpen m d a b => Sys2Proof.Machine.execFlowOpen m d a b s
  | .flowClose m d a => Sys2Proof.Machine.execFlowClose m d a s
  | .flowQry m d a => Sys2Proof.Machine.execFlowQry m d a s
  | .cgform m d a b c => Sys2Proof.Machine.execCgform m d a b c s
  | .cgsig m d a b => Sys2Proof.Machine.execCgsig m d a b s
  | .cgwait m d a b e c => Sys2Proof.Machine.execCgwait m d a b e c s
  | .cgstat m d a => Sys2Proof.Machine.execCgstat m d a s
  | .tlbw m d a b e c => Sys2Proof.Machine.execTlbw m d a b e c s
  | .tlbinv m d a b c => Sys2Proof.Machine.execTlbinv m d a b c s
  | .tlbprb m d a e c => Sys2Proof.Machine.execTlbprb m d a e c s
  | .capset m d a => Sys2Proof.Machine.execCapset m d a s
  | .ctxq m d a => Sys2Proof.Machine.execCtxq m d a s
  | .slogq m d a => Sys2Proof.Machine.execSlogq m d a s
  | .undefinedEncoding w0 w1 chk => Sys2Proof.Machine.execUndefinedEncoding w0 w1 chk s
  | .varResultReturn k f => Sys2Proof.Machine.execVarResultReturn k f s
  | .selectorDecision k => Sys2Proof.Machine.execSelectorDecision k s
  | .quantumExpiry k => Sys2Proof.Machine.execQuantumExpiry k s
  | .alignWaitExpiry k f => Sys2Proof.Machine.execAlignWaitExpiry k f s
  | .requestArrival k n => Sys2Proof.Machine.execRequestArrival k n s
  | .requestRetry k n => Sys2Proof.Machine.execRequestRetry k n s
  | .replyArrival n => Sys2Proof.Machine.execReplyArrival n s
  | .autoReplySend k => Sys2Proof.Machine.execAutoReplySend k s
  | .spawnArrival k f => Sys2Proof.Machine.execSpawnArrival k f s
  | .spawnAnswer k f => Sys2Proof.Machine.execSpawnAnswer k f s
  | .mxremArrival k n => Sys2Proof.Machine.execMxremArrival k n s
  | .matrixCmdStart k => Sys2Proof.Machine.execMatrixCmdStart k s
  | .matrixCmdComplete k => Sys2Proof.Machine.execMatrixCmdComplete k s
  | .copyCmdComplete k n => Sys2Proof.Machine.execCopyCmdComplete k n s
  | .mword k j v => Sys2Proof.Machine.execMword k j v s
  | .mgo k v => Sys2Proof.Machine.execMgo k v s
  | .cword k j v => Sys2Proof.Machine.execCword k j v s
  | .cgo k v => Sys2Proof.Machine.execCgo k v s
  | .heldGoAccept k cp => Sys2Proof.Machine.execHeldGoAccept k cp s
  | .walkRequest die n => Sys2Proof.Machine.execWalkRequest die n s
  | .walkTimeout die n => Sys2Proof.Machine.execWalkTimeout die n s
  | .cellDispatch die i_ n => Sys2Proof.Machine.execCellDispatch die i_ n s
  | .pinExpiry die i_ slot => Sys2Proof.Machine.execPinExpiry die i_ slot s
  | .poisonOpening die i_ n => Sys2Proof.Machine.execPoisonOpening die i_ n s
  | .cellReadWake k f => Sys2Proof.Machine.execCellReadWake k f s
  | .waitRecheck k f => Sys2Proof.Machine.execWaitRecheck k f s
  | .waitLimitExpiry k f => Sys2Proof.Machine.execWaitLimitExpiry k f s
  | .governorSample die => Sys2Proof.Machine.execGovernorSample die s
  | .queueRefill q => Sys2Proof.Machine.execQueueRefill q s
  | .stageQueueDescWrite q off v => Sys2Proof.Machine.execStageQueueDescWrite q off v s
  | .krehomeTarget k f => Sys2Proof.Machine.execKrehomeTarget k f s
  | .krehomeAnswer k f => Sys2Proof.Machine.execKrehomeAnswer k f s
  | .rdupPropagate n die => Sys2Proof.Machine.execRdupPropagate n die s
  | .rdupInvalidateAck n die => Sys2Proof.Machine.execRdupInvalidateAck n die s
  | .fabricStoreArrival src epoch num pa bytes => Sys2Proof.Machine.execFabricStoreArrival src epoch num pa bytes s
  | .fabricReleaseApply src epoch num count marks pa bytes => Sys2Proof.Machine.execFabricReleaseApply src epoch num count marks pa bytes s
  | .flowPacketArrival src flow seq ordered grp pa bytes => Sys2Proof.Machine.execFlowPacketArrival src flow seq ordered grp pa bytes s
  | .linkFlitReceive die port num crcOk => Sys2Proof.Machine.execLinkFlitReceive die port num crcOk s
  | .linkAckReceive die port num report => Sys2Proof.Machine.execLinkAckReceive die port num report s
  | .laneLockLoss die port => Sys2Proof.Machine.execLaneLockLoss die port s
  | .portRetrainDone die port lanes => Sys2Proof.Machine.execPortRetrainDone die port lanes s
  | .retrain die mask => Sys2Proof.Machine.execRetrain die mask s
  | .remoteLimitExpiry n => Sys2Proof.Machine.execRemoteLimitExpiry n s
  | .groupJoinArrival g core pkgNo ctx record prop => Sys2Proof.Machine.execGroupJoinArrival g core pkgNo ctx record prop s
  | .groupCommitArrival g inc => Sys2Proof.Machine.execGroupCommitArrival g inc s
  | .groupAbortMsg g inc reason => Sys2Proof.Machine.execGroupAbortMsg g inc reason s
  | .cgwaitLimit k f => Sys2Proof.Machine.execCgwaitLimit k f s
  | .cgformLimit k f => Sys2Proof.Machine.execCgformLimit k f s
  | .cgansCommit g => Sys2Proof.Machine.execCgansCommit g s
  | .cgansRefuse g => Sys2Proof.Machine.execCgansRefuse g s
  | .doorbell die q v => Sys2Proof.Machine.execDoorbell die q v s
  | .queuePacketRead die q => Sys2Proof.Machine.execQueuePacketRead die q s
  | .launchRelease n => Sys2Proof.Machine.execLaunchRelease n s
  | .contextResume k ctx => Sys2Proof.Machine.execContextResume k ctx s
  | .launchComplete n => Sys2Proof.Machine.execLaunchComplete n s
  | .launchLimitExpiry n => Sys2Proof.Machine.execLaunchLimitExpiry n s
  | .hostLinkAccess fn wr pa size v => Sys2Proof.Machine.execHostLinkAccess fn wr pa size v s
  | .ctxctlClear master slot => Sys2Proof.Machine.execCtxctlClear master slot s
  | .ctxctlRetire master slot => Sys2Proof.Machine.execCtxctlRetire master slot s
  | .unfreeze master who => Sys2Proof.Machine.execUnfreeze master who s
  | .wfgo die => Sys2Proof.Machine.execWfgo die s
  | .walkImageLoadDone die => Sys2Proof.Machine.execWalkImageLoadDone die s
  | .twgo die => Sys2Proof.Machine.execTwgo die s
  | .userQueueDescWrite die q off v => Sys2Proof.Machine.execUserQueueDescWrite die q off v s
  | .freeListRegWrite die off v => Sys2Proof.Machine.execFreeListRegWrite die off v s
  | .schedout die core => Sys2Proof.Machine.execSchedout die core s
  | .freefFrame die core f => Sys2Proof.Machine.execFreefFrame die core f s
  | .freefBivouac die core => Sys2Proof.Machine.execFreefBivouac die core s
  | .registerWrite master pa v => Sys2Proof.Machine.execRegisterWrite master pa v s
  | .frontEndError die => Sys2Proof.Machine.execFrontEndError die s
  | .correctedError die unit addr => Sys2Proof.Machine.execCorrectedError die unit addr s
  | .uncorrectableError die unit addr => Sys2Proof.Machine.execUncorrectableError die unit addr s
  | .patrolScrub die addr => Sys2Proof.Machine.execPatrolScrub die addr s
  | .stbyPowerUp => Sys2Proof.Machine.execStbyPowerUp s
  | .stbyPowerDown => Sys2Proof.Machine.execStbyPowerDown s
  | .mainPowerUp digests svn ok => Sys2Proof.Machine.execMainPowerUp digests svn ok s
  | .mainPowerDown => Sys2Proof.Machine.execMainPowerDown s
  | .firmwareUpdate digests svn ok => Sys2Proof.Machine.execFirmwareUpdate digests svn ok s
  | .perstLink0 => Sys2Proof.Machine.execPerstLink0 s
  | .perstLink1 => Sys2Proof.Machine.execPerstLink1 s
  | .reset v => Sys2Proof.Machine.execReset v s
  | .pwrlim v => Sys2Proof.Machine.execPwrlim v s
  | .trip v => Sys2Proof.Machine.execTrip v s
  | .powerWindow avg => Sys2Proof.Machine.execPowerWindow avg s
  | .thermalThrottle die temp => Sys2Proof.Machine.execThermalThrottle die temp s
  | .thermalTrip die temp => Sys2Proof.Machine.execThermalTrip die temp s
  | .mgmtRead off => Sys2Proof.Machine.execMgmtRead off s
  | .spdmMeasurement die => Sys2Proof.Machine.execSpdmMeasurement die s
  | .programTrafficAck dst count sw => Sys2Proof.Machine.execProgramTrafficAck dst count sw s
  | .remoteAccessArrival src op pa size v tag => Sys2Proof.Machine.execRemoteAccessArrival src op pa size v tag s
  | .errorTriageWord die => Sys2Proof.Machine.execErrorTriageWord die s
  | .thermalThrottleEnd die temp => Sys2Proof.Machine.execThermalThrottleEnd die temp s

end Sys2Proof.Machine
end

