-- ==== Sys2Proof/Machine/Step.lean ====
section
/-! DEFINITION. One step: the agenda says who acts next; with an empty agenda the core whose turn it is issues, or a unit acts
(log 3). -/
namespace Sys2Proof.Machine

/-- The core `s.turn` issues the instruction at its firing's pc. -/
def runTurn (s : State) : Host.Outcome State Fault Refusal :=
  match s.fetchCur with
  | .ok l => exec (wordsInstr l) (s.fetched s.cur.pc.toNat)
  | .error e => .next (s.fetchFail e.1 e.2)

/-- The firing in frame `f`, issued again, would wait at its place as it does now. -/
def stillWaits (s : State) (k f : Nat) : Bool :=
  let r := s.fr k f
  if r.hold ≠ .wait && r.hold ≠ .slog then false
  else match runTurn { (s.updFr k f fun r => { r with hold := .no, stat := .ready }).updCore k fun c => { c with issuing := some f } with turn := k } with
    | .next t => (t.fr k f).hold = r.hold && (t.fr k f).saved = r.saved && (t.fr k f).pc = r.pc
    | _ => false

/-- After a core has issued: a unit's turn, then the next core's. -/
def handOn : Host.Outcome State Fault Refusal → Host.Outcome State Fault Refusal
  | .next s => .next { s with unitTurn := true, turn := s.nextTurn s.turn }
  | o => o

/-- The step with an empty agenda. -/
def autoStep (s : State) : Host.Outcome State Fault Refusal :=
  match (if s.unitTurn || !s.canIssue s.turn then autoAct stillWaits { s with unitTurn := false } else none) with
  | some o => o
  | none =>
    if s.canIssue s.turn then handOn (runTurn s)
    else if s.canIssue (s.nextTurn s.turn) then handOn (runTurn { s with turn := s.nextTurn s.turn })
    else .next s

def step (s : State) : Host.Outcome State Fault Refusal :=
  match s.agenda with
  | [] => autoStep s
  | .unit e :: r => exec e { s with agenda := r }
  | .core k :: r =>
    if k < 4896 then
      let s := { s with agenda := r, turn := k }
      if s.canIssue k then runTurn s else .next s
    else .fault .noSuchUnit

/-- A page entry that maps the 64 MiB page of `va` for fetches, loads and stores. -/
def fetchEnt (ctx va : Nat) : TlbEnt :=
  let b := va / 2 ^ 26 * 2 ^ 26
  { ctx := ctx, va := b, w := wd (7 * 2 ^ 60 + b % 0x1800000000 + 3 * 2 ^ 10) }
/-- The next step fetches at `pc` from main memory of die 0 as mapped by `fetchEnt`, or already fetches from memory. -/
def State.fetchPlaces (s : State) : Option (List Nat) :=
  if s.agenda = [] && !s.unitTurn && s.canIssue s.turn && !isTsc s.turn then
    ((List.range 5).mapM fun i => match s.xl s.turn s.myCore.ctxid (s.cur.pc.toNat + 4 * i) needX with
      | .hit pa _ => (match regionOf pa with | .main _ => some pa | _ => none)
      | _ => none)
  else none
/-- A firing in the turn core's frame, as a launch would leave it, with its code mapped (log 7). -/
def State.prepared (s : State) : State :=
  let k := if s.turn < 4608 then s.turn else 0
  let c := s.core k
  let f := c.issuing.getD 0
  let ctx := if c.ctxid = 0 then 1 else c.ctxid
  let pc := (s.fr k f).pc &&& (0x00FFFFFFFFFFFFFC#64)
  let s := s.setCore k { c with ctxid := ctx, issuing := some f, frozen := false, gang := none,
                                partw := (if pwFrames c.partw = 0 then c.partw ||| 1#64 else c.partw),
                                tlb := fetchEnt ctx pc.toNat :: fetchEnt ctx (pc.toNat + 16) :: c.tlb }
  let s := s.updFr k f fun r => { r with stat := .ready, hold := .no, now := false, pc := pc }
  { s with agenda := [], unitTurn := false, turn := k, main := true }
/-- `s` with an instruction stored where the next step fetches. -/
def State.withFetchWord (s : State) (nbits w : Nat) : State :=
  let s := if (s.fetchPlaces).isSome then s else s.prepared
  let l := (tableWords nbits w).map wordBytes
  match s.fetchPlaces with
  | none => s
  | some ps => (ps.zip l).foldl (fun s p => s.store p.1 p.2) s

end Sys2Proof.Machine
end

