-- ==== Sys2Proof/Safety.lean ====
section
/-! DEFINITION. What a safe run is: no step of it stops with a fault or a refusal, and memory keeps its canonical form. -/
namespace Sys2Proof.Machine

/-- The step from `s` goes on. -/
def State.goesOn (s : State) : Prop := ∃ t, step s = .next t

/-- A state whose memory is in the one canonical form. -/
def State.Wf (s : State) : Prop := Memory.wf s.mem = true

end Sys2Proof.Machine
end

