-- ==== Sys2Proof/Certificates/Slice0/Obligations.lean ====
section
/-! DEFINITION. The statements for the provers. Each names what it states; `Spec` holds the words they share. -/
open Sys2Proof Sys2Proof.Machine

namespace Sys2Proof.Spec

/-- The firing issues the instruction: no trap waits at it, and no register it names is outstanding in the group (R32). -/
def Ready (s : State) (regs : List Nat) : Prop :=
  s.cur.now = false ∧ ∀ n ∈ regs, n = 0 ∨ (n ∉ s.cur.out ∧ n ∉ s.cur.seq)
/-- The instruction of `len` bytes has left `s'`, and the firing stands behind it, at a group boundary if it is marked. -/
def done (s' : State) (m : Bool) (len : Nat) : State := s'.retire m (s'.cur.pc + BitVec.ofNat 64 len)
/-- `i` writes one x register, with a value that `P` describes, and nothing else. -/
def Gives (i : Instr) (s : State) (m : Bool) (len : Nat) (d : BitVec 6) (P : Word → Prop) : Prop :=
  ∃ v, P v ∧ exec i s = .next (done (s.wfix d v) m len)
/-- A firing at a boundary with nothing to wait for: no result outstanding, no wait, no trap deferred, quantum not used up. -/
def Clear (r : Frame) : Prop := r.unret = 0 ∧ r.waits = [] ∧ r.deferred = [] ∧ r.quantum = false
/-- Bit `k` of element `e`, of `n` bits. -/
def elBit (n : Nat) (v : Word) (e k : Nat) : Bool := v.getLsbD (n * e + k)
/-- Element `e` of `n` bits. -/
def el (n : Nat) (v : Word) (e : Nat) : Nat := v.toNat / 2 ^ (n * e) % 2 ^ n
/-- A program cause that the firing in frame `f` of core `k` takes at once: the handler flag clear, tvec set, the earlier
results back, no trap deferred, and none left by a VLOOP of its group (R126, R156). -/
def TakesTrap (s : State) (k f : Nat) : Prop :=
  isTsc k = false ∧ (s.fr k f).handler = false ∧ (s.core k).tvec ≠ 0#64 ∧ (s.fr k f).unret = 0 ∧ (s.fr k f).waits = [] ∧
    (s.fr k f).deferred = [] ∧ (s.fr k f).body = none
/-- What taking a trap leaves in the frame (R126). -/
def trapped (r : Frame) (tvec epc : Word) (t : Trap) : Frame :=
  { r with epc := epc, cause := BitVec.ofNat 64 t.cause, tval := t.t1, tval2 := t.t2, tval3 := t.t3, handler := true, pc := tvec,
           out := [], seq := [], hold := .no, expired := false, behind := false, saved := [], far := [], marks := [], parkedAt := [],
           vloop := none, loopW := [], body := none, owed := none, ending := false }
/-- The state after the issuing firing has taken `t`, the address `epc` saved. -/
def trapState (s : State) (t : Trap) (epc : Word) : State := s.setCur (trapped s.cur s.myCore.tvec epc t)
/-- Every register of the frame but the x registers in `xs` holds what it held: x, v with tags, p, fflags, the trap registers and
handler flag, streams. -/
def SameRegs (r t : Frame) (xs : List Nat) : Prop :=
  (∀ n, n ∉ xs → t.rx n = r.rx n) ∧ t.v = r.v ∧ t.vtag = r.vtag ∧ t.p = r.p ∧ t.fflags = r.fflags ∧ t.epc = r.epc ∧ t.cause = r.cause ∧
    t.tval = r.tval ∧ t.tval2 = r.tval2 ∧ t.tval3 = r.tval3 ∧ t.handler = r.handler ∧ t.streams = r.streams
/-- Everything of the core but which firing issues and how many have parked (R282). -/
def SameCore (c d : Core) : Prop := { d with issuing := c.issuing, parks := c.parks } = c
/-- Everything outside the issuing frame and its core. -/
def SameRest (s t : State) : Prop :=
  t.mem = s.mem ∧ t.poison = s.poison ∧ t.camps = s.camps ∧ t.dies = s.dies ∧ t.groups = s.groups ∧ t.peers = s.peers ∧ t.rdup = s.rdup ∧
    t.launches = s.launches ∧ t.mgmt = s.mgmt ∧ (∀ k, k ≠ s.turn → t.core k = s.core k) ∧
    ∀ k f, 32 * k + f ≠ 32 * s.turn + s.fi → t.fr k f = s.fr k f

/-- The `n` bytes from `pa`, the first the least significant (R2). -/
def leBytes (s : State) (pa : Nat) : Nat → Nat
  | 0 => 0
  | n + 1 => (s.rd pa).toNat + 256 * leBytes s (pa + 1) n
end Sys2Proof.Spec
open Sys2Proof.Spec

/-! ### Words and decoding -/

/-- R28: LEN gives the total length of the instruction, in words of 32 bits. -/
def Obligations.LengthFromFirstWord : Prop :=
  ∀ w : BitVec 32, lenWords w = (match w.toNat % 4 with | 0 => 1 | 1 => 3 | 2 => 3 | _ => 5)

/-- Words written out in the spec decode to the instructions they stand for (R108 to R125, R319, R324, R380). -/
def Obligations.SpecWordsDecode : Prop :=
  decodeList [0x338D3008#32] = .ok (.mulh false 12#6 13#6 14#6) ∧
  decodeList [0xFE041020#32] = .ok (.addi false 4#6 4#6 (-8)) ∧
  decodeList [0x81440C48#32] = .ok (.srai false 3#6 4#6 5#6) ∧
  decodeList [0x02802458#32] = .ok (.adpc false 9#6 10#10) ∧
  decodeList [0x50061470#32] = .ok (.zextH false 5#6 6#6) ∧
  decodeList [0x60061418#32] = .ok (.popc false 1#2 5#6 6#6) ∧
  decodeList [0x00061462#32, 0x04080000#32, 0#32] = .ok (.bfx false 5#6 6#6 false 4#7 8#6) ∧
  decodeList [0x0067E880#32] = .ok (.bnez false 63#6 12#13) ∧
  decodeList [0x21440092#32, 0#32, 0xFFFFFFFA#32] = .ok (.bcmp false 2#4 4#6 5#6 (-6)) ∧
  decodeList [0x018500AA#32, 0x00040000#32, 0#32] = .ok (.jtab false 5#6 6#6 4#16) ∧
  decodeList [0x11000000#32] = .ok (.align false 256#12) ∧
  decodeList [0x100900CA#32, 0x00100000#32, 0#32] = .ok (.csrw false 9#6 0x010#12) ∧
  decodeList [0x04C22110#32] = .ok (.st false 8#6 2#6 3#2 0#2 1#6) ∧
  decodeList [0x00840D01#32, 0x00001000#32, 0#32] = .ok (.ldLit false 3#6 4#6 2#2 0#2 0x1000#64) ∧
  decodeList [0x0006 * 65536#32 + 0x1668#32] = .ok (.fork false 5#6 6#6) ∧
  decodeList [0x00061710#32] = .ok (.ctxq false 5#6 6#6) ∧
  decodeList [0x10000248#32] = .ok (.msgfree false)

/-- Decoding gives back every well-formed instruction, each operand at every value its field admits (R27, R39 to R45). -/
def Obligations.DecodeEncode : Prop := ∀ i : Instr, i.wf = true → i.isWord = true → decodeList (encode i) = .ok i

/-- One step of a core whose turn it is runs the instruction that the words at the pc decode to, on the state in which the fetch
has marked its page, and then the next core has its turn (R29, R372; the order of turns is the model's, log 3). The words are those in memory
at the pc, unless a VLOOP is under way, whose words have been handed over (R154). Words that are no instruction run as UNDEF with the number
of the check that failed, 1 to 7 (R46; the row UNDEFINED_ENCODING is log 118, and word 1 of a LEN 01 word log 129). -/
def Obligations.StepRunsDecoded : Prop :=
  (∀ s : State, s.cur.loopW = [] → s.fetchCur = s.fetch s.turn s.fi s.cur.pc.toNat) ∧
  (∀ (s : State) (l : List (BitVec 32)) (b : List (List (BitVec 32))), s.cur.loopW = l :: b → s.fetchCur = .ok l) ∧
  ∀ (s : State) (l : List (BitVec 32)), s.agenda = [] → s.unitTurn = false → s.canIssue s.turn = true → s.fetchCur = .ok l →
    let ends (i : Instr) : Prop := step s = match exec i (s.fetched s.cur.pc.toNat) with
      | .next t => .next { t with unitTurn := true, turn := t.nextTurn t.turn }
      | o => o
    let words := l ++ [0#32, 0#32, 0#32, 0#32, 0#32]
    (∀ i, decodeList words = .ok i → ends i) ∧
    (∀ n, decodeList words = .error n → 1 ≤ n ∧ n ≤ 7 ∧ ends (.undefinedEncoding (words.getD 0 0#32) (words.getD 1 0#32) n))

/-- No instruction and no act is refused or stops the machine: each has a next state in every state. (An act whose operands name nothing
leaves the state as it is: the model's choice, log 117.) -/
def Obligations.EveryInstructionRuns : Prop := ∀ (i : Instr) (s : State), ∃ t, exec i s = .next t

/-! ### Integer instructions (R106 to R114) -/

/-- R34, R106: x0 reads zero and a write to it is discarded; p0 reads all ones; any other register holds what was written last. -/
def Obligations.ZeroRegister : Prop :=
  (∀ (s : State) (d n : BitVec 6) (v : Word), (s.wfix d v).x n = if n = 0#6 then 0#64 else if n = d then v else s.x n) ∧
  (∀ (r : Frame) (d n : Nat) (v : Word), (r.wp d v).rp n = if n = 0 then BitVec.allOnes 64 else if n = d then v else r.rp n)

/-- R108, major 0x01: the value that each of ADD to SLTN writes, in exact integers, with the corners of DIV and REM. -/
def Sys2Proof.Spec.integerArithmetic : Prop :=
  ∀ (s : State) (m : Bool) (d a b : BitVec 6), Ready s [a.toNat, b.toNat, d.toNat] →
    let A := s.x a
    let B := s.x b
    Gives (.add m d a b) s m 4 d (fun v => v.toNat = (A.toNat + B.toNat) % 2 ^ 64) ∧
    Gives (.sub m d a b) s m 4 d (fun v => (v.toNat : Int) = ((A.toNat : Int) - B.toNat) % 2 ^ 64) ∧
    Gives (.mul m d a b) s m 4 d (fun v => v.toNat = A.toNat * B.toNat % 2 ^ 64) ∧
    Gives (.mulh m d a b) s m 4 d (fun v => v.toInt = A.toInt * B.toInt / 2 ^ 64) ∧
    Gives (.mulhn m d a b) s m 4 d (fun v => v.toNat = A.toNat * B.toNat / 2 ^ 64) ∧
    Gives (.div m d a b) s m 4 d (fun v => v.toInt =
      if B.toInt = 0 then -1 else if A.toInt = -2 ^ 63 ∧ B.toInt = -1 then -2 ^ 63 else A.toInt.tdiv B.toInt) ∧
    Gives (.divn m d a b) s m 4 d (fun v => v.toNat = if B.toNat = 0 then 2 ^ 64 - 1 else A.toNat / B.toNat) ∧
    Gives (.rem m d a b) s m 4 d (fun v => v.toInt = if B.toInt = 0 then A.toInt else A.toInt - B.toInt * A.toInt.tdiv B.toInt) ∧
    Gives (.remn m d a b) s m 4 d (fun v => v.toNat = if B.toNat = 0 then A.toNat else A.toNat - B.toNat * (A.toNat / B.toNat)) ∧
    Gives (.min m d a b) s m 4 d (fun v => v.toInt = Min.min A.toInt B.toInt) ∧
    Gives (.max m d a b) s m 4 d (fun v => v.toInt = Max.max A.toInt B.toInt) ∧
    Gives (.minn m d a b) s m 4 d (fun v => v.toNat = Min.min A.toNat B.toNat) ∧
    Gives (.maxn m d a b) s m 4 d (fun v => v.toNat = Max.max A.toNat B.toNat) ∧
    Gives (.slt m d a b) s m 4 d (fun v => v.toNat = if A.toInt < B.toInt then 1 else 0) ∧
    Gives (.sltn m d a b) s m 4 d (fun v => v.toNat = if A.toNat < B.toNat then 1 else 0)

/-- R108, major 0x02, and R110: AND to ROR bit by bit, the shifts by bits 5:0 of b, and SLLI, SRLI, SRAI by their amount. -/
def Sys2Proof.Spec.logicAndShifts : Prop :=
  ∀ (s : State) (m : Bool) (d a b c : BitVec 6), Ready s [a.toNat, b.toNat, d.toNat] →
    let A := s.x a
    let B := s.x b
    let n := B.toNat % 64
    Gives (.and m d a b) s m 4 d (fun v => ∀ k, k < 64 → v.getLsbD k = (A.getLsbD k && B.getLsbD k)) ∧
    Gives (.or m d a b) s m 4 d (fun v => ∀ k, k < 64 → v.getLsbD k = (A.getLsbD k || B.getLsbD k)) ∧
    Gives (.xor m d a b) s m 4 d (fun v => ∀ k, k < 64 → v.getLsbD k = (A.getLsbD k != B.getLsbD k)) ∧
    Gives (.andn m d a b) s m 4 d (fun v => ∀ k, k < 64 → v.getLsbD k = (A.getLsbD k && !B.getLsbD k)) ∧
    Gives (.orn m d a b) s m 4 d (fun v => ∀ k, k < 64 → v.getLsbD k = (A.getLsbD k || !B.getLsbD k)) ∧
    Gives (.sll m d a b) s m 4 d (fun v => v.toNat = A.toNat * 2 ^ n % 2 ^ 64) ∧
    Gives (.srl m d a b) s m 4 d (fun v => v.toNat = A.toNat / 2 ^ n) ∧
    Gives (.sra m d a b) s m 4 d (fun v => v.toInt = A.toInt / 2 ^ n) ∧
    Gives (.rol m d a b) s m 4 d (fun v => ∀ k, k < 64 → v.getLsbD ((k + n) % 64) = A.getLsbD k) ∧
    Gives (.ror m d a b) s m 4 d (fun v => ∀ k, k < 64 → v.getLsbD k = A.getLsbD ((k + n) % 64)) ∧
    Gives (.slli m d a c) s m 4 d (fun v => v.toNat = A.toNat * 2 ^ c.toNat % 2 ^ 64) ∧
    Gives (.srli m d a c) s m 4 d (fun v => v.toNat = A.toNat / 2 ^ c.toNat) ∧
    Gives (.srai m d a c) s m 4 d (fun v => v.toInt = A.toInt / 2 ^ c.toNat)
/-- R108, R110: arithmetic, logic and shifts. -/
def Obligations.IntegerInstructions : Prop := integerArithmetic ∧ logicAndShifts

/-- R109: ADDI to SLTI with the sign-extended imm10 in the 32-bit form and the literal in the 96-bit form, and the word of addi x4, x4, -8. -/
def Obligations.ImmediateOperations : Prop :=
  ∀ (s : State) (m : Bool) (d a : BitVec 6) (imm : BitVec 10) (lit : Word), Ready s [a.toNat, d.toNat] →
    let A := s.x a
    let I := BitVec.ofInt 64 imm.toInt
    Gives (.addi m d a imm) s m 4 d (fun v => (v.toNat : Int) = ((A.toNat : Int) + imm.toInt) % 2 ^ 64) ∧
    Gives (.addiLit m d a lit) s m 12 d (fun v => v.toNat = (A.toNat + lit.toNat) % 2 ^ 64) ∧
    Gives (.andi m d a imm) s m 4 d (fun v => v = A &&& I) ∧ Gives (.andiLit m d a lit) s m 12 d (fun v => v = A &&& lit) ∧
    Gives (.ori m d a imm) s m 4 d (fun v => v = A ||| I) ∧ Gives (.oriLit m d a lit) s m 12 d (fun v => v = A ||| lit) ∧
    Gives (.xori m d a imm) s m 4 d (fun v => v = A ^^^ I) ∧ Gives (.xoriLit m d a lit) s m 12 d (fun v => v = A ^^^ lit) ∧
    Gives (.slti m d a imm) s m 4 d (fun v => v.toNat = if A.toInt < imm.toInt then 1 else 0) ∧
    Gives (.sltiLit m d a lit) s m 12 d (fun v => v.toNat = if A.toInt < lit.toInt then 1 else 0) ∧
    decodeList [0xFE041020#32] = .ok (.addi false 4#6 4#6 (-8#10))

/-- R111, R112: LIMM, ADPC, SEXT and ZEXT. -/
def Sys2Proof.Spec.constantsAndExtensions : Prop :=
  ∀ (s : State) (m : Bool) (d a : BitVec 6) (imm : BitVec 10) (lit : Word), Ready s [a.toNat, d.toNat] →
    let A := s.x a
    Gives (.limm m d imm) s m 4 d (fun v => v.toInt = imm.toInt) ∧
    Gives (.limmLit m d lit) s m 12 d (fun v => v = lit) ∧
    Gives (.adpc m d imm) s m 4 d (fun v => v = s.cur.pc + BitVec.ofInt 64 (4 * imm.toInt)) ∧
    Gives (.sextB m d a) s m 4 d (fun v => v.toInt = (A.setWidth 8).toInt) ∧
    Gives (.sextH m d a) s m 4 d (fun v => v.toInt = (A.setWidth 16).toInt) ∧
    Gives (.sextW m d a) s m 4 d (fun v => v.toInt = (A.setWidth 32).toInt) ∧
    Gives (.zextB m d a) s m 4 d (fun v => v.toNat = A.toNat % 2 ^ 8) ∧
    Gives (.zextH m d a) s m 4 d (fun v => v.toNat = A.toNat % 2 ^ 16) ∧
    Gives (.zextW m d a) s m 4 d (fun v => v.toNat = A.toNat % 2 ^ 32)

/-- R113, R114: CLZ, FFS, POPC and BREV on each element of 8, 16, 32 or 64 bits; BFX and BFI. -/
def Sys2Proof.Spec.bitsAndFields : Prop :=
  ∀ (s : State) (m : Bool) (d a : BitVec 6) (w : BitVec 2) (len : BitVec 7) (pos : BitVec 6), Ready s [a.toNat, d.toNat] →
    let A := s.x a
    let D := s.x d
    let n := 8 * 2 ^ w.toNat
    let f := A.toNat / 2 ^ pos.toNat % 2 ^ len.toNat
    Gives (.clz m w d a) s m 4 d (fun v => ∀ e, e < 64 / n → el n v e = if el n A e = 0 then n else n - 1 - (el n A e).log2) ∧
    Gives (.ffs m w d a) s m 4 d (fun v => ∀ e, e < 64 / n →
      if el n A e = 0 then el n v e = n
      else el n v e < n ∧ elBit n A e (el n v e) = true ∧ ∀ k, k < el n v e → elBit n A e k = false) ∧
    Gives (.popc m w d a) s m 4 d (fun v => ∀ e, e < 64 / n → el n v e = ((List.range n).filter (elBit n A e)).length) ∧
    Gives (.brev m w d a) s m 4 d (fun v => ∀ e, e < 64 / n → ∀ k, k < n → elBit n v e (n - 1 - k) = elBit n A e k) ∧
    (1 ≤ len.toNat → pos.toNat + len.toNat ≤ 64 →
      Gives (.bfx m d a false len pos) s m 12 d (fun v => v.toNat = f) ∧
      Gives (.bfx m d a true len pos) s m 12 d (fun v => v.toInt = if f < 2 ^ (len.toNat - 1) then (f : Int) else f - 2 ^ len.toNat) ∧
      Gives (.bfi m d a len pos) s m 12 d (fun v => ∀ k, k < 64 → v.getLsbD k =
        if pos.toNat ≤ k ∧ k < pos.toNat + len.toNat then A.getLsbD (k - pos.toNat) else D.getLsbD k))
/-- R111 to R114: constants, extensions, bit counts and fields. -/
def Obligations.ConstantsBitsAndFields : Prop := constantsAndExtensions ∧ bitsAndFields

namespace Sys2Proof.Spec
/-- The instructions whose result is Fixed (R31, majors 0x01 to 0x0E), with the registers each names and its destination. -/
def fixedOps : Instr → Option (List Nat × BitVec 6)
  | .add _ d a b | .sub _ d a b | .mul _ d a b | .mulh _ d a b | .mulhn _ d a b | .div _ d a b | .divn _ d a b | .rem _ d a b
  | .remn _ d a b | .min _ d a b | .max _ d a b | .minn _ d a b | .maxn _ d a b | .slt _ d a b | .sltn _ d a b | .and _ d a b
  | .or _ d a b | .xor _ d a b | .andn _ d a b | .orn _ d a b | .sll _ d a b | .srl _ d a b | .sra _ d a b | .rol _ d a b
  | .ror _ d a b => some ([a.toNat, b.toNat, d.toNat], d)
  | .clz _ _ d a | .ffs _ _ d a | .popc _ _ d a | .brev _ _ d a | .addi _ d a _ | .addiLit _ d a _ | .andi _ d a _ | .andiLit _ d a _
  | .ori _ d a _ | .oriLit _ d a _ | .xori _ d a _ | .xoriLit _ d a _ | .slti _ d a _ | .sltiLit _ d a _ | .slli _ d a _
  | .srli _ d a _ | .srai _ d a _ | .bfx _ d a _ _ _ | .bfi _ d a _ _ | .sextB _ d a | .sextH _ d a | .sextW _ d a | .zextB _ d a
  | .zextH _ d a | .zextW _ d a => some ([a.toNat, d.toNat], d)
  | .limm _ d _ | .limmLit _ d _ | .adpc _ d _ => some ([d.toNat], d)
  | _ => none
end Sys2Proof.Spec

/-- The frame of the Fixed instructions: apart from the destination, the pc and the marks of the group, the firing holds every
register, every flag and every trap register it held, the core every register, and every byte of memory reads as before. -/
def Obligations.FixedFrame : Prop :=
  ∀ (i : Instr) (regs : List Nat) (d : BitVec 6) (s t : State), fixedOps i = some (regs, d) → Ready s regs → s.cur.deferred = [] →
    exec i s = .next t →
    SameRegs s.cur (t.fr s.turn s.fi) [d.toNat] ∧ SameCore (s.core s.turn) (t.core s.turn) ∧ SameRest s t ∧ ∀ a, t.rd a = s.rd a

/-! ### Control flow (R115 to R120, R125) -/

/-- R115, R116: the branches of majors 0x10 and 0x11, taken exactly on their condition, to PC + 4 × the signed offset. -/
def Obligations.Branches : Prop :=
  ∀ (s : State) (m : Bool) (a : BitVec 6) (p : BitVec 3) (off : BitVec 13), Ready s [a.toNat, 128 + p.toNat] →
    let A := s.x a
    let P := s.cur.rp p.toNat
    let go (taken : Prop) (i : Instr) : Prop :=
      (taken → exec i s = .next (s.retire m (s.cur.pc + BitVec.ofInt 64 (4 * off.toInt)))) ∧ (¬taken → exec i s = .next (done s m 4))
    go True (.br m off) ∧ go (A = 0#64) (.beqz m a off) ∧ go (A ≠ 0#64) (.bnez m a off) ∧ go (A.toInt < 0) (.bltz m a off) ∧
    go (A.toInt ≥ 0) (.bgez m a off) ∧ go (A.toInt > 0) (.bgtz m a off) ∧ go (A.toInt ≤ 0) (.blez m a off) ∧
    go (∃ k, k < 64 ∧ P.getLsbD k = true) (.bpany m p off) ∧ go (∀ k, k < 64 → P.getLsbD k = false) (.bpnone m p off)

/-- R117 with the conditions of R44: BCMP. -/
def Obligations.CompareAndBranch : Prop :=
  ∀ (s : State) (m : Bool) (c : BitVec 4) (a b : BitVec 6) (off : BitVec 32), Ready s [a.toNat, b.toNat] → c.toNat ≤ 5 →
    let A := s.x a
    let B := s.x b
    let holds : Prop := match c.toNat with
      | 0 => A = B
      | 1 => A ≠ B
      | 2 => A.toInt < B.toInt
      | 3 => A.toInt ≥ B.toInt
      | 4 => A.toNat < B.toNat
      | _ => A.toNat ≥ B.toNat
    (holds → exec (.bcmp m c a b off) s = .next (s.retire m (s.cur.pc + BitVec.ofInt 64 (4 * off.toInt)))) ∧
    (¬holds → exec (.bcmp m c a b off) s = .next (done s m 12))

/-- R118: CALL, JR, RET and CALLR; a target off a word boundary raises ALIGN_FAULT at the jump, the link unwritten. -/
def Sys2Proof.Spec.callsAndJumps : Prop :=
  ∀ (s : State) (m : Bool) (a : BitVec 6) (off : BitVec 22), Ready s [a.toNat, 1] →
    let link := s.wfix 1#6 (s.cur.pc + 4#64)
    let fault (i : Instr) (v : Word) : Prop :=
      TakesTrap s s.turn s.fi → exec i s = .next (trapState s ⟨3, v, (firstWord i).zeroExtend 64, 0#64⟩ s.cur.pc)
    exec (.call m off) s = .next (link.retire m (s.cur.pc + BitVec.ofInt 64 (4 * off.toInt))) ∧
    ((s.x a).toNat % 4 = 0 → exec (.jr m a) s = .next (s.retire m (s.x a)) ∧ exec (.callr m a) s = .next (link.retire m (s.x a))) ∧
    ((s.x 1#6).toNat % 4 = 0 → exec (.ret m) s = .next (s.retire m (s.x 1#6))) ∧
    ((s.x a).toNat % 4 ≠ 0 → fault (.jr m a) (s.x a) ∧ fault (.callr m a) (s.x a)) ∧
    ((s.x 1#6).toNat % 4 ≠ 0 → fault (.ret m) (s.x 1#6))

/-- R119: JTAB falls through at or above its length, else branches by the 32-bit entry at X[b] + 4 × X[a], read as a load; a
table off a word boundary raises ALIGN_FAULT. `s'` is the state after the read of the entry. -/
def Sys2Proof.Spec.jumpTable : Prop :=
  ∀ (s s' : State) (m : Bool) (a b : BitVec 6) (len : BitVec 16) (o : Nat), Ready s [a.toNat, b.toNat] →
    let i := Instr.jtab m a b len
    let addr := s.x b + 4#64 * s.x a
    ((s.x a).toNat ≥ len.toNat → exec i s = .next (done s m 12)) ∧
    ((s.x a).toNat < len.toNat → (s.x b).toNat % 4 = 0 → s.load i addr 4 3 regLoad = .got s' o →
      exec i s = .next (s'.retire m (s'.cur.pc + BitVec.ofInt 64 (4 * (BitVec.ofNat 32 o).toInt)))) ∧
    ((s.x a).toNat < len.toNat → (s.x b).toNat % 4 ≠ 0 → TakesTrap s s.turn s.fi →
      exec i s = .next (trapState s ⟨3, addr, (firstWord i).zeroExtend 64, 0#64⟩ s.cur.pc))
/-- R118, R119: calls, returns, jumps and jump tables. -/
def Obligations.CallsJumpsAndTables : Prop := callsAndJumps ∧ jumpTable

/-- R120, R289, R290, R322: NOP has no effect; an ALIGN that does not wait (no launch firing of a gang, or alone of its gang in its
camp) changes nothing but the pc and the core's own count of the ALIGNs passed at that address (the count is the model's, log 57); a leader
waits at an ALIGN for members that have not come; END with all results back gives up the frame, a task's end after lowering its join counter,
and otherwise parks; YIELD with all results back, nothing deferred, stands behind itself, ready, in a new group, and the core chooses. -/
def Obligations.FiringControl : Prop :=
  ∀ (s : State) (m : Bool) (n : BitVec 12), Ready s [] →
    let r := s.cur
    let t := s.parkFrame s.turn s.fi fun r => { r with pc := r.pc + 4#64, yielded := true }
    exec (.nop m) s = .next (done s m 4) ∧
    ((r.src ≠ .launch ∨ s.myCore.gang = none) → exec (.align m n) s = .next (done s m 4)) ∧
    (∀ g, r.src = .launch → s.myCore.gang = some g → (g.cores.filter fun j => campOf j = campOf s.turn).length < 2 →
      exec (.align m n) s = .next (done (s.updMine fun c => { c with gang := some { g with
        aligns := g.aligns.put r.pc.toNat (g.aligns.get r.pc.toNat 0 + 1) } }) m 4)) ∧
    (∀ g, r.src = .launch → s.myCore.gang = some g → r.expired = false → n ≠ 0#12 → (g.cores.filter fun j => campOf j = campOf s.turn).length ≥ 2 →
      (g.cores.filter fun j => campOf j = campOf s.turn).head? = some s.turn →
      (∃ j ∈ g.cores, campOf j = campOf s.turn ∧ j ≠ s.turn ∧ s.atAlign j r.pc = false) →
      exec (.align m n) s = .next (s.updCur fun r => { r with hold := .align, behind := false })) ∧
    (r.unret = 0 → r.waits = [] → r.deferred = [] → r.joinc = 0#64 →
      exec (.endFiring m) s = .next (s.endNow s.turn s.fi) ∧ ((s.fi ≠ 8 → ((s.endNow s.turn s.fi).fr s.turn s.fi).stat = .free))) ∧
    (∀ u, r.unret = 0 → r.waits = [] → r.deferred = [] → r.joinc ≠ 0#64 →
      s.atomic (.endFiring m) r.joinc 8 { rel := true, wide := true } (fun v => (some (v + 2 ^ 64 - 1), ())) = .got u () →
      exec (.endFiring m) s = .next (u.endNow u.turn u.fi)) ∧
    ((r.unret ≠ 0 ∨ r.waits ≠ []) → exec (.endFiring m) s = .next (s.parkFrame s.turn s.fi fun r => { r with ending := true })) ∧
    (Clear r → r.hold = .no → r.ending = false → r.owed = none →
      exec (.yield m) s = .next (t.updFr s.turn s.fi fun r => { r with stat := .ready, out := [], seq := [] }))

/-- R125, R126: TRAP takes SWTRAP with X[a] and NextPC; ERET returns to epc with the handler flag clear, at a group boundary, and
outside a handler takes BADERET. -/
def Sys2Proof.Spec.trapAndReturn : Prop :=
  ∀ (s : State) (m : Bool) (a : BitVec 6), Ready s [a.toNat] →
    (TakesTrap s s.turn s.fi → exec (.trap m a) s = .next (trapState s ⟨0x14, s.x a, 0#64, 0#64⟩ (s.cur.pc + 4#64))) ∧
    (s.cur.handler = true → exec (.eret m) s = .next ((s.updCur fun r => { r with handler := false }).retire true s.cur.epc)) ∧
    (s.cur.handler = false → TakesTrap s s.turn s.fi →
      exec (.eret m) s = .next (trapState s ⟨0x15, (firstWord (.eret m)).zeroExtend 64, 0#64, 0#64⟩ s.cur.pc))

/-- R46: words that are no instruction take UNDEF: tval the first word, tval2 the check that failed, tval3 word 1; no register the
words name is looked at. -/
def Sys2Proof.Spec.undefinedWords : Prop :=
  ∀ (s : State) (w0 w1 : BitVec 32) (n : Nat), s.cur.now = false → TakesTrap s s.turn s.fi →
    exec (.undefinedEncoding w0 w1 n) s =
      .next (trapState s ⟨1, w0.zeroExtend 64, BitVec.ofNat 64 n, w1.zeroExtend 64⟩ s.cur.pc)
/-- R46, R125, R126: TRAP, ERET, and words that are no instruction. -/
def Obligations.TrapsByInstruction : Prop := trapAndReturn ∧ undefinedWords

namespace Sys2Proof.Spec
/-- The registers that instructions outside majors 0x30 to 0x3A read or write, as R32 numbers them; `none` for the rest. -/
def namedRegs : Instr → Option (List Nat)
  | .nop _ | .align _ _ | .endFiring _ | .yield _ | .br _ _ | .eret _ | .fence _ _ _ | .msgfree _ => some []
  | .jr _ a | .trap _ a | .csrw _ a _ | .beqz _ a _ | .bnez _ a _ | .bltz _ a _ | .bgez _ a _ | .bgtz _ a _ | .blez _ a _ => some [a.toNat]
  | .bpany _ p _ | .bpnone _ p _ => some [128 + p.toNat]
  | .bcmp _ _ a b _ | .jtab _ a b _ => some [a.toNat, b.toNat]
  | .call _ _ | .ret _ => some [1]
  | .callr _ a => some [a.toNat, 1]
  | .csrr _ d _ | .bar _ d | .bararv _ d | .mxwait _ d | .mxstat _ d | .cpywait _ d | .cpystat _ d => some [d.toNat]
  | .csrx _ d a _ => some [a.toNat, d.toNat]
  | .ld _ t a _ _ _ | .ldLit _ t a _ _ _ | .ldz _ t a _ _ _ | .ldzLit _ t a _ _ _ | .st _ t a _ _ _ | .stLit _ t a _ _ _ => some [a.toNat, t.toNat]
  | .amoadd _ d a b _ _ _ _ | .amoand _ d a b _ _ _ _ | .amoor _ d a b _ _ _ _ | .amoxor _ d a b _ _ _ _ | .amomin _ d a b _ _ _ _
  | .amomax _ d a b _ _ _ _ | .amominn _ d a b _ _ _ _ | .amomaxn _ d a b _ _ _ _ | .amoswp _ d a b _ _ _ _ => some [a.toNat, b.toNat, d.toNat]
  | .barwt _ d a b | .send _ d a b _ _ _ _ _ _ | .setpri _ d a b | .spawn _ d a b | .flpush _ d a b => some [a.toNat, b.toNat, d.toNat]
  | .fork _ d a | .msgld _ d a | .tagen _ d a | .tagdis _ d a | .hold _ d a | .release _ d a | .qstat _ d a | .cprec _ d a | .ctxq _ d a
  | .slogq _ d a => some [a.toNat, d.toNat]
  | i => (fixedOps i).map (·.1)
end Sys2Proof.Spec

/-- R32: an instruction that reads or writes a register that its group has outstanding, or that a Sequenced instruction of the
group wrote, raises GROUP_HAZARD before any effect: tval the first word, tval2 the register (file in bits 7:6, number below), tval3
zero. x0 is never outstanding. (The instructions of `namedRegs`; where several registers qualify the one shown is the model's
choice, log 10.) -/
def Obligations.GroupHazard : Prop :=
  ∀ (i : Instr) (regs : List Nat) (s : State), namedRegs i = some regs → s.cur.now = false → TakesTrap s s.turn s.fi →
    (∃ n ∈ regs, n ≠ 0 ∧ (n ∈ s.cur.out ∨ n ∈ s.cur.seq)) →
    ∃ n ∈ regs, n ≠ 0 ∧ (n ∈ s.cur.out ∨ n ∈ s.cur.seq) ∧
      exec i s = .next (trapState s ⟨2, (firstWord i).zeroExtend 64, BitVec.ofNat 64 n, 0#64⟩ s.cur.pc)

/-- R126: taking a program cause. Nothing changes but epc, cause, tval to tval3, the handler flag, the pc (tvec) and the group; x,
v, p, fflags, the core and memory are as they were. With earlier results outstanding the firing parks first, its trap registers and handler
flag as they were, and enters when the last one returns. -/
def Obligations.TrapEntry : Prop :=
  ∀ (s : State) (k f : Nat) (t : Trap) (epc : Word), t.cause < 0x80 →
    let u := s.enterTrap k f t epc
    let r := u.fr k f
    let w := s.fr k f
    (isTsc k = false → w.handler = false → (s.core k).tvec ≠ 0#64 → w.unret ≠ 0 ∨ w.waits ≠ [] →
      r.stat = .parked ∧ r.owed = some (t, epc) ∧ r.handler = false ∧ r.unret = w.unret ∧ r.waits = w.waits ∧ SameRegs w r [] ∧ r.pc = w.pc ∧
      (u.core k).issuing ≠ some f ∧ u.mem = s.mem) ∧
    (s.main = true → w.stat = .parked → w.owed = some (t, epc) → w.unret = 1 → w.waits = [] → w.hold = .no → w.deferred = [] →
      let e : Frame := { w with unret := 0, stat := .ready, out := [], seq := [], body := none, owed := none, handler := true, epc := epc }
      ∃ v : State, exec (.varResultReturn k f) s = .next v ∧ v.mem = s.mem ∧
        v.fr k f = { e with pc := (s.core k).tvec, cause := BitVec.ofNat 64 t.cause, tval := t.t1, tval2 := t.t2, tval3 := t.t3 }) ∧
    (TakesTrap s k f →
    r.epc = epc ∧ r.cause = BitVec.ofNat 64 t.cause ∧ r.tval = t.t1 ∧ r.tval2 = t.t2 ∧ r.tval3 = t.t3 ∧ r.handler = true ∧
    r.pc = (s.core k).tvec ∧ r.out = [] ∧ r.seq = [] ∧ r.stat = (s.fr k f).stat ∧ r.x = (s.fr k f).x ∧ r.v = (s.fr k f).v ∧
    r.vtag = (s.fr k f).vtag ∧ r.p = (s.fr k f).p ∧ r.fflags = (s.fr k f).fflags ∧ r.streams = (s.fr k f).streams ∧
    u.cores = s.cores ∧ u.mem = s.mem ∧ u.dies = s.dies ∧ ∀ j g, 32 * j + g ≠ 32 * k + f → u.fr j g = s.fr j g)

/-- R127: a program cause with the handler flag set, or with tvec zero, stops the firing as DOUBLE with both codes; a privileged
cause stops it under its own code. The pc is saved in epc, the handler flag left, the registers untouched, and the core chooses
again; an event 0x0601 of the recovery core reports it in the die's ring, EVPUT stepping on, with core, frame, context slot and cause in its
body. (Host-assisted triage, so that what the recovery core does next comes later, R402; a ring in this package's memory.) -/
def Obligations.FiringStops : Prop :=
  ∀ (s : State) (k f : Nat) (t : Trap) (epc : Word), nfld (s.die (dieOf k)).assist 3 1 = 1 →
    let die := s.die (dieOf k)
    let at_ := die.evbase + 16 * (die.evput % 2 ^ die.evlog2)
    let w := (s.fr k f)
    let v : Trap := if t.cause ≥ 0x80 then t
      else ⟨0x81, BitVec.ofNat 64 t.cause, t.t1, if w.handler then w.cause else 0#64⟩
    let r := (s.enterTrap k f t epc).fr k f
    (t.cause ≥ 0x80 ∨ w.handler = true ∨ (s.core k).tvec = 0#64) →
      r.stat = .stopped ∧ r.epc = w.pc ∧ r.cause = BitVec.ofNat 64 v.cause ∧ r.tval = v.t1 ∧ r.tval2 = v.t2 ∧ r.tval3 = v.t3 ∧
      r.handler = w.handler ∧ r.x = w.x ∧ r.v = w.v ∧ r.p = w.p ∧ r.fflags = w.fflags ∧ r.waits = [] ∧
      ((s.enterTrap k f t epc).core k).issuing ≠ some f ∧
      ((s.enterTrap k f t epc).die (dieOf k)).evput = (die.evput + 1) % 2 ^ 32 ∧
      (die.evbase ≠ 0 → Memory.wf s.mem = true → isRemote s at_ = false → holeIn at_ 16 = false → pkgOf at_ = pkgOf (at_ + 8) →
        ∃ sq, sq < 2 ^ 16 ∧
          leBytes (s.enterTrap k f t epc) at_ 8 = 3 * 2 ^ 8 + dieOf k * 2 ^ 16 + s.pkg * 2 ^ 19 + sq * 2 ^ 32 + 0x0601 * 2 ^ 48 ∧
          ∃ b, leBytes (s.enterTrap k f t epc) (at_ + 8) 8 = b % 2 ^ 64 ∧ b % 2 ^ 13 = k % 8192 ∧
            (f < 8 → v.cause < 256 → b / 2 ^ 13 % 8 = f ∧ b / 2 ^ 16 % 2 ^ 8 = ((s.slotOf (s.core k).ctxid).getD 0) % 256 ∧ b / 2 ^ 24 % 256 = v.cause))

/-- R30, R33, R129: a boundary parks the firing while results are outstanding; takes a deferred trap, epc the next instruction;
else begins a group. -/
def Obligations.GroupBoundary : Prop :=
  ∀ (s : State) (pc : Word),
    let r : Frame := { s.cur with pc := pc, hold := .no, expired := false, behind := false, saved := [], far := [], marks := [], parkedAt := [] }
    let t := s.setCur r
    s.retire false pc = t ∧
    ((r.unret ≠ 0 ∨ r.waits ≠ []) → s.retire true pc = t.parkFrame s.turn s.fi id) ∧
    (Clear r → s.retire true pc = t.setCur { r with out := [], seq := [] }) ∧
    (∀ d ds, r.unret = 0 → r.waits = [] → r.deferred = d :: ds →
      s.retire true pc = (t.setCur { r with deferred := ds, now := false }).takeTrap s.turn s.fi d pc)

/-! ### Control registers (R37, R38, R121, R310) -/

namespace Sys2Proof.Spec
/-- What a control register holds (R38): the fields of the frame and the core, and the words computed from the tags. -/
def CsrHolds (s : State) (n : BitVec 12) (v : Word) : Prop :=
  let r := s.cur
  let c := s.myCore
  match n.toNat with
  | 0x001 => v.toNat = r.fflags.toNat
  | 0x002 => v = c.seed
  | 0x003 => v = BitVec.ofNat 64 c.obuflim
  | 0x004 => v = c.heapbase
  | 0x005 => v = c.heaplim
  | 0x010 => v = c.tvec
  | 0x011 => v = r.epc
  | 0x012 => v = r.cause
  | 0x013 => v = r.tval
  | 0x014 => v = r.tval2
  | 0x015 => v = r.tval3
  | 0x400 => ∀ i, i < 64 → v.getLsbD i = ((c.tag i).e && (c.tag i).h == 0)
  | 0x401 => ∀ i, i < 64 → v.getLsbD i = (s.pend s.turn i != 0)
  | 0x402 => (∀ i, (c.tag i).epri < 4) → ∀ i, i < 32 → v.toNat / 4 ^ i % 4 = (c.tag i).epri
  | 0x403 => (∀ i, (c.tag i).epri < 4) → ∀ i, i < 32 → v.toNat / 4 ^ i % 4 = (c.tag (32 + i)).epri
  | 0x404 => v = c.partw
  | 0x405 => v = BitVec.ofNat 64 c.ctxid
  | 0x406 => v = c.capw
  | 0x407 => v = c.prefdrop
  | _ => True
/-- The value a writable register holds after `v` is written to it (R78, R121, R129, R310). -/
def csrKept (n : BitVec 12) (v : Word) : Word :=
  match n.toNat with
  | 0x001 => v &&& 0x3F#64
  | 0x003 => if v.toNat % 32 = 0 ∨ v.toNat % 32 > 16 then 16#64 else BitVec.ofNat 64 (v.toNat % 32)
  | 0x004 | 0x005 => v &&& 0xFFFC0#64
  | 0x010 | 0x011 => v &&& ~~~3#64
  | 0x012 => v &&& 0xFF#64
  | _ => v
def csrRw : List (BitVec 12) := [1, 2, 3, 4, 5, 0x10, 0x11, 0x12, 0x13, 0x14, 0x15]
def csrAll : List (BitVec 12) := csrRw ++ [0x400, 0x401, 0x402, 0x403, 0x404, 0x405, 0x406, 0x407]
end Sys2Proof.Spec

/-- R38, R121: CSRR writes the register's value to X[d] as a Variable result and changes nothing else. -/
def Sys2Proof.Spec.controlRegisterRead : Prop :=
  ∀ (s : State) (m : Bool) (d : BitVec 6) (n : BitVec 12), Ready s [d.toNat] → n ∈ csrAll →
    ∃ v, CsrHolds s n v ∧ v = s.csr n ∧ exec (.csrr m d n) s = .next (done (s.wvar d v) m 12)

/-- R121, R37, R310: CSRW and CSRX write X[a] to the register, which then reads as `csrKept` says, and no other control register
changes (the pending bit of tag 63 aside, which hangs on the heap registers); CSRX also gives the old value. Memory, x, v and p
stay. An access to class 11 raises PRIV, which stops the firing. -/
def Sys2Proof.Spec.controlRegisterWrite : Prop :=
  ∀ (s : State) (m : Bool) (d a : BitVec 6) (n : BitVec 12), Ready s [a.toNat, d.toNat] →
    (n ∈ csrRw → ∃ u : State, exec (.csrw m a n) s = .next (done u m 12) ∧ exec (.csrx m d a n) s = .next (done (u.wvar d (s.csr n)) m 12) ∧
      u.csr n = csrKept n (s.x a) ∧
      (∀ k, k ≠ n → (k ≠ 0x401#12 ∨ (n ≠ 4#12 ∧ n ≠ 5#12)) → u.csr k = s.csr k) ∧
      u.mem = s.mem ∧ u.cur.x = s.cur.x ∧ u.cur.v = s.cur.v ∧ u.cur.p = s.cur.p ∧ u.cur.pc = s.cur.pc) ∧
    (n.toNat / 1024 = 3 → s.cur.body = none → isTsc s.turn = false →
      ∀ i ∈ [Instr.csrr m d n, Instr.csrw m a n, Instr.csrx m d a n],
        exec i s = .next (s.stopFiring s.turn s.fi ⟨0x80, (firstWord i).zeroExtend 64, n.zeroExtend 64, 0#64⟩))
/-- Reads and writes of the control registers. -/
def Obligations.ControlRegisters : Prop := controlRegisterRead ∧ controlRegisterWrite

/-! ### Addresses, loads and stores (R17 to R24, R122 to R124, R365, R366) -/

/-- R16, R17, R23, R24, R366: where an address leads. In the self window the scratchpad granules are memory of the own pool and
every other granule is BADVA, as is the hole after it; elsewhere the first level with an entry decides, and the entry's rights. In a
window onto a pool of this package a closed granule is BADVA whatever the rights (R122, step 3 before step 5). -/
def Obligations.AddressPlaces : Prop :=
  ∀ (s : State) (k va n : Nat) (needs : Bool × Bool × Bool), isTsc k = false →
    let c := s.core k
    let w := c.partw
    let off := va - 0xFF000000000000
    let lo := (fld w 0 4 + fld w 16 5) * 4096
    let hi := lo + fld w 32 9 * 4096
    (0xFF000000000000 ≤ va → va < 0xFF000000100000 →
      (lo ≤ off ∧ off + n ≤ hi → s.place k va n needs = .mem (s.poolPa k off) 0#64 (some off)) ∧
      (¬(lo ≤ off ∧ off + n ≤ hi) → s.place k va n needs = .badva)) ∧
    (0xFF000000100000 ≤ va → va < 0xFF000000200000 → s.place k va n needs = .badva) ∧
    (va < 0xFF000000000000 ∨ 0xFF000000200000 ≤ va →
      (s.tlbLook k c.ctxid va = none → s.place k va n needs = .unmapped) ∧
      (∀ e l, s.tlbLook k c.ctxid va = some (e, l) →
        (((needs.1 = true ∧ fld e.w 62 1 = 0) ∨ (needs.2.1 = true ∧ fld e.w 61 1 = 0) ∨ (needs.2.2 = true ∧ fld e.w 60 1 = 0)) →
          (∀ j o, regionOf (e.pa va) ≠ .sram j o) → s.place k va n needs = .refused) ∧
        (∀ j o, regionOf (e.pa va) = .sram j o → s.isOwn (e.pa va) = true → s.windowPa c.ctxid j o = none → s.place k va n needs = .badva) ∧
        ((needs.1 = true → fld e.w 62 1 = 1) → (needs.2.1 = true → fld e.w 61 1 = 1) → (needs.2.2 = true → fld e.w 60 1 = 1) →
          fld e.w 56 1 = 0 → (fld e.w 12 41 * 4096 + (va - e.va)) % 2 ^ 40 < 0x9000000000 →
          fld e.w 12 41 * 4096 + (va - e.va) < 2 ^ 53 →
          s.place k va n needs = .mem (fld e.w 12 41 * 4096 + (va - e.va)) e.w none))) ∧
    (c.owner.l = [] → off < 0x100000 → s.poolPa k off = s.pkg * 2 ^ 40 + 0xC000000000 + k * 0x100000 + off)

namespace Sys2Proof.Spec
/-- The `n` bytes at `va` may be read now by the issuing firing (R122), and lie in this package's memory at `pa` (for an RDUP page
the die's replica, R208). -/
def Loadable (s : State) (va n pa : Nat) : Prop :=
  isTsc s.turn = false ∧ s.acqWait = false ∧ va < 2 ^ 56 ∧ va % n = 0 ∧ s.myCore.slogHits va n = false ∧
    s.myCore.boardHolds va n false = false ∧
    ∃ h w off, s.place s.turn va n needR = .mem h w off ∧ pa = readPa s.turn h w ∧ isRemote s h = false ∧ holeIn pa n = false ∧
      s.ownPending s.turn h n = false ∧ s.poisonedAt pa n = false ∧ ∀ o, off = some o → s.myCore.bufBad o n [2, 3] = none
/-- A store of `n` bytes at `va` is performed now, at `pa` of this package's memory (R122, R201, R373); it has not gone out before. -/
def Storable (s : State) (va n pa : Nat) (rel : Bool) : Prop :=
  isTsc s.turn = false ∧ s.cur.saved = [] ∧ s.loadWait = false ∧ va < 2 ^ 56 ∧ va % n = 0 ∧ (rel = true → s.relWaits true s.pkg = false) ∧
    s.myCore.boardHolds va n true = false ∧ s.myCore.slogHits va n = false ∧
    ∃ w off, s.place s.turn va n needW = .mem pa w off ∧ pkgOf pa = s.pkg ∧ holeIn pa n = false ∧ entCell w = false ∧
      entRdup w = false ∧ s.lineHeld pa = false ∧
      ∀ o, off = some o → s.myCore.bufBad o n [0] = none
/-- The A bit, and for a write the D bit, of the entries used (R372). -/
def used (s : State) (va : Nat) (wr : Bool) : State := s.markAD s.turn s.myCore.ctxid va wr
end Sys2Proof.Spec

/-- R122, R123: LD and LDZ, with off6 × size or the literal: X[t] gets the little-endian bytes, sign- or zero-extended, as a Variable
result; of the rest of the state only the A bits of the entries used change. -/
def Sys2Proof.Spec.loads : Prop :=
  ∀ (s : State) (m : Bool) (t a : BitVec 6) (size ord : BitVec 2) (off : BitVec 6) (lit : Word) (pa : Nat), Ready s [a.toNat, t.toNat] →
    (ord = 3#2 → s.relWaits true 0xFFFF = false) →
    let n := 2 ^ size.toNat
    let raw := leBytes s pa n
    let signed (v : Word) : Prop := v.toInt = if raw < 2 ^ (8 * n - 1) then (raw : Int) else raw - 2 ^ (8 * n)
    let plain (v : Word) : Prop := v.toNat = raw
    let gives (i : Instr) (va len : Nat) (P : Word → Prop) : Prop := ∃ v, P v ∧ exec i s = .next (done ((used s va false).wvar t v) m len)
    let va := (s.x a + BitVec.ofInt 64 (off.toInt * n)).toNat
    let vl := (s.x a + lit).toNat
    (Loadable s va n pa → gives (.ld m t a size ord off) va 4 signed ∧ gives (.ldz m t a size ord off) va 4 plain) ∧
    (Loadable s vl n pa → lit.toNat % n = 0 → gives (.ldLit m t a size ord lit) vl 12 signed ∧ gives (.ldzLit m t a size ord lit) vl 12 plain)

/-- The frame of LD and LDZ: whatever the instruction comes to, be it a value, a wait or a trap that enters the handler, memory and its
poison stay; where it loads, every x register but t, and every v, p, flag and trap register stays, and the core but for the A bits of its
first-level entries. -/
def Sys2Proof.Spec.loadFrame : Prop :=
  (∀ (s u : State) (m : Bool) (t a : BitVec 6) (size ord : BitVec 2) (off : BitVec 6) (lit : Word),
    ∀ i ∈ [Instr.ld m t a size ord off, .ldz m t a size ord off, .ldLit m t a size ord lit, .ldzLit m t a size ord lit],
      Ready s [a.toNat, t.toNat] → TakesTrap s s.turn s.fi → exec i s = .next u → u.mem = s.mem ∧ u.poison = s.poison) ∧
  ∀ (s u : State) (m : Bool) (t a : BitVec 6) (size ord : BitVec 2) (off : BitVec 6) (lit : Word) (pa : Nat) (i : Instr) (va : Nat),
    (i = .ld m t a size ord off ∨ i = .ldz m t a size ord off) ∧ va = (s.x a + BitVec.ofInt 64 (off.toInt * 2 ^ size.toNat)).toNat ∨
      (i = .ldLit m t a size ord lit ∨ i = .ldzLit m t a size ord lit) ∧ va = (s.x a + lit).toNat ∧ lit.toNat % 2 ^ size.toNat = 0 →
    Ready s [a.toNat, t.toNat] → (ord = 3#2 → s.relWaits true 0xFFFF = false) → Loadable s va (2 ^ size.toNat) pa → exec i s = .next u →
    u.mem = s.mem ∧ u.poison = s.poison ∧ (m = false → SameRegs s.cur (u.fr s.turn s.fi) [t.toNat]) ∧
    (m = true → s.cur.deferred = [] → SameRegs s.cur (u.fr s.turn s.fi) [t.toNat]) ∧
    (m = false → SameCore { s.core s.turn with tlb := [] } { u.core s.turn with tlb := [] })
/-- LD and LDZ: the result, and the frame. -/
def Obligations.LoadsAndFrame : Prop := loads ∧ loadFrame

/-- R122, R123, R2: ST stores the low bytes of X[t], the first the least significant, at the place its address leads to, and every
other byte of memory reads as before; a store without a translation or right goes whole into a free entry of the side log, and
memory stays (R373); an ar store then waits until its entry is performed (R194). -/
def Obligations.Stores : Prop :=
  ∀ (s : State) (m : Bool) (t a : BitVec 6) (size ord : BitVec 2) (off : BitVec 6) (lit : Word) (pa : Nat), Ready s [a.toNat, t.toNat] →
    let n := 2 ^ size.toNat
    let rel := ord = 2#2 || ord = 3#2
    let v := (s.x t).toNat
    let stores (i : Instr) (va len : Nat) : Prop :=
      ∃ u : State, exec i s = .next (done u m len) ∧ u.cur = s.cur ∧ u.core s.turn = (used s va true).core s.turn ∧
        (Memory.wf s.mem = true → ∀ b, u.rd b = if pa ≤ b ∧ b < pa + n then BitVec.ofNat 8 (v / 256 ^ (b - pa)) else s.rd b)
    let logs (i : Instr) (va len : Nat) : Prop :=
      ∃ u e k, exec i s = .next (done u m len) ∧ u.mem = s.mem ∧ u.cur = s.cur ∧ s.myCore.slog.get? k = none ∧
        u.myCore.slog = s.myCore.slog.put k e ∧ e.frame = s.fi ∧ e.va = va ∧ e.rel = rel ∧
        e.bytes = (List.range n).map fun j => (j, BitVec.ofNat 8 (v / 256 ^ j))
    let logsAr (i : Instr) (va : Nat) : Prop :=
      ∃ (u : State) (e : SlogE) (k : Nat), exec i s = .next ((u.updCur fun r => { r with saved := [10] }).stay .slog) ∧ u.mem = s.mem ∧ u.cur = s.cur ∧
        s.myCore.slog.get? k = none ∧ u.myCore.slog = s.myCore.slog.put k e ∧ e.frame = s.fi ∧ e.va = va ∧ e.rel = true ∧
        e.bytes = (List.range n).map fun j => (j, BitVec.ofNat 8 (v / 256 ^ j))
    let logged (va : Nat) : Prop :=
      isTsc s.turn = false ∧ s.fi ≠ 8 ∧ s.cur.saved = [] ∧ s.loadWait = false ∧ va < 2 ^ 56 ∧ va % n = 0 ∧ (rel = true → s.relWaits true s.pkg = false) ∧
        s.myCore.boardHolds va n true = false ∧ (s.place s.turn va n needW = .unmapped ∨ s.place s.turn va n needW = .refused) ∧
        ∃ k, k < 64 ∧ s.myCore.slog.get? k = none
    let va := (s.x a + BitVec.ofInt 64 (off.toInt * n)).toNat
    let vl := (s.x a + lit).toNat
    (Storable s va n pa rel → stores (.st m t a size ord off) va 4) ∧
    (logged va → (ord ≠ 3#2 → logs (.st m t a size ord off) va 4) ∧ (ord = 3#2 → logsAr (.st m t a size ord off) va)) ∧
    (lit.toNat % n = 0 → (Storable s vl n pa rel → stores (.stLit m t a size ord lit) vl 12) ∧
      (logged vl → (ord ≠ 3#2 → logs (.stLit m t a size ord lit) vl 12) ∧ (ord = 3#2 → logsAr (.stLit m t a size ord lit) vl)))

/-- R122 steps 1 to 7 and R45, in their order: bits 63:56 of the address raise BADVA; a literal that is no multiple of the size, or
an address that is none, ALIGN_FAULT; an unallocated place BADVA; a load without translation, or refused by it, parks for the walk, whose
answer that grants nothing raises PAGE (R369); a CELL page CELLWRITE; a poisoned byte POISON; a buffer state BUFSTATE (R184). -/
def Sys2Proof.Spec.accessFaults : Prop :=
  ∀ (s : State) (m : Bool) (t a : BitVec 6) (size : BitVec 2) (off : BitVec 6) (lit : Word), Ready s [a.toNat, t.toNat] →
    TakesTrap s s.turn s.fi → s.loadWait = false → s.acqWait = false → s.cur.saved = [] →
    let n : Nat := 2 ^ size.toNat
    let ea := s.x a + BitVec.ofInt 64 (off.toInt * n)
    let L := Instr.ld m t a size 0#2 off
    let S := Instr.st m t a size 0#2 off
    let w (i : Instr) : Word := (firstWord i).zeroExtend 64
    let takes (i : Instr) (v : Trap) : Prop := exec i s = .next (trapState s v s.cur.pc)
    let held : Prop := s.myCore.slogHits ea.toNat n = true ∨ s.myCore.boardHolds ea.toNat n true = true
    (ea.toNat ≥ 2 ^ 56 → takes L ⟨5, ea, w L, 0#64⟩ ∧ takes S ⟨5, ea, w S, 0#64⟩) ∧
    (lit.toNat % n ≠ 0 → ∀ i ∈ [Instr.ldLit m t a size 0#2 lit, Instr.stLit m t a size 0#2 lit], takes i ⟨3, s.x a + lit, w i, 0#64⟩) ∧
    (ea.toNat < 2 ^ 56 → ea.toNat % n ≠ 0 → takes L ⟨3, ea, w L, 0#64⟩ ∧ takes S ⟨3, ea, w S, 0#64⟩) ∧
    (ea.toNat < 2 ^ 56 → ea.toNat % n = 0 → ¬held →
      (s.place s.turn ea.toNat n needR = .badva → takes L ⟨5, ea, w L, 0#64⟩) ∧
      (s.place s.turn ea.toNat n needW = .badva → takes S ⟨5, ea, w S, 0#64⟩) ∧
      (s.place s.turn ea.toNat n needR ∈ [Place.unmapped, .refused] →
        let w := Who.frame s.turn s.fi
        let c := s.myCore.ctxid
        (s.ansFor w c ea.toNat = none → exec L s = .next ((s.startWalk w s.turn c ea.toNat 0 needR).stay .walk)) ∧
        (∀ r, s.ansFor w c ea.toNat = some r →
          exec L s = .next (trapState (s.dropAns w c ea.toNat) ⟨6, ea, 0#64, BitVec.ofNat 64 r⟩ s.cur.pc))) ∧
      (∀ pa e, s.place s.turn ea.toNat n needW = .mem pa e none → entCell e = true → takes S ⟨7, ea, w S, 0#64⟩) ∧
      (∀ pa e, s.place s.turn ea.toNat n needR = .mem pa e none → pkgOf pa = s.pkg → s.ownPending s.turn pa n = false →
        s.poisonedAt (readPa s.turn pa e) n = true → takes L ⟨0x11, ea, 0#64, 0#64⟩) ∧
      (∀ pa e o b st, s.place s.turn ea.toNat n needR = .mem pa e (some o) → s.myCore.bufBad o n [2, 3] = some (b, st) →
        takes L ⟨9, BitVec.ofNat 64 b, BitVec.ofNat 64 st, ea⟩) ∧
      (∀ pa e o b st, s.place s.turn ea.toNat n needW = .mem pa e (some o) → s.myCore.bufBad o n [0] = some (b, st) →
        takes S ⟨9, BitVec.ofNat 64 b, BitVec.ofNat 64 st, ea⟩))

/-- R122, R123: a PREF changes nothing, but for prefdrop, which counts one whose address or translation fails; no walk begins. (The
model's counter of free values steps on, log 127; whether a prefetch to another package is dropped is open while a path is up.) -/
def Sys2Proof.Spec.prefetch : Prop :=
  ∀ (s : State) (m : Bool) (a : BitVec 6) (size : BitVec 2) (off : BitVec 6) (lit : Word), Ready s [a.toNat] → isTsc s.turn = false →
    let n := 2 ^ size.toNat
    let good (ea : Word) : Prop := ea.toNat < 2 ^ 56 ∧ ea.toNat % n = 0 ∧
      ∃ pa w off, s.place s.turn ea.toNat n needR = .mem pa w off ∧ isRemote s pa = false ∧ s.poisonedAt (readPa s.turn pa w) n = false
    let bad (ea : Word) : Prop := ea.toNat ≥ 2 ^ 56 ∨ ea.toNat % n ≠ 0 ∨
      s.place s.turn ea.toNat n needR ∈ [Place.badva, .unmapped, .refused] ∨
      ∃ pa w off, s.place s.turn ea.toNat n needR = .mem pa w off ∧ isRemote s pa = true ∧ s.pathUp = false
    let dropped := s.ticked.updMine fun c => { c with prefdrop := c.prefdrop + 1#64 }
    let ea := s.x a + BitVec.ofInt 64 (off.toInt * n)
    (good ea → exec (.pref m a size off) s = .next (done s.ticked m 4)) ∧ (bad ea → exec (.pref m a size off) s = .next (done dropped m 4)) ∧
    (good (s.x a + lit) → lit.toNat % n = 0 → exec (.prefLit m a size lit) s = .next (done s.ticked m 12)) ∧
    (bad (s.x a + lit) ∨ lit.toNat % n ≠ 0 → exec (.prefLit m a size lit) s = .next (done dropped m 12))
/-- R122 to R124: the faults of an access, and PREF. -/
def Obligations.FaultsAndPrefetch : Prop := accessFaults ∧ prefetch

/-! ### Atomics, fences, waits, barriers (R220 to R234) -/

namespace Sys2Proof.Spec
/-- An AMO of `n` bytes at `va` is performed now, at `pa` of this package's memory (R224). -/
def AtomicAt (s : State) (va n pa : Nat) (rel wide : Bool) : Prop :=
  isTsc s.turn = false ∧ (∀ v, s.cur.saved ≠ [11, v]) ∧ s.loadWait = false ∧ va < 2 ^ 56 ∧ va % n = 0 ∧ (rel = true → s.relWaits wide 0xFFFF = false) ∧
    s.myCore.slogHits va n = false ∧ s.myCore.boardHolds va n true = false ∧
    ∃ w off, s.place s.turn va n needRW = .mem pa w off ∧ entCell w = false ∧ entRdup w = false ∧ isRemote s pa = false ∧
      holeIn pa n = false ∧ s.ownPending s.turn pa n = false ∧ s.poisonedAt pa n = false ∧ s.lineHeld pa = false ∧
      (s.rdup.any fun r => spans r.pa r.bytes.length pa n && r.dies.contains (dieOf s.turn)) = false ∧
      ∀ o, off = some o → s.myCore.bufBad o n [0] = none
/-- `x` read as a two's-complement number of `b` bits. -/
def tc (b x : Nat) : Int := if x < 2 ^ (b - 1) then (x : Int) else x - 2 ^ b
end Sys2Proof.Spec

/-- R222: each AMO gives the old value (sign-extended; zero-extended for the unsigned ones) and writes the new one in one step;
AMOCAS writes only where the old value equals X[c]. -/
def Sys2Proof.Spec.atomicResults : Prop :=
  ∀ (s : State) (m : Bool) (d a b c : BitVec 6) (size : BitVec 2) (scope : BitVec 3) (ord : BitVec 4) (off : BitVec 32) (pa : Nat),
    Ready s [a.toNat, b.toNat, c.toNat, d.toNat] →
    let n := 2 ^ size.toNat
    let B := 8 * n
    let va := (s.x a + BitVec.ofInt 64 off.toInt).toNat
    let old := leBytes s pa n
    let o := (s.x b).toNat % 2 ^ B
    let cmp := (s.x c).toNat % 2 ^ B
    let signed (v : Word) : Prop := v.toInt = tc B old
    let plain (v : Word) : Prop := v.toNat = old
    let gives (i : Instr) (new : Option Nat) (P : Word → Prop) : Prop :=
      ∃ v, P v ∧ exec i s = .next (done ((match new with
        | some x => (used s va true).wrN pa n x
        | none => used s va false).wvar d v) m 12)
    AtomicAt s va n pa (decide (ord.toNat ≥ 2)) (decide (scope.toNat ≥ 3)) →
    gives (.amoadd m d a b size scope ord off) (some ((old + o) % 2 ^ B)) signed ∧
    gives (.amoand m d a b size scope ord off) (some (old &&& o)) signed ∧
    gives (.amoor m d a b size scope ord off) (some (old ||| o)) signed ∧
    gives (.amoxor m d a b size scope ord off) (some (old ^^^ o)) signed ∧
    gives (.amomin m d a b size scope ord off) (some (if tc B old ≤ tc B o then old else o)) signed ∧
    gives (.amomax m d a b size scope ord off) (some (if tc B old ≥ tc B o then old else o)) signed ∧
    gives (.amominn m d a b size scope ord off) (some (Nat.min old o)) plain ∧
    gives (.amomaxn m d a b size scope ord off) (some (Nat.max old o)) plain ∧
    gives (.amoswp m d a b size scope ord off) (some o) signed ∧
    gives (.amocas m d a b c size scope ord off) (if old = cmp then some o else none) signed

/-- R223: AMOFADD writes FAdd of the old value and the operand, gives the old value, and raises FAdd's flags. FAdd, shown for FP32:
exact sums, signed zeros, an exact zero of opposite signs, ∞ − ∞ and NaN. -/
def Sys2Proof.Spec.atomicFloatAdd : Prop :=
  (∀ (s : State) (m : Bool) (d a b : BitVec 6) (ft size : BitVec 2) (scope : BitVec 3) (ord : BitVec 4) (off : BitVec 32) (pa : Nat),
    Ready s [a.toNat, b.toNat, d.toNat] →
    let n := 2 ^ size.toNat
    let va := (s.x a + BitVec.ofInt 64 off.toInt).toNat
    let old := leBytes s pa n
    let r := fAdd ft.toNat old ((s.x b).toNat % 2 ^ (8 * n))
    AtomicAt s va n pa (decide (ord.toNat ≥ 2)) (decide (scope.toNat ≥ 3)) →
    exec (.amofadd m d a b ft size scope ord off) s =
      .next (done ((((used s va true).wrN pa n r.1).flag r.2).wvar d (BitVec.ofNat 64 old)) m 12)) ∧
  fAdd 0 0x3F800000 0x40000000 = (0x40400000, 0) ∧ fAdd 0 0x80000000 0x80000000 = (0x80000000, 0) ∧
  fAdd 0 0x3F800000 0xBF800000 = (0, 0) ∧ fAdd 0 0x7F800000 0xFF800000 = (0x7FC00000, 16) ∧ fAdd 0 0x7F800001 0 = (0x7FC00000, 0) ∧
  fAdd 1 0x3F80 0x4000 = (0x4040, 0) ∧ fAdd 2 0x3C00 0x4000 = (0x4200, 0)
/-- R222, R223: the AMOs. -/
def Obligations.Atomics : Prop := atomicResults ∧ atomicFloatAdd

/-- R227 to R229: FENCE goes on at once where nothing holds it back; WAITA whose condition holds on the value read writes it and
status 1, and with limit 0 it reads once and writes status 0. `v` is the value the read gives, `s'` the state after it. -/
def Sys2Proof.Spec.fencesAndWaits : Prop :=
  ∀ (s s' : State) (m : Bool) (d a b e c : BitVec 6) (kind size : BitVec 2) (scope : BitVec 3) (cond ord : BitVec 4) (imm : BitVec 32)
    (lit : Word) (v : Nat), Ready s [a.toNat, b.toNat, c.toNat, d.toNat, e.toNat] →
    let n := 2 ^ size.toNat
    let B := 8 * n
    let holds (K : Word) : Prop := match cond.toNat with
      | 0 => v = K.toNat % 2 ^ B
      | 1 => v ≠ K.toNat % 2 ^ B
      | 2 => tc B v < tc B (K.toNat % 2 ^ B)
      | 3 => tc B v ≥ tc B (K.toNat % 2 ^ B)
      | 4 => v < K.toNat % 2 ^ B
      | 5 => v ≥ K.toNat % 2 ^ B
      | 6 => v &&& (K.toNat % 2 ^ B) ≠ 0
      | _ => v &&& (K.toNat % 2 ^ B) = 0
    let shown (r : Word) : Prop := if cond.toNat ≤ 3 then r.toInt = tc B v else r.toNat = v
    let ends (i : Instr) (len : Nat) (x : Word) : Prop := ∃ r, shown r ∧ exec i s = .next (done ((s'.wvar d r).wvar e x) m len)
    let acts (i : Instr) (len : Nat) (K : Word) : Prop := s.load i (s.x a) n 0 regLoad = .got s' v → v < 2 ^ B →
      (holds K → ends i len 1#64) ∧ (¬holds K → (s'.x c).toNat % 2 ^ 48 = 0 → ends i len 0#64)
    (s.cur.waits = [] → (kind ≠ 0#2 → s.relWaits (decide (scope.toNat ≥ 3)) 0xFFFF = false) →
      exec (.fence m kind scope) s = .next (done s m 4)) ∧
    (cond.toNat < 8 → s'.x b = s.x b → acts (.waita m d a b e c cond size scope ord imm) 12 (s.x b + BitVec.ofInt 64 imm.toInt) ∧
      acts (.waitaLit m d a b e c cond size scope ord lit) 20 (s.x b + lit))

/-- R231, R232, R234: a counted arrival raises the member's count by one and returns OK with its phase, waiting in BAR only while
the phase is open; a second one ahead is refused; BARWT with a complete phase, and with limit 0 an open one, returns at once;
without an armed barrier, or on a core that is no member of it, NONE, and after an abort ABORT. -/
def Sys2Proof.Spec.barriers : Prop :=
  ∀ (s : State) (m : Bool) (d a b : BitVec 6) (g : Gang), Ready s [a.toNat, b.toNat, d.toNat] → s.myCore.gang = some g →
    let r := s.barOf g
    let n := r.arr.get s.turn 0
    let word (st ph : Nat) : Word := BitVec.ofNat 64 (st * 2 ^ 32 + ph % 2 ^ 32)
    let u := s.arrive g r
    let complete (C p : Nat) : Prop := 1 ≤ (C + 2 ^ 32 - p) % 2 ^ 32 ∧ (C + 2 ^ 32 - p) % 2 ^ 32 ≤ 2 ^ 31
    let p := (s.x a).toNat % 2 ^ 32
    (r.armed = true → s.turn ∈ r.members → r.aborted = false →
      ((n + 2 ^ 32 - r.c) % 2 ^ 32 < 2 → s.relWaits g.wide 0xFFFF = false →
        (u.barOf g).arr.get s.turn 0 = (n + 1) % 2 ^ 32 ∧
        exec (.bararv m d) s = .next (done (u.wvar d (word 0 n)) m 4) ∧
        (complete (u.barOf g).c n → exec (.bar m d) s = .next (done (u.wvar d (word 0 n)) m 4))) ∧
      ((n + 2 ^ 32 - r.c) % 2 ^ 32 ≥ 2 → ∀ i ∈ [Instr.bar m d, Instr.bararv m d], exec i s = .next (done (s.wvar d (word 1 n)) m 4)) ∧
      (complete r.c p → exec (.barwt m d a b) s = .next (done (s.wvar d (word 0 r.c)) m 4)) ∧
      (¬complete r.c p → (s.x b).toNat % 2 ^ 48 = 0 → exec (.barwt m d a b) s = .next (done (s.wvar d (word 2 r.c)) m 4))) ∧
    (r.armed = true → s.turn ∈ r.members → r.aborted = true →
      (∀ i ∈ [Instr.bar m d, Instr.bararv m d], exec i s = .next (done (s.wvar d (word 3 n)) m 4)) ∧
      exec (.barwt m d a b) s = .next (done (s.wvar d (word 3 r.c)) m 4)) ∧
    (r.armed = false ∨ s.turn ∉ r.members → ∀ i ∈ [Instr.bar m d, Instr.bararv m d, Instr.barwt m d a b],
      ∃ v : Word, v.toNat / 2 ^ 32 = 4 ∧ exec i s = .next (done (s.ticked.wvar d v) m 4))
/-- R232: a core with no gang gets NONE, and nothing else happens. -/
def Sys2Proof.Spec.noGang : Prop :=
  ∀ (s : State) (m : Bool) (d a b : BitVec 6), Ready s [a.toNat, b.toNat, d.toNat] → s.myCore.gang = none →
    ∀ i ∈ [Instr.bar m d, Instr.bararv m d, Instr.barwt m d a b],
      ∃ v : Word, v.toNat / 2 ^ 32 = 4 ∧ exec i s = .next (done (s.ticked.wvar d v) m 4)
/-- R227 to R234: fences, waits on memory, barriers.
PHASE with NONE is free (log 27). -/
def Obligations.FencesWaitsAndBarriers : Prop := fencesAndWaits ∧ barriers ∧ noGang

/-! ### Numbers and vectors (R56 to R80, R130 to R156) -/

/-- R57, R69: a floating code that stands for a number rounds to itself in its own format, whatever the mode, and raises no flag. -/
def Obligations.GridValuesAreExact : Prop :=
  ∀ (t mode hsr c : Nat), 1 ≤ t → t ≤ 8 → c < 2 ^ fltBits t → (∃ neg q, fltVal t c = .num neg q) →
    convTo t mode hsr false (fltVal t c) = (c, 0)

namespace Sys2Proof.Spec
/-- Element `n` of `w` bits of a vector register. -/
def vel (w : Nat) (v : BitVec 512) (n : Nat) : Nat := v.toNat / 2 ^ (w * n) % 2 ^ w
/-- The predicate bit that governs element `n` of a register of tag `t` (R35). -/
def active (s : State) (p : BitVec 3) (t n : Nat) : Prop := (s.cur.rp p.toNat).getLsbD (if elemBits t = 4 then n / 2 else n) = true
/-- No register among these is a stream register. -/
def Plain (s : State) (rs : List (BitVec 5)) : Prop := ∀ n ∈ rs, s.cur.streams.get? n.toNat = none
/-- A vector instruction has left every vector register but those in `ds`, every x, the core, memory and the dies. -/
def VecFrame (s u : State) (ds : List Nat) : Prop :=
  (∀ k, k ∉ ds → u.cur.rv k = s.cur.rv k ∧ u.cur.rt k = s.cur.rt k) ∧ u.cur.x = s.cur.x ∧ u.cores = s.cores ∧ u.mem = s.mem ∧
    u.dies = s.dies ∧ u.cur.pc = s.cur.pc
/-- fflags afterwards: what it held, joined with the flags of the elements that `on` names (R79). -/
def FlagsJoin (s u : State) (on : Nat → Prop) (fl : Nat → Nat) : Prop :=
  ∀ k, k < 6 → (u.cur.fflags.getLsbD k = true ↔ s.cur.fflags.getLsbD k = true ∨ ∃ n, on n ∧ (fl n).testBit k = true)
/-- A code as a register of tag `t` keeps it: the 6-bit formats have bits 7:6 zero (R35). -/
def code (t c : Nat) : Nat := if t = 6 ∨ t = 7 then c % 64 else c
/-- `i` writes register `d` with tag `t`: the elements that `on` names get `val`, the others keep their bits; `fl` are their flags;
no predicate is written. -/
def VecGives (i : Instr) (s : State) (m : Bool) (len d t w : Nat) (on : Nat → Prop) (val fl : Nat → Nat) : Prop :=
  ∃ u : State, exec i s = .next (done u m len) ∧ VecFrame s u [d] ∧ u.cur.p = s.cur.p ∧ u.cur.rt d = t ∧
    (∀ n, n < 512 / w → (on n → vel w (u.cur.rv d) n = code t (val n)) ∧ (¬on n → vel w (u.cur.rv d) n = vel w (s.cur.rv d) n)) ∧
    FlagsJoin s u (fun n => n < 512 / w ∧ on n) fl
end Sys2Proof.Spec

/-- R69, R79, R135, R141: element arithmetic in FP32, BF16 or FP16: each active element of d gets the exactly computed value rounded once,
inactive elements keep their bits, d takes a's tag, and the flags of the active elements join fflags. -/
def Obligations.VectorFloat : Prop :=
  ∀ (s : State) (m : Bool) (d a b : BitVec 5) (p : BitVec 3), s.cur.now = false → Plain s [d, a, b] →
    let t := s.cur.rt a.toNat
    let w := elemBits t
    let X (n : Nat) : Fp := elemVal t (vel w (s.cur.rv a.toNat) n)
    let Y (n : Nat) : Fp := elemVal t (vel w (s.cur.rv b.toNat) n)
    let Z (n : Nat) : Fp := elemVal t (vel w (s.cur.rv d.toNat) n)
    let gives (i : Instr) (g : Nat → Fp × Nat) : Prop :=
      VecGives i s m 4 d.toNat t w (active s p t) (fun n => (finish t (g n)).1) (fun n => (finish t (g n)).2)
    1 ≤ t → t ≤ 3 →
    (s.cur.rt b.toNat = t →
      gives (.vadd m d a b p) (fun n => fpAdd (X n) (Y n)) ∧ gives (.vsub m d a b p) (fun n => fpAdd (X n) (Y n).neg) ∧
      gives (.vmul m d a b p) (fun n => fpMul (X n) (Y n)) ∧ gives (.vmax m d a b p) (fun n => (fpMax (X n) (Y n), 0)) ∧
      gives (.vmin m d a b p) (fun n => (fpMin (X n) (Y n), 0)) ∧
      (s.cur.rt d.toNat = t → gives (.vfma m d a b p) (fun n => fpFma (Z n) (X n) (Y n)) ∧
        gives (.vfms m d a b p) (fun n => fpFma (Z n) (X n).neg (Y n)))) ∧
    gives (.vabs m d a p) (fun n => ((X n).abs, 0)) ∧ gives (.vneg m d a p) (fun n => ((X n).neg, 0)) ∧
    gives (.vexp2 m d a p) (fun n => specialFn 0 (X n)) ∧ gives (.vlog2 m d a p) (fun n => specialFn 1 (X n)) ∧
    gives (.vrcp m d a p) (fun n => specialFn 2 (X n)) ∧ gives (.vrsq m d a p) (fun n => specialFn 3 (X n)) ∧
    gives (.vtanh m d a p) (fun n => specialFn 4 (X n))

/-- R136, R147: integer and bitwise elements: sums, differences and products modulo the width; shifts by the count, a count of the
width or more giving 0 or copies of the sign; VCLZ, VFFS and VPOPC per element with a number tag of their width. No flag. -/
def Obligations.VectorInteger : Prop :=
  ∀ (s : State) (m : Bool) (d a b : BitVec 5) (p : BitVec 3) (wc : BitVec 2), s.cur.now = false → Plain s [d, a, b] →
    let t := s.cur.rt a.toNat
    let w := elemBits t
    let x (n : Nat) : Nat := vel w (s.cur.rv a.toNat) n
    let y (n : Nat) : Nat := vel w (s.cur.rv b.toNat) n
    let gives (i : Instr) (g : Nat → Nat) : Prop := VecGives i s m 4 d.toNat t w (active s p t) g (fun _ => 0)
    let wb := 8 * 2 ^ wc.toNat
    let tb := match wc.toNat with | 0 => 11 | 1 => 13 | 2 => 15 | _ => 0
    let z (n : Nat) : Nat := vel wb (s.cur.rv a.toNat) n
    let counts (i : Instr) (g : Nat → Nat) : Prop :=
      VecGives i s m 4 d.toNat tb wb (fun n => (s.cur.rp p.toNat).getLsbD n = true) g (fun _ => 0)
    (10 ≤ t → t ≤ 15 → s.cur.rt b.toNat = t →
      gives (.viadd m d a b p) (fun n => (x n + y n) % 2 ^ w) ∧ gives (.visub m d a b p) (fun n => (x n + 2 ^ w - y n) % 2 ^ w) ∧
      gives (.vimul m d a b p) (fun n => x n * y n % 2 ^ w)) ∧
    (s.cur.rt b.toNat = t → gives (.vand m d a b p) (fun n => x n &&& y n) ∧ gives (.vor m d a b p) (fun n => x n ||| y n) ∧
      gives (.vxor m d a b p) (fun n => x n ^^^ y n)) ∧
    (10 ≤ t → t ≤ 15 → 10 ≤ s.cur.rt b.toNat → s.cur.rt b.toNat ≤ 15 → elemBits (s.cur.rt b.toNat) = w →
      gives (.vshl m d a b p) (fun n => if y n ≥ w then 0 else x n * 2 ^ y n % 2 ^ w) ∧
      gives (.vshr m d a b p) (fun n =>
        if t % 2 = 0 then (tc w (x n) / 2 ^ (Nat.min (y n) w) % 2 ^ w).toNat else if y n ≥ w then 0 else x n / 2 ^ y n)) ∧
    counts (.vclz m wc d a p) (fun n => if z n = 0 then wb else wb - 1 - (z n).log2) ∧
    counts (.vpopc m wc d a p) (fun n => ((List.range wb).filter (z n).testBit).length) ∧
    counts (.vffs m wc d a p) (fun n => if z n = 0 then wb else (((List.range wb).find? (z n).testBit).getD 0))

/-- R137, R144, R146: VCMP writes one bit per element, the conditions false on NaN but for ne; VSEL picks by the predicate; VPERM by
index, 0 beyond the register; VBCAST, VMOVV, VMOVX and VRAND. -/
def Obligations.VectorCompareAndMove : Prop :=
  ∀ (s : State) (m : Bool) (d a b : BitVec 5) (dx ax : BitVec 6) (p dp : BitVec 3) (c fmt : BitVec 4) (k : BitVec 7) (lit : Word),
    Ready s [dx.toNat, ax.toNat] → Plain s [d, a, b] →
    let t := s.cur.rt a.toNat
    let w := elemBits t
    let x (n : Nat) : Nat := vel w (s.cur.rv a.toNat) n
    let y (n : Nat) : Nat := vel w (s.cur.rv b.toNat) n
    let wp := if w = 4 then 8 else w
    let f := fmt.toNat
    let td := s.cur.rt d.toNat
    let cmp (n : Nat) : Prop :=
      let X := elemVal t (x n)
      let Y := elemVal t (y n)
      match c.toNat with
      | 0 => fpEq X Y = true
      | 1 => fpEq X Y = false
      | 2 => fpLt X Y = true
      | 3 => fpLt X Y = true ∨ fpEq X Y = true
      | 4 => fpLt Y X = true
      | _ => fpLt Y X = true ∨ fpEq X Y = true
    ((1 ≤ t ∧ t ≤ 3 ∨ 10 ≤ t ∧ t ≤ 15) → s.cur.rt b.toNat = t → dp ≠ 0#3 →
      ∃ u : State, exec (.vcmp m c dp a b p) s = .next (done u m 4) ∧ VecFrame s u [] ∧
        (∀ n, n < 64 → ((u.cur.rp dp.toNat).getLsbD n = true ↔ n < elemCount t ∧ active s p t n ∧ cmp n)) ∧
        ∀ q, q ≠ dp.toNat → u.cur.rp q = s.cur.rp q) ∧
    (s.cur.rt b.toNat = t → VecGives (.vsel m d a b p) s m 4 d.toNat t w (fun _ => True)
      (fun n => if (s.cur.rp p.toNat).getLsbD (if elemBits t = 4 then n / 2 else n) then x n else y n) (fun _ => 0)) ∧
    ((s.cur.rt b.toNat = 11 ∨ s.cur.rt b.toNat = 13 ∨ s.cur.rt b.toNat = 15) → elemBits (s.cur.rt b.toNat) = wp →
      VecGives (.vperm m d a b p) s m 12 d.toNat t wp (fun n => (s.cur.rp p.toNat).getLsbD n = true)
        (fun n => if vel wp (s.cur.rv b.toNat) n ≥ 512 / wp then 0 else vel wp (s.cur.rv a.toNat) (vel wp (s.cur.rv b.toNat) n)) (fun _ => 0)) ∧
    (VecGives (.vbcast m d ax p fmt) s m 12 d.toNat f (elemBits f) (active s p f) (fun _ => (s.x ax).toNat % 2 ^ elemBits f) (fun _ => 0) ∧
      VecGives (.vbcastLit m d p fmt lit) s m 20 d.toNat f (elemBits f) (active s p f) (fun _ => lit.toNat % 2 ^ elemBits f) (fun _ => 0)) ∧
    VecGives (.vmovv m d ax k) s m 12 d.toNat td (elemBits td) (fun n => n = k.toNat)
      (fun _ => (s.x ax).toNat % 2 ^ elemBits td) (fun _ => 0) ∧
    VecGives (.vrand m d ax p) s m 12 d.toNat 15 32 (active s p 15)
      (fun n => (mix64 ((s.x ax + BitVec.ofNat 64 (4 * n)) ^^^ mix64 s.myCore.seed)).toNat / 2 ^ 32) (fun _ => 0) ∧
    (∃ u v, exec (.vmovx m dx a k) s = .next (done (u.wvar dx v) m 12) ∧ VecFrame s u [] ∧ u.cur.p = s.cur.p ∧
      (k.toNat < elemCount t → v.toInt = if t = 10 ∨ t = 12 ∨ t = 14 then tc w (x k.toNat) else (BitVec.ofNat 64 (code t (x k.toNat))).toInt) ∧
      (elemCount t ≤ k.toNat → v = 0#64))

/-- R138 to R140, R145: VCVT converts part by part, each element rounded in the instruction's mode with its own dither address;
VDQNT multiplies by the scale; VQNT writes a block of codes and X[e] the scale; VDROP keeps or zeroes each element and writes p. -/
def Sys2Proof.Spec.vectorConvert : Prop :=
  ∀ (s : State) (m : Bool) (d a : BitVec 5) (bx ex : BitVec 6) (p part mode : BitVec 3) (fmt : BitVec 4) (scale : BitVec 32),
    Ready s [bx.toNat, ex.toNat] → Plain s [d, a] →
    let ta := s.cur.rt a.toNat
    let td := fmt.toNat
    let es := elemCount ta
    let ed := elemCount td
    let wa := elemBits ta
    let src (n : Nat) : Nat := if es ≤ ed then n - part.toNat * es else part.toNat * ed + n
    let here (n : Nat) : Prop := es ≤ ed → part.toNat * es ≤ n ∧ n < (part.toNat + 1) * es
    let hsr (n : Nat) : Nat := hsrBits s.myCore.seed (s.x bx + BitVec.ofNat 64 n)
    let cv (n : Nat) : Nat × Nat := convTo td mode.toNat (hsr n) (decide (10 ≤ ta)) (elemVal ta (vel wa (s.cur.rv a.toNat) (src n)))
    let dq (n : Nat) : Nat × Nat := dqEl td mode.toNat (hsr n) ta (vel wa (s.cur.rv a.toNat) (src n)) (s.x ex)
    let blk := if td = 9 then 64 else 32
    let g := blk / es
    let rs := (List.range g).map (a.toNat + ·)
    let xs := rs.flatMap fun r => (List.range es).map fun n => elemVal ta (vel wa (s.cur.rv r) n)
    let q := if td = 9 then lq4Quant mode.toNat hsr (fltVal 1 (s.x ex).toNat) xs else mxQuant td mode.toNat hsr xs
    let keep (n : Nat) : Prop := (mix64 ((s.x bx + BitVec.ofNat 64 (wa / 8 * n)) ^^^ mix64 s.myCore.seed)).toNat / 2 ^ 32 < (s.x ex).toNat % 2 ^ 32
    (1 ≤ ta → ta ≠ 9 → part.toNat < Nat.max (ed / es) (es / ed) →
      VecGives (.vcvt m d a bx p part mode fmt) s m 12 d.toNat td (elemBits td) (fun n => here n ∧ active s p td n)
        (fun n => (cv n).1) (fun n => (cv n).2)) ∧
    (4 ≤ ta → ta ≤ 9 → 1 ≤ td → td ≤ 3 → part.toNat < es / ed →
      VecGives (.vdqnt m d a bx ex p part mode fmt) s m 12 d.toNat td (elemBits td) (active s p td) (fun n => (dq n).1) (fun n => (dq n).2)) ∧
    (1 ≤ ta → ta ≤ 3 → 4 ≤ td → td ≤ 9 → part.toNat < ed / blk → a.toNat % g = 0 →
      (∀ r ∈ rs, s.cur.rt r = ta ∧ s.cur.streams.get? r = none) →
      ∃ u : State, exec (.vqnt m d a bx ex part mode fmt) s = .next (done (u.wvar ex (BitVec.ofNat 64 q.2.1)) m 12) ∧ VecFrame s u [d.toNat] ∧
        u.cur.rt d.toNat = td ∧
        ∀ n, n < ed → vel (elemBits td) (u.cur.rv d.toNat) n =
          if n / blk = part.toNat then code td (q.1.getD (n % blk) 0) % 2 ^ elemBits td else vel (elemBits td) (s.cur.rv d.toNat) n) ∧
    (1 ≤ ta → ta ≤ 3 → p ≠ 0#3 →
      ∃ u : State, exec (.vdrop m d a bx ex p scale) s = .next (done u m 12) ∧ VecFrame s u [d.toNat] ∧ u.cur.rt d.toNat = ta ∧
        ∀ n, n < es → ((u.cur.rp p.toNat).getLsbD n = true ↔ keep n) ∧
          (¬keep n → vel wa (u.cur.rv d.toNat) n = 0) ∧
          (keep n → vel wa (u.cur.rv d.toNat) n =
            (finish ta (fpMul (elemVal ta (vel wa (s.cur.rv a.toNat) n)) (fltVal 1 scale.toNat))).1))

/-- R142: VRED leaves the reduction of the active elements in element 0 of d, in a's format, and zeros above. -/
def Sys2Proof.Spec.vectorReduce : Prop :=
  ∀ (s : State) (m : Bool) (d a : BitVec 5) (p : BitVec 3) (op : BitVec 4), s.cur.now = false → Plain s [d, a] →
    let t := s.cur.rt a.toNat
    let w := elemBits t
    let int : Prop := 10 ≤ t ∧ t ≤ 15
    let on := (List.range (512 / w)).filter fun n => (s.cur.rp p.toNat).getLsbD n
    let xs := on.map fun n => elemVal t (vel w (s.cur.rv a.toNat) n)
    let r : Fp × Nat := match op.toNat with
      | 0 => fpSum xs
      | 1 => fpSum (elemVal t (vel w (s.cur.rv d.toNat) 0) :: xs)
      | 2 => (xs.foldl fpMax (if t ≤ 3 then .inf true else .ofQ (Q.int (intMin t))), 0)
      | 3 => (xs.foldl fpMin (if t ≤ 3 then .inf false else .ofQ (Q.int (intMax t))), 0)
      | _ => ((xs.map Fp.abs).foldl fpMax (.zero false), 0)
    let c := convTo t 0 0 (decide (10 ≤ t)) r.1
    (1 ≤ t ∧ t ≤ 3 ∨ int ∧ op.toNat ≠ 4) → op.toNat ≤ 4 → (op.toNat = 1 → s.cur.rt d.toNat = t) →
    ∃ u : State, exec (.vred m d a p op) s = .next (done u m 12) ∧ VecFrame s u [d.toNat] ∧ u.cur.rt d.toNat = t ∧
      u.cur.fflags = s.cur.fflags ||| BitVec.ofNat 6 (r.2 ||| c.2) ∧
      vel w (u.cur.rv d.toNat) 0 = c.1 % 2 ^ w ∧ ∀ n, 1 ≤ n → n < 512 / w → vel w (u.cur.rv d.toNat) n = 0

/-- R143: VSMX init, step, merge and final keep m, l, α and the status in lanes 0 to 3 of e and leave its other lanes; d, another
register, gets the factors with tag FP32. A fully masked row ends with factor 0 and EMPTY. -/
def Sys2Proof.Spec.onlineSoftmax : Prop :=
  ∀ (s : State) (m : Bool) (d a e : BitVec 5) (p : BitVec 3), s.cur.now = false → Plain s [d, a, e] → d ≠ e → s.cur.rt a.toNat = 1 →
    let on := (List.range 16).filter fun n => (s.cur.rp p.toNat).getLsbD n
    let A (n : Nat) : Nat := vel 32 (s.cur.rv a.toNat) n
    let E (n : Nat) : Nat := vel 32 (s.cur.rv e.toNat) n
    let both (i : Instr) (dv ev : Nat → Nat) : Prop := ∃ u : State, exec i s = .next (done u m 12) ∧ VecFrame s u [d.toNat, e.toNat] ∧
      u.cur.rt d.toNat = 1 ∧ u.cur.rt e.toNat = 1 ∧ ∀ n, n < 16 → vel 32 (u.cur.rv d.toNat) n = dv n ∧ vel 32 (u.cur.rv e.toNat) n = ev n
    let keep (l : List Nat) (n : Nat) : Nat := if n < 4 then l.getD n 0 else E n
    let st := smxStep (E 0) (E 1) (E 3) (on.map fun n => (n, fltVal 1 (A n)))
    let mg := (smxMerge (E 0) (E 1) (A 0) (A 1)).1
    (∃ u : State, exec (.vsmxInit m e) s = .next (done u m 12) ∧ VecFrame s u [e.toNat] ∧ u.cur.rt e.toNat = 1 ∧
      ∀ n, n < 16 → vel 32 (u.cur.rv e.toNat) n = keep [0xFF800000, 0, 0x3F800000, 0] n) ∧
    (s.cur.rt e.toNat = 1 →
      both (.vsmxStep m d a e p) (fun n => ((st.2.1.find? (·.1 = n)).map (·.2)).getD 0 % 2 ^ 32) (keep (st.1.map (· % 2 ^ 32))) ∧
      both (.vsmxMerge m d a e) (fun n => if n = 0 then mg.getD 2 0 % 2 ^ 32 else if n = 1 then mg.getD 3 0 % 2 ^ 32 else 0)
        (keep ((mg.take 3).map (· % 2 ^ 32) ++ [E 3 ||| A 3])) ∧
      (E 0 = 0xFF800000 → both (.vsmxFinal m d e) (fun _ => 0) (keep [E 0, E 1, E 2, E 3 ||| 1])) ∧
      (E 0 ≠ 0xFF800000 → both (.vsmxFinal m d e) (fun n => if n = 0 then (finish 1 (specialFn 2 (fltVal 1 (E 1)))).1 else 0) E))
/-- VRED and the VSMX step. -/
def Obligations.ReductionAndSoftmax : Prop := vectorReduce ∧ onlineSoftmax

/-- R131: a tag an instruction does not allow raises FORMAT with the operand field and the tag found, before any effect; shown for the
element arithmetic, the field order a, b, d. -/
def Sys2Proof.Spec.vectorFormat : Prop :=
  ∀ (s : State) (m : Bool) (d a b : BitVec 5) (p : BitVec 3) (i : Instr), s.cur.now = false → Plain s [d, a, b] → TakesTrap s s.turn s.fi →
    i ∈ [Instr.vadd m d a b p, .vsub m d a b p, .vmul m d a b p, .vmax m d a b p, .vmin m d a b p, .vfma m d a b p, .vfms m d a b p] →
    let ta := s.cur.rt a.toNat
    let tb := s.cur.rt b.toNat
    let traps (f t : Nat) : Prop :=
      exec i s = .next (trapState s ⟨8, (firstWord i).zeroExtend 64, BitVec.ofNat 64 f, BitVec.ofNat 64 t⟩ s.cur.pc)
    ((ta = 0 ∨ 3 < ta) → traps 1 ta) ∧ (1 ≤ ta → ta ≤ 3 → tb ≠ ta → traps 2 tb) ∧
    (1 ≤ ta → ta ≤ 3 → tb = ta → s.cur.rt d.toNat ≠ ta → (i = .vfma m d a b p ∨ i = .vfms m d a b p) → traps 0 (s.cur.rt d.toNat))
/-- Conversions between formats. -/
def Obligations.VectorConversions : Prop := vectorConvert ∧ vectorFormat

namespace Sys2Proof.Spec
/-- Each of these addresses lies in a scratchpad granule of the issuing core, with no poison there, no store of the side log and no
copy over it, and no declared buffer that refuses the access. -/
def InScratchpad (s : State) (as : List Nat) (wr : Bool) : Prop :=
  ∀ o ∈ as, 0xFF000000000000 ≤ o ∧ o < 0xFF000000100000 ∧
    (fld s.myCore.partw 0 4 + fld s.myCore.partw 16 5) * 4096 ≤ o - 0xFF000000000000 ∧
    o - 0xFF000000000000 < (fld s.myCore.partw 0 4 + fld s.myCore.partw 16 5 + fld s.myCore.partw 32 9) * 4096 ∧
    s.myCore.slogHits o 1 = false ∧ s.myCore.boardHolds o 1 wr = false ∧
    s.myCore.bufBad (o - 0xFF000000000000) 1 (if wr then [0] else [2, 3]) = none ∧
    s.poisonedAt (s.poolPa s.turn (o - 0xFF000000000000)) 1 = false
/-- Nothing is on its way to another package or a replica. -/
def NoTraffic (s : State) : Prop := s.rdup = [] ∧ ∀ t, (s.peers.get t {}).pending = []
end Sys2Proof.Spec

/-- R122, R133, R134: a run of bytes of the own scratchpad is read in order, memory unchanged, and stored byte for byte at its
addresses, element by element of `u` bytes, every other byte as before; the firing and its core stay but for A and D bits. (The
addresses distinct, the pool's own numbering of granules; `sp` says whether the rule of vector accesses applies, R134.) -/
def Obligations.ScratchpadRuns : Prop :=
  ∀ (s : State) (i : Instr) (ea : Word) (as els : List Nat) (bytes : List (BitVec 8)) (u al len kind : Nat) (sp : Straddle), isTsc s.turn = false →
    (sp = {} ∨ sp = .vec as) → ea.toNat < 2 ^ 56 → ea.toNat % al = 0 → as ≠ [] → s.pkg < 2 ^ 13 → s.turn < 4608 → s.myCore.owner.l = [] → NoTraffic s →
    let pa (o : Nat) : Nat := s.poolPa s.turn (o - 0xFF000000000000)
    (s.acqWait = false → InScratchpad s as false →
      ∃ t, s.loadRun i ea as al len kind sp State.byteNow = .got t (as.map fun o => s.rd (pa o)) ∧ t.mem = s.mem ∧ t.cur = s.cur) ∧
    (s.loadWait = false → InScratchpad s as true → 1 ≤ u → as = els.flatMap (fun a => (List.range u).map (a + ·)) → bytes.length = as.length →
      as.Nodup → Memory.wf s.mem = true →
      ∃ t, s.storeRun i ea u (as.zip bytes) al len sp = .got t () ∧ t.cur = s.cur ∧
        (∀ j (h : j < as.length), t.rd (pa as[j]) = bytes.getD j 0#8) ∧ ∀ b, (∀ o ∈ as, b ≠ pa o) → t.rd b = s.rd b)

/-- R133: VLD fills the active bytes of d from X[a] + imm32 and gives it the tag of its format, bits 7:6 of a 6-bit code zero (R130; the
model's reading, log 42); VST stores the active bytes. `s'` is the state after the run of bytes is read or stored, `l` the bytes read. -/
def Obligations.VectorLoadStore : Prop :=
  ∀ (s s' : State) (m : Bool) (d : BitVec 5) (a : BitVec 6) (p : BitVec 3) (fmt : BitVec 4) (off : BitVec 32) (l : List (BitVec 8)),
    Ready s [a.toNat] → Plain s [d] → s'.cur = s.cur →
    let ea := s.x a + BitVec.ofInt 64 off.toInt
    let bytes (t : Nat) : List Nat := (List.range 64).filter fun b => (s.cur.rp p.toNat).getLsbD (if elemBits t = 4 then b else 8 * b / elemBits t)
    let t := fmt.toNat
    let td := s.cur.rt d.toNat
    let at_ (t : Nat) : List Nat := (bytes t).map fun b => (ea + BitVec.ofNat 64 b).toNat
    (s.loadRun (.vld m d a p fmt off) ea (at_ t) (Nat.max 1 (elemBits t / 8)) 64 0 (.vec (at_ t)) State.byteNow = .got s' l →
      l.length = (bytes t).length →
      ∃ u : State, exec (.vld m d a p fmt off) s = .next (done u m 12) ∧ VecFrame s' u [d.toNat] ∧ u.cur.rt d.toNat = t ∧
        (∀ b, b < 64 → b ∉ bytes t → vel 8 (u.cur.rv d.toNat) b = vel 8 (s.cur.rv d.toNat) b) ∧
        ∀ j (h : j < (bytes t).length), vel 8 (u.cur.rv d.toNat) ((bytes t)[j]) = code t (l.getD j 0#8).toNat) ∧
    (s.storeRun (.vst m d a p off) ea (Nat.max 1 (elemBits td / 8))
        ((bytes td).map fun b => ((ea + BitVec.ofNat 64 b).toNat, BitVec.ofNat 8 (vel 8 (s.cur.rv d.toNat) b)))
        (Nat.max 1 (elemBits td / 8)) 64 (.vec (at_ td)) = .got s' () →
      ∃ u : State, exec (.vst m d a p off) s = .next (done u m 12) ∧ VecFrame s' u [] ∧ u.cur.p = s.cur.p ∧ u.cur.fflags = s.cur.fflags)

/-- R148, R150, R152: VSTRM starts the stream of its descriptor on v24 to v31, with its format as the register's tag; an instruction
that names a read stream pops its next units into the lanes and moves the stream on; VSTOP gives the units that remain and ends it,
and 0 where there is none. `s'` is the state after the loads, `l` what they gave. (Which bytes a stream has read ahead, the snapshot kept when
it starts and the byte a pop gives, is the model's choice, log 131.) -/
def Sys2Proof.Spec.streams : Prop :=
  ∀ (s s' : State) (m : Bool) (d a : BitVec 5) (dx ax : BitVec 6) (off : BitVec 32) (ws : List Word) (l : List (BitVec 8)) (st : Stream),
    Ready s [dx.toNat, ax.toNat] → s'.cur = s.cur →
    let q := (mkStream ws).st
    let g (n : Nat) : Nat := (ws.getD n 0#64).toNat
    (s.cur.writes d.toNat = none → s.loadWords (.vstrm m d ax off) (s.x ax + BitVec.ofInt 64 off.toInt) 8 = .got s' ws →
      (mkStream ws).bad = false → (∀ v ∈ ws.getD 0 0#64 :: (ws.drop 4).take (g 1 / 32 % 4), v.toNat % q.unit = 0) →
      ∃ u : State, exec (.vstrm m d ax off) s = .next (done u m 12) ∧ u.cur.streams.get? d.toNat = some { q with snap := s'.streamSnap q } ∧ u.cur.rt d.toNat = g 1 % 16 ∧
        q.base = ws.getD 0 0#64 ∧ q.fmt.toNat = g 1 % 16 ∧ q.pos = 0 ∧ q.write = decide (g 1 / 16 % 2 = 1) ∧
        q.total = (g 2 % 2 ^ 32) * (if g 1 / 32 % 4 ≥ 2 then g 2 / 2 ^ 32 else 1) * (if g 1 / 32 % 4 = 3 then g 3 % 2 ^ 32 else 1) ∧
        u.mem = s'.mem ∧ u.cur.x = s.cur.x) ∧
    (s.cur.streams.get? a.toNat = none → exec (.vstop m dx a) s = .next (done (s.wvar dx 0#64) m 12)) ∧
    (s.cur.streams.get? a.toNat = some st → (st.write = true → s.ownDue = false) → st.total - st.pos < 2 ^ 64 →
      ∃ u : State, exec (.vstop m dx a) s = .next (done (u.wvar dx (BitVec.ofNat 64 (st.total - st.pos))) m 12) ∧
        u.cur.streams.get? a.toNat = none ∧ u.cur.v = s.cur.v ∧ u.cur.vtag = s.cur.vtag ∧ u.mem = s.mem) ∧
    (s.cur.streams.get? a.toNat = some st → st.write = false → s.cur.rt a.toNat = 1 → st.fmt = 1#4 → s.cur.streams.get? d.toNat = none →
      a ≠ d → st.pos + 16 ≤ st.total → l.length = 64 →
      s.loadRun (.vabs m d a 0#3) (BitVec.ofNat 64 (st.addr st.pos)) st.bytesAt 1 64 0 (.vec st.bytesAt) st.byte = .got s' l →
      ∃ u : State, exec (.vabs m d a 0#3) s = .next (done u m 4) ∧ u.mem = s'.mem ∧
        u.cur.streams.get? a.toNat = some { st with pos := st.pos + 16 } ∧
        ∀ n, n < 16 → vel 32 (u.cur.rv a.toNat) n = ofBytes ((l.drop (4 * n)).take 4) ∧
          vel 32 (u.cur.rv d.toNat) n = (finish 1 ((fltVal 1 (ofBytes ((l.drop (4 * n)).take 4))).abs, 0)).1)

/-- R146, R154: FMTGET and FMTSET read and set the tag of a register, and of an accumulator tile below ACCS once the engine is idle;
VLOOP runs its body, the checked instructions behind it, the number of times X[a] bits 31:0 say, and goes on behind it; a trap of the body stops
it there, for the group boundary (R156); an access of the body that waits keeps iteration and index, and the loop goes on from them with the
body it has handed over. -/
def Sys2Proof.Spec.tagsAndLoops : Prop :=
  ∀ (s s' u : State) (m : Bool) (d a : BitVec 5) (dx ax : BitVec 6) (fmt cnt : BitVec 4) (b : List (List (BitVec 32))),
    Ready s [dx.toNat, ax.toNat] → Plain s [d, a] →
    (∃ t, exec (.fmtget m dx a false) s = .next (done (t.wvar dx (BitVec.ofNat 64 (s.cur.rt a.toNat))) m 12) ∧ VecFrame s t []) ∧
    (∃ t, exec (.fmtset m d false fmt) s = .next (done t m 12) ∧ VecFrame s t [d.toNat] ∧ t.cur.rt d.toNat = fmt.toNat ∧
      t.cur.rv d.toNat = s.cur.rv d.toNat) ∧
    (a.toNat < fld s.myCore.partw 16 5 → s.myCore.mx.queue = [] → s.myCore.mx.running = [] →
      exec (.fmtget m dx a true) s = .next (done (s.wvar dx ((s.myCore.accTag.get a.toNat 0#4).zeroExtend 64)) m 12) ∧
      exec (.fmtset m a true fmt) s = .next (done (s.updMine fun c => { c with accTag := c.accTag.put a.toNat fmt }) m 12)) ∧
    let i := Instr.vloop m ax cnt
    let runs (s' : State) (n it k : Nat) : Prop :=
      let pc := b.foldl (fun p l => p + BitVec.ofNat 64 (4 * l.length)) (s'.cur.pc + 12#64)
      let r := loopRun (b.map bodyFn) (n - it) it k s'
      (r = .fin u → exec i s = .next ((u.updCur fun f => { f with vloop := none, loopW := [] }).retire m pc)) ∧
      (∀ t, r = .trap u t → exec i s = .next ((u.updCur fun f => { f with
        vloop := none, loopW := [], deferred := f.deferred ++ [t], body := f.body.or (some t) }).retire m pc)) ∧
      (∀ h it k, r = .hold u h it k → exec i s = .next ((u.updCur fun f => { f with vloop := some (it, k), loopW := encode i :: b }).stay h))
    (s.cur.loopW = [] → s.loopBody i (s.cur.pc.toNat + 12) (cnt.toNat + 1) = .got s' b → s'.cur.vloop = none → s'.cur.saved = [] →
      runs s' ((s'.x ax).toNat % 2 ^ 32) 0 0) ∧
    (∀ w it k, s.cur.loopW = w :: b → s.cur.vloop = some (it, k) → s.cur.saved = [] → runs s ((s.x ax).toNat % 2 ^ 32) it k)
/-- Streams, format tags and vector loops. -/
def Obligations.StreamsTagsAndLoops : Prop := streams ∧ tagsAndLoops

/-! ### Engines and buffers (R157 to R185) -/

namespace Sys2Proof.Spec
/-- The command that an instruction makes of its four words, as acceptance fixes it. -/
def mxCmd (s : State) (op : Nat) (w0 w1 w2 w3 : Word) : Cmd :=
  s.mxFix s.turn { op := op, w0 := w0, w1 := w1, w2 := w2, w3 := w3, who := .firing s.fi, fm := s.cur.fm }
def cpCmd (s : State) (op : Nat) (w0 w1 w2 w3 : Word) : Cmd :=
  s.cpyFix s.turn { op := op, w0 := w0, w1 := w1, w2 := w2, w3 := w3, who := .firing s.fi, fm := s.cur.fm }
/-- A status word (R162). -/
def status (seq prog queued flags code : Nat) : Word :=
  BitVec.ofNat 64 (seq * 2 ^ 48 + prog * 2 ^ 24 + queued * 2 ^ 16 + flags * 2 ^ 8 + code)
end Sys2Proof.Spec

/-- R157, R158, R162: a matrix command that no check refuses enters the queue at its end, as the next of the engine's acceptance
count, with the words W0 = X[c], W1 = X[e], W2 = X[a], W3 = X[b]; the firing's summary counts it; registers and memory stay. MXCLR
carries its tile and tag. -/
def Sys2Proof.Spec.matrixCommands : Prop :=
  ∀ (s : State) (m : Bool) (a b e c : BitVec 6) (d : BitVec 4) (i32 : Bool), Ready s [c.toNat, e.toNat, a.toNat, b.toNat] →
    s.loadWait = false → s.myCore.mx.queue.length < 2 → ((s.x b).toNat / 2 ^ 59 % 2 = 0 → s.relWaits false 0xFFFF = false) →
    let n := (s.myCore.mx.count + 1) % 65536
    let goes (i : Instr) (len : Nat) (k : Cmd) : Prop :=
      ∃ u : State, exec i s = .next (done u m len) ∧ u.myCore.mx.queue = s.myCore.mx.queue ++ [{ k with seq := n }] ∧ u.myCore.mx.count = n ∧
        u.myCore.mx.running = s.myCore.mx.running ∧ u.cur.mxs.seq = n ∧ u.cur.mxs.open_ = s.cur.mxs.open_ + 1 ∧
        u.cur.x = s.cur.x ∧ u.cur.v = s.cur.v ∧ u.mem = s.mem
    let cmd (op : Nat) (i : Instr) (w1 : Word) : Prop :=
      s.mxBad s.turn (mxCmd s op (s.x c) w1 (s.x a) (s.x b)) = none → goes i 12 (mxCmd s op (s.x c) w1 (s.x a) (s.x b))
    cmd 0 (.mxmul m a b e c) (s.x e) ∧ cmd 1 (.mxspm m a b e c) (s.x e) ∧ cmd 2 (.mxdrn m a b c) 0#64 ∧
    (d.toNat < fld s.myCore.partw 16 5 → goes (.mxclr m d i32) 4
      { op := 3, w0 := 0#64, w1 := 0#64, w2 := BitVec.ofNat 64 (d.toNat + (if i32 then 14 else 1) * 256), w3 := 0#64, who := .firing s.fi })

/-- R164, R176: a copy that no check refuses joins the copy engine's commands behind those before it, counted as the next; the
buffers it reads become draining and those it writes filling (R185). -/
def Sys2Proof.Spec.copyCommands : Prop :=
  ∀ (s : State) (m : Bool) (a b e c : BitVec 6), Ready s [c.toNat, e.toNat, a.toNat, b.toNat] → s.loadWait = false →
    s.myCore.cp.queue.length < 2 → s.myCore.cp.queue.length + s.myCore.cp.running.length < 16 →
    ((s.x b).toNat / 2 ^ 59 % 2 = 0 → s.relWaits false 0xFFFF = false) →
    let n := (s.myCore.cp.count + 1) % 65536
    let cmd (op : Nat) (i : Instr) : Prop :=
      let k := cpCmd s op (s.x c) (s.x e) (s.x a) (s.x b)
      s.cpyBad s.turn k = none →
        ∃ u : State, exec i s = .next (done u m 12) ∧
          u.myCore.cp.running ++ u.myCore.cp.queue = s.myCore.cp.running ++ s.myCore.cp.queue ++ [{ k with seq := n }] ∧
          u.myCore.cp.count = n ∧ u.cur.cps.seq = n ∧ u.cur.cps.open_ = s.cur.cps.open_ + 1 ∧
          (∀ j ∈ k.drains, (u.myCore.buf j).state = 3) ∧ (∀ j ∈ k.fills, j ∉ k.drains → (u.myCore.buf j).state = 1) ∧
          u.cur.x = s.cur.x ∧ u.mem = s.mem
    cmd 0 (.cpy m a b e c) ∧ cmd 1 (.cpyg m a b e c) ∧ cmd 2 (.cpys m a b e c) ∧ cmd 3 (.cpyr m a b e c)
/-- What submits commands to the matrix and the copy engine. -/
def Obligations.EngineCommands : Prop := matrixCommands ∧ copyCommands

/-- R162, R174, R175, R179: MXWAIT and CPYWAIT with no command of the firing open give its summary and clear flags and code, and
with one open wait while the group goes on; MXSTAT and CPYSTAT give the engine's last status with its queue count; MXREM puts the
four words, with the core's capability word, into the outbox for the core X[d] names. -/
def Sys2Proof.Spec.engineWaitsAndStatus : Prop :=
  ∀ (s : State) (m : Bool) (d a b e c : BitVec 6), Ready s [c.toNat, e.toNat, a.toNat, b.toNat, d.toNat] →
    let x := s.cur.mxs
    let y := s.cur.cps
    (x.open_ = 0 → x.seq < 65536 → x.flags < 64 →
      exec (.mxwait m d) s = .next (done ((s.wvar d (status x.seq 0 0 x.flags x.code)).updCur fun r =>
        { r with mxs := { r.mxs with flags := 0, code := 0 } }) m 4)) ∧
    (y.open_ = 0 → y.seq < 65536 → y.flags < 64 →
      exec (.cpywait m d) s = .next (done ((s.wvar d (status y.seq 0 0 y.flags y.code)).updCur fun r =>
        { r with cps := { r.cps with flags := 0, code := 0 } }) m 4)) ∧
    (x.open_ ≠ 0 → ∃ u w, exec (.mxwait m d) s = .next (done u m 4) ∧ u.cur.waits = s.cur.waits ++ [w] ∧ w.kind = .mx d.toNat ∧
      w.acq = true ∧ d.toNat ∈ u.cur.out ∧ u.cur.x = s.cur.x ∧ u.mem = s.mem) ∧
    (y.open_ ≠ 0 → ∃ u w, exec (.cpywait m d) s = .next (done u m 4) ∧ u.cur.waits = s.cur.waits ++ [w] ∧ w.kind = .cpy d.toNat ∧
      w.acq = true ∧ d.toNat ∈ u.cur.out ∧ u.cur.x = s.cur.x ∧ u.mem = s.mem) ∧
    (∃ v, exec (.mxstat m d) s = .next (done (s.wvar d v) m 4) ∧
      v.toNat / 2 ^ 16 % 2 ^ 8 = Nat.min 255 (s.myCore.mx.queue.length + s.myCore.mx.running.length) ∧
      v.toNat % 2 ^ 16 = s.myCore.mx.last.toNat % 2 ^ 16 ∧ v.toNat / 2 ^ 24 = s.myCore.mx.last.toNat / 2 ^ 24) ∧
    (∃ v, exec (.cpystat m d) s = .next (done (s.wvar d v) m 4) ∧
      v.toNat / 2 ^ 16 % 2 ^ 8 = Nat.min 255 (s.myCore.cp.queue.length + s.myCore.cp.running.length) ∧
      v.toNat % 2 ^ 16 = s.myCore.cp.last.toNat % 2 ^ 16 ∧ v.toNat / 2 ^ 24 = s.myCore.cp.last.toNat / 2 ^ 24) ∧
    ((s.x d).toNat < 4608 → s.loadWait = false → ((s.x b).toNat / 2 ^ 59 % 2 = 0 → s.relWaits true 0xFFFF = false) →
      s.myCore.outbox.length < 16 →
      exec (.mxrem m d a b e c) s = .next (done (s.updMine fun v => { v with outbox := v.outbox ++ [(⟨
        { kind := .mxrem, ctx := s.myCore.ctxid, dst := (s.x d).toNat, src := s.turn, capw := s.myCore.capw,
          words := [s.x c, s.x e, s.x a, s.x b] }, false⟩ : OutE)] }) m 12))

/-- R181 to R183: BUFDCL declares an aligned range of scratchpad that overlaps no other buffer, empty; with length 0 it undeclares;
BUFSET moves an idle buffer to full, and to empty once no matrix command and no copy's index table reads it; BUFQRY gives length, base, span and state, 0 where
there is none. -/
def Sys2Proof.Spec.declaredBuffers : Prop :=
  ∀ (s : State) (m : Bool) (a b d : BitVec 6) (n : BitVec 5), Ready s [a.toNat, b.toNat, d.toNat] → s.acqWait = false →
    let o := s.myCore.buf n.toNat
    let off := (s.x a).toNat
    let len := (s.x b).toNat
    let lo := (fld s.myCore.partw 0 4 + fld s.myCore.partw 16 5) * 4096
    let put (v : Buf) : State := s.updMine fun c => { c with bufs := c.bufs.put n.toNat v }
    let idle := o.len = 0 ∨ (o.state ≠ 1 ∧ o.state ≠ 3)
    (idle → len ≠ 0 → off % 64 = 0 → len % 64 = 0 → lo ≤ off → off + len ≤ lo + fld s.myCore.partw 32 9 * 4096 →
      (∀ k v, (k, v) ∈ s.myCore.bufs.l → k ≠ n.toNat → v.len ≠ 0 → v.base + v.len ≤ off ∨ off + len ≤ v.base) →
      exec (.bufdcl m a b n) s = .next (done (put { base := off, len := len, span := 0, state := 0 }) m 12)) ∧
    (idle → len = 0 → exec (.bufdcl m a b n) s = .next (done (put {}) m 12)) ∧
    (o.len ≠ 0 → o.state ≠ 1 → o.state ≠ 3 → exec (.bufset m n 2#4) s = .next (done (put { o with state := 2 }) m 12)) ∧
    (o.len ≠ 0 → o.state ≠ 1 → o.state ≠ 3 → s.myCore.mx.running = [] → s.myCore.mx.queue = [] → s.myCore.copies = [] →
      exec (.bufset m n 0#4) s = .next (done (put { o with state := 0 }) m 12)) ∧
    (exec (.bufqry m d n) s = .next (done (s.wvar d (if o.len = 0 then 0#64
      else BitVec.ofNat 64 (o.len * 2 ^ 32 + o.base * 2 ^ 8 + o.span * 2 ^ 3 + 2 ^ 2 + o.state))) m 12)) ∧
    (TakesTrap s s.turn s.fi → o.len = 0 → exec (.bufset m n 2#4) s = .next (trapState s ⟨9, n.zeroExtend 64, 0#64, 0#64⟩ s.cur.pc))
/-- Waits and status of the engines, MXREM, and declared buffers. -/
def Obligations.BuffersWaitsAndStatus : Prop := engineWaitsAndStatus ∧ declaredBuffers

/-! ### Messages, tags, tasks, queues (R277 to R328) -/

/-- R313, R315: SEND puts a request with the captured payload into the outbox behind those before it and gives OK, BADDST and BADTAG
as the destination and tags say; SENDR sends the reply the firing owes, once. `l` is the payload read, `s'` the state after it. -/
def Sys2Proof.Spec.sendAndReply : Prop :=
  ∀ (s s' : State) (m : Bool) (d a b : BitVec 6) (rlx tr rply : Bool) (rtag tag : BitVec 6) (len : BitVec 32) (l : List (BitVec 8)) (src rt : Nat),
    Ready s [a.toNat, b.toNat, d.toNat] → s'.cur = s.cur → s'.myCore = s.myCore → s'.turn = s.turn → s'.replies = s.replies →
    let c := s.myCore
    let i := Instr.send m d a b rlx tr rply rtag tag len
    let j := Instr.sendr m d b rlx len
    let reads (i : Instr) : Prop := s.cur.saved = [] ∧ s.loadWait = false ∧
      s.loadRun i (s.x b) ((List.range len.toNat).map fun n => (s.x b + BitVec.ofNat 64 n).toNat) 8 len.toNat 0 { phys := true }
        State.byteNow = .got s' l
    let g : Msg := { ctx := c.ctxid, dst := (s.x a).toNat, src := s.turn, rply := rply, tag := tag.toNat,
                     rtag := if rply then rtag.toNat else 0, payload := l }
    let r : Msg := { ctx := c.ctxid, dst := src, src := s.turn, reply := true, tag := rt, payload := l }
    ((s.x a).toNat ≥ 4608 → exec i s = .next (done (s.wvar d 1#64) m 12)) ∧
    ((s.x a).toNat < 4608 → tag.toNat ≥ 60 → exec i s = .next (done (s.wvar d 2#64) m 12)) ∧
    ((s.x a).toNat < 4608 → tag.toNat < 60 → rply = true → (c.tag rtag.toNat).kind ≠ .affine → exec i s = .next (done (s.wvar d 2#64) m 12)) ∧
    ((s.x a).toNat < 4608 → tag.toNat < 60 → (rply = true → (c.tag rtag.toNat).kind = .affine ∧ c.replySlots < 8) → reads i →
      c.outbox.length < c.obuflim → (rlx = false → s'.relWaits true 0xFFFF = false) →
      exec i s = .next (done ((s'.updMine fun v => { v with
        outbox := v.outbox ++ [(⟨g, false⟩ : OutE)], awaits := if rply then v.awaits ++ [rtag.toNat] else v.awaits }).wvar d 0#64) m 12)) ∧
    (s.cur.owes = none → exec j s = .next (done (s.wvar d 5#64) m 12)) ∧
    (s.cur.owes = some (src, rt) → reads j → c.outbox.length < 16 → (rlx = false → s'.relWaits true 0xFFFF = false) →
      exec j s = .next (done (({ s' with replies := s.replies ++ [r] }.updCur fun f => { f with owes := none }).wvar d 0#64) m 12))

/-- R317 to R319: send.replay outside the Bivouac firing gives NOTBIV; in it a slot of the heap enters a free request slot. MSGLD reads
payload and header words of the message the firing holds, 0 where there is none; MSGFREE frees its slot and has no effect where the
firing holds none; x4 to x11 stay. -/
def Sys2Proof.Spec.messageReading : Prop :=
  ∀ (s : State) (m : Bool) (d a b c : BitVec 6) (n j : Nat), Ready s [a.toNat, b.toNat, c.toNat, d.toNat] →
    let o := (s.x a).toNat
    let word (g : Msg) : Word :=
      if o = 0x100 then BitVec.ofNat 64 (g.ctx * 2 ^ 48 + g.dst * 2 ^ 32 + g.src * 2 ^ 16 + (if g.auto then 2 ^ 8 else 0) +
        (if g.reply then 2 ^ 7 else 0) + (if g.rply then 2 ^ 6 else 0) + g.tag)
      else if o = 0x108 then BitVec.ofNat 64 (g.rtag * 2 ^ 16 + g.payload.length)
      else if o = 0x110 then 1#64
      else if o ≤ 248 then BitVec.ofNat 64 (ofBytes ((g.payload.drop o).take 8)) else 0#64
    (s.cur.src ≠ .bivouac → exec (.sendReplay m d b c) s = .next (done (s.wvar d 4#64) m 12)) ∧
    (s.cur.src = .bivouac → s.cur.saved = [] → s.heapSlot s.turn (s.x b) = none → exec (.sendReplay m d b c) s = .next (done (s.wvar d 6#64) m 12)) ∧
    (s.cur.src = .bivouac → s.cur.saved = [] → s.heapSlot s.turn (s.x b) = some n → j < 24 → s.myCore.freeSlot 0 24 = some j →
      exec (.sendReplay m d b c) s = .next (done ((s.updMine fun v => v.inboxPut j (s.heapMsg s.turn n)).wvar d 0#64) m 12)) ∧
    (o % 8 = 0 → (∀ g, s.cur.msg = some g → exec (.msgld m d a) s = .next (done (s.wvar d (word g)) m 4)) ∧
      (s.cur.msg = none → exec (.msgld m d a) s = .next (done (s.wvar d 0#64) m 4))) ∧
    (o % 8 ≠ 0 → TakesTrap s s.turn s.fi →
      exec (.msgld m d a) s = .next (trapState s ⟨3, s.x a, (firstWord (.msgld m d a)).zeroExtend 64, 0#64⟩ s.cur.pc)) ∧
    (s.cur.msg = none → exec (.msgfree m) s = .next (done s m 4)) ∧
    (∀ g k, s.cur.msg = some g → s.cur.slot = some k → exec (.msgfree m) s = .next (done
      ((s.updMine fun v => { v with inbox := v.inbox.del k }).updCur fun r => { r with msg := none, slot := none }) m 4))
/-- R313 to R319: sending, replying, replaying, reading and freeing. -/
def Obligations.Messages : Prop := sendAndReply ∧ messageReading

/-- R321, R279: each tag instruction changes exactly its part of tag X[a] bits 5:0 and gives the tag word afterwards; HOLD at 15 and
RELEASE at 0 change nothing and show LIMIT; tags 60 and 63 never change. -/
def Obligations.TagInstructions : Prop :=
  ∀ (s : State) (m : Bool) (d a b : BitVec 6), Ready s [a.toNat, b.toNat, d.toNat] →
    let n := (s.x a).toNat % 64
    let t := s.myCore.tag n
    let kind (t : Tag) : Nat := match t.kind with | .unbound => 0 | .affine => 1 | .actor _ _ _ _ _ => 2
    let word (t : Tag) (limit : Nat) : Word := BitVec.ofNat 64 (limit * 2 ^ 16 + t.epri * 2 ^ 10 + t.bpri * 2 ^ 8 + kind t * 2 ^ 6 +
      (if t.e ∧ t.h = 0 then 2 ^ 5 else 0) + (if t.e then 2 ^ 4 else 0) + t.h)
    let becomes (i : Instr) (u : Tag) (limit : Nat) : Prop :=
      exec i s = .next (done ((s.updMine fun c => { c with tags := c.tags.put n u }).wvar d (word u limit)) m 4)
    let p := (s.x b).toNat % 4
    (n ≠ 60 → n ≠ 63 →
      becomes (.tagen m d a) { t with e := true } 0 ∧ becomes (.tagdis m d a) { t with e := false } 0 ∧
      (t.h < 15 → becomes (.hold m d a) { t with h := t.h + 1 } 0) ∧ (t.h ≥ 15 → becomes (.hold m d a) t 1) ∧
      (t.h ≠ 0 → becomes (.release m d a) { t with h := t.h - 1 } 0) ∧ (t.h = 0 → becomes (.release m d a) t 1) ∧
      becomes (.setpri m d a b) { t with bpri := p, epri := Nat.max t.epri p } 0) ∧
    (n = 60 ∨ n = 63 → ∀ i ∈ [Instr.tagen m d a, .tagdis m d a, .hold m d a, .release m d a, .setpri m d a b],
      exec i s = .next (done (s.wvar d (word t 0)) m 4))

/-- R291 to R293, R323, R324: FORK raises the join counter, if there is one, pushes the record at the newest end of the deque and gives 1, or
with 64 records there 0, the counter untouched; JOIN on a counter that reads 0 gives DONE; on another it takes the newest record of the
deque that names the counter, lowers it, and gives x4 to x11 and TASK; with nothing of its own to run and limit 0 it gives EXPIRED. SPAWN
to no core gives 0; else it raises the counter, sends the record and waits; accepted it gives 1, and bounced it lowers the counter and
gives 0. `s'` is the state after the record, or the counter, is read; the counter's eight bytes are at `pa`. -/
def Obligations.Tasks : Prop :=
  ∀ (s s' : State) (m : Bool) (d a b : BitVec 6) (l : List (BitVec 8)) (v pa : Nat), Ready s ([a.toNat, b.toNat, d.toNat] ++ (List.range 8).map (· + 4)) →
    s'.myCore = s.myCore → s'.turn = s.turn → s'.cur = s.cur →
    let ws := words64 8 l
    let rd (i : Instr) (r : BitVec 6) : Prop :=
      s.loadRun i (s.x r) ((List.range 64).map fun n => (s.x r + BitVec.ofNat 64 n).toNat) 8 64 0 {} State.byteNow = .got s' l
    let j := ws.getD 1 0#64
    let pushed (u : State) : State := u.updMine fun c => { c with deque := c.deque ++ [(⟨ws, s.turn⟩ : Task)] }
    let adds (u : State) (va n : Nat) : State := (used u va true).wrN pa 8 ((leBytes u pa 8 + n) % 2 ^ 64)
    let g : Msg := { kind := .spawn, ctx := s.myCore.ctxid, dst := (s.x a).toNat, src := s.turn, rply := true, tag := 62, payload := l, no := s.fi }
    let sent (u : State) : State := (u.updMine fun c => { c with awaits := c.awaits ++ [64], outbox := c.outbox ++ [(⟨g, false⟩ : OutE)] }).updCur fun r =>
      { r with saved := [31, j.toNat] }
    (rd (.fork m d a) a → (ws.getD 0 0#64).toNat % 4 = 0 → (ws.getD 1 0#64).toNat % 8 = 0 →
      (s.myCore.deque.length ≥ 64 → exec (.fork m d a) s = .next (done (s'.wvar d 0#64) m 4)) ∧
      (s.myCore.deque.length < 64 → s'.relWaits true 0xFFFF = false →
        (j = 0#64 → exec (.fork m d a) s = .next (done ((pushed s').wvar d 1#64) m 4)) ∧
        (j ≠ 0#64 → AtomicAt s' j.toNat 8 pa false false →
          exec (.fork m d a) s = .next (done ((pushed (adds s' j.toNat 1)).wvar d 1#64) m 4)))) ∧
    (s.load (.join m d a b) (s.x a) 8 0 regLoad = .got s' v →
      (v = 0 → exec (.join m d a b) s = .next (done (s'.wvar d 0#64) m 4)) ∧
      (v ≠ 0 → (∀ t ∈ s.myCore.deque, t.words.getD 1 0#64 ≠ s.x a) → (s.x b).toNat % 2 ^ 48 = 0 →
        exec (.join m d a b) s = .next (done (s'.wvar d 2#64) m 4)) ∧
      (∀ (t : Task) (old new : List Task), v ≠ 0 → s.myCore.deque = old ++ t :: new → t.words.getD 1 0#64 = s.x a → t.words.length = 8 →
        (∀ t ∈ new, t.words.getD 1 0#64 ≠ s.x a) → AtomicAt s' (s.x a).toNat 8 pa false false →
        exec (.join m d a b) s = .next (done (((List.range 8).foldl (fun u i => u.wvar (BitVec.ofNat 6 (4 + i)) (t.words.getD i 0#64))
          ((adds s' (s.x a).toNat (2 ^ 64 - 1)).updMine fun c => { c with deque := old ++ new })).wvar d 1#64) m 4))) ∧
    (s.cur.saved = [] → (s.x a).toNat < 4608 → rd (.spawn m d a b) b → (ws.getD 0 0#64).toNat % 4 = 0 → j.toNat % 8 = 0 →
      s.myCore.replySlots < 8 → s.myCore.outbox.length < 16 → s'.relWaits true 0xFFFF = false →
      (j = 0#64 → exec (.spawn m d a b) s = .next ((sent s').stay .wait)) ∧
      (j ≠ 0#64 → AtomicAt s' j.toNat 8 pa false false → exec (.spawn m d a b) s = .next ((sent (adds s' j.toNat 1)).stay .wait))) ∧
    (∀ n r, s.cur.saved = n :: r → n = 31 ∨ n = 32 → exec (.spawn m d a b) s = .next (s.stay .wait)) ∧
    (∀ n, s.cur.saved = [34, n] → n ≠ 0 → n < 2 ^ 64 → AtomicAt s n 8 pa false false →
      exec (.spawn m d a b) s = .next (done ((adds s n (2 ^ 64 - 1)).wvar d 0#64) m 12)) ∧
    (s.cur.saved = [34, 0] → exec (.spawn m d a b) s = .next (done (s.wvar d 0#64) m 12)) ∧
    (s.cur.saved = [33] → exec (.spawn m d a b) s = .next (done (s.wvar d 1#64) m 12)) ∧
    (s.cur.saved = [] → (s.x a).toNat ≥ 4608 → exec (.spawn m d a b) s = .next (done (s.wvar d 0#64) m 12))

/-- R296, R326: QPUSH into a queue with room in its bank appends the record, TAIL one more; QPOP takes the oldest one of the bank, HEAD
one more, and stores it at X[b], a refill of the bank from the ring begun where half of it is free; BADQ, DISABLED, FOREIGN and BROKEN come first, nothing moved. The firing has no reservation. -/
def Sys2Proof.Spec.queuePushAndPop : Prop :=
  ∀ (s s' u : State) (m : Bool) (d a b c : BitVec 6) (l : List (BitVec 8)), Ready s [a.toNat, b.toNat, c.toNat, d.toNat] →
    let id := (s.x a).toNat
    let q := s.squeue id
    let I := Instr.qpush m d a b c
    let O := Instr.qpop m d a b c
    let good : Prop := id < 4608 ∧ q.enable = true ∧ q.ctx = s.myCore.ctxid ∧ q.broken = false
    let bad (n : Word) : Prop := exec I s = .next (done (s.wvar d n) m 12) ∧ exec O s = .next (done (s.wvar d n) m 12)
    (id ≥ 4608 → bad 7#64) ∧ (id < 4608 → q.enable = false → bad 9#64) ∧
    (id < 4608 → q.enable = true → q.ctx ≠ s.myCore.ctxid → bad 8#64) ∧
    (id < 4608 → q.enable = true → q.ctx = s.myCore.ctxid → q.broken = true → bad 10#64) ∧
    (good → s.cur.saved = [] → s.cur.resv = none → s'.cur = s.cur → s'.squeue id = q →
      s.loadRun I (s.x b) ((List.range 64).map fun n => (s.x b + BitVec.ofNat 64 n).toNat) 8 64 0 {} State.byteNow = .got s' l →
      s'.relWaits true 0xFFFF = false →
      q.tail - q.head = q.bank.length → q.bank.length < q.share → q.resvPush < q.room →
      exec I s = .next (done ((s'.setSQueue id { q with bank := q.bank ++ [l], tail := q.tail + 1 }).wvar d 0#64) m 12)) ∧
    (∀ r, good → s.cur.resv = none → q.bank = l :: r → q.tail - q.head > q.resvPop → s'.cur = s.cur → s'.squeue id = q → s'.myCore = s.myCore →
      u.squeue id = q → u.cur = s.cur →
      s.storeReady O (s.x b) 64 = .got s' () →
      s'.storeRun O (s.x b) 8 (((List.range 64).map fun n => (s.x b + BitVec.ofNat 64 n).toNat).zip l) 8 64 {} = .got u () →
      let refill := q.refill || (decide (q.tail - q.head ≠ q.bank.length) && decide (r.length ≤ q.share / 2))
      exec O s = .next (done ((u.setSQueue id { q with bank := r, head := q.head + 1, refill := refill }).wvar d 0#64) m 12))

/-- R327, R328: QSTAT gives the state of a queue in one word; ACTDEF binds a tag below 60 with nothing of its own under way as an actor of
two usable queues, its enables and priorities unchanged, and refuses a busy tag. -/
def Sys2Proof.Spec.queueStateAndActors : Prop :=
  ∀ (s : State) (m : Bool) (d a b c : BitVec 6) (prod cons : BitVec 4) (noout : Bool) (tag : BitVec 6), Ready s [a.toNat, b.toNat, c.toNat, d.toNat] →
    let id := (s.x a).toNat
    let q := s.squeue id
    let good (id : Nat) : Prop := id < 4608 ∧ (s.squeue id).enable = true ∧ (s.squeue id).ctx = s.myCore.ctxid
    let n := tag.toNat
    let t := s.myCore.tag n
    let entry := if s.x c = 0#64 then t.entry else s.x c
    let idle : Prop := s.tagBusy s.turn n = false ∧ s.waiting s.turn n = [] ∧ n ∉ s.myCore.awaits
    let i := Instr.actdef m d a b c prod cons noout tag
    (id ≥ 4608 → exec (.qstat m d a) s = .next (done (s.wvar d (BitVec.ofNat 64 (7 * 2 ^ 56))) m 12)) ∧
    (id < 4608 → exec (.qstat m d a) s = .next (done (s.wvar d (BitVec.ofNat 64 ((if q.ctx = s.myCore.ctxid then 0 else 8 * 2 ^ 56) +
      (if q.broken then 2 ^ 49 else 0) + (if q.enable then 2 ^ 48 else 0) + q.bank.length * 2 ^ 32 + (q.tail - q.head) % 2 ^ 32))) m 12)) ∧
    (n ≥ 60 → exec i s = .next (done (s.wvar d 2#64) m 12)) ∧
    (n < 60 → ¬idle → exec i s = .next (done (s.wvar d 0xB#64) m 12)) ∧
    (n < 60 → idle → good id → (noout = false → good (s.x b).toNat) → (s.x c).toNat % 4 = 0 → entry ≠ 0#64 →
      exec i s = .next (done ((s.updMine fun v => { v with tags := v.tags.put n { t with
        kind := .actor id (if noout then 0 else (s.x b).toNat) (cons.toNat + 1) (if noout then 0 else prod.toNat + 1) noout, entry := entry } }).wvar d 0#64) m 12))

/-- R296, R326 to R328: stage queues and the actors bound to them. -/
def Obligations.QueuesAndActors : Prop := queuePushAndPop ∧ queueStateAndActors

/-! ### Cells (R239 to R271) -/

namespace Sys2Proof.Spec
/-- The table and `room` bytes of its page lie in die `d`, which an RDUP entry names as its home. -/
def OneDie (w : Word) (d t room : Nat) : Prop :=
  (entRdup w = true → entHome w = d) ∧ ∀ o, o < max room 0x1000 → regionOf (t + o) = .main d
/-- The checks of T pass as far as its page (R260, R449): CELL, in main memory of this package, `room` bytes from T to its end. -/
def SheetPage (s : State) (a : BitVec 6) (d t room : Nat) : Prop :=
  let ta := (s.x a).toNat
  isTsc s.turn = false ∧ s.acqWait = false ∧ ta < 2 ^ 56 ∧ ta % 4096 = 0 ∧ inSelf ta = false ∧ inHole ta = false ∧
    ∃ e l, s.tlbLook s.turn s.myCore.ctxid ta = some (e, l) ∧ e.pa ta = t ∧ room = e.va + 2 ^ pageBits e.w - ta ∧
      OneDie e.w d t room ∧ entCell e.w = true ∧ s.isOwn t = true
/-- All checks of T pass: a sheet of the core's context is there. -/
def SheetAt (s : State) (a : BitVec 6) (d t room : Nat) : Prop :=
  SheetPage s a d t room ∧ ∃ x, s.sheetE d t = some x ∧ x.ctx = s.myCore.ctxid ∧ OneDie x.w d t room
/-- The state once T is translated: of the checks only the A bits stay (R372). -/
def sheetS (s : State) (a : BitVec 6) : State := used s (s.x a).toNat false
/-- A status word with this code, cell and detail, and with any generation. -/
def St (w : Word) (st cell detail : Nat) : Prop := w.toNat % 2 ^ 32 = cell * 2 ^ 16 + detail * 2 ^ 8 + st
/-- The generation of a status word. -/
def gen (w : Word) : Nat := w.toNat / 2 ^ 32
/-- `i` completes with a status in X[d] and a state before it that `P` describes. -/
def EndsSt (i : Instr) (s : State) (m : Bool) (len : Nat) (d : BitVec 6) (P : State → Word → Prop) : Prop :=
  ∃ u w, P u w ∧ exec i s = .next (done (u.wvar d w) m len)
/-- The double word at `lo` of a table on die `d` holds `v` now, in every die's replica of an RDUP page too (R209), and every other
byte of memory reads as before. -/
def TableWord (s u : State) (d t lo v : Nat) : Prop :=
  ∀ x, s.sheetE d t = some x →
    let at_ (e : Nat) : Nat := lo - 0x1800000000 * d + 0x1800000000 * e
    let has (e : Nat) : Prop := e = d ∨ (e < 6 ∧ entRdup x.w = true)
    (∀ e, has e → leBytes u (at_ e) 8 = v) ∧ ∀ b, (∀ e, has e → b < at_ e ∨ at_ e + 8 ≤ b) → u.rd b = s.rd b
end Sys2Proof.Spec

/-- R239, R251, R252, R262 to R264: CDEF of cell 0 makes a sheet in setup, with that cell; in setup it appends a fresh input cell with
the record's base, shape and layout, or makes a cell one again, its binding gone; absent and late definitions, and a bad record, say so
and change no memory. CBIND and CUNB apply in setup; later they stage the edit, CUNB an empty record, for the generation
they open, and are BUSY without a slot or a generation for it; a cycle traps. `v` is the state after the record `l` is read.
Fields of a status that no rule gives are free or zero by the model's reading (log 61, 63), and so are the cell a cycle shows (log 58) and
the form of an edit that unbinds (log 37); every table write reaches the replicas at once (log 154). -/
def Obligations.SheetDefinition : Prop :=
  ∀ (s v : State) (m : Bool) (d a b : BitVec 6) (c : BitVec 16) (l : List (BitVec 8)) (dd t room : Nat),
    Ready s [a.toNat, b.toNat, d.toNat] → v.mem = s.mem → v.x a = s.x a → v.sheetE dd t = s.sheetE dd t →
    v.myCore.ctxid = s.myCore.ctxid → l.length = 64 →
    let n := c.toNat
    let D := Instr.cdef m d a b c
    let B := Instr.cbind m d a b c
    let U := Instr.cunb m d a c
    let told (i : Instr) (st : Nat) : Prop := EndsSt i s m 12 d fun u w => St w st n 0 ∧ u.mem = s.mem
    let zeros := List.replicate 64 0#8
    let h := s.opened t
    let slot (k : Nat) : Nat := t + 0x100 + 128 * k
    let staged (u : State) (k : Nat) (r : List (BitVec 8)) : State :=
      (u.seqStore t (slot k) r).seqN t (slot k + 0x40) 8 (gnext h * 2 ^ 32 + 2 ^ 31 + n)
    let record (u : State) : Prop := ∀ j, j < 32 → u.rd (t + 0x1000 + 128 * n + j) = l.getD j 0#8
    (SheetPage s a dd t room → (sheetS s a).cellRecord D b = .got v l → n = 0 →
      (defBad l room 0 = true → told D 5) ∧
      (defBad l room 0 = false → v.defBufs l (s.x a).toNat 1 = .ok v → Memory.wf s.mem = true →
        (s.sheetE dd t = none → (v.die dd).dir.length ≥ 4096 → told D 3) ∧
        (s.sheetE dd t ≠ none ∨ (v.die dd).dir.length < 4096 → EndsSt D s m 12 d fun u w => St w 0 0 0 ∧ record u ∧
          u.ncells t = 1 ∧ u.setup t = true ∧ u.opened t = 0 ∧ u.done t = 0 ∧ u.kind t 0 = 1 ∧ leBytes u (t + 0x18) 8 = 2 ^ 32 ∧
          ∃ x, u.sheetE dd t = some x ∧ x.ctx = s.myCore.ctxid ∧ x.va = (s.x a).toNat))) ∧
    (SheetAt s a dd t room →
    ((sheetS s a).cellRecord D b = .got v l → n ≠ 0 →
      (s.setup t = true → n > s.ncells t → told D 7) ∧ (s.setup t = false → n ≠ s.ncells t → told D 8) ∧
      (s.setup t = true → n ≤ s.ncells t → defBad l room n = true → told D 5) ∧
      (s.setup t = true → n ≤ s.ncells t → defBad l room n = false → v.defBufs l (s.x a).toNat (max (s.ncells t) (n + 1)) = .ok v →
        Memory.wf s.mem = true →
        (n = s.ncells t → EndsSt D s m 12 d fun u w => St w 0 n 0 ∧ u.ncells t = n + 1 ∧ u.kind t n = 1 ∧ record u) ∧
        (n < s.ncells t → 0x1000 + 128 * s.ncells t ≤ room → (∀ j, j < s.ncells t → s.nprec t j ≤ 8) → EndsSt D s m 12 d fun u w =>
          St w 0 n 0 ∧ u.ncells t = s.ncells t ∧ u.kind t n = 1 ∧ u.nprec t n = 0 ∧ record u))) ∧
    ((sheetS s a).cellRecord B b = .got v l →
      (n ≥ s.ncells t → told B 7) ∧ (n < s.ncells t → bindBad l (s.ncells t) = true → told B 5) ∧
      (n < s.ncells t → bindBad l (s.ncells t) = false →
        (∀ p, v.findPath t h (bindPrecs l) sheetFuel [[n]] [] = some p → TakesTrap v v.turn v.fi →
          exec B s = .next (trapState (v.faultRec t h n 8 0#64 (p.take 8))
            ⟨0x10, s.x a, BitVec.ofNat 64 n, BitVec.ofNat 64 (Nat.min 8 p.length)⟩ v.cur.pc)) ∧
        (v.findPath t h (bindPrecs l) sheetFuel [[n]] [] = none → v.rankBad t h n (bindPrecs l) = true → told B 4) ∧
        (v.findPath t h (bindPrecs l) sheetFuel [[n]] [] = none → v.rankBad t h n (bindPrecs l) = false →
          (s.setup t = true → EndsSt B s m 12 d fun u w => St w 0 n 0 ∧ u = (v.applyBind t n l).ticked) ∧
          (s.setup t = false → s.unfinished t ≥ 4 ∨ s.freeEdit t = none → told B 3) ∧
          (∀ k, s.setup t = false → s.unfinished t < 4 → s.freeEdit t = some k → EndsSt B s m 12 d fun u w =>
            St w 0 n 0 ∧ gen w = gnext h ∧ u = (staged v k l).openGen dd t [n] none)))) ∧
    ((n ≥ s.ncells t → told U 7) ∧ (n < s.ncells t → s.formulaAt t h n = false → told U 6) ∧
      (n < s.ncells t → s.formulaAt t h n = true →
        (s.setup t = true → EndsSt U s m 12 d fun u w => St w 0 n 0 ∧ u = ((sheetS s a).applyBind t n zeros).ticked) ∧
        (s.setup t = false → s.unfinished t ≥ 4 ∨ s.freeEdit t = none → told U 3) ∧
        (∀ k, s.setup t = false → s.unfinished t < 4 → s.freeEdit t = some k → EndsSt U s m 12 d fun u w =>
          St w 0 n 0 ∧ gen w = gnext h ∧ u = (staged (sheetS s a) k zeros).openGen dd t [] none))))

/-- R249, R250, R265 to R267: CLD gives the address of the version a pinned or the newest generation reads, with its generation; CST in
setup copies the tile into the front buffer, and a poisoned cell is no longer one, later it opens a generation; CSNAP pins the newest
generation and CUNSNAP lets it go, and a handle that pins nothing traps.
Fields of a status that no rule gives are free or zero by the model's reading (log 61, 62), and that CST moves its tile in one act is
the model's choice (log 60), as is that table writes reach the replicas at once (log 154). -/
def Obligations.SheetAccess : Prop :=
  ∀ (s v : State) (m : Bool) (d a b e c : BitVec 6) (k : BitVec 16) (addr : Word) (dd t room g p : Nat),
    Ready s [a.toNat, b.toNat, c.toNat, d.toNat, e.toNat] → SheetAt s a dd t room → Memory.wf s.mem = true → s.cur.saved = [] →
    let n := k.toNat
    let L := Instr.cld m d a b e c k
    let S := Instr.cst m d a b c k
    let H (j : Nat) : Nat := leBytes s (t + 0x20 + 8 * j) 8
    let live (j : Nat) : Prop := H j / 2 ^ 32 % 2 = 1
    let pinned (h : Word) (j : Nat) : Prop := j < 16 ∧ h.toNat / 2 ^ 32 % 2 ^ 16 = j ∧ live j ∧ H j / 2 ^ 48 = h.toNat / 2 ^ 48 ∧
      H j % 2 ^ 32 = h.toNat % 2 ^ 32
    let ends2 (i : Instr) (x : Word) (st : Nat) (cell : Nat) (P : State → Word → Prop) : Prop :=
      ∃ (u : State) (w : Word), exec i s = .next (done ((u.wvar d x).wvar e w) m 12) ∧ St w st cell 0 ∧ P u w
    (n ≥ s.ncells t → (s.x b = 0#64 ∨ pinned (s.x b) p) → ends2 L 0#64 7 n fun u _ => u.mem = s.mem) ∧
    (n < s.ncells t → s.setup t = true → (s.x b = 0#64 ∨ pinned (s.x b) p) → ends2 L 0#64 8 n fun u _ => u.mem = s.mem) ∧
    (n < s.ncells t → s.setup t = false → (s.x b = 0#64 ∧ g = s.opened t ∨ s.x b ≠ 0#64 ∧ pinned (s.x b) p ∧ g = (s.x b).toNat % 2 ^ 32) →
      glt g (leBytes s (t + 0x1000 + 128 * n + 0x48) 8 / 2 ^ 32) = false →
      (s.cellWaits t n g = true → (s.x c).toNat % 2 ^ 48 = 0 → s.cur.expired = false → ends2 L 0#64 2 n fun u _ => u.mem = s.mem) ∧
      (s.cellWaits t n g = false → s.errAt dd t n g = none → s.poisonedFor dd t n g = false → s.bufAt t n g = some addr →
        ends2 L addr 0 n fun u w => gen w = g % 2 ^ 32 ∧ u.mem = s.mem)) ∧
    ((∀ j, ¬pinned (s.x b) j) → TakesTrap s s.turn s.fi →
      (s.x b ≠ 0#64 → exec L s = .next (trapState (sheetS s a) ⟨0xE, s.x a, BitVec.ofNat 64 ((s.x b).toNat % 2 ^ 32), 0#64⟩ s.cur.pc)) ∧
      (s.cur.waits = [] →
        exec (.cunsnap m a b) s = .next (trapState (sheetS s a) ⟨0xE, s.x a, BitVec.ofNat 64 ((s.x b).toNat % 2 ^ 32), 0#64⟩ s.cur.pc))) ∧
    (pinned (s.x b) p → s.cur.waits = [] → ∃ u : State, exec (.cunsnap m a b) s = .next (done u m 12) ∧
      TableWord s u dd t (t + 0x20 + 8 * p) (H p - 2 ^ 32)) ∧
    (s.relWaits true 0xFFFF = false → s.cur.fm.map (·.t) ≠ some t →
      (n ≥ s.ncells t → EndsSt S s m 12 d fun u w => St w 7 n 0 ∧ u.mem = s.mem) ∧
      (n < s.ncells t → s.formulaAt t (s.opened t) n = true → EndsSt S s m 12 d fun u w => St w 6 n 0 ∧ u.mem = s.mem) ∧
      (n < s.ncells t → s.formulaAt t (s.opened t) n = false → s.setup t = true →
        (sheetS s a).cstCopy (s.x b) (s.frontBuf t n) (s.bufBytes t n) = .done v → v.cstDue = false →
        EndsSt S s m 12 d fun u w => St w 0 n 0 ∧ gen w = v.opened t ∧ u = v.cured t n) ∧
      (n < s.ncells t → s.formulaAt t (s.opened t) n = false → s.setup t = false → s.backFree t n = true → s.cstOther t n = false →
        s.cellState t n ≠ 2 → (sheetS s a).cstCopy (s.x b) (s.backBuf t n) (s.bufBytes t n) = .done v → v.unfinished t < 4 → v.cstDue = false →
        EndsSt S s m 12 d fun u w => St w 0 n 0 ∧ gen w = gnext (v.opened t) ∧
          u = v.openGen dd t (v.depsAt t (gnext (v.opened t)) n) (some n))) ∧
    (s.setup t = true → ends2 (.csnap m d a e) 0#64 8 0 fun u _ => u.mem = s.mem) ∧
    (s.setup t = false → (∀ j, j < 16 → live j) → ends2 (.csnap m d a e) 0#64 0xB 0 fun u _ => u.mem = s.mem) ∧
    (s.setup t = false → p < 16 → ¬live p → (∀ j, j < p → live j) →
      let serial := (H p / 2 ^ 48 + 1) % 65536
      ends2 (.csnap m d a e) (BitVec.ofNat 64 (serial * 2 ^ 48 + p * 2 ^ 32 + s.opened t)) 0 0 fun u w => gen w = s.opened t ∧
        TableWord s u dd t (t + 0x20 + 8 * p) (serial * 2 ^ 48 + 2 ^ 32 + s.opened t))

/-- R240, R246, R268 to R271: CGEN holds, releases, limits and starts a sheet and waits for a generation; CSTAT reads its words; CPREC gives
the buffers of the formula the firing computes; CCOMMIT commits it, once.
Fields of a status that no rule gives are free or zero by the model's reading (log 61); table writes reach the replicas at once (log 154). -/
def Obligations.SheetControl : Prop :=
  ∀ (s : State) (m : Bool) (d a b c : BitVec 6) (k : BitVec 16) (sel : BitVec 4) (dd t room : Nat) (fm : Formula),
    Ready s [a.toNat, b.toNat, c.toNat, d.toNat] →
    let n := k.toNat
    let H (off : Nat) : Nat := leBytes s (t + off) 8
    let kept (i : Instr) (st : Nat) : Prop := EndsSt i s m 12 d fun u w => St w st 0 0 ∧ u.mem = s.mem
    let writes (i : Instr) (off v : Nat) : Prop := EndsSt i s m 12 d fun u w => St w 0 0 0 ∧ TableWord s u dd t (t + off) v
    let stat (v : Nat) : Prop := ∃ u : State, exec (.cstat m d a k sel) s = .next (done (u.wvar d (BitVec.ofNat 64 v)) m 12) ∧ u.mem = s.mem ∧ u.cur = s.cur
    (SheetAt s a dd t room →
      (sel = 0#4 → stat (if n < s.ncells t then H (0x1000 + 128 * n + 0x28) else 0)) ∧ (sel = 1#4 → stat (H 8)) ∧
      (sel = 2#4 → stat (if n < 8 then H (0xC0 + 8 * n) else 0)) ∧
      (s.setup t = false → kept (.cgenStart m d a) 8) ∧
      (s.setup t = true → EndsSt (.cgenStart m d a) s m 12 d fun u w => St w 0 0 0 ∧ gen w = 1 ∧ u = (sheetS s a).startSheet dd t) ∧
      (gle ((s.x b).toNat % 2 ^ 32) (s.done t) = true → kept (.cgenWaitgen m d a b c) 0) ∧
      (gle ((s.x b).toNat % 2 ^ 32) (s.done t) = false → (s.x c).toNat % 2 ^ 48 = 0 → kept (.cgenWaitgen m d a b c) 2) ∧
      ((s.x b).toNat % 2 ^ 48 = 0 → kept (.cgenPinlim m d a b) 5) ∧
      (Memory.wf s.mem = true →
        ((s.x b).toNat % 2 ^ 48 ≠ 0 → writes (.cgenPinlim m d a b) 0x18 ((s.x b).toNat % 2 ^ 48)) ∧
        writes (.cgenHold m d a b) 0x10 (H 0x10 / 2 ^ 16 * 2 ^ 16 + 2 ^ 15 + H 0x10 / 2 ^ 12 % 8 * 2 ^ 12 + (s.x b).toNat % 2 ^ 12) ∧
        writes (.cgenRelease m d a) 0x10 (H 0x10 - H 0x10 / 2 ^ 15 % 2 * 2 ^ 15))) ∧
    (s.cur.computing = none → exec (.cprec m d a) s = .next (done (s.wvar d 0#64) m 4) ∧
      ∃ (w : Word) (u : State), exec (.ccommit m d a) s = .next (done (u.wvar d w) m 4) ∧ w.toNat % 2 ^ 8 = 9 ∧ u.mem = s.mem) ∧
    (s.cur.computing = some fm → fm.cell < 2 ^ 16 → fm.gen < 2 ^ 32 →
      ((s.x a).toNat = 8 → exec (.cprec m d a) s = .next (done (s.wvar d (s.backBuf fm.t fm.cell)) m 4)) ∧
      (∀ v, (s.x a).toNat < s.nprec fm.t fm.cell → (s.x a).toNat < 8 → s.bufAt fm.t (s.prec fm.t fm.cell (s.x a).toNat) fm.gen = some v →
        exec (.cprec m d a) s = .next (done (s.wvar d v) m 4)) ∧
      (s.acqWait = false → s.relWaits true 0xFFFF = false → s.cur.cps.open_ = 0 →
        let s1 := s.updCur fun r => { r with fm := some { fm with committed := true } }
        ∃ (w : Word) (u : State), exec (.ccommit m d a) s = .next (done (u.wvar d w) m 4) ∧ gen w = fm.gen ∧ w.toNat / 2 ^ 16 % 2 ^ 16 = fm.cell ∧
          (w.toNat % 2 ^ 8 = 0 ∨ w.toNat % 2 ^ 8 = 1) ∧
          u = if (s.x a).toNat % 2 ^ 8 ≠ 0 then s1.cellFail fm 2 (BitVec.ofNat 64 ((s.x a).toNat % 2 ^ 8)) else s1.memberCommit (sheetDie fm.t) fm))

/-! ### Key-value spaces, free lists, the Lantern (R329 to R352) -/

namespace Sys2Proof.Spec
/-- The header at X[a] reads as `v` and is good (R331); `s'` is the state after the read. -/
def KvAt (s s' : State) (i : Instr) (a : BitVec 6) (v : Kv) : Prop :=
  ∃ l, s.loadRun i (s.x a) ((List.range 64).map ((s.x a).toNat + ·)) 64 64 0 {} State.byteNow = .got s' l ∧ v = kvOf (s.x a) l ∧
    kvBad s'.myCore l v = false ∧ (∀ n, s'.x n = s.x n) ∧ s'.turn = s.turn ∧ s'.cur = s.cur
/-- The header at X[a] reads, and is bad. -/
def KvBadAt (s s' : State) (i : Instr) (a : BitVec 6) : Prop :=
  ∃ l, s.loadRun i (s.x a) ((List.range 64).map ((s.x a).toNat + ·)) 64 64 0 {} State.byteNow = .got s' l ∧ kvBad s'.myCore l (kvOf (s.x a) l) = true
/-- Consecutive addresses. -/
def run (b n : Nat) : List Nat := (List.range n).map (b + ·)
/-- A result of a code and a location. -/
def kvWord (st loc : Nat) : Word := BitVec.ofNat 64 (loc * 2 ^ 32 + st)
end Sys2Proof.Spec

/-- R331, R334, R335, R338, R340, R342 to R344: a bad header gives BADDESC; KLOOK gives the entry word and, for a page, its address, or the ring
home of a key that is not there; KAPPEND refuses a token that is not finite, a stub, a position out of order and a key whose home is
elsewhere, traps on a cell's entry, and else writes the page, of an absent key one newly taken from the area, and gives LOC, count and scale;
KQRY sends one query for each block to its home while reply slots last; KREHOME refuses a key without a page and a bad target, else marks
the key and sends the move, and gives what the move came to.
Status bits no rule gives are zero by the model's reading (log 66, 67), and KAPPEND reads and writes the page by the firing's own loads
and stores (log 68). -/
def Obligations.KeyValueSpaces : Prop :=
  ∀ (s s' : State) (m : Bool) (d a b e c rtag : BitVec 6) (fwd nb : BitVec 4) (v : Kv) (n h : Nat), Ready s [a.toNat, b.toNat, c.toNat, e.toNat, d.toNat] →
    let key := (s.x b).toNat
    let L := Instr.klook m d a b e fwd
    let A := Instr.kappend m d a b c
    let Q := Instr.kqry m d a b e c rtag nb
    let R := Instr.krehome m d a b c
    let P := 64 + 32 * v.d
    let look (u : State) (p q : Word) : Prop := exec L s = .next (done ((u.wvar d p).wvar e q) m 12)
    let one (i : Instr) (u : State) (w : Word) : Prop := exec i s = .next (done (u.wvar d w) m 12)
    (KvBadAt s s' L a → look s' 0#64 0#64) ∧ (KvBadAt s s' A a → one A s' 8#64) ∧ (KvBadAt s s' Q a → one Q s' 8#64) ∧
    (KvAt s s' L a v → s'.myCore.inTransit v key = false →
      (s'.probe s'.turn v key = .found n →
        let w := s'.cairnW s'.turn v n
        let kind := w.toNat / 2 ^ 62
        let loc := w.toNat % 2 ^ 32
        (kind = 3 → fwd ≠ 1#4 → look s' w 0#64) ∧ (kind ≠ 3 → w.toNat / 2 ^ 61 % 2 = 1 → look s' w 0#64) ∧
        (kind = 1 → w.toNat / 2 ^ 61 % 2 = 0 → look s' w (BitVec.ofNat 64 (0xFF000000000000 + v.slots + loc * P))) ∧
        (kind = 2 → w.toNat / 2 ^ 61 % 2 = 0 → let l := (s'.die (dieOf s'.turn)).fl
          look s' w (BitVec.ofNat 64 (l.vbase.toNat + loc * l.stride)))) ∧
      (∀ u j, (s'.probe s'.turn v key = .empty j ∨ s'.probe s'.turn v key = .full) → s'.ring L v (kvHash key) = .got u h → h < 4608 →
        look u (BitVec.ofNat 64 h) 0#64)) ∧
    (∀ (s2 : State) l, KvAt s s' A a v → s'.loadRun A (s'.x b) ((List.range (4 * v.d)).map ((s'.x b).toNat + ·)) 8 (4 * v.d) 0 {} State.byteNow = .got s2 l →
      (∀ r, s2.x r = s.x r) → s2.turn = s.turn → s2.cur = s.cur →
      let tok := bf16s l (2 * v.d)
      let pos := (s.x c).toNat % 2 ^ 32
      let k2 := (s.x c).toNat / 2 ^ 32 * 2 ^ 32 + pos / 16
      let t := pos % 16
      ((∃ x ∈ tok, x.isNan = true ∨ x.isInf = true) → one A s2 7#64) ∧
      ((∀ x ∈ tok, x.isNan = false ∧ x.isInf = false) → s2.myCore.inTransit v k2 = false → s2.probe s2.turn v k2 = .found n →
        let w := s2.cairnW s2.turn v n
        let kind := w.toNat / 2 ^ 62
        let loc := w.toNat % 2 ^ 32
        let va := s2.pageVa s2.turn v kind loc
        (kind = 3 → one A s2 (kvWord 4 loc)) ∧
        (kind ≠ 3 → w.toNat / 2 ^ 61 % 2 = 1 → TakesTrap s2 s2.turn s2.fi → exec A s =
          .next (trapState s2 ⟨7, BitVec.ofNat 64 (0xFF000000000000 + v.cairn + 0x40 + 16 * n), (firstWord A).zeroExtend 64, 0#64⟩ s2.cur.pc)) ∧
        (kind ≠ 3 → w.toNat / 2 ^ 61 % 2 = 0 → ∀ (s3 s4 s5 : State) hd old,
          s2.loadRun A (BitVec.ofNat 64 va) (run va 3) 1 3 0 {} State.byteNow = .got s3 hd →
          let q := appHead v hd false tok
          let r := appendPage v va q old false tok t
          (t ≠ (hd.getD 1 0#8).toNat → one A s3 3#64) ∧
          (t = (hd.getD 1 0#8).toNat →
            ((q.up && !q.sat) = false → s4 = s3 ∧ old = []) →
            ((q.up && !q.sat) = true → s3.loadRun A (BitVec.ofNat 64 va) (v.liveRows va q) 1 P 0 {} State.byteNow = .got s4 old) →
            s4.relWaits false 0xFFFF = false → s4.storeRun A (BitVec.ofNat 64 va) 1 r.bytes 1 P {} = .got s5 () →
            one A (s5.flag r.flags) (BitVec.ofNat 64 (loc * 2 ^ 32 + (t + 1) * 2 ^ 16 + r.scale * 2 ^ 8 + r.code))))) ∧
      (∀ (s3 : State) home, (∀ x ∈ tok, x.isNan = false ∧ x.isInf = false) → s2.myCore.inTransit v k2 = false →
        (s2.probe s2.turn v k2 = .empty n ∨ s2.probe s2.turn v k2 = .full) → s2.ring A v (kvHash k2) = .got s3 home → s3.turn = s.turn →
        (home ≥ 4608 → one A s3 8#64) ∧ (home < 4608 → home ≠ s.turn → one A s3 (kvWord 5 home)) ∧
        (home < 4608 → home = s.turn → t ≠ 0 → one A s3 3#64) ∧
        (home < 4608 → home = s.turn → t = 0 → s2.probe s2.turn v k2 = .full → one A s3 6#64) ∧
        (∀ (s5 : State) j, home < 4608 → home = s.turn → t = 0 → s2.probe s2.turn v k2 = .empty n → s3.freePage s.turn v = some j →
          let va := 0xFF000000000000 + v.slots + j * P
          let r := appendPage v va (appHead v [] true tok) [] true tok 0
          s3.relWaits false 0xFFFF = false → s3.storeRun A (BitVec.ofNat 64 va) 1 r.bytes 1 P {} = .got s5 () →
          one A ((((s5.setCairn s.turn v n k2 (2 ^ 62 + j)).liveAdd s.turn v 1).setFree s.turn v j false).flag r.flags)
            (BitVec.ofNat 64 (j * 2 ^ 32 + 2 ^ 16 + r.scale * 2 ^ 8))))) ∧
    (KvAt s s' Q a v → s.cur.saved = [] →
      ((key % 64 ≠ 0 ∨ (s.x e).toNat % 64 ≠ 0 ∨ inSelf key = true ∨ inSelf (s.x e).toNat = true) → one Q s' 8#64) ∧
      (key % 64 = 0 → (s.x e).toNat % 64 = 0 → inSelf key = false → inSelf (s.x e).toNat = false →
        ((s'.myCore.tag rtag.toNat).kind ≠ .affine → one Q s' 2#64) ∧
        ((s'.myCore.tag rtag.toNat).kind = .affine →
          let B := (s.x c).toNat
          (B % 2 ^ 32 + nb.toNat ≥ 2 ^ 32 → one Q s' 8#64) ∧
          (∀ (u : State) hs, B % 2 ^ 32 + nb.toNat < 2 ^ 32 → s'.homes Q v ((List.range (nb.toNat + 1)).map (B + ·)) = .got u hs →
            u.turn = s.turn → u.cur = s.cur → (∀ r, u.x r = s.x r) →
            ((∃ h ∈ hs, h ≥ 4608) → one Q u 8#64) ∧
            (∀ j, (∀ h ∈ hs, h < 4608) → u.relWaits true 0xFFFF = false → j ≤ nb.toNat + 1 → u.myCore.replySlots + j ≤ max 8 u.myCore.replySlots →
              (j = nb.toNat + 1 ∨ u.myCore.replySlots + j ≥ 8) → u.myCore.outbox.length + j ≤ u.myCore.obuflim →
              let g (i : Nat) : Msg := { ctx := u.myCore.ctxid, dst := hs.getD i 0, src := s.turn, rply := true, tag := v.qtag, rtag := rtag.toNat,
                                         payload := queryRec (B + i) key (((s.x e).toNat + i * (64 + 4 * v.d)) % 2 ^ 64) v.d i }
              one Q (u.updMine fun q => { q with
                outbox := q.outbox ++ (List.range j).map (fun i => (⟨g i, false⟩ : OutE)), awaits := q.awaits ++ List.replicate j rtag.toNat })
                (BitVec.ofNat 64 (j * 256))))))) ∧
    (KvAt s s' R a v → s.cur.saved = [] → s'.myCore.inTransit v key = false →
      (∀ j, (s'.probe s'.turn v key = .empty j ∨ s'.probe s'.turn v key = .full) → one R s' 9#64) ∧
      (s'.probe s'.turn v key = .found n →
        let w := s'.cairnW s'.turn v n
        let kind := w.toNat / 2 ^ 62
        let dst := (s.x c).toNat
        let sent (u : State) (page : List (BitVec 8)) : Prop := exec R s =
          .next (((u.updMine fun q => { q with moving := q.moving ++ [(v.cairn, key, u.fi)] }).updCur fun r =>
            { r with saved := 51 :: dst :: key :: w.toNat :: v.pack ++ page.map (·.toNat) }).stay .wait)
        (kind = 3 → one R s' 9#64) ∧ (kind ≠ 3 → dst ≥ 4608 ∨ dst = s.turn → one R s' 8#64) ∧
        (kind ≠ 3 → dst < 4608 → dst ≠ s.turn →
          (w.toNat / 2 ^ 61 % 2 = 1 → sent s' []) ∧
          (∀ (u : State) l, w.toNat / 2 ^ 61 % 2 = 0 → let va := s'.pageVa s'.turn v kind (w.toNat % 2 ^ 32)
            s'.loadRun R (BitVec.ofNat 64 va) (run va P) 1 P 0 {} State.byteNow = .got u l → u.relWaits true 0xFFFF = false → sent u l)))) ∧
    (s.cur.saved = [53, n, h] → one R s (kvWord n h))

namespace Sys2Proof.Spec
/-- A unit of die `d` reaches these addresses of the context with no walk, in memory of this package, at `pas`: each has an entry with the
right in the die's last level and is no replicated page, what is read carries no poison, and what is written waits for no acknowledgement
(R210, R335, R366, R369). -/
def UnitAt (s : State) (d ctx : Nat) (wr : Bool) (as pas : List Nat) : Prop :=
  as.length = pas.length ∧ ∀ j, j < as.length → as.getD j 0 < 2 ^ 56 ∧ s.isOwn (pas.getD j 0) = true ∧
    (∃ h, regionOf (pas.getD j 0) = .main h) ∧ (wr = false → s.poisonedAt (pas.getD j 0) 1 = false) ∧
    (wr = true → s.lineHeld (pas.getD j 0) = false) ∧
    ∃ e, findEnt (s.die d).tlb ctx (as.getD j 0) = some e ∧ fld e.w (if wr then 61 else 62) 1 = 1 ∧ entRdup e.w = false ∧
      e.pa (as.getD j 0) = pas.getD j 0
/-- `u` holds the bytes `l` at the places `pas`, and every other byte as `s` has it. -/
def Wrote (s u : State) (pas : List Nat) (l : List (BitVec 8)) : Prop :=
  (∀ j, j < pas.length → u.rd (pas.getD j 0) = l.getD j 0#8) ∧ ∀ b, b ∉ pas → u.rd b = s.rd b
end Sys2Proof.Spec

/-- R335 to R337: the free list pops its newest page and pushes above it, and says why not: BADUNIT, DISABLED, FOREIGN, EMPTY, BADPAGE, FULL.
Status bits no rule gives are zero by the model's reading (log 66). -/
def Sys2Proof.Spec.freeList : Prop :=
  ∀ (s : State) (m : Bool) (d a b : BitVec 6), Ready s [a.toNat, b.toNat, d.toNat] → s.acqWait = false →
    let D := (s.x a).toNat
    let l := (s.die D).fl
    let ctx := s.myCore.ctxid
    let one (i : Instr) (w : Word) : Prop := exec i s = .next (done (s.wvar d w) m 4)
    let P := Instr.flpop m d a
    let F := Instr.flpush m d a b
    let page := (s.x b).toNat % 2 ^ 32
    let good : Prop := D < 6 ∧ l.enable = true ∧ l.ctx = ctx
    (D ≥ 6 → one P 0x12#64) ∧ (D < 6 → l.enable = false → one P 0x11#64) ∧ (D < 6 → l.enable = true → l.ctx ≠ ctx → one P 0x10#64) ∧
    (good → l.top = 0 → one P 0xD#64) ∧
    (∀ pas, good → l.top ≠ 0 → UnitAt s D ctx false (run (l.stack.toNat + 4 * (l.top - 1)) 4) pas →
      ∃ u : State, exec P s = .next (done (u.wvar d (BitVec.ofNat 64 (ofBytes (pas.map s.rd) * 2 ^ 32))) m 4) ∧ u.cur = s.cur ∧ u.mem = s.mem ∧
        (u.die D).fl = { l with top := l.top - 1 }) ∧
    (s.loadWait = false →
      (D ≥ 6 → one F 0x12#64) ∧
      (s.relWaits true 0xFFFF = false →
        (D < 6 → l.enable = false → one F 0x11#64) ∧ (D < 6 → l.enable = true → l.ctx ≠ ctx → one F 0x10#64) ∧
        (good → page ≥ l.cap → one F 0xF#64) ∧ (good → page < l.cap → l.top = l.cap → one F 0xE#64) ∧
        (∀ p, good → page < l.cap → l.top ≠ l.cap → Memory.wf s.mem = true →
          UnitAt s D ctx true (run (l.stack.toNat + 4 * l.top) 4) (run p 4) →
          ∃ u : State, exec F s = .next (done (u.wvar d 0#64) m 4) ∧ u.cur = s.cur ∧ Wrote s u (run p 4) (bytesOf 4 page) ∧
            (u.die D).fl = { l with top := l.top + 1 })))

/-- R347 to R351: a Lantern slot of the die is configured by a good record (here one in the scratchpad), ranks the masked positions by
confidence, commits once after a ranking, and shows its word to its own context. The commit shown is one that no cell has to hear of: it
writes the list (round and count), leaves the mask row and clears the dirty map, and raises ROUND.
Status bits no rule gives are zero by the model's reading (log 65, 66). -/
def Sys2Proof.Spec.lantern : Prop :=
  ∀ (s : State) (m : Bool) (d a b : BitVec 6), Ready s [a.toNat, b.toNat, d.toNat] → s.acqWait = false →
    let D := (s.x a).toNat
    let ctx := s.myCore.ctxid
    let dd := dieOf s.turn
    let v := s.lslot dd D
    let ends (i : Instr) (u : State) (w : Word) : Prop := exec i s = .next (done (u.wvar d w) m 12)
    let C := Instr.lncfg m d a b
    let R := Instr.lnrank m d a b
    let K := Instr.lncommit m d a
    let S := Instr.lnstat m d a
    let flags (v : LSlot) : Nat := (if v.pinf then 2 else 0) + (if v.nan then 1 else 0)
    (D ≥ 16 → ∀ i ∈ [C, R, K, S], ends i s 0x12#64) ∧
    (D < 16 → s.lnBusy D = false →
      (v.ctx ≠ ctx → ends S s 0#64) ∧
      (v.ctx = ctx → ends S s (BitVec.ofNat 64 (v.round * 2 ^ 32 + v.lastn * 2 ^ 19 + v.m * 2 ^ 6 + flags v * 4 + v.state)))) ∧
    (D < 16 → s.lnBusy D = false → s.cur.saved = [] →
      (v.state ≠ 0 → v.ctx ≠ ctx → ends C s 0x10#64 ∧ ends R s 0x10#64 ∧ ends K s 0x10#64) ∧
      (v.state = 0 → ends R s 0x11#64 ∧ ends K s 0x11#64) ∧
      ((v.state = 0 ∨ v.ctx = ctx) →
        (s.x b = 0#64 → ends C (s.setLslot dd D {}) 0#64) ∧ ((s.x b).toNat % 64 ≠ 0 → ends C s 8#64) ∧
        (s.x b ≠ 0#64 → (s.x b).toNat % 64 = 0 → isTsc s.turn = false → s.pkg < 2 ^ 13 → s.turn < 4608 → s.myCore.owner.l = [] → NoTraffic s →
          InScratchpad s (run (s.x b).toNat 192) false →
          let r := (run (s.x b).toNat 192).map fun o => s.rd (s.poolPa s.turn (o - 0xFF000000000000))
          let u : LSlot := { ctx := ctx, record := r, state := 1 }
          (u.bad = true → ∃ t : State, ends C t 8#64 ∧ t.cur = s.cur ∧ t.mem = s.mem) ∧
          (u.bad = false → ∃ t : State, ends C t 0#64 ∧ t.cur = s.cur ∧ t.mem = s.mem ∧ t.lslot dd D = u))) ∧
      (v.state ≠ 0 → v.ctx = ctx →
        ((s.x b).toNat % 4 ≠ 0 → ends R s 8#64) ∧
        (∀ pas, (s.x b).toNat % 4 = 0 → v.npos % 16 = 0 → s.relWaits true 0xFFFF = false →
          UnitAt s dd ctx false (run (s.x b).toNat (4 * v.npos) ++ run (v.w 3).toNat (v.npos / 8)) pas →
          let byte (j : Nat) : Nat := (s.rd (pas.getD j 0)).toNat
          let masked (j : Nat) : Bool := (byte (4 * v.npos + j / 8)).testBit (j % 8)
          let conf (j : Nat) : Fp := fltVal 1 (byte (4 * j) + 256 * byte (4 * j + 1) + 65536 * byte (4 * j + 2) + 16777216 * byte (4 * j + 3))
          let xs := ((List.range v.npos).filter masked).map fun j => (j, conf j)
          let w : LSlot := { v with rank := (lnRank xs).map (·.1), m := xs.length, state := 2, nan := xs.any (·.2.isNan),
                                    pinf := xs.any (·.2 = .inf false), f := (xs.filter fun x => fpLt v.floor x.2).length }
          ∃ u, ends R u (BitVec.ofNat 64 (xs.length * 2 ^ 16 + flags w * 2 ^ 8)) ∧ u.cur = s.cur ∧ u.mem = s.mem ∧ u.lslot dd D = w) ∧
        (v.state ≠ 2 → ends K s 3#64) ∧
        (∀ l1 l2 l3, v.state = 2 → s.relWaits true 0xFFFF = false → s.unitRel dd = false → Memory.wf s.mem = true →
          let round := (v.round + 1) % 2 ^ 32
          v.take = 0 → v.cells round [] = [] → v.npos % 16 = 0 → v.npos ≤ 4096 → v.nlayer ≤ 64 →
          UnitAt s dd ctx true (run (v.w 4).toNat 8 ++ run (v.w 3).toNat (v.npos / 8) ++ run (v.w 5).toNat (v.nlayer * v.npos / 8))
            (run l1 8 ++ run l2 (v.npos / 8) ++ run l3 (v.nlayer * v.npos / 8)) →
          (run l1 8 ++ run l2 (v.npos / 8) ++ run l3 (v.nlayer * v.npos / 8)).Nodup →
          ∃ u, ends K u (BitVec.ofNat 64 (round % 65536 * 2 ^ 32 + flags v * 2 ^ 8)) ∧ u.lslot dd D = { v with round := round, lastn := 0, state := 1 } ∧
            Wrote s u (run l1 8 ++ run l3 (v.nlayer * v.npos / 8)) (bytesOf 8 round ++ List.replicate (v.nlayer * v.npos / 8) 0#8))))
/-- The free-list engine and the Lantern. -/
def Obligations.FreeListsAndLantern : Prop := freeList ∧ lantern

/-! ### Translation and rights (R363, R375 to R381) -/

/-- R375, R377 to R381: TLBW belongs to the translation service cores, where a good entry enters and status 0 comes back; TLBINV removes a
context's entries in a range from every level; TLBPRB shows the entry and its level; CAPSET only takes rights away; CTXQ and SLOGQ show what
the context record and the side log hold. Another context's number raises PRIV.
(Log 69 to 71 name the model's readings.) -/
def Obligations.TranslationAndRights : Prop :=
  ∀ (s : State) (m : Bool) (d a b e c : BitVec 6), Ready s [a.toNat, b.toNat, c.toNat, e.toNat, d.toNat] →
    let one (i : Instr) (len : Nat) (u : State) (w : Word) : Prop := exec i s = .next (done (u.wvar d w) m len)
    let ctx := if s.x c = 0#64 then s.myCore.ctxid else (s.x c).toNat
    let named : Prop := s.x c = 0#64 ∨ isTsc s.turn = true ∨ (s.x c).toNat = s.myCore.ctxid
    let priv (i : Instr) : Prop := exec i s = .next (s.stopFiring s.turn s.fi ⟨0x80, (firstWord i).zeroExtend 64, 0#64, 0#64⟩)
    let T := Instr.tlbw m d a b e c
    let I := Instr.tlbinv m d a b c
    let B := Instr.tlbprb m d a e c
    let q := BitVec.ofNat 64 ((s.x c).toNat % 2 ^ 16)
    let u := s.tlbDrop ctx (s.x a).toNat (s.x b).toNat
    (isTsc s.turn = false → s.cur.deferred = [] → priv T ∧ (¬named → priv I ∧ priv B)) ∧
    (isTsc s.turn = true → (s.x a).toNat < 2 ^ 63 → s.x e = 0#64 →
      (s.entryBad (s.x a) (s.x b) q none = 0 →
        one T 12 (s.updDie (dieOf s.turn) fun v => { v with tlb := addEnt 8192 { ctx := q.toNat, va := (s.x b).toNat, w := s.x a } v.tlb }) 0#64) ∧
      (∀ n, n ≠ 0 → s.entryBad (s.x a) (s.x b) q none = n → one T 12 s (BitVec.ofNat 64 n))) ∧
    (named →
      ((s.x a).toNat % 4096 ≠ 0 ∨ (s.x b).toNat % 4096 ≠ 0 → one I 12 s 1#64) ∧
      ((s.x a).toNat % 4096 = 0 → (s.x b).toNat % 4096 = 0 → u.ctxPending ctx = false → one I 12 u 0#64 ∧
        ∀ k, ∀ x ∈ (u.core k).tlb, ¬(x.ctx = ctx ∧ ((s.x b).toNat = 0 ∨ spans x.va (2 ^ pageBits x.w) (s.x a).toNat (s.x b).toNat = true))) ∧
      ((s.x a).toNat ≥ 2 ^ 56 ∨ s.tlbLook s.turn ctx (s.x a).toNat = none → exec B s = .next (done ((s.wvar d 0#64).wvar e 0#64) m 12)) ∧
      (∀ x n, (s.x a).toNat < 2 ^ 56 → s.tlbLook s.turn ctx (s.x a).toNat = some (x, n) →
        ∃ w : Word, exec B s = .next (done ((s.wvar d w).wvar e (BitVec.ofNat 64 n)) m 12) ∧ w.toNat / 2 ^ 53 = x.w.toNat / 2 ^ 53 ∧
          w.getLsbD 9 = x.a ∧ w.getLsbD 8 = x.d ∧ (isTsc s.turn = false → w.toNat / 2 ^ 12 % 2 ^ 41 = 0))) ∧
    (let w := s.myCore.capw &&& s.x a &&& 0x1F#64
     one (.capset m d a) 12 (s.updMine fun k => { k with capw := w }) w) ∧
    (s.slotOf s.myCore.ctxid = none → one (.ctxq m d a) 4 s 0#64) ∧
    (∀ n, s.slotOf s.myCore.ctxid = some n →
      (s.x a = 0#64 → one (.ctxq m d a) 4 s (s.ctxDw n 0)) ∧ (s.x a = 1#64 → one (.ctxq m d a) 4 s (s.ctxDw n 8)) ∧
      (s.x a = 2#64 → one (.ctxq m d a) 4 s (BitVec.ofNat 64 ((s.ctxDw n 0x18).toNat % 2 ^ 48))) ∧
      (s.x a = 3#64 → one (.ctxq m d a) 4 s (BitVec.ofNat 64 n)) ∧ ((s.x a).toNat > 3 → one (.ctxq m d a) 4 s 0#64)) ∧
    ((s.x a).toNat > 64 → one (.slogq m d a) 4 s 0#64) ∧
    (s.x a = 64#64 → one (.slogq m d a) 4 s
      (BitVec.ofNat 64 (s.myCore.slogFails % 65536 * 2 ^ 16 + (s.myCore.slog.l.filter fun x => x.1 < 64).length))) ∧
    ((s.x a).toNat < 64 → s.myCore.slog.get? (s.x a).toNat = none → one (.slogq m d a) 4 s 0#64) ∧
    (∀ x z, (s.x a).toNat < 64 → s.myCore.slog.get? (s.x a).toNat = some x → x.size = 2 ^ z → z < 4 →
      one (.slogq m d a) 4 s (BitVec.ofNat 64 (2 ^ 63 + (if s.replaying s.turn x then 2 ^ 62 else 0) + z * 2 ^ 59 + x.frame % 8 * 2 ^ 56 + x.va % 2 ^ 56)))

/-! ### Flows and groups (R422 to R433) -/

/-- R422, R423, R426 to R432: a flow is opened in the lowest free slot, closed when its packets are delivered, and shown; a collective group
is formed, aborted by a member's word, waited with and shown; every refusal has its code, and the missing right raises PRIV.
Status bits no rule gives are zero by the model's reading (log 73), a flow's packets count as delivered by log 74, and a slot's numbering starts
by log 96. -/
def Obligations.FlowsAndGroups : Prop :=
  ∀ (s : State) (m : Bool) (d a b e c : BitVec 6), Ready s [a.toNat, b.toNat, c.toNat, e.toNat, d.toNat] →
    let k := s.myCore
    let g := s.group (s.x a).toNat
    let A := (s.x a).toNat
    let one (i : Instr) (u : State) (w : Word) : Prop := exec i s = .next (done (u.wvar d w) m 12)
    let cg (st : Nat) (g : Group) : Word := BitVec.ofNat 64 (g.inc * 2 ^ 48 + g.reason * 2 ^ 10 + st)
    let priv (i : Instr) : Prop := exec i s = .next (s.stopFiring s.turn s.fi ⟨0x80, (firstWord i).zeroExtend 64, 0#64, 0#64⟩)
    let O := Instr.flowOpen m d a b
    let C := Instr.flowClose m d a
    let F := Instr.cgform m d a b c
    let S := Instr.cgsig m d a b
    let W := Instr.cgwait m d a b e c
    let mine : Prop := (s.turn, s.pkg) ∈ g.members
    let freed (x : Flow) : State := s.updMine fun v => { v with
      flows := v.flows.del A, flowSeq := v.flowSeq.put A ((x.next + 2 ^ 32 - 1) % 2 ^ 32) }
    (isTsc s.turn = false → s.cur.deferred = [] → k.capw.getLsbD 1 = false → priv O) ∧
    (isTsc s.turn = false → s.cur.deferred = [] → s.cur.saved = [] → k.capw.getLsbD 2 = false → priv F ∧ priv S) ∧
    (k.capw.getLsbD 1 = true →
      (A ≥ 4608 ∨ A = s.pkg → one O s 8#64) ∧
      (A < 4608 → A ≠ s.pkg →
        ((s.x b).toNat / 4 % 2 ^ 6 ≠ 0 ∨ (s.x b).toNat / 2 ^ 14 ≠ 0 → one O s 3#64) ∧
        ((s.x b).toNat < 2 → (∀ j, 1 ≤ j → j ≤ 31 → k.flows.get? j ≠ none) → one O s 9#64) ∧
        (∀ n, (s.x b).toNat < 2 → 1 ≤ n → n ≤ 31 → k.flows.get? n = none → (∀ j, 1 ≤ j → j < n → k.flows.get? j ≠ none) →
          let q := (k.flowSeq.get n 0 + 1) % 2 ^ 32
          ∃ x : Flow, one O (s.updMine fun v => { v with flows := v.flows.put n x }) (BitVec.ofNat 64 (q * 2 ^ 32 + n * 2 ^ 16)) ∧
            x.pkg = A ∧ x.ordered = (s.x b).getLsbD 0 ∧ x.grouped = false ∧ x.dead = false ∧ x.next = q ∧ x.delivered = q))) ∧
    (k.flows.get? A = none → one C s 0xA#64 ∧ one (.flowQry m d a) s 0xA#64) ∧
    (∀ x, k.flows.get? A = some x →
      (x.dead = true → one C (freed x) 0#64) ∧
      (x.dead = false → (∃ y ∈ k.copies, s.copyFlow s.turn y = A) → one C s 0xB#64) ∧
      (x.dead = false → (∀ y ∈ k.copies, s.copyFlow s.turn y ≠ A) → x.delivered = x.next → one C (freed x) 0#64) ∧
      one (.flowQry m d a) s (BitVec.ofNat 64 (x.next * 2 ^ 32 + x.pkg * 2 ^ 16 + (if x.dead then 2 ^ 10 else 0) +
        (if x.grouped then 2 ^ 9 else 0) + (if x.ordered then 2 ^ 8 else 0)))) ∧
    (s.cur.saved = [] → k.capw.getLsbD 2 = true →
      (A ≥ 64 → one F s 2#64 ∧ one S s 2#64) ∧
      (A < 64 → g.state ≠ 0 → g.ctx ≠ k.ctxid → one F s 6#64 ∧ one S s 6#64) ∧
      (A < 64 → (g.state = 0 ∨ g.ctx = k.ctxid) →
        (s.x b = 0#64 → g.state = 1 ∨ g.state = 2 → one F s (cg 5 g)) ∧
        (s.x b = 0#64 → g.state ≠ 1 → g.state ≠ 2 →
          one F (s.setGroup A { g with state := 0, members := [] }) (cg 0 g)) ∧
        (s.x b ≠ 0#64 → g.state = 2 → one F s (cg 5 g)) ∧
        (∀ s1 h, s.x b ≠ 0#64 → g.state ≠ 2 → g.state ≠ 1 →
          s.loadRun F (s.x b) ((List.range 16).map ((s.x b).toNat + ·)) 8 16 0 {} State.byteNow = .got s1 h → s1.x b = s.x b →
          let n := ofBytes (h.take 8)
          (n = 0 ∨ n > 4096 → one F s1 (cg 3 g)) ∧
          (∀ s2 l, 1 ≤ n → n ≤ 4096 → s1.loadRun F (s.x b) ((List.range (16 + 4 * n)).map ((s.x b).toNat + ·)) 8 (16 + 4 * n) 0 {} State.byteNow = .got s2 l →
            (cgMembers l = none → one F s2 (cg 3 g)) ∧
            (∀ ms, cgMembers l = some ms → (s2.turn, s2.pkg) ∉ ms → one F s2 (cg 4 g)) ∧
            (∀ j p r, cgMembers l = some ((j, p) :: r) → (s2.turn, s2.pkg) ∈ r → p ≠ s2.pkg → s2.relWaits true 0xFFFF = false →
              (s2.group A).state ≠ 1 → ∃ t, exec F s = .next t ∧
                ((t.group A).state = 1 ∧ (t.group A).members = (j, p) :: r ∧ (t.group A).ctx = s2.myCore.ctxid ∧
                  (t.group A).deflim = ofBytes ((l.drop 8).take 8) ∧ (t.group A).joins = (s2.group A).joins) ∧
                (t.fr s2.turn s2.fi).saved = [savForm, A, (s2.group A).inc] ∧ (t.fr s2.turn s2.fi).hold = .wait ∧ t.mem = s2.mem))) ∧
        (s.x b = 0#64 ∨ (s.x b).toNat > 4 → one S s (cg 3 g)) ∧
        (1 ≤ (s.x b).toNat → (s.x b).toNat ≤ 4 →
          (g.state = 0 ∨ g.state = 1 → one S s (cg 7 g)) ∧ (g.state = 2 ∨ g.state = 3 → ¬mine → one S s (cg 4 g)) ∧
          (g.state = 3 → mine → one S s (cg 1 g)) ∧
          (g.state = 2 → mine → one S (s.groupAbort A (s.x b).toNat) (cg 0 { g with reason := (s.x b).toNat }))))) ∧
    (∀ i, s.cur.saved = [savFormed, A, i] → one F s (BitVec.ofNat 64 (i * 2 ^ 48))) ∧
    (∀ i r, s.cur.saved = [savAborted, A, i, r] →
      one F s (BitVec.ofNat 64 (i * 2 ^ 48 + r * 2 ^ 10 + 1)) ∧ one W s (BitVec.ofNat 64 (i * 2 ^ 48 + r * 2 ^ 10 + 1))) ∧
    (s.cur.saved = [] →
      (A ≥ 64 → one W s 2#64) ∧ (A < 64 → g.state ≠ 0 → g.ctx ≠ k.ctxid → one W s 6#64) ∧
      (A < 64 → g.state = 0 ∨ g.state = 1 → g.state = 0 ∨ g.ctx = k.ctxid → one W s (cg 7 g)) ∧
      (A < 64 → g.state = 2 ∨ g.state = 3 → g.ctx = k.ctxid →
        (¬mine → one W s (cg 4 g)) ∧ (mine → g.state = 3 → (s.x b).toNat % 8 = 0 → one W s (cg 1 g)) ∧
        (∀ s' x, mine → g.state = 2 → (s.x b).toNat % 8 = 0 →
          (s.updCur fun r => { r with saved := [savGroup, A, g.inc] }).load W (s.x b) 8 0 regLoad = .got s' x → x ≥ (s'.x e).toNat →
          one W s' (BitVec.ofNat 64 (g.inc * 2 ^ 48))))) ∧
    (A ≥ 64 → one (.cgstat m d a) s 2#64) ∧ (A < 64 → g.state ≠ 0 → g.ctx ≠ k.ctxid → one (.cgstat m d a) s 6#64) ∧
    (A < 64 → g.state = 0 ∨ g.ctx = k.ctxid → ∃ w : Word, one (.cgstat m d a) s w ∧ w = BitVec.ofNat 64 (g.word +
      (if (s.turn, s.pkg) ∈ g.members then 2 ^ 44 + (g.members.findIdx fun x => x = (s.turn, s.pkg)) * 2 ^ 32 else 0)))

/-! ### What happens outside the instruction stream: units (R30 to R33, R164 to R178, R227 to R230, R243 to R256, R281 to R315, R342, R368 to R370) -/

namespace Sys2Proof.Spec
/-- A unit's act with MAIN up leads to `t`. -/
def Acts (i : Instr) (s t : State) : Prop := s.main = true → exec i s = .next t
end Sys2Proof.Spec

/-- R30, R33, R228, R230, R282, R284, R289, R438: a returned result lowers the count and wakes the firing when it was the last; a quantum runs
out; a firing that waits looks again, or sees its limit pass; an ALIGN wait ends for the camp of a leader, for a member alone; the
selector issues a ready Bivouac firing that has not yielded first, and with nothing to issue changes nothing. With MAIN down no unit acts.
(That the chosen firing's quantum begins anew is log 116, which of several limits passes first log 149.) -/
def Obligations.FiringEvents : Prop :=
  ∀ (s : State) (k f : Nat),
    let r := s.fr k f
    let c := s.core k
    let again : State := s.updFr k f fun _ => { r with hold := .no, stat := .ready }
    (s.main = false → ∀ i ∈ [Instr.varResultReturn k f, .selectorDecision k, .quantumExpiry k, .alignWaitExpiry k f, .waitRecheck k f,
      .waitLimitExpiry k f, .cellReadWake k f, .requestArrival k f, .matrixCmdStart k, .walkRequest k f], exec i s = .next s) ∧
    (r.stat ≠ .free → r.unret ≥ 1 → Acts (.varResultReturn k f) s ((s.updFr k f fun r => { r with unret := r.unret - 1 }).wake k f)) ∧
    (r.stat = .parked → r.unret = 1 → r.waits = [] → r.hold = .no → r.ending = false → r.deferred = [] → r.owed = none → s.main = true →
      ∃ t, exec (.varResultReturn k f) s = .next t ∧ (t.fr k f).stat = .ready ∧ (t.fr k f).unret = 0 ∧ (t.fr k f).x = r.x ∧ t.mem = s.mem) ∧
    (c.issuing = some f → Acts (.quantumExpiry k) s (s.updFr k f fun r => { r with quantum := true })) ∧
    (r.stat ≠ .free → r.stat ≠ .stopped → r.waits = [] → r.hold = .wait → Acts (.waitRecheck k f) s again ∧ Acts (.cellReadWake k f) s again ∧
      (s.main = true → ∃ t, exec (.waitLimitExpiry k f) s = .next t ∧ t.mem = s.mem ∧
        t.fr k f = { r with expired := true, hold := .no, stat := .ready })) ∧
    (∀ g, c.gang = some g → r.hold = .align → s.launchFr k = some f →
      ((g.mates k).headD k = k → Acts (.alignWaitExpiry k f) s (s.alignEnd (g.mates k) r.pc)) ∧
      ((g.mates k).headD k ≠ k → Acts (.alignWaitExpiry k f) s (s.alignEnd [k] r.pc))) ∧
    (isTsc k = false → c.issuing = none → c.frozen = false → c.leave = false → (s.fr k 8).stat = .ready → (s.fr k 8).yielded = false →
      k < 4608 → s.main = true → ∃ t, exec (.selectorDecision k) s = .next t ∧ (t.core k).issuing = some 8 ∧ t.mem = s.mem ∧ (t.fr k 8).quantum = false ∧
        (t.fr k 8).x = (s.fr k 8).x) ∧
    (isTsc k = false → c.issuing = none → c.frozen = false → c.leave = false → k < 4608 → s.freeFrame k = none →
      (∀ j, j < 9 → (s.fr k j).stat ≠ .ready) → Acts (.selectorDecision k) s s)

/-- R281, R293, R301 to R305, R314, R315, R175: the oldest entry toward a core enters its inbox when the context and the tag are right and a
slot is free, else it stays, refused, until a retry; a reply fills a slot kept for it; held AUTO replies leave when an entry is
free; a spawned record takes a slot or is bounced, and its SPAWN goes on; a matrix command without the right ends with DENIED.
A denied remote command shows a free SEQ (log 75), and its status waits for room in the sender's side log (log 39). -/
def Obligations.MessageEvents : Prop :=
  ∀ (s : State) (k f : Nat) (g : Msg) (l : List OutE) (again : Bool), k < 4896 →
    let c := s.core k
    let j := g.dst
    let o := s.core j
    let i := if again then Instr.requestRetry k 0 else Instr.requestArrival k 0
    (c.outbox = (⟨g, again⟩ : OutE) :: l → g.kind = .plain →
      (o.ctxid ≠ g.ctx ∨ (o.tag g.tag).kind ≠ .affine →
        Acts i s (s.updCore k fun c => { c with outbox := (⟨g, true⟩ : OutE) :: l })) ∧
      (∀ n, o.ctxid = g.ctx → (o.tag g.tag).kind = .affine → o.freeSlot 0 24 = some n → s.heapCap j = 0 →
        Acts i s ((s.updCore j fun c => c.inboxPut n g).freeOut k 0) ∧ ((o.inboxPut n g).inbox.get n {}).payload = g.payload)) ∧
    (c.outbox = (⟨g, again⟩ : OutE) :: l → g.kind = .mxrem →
      (o.ctxid ≠ g.ctx ∨ g.capw.getLsbD 0 = false → s.mailWaits k .regs (mbox (g.words.getD 3 0#64)) = true → Acts (.mxremArrival k 0) s s) ∧
      (o.ctxid ≠ g.ctx ∨ g.capw.getLsbD 0 = false → s.mailWaits k .regs (mbox (g.words.getD 3 0#64)) = false → ∃ w : Word, Acts (.mxremArrival k 0) s
        (((s.freeOut k 0).mailbox k .regs (mbox (g.words.getD 3 0#64)) w).ticked) ∧ w.toNat % 2 ^ 8 = 8) ∧
      (o.ctxid = g.ctx → g.capw.getLsbD 0 = true → o.full false = true →
        Acts (.mxremArrival k 0) s (s.updCore k fun c => { c with outbox := (⟨g, true⟩ : OutE) :: l })) ∧
      (o.ctxid = g.ctx → g.capw.getLsbD 0 = true → o.full false = false →
        Acts (.mxremArrival k 0) s ((s.freeOut k 0).acceptMm j false (Config.matrixOp g.words % 3) g.words))) ∧
    (∀ r, s.replies = g :: r → o.ctxid = g.ctx →
      Acts (.replyArrival 0) s (({ s with replies := r } : State).updCore j fun c => State.replyIn c g) ∧
      (∀ n, 24 ≤ n → o.freeSlot 24 8 = some n → (o.tag g.tag).kind = .affine → ((State.replyIn o g).inbox.get n {}).payload = g.payload)) ∧
    (c.outbox.length < 16 → Acts (.autoReplySend k) s { (s.updCore k fun c => { c with autos := [] }) with replies := s.replies ++ c.autos }) ∧
    (c.outbox.length ≥ 16 → Acts (.autoReplySend k) s s) ∧
    (∀ joinc, (s.fr k f).saved = [31, joinc] → c.outbox = (⟨g, again⟩ : OutE) :: l → g.kind = .spawn → g.no = f →
      let waiting := (o.inbox.l.filter fun e => e.2.kind = .spawn).length
      let answer (v : Nat) (u : State) : State := u.updFr k f fun r => { r with saved := [32, v, joinc] }
      (∀ n, o.ctxid = g.ctx → (o.tag 62).e = true → (o.tag 62).h = 0 → waiting < 8 → s.heapCap j = 0 → o.freeSlot 0 24 = some n →
        Acts (.spawnArrival k f) s (answer 1 ((s.freeOut k 0).updCore j fun c => c.inboxPut n g))) ∧
      (o.ctxid ≠ g.ctx ∨ (o.tag 62).e = false ∨ (o.tag 62).h ≠ 0 ∨ waiting ≥ 8 → Acts (.spawnArrival k f) s (answer 0 (s.freeOut k 0)))) ∧
    (∀ ok joinc, (s.fr k f).saved = [32, ok, joinc] → (s.fr k f).stat ≠ .free → (s.fr k f).stat ≠ .stopped → s.main = true →
      ∃ t, exec (.spawnAnswer k f) s = .next t ∧ (t.fr k f).saved = (if ok = 1 then [33] else [34, joinc]) ∧ (t.fr k f).stat = .ready ∧
        (t.core k).awaits = c.awaits.erase 64)

/-- R163, R164, R166, R167, R170 to R178, R202: stores to an engine's words fill its latches; a go with all four submits a command, with one
missing it shows 7 in the STAT register alone; a held go is accepted when there is room; a matrix command starts when none runs and
completes with its summary when what it comes after is performed and its mailbox may be written; a copy ends with the code of the first
byte that fails, or none, and completes likewise, aborting the group of its flow when it read poison. A frozen context's commands stand still.
Which instruction four words stand for is Config.matrixOp, free (log 13); a copy moves its bytes in the act that ends it (log 14), and a
completion waits for room in the side log (log 39). -/
def Sys2Proof.Spec.engineRuns : Prop :=
  ∀ (s : State) (k : Nat) (j : BitVec 2) (v : Word) (m : Cmd) (r : List Cmd),
    let c := s.core k
    let mx (e : Engine) : State := s.updCore k fun c => { c with mx := e }
    let cp (e : Engine) : State := s.updCore k fun c => { c with cp := e }
    let taken (i : Instr) (b : Bool) (e : Core) (op : Nat) (ws : List Word) : Prop := s.main = true → ∃ u : State,
      exec i s = .next (u.acceptMm k b op ws) ∧ u.core k = e ∧ (∀ h, h ≠ k → u.core h = s.core h) ∧ u.mem = s.mem ∧ u.frames = s.frames
    (c.mx.held = [] →
      Acts (.mword k j v) s (mx { c.mx with latch := c.mx.latch.put j.toNat v }) ∧
      (c.mx.latch.get? j.toNat = none → Acts (.mgo k v) s (mx { c.mx with latch := {}, missing := true })) ∧
      (∀ a b d e, c.mx.latch.get? 0 = some a → c.mx.latch.get? 1 = some b → c.mx.latch.get? 2 = some d → c.mx.latch.get? 3 = some e →
        c.full false = false → taken (.mgo k v) false { c with mx := { c.mx with latch := {} } } (Config.matrixOp [a, b, d, e] % 3) [a, b, d, e]) ∧
      Acts (.heldGoAccept k false) s s) ∧
    (c.cp.held = [] →
      Acts (.cword k j v) s (cp { c.cp with latch := c.cp.latch.put j.toNat v }) ∧
      (c.cp.latch.get? j.toNat = none → Acts (.cgo k v) s (cp { c.cp with latch := {}, missing := true })) ∧
      (∀ a b d e, c.cp.latch.get? 0 = some a → c.cp.latch.get? 1 = some b → c.cp.latch.get? 2 = some d → c.cp.latch.get? 3 = some e →
        c.full true = false → taken (.cgo k v) true { c with cp := { c.cp with latch := {} } } (v.toNat % 4) [a, b, d, e])) ∧
    (∀ e : Engine, (engStatReg { e with missing := true }).toNat % 2 ^ 8 = 7 ∧ engStat { e with missing := true } = engStat e) ∧
    (∀ h l, c.cp.held = h :: l →
      (c.full true = true → Acts (.heldGoAccept k true) s s) ∧
      (c.full true = false → taken (.heldGoAccept k true) true { c with cp := { c.cp with held := l } } (h.v.toNat % 4) h.words)) ∧
    (s.halted k = true → ∀ n, Acts (.matrixCmdStart k) s s ∧ Acts (.matrixCmdComplete k) s s ∧ Acts (.copyCmdComplete k n) s s) ∧
    (s.halted k = false → c.mx.running = [] → c.mx.queue = m :: r → s.main = true → ∃ t x, exec (.matrixCmdStart k) s = .next t ∧
      t = x.1.updCore k (fun v => { v with mx := { v.mx with running := [m], queue := r, result := some (x.2.1, x.2.2.1, x.2.2.2) } }) ∧
      x = s.runMx k m ∧ (m.bad ≠ 0 → x = (s, 0, 0, m.bad))) ∧
    (∀ p, s.halted k = false → c.mx.running = m :: r → c.mx.result = some p →
      (s.cmdDue k m = true ∨ s.mailWaits k m.who (m.mail false) = true → Acts (.matrixCmdComplete k) s s) ∧
      (s.cmdDue k m = false → s.mailWaits k m.who (m.mail false) = false → Acts (.matrixCmdComplete k) s
        ((s.updCore k fun v => { v with mx := { v.mx with running := [], result := none } }).finishCmd k false m p.1 p.2.1 p.2.2
          (if m.op = 2 then m.recA.swz else 0)))) ∧
    (s.halted k = false → c.cp.running = m :: r → m.ended = none →
      (m.bad ≠ 0 → Acts (.copyCmdComplete k 0) s (s.cpyEnd k m 0 0 m.bad)) ∧
      (m.bad = 0 → s.cpyScan k m m.len 0 = none → s.aliasOut k m = false → Acts (.copyCmdComplete k 0) s (s.cpyEnd k m m.len m.len 0)) ∧
      (m.bad = 0 → s.cpyScan k m m.len 0 = none → s.aliasOut k m = true → Acts (.copyCmdComplete k 0) s (s.cpyEnd k m 0 0 5)) ∧
      (∀ i n, m.bad = 0 → s.cpyScan k m m.len 0 = some (i, .code n) → Acts (.copyCmdComplete k 0) s (s.cpyEnd k m i i n))) ∧
    (∀ p, s.halted k = false → c.cp.running = m :: r → m.ended = some p →
      (s.cmdDue k m = true ∨ s.mailWaits k m.who (m.mail true) = true → Acts (.copyCmdComplete k 0) s s) ∧
      (s.cmdDue k m = false → s.mailWaits k m.who (m.mail true) = false → (∀ x ∈ r, x ≠ m) → s.main = true → ∃ u t : State,
        t = u.finishCmd k true m p.1 p.2.1 p.2.2 (if m.op = 0 then m.w2.toNat / 2 ^ 36 % 8 else 0) ∧ (u.core k).cp.running = r ∧ u.mem = s.mem ∧
        (p.2.2 ≠ 10 ∨ (t.core k).flows.get? (s.copyFlow k m) = none → exec (.copyCmdComplete k 0) s = .next t) ∧
        (∀ x, p.2.2 = 10 → (t.core k).flows.get? (s.copyFlow k m) = some x → x.grouped = true → (t.group x.group).inc = x.inc → (t.group x.group).state = 2 →
          exec (.copyCmdComplete k 0) s = .next (t.groupAbort x.group 4))))

namespace Sys2Proof.Spec
/-- Bytes of accumulator tile `t` of core `k`. -/
def tileAt (s : State) (k t : Nat) : List Nat := (List.range 4096).map fun o => s.poolPa k ((s.core k).tileOff t + o)
/-- Different bytes of the tile have different places. -/
def TileApart (s : State) (k t : Nat) : Prop :=
  ∀ i j, i < 4096 → j < 4096 → s.poolPa k ((s.core k).tileOff t + i) = s.poolPa k ((s.core k).tileOff t + j) → i = j
/-- Source and destination address of byte `i` of a copy (R176), from the index table in the pool, and through the swizzle (R99) where the
destination lies in a buffer of the own window. -/
def copyAddr (s : State) (k : Nat) (m : Cmd) (i : Nat) : Nat × Nat :=
  let rb := m.w2.toNat / 2 ^ 36 % 2 ^ 16
  let row := s.poolN k (m.w2.toNat % 2 ^ 20 + 2 * (i / rb)) 2 * rb + i % rb
  match m.op, m.bases with
  | 1, _ => (m.w0.toNat + row, m.w1.toNat + i)
  | 2, _ => (m.w0.toNat + i, m.w1.toNat + row)
  | _, [] => (m.w0.toNat + i, m.w1.toNat + i)
  | op, b :: _ =>
    let o := m.w1.toNat - 0xFF000000000000 - b
    (m.w0.toNat + i, m.w1.toNat + swizzle (if op = 3 then 0 else m.w2.toNat / 2 ^ 36 % 8) (o + i) - o)
end Sys2Proof.Spec

/-- R81 to R92, R170 to R173: what matrix commands leave in the accumulators. MXCLR sets its tile to +0 and its tag; MXMUL with ZERO of one
block gives each element the row's and column's aligned integers multiplied out, the exact sum scaled and rounded once (or clamped, of
integers), and NaN where a line has an element that is no number; MXDRN writes each element rounded to the format of its record and clears the
tile where it is told to. Other memory stays. (The operands carry no poison; that they enter as 0 where R84 gives no integer is log 121.) -/
def Sys2Proof.Spec.matrixTiles : Prop :=
  ∀ (s : State) (k : Nat) (m : Cmd) (r : List Cmd),
    let c := s.core k
    let t := m.w2.toNat % 16
    let tag (u : State) : Nat := ((u.core k).accTag.get t 0#4).toNat
    let starts (u : State) (p f : Nat) : Prop := exec (.matrixCmdStart k) s = .next u ∧ (u.core k).mx.result = some (p, f, 0)
    let elem (u : State) (i j : Nat) : Nat := (u.tile k t).getD (32 * i + j) 0
    s.main = true → s.halted k = false → c.mx.running = [] → c.mx.queue = m :: r → m.bad = 0 → Memory.wf s.mem = true → TileApart s k t →
    (m.op = 3 → ∃ u : State, starts u 0 0 ∧ tag u = m.w2.toNat / 2 ^ 8 % 16 ∧ (∀ i j, i < 32 → j < 32 → elem u i j = 0) ∧
      t ∉ (u.core k).accPoison ∧ ∀ b, b ∉ tileAt s k t → u.rd b = s.rd b) ∧
    (m.op = 0 → m.w2.toNat / 2 ^ 4 % 2 = 1 →
      let a := m.recA
      let b := m.recB
      let n := a.kdim true false
      let line (isA : Bool) (i : Nat) : List Fp := (List.range n).map fun x =>
        if isA then s.lineEl k a (m.bases.getD 0 0) true n i x else s.lineEl k b (m.bases.getD 1 0) false n i x
      let f (isA : Bool) : Nat := if isA then a.ef else b.ef
      let E (isA : Bool) (i : Nat) : Int := alignExp (f isA) (line isA i)
      let int (isA : Bool) (i x : Nat) : Int := alignElem (f isA) (E isA i) ((line isA i).getD x (.zero false))
      let F (isA : Bool) (i : Nat) : Q := (Q.int 1).scale (E isA i - pathF (f isA))
      let dot (i j : Nat) : Int := ((List.range n).map fun x => int true i x * int false j x).sum
      let V (i j : Nat) : Q := if dot i j = 0 then Q.int 0 else ((Q.int (dot i j)).mul (F true i)).mul (F false j)
      let odd (i j : Nat) : Prop := ∃ x ∈ line true i ++ line false j, x.isNan = true ∨ x.isInf = true
      let js (r : Rec) (hi : Nat) (isA : Bool) : List (Nat × Nat) := blockBytes r (m.bases.getD (if isA then 0 else 1) 0) isA ((List.range 32).filter (· < hi))
      a.acc = false → a.pen = false → a.ef ≠ 9 → b.ef ≠ 9 → 1 ≤ n → n ≤ 32 → b.depth false = n →
      s.poolPoison k ([(m.w0.toNat, 64), (m.w1.toNat, 64)] ++ blockScales a true n 0 ++ blockScales b false n 0 ++ js a n true ++ js b n false) = false →
      ∃ (u : State) (fl : Nat), starts u 1 fl ∧ tag u = (if isInt a.ef then 14 else 1) ∧ t ∉ (u.core k).accPoison ∧
        (∀ b, b ∉ tileAt s k t → u.rd b = s.rd b) ∧
        (isInt a.ef = true → a.ef ∈ [10, 11] → b.ef ∈ [10, 11] → ∀ i j, i < 32 → j < 32 →
          elem u i j = intCode 14 (max (intMin 14) (min (intMax 14) (dot i j))) % 2 ^ 32) ∧
        (isInt a.ef = false → ∀ i j, i < 32 → j < 32 →
          (odd i j → elem u i j = 0x7FC00000) ∧ (¬odd i j → elem u i j = (finish 1 (fpAdd (fltVal 1 0) (Fp.ofQ (V i j)))).1 % 2 ^ 32))) ∧
    (m.op = 2 → m.w2.toNat / 2 ^ 5 % 2 = 0 → c.accPoison.contains t = false → s.poolPoison k [(m.w0.toNat, 64)] = false →
      let d := m.recA
      let base := m.bases.getD 0 0
      let e := if elemBits d.fmt = 4 then 2 else 1
      let clear := m.w2.toNat / 2 ^ 4 % 2 = 1
      let places := (List.range d.rows).flatMap fun r => (List.range ((d.cols + e - 1) / e)).flatMap fun c => (d.at base r (e * c)).map (s.poolPa k)
      places.Nodup → (∀ b ∈ tileAt s k t, b ∉ places) →
      ∃ (u : State) (fl : Nat), starts u 0 fl ∧ tag u = tag s ∧ (∀ b, b ∉ places → (clear → b ∉ tileAt s k t) → u.rd b = s.rd b) ∧
        (clear → ∀ i j, i < 32 → j < 32 → elem u i j = 0) ∧
        ∀ row col, row < d.rows → col < d.cols →
          let (i, j) := if d.trans then (col, row) else (row, col)
          let addr := BitVec.ofNat 64 (0xFF000000000000 + (d.at base row col).headD 0) ||| (if e = 2 ∧ col % 2 = 1 then 0x8000000000000000#64 else 0#64)
          u.opnd k d base row col = (convTo d.fmt (m.w2.toNat / 2 ^ 8 % 8) (hsrBits m.seed addr) (decide (tag s = 14)) (elemVal (tag s) (elem s i j))).1
            % 2 ^ elemBits d.fmt)

/-- R99, R176: the bytes of a copy that nothing stops. Of CPY, CPYG and CPYS each destination byte holds its source byte, the last one where
several go to one place; of CPYR each element holds what the operation makes of it and the source element; every other byte stays, the
mailbox's aside. The addresses lie in main memory of this package or the own window, the destination on no page that is replicated. (That a
copy moves its bytes in one act is log 14.) -/
def Sys2Proof.Spec.copiedBytes : Prop :=
  ∀ (s : State) (k : Nat) (m : Cmd) (r : List Cmd) (pa qa : Nat → Nat) (wp wq : Nat → Word),
    let src (i : Nat) : Nat := readPa k (pa i) (wp i)
    let here (va q : Nat) : Prop := inSelf va = true ∨ (s.isOwn q = true ∧ ∃ h, regionOf q = .main h)
    let mail := m.mail true
    let n := elemBits (cpyrFmt m) / 8
    s.main = true → s.halted k = false → isTsc k = false → (s.core k).cp.running = m :: r → m.ended = none → m.bad = 0 → m.op ≤ 3 →
    Memory.wf s.mem = true → s.cpyScan k m m.len 0 = none → s.aliasOut k m = false → (m.bases = [] ∨ inSelf m.w1.toNat = true) →
    (∀ i, i < m.len → let (a, b) := copyAddr s k m i
      here a (pa i) ∧ here b (qa i) ∧ (∃ o, s.place k a 1 needR = .mem (pa i) (wp i) o) ∧
        (∃ o, s.place k b 1 (if m.op = 3 then needRW else needW) = .mem (qa i) (wq i) o) ∧ entRdup (wq i) = false ∧
        regionOf (src i) ≠ .hole ∧ regionOf (qa i) ≠ .hole) →
    (∀ i j, i < m.len → j < m.len → src i ≠ qa j) →
    (∀ i x, i < m.len → x < 2 * (m.w2.toNat / 2 ^ 20 % 2 ^ 16) → m.op = 1 ∨ m.op = 2 → s.poolPa k (m.w2.toNat % 2 ^ 20 + x) ≠ qa i) →
    (mail = 0 ∨ s.place k mail 8 needW = .unmapped ∨ s.place k mail 8 needW = .refused ∨
      ∃ pb w o, s.place k mail 8 needW = .mem pb w o ∧ here mail pb ∧ ∀ i, i < m.len → qa i < pb ∨ pb + 8 ≤ qa i) →
    ∃ u : State, exec (.copyCmdComplete k 0) s = .next u ∧
      (m.op ≠ 3 → ∀ i, i < m.len → (∀ j, i < j → j < m.len → qa j ≠ qa i) → u.rd (qa i) = s.rd (src i)) ∧
      (∀ b, (∀ i, i < m.len → qa i ≠ b) → (mail = 0 ∨ ∀ pb w o, s.place k mail 8 needW = .mem pb w o → b < pb ∨ pb + 8 ≤ b) →
        u.rd b = s.rd b) ∧
      (m.op = 3 → m.len % n = 0 → (∀ i j, i < m.len → j < m.len → qa i = qa j → i = j) →
        (∀ i, i < m.len → qa i = qa (i / n * n) + i % n ∧ src i = src (i / n * n) + i % n) →
        ∀ j, n * j < m.len → leBytes u (qa (n * j)) n =
          (reduceEl (cpyrFmt m) (m.w2.toNat / 2 ^ 40 % 4) (leBytes s (qa (n * j)) n) (leBytes s (src (n * j)) n)).1 % 2 ^ (8 * n))
/-- The engines: how commands run, what they leave in the tiles, what a copy moves. -/
def Obligations.EngineEvents : Prop := engineRuns ∧ matrixTiles ∧ copiedBytes

/-- R243 to R245, R249, R255, R295, R296, R298, R368, R369, R396: a walk request is taken by a translation service firing, or posted for the
host, and a walk without an answer ends; the next stale cell of a sheet is dispatched to its gang's cores; a pin and a poison opening; the
governor remembers the stages that are behind; a queue whose pop has started a refill takes records back from its ring; a queue descriptor's words are written while it is off. -/
def Sys2Proof.Spec.sequencerEvents : Prop :=
  ∀ (s : State) (die i n q : Nat) (v : Word) (w : Walk) (e : SheetE) (off : BitVec 6),
    let V := s.die die
    let Q := s.squeue q
    (s.walks[n]? = some w → dieOf w.core = die → Acts (.walkTimeout die n) s (s.walkNo w 0)) ∧
    (nextWalk s.walks n = some w → dieOf w.core = die →
      (nfld V.assist 1 1 = 1 ∨ V.walkImg = none → s.main = true → ∃ t u, exec (.walkRequest die n) s = .next t ∧ t.mem = (s.post die 2 0 0x0404
        (w.va / 4096 % 2 ^ 44 + w.ctx * 2 ^ 44 + w.kind * 2 ^ 60)).mem ∧ t.walks[n]? = some u ∧ u = { w with token := u.token } ∧ u.token ≠ 0) ∧
      (∀ img f, nfld V.assist 1 1 = 0 → V.walkImg = some img → s.freeFrame (tscOf w.core) = some f → s.main = true →
        ∃ t u, exec (.walkRequest die n) s = .next t ∧ t.walks[n]? = some u ∧ u = { w with token := u.token } ∧ u.token ≠ 0 ∧ t.mem = s.mem ∧
          (t.fr (tscOf w.core) f).stat = .ready ∧ (t.fr (tscOf w.core) f).pc = BitVec.ofNat 64 V.walkEntry ∧
          (t.fr (tscOf w.core) f).token = u.token ∧ (t.fr (tscOf w.core) f).wbody = w.va / 4096 % 2 ^ 44 + w.ctx * 2 ^ 44 + w.kind * 2 ^ 60 ∧
          (t.fr (tscOf w.core) f).rx 4 = BitVec.ofNat 64 w.va ∧
          (t.fr (tscOf w.core) f).rx 6 = BitVec.ofNat 64 u.token)) ∧
    (V.dir[i]? = some e →
      (s.dispatchCell e.pa ≠ some n → Acts (.cellDispatch die i n) s s) ∧
      (s.dispatchCell e.pa = some n → s.main = true → ∃ t ms, exec (.cellDispatch die i n) s = .next t ∧
        t = (s.setDsc e.pa n 0x28 12 3 2).updDie die (fun v => { v with dispatch := v.dispatch ++ ms }) ∧
        ms.map (·.msg.dst) = gangCores (s.dsc e.pa n 0x38) ∧ ∀ x ∈ ms, x.msg.kind = .dispatch ∧ x.msg.tag = 61 ∧ x.msg.ctx = e.ctx) ∧
      (n < 16 → Acts (.pinExpiry die i n) s (s.setHdr e.pa (0x20 + 8 * n) 32 1 0)) ∧
      (n ∈ e.poisonWait → s.unfinished e.pa < 4 → Acts (.poisonOpening die i n) s
        ((s.updSheet die e.pa fun e => { e with poisonWait := e.poisonWait.filter (· ≠ n) }).openGen die e.pa [n] none))) ∧
    (s.main = true → ∃ t, exec (.governorSample die) s = .next t ∧
      (t.die die).prevHigh = (dieQueues s die).filter (fun q => (s.squeue q).occ > (s.squeue q).high) ∧
      ((t.die die).prevHigh.all (fun q => !V.prevHigh.contains q) = true → t = s.updDie die fun v => { v with prevHigh := (t.die die).prevHigh })) ∧
    (Q.refill = false → Acts (.queueRefill q) s s) ∧
    (Q.enable = true → Q.broken = false → Q.refill = true → ∀ l,
      s.ringGets q (Q.head + Q.bank.length) (min Q.inRing (Q.share - Q.bank.length)) = .inr l →
      Acts (.queueRefill q) s (s.setSQueue q { Q with bank := Q.bank ++ l, refill := false })) ∧
    (q < 4608 → Q.enable = false →
      Acts (.stageQueueDescWrite q 0#6 v) s (s.setSQueue q { Q with ringbase := v }) ∧
      Acts (.stageQueueDescWrite q 0x10#6 v) s (s.setSQueue q { Q with high := v.toNat / 2 ^ 16 % 2 ^ 16, low := v.toNat % 2 ^ 16 }) ∧
      (v.toNat < 2 ^ 63 → Acts (.stageQueueDescWrite q 8#6 v) s (s.setSQueue q { Q with
        ctx := v.toNat / 2 ^ 32 % 2 ^ 16, ringsize := v.toNat / 2 ^ 16 % 2 ^ 16, share := v.toNat % 2 ^ 9 }))) ∧
    (q < 4608 → Q.enable = true → off ≠ 8#6 → Acts (.stageQueueDescWrite q off v) s s)

/-- R209 to R211, R342: a moved page's target refuses another context, answers EXISTS and TABLEFULL, and else writes the entry of a cell, or
the page into its lowest free slot with its entry, and answers with LOC; with the answer the source's entry becomes a stub and the KREHOME
goes on; a push to a replica is applied in order, and the last one lets the storing core's releases go; an atomic store
reaches every die when its last acknowledgement is in, and logged stores that waited for the line are performed. -/
def Sys2Proof.Spec.moveAndReplicaEvents : Prop :=
  ∀ (s : State) (k f j key w n die : Nat) (v : Kv) (page : List Nat) (r : Rdup),
    ((s.fr k f).saved = 51 :: j :: key :: w :: (v.pack ++ page) → s.main = true →
      let answers (u : State) (st loc : Nat) : Prop := exec (.krehomeTarget k f) s = .next (u.updFr k f fun r => { r with
        saved := 52 :: st :: loc :: j :: key :: w :: v.pack, expired := false, far := [] })
      let o := s.core j
      let p := s.probe j v key
      let stub (n : Nat) : Prop := (s.cairnW j v n).toNat / 2 ^ 62 = 3
      let entry (u : State) (n e : Nat) : State := (u.setCairn j v n key e).liveAdd j v 1
      let l := (s.die (dieOf j)).fl
      w < 2 ^ 64 →
      (o.ctxid ≠ (s.core k).ctxid → answers s 0xC 0) ∧
      (o.ctxid = (s.core k).ctxid →
        (kvFits o.partw v = false → answers s 8 0) ∧
        (kvFits o.partw v = true → p = .full → answers s 6 0) ∧
        (∀ n, kvFits o.partw v = true → p = .found n → ¬stub n → answers s 0xA 0) ∧
        (∀ n, kvFits o.partw v = true → (p = .empty n ∨ (p = .found n ∧ stub n)) →
          (w / 2 ^ 61 % 2 = 1 → answers (entry s n (w - w % 2 ^ 32)) 0 0) ∧
          (∀ x, w / 2 ^ 61 % 2 = 0 → s.freePage j v = some x →
            answers (entry ((s.poolStore j (v.slots + x * (64 + 32 * v.d)) (page.map (BitVec.ofNat 8))).setFree j v x false) n (2 ^ 62 + x)) 0 x) ∧
          (w / 2 ^ 61 % 2 = 0 → s.freePage j v = none → l.enable = true → l.ctx = o.ctxid → l.top = 0 → answers s 0xB 0)))) ∧
    (∀ st loc, st ≠ 0 → (s.fr k f).saved = 52 :: st :: loc :: j :: key :: w :: v.pack → (s.fr k f).stat ≠ .free →
      (s.fr k f).stat ≠ .stopped → s.main = true →
      ∃ t, exec (.krehomeAnswer k f) s = .next t ∧ (t.fr k f).saved = [53, st, loc] ∧ (t.fr k f).stat = .ready ∧ t.mem = s.mem ∧
        ∀ x ∈ (t.core k).moving, x.1 ≠ v.cairn ∨ x.2.1 ≠ key) ∧
    (∀ loc n, (s.fr k f).saved = 52 :: 0 :: loc :: j :: key :: w :: v.pack → s.probe k v key = .found n → w / 2 ^ 61 % 2 = 1 → w < 2 ^ 64 →
      Acts (.krehomeAnswer k f) s ((((s.setCairn k v n key (3 * 2 ^ 62 + j)).liveAdd k v (2 ^ 64 - 1))).moveDone k f 0 loc v key)) ∧
    (s.rdup[n]? = some r → die ∈ r.dies → die < 6 →
      (r.atomic = false → (∀ q ∈ s.rdup.take n, sameLine q r = false ∨ die ∉ q.dies) →
        (r.dies = [die] → Acts (.rdupPropagate n die) s (((s.store (r.at_ die) r.bytes).dropRdup n).afterRelease r.core)) ∧
        (r.dies.erase die ≠ [] → Acts (.rdupPropagate n die) s
          ({ s.store (r.at_ die) r.bytes with rdup := s.rdup.set n { r with dies := r.dies.erase die } }.afterRelease r.core))) ∧
      (r.atomic = true → (∀ q ∈ s.rdup.take n, sameLine q r = false) →
        (r.dies = [die] → Acts (.rdupInvalidateAck n die) s
          (((((List.range 6).foldl (fun s d => s.store (r.at_ d) r.bytes) s).dropRdup n).afterRelease r.core).replayAll.applyPeers)) ∧
        (r.dies.erase die ≠ [] → Acts (.rdupInvalidateAck n die) s { s with rdup := s.rdup.set n { r with dies := r.dies.erase die } })))
/-- What walk units, sequencers, the governor, stage queues, moves and replicas do. -/
def Obligations.UnitEvents : Prop := sequencerEvents ∧ moveAndReplicaEvents

/-! ### The fabric, the front end, the host, errors and the board (R209 to R216, R382 to R396, R403 to R421, R427 to R446) -/

/-- R212 to R216, R419 to R421: a store of the current epoch is applied once at its home, one applied before is dropped, and one of an
older epoch is discarded; a release waits until the stores it counts and the marks it names have come, is applied then, and once; a packet of
a flow is written once, an ordered one only in turn, and one of an earlier flow of its slot not at all; a remote load changes nothing and a
remote AMO writes the new value, once; an acknowledgement performs the items it covers; a limit opens an epoch and gives TIMEOUT, or
marks the pair. A window reaches the scratchpad of the context resident at its core, and no closed granule (R17).
The numbers in REMOTE_LIMIT_EXPIRY and the operation codes of a remote access are the model's (log 86, 87), as is when a remote store is
seen (log 84) and which context a window stands for (log 138). What comes for a line that waits for acknowledgements waits too (R210). -/
def Obligations.ProgramTraffic : Prop :=
  ∀ (s : State) (src pa flow size op t k f va : Nat) (epoch : BitVec 8) (num count start : BitVec 32) (l : List (BitVec 8))
    (marks : List (Nat × Nat)) (ordered sw : Bool) (v cmp : Word), src ≠ s.pkg →
    let p := s.peer src
    let cur := epoch.toNat = p.rxEpoch
    let store := Instr.fabricStoreArrival src epoch num pa l
    let rel := Instr.fabricReleaseApply src epoch num count marks pa l
    let pkt := Instr.flowPacketArrival src flow (num, start) ordered none pa l
    let far := Instr.remoteAccessArrival src op pa size (v, cmp) ⟨epoch, num, none⟩
    let amo := Instr.remoteAccessArrival src op pa size (v, cmp) ⟨epoch, 0#32, some ⟨num, count, marks⟩⟩
    let seen := num.toNat ∈ p.applied ∨ seqGe p.delivered num.toNat = true
    let seenRel := num.toNat ∈ p.relApplied ∨ seqGe p.relDone num.toNat = true ∨ ∃ x ∈ p.relWait, x.num = num.toNat
    let mainAt (x : Nat) : Prop := (∃ d, regionOf x = .main d) ∧ s.isOwn x = true
    let atMain : Prop := ∀ i, i < l.length → mainAt (pa + i)
    let free : Prop := s.linesHeld pa l.length = false
    let puts (u : State) : Prop := Memory.wf s.mem = true → ∀ b, u.rd b = if pa ≤ b ∧ b < pa + l.length then l.getD (b - pa) 0#8 else s.rd b
    let noted : State := s.setPeer src (p.note num.toNat)
    let waits (x : RelWait) : State := s.setPeer src { p with relWait := [x] }
    ((epoch.toNat + 256 - p.rxEpoch) % 256 ≥ 128 → epoch.toNat ≠ p.rxEpoch → Acts store s s ∧ Acts rel s s ∧ Acts far s s) ∧
    (free = false → Acts store s s ∧ Acts pkt s s) ∧
    (cur → free → seen → Acts store s (s.setPeer src p)) ∧
    (cur → free → ¬seen → p.relWait = [] →
      (atMain → s.main = true → ∃ u : State, exec store s = .next u ∧ puts u ∧ u.peers = noted.peers ∧ u.cores = s.cores ∧ u.frames = s.frames) ∧
      (∀ j off, regionOf pa = .sram j off → s.isOwn pa = true → pa % 4096 + l.length ≤ 4096 →
        (∀ q, s.windowPa (s.core j).ctxid j off = some q → Acts store s ((s.store q l).setPeer src (p.note num.toNat))) ∧
        (s.windowPa (s.core j).ctxid j off = none → Acts store s noted))) ∧
    (cur → seenRel → Acts rel s (s.setPeer src p) ∧ (1 ≤ op → op ≤ 13 → Acts amo s (s.setPeer src p))) ∧
    (cur → ¬seenRel → p.relWait = [] → seqGe p.delivered count.toNat = false →
      Acts rel s (waits { num := num.toNat, count := count.toNat, marks := marks, pa := pa, bytes := l }) ∧
      (1 ≤ op → op ≤ 13 → size ∈ [1, 2, 4, 8] →
        Acts amo s (waits { num := num.toNat, count := count.toNat, marks := marks, pa := pa, bytes := [], amo := some (op, size, v, cmp) }))) ∧
    (cur → ¬seenRel → p.relWait = [] → seqGe p.delivered count.toNat = true → marks = [] → atMain → s.linesHeld pa 8 = false →
      s.main = true → ∃ u : State, exec rel s = .next u ∧ puts u ∧ (u.peer src).seenRel num.toNat = true ∧ (u.peer src).relWait = []) ∧
    (∀ F, p.flows.get? flow = some F → F.start ≠ start.toNat → seqGe start.toNat F.next = false → Acts pkt s s) ∧
    (∀ F, (p.flows.get? flow = some F ∧ F.start = start.toNat) ∨
        (p.flows.get? flow = none ∧ F = ({ start := start.toNat, next := start.toNat } : InFlow)) →
      (seqGe num.toNat F.next = false ∨ num.toNat ∈ F.got → Acts pkt s s) ∧
      (seqGe num.toNat F.next = true → num.toNat ∉ F.got → F.held = [] → p.relWait = [] → atMain → free → s.main = true →
        (ordered = false → ∃ u : State, exec pkt s = .next u ∧ puts u) ∧
        (ordered = true → num.toNat = F.next → ∃ (u : State) (G : InFlow), exec pkt s = .next u ∧ puts u ∧
          (u.peer src).flows.get? flow = some G ∧ G.next = (F.next + 1) % 2 ^ 32 ∧ G.held = []) ∧
        (ordered = true → num.toNat ≠ F.next → ∃ (u : State) (G : InFlow), exec pkt s = .next u ∧ u.mem = s.mem ∧
          (u.peer src).flows.get? flow = some G ∧ G.next = F.next ∧ G.held = [(num.toNat, (pa, l))]))) ∧
    (op = 0 → Acts far s s) ∧
    (size ∈ [1, 2, 4, 8] → s.linesHeld pa size = true → Acts far s s) ∧
    (cur → 1 ≤ op → op ≤ 13 → seen → size ∈ [1, 2, 4, 8] → s.linesHeld pa size = false → Acts far s (s.setPeer src p)) ∧
    (cur → ¬seen → p.relWait = [] → size ∈ [1, 2, 4, 8] → s.linesHeld pa size = false → mainAt pa → pa % size = 0 → s.poisonedAt pa size = false →
      let old := s.rdN pa size
      let x := v.toNat % 2 ^ (8 * size)
      let wrote (n : Nat) : State := (s.wrN pa size n).setPeer src (p.note num.toNat)
      (op = 1 → Acts far s (wrote ((old + x) % 2 ^ (8 * size)))) ∧ (op = 9 → Acts far s (wrote x)) ∧
      (op = 10 → old = cmp.toNat % 2 ^ (8 * size) → Acts far s (wrote x)) ∧
      (op = 10 → old ≠ cmp.toNat % 2 ^ (8 * size) → Acts far s noted)) ∧
    (p.pending = [] → Acts (.programTrafficAck src count sw) s (if sw then s.setPeer src { p with pending := [] } else s)) ∧
    (∀ q, p.pending = [q] → q.epoch = p.txEpoch → seqGe count.toNat q.num = true → (∀ o, regionOf q.pa ≠ .regs o) →
      (∀ n ∈ p.lost, n.1 ≠ p.txEpoch ∨ seqGe count.toNat n.2 = false) →
      ((q.epoch + 256 - p.learnt) % 256 < 128 → (q.rel = none ∨ ∀ n ∈ p.lost, n.1 ≠ q.epoch ∨ seqGe q.num n.2 = false) →
        Acts (.programTrafficAck src count false) s
          (((s.setPeer src { p with pending := [], learnt := q.epoch }).unitStore q.pa q.bytes).afterRelease q.core)) ∧
      ((q.epoch + 256 - p.learnt) % 256 ≥ 128 → Acts (.programTrafficAck src count false) s
        ((s.setPeer src { p with pending := [], lost := p.lost ++ [(q.epoch, q.num)] }).afterRelease q.core))) ∧
    (∀ h, (s.fr k f).far = (va, t) :: h → t < 2 ^ 16 → (s.fr k f).hold ≠ .no → (s.fr k f).stat ≠ .stopped → (s.fr k f).saved = [] →
      f < 32 → s.main = true →
      ∃ u : State, exec (.remoteLimitExpiry (4 * (32 * k + f))) s = .next u ∧ (u.peer t).txEpoch = ((s.peer t).txEpoch + 1) % 256 ∧ u.mem = s.mem ∧
        (u.fr k f).now = true ∧ (u.fr k f).stat = .ready ∧ (u.fr k f).far = [] ∧
        (u.fr k f).deferred = ⟨0x12, BitVec.ofNat 64 va, BitVec.ofNat 64 (t % 18), 0#64⟩ :: (s.fr k f).deferred) ∧
    (∀ q r, p.pending = q :: r → q.rel = none → s.main = true →
      ∃ u : State, exec (.remoteLimitExpiry (4 * (src * 2 ^ 16) + 1)) s = .next u ∧ (u.peer src).timedOut = true ∧ (u.peer src).txEpoch = p.txEpoch)

/-- R416 to R418, R427 to R433: the link layer takes the next flit, drops another, and trains after a second failure in a row; acknowledged
flits leave the buffer; a port that trained has a width and says if it changed, or is down and its traffic goes elsewhere; joins form a
group when all have come, or wait for the host's word; aborts and limits end the incarnation they name.
(Log 88 to 91 name the model's readings.) -/
def Obligations.LinksAndGroupEvents : Prop :=
  ∀ (s : State) (die port g core pkgNo k f h : Nat) (num : BitVec 12) (report : Bool) (inc prop : BitVec 16) (reason : BitVec 3) (ctx : BitVec 16)
    (record : List (BitVec 8)) (mask : BitVec 3), die < 6 →
    let n := 3 * die + port % 3
    let p := s.port n
    let want := match p.lastRx with | some r => (r + 1) % 4096 | none => 0
    let G := s.group g
    let train : State := s.setPort n { p with training := true, crcFails := 0 }
    (p.width ≠ 0 → p.training = false →
      (num.toNat ≠ want → ∀ ok, Acts (.linkFlitReceive die port num ok) s s) ∧
      (num.toNat = want → Acts (.linkFlitReceive die port num true) s (s.setPort n { p with lastRx := some want, crcFails := 0 }) ∧
        (p.crcFails = 0 → Acts (.linkFlitReceive die port num false) s (s.setPort n { p with crcFails := 1 })) ∧
        (p.crcFails ≥ 1 → Acts (.linkFlitReceive die port num false) s train))) ∧
    (p.width ≠ 0 → Acts (.laneLockLoss die port) s train) ∧
    (num.toNat ∉ p.replay → Acts (.linkAckReceive die port num report) s s) ∧
    (∀ l, p.replay = num.toNat :: l → p.waitTx = 0 → (p.training = false ∨ report = true) →
      Acts (.linkAckReceive die port num report) s (s.setPort n { p with replay := l, waitTx := 0 }.fill)) ∧
    (p.training = false → Acts (.portRetrainDone die port 0xFFFF#16) s s) ∧
    (p.training = true →
      (p.width = 1 → Acts (.portRetrainDone die port 0xFFFF#16) s (s.setPort n { p with width := 1, training := false })) ∧
      (p.width = 1 → Acts (.portRetrainDone die port 0x00FF#16) s
        ((s.setPort n { p with width := 2, training := false }).post die 4 (port % 3) 0x0604 (n + 2 * 2 ^ 8))) ∧
      (p.width = 1 → Acts (.portRetrainDone die port 0x0001#16) s
        ((((s.setPort n { p with width := 0, training := false, replay := [], waitTx := 0 }).post die 4 (port % 3) 0x0605 n).flits n
          (p.replay.length + p.waitTx)).linksDown))) ∧
    (mask = 0#3 → Acts (.retrain die mask) s s) ∧
    (mask = 1#3 → Acts (.retrain die mask) s (s.setPort (3 * die) { s.port (3 * die) with training := true, crcFails := 0 })) ∧
    (g < 64 → pkgNo ≠ s.pkg → (∀ r, (cgMembers record).map (·.map (·.2)) = some (s.pkg :: r) →
      Acts (.groupJoinArrival g core pkgNo ctx record prop) s (s.joinArrive g ⟨core, pkgNo, ctx.toNat, record, prop.toNat⟩))) ∧
    (cgMembers record = none → Acts (.groupJoinArrival g core pkgNo ctx record prop) s s) ∧
    (g < 64 → G.state = 1 → Acts (.groupCommitArrival g inc) s (s.formed g inc.toNat) ∧ ((s.formed g inc.toNat).group g).state = 2 ∧
      ((s.formed g inc.toNat).group g).inc = inc.toNat) ∧
    (g < 64 → G.state = 2 → Acts (.groupCommitArrival g inc) s s) ∧
    (g < 64 → G.inc ≠ inc.toNat → Acts (.groupAbortMsg g inc reason) s (s.setGroup g { G with dropped := min 0xFFFF (G.dropped + 1) })) ∧
    (g < 64 → G.inc = inc.toNat → G.state = 2 → 1 ≤ reason.toNat → reason.toNat ≤ 4 →
      Acts (.groupAbortMsg g inc reason) s (s.groupEnd g reason.toNat) ∧ ((s.groupEnd g reason.toNat).group g).state = 3 ∧
        ((s.groupEnd g reason.toNat).group g).reason = reason.toNat ∧ s.groupAbort g reason.toNat = (s.groupEnd g reason.toNat).tellOthers G) ∧
    ((s.fr k f).saved = [savGroup, g, G.inc] → G.state = 2 → Acts (.cgwaitLimit k f) s (s.groupAbort g 2)) ∧
    ((s.fr k f).saved = [savForm, g, h] → G.state = 1 → Acts (.cgformLimit k f) s (s.groupAbort g 2)) ∧
    (G.posted = true → G.state = 1 → Acts (.cgansCommit g) s (s.commit g (maxProp (G.joins.map (·.prop))))) ∧
    (G.posted = true → Acts (.cgansRefuse g) s (s.setGroup g { G with joins := [], posted := false })) ∧
    (G.posted = false → Acts (.cgansCommit g) s s ∧ Acts (.cgansRefuse g) s s)

/-- R288, R385 to R390, R396, R404, R405: a doorbell promises entries, one beyond the ring breaks the queue; the front end consumes the packet
at HEAD, a launch becomes the next one; a launch is released when nothing holds it and its image reads; a saved context comes back; a gang
that has retired, with every write of it performed, completes, and one whose limit passes ends with −1 and, once SIGNAL is written, one guilt.
That a producer's doorbell in assisted mode is posted alone, with a KIND of class 2 and a BODY the spec does not give, is the model's reading
(log 112). (Log 92 to 94 and 143 name the model's readings.) -/
def Sys2Proof.Spec.launchRuns : Prop :=
  ∀ (s : State) (die q k n : Nat) (v : BitVec 32) (ctx : BitVec 16) (L : Launch), die < 6 → q < 64 →
    let u := s.uq die q
    let ahead (v : Nat) : Nat := (v + 2 ^ 32 - u.head) % 2 ^ 32
    (u.enable = false ∨ s.barred u.ctx = true → Acts (.doorbell die q v) s s) ∧
    (u.enable = true → s.barred u.ctx = false →
      (ahead v.toNat ≤ 2 ^ u.log2 → nfld (s.die die).assist 0 1 = 0 →
        (ahead v.toNat > ahead u.promised → Acts (.doorbell die q v) s (s.setUq die q { u with promised := v.toNat })) ∧
        (ahead v.toNat ≤ ahead u.promised → Acts (.doorbell die q v) s s)) ∧
      (ahead v.toNat ≤ 2 ^ u.log2 → nfld (s.die die).assist 0 1 = 1 → ∃ kind body, 0x0401 ≤ kind ∧ kind ≤ 0x0406 ∧
        Acts (.doorbell die q v) s { s.post die 2 0 kind body with tick := s.tick + 2 }) ∧
      (ahead v.toNat > 2 ^ u.log2 → Acts (.doorbell die q v) s ((s.setUq die q { u with error := true }).guilt u.ctx 2))) ∧
    (s.mayParse die q = false → Acts (.queuePacketRead die q) s s) ∧
    (∀ s1 pa e, s.mayParse die q = true →
      s.unitAcc die (frontUnit die q) u.ctx (u.ring.toNat + 64 * (u.head % 2 ^ u.log2)) needR = .go s1 pa e →
      s1.poisonedAt (dieRead die pa e) 64 = false →
      let p := words64 8 (s1.unitBytes (dieRead die pa e) 64)
      let w := p.getD 0 0#64
      let s2 := s1.setUq die q { u with head := (u.head + 1) % 2 ^ 32 }
      (w.toNat % 2 = 0 ∨ w.toNat / 2 ^ 8 % 2 ^ 8 ≠ u.head / 2 ^ u.log2 % 256 → Acts (.queuePacketRead die q) s s1) ∧
      (w.toNat % 2 = 1 → w.toNat / 2 ^ 8 % 2 ^ 8 = u.head / 2 ^ u.log2 % 256 →
        (packetBad p = true → Acts (.queuePacketRead die q) s (s2.malformed die q u.ctx p)) ∧
        (packetBad p = false → w.toNat / 2 ^ 16 % 2 ^ 8 = 0 → Acts (.queuePacketRead die q) s s2) ∧
        (packetBad p = false → w.toNat / 2 ^ 16 % 2 ^ 8 ≠ 0 → Acts (.queuePacketRead die q) s
          { s2 with launchNo := s1.launchNo + 1, launches := s1.launches ++ [mkLaunch s1.launchNo die q u.ctx p s1.mem] }))) ∧
    (s.retiring = [] → s.retireOn = s) ∧
    (s.launches[n]? = some L →
      (L.released = true ∨ L.ended = true ∨ s.barred L.ctx = true ∨ s.frozen L.ctx = true → Acts (.launchRelease n) s s) ∧
      (L.released = false → L.ended = false → L.after = false → s.barred L.ctx = false → s.frozen L.ctx = false → s.slotOf L.ctx ≠ none →
        (s.die L.die).feDown = false → s.barArmed L = false →
        (∀ R ∈ s.launches, R.id = L.id ∨ R.released = false ∨ R.ended = true ∨ R.die ≠ L.die ∨ R.q ≠ L.q) →
        (∀ k ∈ L.cores, s.seat L k = .free) → ∀ t img, s.readVa L.die (3600 + L.die) L.ctx 17 L.image.toNat L.size = .got t img →
        Acts (.launchRelease n) s (t.release L img)) ∧
      let due (t : State) : State := if L.owes then t.limitGuilt L else t
      (L.sigFault = true → Acts (.launchComplete n) s (due ((s.dropLaunch L.id).queueErr L.die L.q)).retireOn) ∧
      (L.sigFault = false → s.gangDone L = false → Acts (.launchComplete n) s s.retireOn) ∧
      (L.sigFault = false → s.gangDone L = true →
        (L.ended = true → Acts (.launchComplete n) s (due (s.sigOut L (L.failed.getD 0))).retireOn) ∧
        (L.ended = false → L.released = true → (∀ k ∈ L.cores, s.retired L k = true) → Acts (.launchComplete n) s
          ((L.cores.foldl (fun s k => s.memberLost L.ctx k 3) s).sigOut L (L.failed.getD 0)).retireOn) ∧
        (L.ended = false → (L.released = false ∨ ∃ k ∈ L.cores, s.retired L k = false) → Acts (.launchComplete n) s s.retireOn)) ∧
      (L.ended = false → Acts (.launchLimitExpiry n) s ((s.launchEnd L (-1)).limitGuilt L) ∧
        ((∀ o ∈ (s.launchEnd L (-1)).launches, o.id ≠ L.id) → Acts (.launchLimitExpiry n) s ((s.launchEnd L (-1)).guilt L.ctx 3))) ∧ (L.ended = true → Acts (.launchLimitExpiry n) s s)) ∧
    (s.mayResume k ctx.toNat = false → Acts (.contextResume k ctx) s s) ∧
    (s.mayResume k ctx.toNat = true → Acts (.contextResume k ctx) s ((s.dropOwners k (s.core k).ctxid).resumeCtx k ctx.toNat))
/-- R14, R278, R280, R287, R364: a release leaves in every member core the context, its partition word and rank, the other registers at their
reset values, the tags the image names, and one firing, in frame 0, at the entry with x1 0, x2 the scratchpad, x3 to x11 the launch's words; its
barrier is armed for its members, and the launch is released. Where the image's own words bind a tag is a value of the configuration (log 15). -/
def Sys2Proof.Spec.releaseLeaves : Prop :=
  ∀ (s : State) (L : Launch) (img : List (BitVec 8)) (r k : Nat), L.cores.Nodup → L.cores[r]? = some k →
    let t := s.release L img
    let c := t.core k
    let F := t.fr k 0
    c.ctxid = L.ctx ∧ c.partw = L.partw ∧ c.seed = 0#64 ∧ c.obuflim = 16 ∧ c.heapbase = 0#64 ∧ c.heaplim = 0#64 ∧ c.tvec.toNat % 4 = 0 ∧
    (L.cores = [k] →
      let u := (s.dropOwners k L.ctx).takeAll k L.ctx (List.range (pwFrames L.partw + pwAccs L.partw + pwScratch L.partw))
      let n := (u.slotOf L.ctx).getD 0
      c.capw = capBits (u.ctxDw n 8) ∧ c.tvec = u.ctxDw n 0x28 &&& ~~~3#64) ∧
    (∃ g, c.gang = some g ∧ g.launch = L.id ∧ g.rank = r ∧ g.cores = L.cores ∧ g.bar = L.bar ∧ g.steal = L.steal ∧ g.aligns = {}) ∧
    (c.deque = [] ∧ c.inbox = {} ∧ c.outbox = [] ∧ c.slog = {} ∧ c.bufs = {} ∧ c.mx = {} ∧ c.cp = {} ∧ c.leave = false) ∧
    (∀ n, n < 64 →
      (∀ off pri, Config.imageTags img n = some (off, pri) →
        (c.tag n).kind = .affine ∧ (c.tag n).entry = entryAt L.image off ∧ (c.tag n).e = true ∧ (c.tag n).h = 0 ∧
          (c.tag n).bpri = (if n = 63 then 3 else pri % 4)) ∧
      (Config.imageTags img n = none → (c.tag n).kind = .unbound ∧ ((c.tag n).e = true ↔ n = 61 ∨ n = 62))) ∧
    (∀ f, f ∈ framesOf k → f ≠ 0 → (t.fr k f).stat = .free) ∧
    F.stat = .ready ∧ F.src = .launch ∧ F.pc = L.image + wd L.entry ∧ F.fflags = 0#6 ∧ F.rx 1 = 0#64 ∧
    F.rx 2 = wd (selfBase + scratchLo L.partw) ∧ F.rx 3 = 0xFFFF0000#64 ∧ F.rx 4 = L.arg ∧ F.rx 5 = wd r ∧ F.rx 6 = wd L.cores.length ∧
    F.rx 7 = L.gangw ∧ (∀ n, 8 ≤ n → n ≤ 11 → F.rx n = 0#64) ∧
    ((t.barOf L.gang).armed = true ∧ (t.barOf L.gang).members = L.cores ∧ (t.barOf L.gang).aborted = false) ∧
    (∀ R ∈ t.launches, R.id = L.id → R.released = true)
/-- R364, R405, R407: a context that comes back finds on its core the registers, tags, engines, buffers, flows and frames it had, and is
held no more; with its INIMG bits clear its granules lie where they are, and a granule with the bit set comes back first, into a physical
granule that is free or is taken, with its bytes and poison, and the bit is cleared. The tasks and messages come back as its record holds them
(log 35). -/
def Sys2Proof.Spec.resumeLeaves : Prop :=
  ∀ (s : State) (k ctx : Nat) (c : Core), s.savedCores.get? (savedKey ctx k) = some c → c.slog = {} →
    let l := s.savedFrames.get (savedKey ctx k) []
    let t := s.resumeCtx k ctx
    let d := t.core k
    ((∀ e ∈ l, e.2.stat = .parked → e.2.unret ≠ 0 ∨ e.2.waits ≠ [] ∨ e.2.hold ≠ .no) → (∀ e ∈ l, e.1 ∈ framesOf k) →
      (∀ f ∈ framesOf k, (s.fr k f).stat ≠ .parked) →
      (d.ctxid = c.ctxid ∧ d.capw = c.capw ∧ d.tvec = c.tvec ∧ d.seed = c.seed ∧ d.obuflim = c.obuflim ∧ d.heapbase = c.heapbase ∧
        d.heaplim = c.heaplim ∧ d.partw = c.partw) ∧
      (d.tags = c.tags ∧ d.gang = c.gang ∧ d.mx = c.mx ∧ d.cp = c.cp ∧ d.accTag = c.accTag ∧ d.bufs = c.bufs ∧ d.flows = c.flows ∧
        d.flowSeq = c.flowSeq ∧ d.deque.length = c.deque.length ∧ d.outbox.length = c.outbox.length ∧ d.inbox.keys = c.inbox.keys) ∧
      (d.tlb = (s.core k).tlb ∧ t.heldSave ctx k = false ∧ t.savedFrames.get (savedKey ctx k) [] = []) ∧
      ((l.map (·.1)).Nodup → ∀ e ∈ l, t.fr k e.1 = e.2) ∧ (∀ f ∈ framesOf k, (∀ e ∈ l, e.1 ≠ f) → t.fr k f = s.fr k f)) ∧
    (∀ r, s.savePa ctx k = some r →
      let bit (u : State) (g : Nat) : Nat := nfld (u.unitRd (r + 0x100 + g / 8) 1) (g % 8) 1
      ((∀ g, g < 256 → bit s g = 0) → s.reload k ctx = s) ∧
      (∀ g, g < 256 → bit s g = 1 → (∀ h, h < g → bit s h = 0) →
        let v := (s.takeGranule k ctx g).1
        let p := (s.takeGranule k ctx g).2
        let a := r + 0x10000 + 4096 * g
        let u := ((v.store (granulePa v k p) (v.unitBytes a 4096)).carryPoison a (granulePa v k p) 4096).unitWr (r + 0x100 + g / 8) 1
          (s.unitRd (r + 0x100 + g / 8) 1 - 2 ^ (g % 8))
        ((∀ h, g < h → h < 256 → bit u h = 0) → s.reload k ctx = u) ∧
        (∀ q, q < 256 → (∀ j, j < q → (s.core k).owner.get? j ≠ none) → (s.core k).owner.get? q = none →
          p = q ∧ (v.core k).owner.get? q = some (ctx, g) ∧ v.mem = s.mem)))
/-- Launches: what the front end does with them, and what a release and a resume leave. -/
def Obligations.LaunchEvents : Prop := launchRuns ∧ releaseLeaves ∧ resumeLeaves

/-- R367, R370, R383, R393 to R395, R403, R414: what masters may do. Descriptors and lists are written while off; walk images load, with their
measurement, and take effect or do not; TWGO with all words writes the TLB; SCHEDOUT and FREEF act on what they name; a function of the host
reaches main memory, and scratchpad only as a driver, and gets the value it reads; a frozen master reaches nothing and reads ones; a violation
freezes it; UNFREEZE frees others. (Log 97 to 101 name the model's readings; that host memory is named from 2^56 on is log 148.) -/
def Sys2Proof.Spec.masterActs : Prop :=
  ∀ (s : State) (die q core f fn pa size : Nat) (off : BitVec 6) (fo : BitVec 12) (v : Word) (master who : BitVec 18) (slot : BitVec 8), die < 6 → q < 64 →
    let V := s.die die
    let u := s.uq die q
    let l := V.fl
    let setL (l : FreeList) : State := s.updDie die fun x => { x with fl := l }
    let m := master.toNat
    let driver : Prop := m = 2 ^ 16 ∨ m = 2 ^ 16 + 64
    let frozen : Prop := s.isFrozenM m = true
    let a := s.pkg * 2 ^ 40 + pa % 2 ^ 40
    let fnm := 2 ^ 16 + fn
    (u.enable = false →
      Acts (.userQueueDescWrite die q 0#6 v) s (s.setUq die q { u with ring := v }) ∧
      Acts (.userQueueDescWrite die q 0x10#6 v) s (s.setUq die q { u with limit := v.toNat % 2 ^ 48 })) ∧
    (u.enable = true → off ≠ 8#6 → Acts (.userQueueDescWrite die q off v) s s) ∧
    (l.enable = false →
      Acts (.freeListRegWrite die 0#12 v) s (setL { l with stack := v }) ∧ Acts (.freeListRegWrite die 0x10#12 v) s (setL { l with vbase := v }) ∧
      Acts (.freeListRegWrite die 8#12 v) s (setL { l with enable := v.getLsbD 63, ctx := v.toNat / 2 ^ 32 % 2 ^ 16, cap := v.toNat % 2 ^ 32 })) ∧
    (l.enable = true → fo ≠ 8#12 → Acts (.freeListRegWrite die fo v) s s) ∧
    (nfld V.assist 1 1 = 1 → Acts (.wfgo die) s (s.updDie die fun v => { v with wfbusy := true })) ∧
    (nfld V.assist 1 1 = 0 → Acts (.wfgo die) s (s.updDie die fun v => { v with wfstat := 2 })) ∧
    (V.wfbusy = false → Acts (.walkImageLoadDone die) s s) ∧
    (V.wfbusy = true → s.main = true → ∃ t, exec (.walkImageLoadDone die) s = .next t ∧ (t.die die).wfbusy = false ∧ t.mem = s.mem ∧
      ((t.die die).wfstat = 1 ∧ (t.die die).walkImg = some (s.rdBytes V.wfbase (V.wfsize.toNat % 2 ^ 17)) ∧
        (t.die die).attest = extendLog V.attest (sha3 (s.rdBytes V.wfbase (V.wfsize.toNat % 2 ^ 17))) ∨
        (t.die die).wfstat = 3 ∧ (t.die die).walkImg = V.walkImg)) ∧
    (∀ va e c t, V.tw.get? 0 = some va → V.tw.get? 1 = some e → V.tw.get? 2 = some c → V.tw.get? 3 = some t →
      Acts (.twgo die) s ((s.tlbw die e va (BitVec.ofNat 64 (c.toNat % 2 ^ 16)) t).1.updDie die fun v =>
        { v with tw := {}, twstat := (s.tlbw die e va (BitVec.ofNat 64 (c.toNat % 2 ^ 16)) t).2 })) ∧
    (core < 768 →
      (let K := 768 * die + core
       let c := s.core K
       let t := s.preempt K
       (c.ctxid = 0 ∨ s.savePa c.ctxid K = none ∨ s.runs K = none →
         Acts (.schedout die core) s (s.updCore K fun c => { c with leave := false })) ∧
       (c.ctxid ≠ 0 → s.savePa c.ctxid K ≠ none → s.runs K ≠ none →
         (s.mayLeave K = false → Acts (.schedout die core) s (s.updCore K fun c => { c with leave := true })) ∧
         (s.mayLeave K = true → Acts (.schedout die core) s t ∧ (t.core K).ctxid = 0 ∧ (∀ j, j < 9 → (t.fr K j).stat = .free) ∧
           t.savedCores.get? (savedKey c.ctxid K) = some { c with issuing := none, leave := false, frozen := false, lastUsed := s.tick }))) ∧
      (f < 8 → (s.fr (768 * die + core) f).stat = .stopped → Acts (.freefFrame die core f) s (s.endNow (768 * die + core) f)) ∧
      (f < 8 → (s.fr (768 * die + core) f).stat ≠ .stopped → Acts (.freefFrame die core f) s s) ∧
      ((s.fr (768 * die + core) 8).stat = .stopped → Acts (.freefBivouac die core) s (s.endNow (768 * die + core) 8))) ∧
    (frozen → Acts (.registerWrite master pa v) s s ∧ Acts (.ctxctlClear master slot) s s ∧ Acts (.ctxctlRetire master slot) s s ∧
      Acts (.unfreeze master who) s s) ∧
    (∀ o, regionOf pa = .regs o → s.isOwn pa = true → m / 2 ^ 16 ≠ 2 → Acts (.registerWrite master pa v) s (s.pageWrite m o v)) ∧
    (∀ o, regionOf pa = .regs o → s.isOwn pa = true → m / 2 ^ 16 = 2 → s.stby = true → Acts (.registerWrite master pa v) s (s.pageWrite mMgmt o v)) ∧
    (¬frozen → driver →
      Acts (.ctxctlClear master slot) s (s.ctxClear slot.toNat) ∧ Acts (.ctxctlRetire master slot) s (s.ctxRetire slot.toNat) ∧
      (who.toNat = 2 ^ 17 → Acts (.unfreeze master who) s { s with frozenMgmt := false }) ∧
      (who = master → Acts (.unfreeze master who) s s) ∧
      (2 ^ 16 ≤ who.toNat → who.toNat < 2 ^ 17 → who ≠ master →
        Acts (.unfreeze master who) s { s with frozenFns := s.frozenFns.filter (· ≠ who.toNat % 128) })) ∧
    (m < 256 → Acts (.ctxctlClear master slot) s (s.violation m (s.here 0xF004000030))) ∧
    (fn < 128 →
      let writes (t : State) : Prop := Acts (.hostLinkAccess fn true pa size v) s t
      let reads (t : State) (x : Nat) : Prop := Acts (.hostLinkAccess fn false pa size v) s { t with answered := some (fnm, a, x) }
      let violates : Prop := writes (s.violation fnm a) ∧ reads (s.violation fnm a) (2 ^ (8 * size) - 1)
      size ≤ 8 → (pa ≥ 2 ^ 56 → holeIn pa size = false → writes (s.store pa (bytesOf size v.toNat)) ∧
        Acts (.hostLinkAccess fn false pa size v) s { s with answered := some (fnm, pa, s.rdN pa size) }) ∧
      (pa < 2 ^ 56 → (fn / 64 ∉ s.linkUp → ∀ wr, Acts (.hostLinkAccess fn wr pa size v) s s) ∧
        (fn ∈ s.frozenFns → fn / 64 ∈ s.linkUp → writes s ∧ reads s (2 ^ (8 * size) - 1)) ∧
        (fn ∉ s.frozenFns → fn / 64 ∈ s.linkUp →
          ((∃ d, regionOf a = .main d) → holeIn a size = false → writes (s.store a (bytesOf size v.toNat)) ∧ reads s (s.rdN a size)) ∧
          (∀ k o, regionOf a = .sram k o → holeIn a size = false → (fn % 64 ≠ 0 → violates) ∧
            (fn % 64 = 0 → writes (s.store a (bytesOf size v.toNat)) ∧ reads s (s.rdN a size))) ∧
          (∀ o, regionOf a = .regs o → holeIn a size = false → size = 8 → pa % 8 = 0 → writes (s.pageWrite fnm o v) ∧
            (s.fnReadBad fn o = true → reads (s.violation fnm a) (2 ^ 64 - 1)) ∧ (s.fnReadBad fn o = false → reads s (s.regRead o).toNat)) ∧
          (holeIn a size = true → violates))))
/-- R362, R382, R392 to R395, R414, R444, R445: where a write of a register page goes. A master that is not frozen and writes what it may
acts as the page's registers say; else the write is a violation, which freezes it, is posted, and has no effect. -/
def Sys2Proof.Spec.registerPages : Prop :=
  ∀ (s : State) (die n q o m : Nat) (v : Word) (master : BitVec 18) (off : BitVec 6) (fo : BitVec 12), die < 6 → m = master.toNat →
    let V := s.die die
    let base := 0x40000000 * die
    let wr (x : Nat) : State := s.pageWrite m (base + x) v
    let set (f : Die → Die) : State := s.updDie die f
    let w := v.toNat
    let barred : Prop := ∀ x, x = s.here (0xF000000000 + o) → s.pageWrite m o v = s.violation m x
    let free : Prop := s.isFrozenM m = false
    (s.isFrozenM m = true → s.pageWrite m o v = s) ∧
    (m = 2 ^ 16 ∨ m = 2 ^ 16 + 64 → free → s.main = true →
      (n < 768 → fo.toNat < 4096 → wr (0x1000000 + 0x1000 * n + fo.toNat) = s.engineIn (768 * die + n) fo.toNat v) ∧
      (n < 48 → q < 16 → exec (.stageQueueDescWrite (768 * die + 16 * n + q) off v) s = .next (wr (0x2000000 + 0x1000 * n + 64 * q + off.toNat))) ∧
      exec (.freeListRegWrite die fo v) s = .next (wr (0x3000000 + fo.toNat)) ∧
      (q < 64 → exec (.userQueueDescWrite die q off v) s = .next (wr (0x4000400 + 64 * q + off.toNat))) ∧
      wr 0x4000000 = set (fun x => { x with assist := w % 64 }) ∧
      (die = 0 → wr 0x4000008 = set (fun x => { x with ctxbase := w })) ∧
      wr 0x4000010 = set (fun x => { x with evbase := w }) ∧
      wr 0x4000018 = set (fun x => { x with evlog2 := max 4 (min 20 (w % 32)) }) ∧
      wr 0x4000040 = set (fun x => { x with wfbase := w }) ∧
      (w / 2 ^ 8 % 4 = 1 → wr 0x4000030 = s.ctxClear (w % 256)) ∧ (w / 2 ^ 8 % 4 = 2 → wr 0x4000030 = s.ctxRetire (w % 256)) ∧
      (q < 64 → s.fnReaches (m % 128) (s.uq die q).ctx = true → wr (0x5000000 + 0x1000 * q) = s.ringBell die q (w % 2 ^ 32) true) ∧
      (w / 2 ^ 16 % 2 = 1 → w % 1024 < 768 → exec (.schedout die (w % 1024)) s = .next (wr 0x6000000)) ∧
      (w / 2 ^ 19 % 2 = 0 → w % 1024 < 768 → exec (.freefFrame die (w % 1024) (w / 2 ^ 16 % 8)) s = .next (wr 0x6000008)) ∧
      wr 0x6000010 = set (fun x => { x with rlimit := w % 2 ^ 48 }) ∧
      (die = 0 → wr 0x7000000 = { s with mgmt := { s.mgmt with pwrlim := max 400 (min 3200 w) } } ∧ (w % 2 = 1 → wr 0x7000028 = s.warm))) ∧
    (m = 2 ^ 17 → free →
      (o ∉ [0x7000000, 0x7000020, 0x7000028, 0x4000028, 0x4000030] → barred) ∧
      (s.pageWrite m 0x7000000 v = { s with mgmt := { s.mgmt with pwrlim := max 400 (min 3200 w) } }) ∧
      (w / 2 ^ 8 % 2 = 1 → s.pageWrite m 0x7000020 v = { s with mgmt := { s.mgmt with trip := false, tripd := 0 } }) ∧
      (w / 2 ^ 8 % 4 = 1 → s.pageWrite m 0x4000030 v = s.ctxClear (w % 256))) ∧
    (m / 2 ^ 16 = 1 → m % 64 ≠ 0 → free →
      (o % 0x40000000 / 0x1000000 = 4 ∨ o = 0x7000000 ∨ o = 0x7000028 → barred) ∧
      (q < 64 → o = base + 0x5000000 + 0x1000 * q → s.fnReaches (m % 128) (s.uq die q).ctx = false → barred) ∧
      (q < 64 → o = base + 0x5000000 + 0x1000 * q → s.fnReaches (m % 128) (s.uq die q).ctx = true →
        s.pageWrite m o v = s.ringBell die q (w % 2 ^ 32) false)) ∧
    (m < 256 → o % 0x40000000 / 0x1000000 ∈ [2, 3, 4, 6] → barred) ∧
    (∀ x, s.main = true →
      (m = 2 ^ 17 → s.violation m x = { s.post 0 2 0 0x0403 (m + x % 2 ^ 40 * 2 ^ 24) with frozenMgmt := true }) ∧
      (m / 2 ^ 16 = 1 → m % 128 ∉ s.frozenFns → s.violation m x =
        { s.post (m % 128 / 64) 2 0 0x0403 (m + x % 2 ^ 40 * 2 ^ 24) with frozenFns := s.frozenFns ++ [m % 128] }) ∧
      (m < 256 → s.violation m x = (s.post 0 2 0 0x0403 (m + x % 2 ^ 40 * 2 ^ 24)).freezeCtx
        (fld ((s.post 0 2 0 0x0403 (m + x % 2 ^ 40 * 2 ^ 24)).ctxDw m 0) 0 16)))
/-- R362, R392, R395: clearing leaves GUILT, BARRED and FROZEN zero and the rest of the record's word, and lets the context's cores go on; a
retirement without a launch leaves nothing of the context: no core, saved state, queue, list, Lantern slot, group, sheet or translation. -/
def Sys2Proof.Spec.clearAndRetire : Prop :=
  ∀ (s : State) (n : Nat), n < 256 →
    let a := s.ctxPa n
    let w := s.ctxDw n 0
    let ctx := w.toNat % 2 ^ 16
    (Memory.wf s.mem = true → (∃ d, regionOf a = .main d) → holeIn a 8 = false →
      let t := s.ctxClear n
      t.ctxDw n 0 = wd (w.toNat % 2 ^ 17 + w.toNat / 2 ^ 19 % 2 ^ 5 * 2 ^ 19 + w.toNat / 2 ^ 32 * 2 ^ 32) ∧
      (∀ k, (t.core k).frozen = true → (t.core k).ctxid ≠ ctx) ∧ (∀ k, (s.core k).ctxid ≠ ctx → t.core k = s.core k) ∧
      (∀ b, b < a ∨ a + 8 ≤ b → t.rd b = s.rd b)) ∧
    (w.toNat / 2 ^ 16 % 2 = 0 → s.ctxRetire n = s) ∧
    (w.toNat / 2 ^ 16 % 2 = 1 → ctx ≠ 0 → s.retiring = [] → (∀ L ∈ s.launches, L.ctx ≠ ctx) →
      let t := s.ctxRetire n
      t.retiring = [] ∧
      (∀ k, k < 8192 → (t.core k).ctxid ≠ ctx ∧ t.heldSave ctx k = false ∧
        (s.heldSave ctx k = true → t.savedFrames.get (savedKey ctx k) [] = [])) ∧
      (∀ d q, (t.uq d q).enable = true → (t.uq d q).ctx ≠ ctx) ∧ (∀ i, (t.squeue i).enable = true → (t.squeue i).ctx ≠ ctx) ∧
      (∀ d, ((t.die d).fl.enable = true → (t.die d).fl.ctx ≠ ctx) ∧ (∀ e ∈ (t.die d).lantern.l, e.2.ctx ≠ ctx) ∧
        (∀ e ∈ (t.die d).dir, e.ctx ≠ ctx) ∧ (∀ e ∈ (t.die d).tlb, e.ctx ≠ ctx)) ∧
      (∀ k, ∀ e ∈ (t.core k).tlb, e.ctx ≠ ctx) ∧ (∀ g, (t.group g).state ≠ 0 → (t.group g).ctx ≠ ctx))
/-- What masters may do, where their writes go, and what clearing and retiring a context leave. -/
def Obligations.MasterEvents : Prop := masterActs ∧ registerPages ∧ clearAndRetire

/-- R370, R396, R411 to R413: errors are counted and posted; a corrected one and the scrubber change no value; an uncorrectable one poisons
the unit that holds the byte, or the queue, the side-log entry or the frame it names; the front end's reload waits for the host in assisted
triage, and the host's word acts on what was posted.
The numbers of the structures are the model's (log 16, 110), and so is that a bad TLB entry goes from every TLB of its die (log 111). -/
def Obligations.ErrorEvents : Prop :=
  ∀ (s : State) (die : Nat) (unit : BitVec 8) (addr : BitVec 56), die < 6 →
    let V := s.die die
    let body := unit.toNat + addr.toNat * 2 ^ 8
    let posted (kind : Nat) : State := s.post die 3 0 kind body
    let ue : State := (posted 0x0603).updDie die fun v => { v with uecnt := min (2 ^ 32 - 1) (v.uecnt + 1) }
    let a := ue.pkg * 2 ^ 40 + addr.toNat % 2 ^ 40
    Acts (.correctedError die unit addr) s ((posted 0x0602).updDie die fun v => { v with secnt := min (2 ^ 32 - 1) (v.secnt + 1) }) ∧
    Acts (.patrolScrub die addr) s s ∧
    (∀ d, regionOf a = .main d →
      (unit = 1#8 → Acts (.uncorrectableError die unit addr) s ((ue.poisonUnit a 8).cellError a 8)) ∧
      (unit = 2#8 → Acts (.uncorrectableError die unit addr) s ((ue.poisonUnit a 32).cellError a 32))) ∧
    (∀ k o, regionOf a = .sram k o → unit = 0#8 → Acts (.uncorrectableError die unit addr) s (ue.poolError 0 k o a) ∧
      let c := ue.core k
      let g := o / 4096
      let t := ue.poolError 0 k o a
      (c.owner.get? g = none →
        (pwFrames c.partw + pwAccs c.partw ≤ g → t = ue.poisonUnit a 8) ∧
        (pwFrames c.partw ≤ g → g < pwFrames c.partw + pwAccs c.partw → g - pwFrames c.partw ∈ (t.core k).accPoison ∧ t.mem = ue.mem ∧ t.poison = ue.poison) ∧
        (g < pwFrames c.partw → (ue.fr k g).stat ≠ .free → (ue.fr k g).stat ≠ .stopped →
          ∃ w, t = ue.ticked.stopFiring k g ⟨0x83, 0#64, w, 0#64⟩))) ∧
    (unit = 4#8 → s.main = true → ∃ t, exec (.uncorrectableError die unit addr) s = .next t ∧ t.mem = ue.mem ∧ t.frames = s.frames ∧
      let away (e : TlbEnt) : Prop := e.va ≤ addr.toNat → e.va + 2 ^ pageBits e.w ≤ addr.toNat
      (∀ e ∈ (t.die die).tlb, away e) ∧ (∀ k, dieOf k = die → ∀ e ∈ (t.core k).tlb, away e) ∧ (∀ n, n / 48 = die → ∀ e ∈ (t.camp n).tlb, away e)) ∧
    (unit = 5#8 → addr.toNat < 4608 → Acts (.uncorrectableError die unit addr) s (ue.setSQueue addr.toNat { ue.squeue addr.toNat with broken := true })) ∧
    (unit = 6#8 → Acts (.uncorrectableError die unit addr) s (ue.slogFail (addr.toNat / 1024 % 4608) (addr.toNat % 1024) fun e => ⟨0x13, BitVec.ofNat 64 e.va, BitVec.ofNat 64 (addr.toNat % 1024), 0#64⟩)) ∧
    ((a / 8 * 8, 8) ∈ (ue.poisonUnit a 8).poison ∧ (ue.poisonUnit a 8).mem = ue.mem) ∧
    (nfld V.assist 3 1 = 1 → Acts (.frontEndError die) s (s.updDie die fun v => { v with feDown := true })) ∧
    (nfld V.assist 3 1 = 0 → Acts (.frontEndError die) s (s.reloadFront die)) ∧
    ((∀ L ∈ s.launches, L.die ≠ die ∨ L.released = true ∨ L.ended = true) → s.reloadFront die = s.updDie die fun v => { v with feDown := false }) ∧
    (let told : State := s.updDie die fun v => { v with triage := [] }
     let acted := V.triage.foldl (fun s e => s.actOn e.1 e.2) told
     ((acted.die die).feDown = false → Acts (.errorTriageWord die) s acted) ∧
     ((acted.die die).feDown = true → Acts (.errorTriageWord die) s (acted.reloadFront die)) ∧
     (∀ k f, k < 8192 → V.triage = [(savedKey (s.core k).ctxid k, f)] → (s.fr k f).stat = .stopped → acted = told.actOnStop k f) ∧
     (∀ ctx k f, k < 8192 → V.triage = [(savedKey ctx k, f)] → (s.core k).ctxid ≠ ctx → acted = told.actOnSaved ctx k f))

/-- R4, R434, R435, R438 to R440, R442 to R446: power, boot, reset, power and thermal acts. After a cold reset no core runs, memory reads zero
and no port or link is up until the boot, which a failed check stops and which extends every die's log by the image's digests; a warm reset keeps
main memory and boots; PWRLIM holds 400 to 3,200 watts, and a window's average stays at the limit in force; a junction is reported, throttles its
die from 105 °C and at 115 °C sets TRIP and asks for power off; reads answer the value and change nothing else; with MAIN down the port still
writes the management page.
That memory reads zero after a cold reset is the model's choice (log 1), and so are other values no rule gives (log 2, 104), what a failed check
is (log 105), the clearing of TRIPD with TRIP (log 139), a PWRLIM write with reserved bits (log 140) and what stays while MAIN is down (log 155). -/
def Obligations.BoardEvents : Prop :=
  ∀ (s : State) (digests : List Word) (svn : BitVec 16) (v : Word) (avg off : BitVec 12) (die : Nat) (temp : BitVec 8),
    let up : State := { s.cold [] [] with flash := digests }
    let bad (t : State) : State := { t with main := true, mgmt := { t.mgmt with bootfail := true, ready := false } }
    exec .stbyPowerUp s = .next { s with stby := true } ∧
    (∃ t, exec .stbyPowerDown s = .next t ∧ t.main = false ∧ t.stby = false ∧ t.mem = [] ∧ t.cores = {} ∧ t.frames = {} ∧ t.dies = {} ∧
      t.flash = s.flash ∧ t.pkg = s.pkg) ∧
    (s.stby = true → s.main = false → s.mgmt.offReq = false →
      exec (.mainPowerUp digests svn true) s = .next (up.boot digests svn.toNat true) ∧ exec (.mainPowerUp digests svn false) s = .next (bad up)) ∧
    (s.stby = false ∨ s.main = true ∨ s.mgmt.offReq = true → ∀ ok, exec (.mainPowerUp digests svn ok) s = .next s) ∧
    (∃ t, exec .mainPowerDown s = .next t ∧ t.main = false ∧ t.mem = [] ∧ t.cores = {} ∧ t.frames = {} ∧ t.stby = s.stby ∧ t.flash = s.flash ∧
      t.mgmt.trip = s.mgmt.trip ∧ t.mgmt.pwrlim = s.mgmt.pwrlim ∧ t.mgmt.tripd = s.mgmt.tripd ∧ t.mgmt.offReq = false) ∧
    (s.main = true → s.mgmt.bootfail = true → exec (.firmwareUpdate digests svn true) s =
      .next (({ s with flash := digests } : State).boot digests svn.toNat true)) ∧
    (∀ ok, s.main = false ∨ s.mgmt.bootfail = false ∨ ok = false → exec (.firmwareUpdate digests svn ok) s = .next s) ∧
    (∃ t, t = s.boot digests svn.toNat true ∧ t.main = true ∧ t.mgmt.ready = true ∧ t.mgmt.bootfail = false ∧ t.mgmt.svn = svn.toNat ∧
      t.linkUp = [0, 1] ∧ t.mem = s.mem ∧ t.cores = s.cores ∧ ∀ d, d < 6 → (t.die d).booted = true ∧
        (t.die d).attest = extendLog (extendLog (s.die d).attest (digest256 digests)) (digest256 (digests.drop 4))) ∧
    (s.main = true → exec .perstLink0 s = .next s.warm) ∧ (s.main = false → exec .perstLink0 s = .next s) ∧
    (s.warm.mem = s.mem.filter (fun c => !s.inPool c.1) ∧ s.warm.poison = s.poison.filter (fun u => !s.inPool u.1) ∧ s.warm.mgmt.bootfail = s.mgmt.bootfail ∧
      (∀ x, s.warm.rd x = if s.inPool x then 0#8 else s.rd x) ∧ s.warm.mgmt.pwrlim = 3200 ∧ s.warm.mgmt.tripd = 0 ∧ s.warm.cores = {} ∧ s.warm.frames = {} ∧ s.warm.main = true) ∧
    (s.main = true → ∃ t, exec .perstLink1 s = .next t ∧ (t.mem, t.cores, t.frames) = (s.mem, s.cores, s.frames) ∧
      (1 ∈ t.linkUp ↔ s.mgmt.ready = true)) ∧
    (s.main = true → s.frozenMgmt = false → v.getLsbD 0 = true → exec (.reset v) s = .next s.warm) ∧
    (s.main = false ∨ s.frozenMgmt = true ∨ v.getLsbD 0 = false → exec (.reset v) s = .next s) ∧
    (s.stby = true → s.frozenMgmt = false →
      exec (.pwrlim v) s = .next { s with mgmt := { s.mgmt with pwrlim := max 400 (min 3200 v.toNat) } } ∧
      (v.getLsbD 8 = true → exec (.trip v) s = .next { s with mgmt := { s.mgmt with trip := false, tripd := 0 } }) ∧
      (v.getLsbD 8 = false → exec (.trip v) s = .next s)) ∧
    (s.main = false ∨ avg.toNat > s.mgmt.limit → exec (.powerWindow avg) s = .next s) ∧
    (s.main = true → avg.toNat ≤ s.mgmt.limit → ∃ n, n < 64 ∧ exec (.powerWindow avg) s =
      .next { s with mgmt := { s.mgmt with pwrnow := avg.toNat, limit := s.mgmt.pwrlim, pthrot := n }, tick := s.tick + 1 }) ∧
    (∀ act ∈ [Instr.thermalThrottle die temp, .thermalThrottleEnd die temp, .thermalTrip die temp],
      let m := s.mgmt.report die temp.toNat
      (s.stby = false ∨ die ≥ 6 → exec act s = .next s) ∧
      (s.stby = true → die < 6 →
        (temp.toNat < 115 → exec act s = .next { s with mgmt := m }) ∧
        (temp.toNat ≥ 115 → ∃ x, exec act s = .next { s with main := false, mgmt := { m with trip := true, tripd := x, offReq := s.main || s.mgmt.offReq } } ∧
          x.testBit die = true ∧ ∀ d, d ≠ die → x.testBit d = s.mgmt.tripd.testBit d) ∧
        ((m.throt.testBit die = true ↔ temp.toNat ≥ 105) ∧ ∀ d, d ≠ die → m.throt.testBit d = s.mgmt.throt.testBit d) ∧
        m.temps.get die 0 = temp.toNat ∧ m.temp = m.temps.get m.hotdie 0 ∧ ∀ d, d < 6 → m.temps.get d 0 ≤ m.temp)) ∧
    (s.stby = true → s.frozenMgmt = false →
      exec (.mgmtRead off) s = .next { s with answered := some (2 ^ 17, off.toNat, (s.mgmt.rd off.toNat).toNat) } ∧
      (die < 6 → exec (.spdmMeasurement die) s = .next { s with answered := some (2 ^ 17, die, (s.die die).attest.toNat) })) ∧
    (s.stby = false ∨ s.frozenMgmt = true → exec (.mgmtRead off) s = .next s ∧ exec (.spdmMeasurement die) s = .next s) ∧
    (let m := s.mgmt
     m.rd 0 = wd m.pwrlim ∧ m.rd 8 = wd m.pwrnow ∧ m.rd 0x10 = wd (m.hotdie * 2 ^ 16 + m.temp) ∧
     m.rd 0x18 = wd (m.tripd * 2 ^ 8 + (m.throt ||| m.pthrot)) ∧ m.rd 0x20 = wd (b2n m.trip * 2 ^ 8 + b2n m.ready * 2 + b2n m.bootfail) ∧
     m.rd 0x28 = 0#64 ∧ m.rd 0x30 = wd m.svn) ∧
    (s.main = false → ∀ o pa (who : BitVec 18), regionOf pa = .regs o → s.isOwn pa = true →
      (who.toNat / 2 ^ 16 ≠ 2 ∨ s.stby = false ∨ s.frozenMgmt = true → exec (.registerWrite who pa v) s = .next s) ∧
      (who.toNat / 2 ^ 16 = 2 → s.stby = true → s.frozenMgmt = false →
        (o = 0x7000000 → exec (.registerWrite who pa v) s = .next { s with mgmt := { s.mgmt with pwrlim := max 400 (min 3200 v.toNat) } }) ∧
        (o ∈ [0x7000028, 0x4000028, 0x4000030] → exec (.registerWrite who pa v) s = .next s) ∧
        (o ∉ [0x7000000, 0x7000020, 0x7000028, 0x4000028, 0x4000030] → exec (.registerWrite who pa v) s = .next { s with frozenMgmt := true })))

/-- R4, R38, R310, R438, R442, R444: after reset MAIN is down, nothing of memory is listed, and every register of a core, frame, stage
queue, die, queue, group and port, and of the management page, holds its reset value; no unit acts; the canonical form of memory holds. The
values the spec gives none for are the model's (log 1, 2). -/
def Obligations.AfterReset : Prop :=
  let s := State.reset
  (Memory.wf s.mem = true ∧ s.main = false ∧ s.stby = false ∧ s.mem = [] ∧ s.poison = [] ∧ (∀ a, s.rd a = 0#8) ∧
    ∀ a n, s.poisonedAt a n = false) ∧
  (∀ k f, let r := s.fr k f
    r.stat = .free ∧ r.pc = 0#64 ∧ r.fflags = 0#6 ∧ r.cause = 0#64 ∧ r.epc = 0#64 ∧ r.tval = 0#64 ∧ r.tval2 = 0#64 ∧ r.tval3 = 0#64 ∧
      r.handler = false ∧ r.joinc = 0#64 ∧ ∀ n, r.rx n = 0#64 ∧ r.rv n = 0#512 ∧ r.rt n = 0 ∧ (n ≠ 0 → r.rp n = 0#64)) ∧
  (∀ k, let c := s.core k
    c.ctxid = 0 ∧ c.capw = 0#64 ∧ c.tvec = 0#64 ∧ c.seed = 0#64 ∧ c.obuflim = 16 ∧ c.heapbase = 0#64 ∧ c.heaplim = 0#64 ∧ c.prefdrop = 0#64 ∧
      c.partw = 0#64 ∧ c.gang = none ∧ c.deque = [] ∧ c.outbox = [] ∧ c.awaits = [] ∧ c.tlb = [] ∧ c.slog = {} ∧ c.inbox = {} ∧ c.mx = {} ∧ c.cp = {} ∧
      ∀ n, (c.tag n).kind = .unbound ∧ (c.tag n).e = false ∧ (c.tag n).h = 0 ∧ c.buf n = {} ∧ c.flows.get? n = none) ∧
  (∀ q, (s.squeue q).enable = false ∧ (s.squeue q).occ = 0) ∧
  (∀ d, let v := s.die d
    v.rlimit = 2 ^ 32 ∧ v.evbase = 0 ∧ v.evput = 0 ∧ v.evlog2 = 4 ∧ v.assist = 0 ∧ v.ctxbase = 0 ∧ v.secnt = 0 ∧ v.uecnt = 0 ∧ v.wfstat = 0 ∧
      v.twstat = 0 ∧ v.walkImg = none ∧ v.attest = 0#256 ∧ v.dir = [] ∧ v.tlb = [] ∧ v.fl = {} ∧ v.lantern = {} ∧
      ∀ q, (s.uq d q).enable = false ∧ (s.uq d q).error = false ∧ (s.uq d q).head = 0) ∧
  (∀ g, s.group g = {} ∧ s.port g = {} ∧ s.peer g = {} ∧ s.heldSave g g = false) ∧
  (s.launches = [] ∧ s.walks = [] ∧ s.rdup = [] ∧ s.frozenFns = [] ∧ s.frozenMgmt = false ∧ s.linkUp = [] ∧ s.mgmt.pwrlim = 3200 ∧ s.mgmt.pwrnow = 0 ∧
    s.mgmt.temp = 0 ∧ s.mgmt.hotdie = 0 ∧ s.mgmt.throt = 0 ∧ s.mgmt.tripd = 0 ∧ s.mgmt.trip = false ∧ s.mgmt.ready = false ∧
    s.mgmt.bootfail = false ∧ s.mgmt.svn = 0) ∧
  (∀ (k f n d : Nat) (j : BitVec 2) (v : Word) (o : BitVec 6) (w : BitVec 32) (m : BitVec 18) (c : BitVec 16) (a : BitVec 56),
    (∀ i ∈ [Instr.varResultReturn k f, .selectorDecision k, .quantumExpiry k, .alignWaitExpiry k f, .requestArrival k n, .requestRetry k n,
        .replyArrival n, .autoReplySend k, .spawnArrival k f, .spawnAnswer k f, .mxremArrival k n, .waitRecheck k f, .waitLimitExpiry k f], exec i s = .next s) ∧
    (∀ i ∈ [Instr.matrixCmdStart k, .matrixCmdComplete k, .copyCmdComplete k n, .mword k j v, .mgo k v, .cword k j v, .cgo k v, .walkRequest d n,
        .walkTimeout d n, .cellDispatch d k n, .pinExpiry d k n, .poisonOpening d k n, .cellReadWake k f, .governorSample d], exec i s = .next s) ∧
    (∀ i ∈ [Instr.queueRefill n, .stageQueueDescWrite n o v, .krehomeTarget k f, .krehomeAnswer k f, .rdupPropagate n d, .rdupInvalidateAck n d,
        .laneLockLoss d n, .remoteLimitExpiry n, .groupCommitArrival n c, .cgwaitLimit k f, .cgformLimit k f, .cgansCommit n, .cgansRefuse n], exec i s = .next s) ∧
    (∀ i ∈ [Instr.doorbell d n w, .queuePacketRead d n, .launchRelease n, .contextResume k c, .launchComplete n, .launchLimitExpiry n,
        .hostLinkAccess n true k f v, .hostLinkAccess n false k f v, .registerWrite m n v, .wfgo d, .twgo d, .userQueueDescWrite d n o v, .schedout d k,
        .freefFrame d k f, .frontEndError d, .correctedError d 0#8 a, .uncorrectableError d 0#8 a, .errorTriageWord d], exec i s = .next s))

/-- Every step keeps memory in its one canonical form: addresses strictly rising, and no entry that an unlisted address reads as (the
form is the model's, log 1). `AfterReset` says that reset memory has it. -/
def Obligations.StepKeepsMemory : Prop := ∀ s t : State, s.Wf → step s = .next t → t.Wf
end

