-- ==== Sys2Proof/Laws/Dispatch.lean ====
section
/-! SUPPORT. Each arm of `exec`, as an equation. -/
set_option Elab.async false
namespace Sys2Proof.Machine

@[simp] theorem exec_nop m (s : State) : exec (.nop m) s = execNop m s := rfl
@[simp] theorem exec_align m n (s : State) : exec (.align m n) s = execAlign m n s := rfl
@[simp] theorem exec_endFiring m (s : State) : exec (.endFiring m) s = execEndFiring m s := rfl
@[simp] theorem exec_yield m (s : State) : exec (.yield m) s = execYield m s := rfl
@[simp] theorem exec_add m d a b (s : State) : exec (.add m d a b) s = execAdd m d a b s := rfl
@[simp] theorem exec_sub m d a b (s : State) : exec (.sub m d a b) s = execSub m d a b s := rfl
@[simp] theorem exec_mul m d a b (s : State) : exec (.mul m d a b) s = execMul m d a b s := rfl
@[simp] theorem exec_mulh m d a b (s : State) : exec (.mulh m d a b) s = execMulh m d a b s := rfl
@[simp] theorem exec_mulhn m d a b (s : State) : exec (.mulhn m d a b) s = execMulhn m d a b s := rfl
@[simp] theorem exec_div m d a b (s : State) : exec (.div m d a b) s = execDiv m d a b s := rfl
@[simp] theorem exec_divn m d a b (s : State) : exec (.divn m d a b) s = execDivn m d a b s := rfl
@[simp] theorem exec_rem m d a b (s : State) : exec (.rem m d a b) s = execRem m d a b s := rfl
@[simp] theorem exec_remn m d a b (s : State) : exec (.remn m d a b) s = execRemn m d a b s := rfl
@[simp] theorem exec_min m d a b (s : State) : exec (.min m d a b) s = execMin m d a b s := rfl
@[simp] theorem exec_max m d a b (s : State) : exec (.max m d a b) s = execMax m d a b s := rfl
@[simp] theorem exec_minn m d a b (s : State) : exec (.minn m d a b) s = execMinn m d a b s := rfl
@[simp] theorem exec_maxn m d a b (s : State) : exec (.maxn m d a b) s = execMaxn m d a b s := rfl
@[simp] theorem exec_slt m d a b (s : State) : exec (.slt m d a b) s = execSlt m d a b s := rfl
@[simp] theorem exec_sltn m d a b (s : State) : exec (.sltn m d a b) s = execSltn m d a b s := rfl
@[simp] theorem exec_and m d a b (s : State) : exec (.and m d a b) s = execAnd m d a b s := rfl
@[simp] theorem exec_or m d a b (s : State) : exec (.or m d a b) s = execOr m d a b s := rfl
@[simp] theorem exec_xor m d a b (s : State) : exec (.xor m d a b) s = execXor m d a b s := rfl
@[simp] theorem exec_andn m d a b (s : State) : exec (.andn m d a b) s = execAndn m d a b s := rfl
@[simp] theorem exec_orn m d a b (s : State) : exec (.orn m d a b) s = execOrn m d a b s := rfl
@[simp] theorem exec_sll m d a b (s : State) : exec (.sll m d a b) s = execSll m d a b s := rfl
@[simp] theorem exec_srl m d a b (s : State) : exec (.srl m d a b) s = execSrl m d a b s := rfl
@[simp] theorem exec_sra m d a b (s : State) : exec (.sra m d a b) s = execSra m d a b s := rfl
@[simp] theorem exec_rol m d a b (s : State) : exec (.rol m d a b) s = execRol m d a b s := rfl
@[simp] theorem exec_ror m d a b (s : State) : exec (.ror m d a b) s = execRor m d a b s := rfl
@[simp] theorem exec_clz m w d a (s : State) : exec (.clz m w d a) s = execClz m w d a s := rfl
@[simp] theorem exec_ffs m w d a (s : State) : exec (.ffs m w d a) s = execFfs m w d a s := rfl
@[simp] theorem exec_popc m w d a (s : State) : exec (.popc m w d a) s = execPopc m w d a s := rfl
@[simp] theorem exec_brev m w d a (s : State) : exec (.brev m w d a) s = execBrev m w d a s := rfl
@[simp] theorem exec_addi m d a imm (s : State) : exec (.addi m d a imm) s = execAddi m d a imm s := rfl
@[simp] theorem exec_addiLit m d a lit (s : State) : exec (.addiLit m d a lit) s = execAddiLit m d a lit s := rfl
@[simp] theorem exec_andi m d a imm (s : State) : exec (.andi m d a imm) s = execAndi m d a imm s := rfl
@[simp] theorem exec_andiLit m d a lit (s : State) : exec (.andiLit m d a lit) s = execAndiLit m d a lit s := rfl
@[simp] theorem exec_ori m d a imm (s : State) : exec (.ori m d a imm) s = execOri m d a imm s := rfl
@[simp] theorem exec_oriLit m d a lit (s : State) : exec (.oriLit m d a lit) s = execOriLit m d a lit s := rfl
@[simp] theorem exec_xori m d a imm (s : State) : exec (.xori m d a imm) s = execXori m d a imm s := rfl
@[simp] theorem exec_xoriLit m d a lit (s : State) : exec (.xoriLit m d a lit) s = execXoriLit m d a lit s := rfl
@[simp] theorem exec_slti m d a imm (s : State) : exec (.slti m d a imm) s = execSlti m d a imm s := rfl
@[simp] theorem exec_sltiLit m d a lit (s : State) : exec (.sltiLit m d a lit) s = execSltiLit m d a lit s := rfl
@[simp] theorem exec_slli m d a amt (s : State) : exec (.slli m d a amt) s = execSlli m d a amt s := rfl
@[simp] theorem exec_srli m d a amt (s : State) : exec (.srli m d a amt) s = execSrli m d a amt s := rfl
@[simp] theorem exec_srai m d a amt (s : State) : exec (.srai m d a amt) s = execSrai m d a amt s := rfl
@[simp] theorem exec_limm m d imm (s : State) : exec (.limm m d imm) s = execLimm m d imm s := rfl
@[simp] theorem exec_limmLit m d lit (s : State) : exec (.limmLit m d lit) s = execLimmLit m d lit s := rfl
@[simp] theorem exec_adpc m d imm (s : State) : exec (.adpc m d imm) s = execAdpc m d imm s := rfl
@[simp] theorem exec_bfx m d a sx len pos (s : State) : exec (.bfx m d a sx len pos) s = execBfx m d a sx len pos s := rfl
@[simp] theorem exec_bfi m d a len pos (s : State) : exec (.bfi m d a len pos) s = execBfi m d a len pos s := rfl
@[simp] theorem exec_sextB m d a (s : State) : exec (.sextB m d a) s = execSextB m d a s := rfl
@[simp] theorem exec_sextH m d a (s : State) : exec (.sextH m d a) s = execSextH m d a s := rfl
@[simp] theorem exec_sextW m d a (s : State) : exec (.sextW m d a) s = execSextW m d a s := rfl
@[simp] theorem exec_zextB m d a (s : State) : exec (.zextB m d a) s = execZextB m d a s := rfl
@[simp] theorem exec_zextH m d a (s : State) : exec (.zextH m d a) s = execZextH m d a s := rfl
@[simp] theorem exec_zextW m d a (s : State) : exec (.zextW m d a) s = execZextW m d a s := rfl
@[simp] theorem exec_br m off (s : State) : exec (.br m off) s = execBr m off s := rfl
@[simp] theorem exec_beqz m a off (s : State) : exec (.beqz m a off) s = execBeqz m a off s := rfl
@[simp] theorem exec_bnez m a off (s : State) : exec (.bnez m a off) s = execBnez m a off s := rfl
@[simp] theorem exec_bltz m a off (s : State) : exec (.bltz m a off) s = execBltz m a off s := rfl
@[simp] theorem exec_bgez m a off (s : State) : exec (.bgez m a off) s = execBgez m a off s := rfl
@[simp] theorem exec_bgtz m a off (s : State) : exec (.bgtz m a off) s = execBgtz m a off s := rfl
@[simp] theorem exec_blez m a off (s : State) : exec (.blez m a off) s = execBlez m a off s := rfl
@[simp] theorem exec_bpany m p off (s : State) : exec (.bpany m p off) s = execBpany m p off s := rfl
@[simp] theorem exec_bpnone m p off (s : State) : exec (.bpnone m p off) s = execBpnone m p off s := rfl
@[simp] theorem exec_bcmp m cond a b off (s : State) : exec (.bcmp m cond a b off) s = execBcmp m cond a b off s := rfl
@[simp] theorem exec_call m off (s : State) : exec (.call m off) s = execCall m off s := rfl
@[simp] theorem exec_jr m a (s : State) : exec (.jr m a) s = execJr m a s := rfl
@[simp] theorem exec_ret m (s : State) : exec (.ret m) s = execRet m s := rfl
@[simp] theorem exec_callr m a (s : State) : exec (.callr m a) s = execCallr m a s := rfl
@[simp] theorem exec_jtab m a b len (s : State) : exec (.jtab m a b len) s = execJtab m a b len s := rfl
@[simp] theorem exec_trap m a (s : State) : exec (.trap m a) s = execTrap m a s := rfl
@[simp] theorem exec_eret m (s : State) : exec (.eret m) s = execEret m s := rfl
@[simp] theorem exec_csrr m d csr (s : State) : exec (.csrr m d csr) s = execCsrr m d csr s := rfl
@[simp] theorem exec_csrw m a csr (s : State) : exec (.csrw m a csr) s = execCsrw m a csr s := rfl
@[simp] theorem exec_csrx m d a csr (s : State) : exec (.csrx m d a csr) s = execCsrx m d a csr s := rfl
@[simp] theorem exec_ld m t a size ord off (s : State) : exec (.ld m t a size ord off) s = execLd m t a size ord off s := rfl
@[simp] theorem exec_ldLit m t a size ord lit (s : State) : exec (.ldLit m t a size ord lit) s = execLdLit m t a size ord lit s := rfl
@[simp] theorem exec_ldz m t a size ord off (s : State) : exec (.ldz m t a size ord off) s = execLdz m t a size ord off s := rfl
@[simp] theorem exec_ldzLit m t a size ord lit (s : State) : exec (.ldzLit m t a size ord lit) s = execLdzLit m t a size ord lit s := rfl
@[simp] theorem exec_st m t a size ord off (s : State) : exec (.st m t a size ord off) s = execSt m t a size ord off s := rfl
@[simp] theorem exec_stLit m t a size ord lit (s : State) : exec (.stLit m t a size ord lit) s = execStLit m t a size ord lit s := rfl
@[simp] theorem exec_pref m a size off (s : State) : exec (.pref m a size off) s = execPref m a size off s := rfl
@[simp] theorem exec_prefLit m a size lit (s : State) : exec (.prefLit m a size lit) s = execPrefLit m a size lit s := rfl
@[simp] theorem exec_amoadd m d a b size scope ord off (s : State) : exec (.amoadd m d a b size scope ord off) s = execAmoadd m d a b size scope ord off s := rfl
@[simp] theorem exec_amoand m d a b size scope ord off (s : State) : exec (.amoand m d a b size scope ord off) s = execAmoand m d a b size scope ord off s := rfl
@[simp] theorem exec_amoor m d a b size scope ord off (s : State) : exec (.amoor m d a b size scope ord off) s = execAmoor m d a b size scope ord off s := rfl
@[simp] theorem exec_amoxor m d a b size scope ord off (s : State) : exec (.amoxor m d a b size scope ord off) s = execAmoxor m d a b size scope ord off s := rfl
@[simp] theorem exec_amomin m d a b size scope ord off (s : State) : exec (.amomin m d a b size scope ord off) s = execAmomin m d a b size scope ord off s := rfl
@[simp] theorem exec_amomax m d a b size scope ord off (s : State) : exec (.amomax m d a b size scope ord off) s = execAmomax m d a b size scope ord off s := rfl
@[simp] theorem exec_amominn m d a b size scope ord off (s : State) : exec (.amominn m d a b size scope ord off) s = execAmominn m d a b size scope ord off s := rfl
@[simp] theorem exec_amomaxn m d a b size scope ord off (s : State) : exec (.amomaxn m d a b size scope ord off) s = execAmomaxn m d a b size scope ord off s := rfl
@[simp] theorem exec_amoswp m d a b size scope ord off (s : State) : exec (.amoswp m d a b size scope ord off) s = execAmoswp m d a b size scope ord off s := rfl
@[simp] theorem exec_amocas m d a b c size scope ord off (s : State) : exec (.amocas m d a b c size scope ord off) s = execAmocas m d a b c size scope ord off s := rfl
@[simp] theorem exec_amofadd m d a b ft size scope ord off (s : State) : exec (.amofadd m d a b ft size scope ord off) s = execAmofadd m d a b ft size scope ord off s := rfl
@[simp] theorem exec_fence m kind scope (s : State) : exec (.fence m kind scope) s = execFence m kind scope s := rfl
@[simp] theorem exec_waita m d a b e c cond size scope ord imm (s : State) : exec (.waita m d a b e c cond size scope ord imm) s = execWaita m d a b e c cond size scope ord imm s := rfl
@[simp] theorem exec_waitaLit m d a b e c cond size scope ord lit (s : State) : exec (.waitaLit m d a b e c cond size scope ord lit) s = execWaitaLit m d a b e c cond size scope ord lit s := rfl
@[simp] theorem exec_bar m d (s : State) : exec (.bar m d) s = execBar m d s := rfl
@[simp] theorem exec_bararv m d (s : State) : exec (.bararv m d) s = execBararv m d s := rfl
@[simp] theorem exec_barwt m d a b (s : State) : exec (.barwt m d a b) s = execBarwt m d a b s := rfl
@[simp] theorem exec_vld m d a p fmt off (s : State) : exec (.vld m d a p fmt off) s = execVld m d a p fmt off s := rfl
@[simp] theorem exec_vst m d a p off (s : State) : exec (.vst m d a p off) s = execVst m d a p off s := rfl
@[simp] theorem exec_vadd m d a b p (s : State) : exec (.vadd m d a b p) s = execVadd m d a b p s := rfl
@[simp] theorem exec_vsub m d a b p (s : State) : exec (.vsub m d a b p) s = execVsub m d a b p s := rfl
@[simp] theorem exec_vmul m d a b p (s : State) : exec (.vmul m d a b p) s = execVmul m d a b p s := rfl
@[simp] theorem exec_vmax m d a b p (s : State) : exec (.vmax m d a b p) s = execVmax m d a b p s := rfl
@[simp] theorem exec_vmin m d a b p (s : State) : exec (.vmin m d a b p) s = execVmin m d a b p s := rfl
@[simp] theorem exec_vabs m d a p (s : State) : exec (.vabs m d a p) s = execVabs m d a p s := rfl
@[simp] theorem exec_vneg m d a p (s : State) : exec (.vneg m d a p) s = execVneg m d a p s := rfl
@[simp] theorem exec_vfma m d a b p (s : State) : exec (.vfma m d a b p) s = execVfma m d a b p s := rfl
@[simp] theorem exec_vfms m d a b p (s : State) : exec (.vfms m d a b p) s = execVfms m d a b p s := rfl
@[simp] theorem exec_viadd m d a b p (s : State) : exec (.viadd m d a b p) s = execViadd m d a b p s := rfl
@[simp] theorem exec_visub m d a b p (s : State) : exec (.visub m d a b p) s = execVisub m d a b p s := rfl
@[simp] theorem exec_vimul m d a b p (s : State) : exec (.vimul m d a b p) s = execVimul m d a b p s := rfl
@[simp] theorem exec_vand m d a b p (s : State) : exec (.vand m d a b p) s = execVand m d a b p s := rfl
@[simp] theorem exec_vor m d a b p (s : State) : exec (.vor m d a b p) s = execVor m d a b p s := rfl
@[simp] theorem exec_vxor m d a b p (s : State) : exec (.vxor m d a b p) s = execVxor m d a b p s := rfl
@[simp] theorem exec_vshl m d a b p (s : State) : exec (.vshl m d a b p) s = execVshl m d a b p s := rfl
@[simp] theorem exec_vshr m d a b p (s : State) : exec (.vshr m d a b p) s = execVshr m d a b p s := rfl
@[simp] theorem exec_vcmp m cond d a b p (s : State) : exec (.vcmp m cond d a b p) s = execVcmp m cond d a b p s := rfl
@[simp] theorem exec_vsel m d a b p (s : State) : exec (.vsel m d a b p) s = execVsel m d a b p s := rfl
@[simp] theorem exec_vcvt m d a b p part mode fmt (s : State) : exec (.vcvt m d a b p part mode fmt) s = execVcvt m d a b p part mode fmt s := rfl
@[simp] theorem exec_vqnt m d a b e part mode fmt (s : State) : exec (.vqnt m d a b e part mode fmt) s = execVqnt m d a b e part mode fmt s := rfl
@[simp] theorem exec_vdqnt m d a b e p part mode fmt (s : State) : exec (.vdqnt m d a b e p part mode fmt) s = execVdqnt m d a b e p part mode fmt s := rfl
@[simp] theorem exec_vexp2 m d a p (s : State) : exec (.vexp2 m d a p) s = execVexp2 m d a p s := rfl
@[simp] theorem exec_vlog2 m d a p (s : State) : exec (.vlog2 m d a p) s = execVlog2 m d a p s := rfl
@[simp] theorem exec_vrcp m d a p (s : State) : exec (.vrcp m d a p) s = execVrcp m d a p s := rfl
@[simp] theorem exec_vrsq m d a p (s : State) : exec (.vrsq m d a p) s = execVrsq m d a p s := rfl
@[simp] theorem exec_vtanh m d a p (s : State) : exec (.vtanh m d a p) s = execVtanh m d a p s := rfl
@[simp] theorem exec_vred m d a p op (s : State) : exec (.vred m d a p op) s = execVred m d a p op s := rfl
@[simp] theorem exec_vsmxStep m d a e p (s : State) : exec (.vsmxStep m d a e p) s = execVsmxStep m d a e p s := rfl
@[simp] theorem exec_vsmxMerge m d a e (s : State) : exec (.vsmxMerge m d a e) s = execVsmxMerge m d a e s := rfl
@[simp] theorem exec_vsmxFinal m d e (s : State) : exec (.vsmxFinal m d e) s = execVsmxFinal m d e s := rfl
@[simp] theorem exec_vsmxInit m e (s : State) : exec (.vsmxInit m e) s = execVsmxInit m e s := rfl
@[simp] theorem exec_vrand m d a p (s : State) : exec (.vrand m d a p) s = execVrand m d a p s := rfl
@[simp] theorem exec_vdrop m d a b e p scale (s : State) : exec (.vdrop m d a b e p scale) s = execVdrop m d a b e p scale s := rfl
@[simp] theorem exec_vperm m d a b p (s : State) : exec (.vperm m d a b p) s = execVperm m d a b p s := rfl
@[simp] theorem exec_vbcast m d a p fmt (s : State) : exec (.vbcast m d a p fmt) s = execVbcast m d a p fmt s := rfl
@[simp] theorem exec_vbcastLit m d p fmt lit (s : State) : exec (.vbcastLit m d p fmt lit) s = execVbcastLit m d p fmt lit s := rfl
@[simp] theorem exec_vmovx m d a n (s : State) : exec (.vmovx m d a n) s = execVmovx m d a n s := rfl
@[simp] theorem exec_vmovv m d a n (s : State) : exec (.vmovv m d a n) s = execVmovv m d a n s := rfl
@[simp] theorem exec_fmtget m d a acc (s : State) : exec (.fmtget m d a acc) s = execFmtget m d a acc s := rfl
@[simp] theorem exec_fmtset m d acc fmt (s : State) : exec (.fmtset m d acc fmt) s = execFmtset m d acc fmt s := rfl
@[simp] theorem exec_vloop m a cnt (s : State) : exec (.vloop m a cnt) s = execVloop m a cnt s := rfl
@[simp] theorem exec_vstrm m d a off (s : State) : exec (.vstrm m d a off) s = execVstrm m d a off s := rfl
@[simp] theorem exec_vstop m d a (s : State) : exec (.vstop m d a) s = execVstop m d a s := rfl
@[simp] theorem exec_vclz m w d a p (s : State) : exec (.vclz m w d a p) s = execVclz m w d a p s := rfl
@[simp] theorem exec_vffs m w d a p (s : State) : exec (.vffs m w d a p) s = execVffs m w d a p s := rfl
@[simp] theorem exec_vpopc m w d a p (s : State) : exec (.vpopc m w d a p) s = execVpopc m w d a p s := rfl
@[simp] theorem exec_mxmul m a b e c (s : State) : exec (.mxmul m a b e c) s = execMxmul m a b e c s := rfl
@[simp] theorem exec_mxspm m a b e c (s : State) : exec (.mxspm m a b e c) s = execMxspm m a b e c s := rfl
@[simp] theorem exec_mxdrn m a b c (s : State) : exec (.mxdrn m a b c) s = execMxdrn m a b c s := rfl
@[simp] theorem exec_mxclr m d i32 (s : State) : exec (.mxclr m d i32) s = execMxclr m d i32 s := rfl
@[simp] theorem exec_mxwait m d (s : State) : exec (.mxwait m d) s = execMxwait m d s := rfl
@[simp] theorem exec_mxstat m d (s : State) : exec (.mxstat m d) s = execMxstat m d s := rfl
@[simp] theorem exec_mxrem m d a b e c (s : State) : exec (.mxrem m d a b e c) s = execMxrem m d a b e c s := rfl
@[simp] theorem exec_cpy m a b e c (s : State) : exec (.cpy m a b e c) s = execCpy m a b e c s := rfl
@[simp] theorem exec_cpyg m a b e c (s : State) : exec (.cpyg m a b e c) s = execCpyg m a b e c s := rfl
@[simp] theorem exec_cpys m a b e c (s : State) : exec (.cpys m a b e c) s = execCpys m a b e c s := rfl
@[simp] theorem exec_cpyr m a b e c (s : State) : exec (.cpyr m a b e c) s = execCpyr m a b e c s := rfl
@[simp] theorem exec_cpywait m d (s : State) : exec (.cpywait m d) s = execCpywait m d s := rfl
@[simp] theorem exec_cpystat m d (s : State) : exec (.cpystat m d) s = execCpystat m d s := rfl
@[simp] theorem exec_bufdcl m a b n (s : State) : exec (.bufdcl m a b n) s = execBufdcl m a b n s := rfl
@[simp] theorem exec_bufset m n bs (s : State) : exec (.bufset m n bs) s = execBufset m n bs s := rfl
@[simp] theorem exec_bufqry m d n (s : State) : exec (.bufqry m d n) s = execBufqry m d n s := rfl
@[simp] theorem exec_send m d a b rlx tr rply rtag tag len (s : State) : exec (.send m d a b rlx tr rply rtag tag len) s = execSend m d a b rlx tr rply rtag tag len s := rfl
@[simp] theorem exec_sendReplay m d b c (s : State) : exec (.sendReplay m d b c) s = execSendReplay m d b c s := rfl
@[simp] theorem exec_sendr m d b rlx len (s : State) : exec (.sendr m d b rlx len) s = execSendr m d b rlx len s := rfl
@[simp] theorem exec_msgld m d a (s : State) : exec (.msgld m d a) s = execMsgld m d a s := rfl
@[simp] theorem exec_msgfree m (s : State) : exec (.msgfree m) s = execMsgfree m s := rfl
@[simp] theorem exec_tagen m d a (s : State) : exec (.tagen m d a) s = execTagen m d a s := rfl
@[simp] theorem exec_tagdis m d a (s : State) : exec (.tagdis m d a) s = execTagdis m d a s := rfl
@[simp] theorem exec_hold m d a (s : State) : exec (.hold m d a) s = execHold m d a s := rfl
@[simp] theorem exec_release m d a (s : State) : exec (.release m d a) s = execRelease m d a s := rfl
@[simp] theorem exec_setpri m d a b (s : State) : exec (.setpri m d a b) s = execSetpri m d a b s := rfl
@[simp] theorem exec_spawn m d a b (s : State) : exec (.spawn m d a b) s = execSpawn m d a b s := rfl
@[simp] theorem exec_fork m d a (s : State) : exec (.fork m d a) s = execFork m d a s := rfl
@[simp] theorem exec_join m d a b (s : State) : exec (.join m d a b) s = execJoin m d a b s := rfl
@[simp] theorem exec_qpush m d a b c (s : State) : exec (.qpush m d a b c) s = execQpush m d a b c s := rfl
@[simp] theorem exec_qpop m d a b c (s : State) : exec (.qpop m d a b c) s = execQpop m d a b c s := rfl
@[simp] theorem exec_qstat m d a (s : State) : exec (.qstat m d a) s = execQstat m d a s := rfl
@[simp] theorem exec_actdef m d a b c prod cons noout tag (s : State) : exec (.actdef m d a b c prod cons noout tag) s = execActdef m d a b c prod cons noout tag s := rfl
@[simp] theorem exec_cdef m d a b n (s : State) : exec (.cdef m d a b n) s = execCdef m d a b n s := rfl
@[simp] theorem exec_cbind m d a b n (s : State) : exec (.cbind m d a b n) s = execCbind m d a b n s := rfl
@[simp] theorem exec_cunb m d a n (s : State) : exec (.cunb m d a n) s = execCunb m d a n s := rfl
@[simp] theorem exec_cld m d a b e c n (s : State) : exec (.cld m d a b e c n) s = execCld m d a b e c n s := rfl
@[simp] theorem exec_cst m d a b c n (s : State) : exec (.cst m d a b c n) s = execCst m d a b c n s := rfl
@[simp] theorem exec_csnap m d a e (s : State) : exec (.csnap m d a e) s = execCsnap m d a e s := rfl
@[simp] theorem exec_cunsnap m a b (s : State) : exec (.cunsnap m a b) s = execCunsnap m a b s := rfl
@[simp] theorem exec_cgenStart m d a (s : State) : exec (.cgenStart m d a) s = execCgenStart m d a s := rfl
@[simp] theorem exec_cgenHold m d a b (s : State) : exec (.cgenHold m d a b) s = execCgenHold m d a b s := rfl
@[simp] theorem exec_cgenRelease m d a (s : State) : exec (.cgenRelease m d a) s = execCgenRelease m d a s := rfl
@[simp] theorem exec_cgenPinlim m d a b (s : State) : exec (.cgenPinlim m d a b) s = execCgenPinlim m d a b s := rfl
@[simp] theorem exec_cgenWaitgen m d a b c (s : State) : exec (.cgenWaitgen m d a b c) s = execCgenWaitgen m d a b c s := rfl
@[simp] theorem exec_cstat m d a n sel (s : State) : exec (.cstat m d a n sel) s = execCstat m d a n sel s := rfl
@[simp] theorem exec_cprec m d a (s : State) : exec (.cprec m d a) s = execCprec m d a s := rfl
@[simp] theorem exec_ccommit m d a (s : State) : exec (.ccommit m d a) s = execCcommit m d a s := rfl
@[simp] theorem exec_kappend m d a b c (s : State) : exec (.kappend m d a b c) s = execKappend m d a b c s := rfl
@[simp] theorem exec_klook m d a b e fwd (s : State) : exec (.klook m d a b e fwd) s = execKlook m d a b e fwd s := rfl
@[simp] theorem exec_kqry m d a b e c rtag nb (s : State) : exec (.kqry m d a b e c rtag nb) s = execKqry m d a b e c rtag nb s := rfl
@[simp] theorem exec_krehome m d a b c (s : State) : exec (.krehome m d a b c) s = execKrehome m d a b c s := rfl
@[simp] theorem exec_flpop m d a (s : State) : exec (.flpop m d a) s = execFlpop m d a s := rfl
@[simp] theorem exec_flpush m d a b (s : State) : exec (.flpush m d a b) s = execFlpush m d a b s := rfl
@[simp] theorem exec_lncfg m d a b (s : State) : exec (.lncfg m d a b) s = execLncfg m d a b s := rfl
@[simp] theorem exec_lnrank m d a b (s : State) : exec (.lnrank m d a b) s = execLnrank m d a b s := rfl
@[simp] theorem exec_lncommit m d a (s : State) : exec (.lncommit m d a) s = execLncommit m d a s := rfl
@[simp] theorem exec_lnstat m d a (s : State) : exec (.lnstat m d a) s = execLnstat m d a s := rfl
@[simp] theorem exec_flowOpen m d a b (s : State) : exec (.flowOpen m d a b) s = execFlowOpen m d a b s := rfl
@[simp] theorem exec_flowClose m d a (s : State) : exec (.flowClose m d a) s = execFlowClose m d a s := rfl
@[simp] theorem exec_flowQry m d a (s : State) : exec (.flowQry m d a) s = execFlowQry m d a s := rfl
@[simp] theorem exec_cgform m d a b c (s : State) : exec (.cgform m d a b c) s = execCgform m d a b c s := rfl
@[simp] theorem exec_cgsig m d a b (s : State) : exec (.cgsig m d a b) s = execCgsig m d a b s := rfl
@[simp] theorem exec_cgwait m d a b e c (s : State) : exec (.cgwait m d a b e c) s = execCgwait m d a b e c s := rfl
@[simp] theorem exec_cgstat m d a (s : State) : exec (.cgstat m d a) s = execCgstat m d a s := rfl
@[simp] theorem exec_tlbw m d a b e c (s : State) : exec (.tlbw m d a b e c) s = execTlbw m d a b e c s := rfl
@[simp] theorem exec_tlbinv m d a b c (s : State) : exec (.tlbinv m d a b c) s = execTlbinv m d a b c s := rfl
@[simp] theorem exec_tlbprb m d a e c (s : State) : exec (.tlbprb m d a e c) s = execTlbprb m d a e c s := rfl
@[simp] theorem exec_capset m d a (s : State) : exec (.capset m d a) s = execCapset m d a s := rfl
@[simp] theorem exec_ctxq m d a (s : State) : exec (.ctxq m d a) s = execCtxq m d a s := rfl
@[simp] theorem exec_slogq m d a (s : State) : exec (.slogq m d a) s = execSlogq m d a s := rfl
@[simp] theorem exec_undefinedEncoding w0 w1 chk (s : State) : exec (.undefinedEncoding w0 w1 chk) s = execUndefinedEncoding w0 w1 chk s := rfl
@[simp] theorem exec_varResultReturn k f (s : State) : exec (.varResultReturn k f) s = execVarResultReturn k f s := rfl
@[simp] theorem exec_selectorDecision k (s : State) : exec (.selectorDecision k) s = execSelectorDecision k s := rfl
@[simp] theorem exec_quantumExpiry k (s : State) : exec (.quantumExpiry k) s = execQuantumExpiry k s := rfl
@[simp] theorem exec_alignWaitExpiry k f (s : State) : exec (.alignWaitExpiry k f) s = execAlignWaitExpiry k f s := rfl
@[simp] theorem exec_requestArrival k n (s : State) : exec (.requestArrival k n) s = execRequestArrival k n s := rfl
@[simp] theorem exec_requestRetry k n (s : State) : exec (.requestRetry k n) s = execRequestRetry k n s := rfl
@[simp] theorem exec_replyArrival n (s : State) : exec (.replyArrival n) s = execReplyArrival n s := rfl
@[simp] theorem exec_autoReplySend k (s : State) : exec (.autoReplySend k) s = execAutoReplySend k s := rfl
@[simp] theorem exec_spawnArrival k f (s : State) : exec (.spawnArrival k f) s = execSpawnArrival k f s := rfl
@[simp] theorem exec_spawnAnswer k f (s : State) : exec (.spawnAnswer k f) s = execSpawnAnswer k f s := rfl
@[simp] theorem exec_mxremArrival k n (s : State) : exec (.mxremArrival k n) s = execMxremArrival k n s := rfl
@[simp] theorem exec_matrixCmdStart k (s : State) : exec (.matrixCmdStart k) s = execMatrixCmdStart k s := rfl
@[simp] theorem exec_matrixCmdComplete k (s : State) : exec (.matrixCmdComplete k) s = execMatrixCmdComplete k s := rfl
@[simp] theorem exec_copyCmdComplete k n (s : State) : exec (.copyCmdComplete k n) s = execCopyCmdComplete k n s := rfl
@[simp] theorem exec_mword k j v (s : State) : exec (.mword k j v) s = execMword k j v s := rfl
@[simp] theorem exec_mgo k v (s : State) : exec (.mgo k v) s = execMgo k v s := rfl
@[simp] theorem exec_cword k j v (s : State) : exec (.cword k j v) s = execCword k j v s := rfl
@[simp] theorem exec_cgo k v (s : State) : exec (.cgo k v) s = execCgo k v s := rfl
@[simp] theorem exec_heldGoAccept k cp (s : State) : exec (.heldGoAccept k cp) s = execHeldGoAccept k cp s := rfl
@[simp] theorem exec_walkRequest die n (s : State) : exec (.walkRequest die n) s = execWalkRequest die n s := rfl
@[simp] theorem exec_walkTimeout die n (s : State) : exec (.walkTimeout die n) s = execWalkTimeout die n s := rfl
@[simp] theorem exec_cellDispatch die i_ n (s : State) : exec (.cellDispatch die i_ n) s = execCellDispatch die i_ n s := rfl
@[simp] theorem exec_pinExpiry die i_ slot (s : State) : exec (.pinExpiry die i_ slot) s = execPinExpiry die i_ slot s := rfl
@[simp] theorem exec_poisonOpening die i_ n (s : State) : exec (.poisonOpening die i_ n) s = execPoisonOpening die i_ n s := rfl
@[simp] theorem exec_cellReadWake k f (s : State) : exec (.cellReadWake k f) s = execCellReadWake k f s := rfl
@[simp] theorem exec_waitRecheck k f (s : State) : exec (.waitRecheck k f) s = execWaitRecheck k f s := rfl
@[simp] theorem exec_waitLimitExpiry k f (s : State) : exec (.waitLimitExpiry k f) s = execWaitLimitExpiry k f s := rfl
@[simp] theorem exec_governorSample die (s : State) : exec (.governorSample die) s = execGovernorSample die s := rfl
@[simp] theorem exec_queueRefill q (s : State) : exec (.queueRefill q) s = execQueueRefill q s := rfl
@[simp] theorem exec_stageQueueDescWrite q off v (s : State) : exec (.stageQueueDescWrite q off v) s = execStageQueueDescWrite q off v s := rfl
@[simp] theorem exec_krehomeTarget k f (s : State) : exec (.krehomeTarget k f) s = execKrehomeTarget k f s := rfl
@[simp] theorem exec_krehomeAnswer k f (s : State) : exec (.krehomeAnswer k f) s = execKrehomeAnswer k f s := rfl
@[simp] theorem exec_rdupPropagate n die (s : State) : exec (.rdupPropagate n die) s = execRdupPropagate n die s := rfl
@[simp] theorem exec_rdupInvalidateAck n die (s : State) : exec (.rdupInvalidateAck n die) s = execRdupInvalidateAck n die s := rfl
@[simp] theorem exec_fabricStoreArrival src epoch num pa bytes (s : State) : exec (.fabricStoreArrival src epoch num pa bytes) s = execFabricStoreArrival src epoch num pa bytes s := rfl
@[simp] theorem exec_fabricReleaseApply src epoch num count marks pa bytes (s : State) : exec (.fabricReleaseApply src epoch num count marks pa bytes) s = execFabricReleaseApply src epoch num count marks pa bytes s := rfl
@[simp] theorem exec_flowPacketArrival src flow seq ordered grp pa bytes (s : State) : exec (.flowPacketArrival src flow seq ordered grp pa bytes) s = execFlowPacketArrival src flow seq ordered grp pa bytes s := rfl
@[simp] theorem exec_linkFlitReceive die port num crcOk (s : State) : exec (.linkFlitReceive die port num crcOk) s = execLinkFlitReceive die port num crcOk s := rfl
@[simp] theorem exec_linkAckReceive die port num report (s : State) : exec (.linkAckReceive die port num report) s = execLinkAckReceive die port num report s := rfl
@[simp] theorem exec_laneLockLoss die port (s : State) : exec (.laneLockLoss die port) s = execLaneLockLoss die port s := rfl
@[simp] theorem exec_portRetrainDone die port lanes (s : State) : exec (.portRetrainDone die port lanes) s = execPortRetrainDone die port lanes s := rfl
@[simp] theorem exec_retrain die mask (s : State) : exec (.retrain die mask) s = execRetrain die mask s := rfl
@[simp] theorem exec_remoteLimitExpiry n (s : State) : exec (.remoteLimitExpiry n) s = execRemoteLimitExpiry n s := rfl
@[simp] theorem exec_groupJoinArrival g core pkgNo ctx record prop (s : State) : exec (.groupJoinArrival g core pkgNo ctx record prop) s = execGroupJoinArrival g core pkgNo ctx record prop s := rfl
@[simp] theorem exec_groupCommitArrival g inc (s : State) : exec (.groupCommitArrival g inc) s = execGroupCommitArrival g inc s := rfl
@[simp] theorem exec_groupAbortMsg g inc reason (s : State) : exec (.groupAbortMsg g inc reason) s = execGroupAbortMsg g inc reason s := rfl
@[simp] theorem exec_cgwaitLimit k f (s : State) : exec (.cgwaitLimit k f) s = execCgwaitLimit k f s := rfl
@[simp] theorem exec_cgformLimit k f (s : State) : exec (.cgformLimit k f) s = execCgformLimit k f s := rfl
@[simp] theorem exec_cgansCommit g (s : State) : exec (.cgansCommit g) s = execCgansCommit g s := rfl
@[simp] theorem exec_cgansRefuse g (s : State) : exec (.cgansRefuse g) s = execCgansRefuse g s := rfl
@[simp] theorem exec_doorbell die q v (s : State) : exec (.doorbell die q v) s = execDoorbell die q v s := rfl
@[simp] theorem exec_queuePacketRead die q (s : State) : exec (.queuePacketRead die q) s = execQueuePacketRead die q s := rfl
@[simp] theorem exec_launchRelease n (s : State) : exec (.launchRelease n) s = execLaunchRelease n s := rfl
@[simp] theorem exec_contextResume k ctx (s : State) : exec (.contextResume k ctx) s = execContextResume k ctx s := rfl
@[simp] theorem exec_launchComplete n (s : State) : exec (.launchComplete n) s = execLaunchComplete n s := rfl
@[simp] theorem exec_launchLimitExpiry n (s : State) : exec (.launchLimitExpiry n) s = execLaunchLimitExpiry n s := rfl
@[simp] theorem exec_hostLinkAccess fn wr pa size v (s : State) : exec (.hostLinkAccess fn wr pa size v) s = execHostLinkAccess fn wr pa size v s := rfl
@[simp] theorem exec_ctxctlClear master slot (s : State) : exec (.ctxctlClear master slot) s = execCtxctlClear master slot s := rfl
@[simp] theorem exec_ctxctlRetire master slot (s : State) : exec (.ctxctlRetire master slot) s = execCtxctlRetire master slot s := rfl
@[simp] theorem exec_unfreeze master who (s : State) : exec (.unfreeze master who) s = execUnfreeze master who s := rfl
@[simp] theorem exec_wfgo die (s : State) : exec (.wfgo die) s = execWfgo die s := rfl
@[simp] theorem exec_walkImageLoadDone die (s : State) : exec (.walkImageLoadDone die) s = execWalkImageLoadDone die s := rfl
@[simp] theorem exec_twgo die (s : State) : exec (.twgo die) s = execTwgo die s := rfl
@[simp] theorem exec_userQueueDescWrite die q off v (s : State) : exec (.userQueueDescWrite die q off v) s = execUserQueueDescWrite die q off v s := rfl
@[simp] theorem exec_freeListRegWrite die off v (s : State) : exec (.freeListRegWrite die off v) s = execFreeListRegWrite die off v s := rfl
@[simp] theorem exec_schedout die core (s : State) : exec (.schedout die core) s = execSchedout die core s := rfl
@[simp] theorem exec_freefFrame die core f (s : State) : exec (.freefFrame die core f) s = execFreefFrame die core f s := rfl
@[simp] theorem exec_freefBivouac die core (s : State) : exec (.freefBivouac die core) s = execFreefBivouac die core s := rfl
@[simp] theorem exec_registerWrite master pa v (s : State) : exec (.registerWrite master pa v) s = execRegisterWrite master pa v s := rfl
@[simp] theorem exec_frontEndError die (s : State) : exec (.frontEndError die) s = execFrontEndError die s := rfl
@[simp] theorem exec_correctedError die unit addr (s : State) : exec (.correctedError die unit addr) s = execCorrectedError die unit addr s := rfl
@[simp] theorem exec_uncorrectableError die unit addr (s : State) : exec (.uncorrectableError die unit addr) s = execUncorrectableError die unit addr s := rfl
@[simp] theorem exec_patrolScrub die addr (s : State) : exec (.patrolScrub die addr) s = execPatrolScrub die addr s := rfl
@[simp] theorem exec_stbyPowerUp (s : State) : exec (.stbyPowerUp) s = execStbyPowerUp s := rfl
@[simp] theorem exec_stbyPowerDown (s : State) : exec (.stbyPowerDown) s = execStbyPowerDown s := rfl
@[simp] theorem exec_mainPowerUp digests svn ok (s : State) : exec (.mainPowerUp digests svn ok) s = execMainPowerUp digests svn ok s := rfl
@[simp] theorem exec_mainPowerDown (s : State) : exec (.mainPowerDown) s = execMainPowerDown s := rfl
@[simp] theorem exec_firmwareUpdate digests svn ok (s : State) : exec (.firmwareUpdate digests svn ok) s = execFirmwareUpdate digests svn ok s := rfl
@[simp] theorem exec_perstLink0 (s : State) : exec (.perstLink0) s = execPerstLink0 s := rfl
@[simp] theorem exec_perstLink1 (s : State) : exec (.perstLink1) s = execPerstLink1 s := rfl
@[simp] theorem exec_reset v (s : State) : exec (.reset v) s = execReset v s := rfl
@[simp] theorem exec_pwrlim v (s : State) : exec (.pwrlim v) s = execPwrlim v s := rfl
@[simp] theorem exec_trip v (s : State) : exec (.trip v) s = execTrip v s := rfl
@[simp] theorem exec_powerWindow avg (s : State) : exec (.powerWindow avg) s = execPowerWindow avg s := rfl
@[simp] theorem exec_thermalThrottle die temp (s : State) : exec (.thermalThrottle die temp) s = execThermalThrottle die temp s := rfl
@[simp] theorem exec_thermalTrip die temp (s : State) : exec (.thermalTrip die temp) s = execThermalTrip die temp s := rfl
@[simp] theorem exec_mgmtRead off (s : State) : exec (.mgmtRead off) s = execMgmtRead off s := rfl
@[simp] theorem exec_spdmMeasurement die (s : State) : exec (.spdmMeasurement die) s = execSpdmMeasurement die s := rfl
@[simp] theorem exec_programTrafficAck dst count sw (s : State) : exec (.programTrafficAck dst count sw) s = execProgramTrafficAck dst count sw s := rfl
@[simp] theorem exec_remoteAccessArrival src op pa size v tag (s : State) : exec (.remoteAccessArrival src op pa size v tag) s = execRemoteAccessArrival src op pa size v tag s := rfl
@[simp] theorem exec_errorTriageWord die (s : State) : exec (.errorTriageWord die) s = execErrorTriageWord die s := rfl
@[simp] theorem exec_thermalThrottleEnd die temp (s : State) : exec (.thermalThrottleEnd die temp) s = execThermalThrottleEnd die temp s := rfl

end Sys2Proof.Machine
end

