-- ==== Sys2Proof/Laws/Encoding.lean ====
section
/-! SUPPORT. Fields of the words an encoder lays out (R27, R39, R42): each accessor gives back the field it names. -/
namespace Sys2Proof

theorem ex_hi {v w lo len : Nat} (x : BitVec v) (y : BitVec w) (h : w ≤ lo) :
    (x ++ y).extractLsb' lo len = x.extractLsb' (lo - w) len := BitVec.extractLsb'_append_eq_of_le h
theorem ex_lo {v w : Nat} (x : BitVec v) (y : BitVec w) : (x ++ y).extractLsb' 0 w = y := by
  apply BitVec.eq_of_getLsbD_eq
  intro i hi
  simp [BitVec.getLsbD_append, hi]
/-- The switch marker stands above the two bits of LEN. -/
theorem s_at {v : Nat} (x : BitVec v) (m : Bool) (ln : BitVec 2) : (x ++ bit m ++ ln).getLsbD 2 = m := by
  rw [BitVec.getLsbD_append, BitVec.getLsbD_append]
  simp [bit]
theorem ex_all {w : Nat} (x : BitVec w) : x.extractLsb' 0 w = x := by simp
theorem bit_of {n i : Nat} {x : BitVec n} {b : Bool} (h : x.extractLsb' i 1 = bit b) : x.getLsbD i = b := by
  have h0 := congrArg (BitVec.getLsbD · 0) h
  simpa [bit] using h0
/-- The two words of a literal. -/
@[simp] theorem lit_join (v : BitVec 64) : litHi v ++ litLo v = v := by
  apply BitVec.eq_of_getLsbD_eq
  intro i hi
  rw [BitVec.getLsbD_append]
  by_cases h : i < 32
  · simp [litLo, h]
  · have h2 : i - 32 < 32 := by omega
    have h3 : 32 + (i - 32) = i := by omega
    simp [litHi, h, h2, h3]
/-- The twelve bits of ALIGN's count. -/
@[simp] theorem align_join (n : BitVec 12) : (n.extractLsb' 6 6 ++ n.extractLsb' 0 6 : BitVec 12) = n := by
  apply BitVec.eq_of_getLsbD_eq
  intro i hi
  rw [BitVec.getLsbD_append]
  by_cases h : i < 6
  · simp [h]
  · have h2 : i - 6 < 6 := by omega
    have h3 : 6 + (i - 6) = i := by omega
    simp [h, h2, h3]
theorem toNat_wide {v w : Nat} (x : BitVec v) (h : v ≤ w) : (x.setWidth w).toNat = x.toNat := by
  rw [BitVec.toNat_setWidth]
  exact Nat.mod_eq_of_lt (Nat.lt_of_lt_of_le x.isLt (Nat.pow_le_pow_right (by decide) h))

@[simp] theorem fLen_tWord (fn : BitVec 4) (b : BitVec 6) (a : BitVec 6) (d : BitVec 6) (mj : BitVec 7) (m : Bool) (ln : BitVec 2) : fLen (tWord fn b a d mj m ln) = ln :=
  ex_lo _ _
@[simp] theorem fMajor_tWord (fn : BitVec 4) (b : BitVec 6) (a : BitVec 6) (d : BitVec 6) (mj : BitVec 7) (m : Bool) (ln : BitVec 2) : fMajor (tWord fn b a d mj m ln) = mj :=
  (ex_hi (w := 2) _ _ (by decide)).trans ((ex_hi (w := 1) _ _ (by decide)).trans (ex_lo _ _))
@[simp] theorem fD_tWord (fn : BitVec 4) (b : BitVec 6) (a : BitVec 6) (d : BitVec 6) (mj : BitVec 7) (m : Bool) (ln : BitVec 2) : fD (tWord fn b a d mj m ln) = d :=
  (ex_hi (w := 2) _ _ (by decide)).trans ((ex_hi (w := 1) _ _ (by decide)).trans ((ex_hi (w := 7) _ _ (by decide)).trans (ex_lo _ _)))
@[simp] theorem fA_tWord (fn : BitVec 4) (b : BitVec 6) (a : BitVec 6) (d : BitVec 6) (mj : BitVec 7) (m : Bool) (ln : BitVec 2) : fA (tWord fn b a d mj m ln) = a :=
  (ex_hi (w := 2) _ _ (by decide)).trans ((ex_hi (w := 1) _ _ (by decide)).trans ((ex_hi (w := 7) _ _ (by decide)).trans ((ex_hi (w := 6) _ _ (by decide)).trans (ex_lo _ _))))
@[simp] theorem fB_tWord (fn : BitVec 4) (b : BitVec 6) (a : BitVec 6) (d : BitVec 6) (mj : BitVec 7) (m : Bool) (ln : BitVec 2) : fB (tWord fn b a d mj m ln) = b :=
  (ex_hi (w := 2) _ _ (by decide)).trans ((ex_hi (w := 1) _ _ (by decide)).trans ((ex_hi (w := 7) _ _ (by decide)).trans ((ex_hi (w := 6) _ _ (by decide)).trans ((ex_hi (w := 6) _ _ (by decide)).trans (ex_lo _ _)))))
@[simp] theorem fFn_tWord (fn : BitVec 4) (b : BitVec 6) (a : BitVec 6) (d : BitVec 6) (mj : BitVec 7) (m : Bool) (ln : BitVec 2) : fFn (tWord fn b a d mj m ln) = fn :=
  (ex_hi (w := 2) _ _ (by decide)).trans ((ex_hi (w := 1) _ _ (by decide)).trans ((ex_hi (w := 7) _ _ (by decide)).trans ((ex_hi (w := 6) _ _ (by decide)).trans ((ex_hi (w := 6) _ _ (by decide)).trans ((ex_hi (w := 6) _ _ (by decide)).trans (ex_all _))))))
@[simp] theorem fS_tWord (fn : BitVec 4) (b : BitVec 6) (a : BitVec 6) (d : BitVec 6) (mj : BitVec 7) (m : Bool) (ln : BitVec 2) : fS (tWord fn b a d mj m ln) = m := s_at _ m ln
@[simp] theorem fLen_iWord (imm : BitVec 10) (a : BitVec 6) (d : BitVec 6) (mj : BitVec 7) (m : Bool) (ln : BitVec 2) : fLen (iWord imm a d mj m ln) = ln :=
  ex_lo _ _
@[simp] theorem fMajor_iWord (imm : BitVec 10) (a : BitVec 6) (d : BitVec 6) (mj : BitVec 7) (m : Bool) (ln : BitVec 2) : fMajor (iWord imm a d mj m ln) = mj :=
  (ex_hi (w := 2) _ _ (by decide)).trans ((ex_hi (w := 1) _ _ (by decide)).trans (ex_lo _ _))
@[simp] theorem fD_iWord (imm : BitVec 10) (a : BitVec 6) (d : BitVec 6) (mj : BitVec 7) (m : Bool) (ln : BitVec 2) : fD (iWord imm a d mj m ln) = d :=
  (ex_hi (w := 2) _ _ (by decide)).trans ((ex_hi (w := 1) _ _ (by decide)).trans ((ex_hi (w := 7) _ _ (by decide)).trans (ex_lo _ _)))
@[simp] theorem fA_iWord (imm : BitVec 10) (a : BitVec 6) (d : BitVec 6) (mj : BitVec 7) (m : Bool) (ln : BitVec 2) : fA (iWord imm a d mj m ln) = a :=
  (ex_hi (w := 2) _ _ (by decide)).trans ((ex_hi (w := 1) _ _ (by decide)).trans ((ex_hi (w := 7) _ _ (by decide)).trans ((ex_hi (w := 6) _ _ (by decide)).trans (ex_lo _ _))))
@[simp] theorem fImm10_iWord (imm : BitVec 10) (a : BitVec 6) (d : BitVec 6) (mj : BitVec 7) (m : Bool) (ln : BitVec 2) : fImm10 (iWord imm a d mj m ln) = imm :=
  (ex_hi (w := 2) _ _ (by decide)).trans ((ex_hi (w := 1) _ _ (by decide)).trans ((ex_hi (w := 7) _ _ (by decide)).trans ((ex_hi (w := 6) _ _ (by decide)).trans ((ex_hi (w := 6) _ _ (by decide)).trans (ex_all _)))))
@[simp] theorem fS_iWord (imm : BitVec 10) (a : BitVec 6) (d : BitVec 6) (mj : BitVec 7) (m : Bool) (ln : BitVec 2) : fS (iWord imm a d mj m ln) = m := s_at _ m ln
@[simp] theorem fLen_mWord (off : BitVec 6) (ord : BitVec 2) (size : BitVec 2) (a : BitVec 6) (t : BitVec 6) (mj : BitVec 7) (m : Bool) (ln : BitVec 2) : fLen (mWord off ord size a t mj m ln) = ln :=
  ex_lo _ _
@[simp] theorem fMajor_mWord (off : BitVec 6) (ord : BitVec 2) (size : BitVec 2) (a : BitVec 6) (t : BitVec 6) (mj : BitVec 7) (m : Bool) (ln : BitVec 2) : fMajor (mWord off ord size a t mj m ln) = mj :=
  (ex_hi (w := 2) _ _ (by decide)).trans ((ex_hi (w := 1) _ _ (by decide)).trans (ex_lo _ _))
@[simp] theorem fD_mWord (off : BitVec 6) (ord : BitVec 2) (size : BitVec 2) (a : BitVec 6) (t : BitVec 6) (mj : BitVec 7) (m : Bool) (ln : BitVec 2) : fD (mWord off ord size a t mj m ln) = t :=
  (ex_hi (w := 2) _ _ (by decide)).trans ((ex_hi (w := 1) _ _ (by decide)).trans ((ex_hi (w := 7) _ _ (by decide)).trans (ex_lo _ _)))
@[simp] theorem fA_mWord (off : BitVec 6) (ord : BitVec 2) (size : BitVec 2) (a : BitVec 6) (t : BitVec 6) (mj : BitVec 7) (m : Bool) (ln : BitVec 2) : fA (mWord off ord size a t mj m ln) = a :=
  (ex_hi (w := 2) _ _ (by decide)).trans ((ex_hi (w := 1) _ _ (by decide)).trans ((ex_hi (w := 7) _ _ (by decide)).trans ((ex_hi (w := 6) _ _ (by decide)).trans (ex_lo _ _))))
@[simp] theorem fSize_mWord (off : BitVec 6) (ord : BitVec 2) (size : BitVec 2) (a : BitVec 6) (t : BitVec 6) (mj : BitVec 7) (m : Bool) (ln : BitVec 2) : fSize (mWord off ord size a t mj m ln) = size :=
  (ex_hi (w := 2) _ _ (by decide)).trans ((ex_hi (w := 1) _ _ (by decide)).trans ((ex_hi (w := 7) _ _ (by decide)).trans ((ex_hi (w := 6) _ _ (by decide)).trans ((ex_hi (w := 6) _ _ (by decide)).trans (ex_lo _ _)))))
@[simp] theorem fOrd_mWord (off : BitVec 6) (ord : BitVec 2) (size : BitVec 2) (a : BitVec 6) (t : BitVec 6) (mj : BitVec 7) (m : Bool) (ln : BitVec 2) : fOrd (mWord off ord size a t mj m ln) = ord :=
  (ex_hi (w := 2) _ _ (by decide)).trans ((ex_hi (w := 1) _ _ (by decide)).trans ((ex_hi (w := 7) _ _ (by decide)).trans ((ex_hi (w := 6) _ _ (by decide)).trans ((ex_hi (w := 6) _ _ (by decide)).trans ((ex_hi (w := 2) _ _ (by decide)).trans (ex_lo _ _))))))
@[simp] theorem fOff6_mWord (off : BitVec 6) (ord : BitVec 2) (size : BitVec 2) (a : BitVec 6) (t : BitVec 6) (mj : BitVec 7) (m : Bool) (ln : BitVec 2) : fOff6 (mWord off ord size a t mj m ln) = off :=
  (ex_hi (w := 2) _ _ (by decide)).trans ((ex_hi (w := 1) _ _ (by decide)).trans ((ex_hi (w := 7) _ _ (by decide)).trans ((ex_hi (w := 6) _ _ (by decide)).trans ((ex_hi (w := 6) _ _ (by decide)).trans ((ex_hi (w := 2) _ _ (by decide)).trans ((ex_hi (w := 2) _ _ (by decide)).trans (ex_all _)))))))
@[simp] theorem fS_mWord (off : BitVec 6) (ord : BitVec 2) (size : BitVec 2) (a : BitVec 6) (t : BitVec 6) (mj : BitVec 7) (m : Bool) (ln : BitVec 2) : fS (mWord off ord size a t mj m ln) = m := s_at _ m ln
@[simp] theorem fLen_jWord (off : BitVec 13) (a : BitVec 6) (cond : BitVec 3) (mj : BitVec 7) (m : Bool) (ln : BitVec 2) : fLen (jWord off a cond mj m ln) = ln :=
  ex_lo _ _
@[simp] theorem fMajor_jWord (off : BitVec 13) (a : BitVec 6) (cond : BitVec 3) (mj : BitVec 7) (m : Bool) (ln : BitVec 2) : fMajor (jWord off a cond mj m ln) = mj :=
  (ex_hi (w := 2) _ _ (by decide)).trans ((ex_hi (w := 1) _ _ (by decide)).trans (ex_lo _ _))
@[simp] theorem fCond_jWord (off : BitVec 13) (a : BitVec 6) (cond : BitVec 3) (mj : BitVec 7) (m : Bool) (ln : BitVec 2) : fCond (jWord off a cond mj m ln) = cond :=
  (ex_hi (w := 2) _ _ (by decide)).trans ((ex_hi (w := 1) _ _ (by decide)).trans ((ex_hi (w := 7) _ _ (by decide)).trans (ex_lo _ _)))
@[simp] theorem fJA_jWord (off : BitVec 13) (a : BitVec 6) (cond : BitVec 3) (mj : BitVec 7) (m : Bool) (ln : BitVec 2) : fJA (jWord off a cond mj m ln) = a :=
  (ex_hi (w := 2) _ _ (by decide)).trans ((ex_hi (w := 1) _ _ (by decide)).trans ((ex_hi (w := 7) _ _ (by decide)).trans ((ex_hi (w := 3) _ _ (by decide)).trans (ex_lo _ _))))
@[simp] theorem fOff13_jWord (off : BitVec 13) (a : BitVec 6) (cond : BitVec 3) (mj : BitVec 7) (m : Bool) (ln : BitVec 2) : fOff13 (jWord off a cond mj m ln) = off :=
  (ex_hi (w := 2) _ _ (by decide)).trans ((ex_hi (w := 1) _ _ (by decide)).trans ((ex_hi (w := 7) _ _ (by decide)).trans ((ex_hi (w := 3) _ _ (by decide)).trans ((ex_hi (w := 6) _ _ (by decide)).trans (ex_all _)))))
@[simp] theorem fS_jWord (off : BitVec 13) (a : BitVec 6) (cond : BitVec 3) (mj : BitVec 7) (m : Bool) (ln : BitVec 2) : fS (jWord off a cond mj m ln) = m := s_at _ m ln
@[simp] theorem fLen_vWord (fn : BitVec 4) (p : BitVec 3) (b : BitVec 5) (a : BitVec 5) (d : BitVec 5) (mj : BitVec 7) (m : Bool) (ln : BitVec 2) : fLen (vWord fn p b a d mj m ln) = ln :=
  ex_lo _ _
@[simp] theorem fMajor_vWord (fn : BitVec 4) (p : BitVec 3) (b : BitVec 5) (a : BitVec 5) (d : BitVec 5) (mj : BitVec 7) (m : Bool) (ln : BitVec 2) : fMajor (vWord fn p b a d mj m ln) = mj :=
  (ex_hi (w := 2) _ _ (by decide)).trans ((ex_hi (w := 1) _ _ (by decide)).trans (ex_lo _ _))
@[simp] theorem fVD_vWord (fn : BitVec 4) (p : BitVec 3) (b : BitVec 5) (a : BitVec 5) (d : BitVec 5) (mj : BitVec 7) (m : Bool) (ln : BitVec 2) : fVD (vWord fn p b a d mj m ln) = d :=
  (ex_hi (w := 2) _ _ (by decide)).trans ((ex_hi (w := 1) _ _ (by decide)).trans ((ex_hi (w := 7) _ _ (by decide)).trans (ex_lo _ _)))
@[simp] theorem fVA_vWord (fn : BitVec 4) (p : BitVec 3) (b : BitVec 5) (a : BitVec 5) (d : BitVec 5) (mj : BitVec 7) (m : Bool) (ln : BitVec 2) : fVA (vWord fn p b a d mj m ln) = a :=
  (ex_hi (w := 2) _ _ (by decide)).trans ((ex_hi (w := 1) _ _ (by decide)).trans ((ex_hi (w := 7) _ _ (by decide)).trans ((ex_hi (w := 5) _ _ (by decide)).trans (ex_lo _ _))))
@[simp] theorem fVB_vWord (fn : BitVec 4) (p : BitVec 3) (b : BitVec 5) (a : BitVec 5) (d : BitVec 5) (mj : BitVec 7) (m : Bool) (ln : BitVec 2) : fVB (vWord fn p b a d mj m ln) = b :=
  (ex_hi (w := 2) _ _ (by decide)).trans ((ex_hi (w := 1) _ _ (by decide)).trans ((ex_hi (w := 7) _ _ (by decide)).trans ((ex_hi (w := 5) _ _ (by decide)).trans ((ex_hi (w := 5) _ _ (by decide)).trans (ex_lo _ _)))))
@[simp] theorem fVP_vWord (fn : BitVec 4) (p : BitVec 3) (b : BitVec 5) (a : BitVec 5) (d : BitVec 5) (mj : BitVec 7) (m : Bool) (ln : BitVec 2) : fVP (vWord fn p b a d mj m ln) = p :=
  (ex_hi (w := 2) _ _ (by decide)).trans ((ex_hi (w := 1) _ _ (by decide)).trans ((ex_hi (w := 7) _ _ (by decide)).trans ((ex_hi (w := 5) _ _ (by decide)).trans ((ex_hi (w := 5) _ _ (by decide)).trans ((ex_hi (w := 5) _ _ (by decide)).trans (ex_lo _ _))))))
@[simp] theorem fFn_vWord (fn : BitVec 4) (p : BitVec 3) (b : BitVec 5) (a : BitVec 5) (d : BitVec 5) (mj : BitVec 7) (m : Bool) (ln : BitVec 2) : fFn (vWord fn p b a d mj m ln) = fn :=
  (ex_hi (w := 2) _ _ (by decide)).trans ((ex_hi (w := 1) _ _ (by decide)).trans ((ex_hi (w := 7) _ _ (by decide)).trans ((ex_hi (w := 5) _ _ (by decide)).trans ((ex_hi (w := 5) _ _ (by decide)).trans ((ex_hi (w := 5) _ _ (by decide)).trans ((ex_hi (w := 3) _ _ (by decide)).trans (ex_all _)))))))
@[simp] theorem fS_vWord (fn : BitVec 4) (p : BitVec 3) (b : BitVec 5) (a : BitVec 5) (d : BitVec 5) (mj : BitVec 7) (m : Bool) (ln : BitVec 2) : fS (vWord fn p b a d mj m ln) = m := s_at _ m ln
@[simp] theorem fLen_lWord (off : BitVec 22) (mj : BitVec 7) (m : Bool) (ln : BitVec 2) : fLen (lWord off mj m ln) = ln :=
  ex_lo _ _
@[simp] theorem fMajor_lWord (off : BitVec 22) (mj : BitVec 7) (m : Bool) (ln : BitVec 2) : fMajor (lWord off mj m ln) = mj :=
  (ex_hi (w := 2) _ _ (by decide)).trans ((ex_hi (w := 1) _ _ (by decide)).trans (ex_lo _ _))
@[simp] theorem fOff22_lWord (off : BitVec 22) (mj : BitVec 7) (m : Bool) (ln : BitVec 2) : fOff22 (lWord off mj m ln) = off :=
  (ex_hi (w := 2) _ _ (by decide)).trans ((ex_hi (w := 1) _ _ (by decide)).trans ((ex_hi (w := 7) _ _ (by decide)).trans (ex_all _)))
@[simp] theorem fS_lWord (off : BitVec 22) (mj : BitVec 7) (m : Bool) (ln : BitVec 2) : fS (lWord off mj m ln) = m := s_at _ m ln
@[simp] theorem fC_wWord (imm : BitVec 16) (fn2 : BitVec 4) (e : BitVec 6) (c : BitVec 6) : fC (wWord imm fn2 e c) = c :=
  ex_lo _ _
@[simp] theorem fE_wWord (imm : BitVec 16) (fn2 : BitVec 4) (e : BitVec 6) (c : BitVec 6) : fE (wWord imm fn2 e c) = e :=
  (ex_hi (w := 6) _ _ (by decide)).trans (ex_lo _ _)
@[simp] theorem fFn2_wWord (imm : BitVec 16) (fn2 : BitVec 4) (e : BitVec 6) (c : BitVec 6) : fFn2 (wWord imm fn2 e c) = fn2 :=
  (ex_hi (w := 6) _ _ (by decide)).trans ((ex_hi (w := 6) _ _ (by decide)).trans (ex_lo _ _))
@[simp] theorem fImm16_wWord (imm : BitVec 16) (fn2 : BitVec 4) (e : BitVec 6) (c : BitVec 6) : fImm16 (wWord imm fn2 e c) = imm :=
  (ex_hi (w := 6) _ _ (by decide)).trans ((ex_hi (w := 6) _ _ (by decide)).trans ((ex_hi (w := 4) _ _ (by decide)).trans (ex_all _)))
@[simp] theorem comp0_part1 (q0 : BitVec 2) (q1 : BitVec 2) : BitVec.extractLsb' 0 2 (q0 ++ q1 : BitVec 4) = q1 :=
  ex_lo _ _
@[simp] theorem comp0_part0 (q0 : BitVec 2) (q1 : BitVec 2) : BitVec.extractLsb' 2 2 (q0 ++ q1 : BitVec 4) = q0 :=
  (ex_hi (w := 2) _ _ (by decide)).trans (ex_all _)
@[simp] theorem comp1_part1 (q0 : BitVec 4) (q1 : BitVec 6) : BitVec.extractLsb' 0 6 (q0 ++ q1 : BitVec 10) = q1 :=
  ex_lo _ _
@[simp] theorem comp1_part0 (q0 : BitVec 4) (q1 : BitVec 6) : BitVec.extractLsb' 6 4 (q0 ++ q1 : BitVec 10) = q0 :=
  (ex_hi (w := 6) _ _ (by decide)).trans (ex_all _)
@[simp] theorem comp2_part3 (q0 : Bool) (q1 : BitVec 7) (q2 : BitVec 2) (q3 : BitVec 6) : BitVec.extractLsb' 0 6 (bit q0 ++ q1 ++ q2 ++ q3 : BitVec 16) = q3 :=
  ex_lo _ _
@[simp] theorem comp2_part2 (q0 : Bool) (q1 : BitVec 7) (q2 : BitVec 2) (q3 : BitVec 6) : BitVec.extractLsb' 6 2 (bit q0 ++ q1 ++ q2 ++ q3 : BitVec 16) = q2 :=
  (ex_hi (w := 6) _ _ (by decide)).trans (ex_lo _ _)
@[simp] theorem comp2_part1 (q0 : Bool) (q1 : BitVec 7) (q2 : BitVec 2) (q3 : BitVec 6) : BitVec.extractLsb' 8 7 (bit q0 ++ q1 ++ q2 ++ q3 : BitVec 16) = q1 :=
  (ex_hi (w := 6) _ _ (by decide)).trans ((ex_hi (w := 2) _ _ (by decide)).trans (ex_lo _ _))
@[simp] theorem comp2_part0 (q0 : Bool) (q1 : BitVec 7) (q2 : BitVec 2) (q3 : BitVec 6) : BitVec.extractLsb' 15 1 (bit q0 ++ q1 ++ q2 ++ q3 : BitVec 16) = bit q0 :=
  (ex_hi (w := 6) _ _ (by decide)).trans ((ex_hi (w := 2) _ _ (by decide)).trans ((ex_hi (w := 7) _ _ (by decide)).trans (ex_all _)))
@[simp] theorem comp2_bit0 (q0 : Bool) (q1 : BitVec 7) (q2 : BitVec 2) (q3 : BitVec 6) : BitVec.getLsbD (bit q0 ++ q1 ++ q2 ++ q3 : BitVec 16) 15 = q0 := by
  have h := comp2_part0 q0 q1 q2 q3
  exact bit_of h
@[simp] theorem comp3_part3 (q0 : BitVec 1) (q1 : BitVec 7) (q2 : BitVec 2) (q3 : BitVec 6) : BitVec.extractLsb' 0 6 (q0 ++ q1 ++ q2 ++ q3 : BitVec 16) = q3 :=
  ex_lo _ _
@[simp] theorem comp3_part2 (q0 : BitVec 1) (q1 : BitVec 7) (q2 : BitVec 2) (q3 : BitVec 6) : BitVec.extractLsb' 6 2 (q0 ++ q1 ++ q2 ++ q3 : BitVec 16) = q2 :=
  (ex_hi (w := 6) _ _ (by decide)).trans (ex_lo _ _)
@[simp] theorem comp3_part1 (q0 : BitVec 1) (q1 : BitVec 7) (q2 : BitVec 2) (q3 : BitVec 6) : BitVec.extractLsb' 8 7 (q0 ++ q1 ++ q2 ++ q3 : BitVec 16) = q1 :=
  (ex_hi (w := 6) _ _ (by decide)).trans ((ex_hi (w := 2) _ _ (by decide)).trans (ex_lo _ _))
@[simp] theorem comp3_part0 (q0 : BitVec 1) (q1 : BitVec 7) (q2 : BitVec 2) (q3 : BitVec 6) : BitVec.extractLsb' 15 1 (q0 ++ q1 ++ q2 ++ q3 : BitVec 16) = q0 :=
  (ex_hi (w := 6) _ _ (by decide)).trans ((ex_hi (w := 2) _ _ (by decide)).trans ((ex_hi (w := 7) _ _ (by decide)).trans (ex_all _)))
@[simp] theorem comp4_part1 (q0 : BitVec 4) (q1 : BitVec 12) : BitVec.extractLsb' 0 12 (q0 ++ q1 : BitVec 16) = q1 :=
  ex_lo _ _
@[simp] theorem comp4_part0 (q0 : BitVec 4) (q1 : BitVec 12) : BitVec.extractLsb' 12 4 (q0 ++ q1 : BitVec 16) = q0 :=
  (ex_hi (w := 12) _ _ (by decide)).trans (ex_all _)
@[simp] theorem comp5_part3 (q0 : BitVec 10) (q1 : BitVec 2) (q2 : BitVec 1) (q3 : BitVec 3) : BitVec.extractLsb' 0 3 (q0 ++ q1 ++ q2 ++ q3 : BitVec 16) = q3 :=
  ex_lo _ _
@[simp] theorem comp5_part2 (q0 : BitVec 10) (q1 : BitVec 2) (q2 : BitVec 1) (q3 : BitVec 3) : BitVec.extractLsb' 3 1 (q0 ++ q1 ++ q2 ++ q3 : BitVec 16) = q2 :=
  (ex_hi (w := 3) _ _ (by decide)).trans (ex_lo _ _)
@[simp] theorem comp5_part1 (q0 : BitVec 10) (q1 : BitVec 2) (q2 : BitVec 1) (q3 : BitVec 3) : BitVec.extractLsb' 4 2 (q0 ++ q1 ++ q2 ++ q3 : BitVec 16) = q1 :=
  (ex_hi (w := 3) _ _ (by decide)).trans ((ex_hi (w := 1) _ _ (by decide)).trans (ex_lo _ _))
@[simp] theorem comp5_part0 (q0 : BitVec 10) (q1 : BitVec 2) (q2 : BitVec 1) (q3 : BitVec 3) : BitVec.extractLsb' 6 10 (q0 ++ q1 ++ q2 ++ q3 : BitVec 16) = q0 :=
  (ex_hi (w := 3) _ _ (by decide)).trans ((ex_hi (w := 1) _ _ (by decide)).trans ((ex_hi (w := 2) _ _ (by decide)).trans (ex_all _)))
@[simp] theorem comp6_part4 (q0 : BitVec 8) (q1 : BitVec 2) (q2 : BitVec 2) (q3 : BitVec 1) (q4 : BitVec 3) : BitVec.extractLsb' 0 3 (q0 ++ q1 ++ q2 ++ q3 ++ q4 : BitVec 16) = q4 :=
  ex_lo _ _
@[simp] theorem comp6_part3 (q0 : BitVec 8) (q1 : BitVec 2) (q2 : BitVec 2) (q3 : BitVec 1) (q4 : BitVec 3) : BitVec.extractLsb' 3 1 (q0 ++ q1 ++ q2 ++ q3 ++ q4 : BitVec 16) = q3 :=
  (ex_hi (w := 3) _ _ (by decide)).trans (ex_lo _ _)
@[simp] theorem comp6_part2 (q0 : BitVec 8) (q1 : BitVec 2) (q2 : BitVec 2) (q3 : BitVec 1) (q4 : BitVec 3) : BitVec.extractLsb' 4 2 (q0 ++ q1 ++ q2 ++ q3 ++ q4 : BitVec 16) = q2 :=
  (ex_hi (w := 3) _ _ (by decide)).trans ((ex_hi (w := 1) _ _ (by decide)).trans (ex_lo _ _))
@[simp] theorem comp6_part1 (q0 : BitVec 8) (q1 : BitVec 2) (q2 : BitVec 2) (q3 : BitVec 1) (q4 : BitVec 3) : BitVec.extractLsb' 6 2 (q0 ++ q1 ++ q2 ++ q3 ++ q4 : BitVec 16) = q1 :=
  (ex_hi (w := 3) _ _ (by decide)).trans ((ex_hi (w := 1) _ _ (by decide)).trans ((ex_hi (w := 2) _ _ (by decide)).trans (ex_lo _ _)))
@[simp] theorem comp6_part0 (q0 : BitVec 8) (q1 : BitVec 2) (q2 : BitVec 2) (q3 : BitVec 1) (q4 : BitVec 3) : BitVec.extractLsb' 8 8 (q0 ++ q1 ++ q2 ++ q3 ++ q4 : BitVec 16) = q0 :=
  (ex_hi (w := 3) _ _ (by decide)).trans ((ex_hi (w := 1) _ _ (by decide)).trans ((ex_hi (w := 2) _ _ (by decide)).trans ((ex_hi (w := 2) _ _ (by decide)).trans (ex_all _))))
@[simp] theorem comp7_part2 (q0 : BitVec 10) (q1 : BitVec 3) (q2 : BitVec 3) : BitVec.extractLsb' 0 3 (q0 ++ q1 ++ q2 : BitVec 16) = q2 :=
  ex_lo _ _
@[simp] theorem comp7_part1 (q0 : BitVec 10) (q1 : BitVec 3) (q2 : BitVec 3) : BitVec.extractLsb' 3 3 (q0 ++ q1 ++ q2 : BitVec 16) = q1 :=
  (ex_hi (w := 3) _ _ (by decide)).trans (ex_lo _ _)
@[simp] theorem comp7_part0 (q0 : BitVec 10) (q1 : BitVec 3) (q2 : BitVec 3) : BitVec.extractLsb' 6 10 (q0 ++ q1 ++ q2 : BitVec 16) = q0 :=
  (ex_hi (w := 3) _ _ (by decide)).trans ((ex_hi (w := 3) _ _ (by decide)).trans (ex_all _))
@[simp] theorem comp8_part1 (q0 : BitVec 9) (q1 : BitVec 7) : BitVec.extractLsb' 0 7 (q0 ++ q1 : BitVec 16) = q1 :=
  ex_lo _ _
@[simp] theorem comp8_part0 (q0 : BitVec 9) (q1 : BitVec 7) : BitVec.extractLsb' 7 9 (q0 ++ q1 : BitVec 16) = q0 :=
  (ex_hi (w := 7) _ _ (by decide)).trans (ex_all _)
@[simp] theorem comp9_part1 (q0 : BitVec 15) (q1 : Bool) : BitVec.extractLsb' 0 1 (q0 ++ bit q1 : BitVec 16) = bit q1 :=
  ex_lo _ _
@[simp] theorem comp9_bit1 (q0 : BitVec 15) (q1 : Bool) : BitVec.getLsbD (q0 ++ bit q1 : BitVec 16) 0 = q1 := by
  have h := comp9_part1 q0 q1
  exact bit_of h
@[simp] theorem comp9_part0 (q0 : BitVec 15) (q1 : Bool) : BitVec.extractLsb' 1 15 (q0 ++ bit q1 : BitVec 16) = q0 :=
  (ex_hi (w := 1) _ _ (by decide)).trans (ex_all _)
@[simp] theorem comp10_part1 (q0 : BitVec 12) (q1 : BitVec 4) : BitVec.extractLsb' 0 4 (q0 ++ q1 : BitVec 16) = q1 :=
  ex_lo _ _
@[simp] theorem comp10_part0 (q0 : BitVec 12) (q1 : BitVec 4) : BitVec.extractLsb' 4 12 (q0 ++ q1 : BitVec 16) = q0 :=
  (ex_hi (w := 4) _ _ (by decide)).trans (ex_all _)
@[simp] theorem comp11_part1 (q0 : BitVec 11) (q1 : BitVec 5) : BitVec.extractLsb' 0 5 (q0 ++ q1 : BitVec 16) = q1 :=
  ex_lo _ _
@[simp] theorem comp11_part0 (q0 : BitVec 11) (q1 : BitVec 5) : BitVec.extractLsb' 5 11 (q0 ++ q1 : BitVec 16) = q0 :=
  (ex_hi (w := 5) _ _ (by decide)).trans (ex_all _)
@[simp] theorem comp12_part5 (q0 : BitVec 1) (q1 : Bool) (q2 : Bool) (q3 : Bool) (q4 : BitVec 6) (q5 : BitVec 6) : BitVec.extractLsb' 0 6 (q0 ++ bit q1 ++ bit q2 ++ bit q3 ++ q4 ++ q5 : BitVec 16) = q5 :=
  ex_lo _ _
@[simp] theorem comp12_part4 (q0 : BitVec 1) (q1 : Bool) (q2 : Bool) (q3 : Bool) (q4 : BitVec 6) (q5 : BitVec 6) : BitVec.extractLsb' 6 6 (q0 ++ bit q1 ++ bit q2 ++ bit q3 ++ q4 ++ q5 : BitVec 16) = q4 :=
  (ex_hi (w := 6) _ _ (by decide)).trans (ex_lo _ _)
@[simp] theorem comp12_part3 (q0 : BitVec 1) (q1 : Bool) (q2 : Bool) (q3 : Bool) (q4 : BitVec 6) (q5 : BitVec 6) : BitVec.extractLsb' 12 1 (q0 ++ bit q1 ++ bit q2 ++ bit q3 ++ q4 ++ q5 : BitVec 16) = bit q3 :=
  (ex_hi (w := 6) _ _ (by decide)).trans ((ex_hi (w := 6) _ _ (by decide)).trans (ex_lo _ _))
@[simp] theorem comp12_bit3 (q0 : BitVec 1) (q1 : Bool) (q2 : Bool) (q3 : Bool) (q4 : BitVec 6) (q5 : BitVec 6) : BitVec.getLsbD (q0 ++ bit q1 ++ bit q2 ++ bit q3 ++ q4 ++ q5 : BitVec 16) 12 = q3 := by
  have h := comp12_part3 q0 q1 q2 q3 q4 q5
  exact bit_of h
@[simp] theorem comp12_part2 (q0 : BitVec 1) (q1 : Bool) (q2 : Bool) (q3 : Bool) (q4 : BitVec 6) (q5 : BitVec 6) : BitVec.extractLsb' 13 1 (q0 ++ bit q1 ++ bit q2 ++ bit q3 ++ q4 ++ q5 : BitVec 16) = bit q2 :=
  (ex_hi (w := 6) _ _ (by decide)).trans ((ex_hi (w := 6) _ _ (by decide)).trans ((ex_hi (w := 1) _ _ (by decide)).trans (ex_lo _ _)))
@[simp] theorem comp12_bit2 (q0 : BitVec 1) (q1 : Bool) (q2 : Bool) (q3 : Bool) (q4 : BitVec 6) (q5 : BitVec 6) : BitVec.getLsbD (q0 ++ bit q1 ++ bit q2 ++ bit q3 ++ q4 ++ q5 : BitVec 16) 13 = q2 := by
  have h := comp12_part2 q0 q1 q2 q3 q4 q5
  exact bit_of h
@[simp] theorem comp12_part1 (q0 : BitVec 1) (q1 : Bool) (q2 : Bool) (q3 : Bool) (q4 : BitVec 6) (q5 : BitVec 6) : BitVec.extractLsb' 14 1 (q0 ++ bit q1 ++ bit q2 ++ bit q3 ++ q4 ++ q5 : BitVec 16) = bit q1 :=
  (ex_hi (w := 6) _ _ (by decide)).trans ((ex_hi (w := 6) _ _ (by decide)).trans ((ex_hi (w := 1) _ _ (by decide)).trans ((ex_hi (w := 1) _ _ (by decide)).trans (ex_lo _ _))))
@[simp] theorem comp12_bit1 (q0 : BitVec 1) (q1 : Bool) (q2 : Bool) (q3 : Bool) (q4 : BitVec 6) (q5 : BitVec 6) : BitVec.getLsbD (q0 ++ bit q1 ++ bit q2 ++ bit q3 ++ q4 ++ q5 : BitVec 16) 14 = q1 := by
  have h := comp12_part1 q0 q1 q2 q3 q4 q5
  exact bit_of h
@[simp] theorem comp12_part0 (q0 : BitVec 1) (q1 : Bool) (q2 : Bool) (q3 : Bool) (q4 : BitVec 6) (q5 : BitVec 6) : BitVec.extractLsb' 15 1 (q0 ++ bit q1 ++ bit q2 ++ bit q3 ++ q4 ++ q5 : BitVec 16) = q0 :=
  (ex_hi (w := 6) _ _ (by decide)).trans ((ex_hi (w := 6) _ _ (by decide)).trans ((ex_hi (w := 1) _ _ (by decide)).trans ((ex_hi (w := 1) _ _ (by decide)).trans ((ex_hi (w := 1) _ _ (by decide)).trans (ex_all _)))))
@[simp] theorem comp13_part2 (q0 : BitVec 1) (q1 : Bool) (q2 : BitVec 14) : BitVec.extractLsb' 0 14 (q0 ++ bit q1 ++ q2 : BitVec 16) = q2 :=
  ex_lo _ _
@[simp] theorem comp13_part1 (q0 : BitVec 1) (q1 : Bool) (q2 : BitVec 14) : BitVec.extractLsb' 14 1 (q0 ++ bit q1 ++ q2 : BitVec 16) = bit q1 :=
  (ex_hi (w := 14) _ _ (by decide)).trans (ex_lo _ _)
@[simp] theorem comp13_bit1 (q0 : BitVec 1) (q1 : Bool) (q2 : BitVec 14) : BitVec.getLsbD (q0 ++ bit q1 ++ q2 : BitVec 16) 14 = q1 := by
  have h := comp13_part1 q0 q1 q2
  exact bit_of h
@[simp] theorem comp13_part0 (q0 : BitVec 1) (q1 : Bool) (q2 : BitVec 14) : BitVec.extractLsb' 15 1 (q0 ++ bit q1 ++ q2 : BitVec 16) = q0 :=
  (ex_hi (w := 14) _ _ (by decide)).trans ((ex_hi (w := 1) _ _ (by decide)).trans (ex_all _))
@[simp] theorem comp14_part4 (q0 : BitVec 4) (q1 : BitVec 4) (q2 : Bool) (q3 : BitVec 1) (q4 : BitVec 6) : BitVec.extractLsb' 0 6 (q0 ++ q1 ++ bit q2 ++ q3 ++ q4 : BitVec 16) = q4 :=
  ex_lo _ _
@[simp] theorem comp14_part3 (q0 : BitVec 4) (q1 : BitVec 4) (q2 : Bool) (q3 : BitVec 1) (q4 : BitVec 6) : BitVec.extractLsb' 6 1 (q0 ++ q1 ++ bit q2 ++ q3 ++ q4 : BitVec 16) = q3 :=
  (ex_hi (w := 6) _ _ (by decide)).trans (ex_lo _ _)
@[simp] theorem comp14_part2 (q0 : BitVec 4) (q1 : BitVec 4) (q2 : Bool) (q3 : BitVec 1) (q4 : BitVec 6) : BitVec.extractLsb' 7 1 (q0 ++ q1 ++ bit q2 ++ q3 ++ q4 : BitVec 16) = bit q2 :=
  (ex_hi (w := 6) _ _ (by decide)).trans ((ex_hi (w := 1) _ _ (by decide)).trans (ex_lo _ _))
@[simp] theorem comp14_bit2 (q0 : BitVec 4) (q1 : BitVec 4) (q2 : Bool) (q3 : BitVec 1) (q4 : BitVec 6) : BitVec.getLsbD (q0 ++ q1 ++ bit q2 ++ q3 ++ q4 : BitVec 16) 7 = q2 := by
  have h := comp14_part2 q0 q1 q2 q3 q4
  exact bit_of h
@[simp] theorem comp14_part1 (q0 : BitVec 4) (q1 : BitVec 4) (q2 : Bool) (q3 : BitVec 1) (q4 : BitVec 6) : BitVec.extractLsb' 8 4 (q0 ++ q1 ++ bit q2 ++ q3 ++ q4 : BitVec 16) = q1 :=
  (ex_hi (w := 6) _ _ (by decide)).trans ((ex_hi (w := 1) _ _ (by decide)).trans ((ex_hi (w := 1) _ _ (by decide)).trans (ex_lo _ _)))
@[simp] theorem comp14_part0 (q0 : BitVec 4) (q1 : BitVec 4) (q2 : Bool) (q3 : BitVec 1) (q4 : BitVec 6) : BitVec.extractLsb' 12 4 (q0 ++ q1 ++ bit q2 ++ q3 ++ q4 : BitVec 16) = q0 :=
  (ex_hi (w := 6) _ _ (by decide)).trans ((ex_hi (w := 1) _ _ (by decide)).trans ((ex_hi (w := 1) _ _ (by decide)).trans ((ex_hi (w := 4) _ _ (by decide)).trans (ex_all _))))
@[simp] theorem comp15_part2 (q0 : BitVec 6) (q1 : BitVec 6) (q2 : BitVec 4) : BitVec.extractLsb' 0 4 (q0 ++ q1 ++ q2 : BitVec 16) = q2 :=
  ex_lo _ _
@[simp] theorem comp15_part1 (q0 : BitVec 6) (q1 : BitVec 6) (q2 : BitVec 4) : BitVec.extractLsb' 4 6 (q0 ++ q1 ++ q2 : BitVec 16) = q1 :=
  (ex_hi (w := 4) _ _ (by decide)).trans (ex_lo _ _)
@[simp] theorem comp15_part0 (q0 : BitVec 6) (q1 : BitVec 6) (q2 : BitVec 4) : BitVec.extractLsb' 10 6 (q0 ++ q1 ++ q2 : BitVec 16) = q0 :=
  (ex_hi (w := 4) _ _ (by decide)).trans ((ex_hi (w := 6) _ _ (by decide)).trans (ex_all _))
@[simp] theorem comp16_part3 (q0 : BitVec 4) (q1 : BitVec 4) (q2 : BitVec 2) (q3 : BitVec 6) : BitVec.extractLsb' 0 6 (q0 ++ q1 ++ q2 ++ q3 : BitVec 16) = q3 :=
  ex_lo _ _
@[simp] theorem comp16_part2 (q0 : BitVec 4) (q1 : BitVec 4) (q2 : BitVec 2) (q3 : BitVec 6) : BitVec.extractLsb' 6 2 (q0 ++ q1 ++ q2 ++ q3 : BitVec 16) = q2 :=
  (ex_hi (w := 6) _ _ (by decide)).trans (ex_lo _ _)
@[simp] theorem comp16_part1 (q0 : BitVec 4) (q1 : BitVec 4) (q2 : BitVec 2) (q3 : BitVec 6) : BitVec.extractLsb' 8 4 (q0 ++ q1 ++ q2 ++ q3 : BitVec 16) = q1 :=
  (ex_hi (w := 6) _ _ (by decide)).trans ((ex_hi (w := 2) _ _ (by decide)).trans (ex_lo _ _))
@[simp] theorem comp16_part0 (q0 : BitVec 4) (q1 : BitVec 4) (q2 : BitVec 2) (q3 : BitVec 6) : BitVec.extractLsb' 12 4 (q0 ++ q1 ++ q2 ++ q3 : BitVec 16) = q0 :=
  (ex_hi (w := 6) _ _ (by decide)).trans ((ex_hi (w := 2) _ _ (by decide)).trans ((ex_hi (w := 4) _ _ (by decide)).trans (ex_all _)))
@[simp] theorem imm_hi (c : BitVec 4) (a : BitVec 6) : BitVec.extractLsb' 8 2 (c ++ a : BitVec 10) = c.extractLsb' 2 2 :=
  ex_hi (w := 6) _ _ (by decide)
@[simp] theorem imm_mid (c : BitVec 4) (a : BitVec 6) : BitVec.extractLsb' 6 2 (c ++ a : BitVec 10) = c.extractLsb' 0 2 :=
  ex_hi (w := 6) _ _ (by decide)
@[simp] theorem amo_hi (c : BitVec 10) (a : BitVec 2) (z : BitVec 1) (b : BitVec 3) :
    BitVec.extractLsb' 8 8 (c ++ a ++ z ++ b : BitVec 16) = c.extractLsb' 2 8 :=
  (ex_hi (w := 3) _ _ (by decide)).trans ((ex_hi (w := 1) _ _ (by decide)).trans (ex_hi (w := 2) _ _ (by decide)))
@[simp] theorem amo_mid (c : BitVec 10) (a : BitVec 2) (z : BitVec 1) (b : BitVec 3) :
    BitVec.extractLsb' 6 2 (c ++ a ++ z ++ b : BitVec 16) = c.extractLsb' 0 2 :=
  (ex_hi (w := 3) _ _ (by decide)).trans ((ex_hi (w := 1) _ _ (by decide)).trans (ex_hi (w := 2) _ _ (by decide)))
theorem lt2 (x : BitVec 2) : x.toNat < 4 := x.isLt
theorem lt3 (x : BitVec 3) : x.toNat < 8 := x.isLt
theorem lt4 (x : BitVec 4) : x.toNat < 16 := x.isLt
theorem lt5 (x : BitVec 5) : x.toNat < 32 := x.isLt

end Sys2Proof
end

