-- ==== Sys2Proof/Laws/Memory.lean ====
section
/-! SUPPORT. Memory: what a read gives after a write, and that every write keeps the canonical form. -/
namespace Sys2Proof.Machine

/-! ### One cell -/

theorem memWfFrom_le {lo lo' : Nat} {m : List Host.Cell} (h : lo' ≤ lo) (hm : memWfFrom lo m = true) : memWfFrom lo' m = true := by
  cases m with
  | nil => rfl
  | cons c r =>
    simp only [memWfFrom, Bool.and_eq_true, decide_eq_true_eq] at hm ⊢
    exact ⟨⟨Nat.le_trans h hm.1.1, hm.1.2⟩, hm.2⟩

theorem memWfFrom_filter (p : Host.Cell → Bool) {lo : Nat} {m : List Host.Cell} (hm : memWfFrom lo m = true) : memWfFrom lo (m.filter p) = true := by
  induction m generalizing lo with
  | nil => rfl
  | cons c r ih =>
    simp only [memWfFrom, Bool.and_eq_true, decide_eq_true_eq] at hm
    rw [List.filter_cons]
    split
    · simp only [memWfFrom, Bool.and_eq_true, decide_eq_true_eq]
      exact ⟨hm.1, ih hm.2⟩
    · exact memWfFrom_le (by omega) (ih hm.2)
/-- Memory that forgets some of its cells keeps the canonical form. -/
theorem wf_filter (p : Host.Cell → Bool) {m : List Host.Cell} (hm : Memory.wf m = true) : Memory.wf (m.filter p) = true := memWfFrom_filter p hm

theorem rdCell_low {lo b : Nat} {m : List Host.Cell} (hm : memWfFrom lo m = true) (h : b < lo) : rdCell m b = 0#8 := by
  induction m generalizing lo with
  | nil => rfl
  | cons c r ih =>
    simp only [memWfFrom, Bool.and_eq_true, decide_eq_true_eq] at hm
    have h1 : c.1 ≠ b := by omega
    simp only [rdCell, h1, if_false]
    exact ih hm.2 (by omega)

theorem rdCell_wrCell_self {lo : Nat} (m : List Host.Cell) (b : Nat) (v : BitVec 8) (hm : memWfFrom lo m = true) :
    rdCell (wrCell m b v) b = v := by
  induction m generalizing lo with
  | nil => simp only [wrCell]; split <;> simp_all [rdCell]
  | cons c r ih =>
    simp only [memWfFrom, Bool.and_eq_true, decide_eq_true_eq] at hm
    simp only [wrCell]
    split
    · next e => split
                · next hv => subst hv; exact rdCell_low hm.2 (by omega)
                · simp [rdCell]
    · split
      · next h1 h2 => split
                      · next hv => subst hv
                                   simp only [rdCell, h1, if_false]
                                   exact rdCell_low hm.2 (by omega)
                      · simp [rdCell]
      · next h1 h2 => simp only [rdCell, h1, if_false]
                      exact ih hm.2

theorem rdCell_wrCell_ne (m : List Host.Cell) {a b : Nat} (v : BitVec 8) (h : a ≠ b) : rdCell (wrCell m b v) a = rdCell m a := by
  have h' : ¬b = a := fun e => h e.symm
  induction m with
  | nil => simp only [wrCell]; split <;> simp [rdCell, h']
  | cons c r ih =>
    simp only [wrCell]
    split
    · next e => split <;> simp [rdCell, e, h']
    · split
      · split <;> simp [rdCell, h']
      · simp [rdCell, ih]

theorem memWfFrom_wrCell {lo : Nat} (m : List Host.Cell) (b : Nat) (v : BitVec 8) (hm : memWfFrom lo m = true) (h : lo ≤ b) :
    memWfFrom lo (wrCell m b v) = true := by
  induction m generalizing lo with
  | nil => simp only [wrCell]; split <;> simp_all [memWfFrom]
  | cons c r ih =>
    simp only [memWfFrom, Bool.and_eq_true, decide_eq_true_eq] at hm
    simp only [wrCell]
    split
    · next e => split
                · exact memWfFrom_le (by omega) hm.2
                · next hv =>
                  simp only [memWfFrom, Bool.and_eq_true, decide_eq_true_eq]
                  exact ⟨⟨h, hv⟩, e ▸ hm.2⟩
    · split
      · next h1 h2 =>
        split
        · simp only [memWfFrom, Bool.and_eq_true, decide_eq_true_eq]
          exact hm
        · next hv =>
          simp only [memWfFrom, Bool.and_eq_true, decide_eq_true_eq]
          exact ⟨⟨h, hv⟩, ⟨by omega, hm.1.2⟩, hm.2⟩
      · next h1 h2 =>
        simp only [memWfFrom, Bool.and_eq_true, decide_eq_true_eq]
        exact ⟨hm.1, ih hm.2 (by omega)⟩

/-! ### Runs of bytes -/

theorem wf_wrCells (m : List Host.Cell) (a : Nat) (l : List (BitVec 8)) (hm : Memory.wf m = true) :
    Memory.wf (wrCells m a l) = true := by
  induction l generalizing m a with
  | nil => exact hm
  | cons b r ih => exact ih _ _ (memWfFrom_wrCell m a b hm (Nat.zero_le a))

theorem rdCell_wrCells_out (m : List Host.Cell) (a : Nat) (l : List (BitVec 8)) {b : Nat} (h : b < a ∨ a + l.length ≤ b) :
    rdCell (wrCells m a l) b = rdCell m b := by
  induction l generalizing m a with
  | nil => rfl
  | cons v r ih =>
    simp only [List.length_cons] at h
    rw [wrCells, ih _ _ (by omega), rdCell_wrCell_ne m v (by omega)]

theorem rdCell_wrCells_in (m : List Host.Cell) (a : Nat) (l : List (BitVec 8)) (hm : Memory.wf m = true) {n : Nat} (h : n < l.length) :
    rdCell (wrCells m a l) (a + n) = l[n] := by
  induction l generalizing m a n with
  | nil => simp at h
  | cons v r ih =>
    have hw := memWfFrom_wrCell m a v hm (Nat.zero_le a)
    cases n with
    | zero =>
      rw [wrCells, Nat.add_zero, rdCell_wrCells_out _ _ _ (by omega)]
      exact rdCell_wrCell_self m a v hm
    | succ n =>
      rw [wrCells, show a + (n + 1) = (a + 1) + n by omega]
      exact ih _ _ hw (by simpa using h)

/-! ### The state's memory -/

/-- Every store keeps the canonical form. -/
theorem wf_store (s : State) (a : Nat) (l : List (BitVec 8)) (h : Memory.wf s.mem = true) : Memory.wf (s.store a l).mem = true :=
  wf_wrCells s.mem a l h
theorem rd_store_out (s : State) (a : Nat) (l : List (BitVec 8)) {b : Nat} (h : b < a ∨ a + l.length ≤ b) :
    (s.store a l).rd b = s.rd b := rdCell_wrCells_out s.mem a l h
theorem rd_store_in (s : State) (a : Nat) (l : List (BitVec 8)) (hm : Memory.wf s.mem = true) {n : Nat} (h : n < l.length) :
    (s.store a l).rd (a + n) = l[n] := rdCell_wrCells_in s.mem a l hm h

theorem length_bytesOf (n v : Nat) : (bytesOf n v).length = n := by
  induction n generalizing v with
  | zero => rfl
  | succ n ih => simp [bytesOf, ih]
/-- The little-endian bytes of a number give back the number below the width. -/
theorem ofBytes_bytesOf (n v : Nat) : ofBytes (bytesOf n v) = v % 256 ^ n := by
  induction n generalizing v with
  | zero => simp [bytesOf, ofBytes, Nat.mod_one]
  | succ n ih =>
    simp only [bytesOf, ofBytes, ih, BitVec.toNat_ofNat]
    rw [show (2 : Nat) ^ 8 = 256 from rfl, Nat.pow_succ, Nat.mul_comm (256 ^ n) 256, Nat.mod_mul]
theorem rdBytes_store (s : State) (a : Nat) (l : List (BitVec 8)) (hm : Memory.wf s.mem = true) :
    (s.store a l).rdBytes a l.length = l := by
  have key : ∀ (k n : Nat), k + n = l.length → (s.store a l).rdBytes (a + k) n = l.drop k := by
    intro k n
    induction n generalizing k with
    | zero => intro h; simp [State.rdBytes, List.drop_eq_nil_of_le (show l.length ≤ k by omega)]
    | succ n ih =>
      intro h
      have hk : k < l.length := by omega
      rw [State.rdBytes, rd_store_in s a l hm hk, show a + k + 1 = a + (k + 1) by omega, ih (k + 1) (by omega)]
      exact (List.drop_eq_getElem_cons hk).symm
  simpa using key 0 l.length (by omega)
/-- A read of the bytes just stored gives the value stored (R2). -/
theorem rdN_wrN (s : State) (a n v : Nat) (hm : Memory.wf s.mem = true) : (s.wrN a n v).rdN a n = v % 256 ^ n := by
  have h := rdBytes_store s a (bytesOf n v) hm
  rw [length_bytesOf] at h
  simp only [State.wrN, State.rdN, h, ofBytes_bytesOf]
theorem rdBytes_congr (s t : State) (a n : Nat) (h : ∀ b, a ≤ b → b < a + n → t.rd b = s.rd b) : t.rdBytes a n = s.rdBytes a n := by
  induction n generalizing a with
  | zero => rfl
  | succ n ih => simp only [State.rdBytes, h a (Nat.le_refl a) (by omega), ih (a + 1) (fun b h1 h2 => h b (by omega) (by omega))]

end Sys2Proof.Machine
end

