-- ==== Sys2Proof/Laws/KeepsCore.lean ====
section
/-! SUPPORT. Every operation keeps memory in its canonical form, and most leave memory as it is: the predicates and their rules, and the
lemmas of the operations of Base to Fetch. `x_mem` says that `x` leaves memory as it is, `x_wf` that it keeps what is said of memory. -/
namespace Sys2Proof.Machine

/-! ### What is said of the memory of a state, and of the states an answer holds -/

structure State.Has (P : List Host.Cell → Prop) (s : State) : Prop where
  of : P s.mem
def Canon (m : List Host.Cell) : Prop := Memory.wf m = true
theorem Has.eq {s t : State} (h : ∀ P, s.Has P → t.Has P) : t.mem = s.mem := (h (fun m => m = s.mem) ⟨rfl⟩).of
theorem Has.upd {P : List Host.Cell → Prop} {s t : State} (h : s.Has P) (e : t.mem = s.mem) : t.Has P := ⟨e ▸ h.of⟩
theorem Has.foldl {α : Type} {P : List Host.Cell → Prop} {g : State → α → State} (l : List α) {s : State} (h : s.Has P)
    (hg : ∀ t a, t.Has P → (g t a).Has P) : (l.foldl g s).Has P := by
  induction l generalizing s with
  | nil => exact h
  | cons a l ih => exact ih (hg _ _ h)
theorem Has.fst {α : Type} {P : List Host.Cell → Prop} {p : State × α} {t : State} {x : α} (e : p = (t, x)) (h : p.1.Has P) : t.Has P := by
  subst e; exact h
inductive OptHas (P : List Host.Cell → Prop) : Option State → Prop
  | has_some {s : State} (h : s.Has P) : OptHas P (some s)
  | has_none : OptHas P none
theorem OptHas.some_has {P : List Host.Cell → Prop} {o : Option State} {t : State} (e : o = .some t) (h : OptHas P o) : t.Has P := by
  subst e; cases h; assumption
inductive OutHas (P : List Host.Cell → Prop) : Out → Prop
  | has_next {s : State} (h : s.Has P) : OutHas P (.next s)
  | has_fault {f : Fault} : OutHas P (.fault f)
  | has_refused {f : Refusal} : OutHas P (.refused f)
theorem OutHas.next_has {P : List Host.Cell → Prop} {o : Out} {t : State} (e : o = .next t) (h : OutHas P o) : t.Has P := by
  subst e; cases h; assumption
inductive Res.Has (P : List Host.Cell → Prop) : Res → Prop
  | has_ok {t : State} (h : t.Has P) : Res.Has P (.ok t)
  | has_to {t : State} {x0 : Word} (h : t.Has P) : Res.Has P (.to t x0)
  | has_trap {t : State} {x0 : Trap} (h : t.Has P) : Res.Has P (.trap t x0)
  | has_hold {t : State} {x0 : Hold} (h : t.Has P) : Res.Has P (.hold t x0)
  | has_gone {t : State} (h : t.Has P) : Res.Has P (.gone t)
theorem Res.ok_has {P : List Host.Cell → Prop} {g : Res} {t : State} (e : g = .ok t) (h : g.Has P) : t.Has P := by
  subst e; cases h; assumption
theorem Res.to_has {P : List Host.Cell → Prop} {g : Res} {t : State} {x0 : Word} (e : g = .to t x0) (h : g.Has P) : t.Has P := by
  subst e; cases h; assumption
theorem Res.trap_has {P : List Host.Cell → Prop} {g : Res} {t : State} {x0 : Trap} (e : g = .trap t x0) (h : g.Has P) : t.Has P := by
  subst e; cases h; assumption
theorem Res.hold_has {P : List Host.Cell → Prop} {g : Res} {t : State} {x0 : Hold} (e : g = .hold t x0) (h : g.Has P) : t.Has P := by
  subst e; cases h; assumption
theorem Res.gone_has {P : List Host.Cell → Prop} {g : Res} {t : State} (e : g = .gone t) (h : g.Has P) : t.Has P := by
  subst e; cases h; assumption
inductive Got.Has {α : Type} (P : List Host.Cell → Prop) : Got α → Prop
  | has_got {t : State} {a : α} (h : t.Has P) : Got.Has P (.got t a)
  | has_stop {r : Res} (h : r.Has P) : Got.Has P (.stop r)
theorem Got.got_has {α : Type} {P : List Host.Cell → Prop} {g : Got α} {t : State} {a : α} (e : g = .got t a) (h : g.Has P) : t.Has P := by
  subst e; cases h; assumption
theorem Got.stop_has {α : Type} {P : List Host.Cell → Prop} {g : Got α} {r : Res} (e : g = .stop r) (h : g.Has P) : r.Has P := by
  subst e; cases h; assumption
theorem Got.Has.ite {α : Type} {P : List Host.Cell → Prop} {c : Prop} [Decidable c] {x y : Got α} (hx : x.Has P) (hy : y.Has P) :
    (if c then x else y).Has P := by
  split <;> assumption
theorem Res.Has.ite {P : List Host.Cell → Prop} {c : Prop} [Decidable c] {x y : Res} (hx : x.Has P) (hy : y.Has P) :
    (if c then x else y).Has P := by
  split <;> assumption
theorem Has.iteS {P : List Host.Cell → Prop} {c : Prop} [Decidable c] {x y : State} (hx : x.Has P) (hy : y.Has P) :
    (if c then x else y).Has P := by
  split <;> assumption
theorem Got.res_has {α : Type} {P : List Host.Cell → Prop} {g : Got α} {f : State → α → Res} (h : g.Has P)
    (hf : ∀ t a, t.Has P → (f t a).Has P) : (g.res f).Has P := by
  cases h with
  | has_got h => exact hf _ _ h
  | has_stop h => exact h
theorem Got.bind_has {α β : Type} {P : List Host.Cell → Prop} {g : Got α} {f : State → α → Got β} (h : g.Has P)
    (hf : ∀ t a, t.Has P → (f t a).Has P) : (g.bind f).Has P := by
  cases h with
  | has_got h => exact hf _ _ h
  | has_stop h => exact .has_stop h
inductive FlR.Has (P : List Host.Cell → Prop) : FlR → Prop
  | has_got {t : State} {x0 : Nat} (h : t.Has P) : FlR.Has P (.got t x0)
  | has_code {t : State} {x0 : Nat} {x1 : Nat} (h : t.Has P) : FlR.Has P (.code t x0 x1)
  | has_wait {t : State} (h : t.Has P) : FlR.Has P (.wait t)
theorem FlR.got_has {P : List Host.Cell → Prop} {g : FlR} {t : State} {x0 : Nat} (e : g = .got t x0) (h : g.Has P) : t.Has P := by
  subst e; cases h; assumption
theorem FlR.code_has {P : List Host.Cell → Prop} {g : FlR} {t : State} {x0 : Nat} {x1 : Nat} (e : g = .code t x0 x1) (h : g.Has P) : t.Has P := by
  subst e; cases h; assumption
theorem FlR.wait_has {P : List Host.Cell → Prop} {g : FlR} {t : State} (e : g = .wait t) (h : g.Has P) : t.Has P := by
  subst e; cases h; assumption
inductive FlW.Has (P : List Host.Cell → Prop) : FlW → Prop
  | has_done {t : State} (h : t.Has P) : FlW.Has P (.done t)
  | has_code {t : State} {x0 : Nat} {x1 : Nat} (h : t.Has P) : FlW.Has P (.code t x0 x1)
  | has_wait {t : State} (h : t.Has P) : FlW.Has P (.wait t)
theorem FlW.done_has {P : List Host.Cell → Prop} {g : FlW} {t : State} (e : g = .done t) (h : g.Has P) : t.Has P := by
  subst e; cases h; assumption
theorem FlW.code_has {P : List Host.Cell → Prop} {g : FlW} {t : State} {x0 : Nat} {x1 : Nat} (e : g = .code t x0 x1) (h : g.Has P) : t.Has P := by
  subst e; cases h; assumption
theorem FlW.wait_has {P : List Host.Cell → Prop} {g : FlW} {t : State} (e : g = .wait t) (h : g.Has P) : t.Has P := by
  subst e; cases h; assumption
inductive ImgRd.Has (P : List Host.Cell → Prop) : ImgRd → Prop
  | has_got {t : State} {x0 : List (BitVec 8)} (h : t.Has P) : ImgRd.Has P (.got t x0)
  | has_wait {t : State} (h : t.Has P) : ImgRd.Has P (.wait t)
  | has_fault {t : State} (h : t.Has P) : ImgRd.Has P (.fault t)
theorem ImgRd.got_has {P : List Host.Cell → Prop} {g : ImgRd} {t : State} {x0 : List (BitVec 8)} (e : g = .got t x0) (h : g.Has P) : t.Has P := by
  subst e; cases h; assumption
theorem ImgRd.wait_has {P : List Host.Cell → Prop} {g : ImgRd} {t : State} (e : g = .wait t) (h : g.Has P) : t.Has P := by
  subst e; cases h; assumption
theorem ImgRd.fault_has {P : List Host.Cell → Prop} {g : ImgRd} {t : State} (e : g = .fault t) (h : g.Has P) : t.Has P := by
  subst e; cases h; assumption
inductive UAcc.Has (P : List Host.Cell → Prop) : UAcc → Prop
  | has_go {t : State} {x0 : Nat} {x1 : Word} (h : t.Has P) : UAcc.Has P (.go t x0 x1)
  | has_wait {t : State} (h : t.Has P) : UAcc.Has P (.wait t)
  | has_fail {t : State} {x0 : Nat} (h : t.Has P) : UAcc.Has P (.fail t x0)
theorem UAcc.go_has {P : List Host.Cell → Prop} {g : UAcc} {t : State} {x0 : Nat} {x1 : Word} (e : g = .go t x0 x1) (h : g.Has P) : t.Has P := by
  subst e; cases h; assumption
theorem UAcc.wait_has {P : List Host.Cell → Prop} {g : UAcc} {t : State} (e : g = .wait t) (h : g.Has P) : t.Has P := by
  subst e; cases h; assumption
theorem UAcc.fail_has {P : List Host.Cell → Prop} {g : UAcc} {t : State} {x0 : Nat} (e : g = .fail t x0) (h : g.Has P) : t.Has P := by
  subst e; cases h; assumption
inductive MoveR.Has (P : List Host.Cell → Prop) : MoveR → Prop
  | has_placed {t : State} {x0 : Nat} {x1 : Nat} (h : t.Has P) : MoveR.Has P (.placed t x0 x1)
  | has_code {t : State} {x0 : Nat} (h : t.Has P) : MoveR.Has P (.code t x0)
  | has_wait {t : State} (h : t.Has P) : MoveR.Has P (.wait t)
theorem MoveR.placed_has {P : List Host.Cell → Prop} {g : MoveR} {t : State} {x0 : Nat} {x1 : Nat} (e : g = .placed t x0 x1) (h : g.Has P) : t.Has P := by
  subst e; cases h; assumption
theorem MoveR.code_has {P : List Host.Cell → Prop} {g : MoveR} {t : State} {x0 : Nat} (e : g = .code t x0) (h : g.Has P) : t.Has P := by
  subst e; cases h; assumption
theorem MoveR.wait_has {P : List Host.Cell → Prop} {g : MoveR} {t : State} (e : g = .wait t) (h : g.Has P) : t.Has P := by
  subst e; cases h; assumption
inductive WRead.Has (P : List Host.Cell → Prop) : WRead → Prop
  | has_val {t : State} {x0 : Nat} (h : t.Has P) : WRead.Has P (.val t x0)
  | has_trap {t : State} {x0 : Trap} (h : t.Has P) : WRead.Has P (.trap t x0)
  | has_later {t : State} (h : t.Has P) : WRead.Has P (.later t)
theorem WRead.val_has {P : List Host.Cell → Prop} {g : WRead} {t : State} {x0 : Nat} (e : g = .val t x0) (h : g.Has P) : t.Has P := by
  subst e; cases h; assumption
theorem WRead.trap_has {P : List Host.Cell → Prop} {g : WRead} {t : State} {x0 : Trap} (e : g = .trap t x0) (h : g.Has P) : t.Has P := by
  subst e; cases h; assumption
theorem WRead.later_has {P : List Host.Cell → Prop} {g : WRead} {t : State} (e : g = .later t) (h : g.Has P) : t.Has P := by
  subst e; cases h; assumption
inductive CpyAt.Has (P : List Host.Cell → Prop) : CpyAt → Prop
  | has_wait {t : State} (h : t.Has P) : CpyAt.Has P (.wait t)
  | has_ok {x0 : Nat} {x1 : Word} : CpyAt.Has P (.ok x0 x1)
  | has_code {x0 : Nat} : CpyAt.Has P (.code x0)
theorem CpyAt.wait_has {P : List Host.Cell → Prop} {g : CpyAt} {t : State} (e : g = .wait t) (h : g.Has P) : t.Has P := by
  subst e; cases h; assumption
inductive QR.Has (P : List Host.Cell → Prop) : QR → Prop
  | has_done {t : State} (h : t.Has P) : QR.Has P (.done t)
  | has_wait {t : State} (h : t.Has P) : QR.Has P (.wait t)
  | has_broken {t : State} (h : t.Has P) : QR.Has P (.broken t)
theorem QR.done_has {P : List Host.Cell → Prop} {g : QR} {t : State} (e : g = .done t) (h : g.Has P) : t.Has P := by
  subst e; cases h; assumption
theorem QR.wait_has {P : List Host.Cell → Prop} {g : QR} {t : State} (e : g = .wait t) (h : g.Has P) : t.Has P := by
  subst e; cases h; assumption
theorem QR.broken_has {P : List Host.Cell → Prop} {g : QR} {t : State} (e : g = .broken t) (h : g.Has P) : t.Has P := by
  subst e; cases h; assumption
inductive PagesR.Has (P : List Host.Cell → Prop) : PagesR → Prop
  | has_ok {t : State} (h : t.Has P) : PagesR.Has P (.ok t)
  | has_bad {t : State} (h : t.Has P) : PagesR.Has P (.bad t)
  | has_wait {t : State} (h : t.Has P) : PagesR.Has P (.wait t)
theorem PagesR.ok_has {P : List Host.Cell → Prop} {g : PagesR} {t : State} (e : g = .ok t) (h : g.Has P) : t.Has P := by
  subst e; cases h; assumption
theorem PagesR.bad_has {P : List Host.Cell → Prop} {g : PagesR} {t : State} (e : g = .bad t) (h : g.Has P) : t.Has P := by
  subst e; cases h; assumption
theorem PagesR.wait_has {P : List Host.Cell → Prop} {g : PagesR} {t : State} (e : g = .wait t) (h : g.Has P) : t.Has P := by
  subst e; cases h; assumption
inductive CstR.Has (P : List Host.Cell → Prop) : CstR → Prop
  | has_done {t : State} (h : t.Has P) : CstR.Has P (.done t)
  | has_wait {t : State} (h : t.Has P) : CstR.Has P (.wait t)
  | has_fail {t : State} {x0 : Nat} (h : t.Has P) : CstR.Has P (.fail t x0)
theorem CstR.done_has {P : List Host.Cell → Prop} {g : CstR} {t : State} (e : g = .done t) (h : g.Has P) : t.Has P := by
  subst e; cases h; assumption
theorem CstR.wait_has {P : List Host.Cell → Prop} {g : CstR} {t : State} (e : g = .wait t) (h : g.Has P) : t.Has P := by
  subst e; cases h; assumption
theorem CstR.fail_has {P : List Host.Cell → Prop} {g : CstR} {t : State} {x0 : Nat} (e : g = .fail t x0) (h : g.Has P) : t.Has P := by
  subst e; cases h; assumption
inductive LoopR.Has (P : List Host.Cell → Prop) : LoopR → Prop
  | has_fin {t : State} (h : t.Has P) : LoopR.Has P (.fin t)
  | has_trap {t : State} {x0 : Trap} (h : t.Has P) : LoopR.Has P (.trap t x0)
  | has_hold {t : State} {x0 : Hold} {x1 : Nat} {x2 : Nat} (h : t.Has P) : LoopR.Has P (.hold t x0 x1 x2)
theorem LoopR.fin_has {P : List Host.Cell → Prop} {g : LoopR} {t : State} (e : g = .fin t) (h : g.Has P) : t.Has P := by
  subst e; cases h; assumption
theorem LoopR.trap_has {P : List Host.Cell → Prop} {g : LoopR} {t : State} {x0 : Trap} (e : g = .trap t x0) (h : g.Has P) : t.Has P := by
  subst e; cases h; assumption
theorem LoopR.hold_has {P : List Host.Cell → Prop} {g : LoopR} {t : State} {x0 : Hold} {x1 : Nat} {x2 : Nat} (e : g = .hold t x0 x1 x2) (h : g.Has P) : t.Has P := by
  subst e; cases h; assumption
inductive UMem.Has {α : Type} (P : List Host.Cell → Prop) : UMem α → Prop
  | has_got {t : State} {x0 : α} (h : t.Has P) : UMem.Has P (.got t x0)
  | has_wait {t : State} (h : t.Has P) : UMem.Has P (.wait t)
  | has_fault {t : State} {x0 : Nat} (h : t.Has P) : UMem.Has P (.fault t x0)
theorem UMem.got_has {α : Type} {P : List Host.Cell → Prop} {g : UMem α} {t : State} {x0 : α} (e : g = .got t x0) (h : g.Has P) : t.Has P := by
  subst e; cases h; assumption
theorem UMem.wait_has {α : Type} {P : List Host.Cell → Prop} {g : UMem α} {t : State} (e : g = .wait t) (h : g.Has P) : t.Has P := by
  subst e; cases h; assumption
theorem UMem.fault_has {α : Type} {P : List Host.Cell → Prop} {g : UMem α} {t : State} {x0 : Nat} (e : g = .fault t x0) (h : g.Has P) : t.Has P := by
  subst e; cases h; assumption

/-! ### Base -/

theorem State.dropAns_mem (s : State) (w : Who) (ctx : Nat) (va : Nat) : (State.dropAns s w ctx va).mem = s.mem := rfl
theorem State.setFr_mem (s : State) (k : Nat) (f : Nat) (r : Frame) : (State.setFr s k f r).mem = s.mem := rfl
theorem State.setDie_mem (s : State) (d : Nat) (v : Die) : (State.setDie s d v).mem = s.mem := rfl
theorem State.setCore_mem (s : State) (k : Nat) (c : Core) : (State.setCore s k c).mem = s.mem := rfl
theorem State.updFr_mem (s : State) (k : Nat) (f : Nat) (g : Frame → Frame) : (State.updFr s k f g).mem = s.mem := rfl
theorem State.updCore_mem (s : State) (k : Nat) (g : Core → Core) : (State.updCore s k g).mem = s.mem := rfl
theorem State.setCur_mem (s : State) (r : Frame) : (State.setCur s r).mem = s.mem := rfl
theorem State.ticked_mem (s : State) : (State.ticked s).mem = s.mem := rfl
theorem State.updCamp_mem (s : State) (c : Nat) (g : Camp → Camp) : (State.updCamp s c g).mem = s.mem := rfl
theorem State.updMine_mem (s : State) (g : Core → Core) : (State.updMine s g).mem = s.mem := rfl
theorem State.startWalk_mem (s : State) (w : Who) (k : Nat) (ctx : Nat) (va : Nat) (kind : Nat) (needs : Bool × Bool × Bool) : (State.startWalk s w k ctx va kind needs).mem = s.mem := by
  unfold State.startWalk
  split <;> rfl
theorem State.updCur_mem (s : State) (g : Frame → Frame) : (State.updCur s g).mem = s.mem := rfl
theorem State.flag_mem (s : State) (g : Nat) : (State.flag s g).mem = s.mem := rfl
theorem State.updDie_mem (s : State) (d : Nat) (g : Die → Die) : (State.updDie s d g).mem = s.mem := rfl
theorem State.store_wf (s : State) (a : Nat) (l : List (BitVec 8)) (h : s.Has Canon) : State.Has Canon (State.store s a l) := ⟨wf_store s a l h.of⟩
theorem State.wrN_wf (s : State) (a : Nat) (n : Nat) (v : Nat) (hs : s.Has Canon) : State.Has Canon (State.wrN s a n v) := by
  unfold State.wrN
  try dsimp only
  with_reducible repeat' (first
    | assumption
    | (refine State.store_wf _ _ _ ?_))
theorem State.heal_mem (s : State) (as : List Nat) : (State.heal s as).mem = s.mem := rfl
theorem State.poolPut_wf (s : State) (k off : Nat) (a0 : List (BitVec 8)) (hs : s.Has Canon) : State.Has Canon (State.poolPut s k off a0) := by
  revert hs
  fun_induction State.poolPut s k off a0
  all_goals with_reducible repeat' (first
    | assumption
    | split
    | (refine (by assumption : State.Has _ _ → _) ?_)
    | (refine State.store_wf _ _ _ ?_)
    | (refine Has.foldl _ ?_ ?_)
    | (refine State.Has.mk ?_; dsimp only; refine State.Has.of ?_)
    | (intro _))
theorem State.poolStore_wf (s : State) (k off : Nat) (l : List (BitVec 8)) (hs : s.Has Canon) : State.Has Canon (State.poolStore s k off l) := by
  unfold State.poolStore
  try dsimp only
  with_reducible repeat' (first
    | assumption
    | split
    | (refine State.poolPut_wf _ _ _ _ ?_)
    | (refine Has.upd ?_ (State.heal_mem _ _))
    | (refine Has.foldl _ ?_ ?_)
    | (refine State.Has.mk ?_; dsimp only; refine State.Has.of ?_)
    | (intro _))
theorem State.holeStore_wf (s : State) (pa : Nat) (l : List (BitVec 8)) (hs : s.Has Canon) : State.Has Canon (State.holeStore s pa l) := by
  induction l generalizing s pa with
  | nil => exact hs
  | cons b r ih =>
    unfold State.holeStore
    refine ih _ _ ?_
    split
    · exact hs
    · exact State.store_wf _ _ _ hs
theorem State.unitStore_wf (s : State) (pa : Nat) (l : List (BitVec 8)) (hs : s.Has Canon) : State.Has Canon (State.unitStore s pa l) := by
  unfold State.unitStore
  try dsimp only
  with_reducible repeat' (first
    | assumption
    | split
    | (refine State.holeStore_wf _ _ _ ?_)
    | (refine State.store_wf _ _ _ ?_))
theorem State.markAD_mem (s : State) (k : Nat) (ctx : Nat) (va : Nat) (wr : Bool) : (State.markAD s k ctx va wr).mem = s.mem := rfl
theorem State.unitMark_mem (s : State) (d : Nat) (ctx : Nat) (va : Nat) (wr : Bool) : (State.unitMark s d ctx va wr).mem = s.mem := rfl
theorem State.unitWr_wf (s : State) (pa : Nat) (n : Nat) (v : Nat) (hs : s.Has Canon) : State.Has Canon (State.unitWr s pa n v) := by
  unfold State.unitWr
  try dsimp only
  with_reducible repeat' (first
    | assumption
    | (refine State.unitStore_wf _ _ _ ?_))
theorem State.setHeld_wf (s : State) (ctx : Nat) (k : Nat) (b : Bool) (hs : s.Has Canon) : State.Has Canon (State.setHeld s ctx k b) := by
  unfold State.setHeld
  try dsimp only
  with_reducible repeat' (first
    | assumption
    | split
    | (refine State.unitWr_wf _ _ _ _ ?_))
theorem State.setCtxFld_wf (s : State) (slot : Nat) (lo : Nat) (n : Nat) (v : Nat) (hs : s.Has Canon) : State.Has Canon (State.setCtxFld s slot lo n v) := by
  unfold State.setCtxFld
  try dsimp only
  with_reducible repeat' (first
    | assumption
    | (refine State.unitWr_wf _ _ _ _ ?_))
theorem State.unitAcc_wf {P : List Host.Cell → Prop} (s : State) (d : Nat) (u : Nat) (ctx : Nat) (va : Nat) (needs : Bool × Bool × Bool) (hs : s.Has P) : UAcc.Has P (State.unitAcc s d u ctx va needs) := by
  unfold State.unitAcc
  try dsimp only
  with_reducible repeat' (first
    | assumption
    | split
    | (refine UAcc.Has.has_go ?_)
    | (refine UAcc.Has.has_wait ?_)
    | (refine UAcc.Has.has_fail ?_)
    | (refine Has.upd ?_ (State.unitMark_mem _ _ _ _ _))
    | (refine Has.upd ?_ (State.dropAns_mem _ _ _ _))
    | (refine Has.upd ?_ (State.startWalk_mem _ _ _ _ _ _ _)))
/-! ### SheetOps -/

theorem State.updSheet_mem (s : State) (d : Nat) (t : Nat) (g : SheetE → SheetE) : (State.updSheet s d t g).mem = s.mem := rfl
theorem State.seqStore_wf (s : State) (t a : Nat) (l : List (BitVec 8)) (hs : s.Has Canon) : State.Has Canon (State.seqStore s t a l) := by
  unfold State.seqStore
  try dsimp only
  with_reducible repeat' (first
    | assumption
    | split
    | (refine State.store_wf _ _ _ ?_)
    | (refine Has.foldl _ ?_ ?_)
    | (refine State.Has.mk ?_; dsimp only; refine State.Has.of ?_)
    | (intro _))
theorem State.seqN_wf (s : State) (t a n v : Nat) (hs : s.Has Canon) : State.Has Canon (State.seqN s t a n v) := by
  unfold State.seqN
  try dsimp only
  with_reducible repeat' (first
    | assumption
    | split
    | (refine State.seqStore_wf _ _ _ _ ?_)
    | (refine Has.foldl _ ?_ ?_)
    | (refine State.Has.mk ?_; dsimp only; refine State.Has.of ?_)
    | (intro _))
theorem writeChain_wf (t : Nat) (a0 : State) (a1 : List (Nat × Nat)) (hs : a0.Has Canon) : State.Has Canon (writeChain t a0 a1) := by
  revert hs
  fun_induction writeChain t a0 a1
  all_goals with_reducible repeat' (first
    | assumption
    | split
    | (refine (by assumption : State.Has _ _ → _) ?_)
    | (refine writeChain_wf _ _ _ ?_)
    | (refine State.seqN_wf _ _ _ _ _ ?_)
    | (refine Has.foldl _ ?_ ?_)
    | (refine State.Has.mk ?_; dsimp only; refine State.Has.of ?_)
    | (intro _))
theorem State.faultRec_wf (s : State) (t gen cell kind : Nat) (detail : Word) (named : List Nat) (hs : s.Has Canon) : State.Has Canon (State.faultRec s t gen cell kind detail named) := by
  unfold State.faultRec
  try dsimp only
  with_reducible repeat' (first
    | assumption
    | split
    | (refine State.seqN_wf _ _ _ _ _ ?_)
    | (refine Has.foldl _ ?_ ?_)
    | (refine State.Has.mk ?_; dsimp only; refine State.Has.of ?_)
    | (intro _))
theorem State.setDsc_wf (s : State) (t n off lo w v : Nat) (hs : s.Has Canon) : State.Has Canon (State.setDsc s t n off lo w v) := by
  unfold State.setDsc
  try dsimp only
  with_reducible repeat' (first
    | assumption
    | split
    | (refine State.seqN_wf _ _ _ _ _ ?_)
    | (refine Has.foldl _ ?_ ?_)
    | (refine State.Has.mk ?_; dsimp only; refine State.Has.of ?_)
    | (intro _))
theorem State.setHdr_wf (s : State) (t off lo n v : Nat) (hs : s.Has Canon) : State.Has Canon (State.setHdr s t off lo n v) := by
  unfold State.setHdr
  try dsimp only
  with_reducible repeat' (first
    | assumption
    | split
    | (refine State.seqN_wf _ _ _ _ _ ?_)
    | (refine Has.foldl _ ?_ ?_)
    | (refine State.Has.mk ?_; dsimp only; refine State.Has.of ?_)
    | (intro _))
theorem State.leaveGen_wf (s : State) (t : Nat) (n : Nat) (st : Nat) (hs : s.Has Canon) : State.Has Canon (State.leaveGen s t n st) := by
  unfold State.leaveGen
  try dsimp only
  with_reducible repeat' (first
    | assumption
    | split
    | (refine State.setDsc_wf _ _ _ _ _ _ _ ?_))
theorem State.keepErr_mem (s : State) (d : Nat) (t : Nat) (n : Nat) : (State.keepErr s d t n).mem = s.mem := by
  unfold State.keepErr
  split <;> simp [State.updSheet_mem]
theorem State.markStale_wf (s : State) (t : Nat) (h : Nat) (n : Nat) (hs : s.Has Canon) : State.Has Canon (State.markStale s t h n) := by
  unfold State.markStale
  try dsimp only
  with_reducible repeat' (first
    | assumption
    | split
    | (refine State.setDsc_wf _ _ _ _ _ _ _ ?_))
theorem State.poisonFront_mem (s : State) (d : Nat) (t : Nat) (n : Nat) : (State.poisonFront s d t n).mem = s.mem := rfl
theorem State.endError_wf (s : State) (d : Nat) (t : Nat) (n : Nat) (g : Nat) (reason : Nat) (detail : Word) (hs : s.Has Canon) : State.Has Canon (State.endError s d t n g reason detail) := by
  unfold State.endError
  try dsimp only
  with_reducible repeat' (first
    | assumption
    | split
    | (refine State.faultRec_wf _ _ _ _ _ _ _ ?_)
    | (refine State.setDsc_wf _ _ _ _ _ _ _ ?_)
    | (refine Has.upd ?_ (State.updSheet_mem _ _ _ _))
    | (refine State.leaveGen_wf _ _ _ _ ?_))
theorem State.chain_wf (s : State) (t : Nat) (n : Nat) (hs : s.Has Canon) : State.Has Canon (State.chain s t n) := by
  unfold State.chain
  try dsimp only
  with_reducible repeat' (first
    | assumption
    | split
    | (refine writeChain_wf _ _ _ ?_)
    | (refine State.setDsc_wf _ _ _ _ _ _ _ ?_))
theorem State.chains_wf (s : State) (t : Nat) (hs : s.Has Canon) : State.Has Canon (State.chains s t) := by
  unfold State.chains
  try dsimp only
  with_reducible repeat' (first
    | assumption
    | (refine Has.foldl _ ?_ ?_)
    | (refine State.chain_wf _ _ _ ?_)
    | (intro _))
theorem State.writeRanks_wf (s : State) (t : Nat) (hs : s.Has Canon) : State.Has Canon (State.writeRanks s t) := by
  unfold State.writeRanks
  try dsimp only
  with_reducible repeat' (first
    | assumption
    | (refine Has.foldl _ ?_ ?_)
    | (refine State.setDsc_wf _ _ _ _ _ _ _ ?_)
    | (intro _))
theorem State.applyBind_wf (s : State) (t n : Nat) (r : List (BitVec 8)) (hs : s.Has Canon) : State.Has Canon (State.applyBind s t n r) := by
  unfold State.applyBind
  try dsimp only
  with_reducible repeat' (first
    | assumption
    | split
    | (refine State.setDsc_wf _ _ _ _ _ _ _ ?_)
    | (refine State.seqN_wf _ _ _ _ _ ?_)
    | (refine State.chains_wf _ _ ?_)
    | (refine State.writeRanks_wf _ _ ?_)
    | (refine Has.foldl _ ?_ ?_)
    | (refine State.Has.mk ?_; dsimp only; refine State.Has.of ?_)
    | (intro _))
theorem State.applyEdit_wf (s : State) (t g : Nat) (hs : s.Has Canon) : State.Has Canon (State.applyEdit s t g) := by
  unfold State.applyEdit
  try dsimp only
  with_reducible repeat' (first
    | assumption
    | split
    | (refine State.applyBind_wf _ _ _ _ ?_)
    | (refine State.seqN_wf _ _ _ _ _ ?_)
    | (refine Has.foldl _ ?_ ?_)
    | (refine State.Has.mk ?_; dsimp only; refine State.Has.of ?_)
    | (intro _))
theorem State.failPass_wf (s : State) (d t g : Nat) (hs : s.Has Canon) : OptHas Canon (State.failPass s d t g) := by
  unfold State.failPass
  generalize List.find? _ _ = o
  cases o with
  | none => exact .has_none
  | some n => exact .has_some (State.endError_wf _ _ _ _ _ _ _ hs)
theorem State.settle_wf (s : State) (d t n : Nat) (hs : s.Has Canon) : State.Has Canon (State.settle s d t n) := by
  induction n generalizing s with
  | zero => exact hs
  | succ n ih =>
    unfold State.settle
    dsimp only
    split
    · exact hs
    · split
      · rename_i q
        exact ih _ (OptHas.some_has q (State.failPass_wf _ _ _ _ hs))
      · split
        · exact hs
        · refine ih _ ?_
          split
          · exact State.setHdr_wf _ _ _ _ _ _ hs
          · exact State.applyEdit_wf _ _ _ (State.setHdr_wf _ _ _ _ _ _ hs)
theorem State.cellFail_wf (s : State) (fm : Formula) (reason : Nat) (detail : Word) (hs : s.Has Canon) : State.Has Canon (State.cellFail s fm reason detail) := by
  unfold State.cellFail
  try dsimp only
  with_reducible repeat' (first
    | assumption
    | split
    | (refine State.settle_wf _ _ _ _ ?_)
    | (refine State.endError_wf _ _ _ _ _ _ _ ?_))
theorem State.commitCell_wf (s : State) (d : Nat) (t : Nat) (n : Nat) (g : Nat) (hs : s.Has Canon) : State.Has Canon (State.commitCell s d t n g) := by
  unfold State.commitCell
  try dsimp only
  with_reducible repeat' (first
    | assumption
    | (refine State.setDsc_wf _ _ _ _ _ _ _ ?_)
    | (refine Has.upd ?_ (State.updSheet_mem _ _ _ _))
    | (refine State.settle_wf _ _ _ _ ?_)
    | (refine State.leaveGen_wf _ _ _ _ ?_))
theorem State.openGen_wf (s : State) (d t : Nat) (named : List Nat) (flip : Option Nat) (hs : s.Has Canon) :
    State.Has Canon (State.openGen s d t named flip) := by
  unfold State.openGen
  extract_lets h s1 s2 c s3 s4
  have h1 : s1.Has Canon := by
    cases flip with
    | none => exact hs
    | some n =>
      have hk : (s.keepErr d t n).Has Canon := Has.upd hs (State.keepErr_mem _ _ _ _)
      have h0 := State.setDsc_wf _ t n 0x20 32 32 h (State.setDsc_wf _ t n 0x20 0 32 (s.fgen t n)
        (State.setDsc_wf _ t n 0x28 15 1 (1 - fld ((s.keepErr d t n).dsc t n 0x28) 15 1) hk))
      dsimp only [s1]
      split
      · exact h0
      · exact State.setDsc_wf _ _ _ _ _ _ _ (State.setDsc_wf _ _ _ _ _ _ _ h0)
  clear_value s1
  have h2 : s2.Has Canon := Has.foldl _ h1 fun _ _ h => State.markStale_wf _ _ _ _ (Has.upd h (State.keepErr_mem _ _ _ _))
  clear_value s2
  have h3 : s3.Has Canon := State.setHdr_wf _ _ _ _ _ _ h2
  clear_value s3
  refine State.settle_wf _ _ _ _ ?_
  show State.Has Canon (bif c then s3.applyEdit t h else s3)
  cases c with
  | true => exact State.applyEdit_wf _ _ _ h3
  | false => exact h3
/-! ### Units -/

theorem State.dropLaunch_mem (s : State) (id : Nat) : (State.dropLaunch s id).mem = s.mem := rfl
theorem State.unlinkStores_mem (s : State) (k : Nat) (f : Nat) : (State.unlinkStores s k f).mem = s.mem := rfl
theorem State.setGroup_mem (s : State) (g : Nat) (v : Group) : (State.setGroup s g v).mem = s.mem := rfl
theorem State.putLaunch_mem (s : State) (L : Launch) : (State.putLaunch s L).mem = s.mem := rfl
theorem State.flushAutos_mem (s : State) (k : Nat) : (State.flushAutos s k).mem = s.mem := rfl
theorem State.orphan_mem (s : State) (k : Nat) (f : Nat) : (State.orphan s k f).mem = s.mem := rfl
theorem State.sendReply_mem (s : State) (k : Nat) (m : Msg) : (State.sendReply s k m).mem = s.mem := by
  unfold State.sendReply
  split <;> simp [State.updCore_mem]
theorem State.setBar_mem (s : State) (g : Gang) (b : Barrier) : (State.setBar s g b).mem = s.mem := rfl
theorem State.setPort_mem (s : State) (p : Nat) (v : Port) : (State.setPort s p v).mem = s.mem := rfl
theorem State.barSweep_mem (s : State) (g : Gang) : (State.barSweep s g).mem = s.mem := by
  refine Has.eq fun P h => ?_
  unfold State.barSweep
  try dsimp only
  with_reducible repeat' (first
    | assumption
    | (refine Has.foldl _ ?_ ?_)
    | split
    | (refine Has.upd ?_ (State.updFr_mem _ _ _ _))
    | (refine State.Has.mk ?_; dsimp only; refine State.Has.of ?_)
    | (intro _))
theorem State.sendOn_mem (s : State) (p : Nat) (n : Nat) : (State.sendOn s p n).mem = s.mem := rfl
theorem State.flits_mem (s : State) (t : Nat) (n : Nat) : (State.flits s t n).mem = s.mem := by
  unfold State.flits
  split <;> simp [State.sendOn_mem]
theorem State.tellOthers_mem (s : State) (v : Group) : (State.tellOthers s v).mem = s.mem := by
  refine Has.eq fun P h => ?_
  unfold State.tellOthers
  with_reducible repeat' (first
    | assumption
    | (refine Has.foldl _ ?_ ?_)
    | split
    | (refine Has.upd ?_ (State.sendOn_mem _ _ _))
    | (intro _))
theorem State.autoReply_mem (s : State) (k : Nat) (f : Nat) : (State.autoReply s k f).mem = s.mem := by
  unfold State.autoReply
  split <;> simp [State.updFr_mem, State.sendReply_mem]
theorem State.barAbort_mem (s : State) (g : Gang) : (State.barAbort s g).mem = s.mem := by
  simp [State.barAbort, State.barSweep_mem, State.setBar_mem]
theorem State.put_wf (s : State) (k : Nat) (f : Nat) (ctx : Nat) (pa : Nat) (w : Word) (l : List (BitVec 8)) (rel : Option Nat) (hs : s.Has Canon) : State.Has Canon (State.put s k f ctx pa w l rel) := by
  unfold State.put
  try dsimp only
  with_reducible repeat' (first
    | assumption
    | split
    | (refine State.store_wf _ _ _ ?_)
    | (refine Has.upd ?_ (State.flits_mem _ _ _))
    | (refine State.unitStore_wf _ _ _ ?_)
    | (refine State.Has.mk ?_; dsimp only; refine State.Has.of ?_))
theorem State.coreBarAbort_mem (s : State) (k : Nat) : (State.coreBarAbort s k).mem = s.mem := by
  unfold State.coreBarAbort
  split <;> simp [State.barAbort_mem]
theorem State.post_wf (s : State) (d : Nat) (cls : Nat) (idx : Nat) (kind : Nat) (body : Nat) (hs : s.Has Canon) : State.Has Canon (State.post s d cls idx kind body) := by
  unfold State.post
  try dsimp only
  with_reducible repeat' (first
    | assumption
    | split
    | (refine State.unitWr_wf _ _ _ _ ?_)
    | (refine Has.upd ?_ (State.updDie_mem _ _ _)))
theorem State.unitPut_wf (s : State) (d : Nat) (ctx : Nat) (pa : Nat) (w : Word) (l : List (BitVec 8)) (hs : s.Has Canon) : State.Has Canon (State.unitPut s d ctx pa w l) := by
  unfold State.unitPut
  try dsimp only
  with_reducible repeat' (first
    | assumption
    | (refine State.put_wf _ _ _ _ _ _ _ _ ?_))
theorem State.groupEnd_wf (s : State) (g : Nat) (reason : Nat) (hs : s.Has Canon) : State.Has Canon (State.groupEnd s g reason) := by
  unfold State.groupEnd
  try dsimp only
  with_reducible repeat' (first
    | assumption
    | split
    | (refine State.post_wf _ _ _ _ _ _ ?_)
    | (refine Has.upd ?_ (State.setGroup_mem _ _ _))
    | (refine State.Has.mk ?_; dsimp only; refine State.Has.of ?_))
theorem State.groupAbort_wf (s : State) (g : Nat) (reason : Nat) (hs : s.Has Canon) : State.Has Canon (State.groupAbort s g reason) := by
  unfold State.groupAbort
  try dsimp only
  with_reducible repeat' (first
    | assumption
    | split
    | (refine State.groupEnd_wf _ _ _ ?_)
    | (refine Has.upd ?_ (State.tellOthers_mem _ _)))
theorem State.memberLost_wf (s : State) (ctx : Nat) (k : Nat) (reason : Nat) (hs : s.Has Canon) : State.Has Canon (State.memberLost s ctx k reason) := by
  unfold State.memberLost
  try dsimp only
  with_reducible repeat' (first
    | assumption
    | (refine Has.foldl _ ?_ ?_)
    | split
    | (refine State.groupAbort_wf _ _ _ ?_)
    | (intro _))
theorem State.freezeCtx_wf (s : State) (ctx : Nat) (hs : s.Has Canon) : State.Has Canon (State.freezeCtx s ctx) := by
  unfold State.freezeCtx
  try dsimp only
  with_reducible repeat' (first
    | assumption
    | (refine Has.foldl _ ?_ ?_)
    | split
    | (refine State.setCtxFld_wf _ _ _ _ _ ?_)
    | (refine Has.upd ?_ (State.updCore_mem _ _ _))
    | (refine State.memberLost_wf _ _ _ _ ?_)
    | (refine Has.upd ?_ (State.barAbort_mem _ _))
    | (intro _))
theorem State.freeze_wf (s : State) (d : Nat) (master : Nat) (addr : Nat) (hs : s.Has Canon) : State.Has Canon (State.freeze s d master addr) := by
  unfold State.freeze
  try dsimp only
  with_reducible repeat' (first
    | assumption
    | split
    | (refine State.post_wf _ _ _ _ _ _ ?_)
    | (refine State.freezeCtx_wf _ _ ?_)
    | (refine State.Has.mk ?_; dsimp only; refine State.Has.of ?_))
theorem State.signal_wf (s : State) (L : Launch) (v : Int) (hs : s.Has Canon) : OptHas Canon (State.signal s L v) := by
  unfold State.signal
  try dsimp only
  with_reducible repeat' (first
    | assumption
    | split
    | (refine OptHas.has_some ?_)
    | exact OptHas.has_none
    | (refine UAcc.go_has (by assumption) (State.unitAcc_wf _ _ _ _ _ _ ?_))
    | (refine State.put_wf _ _ _ _ _ _ _ _ ?_))
theorem State.sigOut_wf (s : State) (L : Launch) (v : Int) (hs : s.Has Canon) : State.Has Canon (State.sigOut s L v) := by
  unfold State.sigOut
  try dsimp only
  with_reducible repeat' (first
    | assumption
    | split
    | (refine OptHas.some_has (by assumption) (State.signal_wf _ _ _ ?_))
    | (refine Has.upd ?_ (State.dropLaunch_mem _ _))
    | (refine UAcc.go_has (by assumption) (State.unitAcc_wf _ _ _ _ _ _ ?_))
    | (refine UAcc.wait_has (by assumption) (State.unitAcc_wf _ _ _ _ _ _ ?_))
    | (refine UAcc.fail_has (by assumption) (State.unitAcc_wf _ _ _ _ _ _ ?_))
    | (refine Has.upd ?_ (State.putLaunch_mem _ _)))
theorem State.dropFrame_wf (s : State) (k : Nat) (f : Nat) (hs : s.Has Canon) : State.Has Canon (State.dropFrame s k f) := by
  unfold State.dropFrame
  try dsimp only
  with_reducible repeat' (first
    | assumption
    | split
    | (refine Has.upd ?_ (State.orphan_mem _ _ _))
    | (refine Has.upd ?_ (State.autoReply_mem _ _ _))
    | (refine State.cellFail_wf _ _ _ _ ?_)
    | (refine Has.upd ?_ (State.setFr_mem _ _ _ _)))
theorem State.dropSaved_wf (s : State) (ctx : Nat) (k : Nat) (r : Frame) (hs : s.Has Canon) : State.Has Canon (State.dropSaved s ctx k r) := by
  unfold State.dropSaved
  try dsimp only
  with_reducible repeat' (first
    | assumption
    | split
    | (refine State.cellFail_wf _ _ _ _ ?_)
    | (refine State.Has.mk ?_; dsimp only; refine State.Has.of ?_))
theorem State.clearCore_wf (s : State) (ctx : Nat) (k : Nat) (hs : s.Has Canon) : State.Has Canon (State.clearCore s ctx k) := by
  unfold State.clearCore
  try dsimp only
  with_reducible repeat' (first
    | assumption
    | (refine Has.foldl _ ?_ ?_)
    | split
    | (refine State.dropSaved_wf _ _ _ _ ?_)
    | (refine State.setHeld_wf _ _ _ _ ?_)
    | (refine Has.upd ?_ (State.flushAutos_mem _ _))
    | (refine State.dropFrame_wf _ _ _ ?_)
    | (refine Has.upd ?_ (State.updCore_mem _ _ _))
    | (refine State.Has.mk ?_; dsimp only; refine State.Has.of ?_)
    | (intro _))
theorem State.launchEnd_wf (s : State) (L : Launch) (v : Int) (hs : s.Has Canon) : State.Has Canon (State.launchEnd s L v) := by
  unfold State.launchEnd
  try dsimp only
  with_reducible repeat' (first
    | assumption
    | (refine Has.foldl _ ?_ ?_)
    | split
    | (refine State.clearCore_wf _ _ _ ?_)
    | (refine Has.upd ?_ (State.barAbort_mem _ _))
    | (refine State.memberLost_wf _ _ _ _ ?_)
    | (refine Has.upd ?_ (State.putLaunch_mem _ _))
    | (refine State.sigOut_wf _ _ _ ?_)
    | (intro _))
theorem State.endCtxLaunches_wf (s : State) (ctx : Nat) (v : Int) (hs : s.Has Canon) : State.Has Canon (State.endCtxLaunches s ctx v) := by
  unfold State.endCtxLaunches
  try dsimp only
  with_reducible repeat' (first
    | assumption
    | (refine Has.foldl _ ?_ ?_)
    | (refine State.launchEnd_wf _ _ _ ?_)
    | (intro _))
theorem State.guilt_wf (s : State) (ctx : Nat) (reason : Nat) (hs : s.Has Canon) : State.Has Canon (State.guilt s ctx reason) := by
  unfold State.guilt
  try dsimp only
  with_reducible repeat' (first
    | assumption
    | split
    | (refine State.post_wf _ _ _ _ _ _ ?_)
    | (refine State.setCtxFld_wf _ _ _ _ _ ?_)
    | (refine State.endCtxLaunches_wf _ _ _ ?_))
/-! ### Ops -/

theorem State.failLaunch_mem (s : State) (k : Nat) (v : Int) : (State.failLaunch s k v).mem = s.mem := by
  unfold State.failLaunch
  split <;> rfl
theorem State.startBivouac_mem (s : State) (k : Nat) : (State.startBivouac s k).mem = s.mem := by
  unfold State.startBivouac
  split <;> simp [State.setFr_mem]
theorem State.wvar_mem (s : State) (d : BitVec 6) (v : Word) : (State.wvar s d v).mem = s.mem := rfl
theorem State.parkFrame_mem (s : State) (k : Nat) (f : Nat) (g : Frame → Frame) : (State.parkFrame s k f g).mem = s.mem := rfl
theorem State.wakeSlog_mem (s : State) (k : Nat) : (State.wakeSlog s k).mem = s.mem := by
  refine Has.eq fun P h => ?_
  unfold State.wakeSlog
  try dsimp only
  with_reducible repeat' (first
    | assumption
    | (refine Has.foldl _ ?_ ?_)
    | split
    | (refine Has.upd ?_ (State.updFr_mem _ _ _ _))
    | (intro _))
theorem State.setSQueue_mem (s : State) (q : Nat) (v : SQueue) : (State.setSQueue s q v).mem = s.mem := rfl
theorem State.wfix_mem (s : State) (d : BitVec 6) (v : Word) : (State.wfix s d v).mem = s.mem := rfl
theorem State.returnResv_mem (s : State) (r : Option Resv) : (State.returnResv s r).mem = s.mem := by
  refine Has.eq fun P h => ?_
  unfold State.returnResv
  try dsimp only
  with_reducible repeat' (first
    | assumption
    | split
    | (refine Has.upd ?_ (State.setSQueue_mem _ _ _)))
theorem State.stay_mem (s : State) (h : Hold) : (State.stay s h).mem = s.mem := by
  unfold State.stay
  split <;> simp [State.updCur_mem, State.parkFrame_mem]
theorem State.endNow_wf (s : State) (k : Nat) (f : Nat) (hs : s.Has Canon) : State.Has Canon (State.endNow s k f) := by
  unfold State.endNow
  try dsimp only
  with_reducible repeat' (first
    | assumption
    | split
    | (refine Has.upd ?_ (State.autoReply_mem _ _ _))
    | (refine State.cellFail_wf _ _ _ _ ?_)
    | (refine Has.upd ?_ (State.returnResv_mem _ _))
    | (refine Has.upd ?_ (State.updCore_mem _ _ _))
    | (refine Has.upd ?_ (State.setFr_mem _ _ _ _))
    | (refine Has.upd ?_ (State.orphan_mem _ _ _))
    | (refine Has.upd ?_ (State.startBivouac_mem _ _)))
theorem State.cellStop_wf (s : State) (r : Frame) (hs : s.Has Canon) : State.Has Canon (State.cellStop s r) := by
  unfold State.cellStop
  try dsimp only
  with_reducible repeat' (first
    | assumption
    | split
    | (refine State.cellFail_wf _ _ _ _ ?_))
theorem State.actOnStop_wf (s : State) (k : Nat) (f : Nat) (hs : s.Has Canon) : State.Has Canon (State.actOnStop s k f) := by
  unfold State.actOnStop
  try dsimp only
  with_reducible repeat' (first
    | assumption
    | split
    | (refine Has.upd ?_ (State.coreBarAbort_mem _ _))
    | (refine State.cellStop_wf _ _ ?_)
    | (refine State.memberLost_wf _ _ _ _ ?_)
    | (refine Has.upd ?_ (State.autoReply_mem _ _ _))
    | (refine State.guilt_wf _ _ _ ?_))
theorem State.actOnSaved_wf (s : State) (ctx : Nat) (k : Nat) (f : Nat) (hs : s.Has Canon) : State.Has Canon (State.actOnSaved s ctx k f) := by
  unfold State.actOnSaved
  try dsimp only
  with_reducible repeat' (first
    | assumption
    | split
    | (refine State.cellStop_wf _ _ ?_)
    | (refine Has.upd ?_ (State.barAbort_mem _ _))
    | (refine State.memberLost_wf _ _ _ _ ?_)
    | (refine State.guilt_wf _ _ _ ?_)
    | (refine State.Has.mk ?_; dsimp only; refine State.Has.of ?_))
theorem State.actOn_wf (s : State) (key : Nat) (f : Nat) (hs : s.Has Canon) : State.Has Canon (State.actOn s key f) := by
  unfold State.actOn
  try dsimp only
  with_reducible repeat' (first
    | assumption
    | split
    | (refine State.actOnStop_wf _ _ _ ?_)
    | (refine State.actOnSaved_wf _ _ _ _ ?_))
theorem State.slogFail_wf (s : State) (k : Nat) (n : Nat) (t : SlogE → Trap) (hs : s.Has Canon) : State.Has Canon (State.slogFail s k n t) := by
  unfold State.slogFail
  try dsimp only
  with_reducible repeat' (first
    | assumption
    | split
    | (refine Has.upd ?_ (State.updCore_mem _ _ _))
    | (refine State.guilt_wf _ _ _ ?_)
    | (refine Has.upd ?_ (State.failLaunch_mem _ _ _))
    | (refine Has.upd ?_ (State.updFr_mem _ _ _ _))
    | (refine Has.upd ?_ (State.wakeSlog_mem _ _)))
theorem State.stopFiring_wf (s : State) (k : Nat) (f : Nat) (t : Trap) (hs : s.Has Canon) : State.Has Canon (State.stopFiring s k f t) := by
  unfold State.stopFiring
  try dsimp only
  with_reducible repeat' (first
    | assumption
    | split
    | (refine Has.upd ?_ (State.updFr_mem _ _ _ _))
    | (refine Has.upd ?_ (State.updCore_mem _ _ _))
    | (refine State.post_wf _ _ _ _ _ _ ?_)
    | (refine Has.upd ?_ (State.updDie_mem _ _ _))
    | (refine State.actOnStop_wf _ _ _ ?_))
theorem State.deliver_wf (s : State) (k f : Nat) (t : Trap) (epc : Word) (hs : s.Has Canon) : State.Has Canon (State.deliver s k f t epc) := by
  unfold State.deliver
  try dsimp only
  with_reducible repeat' (first
    | assumption
    | split
    | (refine Has.upd ?_ (State.updFr_mem _ _ _ _))
    | (refine State.stopFiring_wf _ _ _ _ ?_)
    | (refine Has.foldl _ ?_ ?_)
    | (refine State.Has.mk ?_; dsimp only; refine State.Has.of ?_)
    | (intro _))
theorem State.enterTrap_wf (s : State) (k f : Nat) (t : Trap) (epc : Word) (hs : s.Has Canon) : State.Has Canon (State.enterTrap s k f t epc) := by
  unfold State.enterTrap
  try dsimp only
  with_reducible repeat' (first
    | assumption
    | split
    | (refine State.stopFiring_wf _ _ _ _ ?_)
    | (refine Has.upd ?_ (State.updFr_mem _ _ _ _))
    | (refine State.deliver_wf _ _ _ _ _ ?_)
    | (refine Has.upd ?_ (State.parkFrame_mem _ _ _ _))
    | (refine Has.foldl _ ?_ ?_)
    | (refine State.Has.mk ?_; dsimp only; refine State.Has.of ?_)
    | (intro _))
theorem State.walkNo_wf (s : State) (w : Walk) (reason : Nat) (hs : s.Has Canon) : State.Has Canon (State.walkNo s w reason) := by
  unfold State.walkNo
  try dsimp only
  with_reducible repeat' (first
    | assumption
    | split
    | (refine State.slogFail_wf _ _ _ _ ?_)
    | (refine Has.upd ?_ (State.updFr_mem _ _ _ _))
    | (refine State.Has.mk ?_; dsimp only; refine State.Has.of ?_))
theorem State.walkFault_wf (s : State) (k : Nat) (f : Nat) (hs : s.Has Canon) : State.Has Canon (State.walkFault s k f) := by
  unfold State.walkFault
  try dsimp only
  with_reducible repeat' (first
    | assumption
    | split
    | (refine State.post_wf _ _ _ _ _ _ ?_)
    | (refine Has.upd ?_ (State.updCore_mem _ _ _))
    | (refine Has.upd ?_ (State.setFr_mem _ _ _ _))
    | (refine State.walkNo_wf _ _ _ ?_))
theorem State.takeTrap_wf (s : State) (k : Nat) (f : Nat) (t : Trap) (epc : Word) (hs : s.Has Canon) : State.Has Canon (State.takeTrap s k f t epc) := by
  unfold State.takeTrap
  try dsimp only
  with_reducible repeat' (first
    | assumption
    | split
    | (refine State.walkFault_wf _ _ _ ?_)
    | (refine State.enterTrap_wf _ _ _ _ _ ?_))
theorem State.boundary_wf (s : State) (hs : s.Has Canon) : State.Has Canon (State.boundary s) := by
  unfold State.boundary
  try dsimp only
  with_reducible repeat' (first
    | assumption
    | split
    | (refine Has.upd ?_ (State.parkFrame_mem _ _ _ _))
    | (refine State.takeTrap_wf _ _ _ _ _ ?_)
    | (refine Has.upd ?_ (State.setCur_mem _ _))
    | (refine Has.upd ?_ (State.updMine_mem _ _))
    | (refine Has.upd ?_ (State.updCur_mem _ _)))
theorem State.raise_wf (s : State) (k : Nat) (f : Nat) (t : Trap) (epc : Word) (hs : s.Has Canon) : State.Has Canon (State.raise s k f t epc) := by
  unfold State.raise
  try dsimp only
  with_reducible repeat' (first
    | assumption
    | split
    | (refine State.takeTrap_wf _ _ _ _ _ ?_)
    | (refine Has.upd ?_ (State.updFr_mem _ _ _ _)))
theorem State.wake_wf (s : State) (k f : Nat) (hs : s.Has Canon) : State.Has Canon (State.wake s k f) := by
  unfold State.wake
  try dsimp only
  with_reducible repeat' (first
    | assumption
    | split
    | (refine Has.upd ?_ (State.setFr_mem _ _ _ _))
    | (refine State.deliver_wf _ _ _ _ _ ?_)
    | (refine State.takeTrap_wf _ _ _ _ _ ?_)
    | (refine State.endNow_wf _ _ _ ?_)
    | (refine Has.foldl _ ?_ ?_)
    | (refine State.Has.mk ?_; dsimp only; refine State.Has.of ?_)
    | (intro _))
theorem State.retire_wf (s : State) (m : Bool) (pc : Word) (hs : s.Has Canon) : State.Has Canon (State.retire s m pc) := by
  unfold State.retire
  try dsimp only
  with_reducible repeat' (first
    | assumption
    | split
    | (refine Has.upd ?_ (State.updCur_mem _ _))
    | (refine State.boundary_wf _ ?_))
theorem State.leaveTrap_wf (s : State) (hs : s.Has Canon) : State.Has Canon (State.leaveTrap s) := by
  unfold State.leaveTrap
  try dsimp only
  with_reducible repeat' (first
    | assumption
    | (refine State.retire_wf _ _ _ ?_)
    | (refine Has.upd ?_ (State.updCur_mem _ _)))
theorem Res.finish_wf (m : Bool) (len : Nat) (r : Res) (h : r.Has Canon) : State.Has Canon (Res.finish m len r) := by
  cases h with
  | has_ok h => exact State.retire_wf _ _ _ h
  | has_to h => exact State.retire_wf _ _ _ h
  | has_trap h => exact State.raise_wf _ _ _ _ _ h
  | has_hold h => exact Has.upd h (State.stay_mem _ _)
  | has_gone h => exact h
theorem issue_wf (m : Bool) (len : Nat) (i : Instr) (regs : List Nat) (body : State → Res) (s : State) (hs : s.Has Canon)
    (hb : ∀ t, t.Has Canon → Res.Has Canon (body t)) : OutHas Canon (issue m len i regs body s) := by
  unfold issue
  dsimp only
  split
  · split
    · exact .has_next (State.takeTrap_wf _ _ _ _ _ (Has.upd hs (State.setCur_mem _ _)))
    · exact .has_next (Has.upd hs (State.setCur_mem _ _))
  · split
    · exact .has_next (State.raise_wf _ _ _ _ _ hs)
    · exact .has_next (Res.finish_wf _ _ _ (hb _ hs))
/-! ### Operands -/

theorem State.setCsr_mem (s : State) (n : BitVec 12) (v : Word) : (State.setCsr s n v).mem = s.mem := by
  unfold State.setCsr
  split <;> simp [State.updCur_mem, State.updMine_mem]
/-! ### Scalar -/

theorem branch_wf (i : Instr) (m : Bool) (a : BitVec 6) (off : BitVec 13) (t : Word → Bool) (s : State) (hs : s.Has Canon) : OutHas Canon (branch i m a off t s) := by
  unfold branch
  try dsimp only
  with_reducible repeat' (first
    | assumption
    | split
    | (refine Res.Has.has_ok ?_)
    | (refine Res.Has.has_to ?_)
    | (refine issue_wf _ _ _ _ _ _ ?_ ?_)
    | (intro _))
theorem execNop_wf (m : Bool) (s : State) (hs : s.Has Canon) : OutHas Canon (execNop m s) := by
  unfold execNop
  try dsimp only
  with_reducible repeat' (first
    | assumption
    | (refine Res.Has.has_ok ?_)
    | (refine issue_wf _ _ _ _ _ _ ?_ ?_)
    | (intro _))
theorem execEret_wf (m : Bool) (s : State) (hs : s.Has Canon) : OutHas Canon (execEret m s) := by
  unfold execEret
  try dsimp only
  with_reducible repeat' (first
    | assumption
    | split
    | (refine Res.Has.has_trap ?_)
    | (refine Res.Has.has_gone ?_)
    | (refine issue_wf _ _ _ _ _ _ ?_ ?_)
    | (refine State.leaveTrap_wf _ ?_)
    | (intro _))
theorem setX_wf (i : Instr) (m : Bool) (len : Nat) (d : BitVec 6) (g : Word → Word) (s : State) (hs : s.Has Canon) : OutHas Canon (setX i m len d g s) := by
  unfold setX
  try dsimp only
  with_reducible repeat' (first
    | assumption
    | (refine Res.Has.has_ok ?_)
    | (refine issue_wf _ _ _ _ _ _ ?_ ?_)
    | (refine Has.upd ?_ (State.wfix_mem _ _ _))
    | (intro _))
theorem execUndefinedEncoding_wf (w0 : BitVec 32) (w1 : BitVec 32) (chk : Nat) (s : State) (hs : s.Has Canon) : OutHas Canon (execUndefinedEncoding w0 w1 chk s) := by
  unfold execUndefinedEncoding
  try dsimp only
  with_reducible repeat' (first
    | assumption
    | (refine Res.Has.has_trap ?_)
    | (refine issue_wf _ _ _ _ _ _ ?_ ?_)
    | (intro _))
theorem execBlez_wf (m : Bool) (a : BitVec 6) (off : BitVec 13) (s : State) (hs : s.Has Canon) : OutHas Canon (execBlez m a off s) := by
  unfold execBlez
  try dsimp only
  with_reducible repeat' (first
    | assumption
    | (refine branch_wf _ _ _ _ _ _ ?_))
theorem execLimm_wf (m : Bool) (d : BitVec 6) (imm : BitVec 10) (s : State) (hs : s.Has Canon) : OutHas Canon (execLimm m d imm s) := by
  unfold execLimm
  try dsimp only
  with_reducible repeat' (first
    | assumption
    | (refine setX_wf _ _ _ _ _ _ ?_))
theorem execBeqz_wf (m : Bool) (a : BitVec 6) (off : BitVec 13) (s : State) (hs : s.Has Canon) : OutHas Canon (execBeqz m a off s) := by
  unfold execBeqz
  try dsimp only
  with_reducible repeat' (first
    | assumption
    | (refine branch_wf _ _ _ _ _ _ ?_))
theorem execLimmLit_wf (m : Bool) (d : BitVec 6) (lit : Word) (s : State) (hs : s.Has Canon) : OutHas Canon (execLimmLit m d lit s) := by
  unfold execLimmLit
  try dsimp only
  with_reducible repeat' (first
    | assumption
    | (refine setX_wf _ _ _ _ _ _ ?_))
theorem execTrap_wf (m : Bool) (a : BitVec 6) (s : State) (hs : s.Has Canon) : OutHas Canon (execTrap m a s) := by
  unfold execTrap
  try dsimp only
  with_reducible repeat' (first
    | assumption
    | (refine Res.Has.has_gone ?_)
    | (refine issue_wf _ _ _ _ _ _ ?_ ?_)
    | (refine State.raise_wf _ _ _ _ _ ?_)
    | (intro _))
theorem execBgez_wf (m : Bool) (a : BitVec 6) (off : BitVec 13) (s : State) (hs : s.Has Canon) : OutHas Canon (execBgez m a off s) := by
  unfold execBgez
  try dsimp only
  with_reducible repeat' (first
    | assumption
    | (refine branch_wf _ _ _ _ _ _ ?_))
theorem aluR_wf (i : Instr) (m : Bool) (d : BitVec 6) (a : BitVec 6) (b : BitVec 6) (g : Word → Word → Word) (s : State) (hs : s.Has Canon) : OutHas Canon (aluR i m d a b g s) := by
  unfold aluR
  try dsimp only
  with_reducible repeat' (first
    | assumption
    | (refine Res.Has.has_ok ?_)
    | (refine issue_wf _ _ _ _ _ _ ?_ ?_)
    | (refine Has.upd ?_ (State.wfix_mem _ _ _))
    | (intro _))
theorem execAndn_wf (m : Bool) (d : BitVec 6) (a : BitVec 6) (b : BitVec 6) (s : State) (hs : s.Has Canon) : OutHas Canon (execAndn m d a b s) := by
  unfold execAndn
  try dsimp only
  with_reducible repeat' (first
    | assumption
    | (refine aluR_wf _ _ _ _ _ _ _ ?_))
theorem aluU_wf (i : Instr) (m : Bool) (len : Nat) (d : BitVec 6) (a : BitVec 6) (g : Word → Word) (s : State) (hs : s.Has Canon) : OutHas Canon (aluU i m len d a g s) := by
  unfold aluU
  try dsimp only
  with_reducible repeat' (first
    | assumption
    | (refine Res.Has.has_ok ?_)
    | (refine issue_wf _ _ _ _ _ _ ?_ ?_)
    | (refine Has.upd ?_ (State.wfix_mem _ _ _))
    | (intro _))
theorem execMulh_wf (m : Bool) (d : BitVec 6) (a : BitVec 6) (b : BitVec 6) (s : State) (hs : s.Has Canon) : OutHas Canon (execMulh m d a b s) := by
  unfold execMulh
  try dsimp only
  with_reducible repeat' (first
    | assumption
    | (refine aluR_wf _ _ _ _ _ _ _ ?_))
theorem execSrli_wf (m : Bool) (d : BitVec 6) (a : BitVec 6) (amt : BitVec 6) (s : State) (hs : s.Has Canon) : OutHas Canon (execSrli m d a amt s) := by
  unfold execSrli
  try dsimp only
  with_reducible repeat' (first
    | assumption
    | (refine aluU_wf _ _ _ _ _ _ _ ?_))
theorem execRor_wf (m : Bool) (d : BitVec 6) (a : BitVec 6) (b : BitVec 6) (s : State) (hs : s.Has Canon) : OutHas Canon (execRor m d a b s) := by
  unfold execRor
  try dsimp only
  with_reducible repeat' (first
    | assumption
    | (refine aluR_wf _ _ _ _ _ _ _ ?_))
theorem execBcmp_wf (m : Bool) (cond : BitVec 4) (a : BitVec 6) (b : BitVec 6) (off : BitVec 32) (s : State) (hs : s.Has Canon) : OutHas Canon (execBcmp m cond a b off s) := by
  unfold execBcmp
  try dsimp only
  with_reducible repeat' (first
    | assumption
    | split
    | (refine Res.Has.has_ok ?_)
    | (refine Res.Has.has_to ?_)
    | (refine issue_wf _ _ _ _ _ _ ?_ ?_)
    | (intro _))
theorem execAddiLit_wf (m : Bool) (d : BitVec 6) (a : BitVec 6) (lit : Word) (s : State) (hs : s.Has Canon) : OutHas Canon (execAddiLit m d a lit s) := by
  unfold execAddiLit
  try dsimp only
  with_reducible repeat' (first
    | assumption
    | (refine aluU_wf _ _ _ _ _ _ _ ?_))
theorem execBltz_wf (m : Bool) (a : BitVec 6) (off : BitVec 13) (s : State) (hs : s.Has Canon) : OutHas Canon (execBltz m a off s) := by
  unfold execBltz
  try dsimp only
  with_reducible repeat' (first
    | assumption
    | (refine branch_wf _ _ _ _ _ _ ?_))
theorem execCall_wf (m : Bool) (off : BitVec 22) (s : State) (hs : s.Has Canon) : OutHas Canon (execCall m off s) := by
  unfold execCall
  try dsimp only
  with_reducible repeat' (first
    | assumption
    | (refine Res.Has.has_to ?_)
    | (refine issue_wf _ _ _ _ _ _ ?_ ?_)
    | (refine Has.upd ?_ (State.wfix_mem _ _ _))
    | (intro _))
theorem execBfx_wf (m : Bool) (d : BitVec 6) (a : BitVec 6) (sx : Bool) (len : BitVec 7) (pos : BitVec 6) (s : State) (hs : s.Has Canon) : OutHas Canon (execBfx m d a sx len pos s) := by
  unfold execBfx
  try dsimp only
  with_reducible repeat' (first
    | assumption
    | (refine aluU_wf _ _ _ _ _ _ _ ?_))
theorem execMinn_wf (m : Bool) (d : BitVec 6) (a : BitVec 6) (b : BitVec 6) (s : State) (hs : s.Has Canon) : OutHas Canon (execMinn m d a b s) := by
  unfold execMinn
  try dsimp only
  with_reducible repeat' (first
    | assumption
    | (refine aluR_wf _ _ _ _ _ _ _ ?_))
theorem csrAcc_wf (i : Instr) (m : Bool) (regs : List Nat) (n : BitVec 12) (body : State → State) (s : State) (hs : s.Has Canon) (h_body : ∀ x0, x0.Has Canon → State.Has Canon (body x0)) : OutHas Canon (csrAcc i m regs n body s) := by
  unfold csrAcc
  try dsimp only
  with_reducible repeat' (first
    | assumption
    | split
    | (apply h_body)
    | (refine Res.Has.has_ok ?_)
    | (refine Res.Has.has_trap ?_)
    | (refine issue_wf _ _ _ _ _ _ ?_ ?_)
    | (intro _))
theorem execClz_wf (m : Bool) (w : BitVec 2) (d : BitVec 6) (a : BitVec 6) (s : State) (hs : s.Has Canon) : OutHas Canon (execClz m w d a s) := by
  unfold execClz
  try dsimp only
  with_reducible repeat' (first
    | assumption
    | (refine aluU_wf _ _ _ _ _ _ _ ?_))
theorem execMul_wf (m : Bool) (d : BitVec 6) (a : BitVec 6) (b : BitVec 6) (s : State) (hs : s.Has Canon) : OutHas Canon (execMul m d a b s) := by
  unfold execMul
  try dsimp only
  with_reducible repeat' (first
    | assumption
    | (refine aluR_wf _ _ _ _ _ _ _ ?_))
theorem execAnd_wf (m : Bool) (d : BitVec 6) (a : BitVec 6) (b : BitVec 6) (s : State) (hs : s.Has Canon) : OutHas Canon (execAnd m d a b s) := by
  unfold execAnd
  try dsimp only
  with_reducible repeat' (first
    | assumption
    | (refine aluR_wf _ _ _ _ _ _ _ ?_))
theorem execSextW_wf (m : Bool) (d : BitVec 6) (a : BitVec 6) (s : State) (hs : s.Has Canon) : OutHas Canon (execSextW m d a s) := by
  unfold execSextW
  try dsimp only
  with_reducible repeat' (first
    | assumption
    | (refine aluU_wf _ _ _ _ _ _ _ ?_))
theorem execMaxn_wf (m : Bool) (d : BitVec 6) (a : BitVec 6) (b : BitVec 6) (s : State) (hs : s.Has Canon) : OutHas Canon (execMaxn m d a b s) := by
  unfold execMaxn
  try dsimp only
  with_reducible repeat' (first
    | assumption
    | (refine aluR_wf _ _ _ _ _ _ _ ?_))
theorem execOrn_wf (m : Bool) (d : BitVec 6) (a : BitVec 6) (b : BitVec 6) (s : State) (hs : s.Has Canon) : OutHas Canon (execOrn m d a b s) := by
  unfold execOrn
  try dsimp only
  with_reducible repeat' (first
    | assumption
    | (refine aluR_wf _ _ _ _ _ _ _ ?_))
theorem execDiv_wf (m : Bool) (d : BitVec 6) (a : BitVec 6) (b : BitVec 6) (s : State) (hs : s.Has Canon) : OutHas Canon (execDiv m d a b s) := by
  unfold execDiv
  try dsimp only
  with_reducible repeat' (first
    | assumption
    | (refine aluR_wf _ _ _ _ _ _ _ ?_))
theorem execRemn_wf (m : Bool) (d : BitVec 6) (a : BitVec 6) (b : BitVec 6) (s : State) (hs : s.Has Canon) : OutHas Canon (execRemn m d a b s) := by
  unfold execRemn
  try dsimp only
  with_reducible repeat' (first
    | assumption
    | (refine aluR_wf _ _ _ _ _ _ _ ?_))
theorem execBr_wf (m : Bool) (off : BitVec 13) (s : State) (hs : s.Has Canon) : OutHas Canon (execBr m off s) := by
  unfold execBr
  try dsimp only
  with_reducible repeat' (first
    | assumption
    | (refine branch_wf _ _ _ _ _ _ ?_))
theorem execSrl_wf (m : Bool) (d : BitVec 6) (a : BitVec 6) (b : BitVec 6) (s : State) (hs : s.Has Canon) : OutHas Canon (execSrl m d a b s) := by
  unfold execSrl
  try dsimp only
  with_reducible repeat' (first
    | assumption
    | (refine aluR_wf _ _ _ _ _ _ _ ?_))
theorem execBgtz_wf (m : Bool) (a : BitVec 6) (off : BitVec 13) (s : State) (hs : s.Has Canon) : OutHas Canon (execBgtz m a off s) := by
  unfold execBgtz
  try dsimp only
  with_reducible repeat' (first
    | assumption
    | (refine branch_wf _ _ _ _ _ _ ?_))
theorem execBnez_wf (m : Bool) (a : BitVec 6) (off : BitVec 13) (s : State) (hs : s.Has Canon) : OutHas Canon (execBnez m a off s) := by
  unfold execBnez
  try dsimp only
  with_reducible repeat' (first
    | assumption
    | (refine branch_wf _ _ _ _ _ _ ?_))
theorem execBfi_wf (m : Bool) (d : BitVec 6) (a : BitVec 6) (len : BitVec 7) (pos : BitVec 6) (s : State) (hs : s.Has Canon) : OutHas Canon (execBfi m d a len pos s) := by
  unfold execBfi
  try dsimp only
  with_reducible repeat' (first
    | assumption
    | (refine Res.Has.has_ok ?_)
    | (refine issue_wf _ _ _ _ _ _ ?_ ?_)
    | (refine Has.upd ?_ (State.wfix_mem _ _ _))
    | (intro _))
theorem execAddi_wf (m : Bool) (d : BitVec 6) (a : BitVec 6) (imm : BitVec 10) (s : State) (hs : s.Has Canon) : OutHas Canon (execAddi m d a imm s) := by
  unfold execAddi
  try dsimp only
  with_reducible repeat' (first
    | assumption
    | (refine aluU_wf _ _ _ _ _ _ _ ?_))
theorem branchP_wf (i : Instr) (m : Bool) (p : BitVec 3) (off : BitVec 13) (t : Word → Bool) (s : State) (hs : s.Has Canon) : OutHas Canon (branchP i m p off t s) := by
  unfold branchP
  try dsimp only
  with_reducible repeat' (first
    | assumption
    | split
    | (refine Res.Has.has_ok ?_)
    | (refine Res.Has.has_to ?_)
    | (refine issue_wf _ _ _ _ _ _ ?_ ?_)
    | (intro _))
theorem jumpTo_wf (i : Instr) (m : Bool) (regs : List Nat) (t : State → Word) (link : Bool) (s : State) (hs : s.Has Canon) : OutHas Canon (jumpTo i m regs t link s) := by
  unfold jumpTo
  try dsimp only
  with_reducible repeat' (first
    | assumption
    | split
    | (refine Res.Has.has_to ?_)
    | (refine Res.Has.has_trap ?_)
    | (refine issue_wf _ _ _ _ _ _ ?_ ?_)
    | (refine Has.upd ?_ (State.wfix_mem _ _ _))
    | (intro _))
theorem execBpany_wf (m : Bool) (p : BitVec 3) (off : BitVec 13) (s : State) (hs : s.Has Canon) : OutHas Canon (execBpany m p off s) := by
  unfold execBpany
  try dsimp only
  with_reducible repeat' (first
    | assumption
    | (refine branchP_wf _ _ _ _ _ _ ?_))
theorem execRol_wf (m : Bool) (d : BitVec 6) (a : BitVec 6) (b : BitVec 6) (s : State) (hs : s.Has Canon) : OutHas Canon (execRol m d a b s) := by
  unfold execRol
  try dsimp only
  with_reducible repeat' (first
    | assumption
    | (refine aluR_wf _ _ _ _ _ _ _ ?_))
theorem execPopc_wf (m : Bool) (w : BitVec 2) (d : BitVec 6) (a : BitVec 6) (s : State) (hs : s.Has Canon) : OutHas Canon (execPopc m w d a s) := by
  unfold execPopc
  try dsimp only
  with_reducible repeat' (first
    | assumption
    | (refine aluU_wf _ _ _ _ _ _ _ ?_))
theorem execRet_wf (m : Bool) (s : State) (hs : s.Has Canon) : OutHas Canon (execRet m s) := by
  unfold execRet
  try dsimp only
  with_reducible repeat' (first
    | assumption
    | (refine jumpTo_wf _ _ _ _ _ _ ?_))
theorem execMin_wf (m : Bool) (d : BitVec 6) (a : BitVec 6) (b : BitVec 6) (s : State) (hs : s.Has Canon) : OutHas Canon (execMin m d a b s) := by
  unfold execMin
  try dsimp only
  with_reducible repeat' (first
    | assumption
    | (refine aluR_wf _ _ _ _ _ _ _ ?_))
theorem execAdpc_wf (m : Bool) (d : BitVec 6) (imm : BitVec 10) (s : State) (hs : s.Has Canon) : OutHas Canon (execAdpc m d imm s) := by
  unfold execAdpc
  try dsimp only
  with_reducible repeat' (first
    | assumption
    | (refine setX_wf _ _ _ _ _ _ ?_))
theorem execZextW_wf (m : Bool) (d : BitVec 6) (a : BitVec 6) (s : State) (hs : s.Has Canon) : OutHas Canon (execZextW m d a s) := by
  unfold execZextW
  try dsimp only
  with_reducible repeat' (first
    | assumption
    | (refine aluU_wf _ _ _ _ _ _ _ ?_))
theorem execAdd_wf (m : Bool) (d : BitVec 6) (a : BitVec 6) (b : BitVec 6) (s : State) (hs : s.Has Canon) : OutHas Canon (execAdd m d a b s) := by
  unfold execAdd
  try dsimp only
  with_reducible repeat' (first
    | assumption
    | (refine aluR_wf _ _ _ _ _ _ _ ?_))
theorem execSlt_wf (m : Bool) (d : BitVec 6) (a : BitVec 6) (b : BitVec 6) (s : State) (hs : s.Has Canon) : OutHas Canon (execSlt m d a b s) := by
  unfold execSlt
  try dsimp only
  with_reducible repeat' (first
    | assumption
    | (refine aluR_wf _ _ _ _ _ _ _ ?_))
theorem execDivn_wf (m : Bool) (d : BitVec 6) (a : BitVec 6) (b : BitVec 6) (s : State) (hs : s.Has Canon) : OutHas Canon (execDivn m d a b s) := by
  unfold execDivn
  try dsimp only
  with_reducible repeat' (first
    | assumption
    | (refine aluR_wf _ _ _ _ _ _ _ ?_))
theorem execSra_wf (m : Bool) (d : BitVec 6) (a : BitVec 6) (b : BitVec 6) (s : State) (hs : s.Has Canon) : OutHas Canon (execSra m d a b s) := by
  unfold execSra
  try dsimp only
  with_reducible repeat' (first
    | assumption
    | (refine aluR_wf _ _ _ _ _ _ _ ?_))
theorem execBpnone_wf (m : Bool) (p : BitVec 3) (off : BitVec 13) (s : State) (hs : s.Has Canon) : OutHas Canon (execBpnone m p off s) := by
  unfold execBpnone
  try dsimp only
  with_reducible repeat' (first
    | assumption
    | (refine branchP_wf _ _ _ _ _ _ ?_))
theorem execXoriLit_wf (m : Bool) (d : BitVec 6) (a : BitVec 6) (lit : Word) (s : State) (hs : s.Has Canon) : OutHas Canon (execXoriLit m d a lit s) := by
  unfold execXoriLit
  try dsimp only
  with_reducible repeat' (first
    | assumption
    | (refine aluU_wf _ _ _ _ _ _ _ ?_))
theorem execCsrr_wf (m : Bool) (d : BitVec 6) (csr : BitVec 12) (s : State) (hs : s.Has Canon) : OutHas Canon (execCsrr m d csr s) := by
  unfold execCsrr
  try dsimp only
  with_reducible repeat' (first
    | assumption
    | (refine csrAcc_wf _ _ _ _ _ _ ?_ ?_)
    | (refine Has.upd ?_ (State.wvar_mem _ _ _))
    | (intro _))
theorem execBrev_wf (m : Bool) (w : BitVec 2) (d : BitVec 6) (a : BitVec 6) (s : State) (hs : s.Has Canon) : OutHas Canon (execBrev m w d a s) := by
  unfold execBrev
  try dsimp only
  with_reducible repeat' (first
    | assumption
    | (refine aluU_wf _ _ _ _ _ _ _ ?_))
theorem execMulhn_wf (m : Bool) (d : BitVec 6) (a : BitVec 6) (b : BitVec 6) (s : State) (hs : s.Has Canon) : OutHas Canon (execMulhn m d a b s) := by
  unfold execMulhn
  try dsimp only
  with_reducible repeat' (first
    | assumption
    | (refine aluR_wf _ _ _ _ _ _ _ ?_))
theorem execCsrx_wf (m : Bool) (d : BitVec 6) (a : BitVec 6) (csr : BitVec 12) (s : State) (hs : s.Has Canon) : OutHas Canon (execCsrx m d a csr s) := by
  unfold execCsrx
  try dsimp only
  with_reducible repeat' (first
    | assumption
    | (refine csrAcc_wf _ _ _ _ _ _ ?_ ?_)
    | (refine Has.upd ?_ (State.wvar_mem _ _ _))
    | (refine Has.upd ?_ (State.setCsr_mem _ _ _))
    | (intro _))
theorem execCsrw_wf (m : Bool) (a : BitVec 6) (csr : BitVec 12) (s : State) (hs : s.Has Canon) : OutHas Canon (execCsrw m a csr s) := by
  unfold execCsrw
  try dsimp only
  with_reducible repeat' (first
    | assumption
    | (refine csrAcc_wf _ _ _ _ _ _ ?_ ?_)
    | (refine Has.upd ?_ (State.setCsr_mem _ _ _))
    | (intro _))
theorem execMax_wf (m : Bool) (d : BitVec 6) (a : BitVec 6) (b : BitVec 6) (s : State) (hs : s.Has Canon) : OutHas Canon (execMax m d a b s) := by
  unfold execMax
  try dsimp only
  with_reducible repeat' (first
    | assumption
    | (refine aluR_wf _ _ _ _ _ _ _ ?_))
theorem execJr_wf (m : Bool) (a : BitVec 6) (s : State) (hs : s.Has Canon) : OutHas Canon (execJr m a s) := by
  unfold execJr
  try dsimp only
  with_reducible repeat' (first
    | assumption
    | (refine jumpTo_wf _ _ _ _ _ _ ?_))
theorem execSlti_wf (m : Bool) (d : BitVec 6) (a : BitVec 6) (imm : BitVec 10) (s : State) (hs : s.Has Canon) : OutHas Canon (execSlti m d a imm s) := by
  unfold execSlti
  try dsimp only
  with_reducible repeat' (first
    | assumption
    | (refine aluU_wf _ _ _ _ _ _ _ ?_))
theorem execZextB_wf (m : Bool) (d : BitVec 6) (a : BitVec 6) (s : State) (hs : s.Has Canon) : OutHas Canon (execZextB m d a s) := by
  unfold execZextB
  try dsimp only
  with_reducible repeat' (first
    | assumption
    | (refine aluU_wf _ _ _ _ _ _ _ ?_))
theorem execSltn_wf (m : Bool) (d : BitVec 6) (a : BitVec 6) (b : BitVec 6) (s : State) (hs : s.Has Canon) : OutHas Canon (execSltn m d a b s) := by
  unfold execSltn
  try dsimp only
  with_reducible repeat' (first
    | assumption
    | (refine aluR_wf _ _ _ _ _ _ _ ?_))
theorem execOriLit_wf (m : Bool) (d : BitVec 6) (a : BitVec 6) (lit : Word) (s : State) (hs : s.Has Canon) : OutHas Canon (execOriLit m d a lit s) := by
  unfold execOriLit
  try dsimp only
  with_reducible repeat' (first
    | assumption
    | (refine aluU_wf _ _ _ _ _ _ _ ?_))
theorem execRem_wf (m : Bool) (d : BitVec 6) (a : BitVec 6) (b : BitVec 6) (s : State) (hs : s.Has Canon) : OutHas Canon (execRem m d a b s) := by
  unfold execRem
  try dsimp only
  with_reducible repeat' (first
    | assumption
    | (refine aluR_wf _ _ _ _ _ _ _ ?_))
theorem execSltiLit_wf (m : Bool) (d : BitVec 6) (a : BitVec 6) (lit : Word) (s : State) (hs : s.Has Canon) : OutHas Canon (execSltiLit m d a lit s) := by
  unfold execSltiLit
  try dsimp only
  with_reducible repeat' (first
    | assumption
    | (refine aluU_wf _ _ _ _ _ _ _ ?_))
theorem execOr_wf (m : Bool) (d : BitVec 6) (a : BitVec 6) (b : BitVec 6) (s : State) (hs : s.Has Canon) : OutHas Canon (execOr m d a b s) := by
  unfold execOr
  try dsimp only
  with_reducible repeat' (first
    | assumption
    | (refine aluR_wf _ _ _ _ _ _ _ ?_))
theorem execXor_wf (m : Bool) (d : BitVec 6) (a : BitVec 6) (b : BitVec 6) (s : State) (hs : s.Has Canon) : OutHas Canon (execXor m d a b s) := by
  unfold execXor
  try dsimp only
  with_reducible repeat' (first
    | assumption
    | (refine aluR_wf _ _ _ _ _ _ _ ?_))
theorem execOri_wf (m : Bool) (d : BitVec 6) (a : BitVec 6) (imm : BitVec 10) (s : State) (hs : s.Has Canon) : OutHas Canon (execOri m d a imm s) := by
  unfold execOri
  try dsimp only
  with_reducible repeat' (first
    | assumption
    | (refine aluU_wf _ _ _ _ _ _ _ ?_))
theorem execSextH_wf (m : Bool) (d : BitVec 6) (a : BitVec 6) (s : State) (hs : s.Has Canon) : OutHas Canon (execSextH m d a s) := by
  unfold execSextH
  try dsimp only
  with_reducible repeat' (first
    | assumption
    | (refine aluU_wf _ _ _ _ _ _ _ ?_))
theorem execZextH_wf (m : Bool) (d : BitVec 6) (a : BitVec 6) (s : State) (hs : s.Has Canon) : OutHas Canon (execZextH m d a s) := by
  unfold execZextH
  try dsimp only
  with_reducible repeat' (first
    | assumption
    | (refine aluU_wf _ _ _ _ _ _ _ ?_))
theorem execSll_wf (m : Bool) (d : BitVec 6) (a : BitVec 6) (b : BitVec 6) (s : State) (hs : s.Has Canon) : OutHas Canon (execSll m d a b s) := by
  unfold execSll
  try dsimp only
  with_reducible repeat' (first
    | assumption
    | (refine aluR_wf _ _ _ _ _ _ _ ?_))
theorem execSlli_wf (m : Bool) (d : BitVec 6) (a : BitVec 6) (amt : BitVec 6) (s : State) (hs : s.Has Canon) : OutHas Canon (execSlli m d a amt s) := by
  unfold execSlli
  try dsimp only
  with_reducible repeat' (first
    | assumption
    | (refine aluU_wf _ _ _ _ _ _ _ ?_))
theorem execCallr_wf (m : Bool) (a : BitVec 6) (s : State) (hs : s.Has Canon) : OutHas Canon (execCallr m a s) := by
  unfold execCallr
  try dsimp only
  with_reducible repeat' (first
    | assumption
    | (refine jumpTo_wf _ _ _ _ _ _ ?_))
theorem execXori_wf (m : Bool) (d : BitVec 6) (a : BitVec 6) (imm : BitVec 10) (s : State) (hs : s.Has Canon) : OutHas Canon (execXori m d a imm s) := by
  unfold execXori
  try dsimp only
  with_reducible repeat' (first
    | assumption
    | (refine aluU_wf _ _ _ _ _ _ _ ?_))
theorem execAndiLit_wf (m : Bool) (d : BitVec 6) (a : BitVec 6) (lit : Word) (s : State) (hs : s.Has Canon) : OutHas Canon (execAndiLit m d a lit s) := by
  unfold execAndiLit
  try dsimp only
  with_reducible repeat' (first
    | assumption
    | (refine aluU_wf _ _ _ _ _ _ _ ?_))
theorem execSrai_wf (m : Bool) (d : BitVec 6) (a : BitVec 6) (amt : BitVec 6) (s : State) (hs : s.Has Canon) : OutHas Canon (execSrai m d a amt s) := by
  unfold execSrai
  try dsimp only
  with_reducible repeat' (first
    | assumption
    | (refine aluU_wf _ _ _ _ _ _ _ ?_))
theorem execAndi_wf (m : Bool) (d : BitVec 6) (a : BitVec 6) (imm : BitVec 10) (s : State) (hs : s.Has Canon) : OutHas Canon (execAndi m d a imm s) := by
  unfold execAndi
  try dsimp only
  with_reducible repeat' (first
    | assumption
    | (refine aluU_wf _ _ _ _ _ _ _ ?_))
theorem execSextB_wf (m : Bool) (d : BitVec 6) (a : BitVec 6) (s : State) (hs : s.Has Canon) : OutHas Canon (execSextB m d a s) := by
  unfold execSextB
  try dsimp only
  with_reducible repeat' (first
    | assumption
    | (refine aluU_wf _ _ _ _ _ _ _ ?_))
theorem execSub_wf (m : Bool) (d : BitVec 6) (a : BitVec 6) (b : BitVec 6) (s : State) (hs : s.Has Canon) : OutHas Canon (execSub m d a b s) := by
  unfold execSub
  try dsimp only
  with_reducible repeat' (first
    | assumption
    | (refine aluR_wf _ _ _ _ _ _ _ ?_))
theorem execFfs_wf (m : Bool) (w : BitVec 2) (d : BitVec 6) (a : BitVec 6) (s : State) (hs : s.Has Canon) : OutHas Canon (execFfs m w d a s) := by
  unfold execFfs
  try dsimp only
  with_reducible repeat' (first
    | assumption
    | (refine aluU_wf _ _ _ _ _ _ _ ?_))
/-! ### Mem -/

theorem State.openEpoch_mem (s : State) (t : Nat) : (State.openEpoch s t).mem = s.mem := rfl
theorem State.learns_mem (s : State) (t : Nat) : (State.learns s t).mem = s.mem := rfl
theorem State.needWalk_wf {P : List Host.Cell → Prop} (s : State) (va : Nat) (kind : Nat) (needs : Bool × Bool × Bool) (hs : s.Has P) : Res.Has P (State.needWalk s va kind needs) := by
  unfold State.needWalk
  try dsimp only
  with_reducible repeat' (first
    | assumption
    | split
    | (refine Res.Has.has_trap ?_)
    | (refine Res.Has.has_hold ?_)
    | (refine Has.upd ?_ (State.dropAns_mem _ _ _ _))
    | (refine Has.upd ?_ (State.startWalk_mem _ _ _ _ _ _ _)))
theorem State.relHold_wf {P : List Host.Cell → Prop} (s : State) (hs : s.Has P) : Res.Has P (State.relHold s) := by
  unfold State.relHold
  try dsimp only
  with_reducible repeat' (first
    | assumption
    | split
    | (refine Res.Has.has_trap ?_)
    | (refine Res.Has.has_hold ?_)
    | (refine Has.upd ?_ (State.updCur_mem _ _)))
theorem State.parkSlog_wf {P : List Host.Cell → Prop} (s : State) (as : List Nat) (hs : s.Has P) : Res.Has P (State.parkSlog s as) := by
  unfold State.parkSlog
  try dsimp only
  with_reducible repeat' (first
    | assumption
    | (refine Res.Has.has_hold ?_)
    | (refine Has.upd ?_ (State.updCur_mem _ _)))
theorem State.waitFar_wf {P : List Host.Cell → Prop} (s : State) (pa : Nat) (va : Nat) (h : Hold) (hs : s.Has P) : Res.Has P (State.waitFar s pa va h) := by
  unfold State.waitFar
  try dsimp only
  with_reducible repeat' (first
    | assumption
    | (refine Res.Has.has_hold ?_)
    | (refine Has.upd ?_ (State.updCur_mem _ _)))
theorem State.remoteStop_wf {P : List Host.Cell → Prop} (s : State) (pa va : Nat) (amo rel : Bool) {r : Res}
    (e : s.remoteStop pa va amo rel = some r) (h : s.Has P) : r.Has P := by
  unfold State.remoteStop at e
  split at e
  · cases e
  split at e
  · split at e
    · cases e
    · cases e; exact State.waitFar_wf _ _ _ _ h
  · cases e
    refine State.waitFar_wf _ _ _ _ ?_
    have h := Has.upd h (State.flits_mem _ (pkgOf pa) 1)
    cases amo <;> cases rel <;> exact ⟨h.of⟩
theorem State.runFar_wf {P : List Host.Cell → Prop} (s : State) (ps : List (Nat × Place)) {r : Res} (e : s.runFar ps = some r) (h : s.Has P) :
    r.Has P := by
  unfold State.runFar at e
  obtain ⟨p, -, hp⟩ := List.exists_of_findSome?_eq_some e
  split at hp
  · exact State.remoteStop_wf _ _ _ _ _ hp h
  · cases hp
theorem State.used_mem (s : State) (va : Nat) (wr : Bool) : (State.used s va wr).mem = s.mem := by
  unfold State.used
  split <;> simp [State.markAD_mem]
theorem State.storeMem_wf (s : State) (i : Instr) (va pa : Nat) (l : List (BitVec 8)) (w : Word) (off : Option Nat) (rel ar : Bool)
    (log : Option (Got Unit)) (hl : ∀ g, log = some g → Got.Has Canon g) (hs : s.Has Canon) :
    Got.Has Canon (State.storeMem s i va pa l w off rel ar log) := by
  unfold State.storeMem
  cases log <;> dsimp only [Option.isSome, Option.getD]
  all_goals with_reducible repeat' (first
    | assumption
    | exact hl _ rfl
    | split
    | (refine Got.Has.has_got ?_)
    | (refine Got.Has.has_stop ?_)
    | (refine Res.Has.has_trap ?_)
    | (refine Res.Has.has_hold ?_)
    | (refine Has.upd ?_ (State.used_mem _ _ _))
    | (refine Has.upd ?_ (State.openEpoch_mem _ _))
    | (refine State.put_wf _ _ _ _ _ _ _ _ ?_)
    | (refine State.waitFar_wf _ _ _ _ ?_)
    | (refine Has.upd ?_ (State.updCur_mem _ _)))
theorem State.loadMem_wf {P : List Host.Cell → Prop} (s : State) (va pa n : Nat) (w : Word) (off : Option Nat) (hs : s.Has P) :
    Got.Has P (State.loadMem s va pa n w off) := by
  unfold State.loadMem
  split
  · exact .has_stop (.has_trap hs)
  split
  · exact .has_stop (.has_hold hs)
  split
  · rename_i q; exact .has_stop (State.remoteStop_wf _ _ _ _ _ q hs)
  · dsimp only
    split
    · exact .has_stop (.has_trap hs)
    · exact .has_got (Has.upd hs (State.used_mem _ _ _))
theorem State.enterSlog_wf {P : List Host.Cell → Prop} (s : State) (k : Nat) (f : Nat) (va : Nat) (size : Nat) (bytes : List (Nat × BitVec 8)) (g : LogAs) (hs : s.Has P) : OptHas P (State.enterSlog s k f va size bytes g) := by
  unfold State.enterSlog
  try dsimp only
  with_reducible repeat' (first
    | assumption
    | (refine Has.foldl _ ?_ ?_)
    | split
    | (refine OptHas.has_some ?_)
    | exact OptHas.has_none
    | (refine Has.upd ?_ (State.setCore_mem _ _ _))
    | (refine Has.upd ?_ (State.startWalk_mem _ _ _ _ _ _ _))
    | (intro _))
theorem State.logOrWalk_wf {P : List Host.Cell → Prop} (s : State) (va : Nat) (size : Nat) (bytes : List (Nat × BitVec 8)) (g : LogAs) (hs : s.Has P) : Got.Has P (State.logOrWalk s va size bytes g) := by
  unfold State.logOrWalk
  try dsimp only
  with_reducible repeat' (first
    | assumption
    | split
    | (refine Got.Has.has_got ?_)
    | (refine Got.Has.has_stop ?_)
    | (refine Res.Has.has_hold ?_)
    | (refine State.needWalk_wf _ _ _ _ ?_)
    | (refine OptHas.some_has (by assumption) (State.enterSlog_wf _ _ _ _ _ _ _ ?_)))
theorem State.atomic_wf {α : Type} (s : State) (i : Instr) (ea : Word) (n : Nat) (o : AmoOrd) (g : Nat → Option Nat × α) (hs : s.Has Canon) : Got.Has Canon (State.atomic s i ea n o g) := by
  unfold State.atomic
  split
  · split
    · exact .has_stop (.has_hold hs)
    · exact .has_got hs
  dsimp only
  with_reducible repeat' (first
    | assumption
    | (refine Got.Has.ite ?_ ?_)
    | split
    | (refine Got.Has.has_got ?_)
    | (refine Got.Has.has_stop ?_)
    | (refine Got.bind_has ?_ ?_)
    | (refine Res.Has.has_ok ?_)
    | (refine Res.Has.has_to ?_)
    | (refine Res.Has.has_trap ?_)
    | (refine Res.Has.has_hold ?_)
    | (refine Res.Has.has_gone ?_)
    | (exact State.remoteStop_wf _ _ _ _ _ (by assumption) (by assumption))
    | (refine Has.upd ?_ (State.learns_mem _ _))
    | (refine State.relHold_wf _ ?_)
    | (refine State.parkSlog_wf _ _ ?_)
    | (refine State.needWalk_wf _ _ _ _ ?_)
    | (refine Has.upd ?_ (State.openEpoch_mem _ _))
    | (refine Has.upd ?_ (State.used_mem _ _ _))
    | (refine State.unitStore_wf _ _ _ ?_)
    | (refine State.put_wf _ _ _ _ _ _ _ _ ?_)
    | (refine Has.upd ?_ (State.updCur_mem _ _))
    | (refine Has.foldl _ ?_ ?_)
    | (refine State.Has.mk ?_; dsimp only; refine State.Has.of ?_)
    | (intro _))
theorem State.storeAt_wf (s : State) (i : Instr) (ea : Word) (l : List (BitVec 8)) (rel : Bool) (ar : Bool) (regs : State → Nat → List (BitVec 8) → Got Unit) (hs : s.Has Canon) (h_regs : ∀ x0 x1 x2, x0.Has Canon → Got.Has Canon (regs x0 x1 x2)) : Got.Has Canon (State.storeAt s i ea l rel ar regs) := by
  have hlog : Got.Has Canon ((s.logOrWalk ea.toNat l.length (enum l) { unit := l.length, rel := rel }).bind fun s _ =>
      if ar then .stop (.hold (s.updCur fun r => { r with saved := [10] }) .slog) else .got s ()) := by
    refine Got.bind_has (State.logOrWalk_wf _ _ _ _ _ hs) fun t _ ht => ?_
    split
    · exact .has_stop (.has_hold (Has.upd ht (State.updCur_mem _ _)))
    · exact .has_got ht
  unfold State.storeAt
  extract_lets va log hit pl
  change Got.Has Canon log at hlog
  have hhit : ∀ g, hit = some g → Got.Has Canon g := by
    intro g e
    dsimp only [hit] at e
    split at e <;> cases e
    exact hlog
  clear_value pl log hit va
  split
  · exact .has_stop (.has_hold hs)
  · exact .has_got hs
  refine Got.Has.ite (.has_stop (.has_hold hs)) ?_
  split
  · exact .has_stop (.has_trap hs)
  refine Got.Has.ite (.has_stop (State.relHold_wf _ hs)) (Got.Has.ite (.has_stop (.has_hold hs)) ?_)
  cases pl
  · exact State.storeMem_wf _ _ _ _ _ _ _ _ _ _ hhit hs
  · refine Got.Has.ite (.has_stop (.has_trap hs)) (Got.Has.ite hlog (Got.Has.ite ?_ (Got.Has.ite (.has_stop (State.relHold_wf _ hs)) ?_)))
    · exact State.storeMem_wf _ _ _ _ _ _ _ _ _ _ (fun _ e => nomatch e) hs
    · exact h_regs _ _ _ (Has.upd hs (State.used_mem _ _ _))
  · exact .has_stop (.has_trap hs)
  · exact hlog
  · exact hlog
theorem State.putEl_wf (s : State) (k : Nat) (f : Nat) (ctx : Nat) (a : Nat) (l : List (BitVec 8)) (hs : s.Has Canon) : State.Has Canon (State.putEl s k f ctx a l) := by
  unfold State.putEl
  try dsimp only
  with_reducible repeat' (first
    | assumption
    | split
    | (refine Has.upd ?_ (State.markAD_mem _ _ _ _ _))
    | (refine State.put_wf _ _ _ _ _ _ _ _ ?_))
theorem State.load_wf {P : List Host.Cell → Prop} (s : State) (i : Instr) (ea : Word) (n : Nat) (kind : Nat) (regs : State → Nat → Nat → Got Nat) (hs : s.Has P) (h_regs : ∀ x0 x1 x2, x0.Has P → Got.Has P (regs x0 x1 x2)) : Got.Has P (State.load s i ea n kind regs) := by
  unfold State.load
  try dsimp only
  with_reducible repeat' (first
    | assumption
    | split
    | (apply h_regs)
    | (refine Got.Has.has_stop ?_)
    | (refine Res.Has.has_trap ?_)
    | (refine Res.Has.has_hold ?_)
    | (exact State.remoteStop_wf _ _ _ _ _ (by assumption) (by assumption))
    | (refine State.parkSlog_wf _ _ ?_)
    | (refine State.needWalk_wf _ _ _ _ ?_)
    | (refine Has.upd ?_ (State.used_mem _ _ _))
    | (refine State.loadMem_wf _ _ _ _ _ _ ?_))
theorem State.putAll_wf (s : State) (k f ctx : Nat) (u : Nat) (bytes : List (Nat × BitVec 8)) (hs : s.Has Canon) : State.Has Canon (State.putAll s k f ctx u bytes) := by
  unfold State.putAll
  try dsimp only
  with_reducible repeat' (first
    | assumption
    | split
    | (refine State.putEl_wf _ _ _ _ _ _ ?_)
    | (refine Has.upd ?_ (State.heal_mem _ _))
    | (refine Has.foldl _ ?_ ?_)
    | (refine State.Has.mk ?_; dsimp only; refine State.Has.of ?_)
    | (intro _))
theorem State.loadRun_wf {P : List Host.Cell → Prop} (s : State) (i : Instr) (ea : Word) (as : List Nat) (al len kind : Nat) (sp : Straddle)
    (rd : State → Nat → BitVec 8) (hs : s.Has P) : Got.Has P (State.loadRun s i ea as al len kind sp rd) := by
  unfold State.loadRun
  split
  · exact .has_stop (.has_hold hs)
  split
  · exact .has_stop (.has_trap hs)
  split
  · exact .has_stop (State.parkSlog_wf _ _ hs)
  split
  · exact .has_stop (.has_hold hs)
  split
  · exact .has_stop (.has_trap hs)
  split
  · exact .has_stop (State.needWalk_wf _ _ _ _ hs)
  split
  · exact .has_stop (.has_trap hs)
  split
  · exact .has_stop (.has_hold hs)
  split
  · rename_i q; exact .has_stop (State.runFar_wf _ _ q hs)
  split
  · exact .has_stop (.has_trap hs)
  exact .has_got (Has.foldl _ hs fun _ _ h => Has.upd h (State.used_mem _ _ _))
theorem State.violate_wf (s : State) (k ctx va pa : Nat) (hs : s.Has Canon) : State.Has Canon (State.violate s k ctx va pa).1 := by
  unfold State.violate
  try dsimp only
  with_reducible repeat' (first
    | assumption
    | split
    | (refine State.freeze_wf _ _ _ _ ?_)
    | (refine Has.foldl _ ?_ ?_)
    | (refine State.Has.mk ?_; dsimp only; refine State.Has.of ?_)
    | (intro _))
theorem State.storeRun_wf (s : State) (i : Instr) (ea : Word) (u : Nat) (bytes : List (Nat × BitVec 8)) (al len : Nat) (sp : Straddle) (hs : s.Has Canon) : Got.Has Canon (State.storeRun s i ea u bytes al len sp) := by
  unfold State.storeRun
  try dsimp only
  with_reducible repeat' (first
    | assumption
    | split
    | (refine Got.Has.has_got ?_)
    | (refine Got.Has.has_stop ?_)
    | (refine Got.bind_has ?_ ?_)
    | (refine Res.Has.has_ok ?_)
    | (refine Res.Has.has_to ?_)
    | (refine Res.Has.has_trap ?_)
    | (refine Res.Has.has_hold ?_)
    | (refine Res.Has.has_gone ?_)
    | (refine State.logOrWalk_wf _ _ _ _ _ ?_)
    | (refine Got.got_has (by assumption) (State.logOrWalk_wf _ _ _ _ _ ?_))
    | (refine Got.stop_has (by assumption) (State.logOrWalk_wf _ _ _ _ _ ?_))
    | (refine State.needWalk_wf _ _ _ _ ?_)
    | (refine State.violate_wf _ _ _ _ _ ?_)
    | (refine State.putAll_wf _ _ _ _ _ _ ?_)
    | (refine Has.foldl _ ?_ ?_)
    | (refine State.Has.mk ?_; dsimp only; refine State.Has.of ?_)
    | (intro _))
/-! ### Commands -/

theorem State.accept_mem (s : State) (k : Nat) (cp : Bool) (m : Cmd) : (State.accept s k cp m).mem = s.mem := by
  refine Has.eq fun P h => ?_
  unfold State.accept
  try dsimp only
  with_reducible repeat' (first
    | assumption
    | split
    | (refine Has.upd ?_ (State.setCore_mem _ _ _))
    | (refine Has.upd ?_ (State.updFr_mem _ _ _ _)))
theorem State.acceptMm_mem (s : State) (k : Nat) (cp : Bool) (op : Nat) (ws : List Word) : (State.acceptMm s k cp op ws).mem = s.mem := by
  refine Has.eq fun P h => ?_
  unfold State.acceptMm
  try dsimp only
  with_reducible repeat' (first
    | assumption
    | split
    | (refine Has.upd ?_ (State.accept_mem _ _ _ _)))
theorem State.heldGo_mem (s : State) (k : Nat) (cp : Bool) : (State.heldGo s k cp).mem = s.mem := by
  refine Has.eq fun P h => ?_
  unfold State.heldGo
  try dsimp only
  with_reducible repeat' (first
    | assumption
    | split
    | (refine Has.upd ?_ (State.acceptMm_mem _ _ _ _ _))
    | (refine Has.upd ?_ (State.setCore_mem _ _ _)))
theorem State.engineReg_mem (s : State) (k : Nat) (off : Nat) (v : Word) (core : Nat) (frame : Nat) : (State.engineReg s k off v core frame).mem = s.mem := by
  refine Has.eq fun P h => ?_
  unfold State.engineReg
  try dsimp only
  with_reducible repeat' (first
    | assumption
    | (refine Has.upd ?_ (State.heldGo_mem _ _ _))
    | (refine Has.upd ?_ (State.updCore_mem _ _ _)))
/-! ### Pages -/

theorem State.setUq_mem (s : State) (d : Nat) (q : Nat) (v : UQueue) : (State.setUq s d q v).mem = s.mem := rfl
theorem regLoad_wf {P : List Host.Cell → Prop} (s : State) (pa : Nat) (n : Nat) (hs : s.Has P) : Got.Has P (regLoad s pa n) := by
  unfold regLoad
  try dsimp only
  with_reducible repeat' (first
    | assumption
    | split
    | (refine Got.Has.has_got ?_)
    | (refine Has.upd ?_ (State.ticked_mem _)))
theorem State.queueErr_wf (s : State) (d : Nat) (q : Nat) (hs : s.Has Canon) : State.Has Canon (State.queueErr s d q) := by
  unfold State.queueErr
  try dsimp only
  with_reducible repeat' (first
    | assumption
    | (refine State.guilt_wf _ _ _ ?_)
    | (refine Has.upd ?_ (State.setUq_mem _ _ _ _)))
theorem State.bellPost_wf (s : State) (d : Nat) (hs : s.Has Canon) : State.Has Canon (State.bellPost s d) :=
  State.Has.mk (State.post_wf _ _ _ _ _ _ hs).of
theorem State.ringBell_wf (s : State) (d q v : Nat) (driver : Bool) (hs : s.Has Canon) : State.Has Canon (State.ringBell s d q v driver) := by
  unfold State.ringBell
  try dsimp only
  with_reducible repeat' (first
    | assumption
    | split
    | (refine State.bellPost_wf _ _ ?_)
    | (refine Has.upd ?_ (State.setUq_mem _ _ _ _))
    | (refine State.queueErr_wf _ _ _ ?_)
    | (refine Has.foldl _ ?_ ?_)
    | (refine State.Has.mk ?_; dsimp only; refine State.Has.of ?_)
    | (intro _))
theorem State.regPut_wf (s : State) (k f ctx va pa : Nat) (l : List (BitVec 8)) (hs : s.Has Canon) : (s.regPut k f ctx va pa l).1.Has Canon := by
  unfold State.regPut
  extract_lets o d r n j v
  clear_value o d r n j v
  split
  · exact State.violate_wf _ _ _ va pa hs
  split
  · exact hs
  split
  · split
    · exact hs
    split
    · exact Has.upd hs (State.engineReg_mem _ _ _ _ _ _)
    · exact Has.upd hs rfl
  · split
    · exact State.ringBell_wf _ _ _ _ _ hs
    · exact hs
  · exact hs
theorem regStore_wf (va : Nat) (s : State) (pa : Nat) (l : List (BitVec 8)) (hs : s.Has Canon) : Got.Has Canon (regStore va s pa l) := by
  have h := State.regPut_wf s s.turn s.fi s.myCore.ctxid va pa l hs
  unfold regStore
  generalize s.regPut s.turn s.fi s.myCore.ctxid va pa l = x at h ⊢
  match x, h with
  | (_, none), h => exact .has_got h
  | (_, some _), h => exact .has_stop (.has_trap h)
/-! ### Replay -/

theorem State.slogWalks_mem (s : State) (k : Nat) : (State.slogWalks s k).mem = s.mem := by
  refine Has.eq fun P h => ?_
  unfold State.slogWalks
  try dsimp only
  with_reducible repeat' (first
    | assumption
    | (refine Has.foldl _ ?_ ?_)
    | split
    | (refine Has.upd ?_ (State.startWalk_mem _ _ _ _ _ _ _))
    | (intro _))
theorem State.slogPut_wf (s : State) (k : Nat) (e : SlogE) (hs : s.Has Canon) : State.Has Canon (State.slogPut s k e) := by
  unfold State.slogPut
  try dsimp only
  with_reducible repeat' (first
    | assumption
    | split
    | (refine Has.upd ?_ (State.markAD_mem _ _ _ _ _))
    | (refine State.put_wf _ _ _ _ _ _ _ _ ?_)
    | (refine Has.fst (by assumption) (State.regPut_wf _ _ _ _ _ _ _ ?_))
    | (refine State.stopFiring_wf _ _ _ _ ?_)
    | (refine State.putAll_wf _ _ _ _ _ _ ?_))
theorem State.slogReplay_wf (s : State) (k n : Nat) (hs : s.Has Canon) : State.Has Canon (State.slogReplay s k n) := by
  induction n generalizing s with
  | zero => exact Has.upd hs (State.slogWalks_mem _ _)
  | succ n ih =>
    unfold State.slogReplay
    dsimp only
    split
    · exact Has.upd hs (State.slogWalks_mem _ _)
    · split
      · exact ih _ (State.slogFail_wf _ _ _ _ hs)
      · refine ih _ (Has.upd (State.slogPut_wf _ _ _ ?_) (State.wakeSlog_mem _ _))
        exact Has.upd hs rfl
theorem State.replay_wf (s : State) (k : Nat) (hs : s.Has Canon) : State.Has Canon (State.replay s k) := by
  unfold State.replay
  try dsimp only
  with_reducible repeat' (first
    | assumption
    | (refine State.slogReplay_wf _ _ _ ?_))
theorem State.walkYes_wf (s : State) (w : Walk) (e : Word) (hs : s.Has Canon) : State.Has Canon (State.walkYes s w e) := by
  unfold State.walkYes
  try dsimp only
  with_reducible repeat' (first
    | assumption
    | split
    | (refine State.walkNo_wf _ _ _ ?_)
    | (refine Has.upd ?_ (State.updFr_mem _ _ _ _))
    | (refine State.replay_wf _ _ ?_)
    | (refine State.Has.mk ?_; dsimp only; refine State.Has.of ?_))
theorem State.mailbox_wf (s : State) (k : Nat) (who : Issuer) (va : Nat) (v : Word) (hs : s.Has Canon) : State.Has Canon (State.mailbox s k who va v) := by
  unfold State.mailbox
  try dsimp only
  with_reducible repeat' (first
    | assumption
    | split
    | (refine State.put_wf _ _ _ _ _ _ _ _ ?_)
    | (refine Has.upd ?_ (State.markAD_mem _ _ _ _ _))
    | (refine State.replay_wf _ _ ?_)
    | (refine Has.upd ?_ (State.setCore_mem _ _ _)))
theorem State.finishCmd_wf (s : State) (k : Nat) (cp : Bool) (m : Cmd) (prog : Nat) (flags : Nat) (code : Nat) (span : Nat) (hs : s.Has Canon) : State.Has Canon (State.finishCmd s k cp m prog flags code span) := by
  unfold State.finishCmd
  try dsimp only
  with_reducible repeat' (first
    | assumption
    | split
    | (refine State.mailbox_wf _ _ _ _ _ ?_)
    | (refine Has.upd ?_ (State.setCore_mem _ _ _))
    | (refine State.wake_wf _ _ _ ?_)
    | (refine Has.upd ?_ (State.updFr_mem _ _ _ _))
    | (refine State.cellFail_wf _ _ _ _ ?_))
/-! ### Access -/

theorem execJtab_wf (m : Bool) (a : BitVec 6) (b : BitVec 6) (len : BitVec 16) (s : State) (hs : s.Has Canon) : OutHas Canon (execJtab m a b len s) := by
  unfold execJtab
  try dsimp only
  with_reducible repeat' (first
    | assumption
    | (refine Got.res_has ?_ ?_)
    | split
    | (refine Res.Has.has_ok ?_)
    | (refine Res.Has.has_to ?_)
    | (refine Res.Has.has_trap ?_)
    | (refine issue_wf _ _ _ _ _ _ ?_ ?_)
    | (refine State.load_wf _ _ _ _ _ _ ?_ ?_)
    | (refine regLoad_wf _ _ _ ?_)
    | (intro _))
theorem loadI_wf (i : Instr) (m : Bool) (len : Nat) (t : BitVec 6) (a : BitVec 6) (size : BitVec 2) (ord : BitVec 2) (off : Word) (sx : Bool) (s : State) (hs : s.Has Canon) : OutHas Canon (loadI i m len t a size ord off sx s) := by
  unfold loadI
  try dsimp only
  with_reducible repeat' (first
    | assumption
    | (refine Got.res_has ?_ ?_)
    | split
    | (refine Res.Has.has_ok ?_)
    | (refine Res.Has.has_trap ?_)
    | (refine issue_wf _ _ _ _ _ _ ?_ ?_)
    | (refine State.relHold_wf _ ?_)
    | (refine State.load_wf _ _ _ _ _ _ ?_ ?_)
    | (refine regLoad_wf _ _ _ ?_)
    | (refine Has.upd ?_ (State.wvar_mem _ _ _))
    | (intro _))
theorem execLdz_wf (m : Bool) (t : BitVec 6) (a : BitVec 6) (size : BitVec 2) (ord : BitVec 2) (off : BitVec 6) (s : State) (hs : s.Has Canon) : OutHas Canon (execLdz m t a size ord off s) := by
  unfold execLdz
  try dsimp only
  with_reducible repeat' (first
    | assumption
    | (refine loadI_wf _ _ _ _ _ _ _ _ _ _ ?_))
theorem prefI_wf (i : Instr) (m : Bool) (len : Nat) (a : BitVec 6) (size : BitVec 2) (off : Word) (s : State) (hs : s.Has Canon) : OutHas Canon (prefI i m len a size off s) := by
  unfold prefI
  try dsimp only
  with_reducible repeat' (first
    | assumption
    | split
    | (refine Res.Has.has_ok ?_)
    | (refine issue_wf _ _ _ _ _ _ ?_ ?_)
    | (refine Has.upd ?_ (State.updMine_mem _ _))
    | (refine Has.upd ?_ (State.ticked_mem _))
    | (intro _))
theorem storeI_wf (i : Instr) (m : Bool) (len : Nat) (t : BitVec 6) (a : BitVec 6) (size : BitVec 2) (ord : BitVec 2) (off : Word) (s : State) (hs : s.Has Canon) : OutHas Canon (storeI i m len t a size ord off s) := by
  unfold storeI
  try dsimp only
  with_reducible repeat' (first
    | assumption
    | (refine Got.res_has ?_ ?_)
    | split
    | (refine Res.Has.has_ok ?_)
    | (refine Res.Has.has_trap ?_)
    | (refine issue_wf _ _ _ _ _ _ ?_ ?_)
    | (refine State.storeAt_wf _ _ _ _ _ _ _ ?_ ?_)
    | (refine regStore_wf _ _ _ _ ?_)
    | (intro _))
theorem execPrefLit_wf (m : Bool) (a : BitVec 6) (size : BitVec 2) (lit : Word) (s : State) (hs : s.Has Canon) : OutHas Canon (execPrefLit m a size lit s) := by
  unfold execPrefLit
  try dsimp only
  with_reducible repeat' (first
    | assumption
    | (refine prefI_wf _ _ _ _ _ _ _ ?_))
theorem execLdLit_wf (m : Bool) (t : BitVec 6) (a : BitVec 6) (size : BitVec 2) (ord : BitVec 2) (lit : Word) (s : State) (hs : s.Has Canon) : OutHas Canon (execLdLit m t a size ord lit s) := by
  unfold execLdLit
  try dsimp only
  with_reducible repeat' (first
    | assumption
    | (refine loadI_wf _ _ _ _ _ _ _ _ _ _ ?_))
theorem execStLit_wf (m : Bool) (t : BitVec 6) (a : BitVec 6) (size : BitVec 2) (ord : BitVec 2) (lit : Word) (s : State) (hs : s.Has Canon) : OutHas Canon (execStLit m t a size ord lit s) := by
  unfold execStLit
  try dsimp only
  with_reducible repeat' (first
    | assumption
    | (refine storeI_wf _ _ _ _ _ _ _ _ _ ?_))
theorem execSt_wf (m : Bool) (t : BitVec 6) (a : BitVec 6) (size : BitVec 2) (ord : BitVec 2) (off : BitVec 6) (s : State) (hs : s.Has Canon) : OutHas Canon (execSt m t a size ord off s) := by
  unfold execSt
  try dsimp only
  with_reducible repeat' (first
    | assumption
    | (refine storeI_wf _ _ _ _ _ _ _ _ _ ?_))
theorem execPref_wf (m : Bool) (a : BitVec 6) (size : BitVec 2) (off : BitVec 6) (s : State) (hs : s.Has Canon) : OutHas Canon (execPref m a size off s) := by
  unfold execPref
  try dsimp only
  with_reducible repeat' (first
    | assumption
    | (refine prefI_wf _ _ _ _ _ _ _ ?_))
theorem execLd_wf (m : Bool) (t : BitVec 6) (a : BitVec 6) (size : BitVec 2) (ord : BitVec 2) (off : BitVec 6) (s : State) (hs : s.Has Canon) : OutHas Canon (execLd m t a size ord off s) := by
  unfold execLd
  try dsimp only
  with_reducible repeat' (first
    | assumption
    | (refine loadI_wf _ _ _ _ _ _ _ _ _ _ ?_))
theorem execLdzLit_wf (m : Bool) (t : BitVec 6) (a : BitVec 6) (size : BitVec 2) (ord : BitVec 2) (lit : Word) (s : State) (hs : s.Has Canon) : OutHas Canon (execLdzLit m t a size ord lit s) := by
  unfold execLdzLit
  try dsimp only
  with_reducible repeat' (first
    | assumption
    | (refine loadI_wf _ _ _ _ _ _ _ _ _ _ ?_))
/-! ### Squarer -/

theorem State.setTile_wf (s : State) (k : Nat) (t : Nat) (l : List Nat) (hs : s.Has Canon) : State.Has Canon (State.setTile s k t l) := by
  unfold State.setTile
  try dsimp only
  with_reducible repeat' (first
    | assumption
    | (refine State.poolStore_wf _ _ _ _ ?_))
theorem State.drainEl_wf (s : State) (k : Nat) (m : Cmd) (tag : Nat) (l : List Nat) (i : Nat) (j : Nat) (hs : s.Has Canon) : (State.drainEl s k m tag l i j).1.Has Canon := by
  unfold State.drainEl
  try dsimp only
  with_reducible repeat' (first
    | assumption
    | (refine Has.foldl _ ?_ ?_)
    | (refine State.poolStore_wf _ _ _ _ ?_)
    | (intro _))
theorem State.runClr_wf (s : State) (k : Nat) (m : Cmd) (hs : s.Has Canon) : (State.runClr s k m).1.Has Canon := by
  unfold State.runClr
  try dsimp only
  with_reducible repeat' (first
    | assumption
    | (refine Has.upd ?_ (State.updCore_mem _ _ _))
    | (refine State.setTile_wf _ _ _ _ ?_))
theorem State.runDrn_wf (s : State) (k : Nat) (m : Cmd) (hs : s.Has Canon) : State.Has Canon (State.runDrn s k m).1 := by
  unfold State.runDrn
  extract_lets r t tag l
  split
  · exact hs
  split
  · exact State.poolStore_wf _ _ _ _ hs
  split
  · exact hs
  have hf : ∀ (rows cols : Nat), State.Has Canon ((List.range (rows * cols)).foldl (fun (z : State × Nat) n =>
      let (s, f) := z.1.drainEl k m tag l (n / cols) (n % cols)
      (s, z.2 ||| f)) (s, 0)).1 := by
    intro rows cols
    generalize List.range _ = ns
    have : ∀ (z : State × Nat), z.1.Has Canon → State.Has Canon (ns.foldl (fun (z : State × Nat) n =>
        let (s, f) := z.1.drainEl k m tag l (n / cols) (n % cols)
        (s, z.2 ||| f)) z).1 := by
      induction ns with
      | nil => exact fun z h => h
      | cons n ns ih => exact fun z h => ih _ (State.drainEl_wf _ _ _ _ _ _ _ h)
    exact this _ hs
  have hg := hf (if r.trans then (r.cols, r.rows) else (r.rows, r.cols)).1 (if r.trans then (r.cols, r.rows) else (r.rows, r.cols)).2
  clear hf
  dsimp only at hg ⊢
  split
  · exact State.setTile_wf _ _ _ _ (Has.upd hg (State.heal_mem _ _))
  · exact Has.upd hg (State.heal_mem _ _)
theorem Has.ite {α : Type} {P : List Host.Cell → Prop} {c : Prop} [Decidable c] {x y : State × α} (hx : x.1.Has P) (hy : y.1.Has P) :
    (if c then x else y).1.Has P := by
  split <;> assumption
theorem State.runMul_wf (s : State) (k : Nat) (m : Cmd) (hs : s.Has Canon) : (s.runMul k m).1.Has Canon := by
  unfold State.runMul
  extract_lets a b sp kk t zero
  refine Has.ite hs (Has.ite hs (Has.ite hs (Has.ite hs ?_)))
  extract_lets perm pi
  generalize (if a.acc then _ else _) = p
  generalize lqK a b = q
  obtain ⟨la, f0⟩ := p
  obtain ⟨kq, f1⟩ := q
  dsimp only
  have h1 : ∀ g, State.Has Canon (if zero then s.updCore k g else s) := by
    intro g
    split
    · exact Has.upd hs (State.updCore_mem _ _ _)
    · exact hs
  repeat' split
  all_goals first
    | exact Has.upd (State.setTile_wf _ _ _ _ (h1 _)) (State.updCore_mem _ _ _)
    | exact State.setTile_wf _ _ _ _ (h1 _)
theorem State.runMx_wf (s : State) (k : Nat) (m : Cmd) (hs : s.Has Canon) : (State.runMx s k m).1.Has Canon := by
  unfold State.runMx
  try dsimp only
  with_reducible repeat' (first
    | assumption
    | split
    | (refine State.runDrn_wf _ _ _ ?_)
    | (refine State.runClr_wf _ _ _ ?_)
    | (refine State.runMul_wf _ _ _ ?_))
theorem State.startMx_wf (s : State) (k : Nat) (hs : s.Has Canon) : State.Has Canon (State.startMx s k) := by
  unfold State.startMx
  try dsimp only
  with_reducible repeat' (first
    | assumption
    | split
    | (refine State.runMx_wf _ _ _ ?_)
    | (refine Has.upd ?_ (State.updCore_mem _ _ _)))
theorem State.endMx_wf (s : State) (k : Nat) (hs : s.Has Canon) : State.Has Canon (State.endMx s k) := by
  unfold State.endMx
  try dsimp only
  with_reducible repeat' (first
    | assumption
    | split
    | (refine State.finishCmd_wf _ _ _ _ _ _ _ _ ?_)
    | (refine Has.upd ?_ (State.updCore_mem _ _ _)))
/-! ### Copies -/

theorem State.cpyPut_wf (s : State) (k : Nat) (m : Cmd) (pa : Nat) (w : Word) (l : List (BitVec 8)) (hs : s.Has Canon) : State.Has Canon (State.cpyPut s k m pa w l) := by
  unfold State.cpyPut
  try dsimp only
  with_reducible repeat' (first
    | assumption
    | split
    | (refine State.put_wf _ _ _ _ _ _ _ _ ?_)
    | (refine State.unitStore_wf _ _ _ ?_)
    | (refine State.Has.mk ?_; dsimp only; refine State.Has.of ?_))
theorem State.cpyReach_wf {P : List Host.Cell → Prop} (s : State) (k : Nat) (m : Cmd) (va : Nat) (needs : Bool × Bool × Bool) (hs : s.Has P) : CpyAt.Has P (State.cpyReach s k m va needs) := by
  unfold State.cpyReach
  try dsimp only
  with_reducible repeat' (first
    | assumption
    | split
    | (refine CpyAt.Has.has_wait ?_)
    | exact CpyAt.Has.has_ok
    | exact CpyAt.Has.has_code
    | (refine Has.upd ?_ (State.startWalk_mem _ _ _ _ _ _ _)))
theorem State.cpyOne_wf (s : State) (k : Nat) (m : Cmd) (i : Nat) (hs : s.Has Canon) : (State.cpyOne s k m i).1.Has Canon := by
  unfold State.cpyOne
  try dsimp only
  with_reducible repeat' (first
    | assumption
    | split
    | (refine Has.upd ?_ (State.markAD_mem _ _ _ _ _))
    | (refine State.cpyPut_wf _ _ _ _ _ _ ?_))
theorem State.flowUse_mem (s : State) (k : Nat) (m : Cmd) (n d : Nat) : (State.flowUse s k m n d).mem = s.mem := by
  refine Has.eq fun P h => ?_
  unfold State.flowUse
  try dsimp only
  with_reducible repeat' (first
    | assumption
    | split
    | (refine Has.upd ?_ (State.flits_mem _ _ _))
    | (refine Has.upd ?_ (State.updCore_mem _ _ _)))
theorem State.cpyStop_wf {P : List Host.Cell → Prop} (s : State) (k : Nat) (m : Cmd) (held : Bool) (i : Nat) {r : CpyAt}
    (e : s.cpyStop k m held i = some r) (h : s.Has P) : r.Has P := by
  revert e
  unfold State.cpyStop
  dsimp only
  split
  · intro e; cases e; exact .has_code
  · rename_i q; intro e; cases e; exact .has_wait (CpyAt.wait_has q (State.cpyReach_wf _ _ _ _ _ h))
  · split
    · intro e; cases e; exact .has_code
    · split
      · intro e; cases e; exact .has_code
      · split
        · intro e; cases e; exact .has_code
        · rename_i q; intro e; cases e; exact .has_wait (CpyAt.wait_has q (State.cpyReach_wf _ _ _ _ _ h))
        · repeat' split
          all_goals intro e; cases e
          all_goals first | exact .has_code | exact .has_wait h
theorem State.cpyRun_wf (s : State) (k : Nat) (m : Cmd) (full : Nat) (t0 : Nat) (a5 : Nat) (a6 : Nat) (a7 : Nat) (hs : s.Has Canon) : (State.cpyRun s k m full t0 a5 a6 a7).1.Has Canon := by
  revert hs
  fun_induction State.cpyRun s k m full t0 a5 a6 a7
  all_goals with_reducible repeat' (first
    | assumption
    | (refine (by assumption : State.Has _ _ → State.Has _ (Prod.fst _)) ?_)
    | (refine Has.fst (by assumption) (State.cpyOne_wf _ _ _ _ ?_))
    | (intro _))
theorem State.cpyScan_wf {P : List Host.Cell → Prop} (s : State) (k : Nat) (m : Cmd) (n i : Nat) {j : Nat} {r : CpyAt}
    (e : s.cpyScan k m n i = some (j, r)) (h : s.Has P) : r.Has P := by
  induction n generalizing i with
  | zero => cases e
  | succ n ih =>
    unfold State.cpyScan at e
    split at e
    · rename_i q; cases e; exact State.cpyStop_wf _ _ _ _ _ q h
    · exact ih _ e
theorem State.cpyDone_wf (s : State) (k : Nat) (m : Cmd) (hs : s.Has Canon) : State.Has Canon (State.cpyDone s k m) := by
  unfold State.cpyDone
  try dsimp only
  with_reducible repeat' (first
    | assumption
    | split
    | (refine Has.upd ?_ (State.updCore_mem _ _ _))
    | (refine State.finishCmd_wf _ _ _ _ _ _ _ _ ?_)
    | (refine State.groupAbort_wf _ _ _ ?_))
theorem State.cpyEnd_wf (s : State) (k : Nat) (m : Cmd) (i sent code : Nat) (hs : s.Has Canon) : State.Has Canon (State.cpyEnd s k m i sent code) := by
  unfold State.cpyEnd
  try dsimp only
  with_reducible repeat' (first
    | assumption
    | (refine Has.upd ?_ (State.heal_mem _ _))
    | split
    | (refine State.cpyRun_wf _ _ _ _ _ _ _ _ ?_)
    | (refine Has.fst (by assumption) (State.cpyRun_wf _ _ _ _ _ _ _ _ ?_))
    | (refine Has.upd ?_ (State.heal_mem _ _))
    | (refine Has.upd ?_ (State.flowUse_mem _ _ _ _ _))
    | (refine Has.upd ?_ (State.ticked_mem _))
    | (refine Has.upd ?_ (State.updCore_mem _ _ _))
    | (refine State.cpyDone_wf _ _ _ ?_)
    | (refine Has.foldl _ ?_ ?_)
    | (refine State.Has.mk ?_; dsimp only; refine State.Has.of ?_)
    | (intro _))
theorem State.runCopy_wf (s : State) (k : Nat) (m : Cmd) (hs : s.Has Canon) : State.Has Canon (State.runCopy s k m) := by
  unfold State.runCopy
  repeat' split
  all_goals first
    | exact hs
    | exact State.cpyDone_wf _ _ _ hs
    | exact State.cpyEnd_wf _ _ _ _ _ _ hs
    | (rename_i q; exact CpyAt.wait_has rfl (State.cpyScan_wf _ _ _ _ _ q hs))
/-! ### Matrix -/

theorem State.setBuf_mem (s : State) (n : Nat) (b : Buf) : (State.setBuf s n b).mem = s.mem := rfl
theorem State.await_mem (s : State) (regs : List (BitVec 6)) (w : Wait) : (State.await s regs w).mem = s.mem := rfl
theorem execCpystat_wf (m : Bool) (d : BitVec 6) (s : State) (hs : s.Has Canon) : OutHas Canon (execCpystat m d s) := by
  unfold execCpystat
  try dsimp only
  with_reducible repeat' (first
    | assumption
    | (refine Res.Has.has_ok ?_)
    | (refine issue_wf _ _ _ _ _ _ ?_ ?_)
    | (refine Has.upd ?_ (State.wvar_mem _ _ _))
    | (intro _))
theorem cmdIssue_wf (i : Instr) (m : Bool) (regs : List Nat) (cp : Bool) (op : Nat) (w : State → Word × Word × Word × Word) (s : State) (hs : s.Has Canon) : OutHas Canon (cmdIssue i m regs cp op w s) := by
  unfold cmdIssue
  try dsimp only
  with_reducible repeat' (first
    | assumption
    | split
    | (refine Res.Has.has_ok ?_)
    | (refine Res.Has.has_trap ?_)
    | (refine Res.Has.has_hold ?_)
    | (refine issue_wf _ _ _ _ _ _ ?_ ?_)
    | (refine State.relHold_wf _ ?_)
    | (refine Has.upd ?_ (State.accept_mem _ _ _ _))
    | (intro _))
theorem engWait_wf (i : Instr) (m : Bool) (d : BitVec 6) (kind : WaitK) (sm : Frame → Summary) (clear : Frame → Frame) (s : State) (hs : s.Has Canon) : OutHas Canon (engWait i m d kind sm clear s) := by
  unfold engWait
  try dsimp only
  with_reducible repeat' (first
    | assumption
    | split
    | (refine Res.Has.has_ok ?_)
    | (refine issue_wf _ _ _ _ _ _ ?_ ?_)
    | (refine Has.upd ?_ (State.updCur_mem _ _))
    | (refine Has.upd ?_ (State.wvar_mem _ _ _))
    | (refine Has.upd ?_ (State.await_mem _ _ _))
    | (intro _))
theorem execCpy_wf (m : Bool) (a : BitVec 6) (b : BitVec 6) (e : BitVec 6) (c : BitVec 6) (s : State) (hs : s.Has Canon) : OutHas Canon (execCpy m a b e c s) := by
  unfold execCpy
  try dsimp only
  with_reducible repeat' (first
    | assumption
    | (refine cmdIssue_wf _ _ _ _ _ _ _ ?_))
theorem execMxspm_wf (m : Bool) (a : BitVec 6) (b : BitVec 6) (e : BitVec 6) (c : BitVec 6) (s : State) (hs : s.Has Canon) : OutHas Canon (execMxspm m a b e c s) := by
  unfold execMxspm
  try dsimp only
  with_reducible repeat' (first
    | assumption
    | (refine cmdIssue_wf _ _ _ _ _ _ _ ?_))
theorem execCpys_wf (m : Bool) (a : BitVec 6) (b : BitVec 6) (e : BitVec 6) (c : BitVec 6) (s : State) (hs : s.Has Canon) : OutHas Canon (execCpys m a b e c s) := by
  unfold execCpys
  try dsimp only
  with_reducible repeat' (first
    | assumption
    | (refine cmdIssue_wf _ _ _ _ _ _ _ ?_))
theorem execCpywait_wf (m : Bool) (d : BitVec 6) (s : State) (hs : s.Has Canon) : OutHas Canon (execCpywait m d s) := by
  unfold execCpywait
  try dsimp only
  with_reducible repeat' (first
    | assumption
    | (refine engWait_wf _ _ _ _ _ _ _ ?_))
theorem execBufdcl_wf (m : Bool) (a : BitVec 6) (b : BitVec 6) (n : BitVec 5) (s : State) (hs : s.Has Canon) : OutHas Canon (execBufdcl m a b n s) := by
  unfold execBufdcl
  try dsimp only
  with_reducible repeat' (first
    | assumption
    | split
    | (refine Res.Has.has_ok ?_)
    | (refine Res.Has.has_trap ?_)
    | (refine Res.Has.has_hold ?_)
    | (refine issue_wf _ _ _ _ _ _ ?_ ?_)
    | (refine Has.upd ?_ (State.setBuf_mem _ _ _))
    | (intro _))
theorem execCpyr_wf (m : Bool) (a : BitVec 6) (b : BitVec 6) (e : BitVec 6) (c : BitVec 6) (s : State) (hs : s.Has Canon) : OutHas Canon (execCpyr m a b e c s) := by
  unfold execCpyr
  try dsimp only
  with_reducible repeat' (first
    | assumption
    | (refine cmdIssue_wf _ _ _ _ _ _ _ ?_))
theorem execBufqry_wf (m : Bool) (d : BitVec 6) (n : BitVec 5) (s : State) (hs : s.Has Canon) : OutHas Canon (execBufqry m d n s) := by
  unfold execBufqry
  try dsimp only
  with_reducible repeat' (first
    | assumption
    | split
    | (refine Res.Has.has_ok ?_)
    | (refine Res.Has.has_hold ?_)
    | (refine issue_wf _ _ _ _ _ _ ?_ ?_)
    | (refine Has.upd ?_ (State.wvar_mem _ _ _))
    | (intro _))
theorem execBufset_wf (m : Bool) (n : BitVec 5) (bs : BitVec 4) (s : State) (hs : s.Has Canon) : OutHas Canon (execBufset m n bs s) := by
  unfold execBufset
  try dsimp only
  with_reducible repeat' (first
    | assumption
    | split
    | (refine Res.Has.has_ok ?_)
    | (refine Res.Has.has_trap ?_)
    | (refine Res.Has.has_hold ?_)
    | (refine issue_wf _ _ _ _ _ _ ?_ ?_)
    | (refine Has.upd ?_ (State.setBuf_mem _ _ _))
    | (intro _))
theorem execMxstat_wf (m : Bool) (d : BitVec 6) (s : State) (hs : s.Has Canon) : OutHas Canon (execMxstat m d s) := by
  unfold execMxstat
  try dsimp only
  with_reducible repeat' (first
    | assumption
    | (refine Res.Has.has_ok ?_)
    | (refine issue_wf _ _ _ _ _ _ ?_ ?_)
    | (refine Has.upd ?_ (State.wvar_mem _ _ _))
    | (intro _))
theorem execCpyg_wf (m : Bool) (a : BitVec 6) (b : BitVec 6) (e : BitVec 6) (c : BitVec 6) (s : State) (hs : s.Has Canon) : OutHas Canon (execCpyg m a b e c s) := by
  unfold execCpyg
  try dsimp only
  with_reducible repeat' (first
    | assumption
    | (refine cmdIssue_wf _ _ _ _ _ _ _ ?_))
theorem execMxdrn_wf (m : Bool) (a : BitVec 6) (b : BitVec 6) (c : BitVec 6) (s : State) (hs : s.Has Canon) : OutHas Canon (execMxdrn m a b c s) := by
  unfold execMxdrn
  try dsimp only
  with_reducible repeat' (first
    | assumption
    | (refine cmdIssue_wf _ _ _ _ _ _ _ ?_))
theorem execMxmul_wf (m : Bool) (a : BitVec 6) (b : BitVec 6) (e : BitVec 6) (c : BitVec 6) (s : State) (hs : s.Has Canon) : OutHas Canon (execMxmul m a b e c s) := by
  unfold execMxmul
  try dsimp only
  with_reducible repeat' (first
    | assumption
    | (refine cmdIssue_wf _ _ _ _ _ _ _ ?_))
theorem execMxwait_wf (m : Bool) (d : BitVec 6) (s : State) (hs : s.Has Canon) : OutHas Canon (execMxwait m d s) := by
  unfold execMxwait
  try dsimp only
  with_reducible repeat' (first
    | assumption
    | (refine engWait_wf _ _ _ _ _ _ _ ?_))
theorem execMxrem_wf (m : Bool) (d : BitVec 6) (a : BitVec 6) (b : BitVec 6) (e : BitVec 6) (c : BitVec 6) (s : State) (hs : s.Has Canon) : OutHas Canon (execMxrem m d a b e c s) := by
  unfold execMxrem
  try dsimp only
  with_reducible repeat' (first
    | assumption
    | split
    | (refine Res.Has.has_ok ?_)
    | (refine Res.Has.has_trap ?_)
    | (refine Res.Has.has_hold ?_)
    | (refine issue_wf _ _ _ _ _ _ ?_ ?_)
    | (refine State.relHold_wf _ ?_)
    | (refine Has.upd ?_ (State.updMine_mem _ _))
    | (intro _))
theorem execMxclr_wf (m : Bool) (d : BitVec 4) (i32 : Bool) (s : State) (hs : s.Has Canon) : OutHas Canon (execMxclr m d i32 s) := by
  unfold execMxclr
  try dsimp only
  with_reducible repeat' (first
    | assumption
    | split
    | (refine Res.Has.has_ok ?_)
    | (refine Res.Has.has_trap ?_)
    | (refine Res.Has.has_hold ?_)
    | (refine issue_wf _ _ _ _ _ _ ?_ ?_)
    | (refine Has.upd ?_ (State.accept_mem _ _ _ _))
    | (intro _))
/-! ### Sync -/

theorem State.fenceWaits_mem (s : State) : (State.fenceWaits s).mem = s.mem := rfl
theorem State.barNone_mem (s : State) (d : BitVec 6) : (State.barNone s d).mem = s.mem := rfl
theorem State.arrive_mem (s : State) (g : Gang) (b : Barrier) : (State.arrive s g b).mem = s.mem := by
  simp [State.arrive, State.barSweep_mem, State.setBar_mem]
theorem execFence_wf (m : Bool) (kind : BitVec 2) (scope : BitVec 3) (s : State) (hs : s.Has Canon) : OutHas Canon (execFence m kind scope s) := by
  unfold execFence
  try dsimp only
  with_reducible repeat' (first
    | assumption
    | split
    | (refine Res.Has.has_ok ?_)
    | (refine issue_wf _ _ _ _ _ _ ?_ ?_)
    | (refine State.relHold_wf _ ?_)
    | (refine Has.upd ?_ (State.fenceWaits_mem _))
    | (intro _))
theorem barI_wf (i : Instr) (m : Bool) (d : BitVec 6) (wait : Bool) (s : State) (hs : s.Has Canon) : OutHas Canon (barI i m d wait s) := by
  unfold barI
  try dsimp only
  with_reducible repeat' (first
    | assumption
    | split
    | (refine Res.Has.has_ok ?_)
    | (refine issue_wf _ _ _ _ _ _ ?_ ?_)
    | (refine Has.upd ?_ (State.barNone_mem _ _))
    | (refine Has.upd ?_ (State.wvar_mem _ _ _))
    | (refine State.relHold_wf _ ?_)
    | (refine Has.upd ?_ (State.arrive_mem _ _ _))
    | (refine Has.upd ?_ (State.await_mem _ _ _))
    | (intro _))
theorem execBar_wf (m : Bool) (d : BitVec 6) (s : State) (hs : s.Has Canon) : OutHas Canon (execBar m d s) := by
  unfold execBar
  try dsimp only
  with_reducible repeat' (first
    | assumption
    | (refine barI_wf _ _ _ _ _ ?_))
theorem execBarwt_wf (m : Bool) (d : BitVec 6) (a : BitVec 6) (b : BitVec 6) (s : State) (hs : s.Has Canon) : OutHas Canon (execBarwt m d a b s) := by
  unfold execBarwt
  try dsimp only
  with_reducible repeat' (first
    | assumption
    | split
    | (refine Res.Has.has_ok ?_)
    | (refine issue_wf _ _ _ _ _ _ ?_ ?_)
    | (refine Has.upd ?_ (State.barNone_mem _ _))
    | (refine Has.upd ?_ (State.wvar_mem _ _ _))
    | (refine Has.upd ?_ (State.await_mem _ _ _))
    | (intro _))
theorem execBararv_wf (m : Bool) (d : BitVec 6) (s : State) (hs : s.Has Canon) : OutHas Canon (execBararv m d s) := by
  unfold execBararv
  try dsimp only
  with_reducible repeat' (first
    | assumption
    | (refine barI_wf _ _ _ _ _ ?_))
theorem amoI_wf (i : Instr) (m : Bool) (regs : List Nat) (d : BitVec 6) (a : BitVec 6) (size : BitVec 2) (scope : BitVec 3) (ord : BitVec 4) (off : BitVec 32) (sx : Bool) (g : State → Nat → Nat → Option Nat × Nat) (s : State) (hs : s.Has Canon) : OutHas Canon (amoI i m regs d a size scope ord off sx g s) := by
  unfold amoI
  try dsimp only
  with_reducible repeat' (first
    | assumption
    | (refine Got.res_has ?_ ?_)
    | split
    | (refine Res.Has.has_ok ?_)
    | (refine issue_wf _ _ _ _ _ _ ?_ ?_)
    | (refine State.atomic_wf _ _ _ _ _ _ ?_)
    | (refine Has.upd ?_ (State.wvar_mem _ _ _))
    | (refine Has.upd ?_ (State.flag_mem _ _))
    | (intro _))
theorem execAmomax_wf (m : Bool) (d : BitVec 6) (a : BitVec 6) (b : BitVec 6) (size : BitVec 2) (scope : BitVec 3) (ord : BitVec 4) (off : BitVec 32) (s : State) (hs : s.Has Canon) : OutHas Canon (execAmomax m d a b size scope ord off s) := by
  unfold execAmomax
  try dsimp only
  with_reducible repeat' (first
    | assumption
    | (refine amoI_wf _ _ _ _ _ _ _ _ _ _ _ _ ?_))
theorem execAmoxor_wf (m : Bool) (d : BitVec 6) (a : BitVec 6) (b : BitVec 6) (size : BitVec 2) (scope : BitVec 3) (ord : BitVec 4) (off : BitVec 32) (s : State) (hs : s.Has Canon) : OutHas Canon (execAmoxor m d a b size scope ord off s) := by
  unfold execAmoxor
  try dsimp only
  with_reducible repeat' (first
    | assumption
    | (refine amoI_wf _ _ _ _ _ _ _ _ _ _ _ _ ?_))
theorem waitI_wf (i : Instr) (m : Bool) (len : Nat) (d : BitVec 6) (a : BitVec 6) (b : BitVec 6) (e : BitVec 6) (c : BitVec 6) (cond : BitVec 4) (size : BitVec 2) (ord : BitVec 4) (opd : Word) (s : State) (hs : s.Has Canon) : OutHas Canon (waitI i m len d a b e c cond size ord opd s) := by
  unfold waitI
  try dsimp only
  with_reducible repeat' (first
    | assumption
    | (refine Got.res_has ?_ ?_)
    | split
    | (refine Res.Has.has_ok ?_)
    | (refine issue_wf _ _ _ _ _ _ ?_ ?_)
    | (refine State.load_wf _ _ _ _ _ _ ?_ ?_)
    | (refine regLoad_wf _ _ _ ?_)
    | (refine Has.upd ?_ (State.wvar_mem _ _ _))
    | (refine Has.upd ?_ (State.await_mem _ _ _))
    | (intro _))
theorem execAmoadd_wf (m : Bool) (d : BitVec 6) (a : BitVec 6) (b : BitVec 6) (size : BitVec 2) (scope : BitVec 3) (ord : BitVec 4) (off : BitVec 32) (s : State) (hs : s.Has Canon) : OutHas Canon (execAmoadd m d a b size scope ord off s) := by
  unfold execAmoadd
  try dsimp only
  with_reducible repeat' (first
    | assumption
    | (refine amoI_wf _ _ _ _ _ _ _ _ _ _ _ _ ?_))
theorem execWaita_wf (m : Bool) (d : BitVec 6) (a : BitVec 6) (b : BitVec 6) (e : BitVec 6) (c : BitVec 6) (cond : BitVec 4) (size : BitVec 2) (scope : BitVec 3) (ord : BitVec 4) (imm : BitVec 32) (s : State) (hs : s.Has Canon) : OutHas Canon (execWaita m d a b e c cond size scope ord imm s) := by
  unfold execWaita
  try dsimp only
  with_reducible repeat' (first
    | assumption
    | (refine waitI_wf _ _ _ _ _ _ _ _ _ _ _ _ _ ?_))
theorem execAmomin_wf (m : Bool) (d : BitVec 6) (a : BitVec 6) (b : BitVec 6) (size : BitVec 2) (scope : BitVec 3) (ord : BitVec 4) (off : BitVec 32) (s : State) (hs : s.Has Canon) : OutHas Canon (execAmomin m d a b size scope ord off s) := by
  unfold execAmomin
  try dsimp only
  with_reducible repeat' (first
    | assumption
    | (refine amoI_wf _ _ _ _ _ _ _ _ _ _ _ _ ?_))
theorem execAmoswp_wf (m : Bool) (d : BitVec 6) (a : BitVec 6) (b : BitVec 6) (size : BitVec 2) (scope : BitVec 3) (ord : BitVec 4) (off : BitVec 32) (s : State) (hs : s.Has Canon) : OutHas Canon (execAmoswp m d a b size scope ord off s) := by
  unfold execAmoswp
  try dsimp only
  with_reducible repeat' (first
    | assumption
    | (refine amoI_wf _ _ _ _ _ _ _ _ _ _ _ _ ?_))
theorem execAmominn_wf (m : Bool) (d : BitVec 6) (a : BitVec 6) (b : BitVec 6) (size : BitVec 2) (scope : BitVec 3) (ord : BitVec 4) (off : BitVec 32) (s : State) (hs : s.Has Canon) : OutHas Canon (execAmominn m d a b size scope ord off s) := by
  unfold execAmominn
  try dsimp only
  with_reducible repeat' (first
    | assumption
    | (refine amoI_wf _ _ _ _ _ _ _ _ _ _ _ _ ?_))
theorem execAmoor_wf (m : Bool) (d : BitVec 6) (a : BitVec 6) (b : BitVec 6) (size : BitVec 2) (scope : BitVec 3) (ord : BitVec 4) (off : BitVec 32) (s : State) (hs : s.Has Canon) : OutHas Canon (execAmoor m d a b size scope ord off s) := by
  unfold execAmoor
  try dsimp only
  with_reducible repeat' (first
    | assumption
    | (refine amoI_wf _ _ _ _ _ _ _ _ _ _ _ _ ?_))
theorem execAmofadd_wf (m : Bool) (d : BitVec 6) (a : BitVec 6) (b : BitVec 6) (ft : BitVec 2) (size : BitVec 2) (scope : BitVec 3) (ord : BitVec 4) (off : BitVec 32) (s : State) (hs : s.Has Canon) : OutHas Canon (execAmofadd m d a b ft size scope ord off s) := by
  unfold execAmofadd
  try dsimp only
  with_reducible repeat' (first
    | assumption
    | (refine amoI_wf _ _ _ _ _ _ _ _ _ _ _ _ ?_))
theorem execWaitaLit_wf (m : Bool) (d : BitVec 6) (a : BitVec 6) (b : BitVec 6) (e : BitVec 6) (c : BitVec 6) (cond : BitVec 4) (size : BitVec 2) (scope : BitVec 3) (ord : BitVec 4) (lit : Word) (s : State) (hs : s.Has Canon) : OutHas Canon (execWaitaLit m d a b e c cond size scope ord lit s) := by
  unfold execWaitaLit
  try dsimp only
  with_reducible repeat' (first
    | assumption
    | (refine waitI_wf _ _ _ _ _ _ _ _ _ _ _ _ _ ?_))
theorem execAmoand_wf (m : Bool) (d : BitVec 6) (a : BitVec 6) (b : BitVec 6) (size : BitVec 2) (scope : BitVec 3) (ord : BitVec 4) (off : BitVec 32) (s : State) (hs : s.Has Canon) : OutHas Canon (execAmoand m d a b size scope ord off s) := by
  unfold execAmoand
  try dsimp only
  with_reducible repeat' (first
    | assumption
    | (refine amoI_wf _ _ _ _ _ _ _ _ _ _ _ _ ?_))
theorem execAmomaxn_wf (m : Bool) (d : BitVec 6) (a : BitVec 6) (b : BitVec 6) (size : BitVec 2) (scope : BitVec 3) (ord : BitVec 4) (off : BitVec 32) (s : State) (hs : s.Has Canon) : OutHas Canon (execAmomaxn m d a b size scope ord off s) := by
  unfold execAmomaxn
  try dsimp only
  with_reducible repeat' (first
    | assumption
    | (refine amoI_wf _ _ _ _ _ _ _ _ _ _ _ _ ?_))
theorem execAmocas_wf (m : Bool) (d : BitVec 6) (a : BitVec 6) (b : BitVec 6) (c : BitVec 6) (size : BitVec 2) (scope : BitVec 3) (ord : BitVec 4) (off : BitVec 32) (s : State) (hs : s.Has Canon) : OutHas Canon (execAmocas m d a b c size scope ord off s) := by
  unfold execAmocas
  try dsimp only
  with_reducible repeat' (first
    | assumption
    | (refine amoI_wf _ _ _ _ _ _ _ _ _ _ _ _ ?_))
/-! ### Fetch -/

theorem State.fetched_mem (s : State) (va : Nat) : (State.fetched s va).mem = s.mem := by
  unfold State.fetched
  split <;> simp [State.markAD_mem]
theorem State.fetchFail_wf (s : State) (va : Nat) (r : FetchW) (hs : s.Has Canon) : State.Has Canon (State.fetchFail s va r) := by
  unfold State.fetchFail
  try dsimp only
  with_reducible repeat' (first
    | assumption
    | split
    | (refine Has.upd ?_ (State.stay_mem _ _))
    | (refine Has.upd ?_ (State.startWalk_mem _ _ _ _ _ _ _))
    | (refine State.raise_wf _ _ _ _ _ ?_)
    | (refine Has.upd ?_ (State.dropAns_mem _ _ _ _)))

end Sys2Proof.Machine
end

