-- ==== Sys2Proof/Laws/KeepsWork.lean ====
section
/-! SUPPORT. Memory stays canonical under the vector, message, sheet, attention and isolation instructions (see KeepsCore). -/
namespace Sys2Proof.Machine

/-! ### Vector -/

theorem loopPass_wf {P : List Host.Cell → Prop} (it : Nat) (k : Nat) (l : List (State → Res)) (s : State) (hs : s.Has P)
    (hl : ∀ g ∈ l, ∀ t, t.Has P → (g t).Has P) : LoopR.Has P (loopPass it k l s) := by
  induction l generalizing k s with
  | nil => exact .has_fin hs
  | cons g r ih =>
    have hg := hl g (by simp) s hs
    unfold loopPass
    generalize g s = x at hg
    cases hg with
    | has_ok h => exact ih _ _ h fun q hq => hl q (by simp [hq])
    | has_to h => exact .has_fin h
    | has_trap h => exact .has_trap h
    | has_hold h => exact .has_hold h
    | has_gone h => exact .has_fin h
theorem tileOp_wf {P : List Host.Cell → Prop} (i : Instr) (t : Nat) (g : State → Res) (s : State) (hs : s.Has P) (h_g : ∀ x0, x0.Has P → Res.Has P (g x0)) : Res.Has P (tileOp i t g s) := by
  unfold tileOp
  try dsimp only
  with_reducible repeat' (first
    | assumption
    | split
    | (apply h_g)
    | (refine Res.Has.has_trap ?_)
    | (refine Res.Has.has_hold ?_))
theorem loopRun_wf {P : List Host.Cell → Prop} (body : List (State → Res)) (n it k : Nat) (s : State) (hs : s.Has P)
    (hl : ∀ g ∈ body, ∀ t, t.Has P → (g t).Has P) : LoopR.Has P (loopRun body n it k s) := by
  induction n generalizing it k s with
  | zero => exact .has_fin hs
  | succ n ih =>
    have hp := loopPass_wf it k (body.drop k) s hs fun g hg => hl g (List.mem_of_mem_drop hg)
    unfold loopRun
    generalize loopPass it k (body.drop k) s = x at hp
    cases hp with
    | has_fin h => exact ih _ _ _ h
    | has_trap h => exact .has_trap h
    | has_hold h => exact .has_hold h
theorem vstopRun_wf {P : List Host.Cell → Prop} (d : BitVec 6) (a : BitVec 5) (s : State) (hs : s.Has P) : Res.Has P (vstopRun d a s) := by
  unfold vstopRun
  try dsimp only
  with_reducible repeat' (first
    | assumption
    | split
    | (refine Res.Has.has_ok ?_)
    | (refine Res.Has.has_hold ?_)
    | (refine Has.upd ?_ (State.wvar_mem _ _ _))
    | (refine Has.upd ?_ (State.updCur_mem _ _)))
theorem State.loadWords_wf {P : List Host.Cell → Prop} (s : State) (i : Instr) (ea : Word) (n : Nat) (hs : s.Has P) :
    Got.Has P (State.loadWords s i ea n) := by
  induction n generalizing s ea with
  | zero => exact .has_got hs
  | succ n ih =>
    unfold State.loadWords
    exact Got.bind_has (State.load_wf _ _ _ _ _ _ hs fun _ _ _ h => regLoad_wf _ _ _ h) fun _ _ h => Got.bind_has (ih _ _ h) fun _ _ h => .has_got h
theorem State.pops_wf {P : List Host.Cell → Prop} (s : State) (i : Instr) (l : List Nat) (hs : s.Has P) : Got.Has P (State.pops s i l) := by
  induction l generalizing s with
  | nil => exact .has_got hs
  | cons n r ih =>
    unfold State.pops
    split
    · exact ih _ hs
    · exact Got.bind_has (State.loadRun_wf _ _ _ _ _ _ _ _ _ hs) fun _ _ h => Got.bind_has (ih _ h) fun _ _ h => .has_got h
theorem vstrmRun_wf {P : List Host.Cell → Prop} (i : Instr) (d : BitVec 5) (a : BitVec 6) (off : BitVec 32) (s : State) (hs : s.Has P) : Res.Has P (vstrmRun i d a off s) := by
  unfold vstrmRun
  try dsimp only
  with_reducible repeat' (first
    | assumption
    | (refine Got.res_has ?_ ?_)
    | split
    | (refine Res.Has.has_ok ?_)
    | (refine Res.Has.has_trap ?_)
    | (refine Res.Has.has_hold ?_)
    | (refine State.loadWords_wf _ _ _ _ ?_)
    | (refine Has.upd ?_ (State.updCur_mem _ _))
    | (intro _))
theorem vstRun_wf (i : Instr) (d : BitVec 5) (a : BitVec 6) (p : BitVec 3) (off : BitVec 32) (s : State) (hs : s.Has Canon) : Res.Has Canon (vstRun i d a p off s) := by
  unfold vstRun
  try dsimp only
  with_reducible repeat' (first
    | assumption
    | (refine Got.res_has ?_ ?_)
    | split
    | (refine Res.Has.has_ok ?_)
    | (refine Res.Has.has_trap ?_)
    | (refine State.pops_wf _ _ _ ?_)
    | (refine State.storeRun_wf _ _ _ _ _ _ _ _ ?_)
    | (refine Has.upd ?_ (State.updCur_mem _ _))
    | (refine Has.upd ?_ (State.ticked_mem _))
    | (intro _))
theorem State.vpush_wf (s : State) (i : Instr) (o : VOut) (v : BitVec 512) (hs : s.Has Canon) : Got.Has Canon (State.vpush s i o v) := by
  unfold State.vpush
  try dsimp only
  with_reducible repeat' (first
    | assumption
    | split
    | (refine Got.Has.has_got ?_)
    | (refine State.storeRun_wf _ _ _ _ _ _ _ _ ?_))
theorem vdo_wf (i : Instr) (chk : Frame → List (Option (Nat × Nat))) (srcs : List Nat) (work : State → (Nat → BitVec 512) → VOut) (s : State) (hs : s.Has Canon) : Res.Has Canon (vdo i chk srcs work s) := by
  unfold vdo
  try dsimp only
  with_reducible repeat' (first
    | assumption
    | (refine Got.res_has ?_ ?_)
    | (refine Has.foldl _ ?_ ?_)
    | split
    | (refine Res.Has.has_ok ?_)
    | (refine Res.Has.has_trap ?_)
    | (refine State.pops_wf _ _ _ ?_)
    | (refine State.vpush_wf _ _ _ _ ?_)
    | (refine Has.upd ?_ (State.updCur_mem _ _))
    | (refine Has.upd ?_ (State.wvar_mem _ _ _))
    | (refine Has.upd ?_ (State.ticked_mem _))
    | (intro _))
theorem vbcastRun_wf (i : Instr) (d : BitVec 5) (g : State → Word) (p : BitVec 3) (fmt : BitVec 4) (s : State) (hs : s.Has Canon) : Res.Has Canon (vbcastRun i d g p fmt s) := by
  unfold vbcastRun
  try dsimp only
  with_reducible repeat' (first
    | assumption
    | (refine vdo_wf _ _ _ _ _ ?_))
theorem vbitRun_wf (i : Instr) (op : Nat) (wc : BitVec 2) (d : BitVec 5) (a : BitVec 5) (p : BitVec 3) (s : State) (hs : s.Has Canon) : Res.Has Canon (vbitRun i op wc d a p s) := by
  unfold vbitRun
  try dsimp only
  with_reducible repeat' (first
    | assumption
    | split
    | (refine vdo_wf _ _ _ _ _ ?_))
theorem vpermRun_wf (i : Instr) (d : BitVec 5) (a : BitVec 5) (b : BitVec 5) (p : BitVec 3) (s : State) (hs : s.Has Canon) : Res.Has Canon (vpermRun i d a b p s) := by
  unfold vpermRun
  try dsimp only
  with_reducible repeat' (first
    | assumption
    | split
    | (refine vdo_wf _ _ _ _ _ ?_))
theorem vrandRun_wf (i : Instr) (d : BitVec 5) (a : BitVec 6) (p : BitVec 3) (s : State) (hs : s.Has Canon) : Res.Has Canon (vrandRun i d a p s) := by
  unfold vrandRun
  try dsimp only
  with_reducible repeat' (first
    | assumption
    | (refine vdo_wf _ _ _ _ _ ?_))
theorem vmovvRun_wf (i : Instr) (d : BitVec 5) (a : BitVec 6) (n : BitVec 7) (s : State) (hs : s.Has Canon) : Res.Has Canon (vmovvRun i d a n s) := by
  unfold vmovvRun
  try dsimp only
  with_reducible repeat' (first
    | assumption
    | (refine vdo_wf _ _ _ _ _ ?_))
theorem vfltRun_wf (i : Instr) (d : BitVec 5) (a : BitVec 5) (b : Option (BitVec 5)) (rd : Bool) (p : BitVec 3) (g : Fp → Fp → Fp → Fp × Nat) (s : State) (hs : s.Has Canon) : Res.Has Canon (vfltRun i d a b rd p g s) := by
  unfold vfltRun
  try dsimp only
  with_reducible repeat' (first
    | assumption
    | split
    | (refine vdo_wf _ _ _ _ _ ?_))
theorem vcvtRun_wf (i : Instr) (d : BitVec 5) (a : BitVec 5) (b : BitVec 6) (p : BitVec 3) (part : BitVec 3) (mode : BitVec 3) (fmt : BitVec 4) (s : State) (hs : s.Has Canon) : Res.Has Canon (vcvtRun i d a b p part mode fmt s) := by
  unfold vcvtRun
  try dsimp only
  with_reducible repeat' (first
    | assumption
    | split
    | (refine vdo_wf _ _ _ _ _ ?_))
theorem vdropRun_wf (i : Instr) (d : BitVec 5) (a : BitVec 5) (b : BitVec 6) (e : BitVec 6) (p : BitVec 3) (scale : BitVec 32) (s : State) (hs : s.Has Canon) : Res.Has Canon (vdropRun i d a b e p scale s) := by
  unfold vdropRun
  try dsimp only
  with_reducible repeat' (first
    | assumption
    | (refine vdo_wf _ _ _ _ _ ?_))
theorem vcmpRun_wf (i : Instr) (cond : BitVec 4) (d : BitVec 3) (a : BitVec 5) (b : BitVec 5) (p : BitVec 3) (s : State) (hs : s.Has Canon) : Res.Has Canon (vcmpRun i cond d a b p s) := by
  unfold vcmpRun
  try dsimp only
  with_reducible repeat' (first
    | assumption
    | (refine vdo_wf _ _ _ _ _ ?_))
theorem vsmxInitRun_wf (i : Instr) (e : BitVec 5) (s : State) (hs : s.Has Canon) : Res.Has Canon (vsmxInitRun i e s) := by
  unfold vsmxInitRun
  try dsimp only
  with_reducible repeat' (first
    | assumption
    | (refine vdo_wf _ _ _ _ _ ?_))
theorem vsmxMergeRun_wf (i : Instr) (d : BitVec 5) (a : BitVec 5) (e : BitVec 5) (s : State) (hs : s.Has Canon) : Res.Has Canon (vsmxMergeRun i d a e s) := by
  unfold vsmxMergeRun
  try dsimp only
  with_reducible repeat' (first
    | assumption
    | (refine vdo_wf _ _ _ _ _ ?_))
theorem vselRun_wf (i : Instr) (d : BitVec 5) (a : BitVec 5) (b : BitVec 5) (p : BitVec 3) (s : State) (hs : s.Has Canon) : Res.Has Canon (vselRun i d a b p s) := by
  unfold vselRun
  try dsimp only
  with_reducible repeat' (first
    | assumption
    | (refine vdo_wf _ _ _ _ _ ?_))
theorem vmovxRun_wf (i : Instr) (d : BitVec 6) (a : BitVec 5) (n : BitVec 7) (s : State) (hs : s.Has Canon) : Res.Has Canon (vmovxRun i d a n s) := by
  unfold vmovxRun
  try dsimp only
  with_reducible repeat' (first
    | assumption
    | split
    | (refine vdo_wf _ _ _ _ _ ?_))
theorem vqntRun_wf (i : Instr) (d : BitVec 5) (a : BitVec 5) (b : BitVec 6) (e : BitVec 6) (part : BitVec 3) (mode : BitVec 3) (fmt : BitVec 4) (s : State) (hs : s.Has Canon) : Res.Has Canon (vqntRun i d a b e part mode fmt s) := by
  unfold vqntRun
  try dsimp only
  with_reducible repeat' (first
    | assumption
    | split
    | (refine vdo_wf _ _ _ _ _ ?_))
theorem fmtsetRun_wf (i : Instr) (d : BitVec 5) (acc : Bool) (fmt : BitVec 4) (s : State) (hs : s.Has Canon) : Res.Has Canon (fmtsetRun i d acc fmt s) := by
  unfold fmtsetRun
  try dsimp only
  with_reducible repeat' (first
    | assumption
    | split
    | (refine Res.Has.has_ok ?_)
    | (refine tileOp_wf _ _ _ _ ?_ ?_)
    | (refine Has.upd ?_ (State.updMine_mem _ _))
    | (refine vdo_wf _ _ _ _ _ ?_)
    | (intro _))
theorem vdqntRun_wf (i : Instr) (d : BitVec 5) (a : BitVec 5) (b : BitVec 6) (e : BitVec 6) (p : BitVec 3) (part : BitVec 3) (mode : BitVec 3) (fmt : BitVec 4) (s : State) (hs : s.Has Canon) : Res.Has Canon (vdqntRun i d a b e p part mode fmt s) := by
  unfold vdqntRun
  try dsimp only
  with_reducible repeat' (first
    | assumption
    | split
    | (refine vdo_wf _ _ _ _ _ ?_))
theorem vldRun_wf (i : Instr) (d : BitVec 5) (a : BitVec 6) (p : BitVec 3) (fmt : BitVec 4) (off : BitVec 32) (s : State) (hs : s.Has Canon) : Res.Has Canon (vldRun i d a p fmt off s) := by
  unfold vldRun
  try dsimp only
  with_reducible repeat' (first
    | assumption
    | (refine Got.res_has ?_ ?_)
    | split
    | (refine Res.Has.has_trap ?_)
    | (refine State.loadRun_wf _ _ _ _ _ _ _ _ _ ?_)
    | (refine vdo_wf _ _ _ _ _ ?_)
    | (intro _))
theorem fmtgetRun_wf (i : Instr) (d : BitVec 6) (a : BitVec 5) (acc : Bool) (s : State) (hs : s.Has Canon) : Res.Has Canon (fmtgetRun i d a acc s) := by
  unfold fmtgetRun
  try dsimp only
  with_reducible repeat' (first
    | assumption
    | split
    | (refine Res.Has.has_ok ?_)
    | (refine tileOp_wf _ _ _ _ ?_ ?_)
    | (refine Has.upd ?_ (State.wvar_mem _ _ _))
    | (refine vdo_wf _ _ _ _ _ ?_)
    | (intro _))
theorem vspecRun_wf (i : Instr) (fn : Nat) (d : BitVec 5) (a : BitVec 5) (p : BitVec 3) (s : State) (hs : s.Has Canon) : Res.Has Canon (vspecRun i fn d a p s) := by
  unfold vspecRun
  try dsimp only
  with_reducible repeat' (first
    | assumption
    | (refine vfltRun_wf _ _ _ _ _ _ _ _ ?_))
theorem vsmxFinalRun_wf (i : Instr) (d : BitVec 5) (e : BitVec 5) (s : State) (hs : s.Has Canon) : Res.Has Canon (vsmxFinalRun i d e s) := by
  unfold vsmxFinalRun
  try dsimp only
  with_reducible repeat' (first
    | assumption
    | (refine vdo_wf _ _ _ _ _ ?_))
theorem vintRun_wf (i : Instr) (d : BitVec 5) (a : BitVec 5) (b : BitVec 5) (p : BitVec 3) (okA : Nat → Bool) (okB : Nat → Nat → Bool) (g : Nat → Nat → Nat → Nat) (s : State) (hs : s.Has Canon) : Res.Has Canon (vintRun i d a b p okA okB g s) := by
  unfold vintRun
  try dsimp only
  with_reducible repeat' (first
    | assumption
    | (refine vdo_wf _ _ _ _ _ ?_))
theorem vsmxStepRun_wf (i : Instr) (d : BitVec 5) (a : BitVec 5) (e : BitVec 5) (p : BitVec 3) (s : State) (hs : s.Has Canon) : Res.Has Canon (vsmxStepRun i d a e p s) := by
  unfold vsmxStepRun
  try dsimp only
  with_reducible repeat' (first
    | assumption
    | (refine vdo_wf _ _ _ _ _ ?_))
theorem vredRun_wf (i : Instr) (d : BitVec 5) (a : BitVec 5) (p : BitVec 3) (op : BitVec 4) (s : State) (hs : s.Has Canon) : Res.Has Canon (vredRun i d a p op s) := by
  unfold vredRun
  try dsimp only
  with_reducible repeat' (first
    | assumption
    | split
    | (refine vdo_wf _ _ _ _ _ ?_))
theorem bodyOf_wf {i : Instr} {g : State → Res} (e : bodyOf i = some g) {s : State} (hs : s.Has Canon) : Res.Has Canon (g s) := by
  revert e
  fun_cases bodyOf i
  all_goals intro e
  all_goals first
    | (cases e; with_reducible first
        | exact vfltRun_wf _ _ _ _ _ _ _ _ hs
        | exact vintRun_wf _ _ _ _ _ _ _ _ _ hs
        | exact vcmpRun_wf _ _ _ _ _ _ _ hs
        | exact vselRun_wf _ _ _ _ _ _ hs
        | exact vspecRun_wf _ _ _ _ _ _ hs
        | exact vredRun_wf _ _ _ _ _ _ hs
        | exact vsmxStepRun_wf _ _ _ _ _ _ hs
        | exact vsmxMergeRun_wf _ _ _ _ _ hs
        | exact vsmxFinalRun_wf _ _ _ _ hs
        | exact vsmxInitRun_wf _ _ _ hs
        | exact vpermRun_wf _ _ _ _ _ _ hs
        | exact fmtsetRun_wf _ _ _ _ _ hs
        | exact vcvtRun_wf _ _ _ _ _ _ _ _ _ hs
        | exact vbitRun_wf _ _ _ _ _ _ _ hs)
    | cases e
theorem State.loopBody_wf (s : State) (i : Instr) (pc n : Nat) (hs : s.Has Canon) :
    Got.Has Canon (State.loopBody s i pc n) := by
  induction n generalizing s pc with
  | zero => exact .has_got hs
  | succ n ih =>
    unfold State.loopBody
    split
    · exact .has_stop (.has_gone (State.fetchFail_wf _ _ _ hs))
    · split
      · exact .has_stop (.has_trap hs)
      exact Got.bind_has (ih _ _ (Has.upd hs (State.fetched_mem _ _))) fun _ _ h => .has_got h
theorem State.loopWords_wf (s : State) (i : Instr) (cnt : BitVec 4) (hs : s.Has Canon) : Got.Has Canon (State.loopWords s i cnt) := by
  unfold State.loopWords
  split
  · exact .has_got hs
  · exact State.loopBody_wf _ _ _ _ hs
theorem bodyFn_wf (l : List (BitVec 32)) (s : State) (hs : s.Has Canon) : Res.Has Canon (bodyFn l s) := by
  unfold bodyFn
  cases hb : bodyOf (wordsInstr l) with
  | none => exact .has_ok hs
  | some f => exact bodyOf_wf hb hs
theorem vloopRun_wf (i : Instr) (a : BitVec 6) (cnt : BitVec 4) (s : State) (hs : s.Has Canon) : Res.Has Canon (vloopRun i a cnt s) := by
  refine Got.res_has (State.loopWords_wf s i cnt hs) fun t b h => ?_
  dsimp only
  split
  · exact .has_to (Has.upd h (State.updCur_mem _ _))
  have hl := loopRun_wf (b.map bodyFn) (fld (t.x a) 0 32 - (t.cur.vloop.getD (0, 0)).1) (t.cur.vloop.getD (0, 0)).1 (t.cur.vloop.getD (0, 0)).2 t h
    (fun g hg u hu => by obtain ⟨l, -, rfl⟩ := List.mem_map.1 hg; exact bodyFn_wf l u hu)
  generalize loopRun _ _ _ _ _ = y at hl
  cases hl with
  | has_fin h => exact .has_to (Has.upd h (State.updCur_mem _ _))
  | has_trap h => exact .has_to (Has.upd h (State.updCur_mem _ _))
  | has_hold h => exact .has_hold (Has.upd h (State.updCur_mem _ _))
theorem execVand_wf (m : Bool) (d : BitVec 5) (a : BitVec 5) (b : BitVec 5) (p : BitVec 3) (s : State) (hs : s.Has Canon) : OutHas Canon (execVand m d a b p s) := by
  unfold execVand
  try dsimp only
  with_reducible repeat' (first
    | assumption
    | (refine issue_wf _ _ _ _ _ _ ?_ ?_)
    | (refine vintRun_wf _ _ _ _ _ _ _ _ _ ?_)
    | (intro _))
theorem execVsel_wf (m : Bool) (d : BitVec 5) (a : BitVec 5) (b : BitVec 5) (p : BitVec 3) (s : State) (hs : s.Has Canon) : OutHas Canon (execVsel m d a b p s) := by
  unfold execVsel
  try dsimp only
  with_reducible repeat' (first
    | assumption
    | (refine issue_wf _ _ _ _ _ _ ?_ ?_)
    | (refine vselRun_wf _ _ _ _ _ _ ?_)
    | (intro _))
theorem execVneg_wf (m : Bool) (d : BitVec 5) (a : BitVec 5) (p : BitVec 3) (s : State) (hs : s.Has Canon) : OutHas Canon (execVneg m d a p s) := by
  unfold execVneg
  try dsimp only
  with_reducible repeat' (first
    | assumption
    | (refine issue_wf _ _ _ _ _ _ ?_ ?_)
    | (refine vfltRun_wf _ _ _ _ _ _ _ _ ?_)
    | (intro _))
theorem execVcvt_wf (m : Bool) (d : BitVec 5) (a : BitVec 5) (b : BitVec 6) (p : BitVec 3) (part : BitVec 3) (mode : BitVec 3) (fmt : BitVec 4) (s : State) (hs : s.Has Canon) : OutHas Canon (execVcvt m d a b p part mode fmt s) := by
  unfold execVcvt
  try dsimp only
  with_reducible repeat' (first
    | assumption
    | (refine issue_wf _ _ _ _ _ _ ?_ ?_)
    | (refine vcvtRun_wf _ _ _ _ _ _ _ _ _ ?_)
    | (intro _))
theorem execVld_wf (m : Bool) (d : BitVec 5) (a : BitVec 6) (p : BitVec 3) (fmt : BitVec 4) (off : BitVec 32) (s : State) (hs : s.Has Canon) : OutHas Canon (execVld m d a p fmt off s) := by
  unfold execVld
  try dsimp only
  with_reducible repeat' (first
    | assumption
    | (refine issue_wf _ _ _ _ _ _ ?_ ?_)
    | (refine vldRun_wf _ _ _ _ _ _ _ ?_)
    | (intro _))
theorem execVsmxFinal_wf (m : Bool) (d : BitVec 5) (e : BitVec 5) (s : State) (hs : s.Has Canon) : OutHas Canon (execVsmxFinal m d e s) := by
  unfold execVsmxFinal
  try dsimp only
  with_reducible repeat' (first
    | assumption
    | (refine issue_wf _ _ _ _ _ _ ?_ ?_)
    | (refine vsmxFinalRun_wf _ _ _ _ ?_)
    | (intro _))
theorem execVadd_wf (m : Bool) (d : BitVec 5) (a : BitVec 5) (b : BitVec 5) (p : BitVec 3) (s : State) (hs : s.Has Canon) : OutHas Canon (execVadd m d a b p s) := by
  unfold execVadd
  try dsimp only
  with_reducible repeat' (first
    | assumption
    | (refine issue_wf _ _ _ _ _ _ ?_ ?_)
    | (refine vfltRun_wf _ _ _ _ _ _ _ _ ?_)
    | (intro _))
theorem execVmin_wf (m : Bool) (d : BitVec 5) (a : BitVec 5) (b : BitVec 5) (p : BitVec 3) (s : State) (hs : s.Has Canon) : OutHas Canon (execVmin m d a b p s) := by
  unfold execVmin
  try dsimp only
  with_reducible repeat' (first
    | assumption
    | (refine issue_wf _ _ _ _ _ _ ?_ ?_)
    | (refine vfltRun_wf _ _ _ _ _ _ _ _ ?_)
    | (intro _))
theorem execVor_wf (m : Bool) (d : BitVec 5) (a : BitVec 5) (b : BitVec 5) (p : BitVec 3) (s : State) (hs : s.Has Canon) : OutHas Canon (execVor m d a b p s) := by
  unfold execVor
  try dsimp only
  with_reducible repeat' (first
    | assumption
    | (refine issue_wf _ _ _ _ _ _ ?_ ?_)
    | (refine vintRun_wf _ _ _ _ _ _ _ _ _ ?_)
    | (intro _))
theorem execVdqnt_wf (m : Bool) (d : BitVec 5) (a : BitVec 5) (b : BitVec 6) (e : BitVec 6) (p : BitVec 3) (part : BitVec 3) (mode : BitVec 3) (fmt : BitVec 4) (s : State) (hs : s.Has Canon) : OutHas Canon (execVdqnt m d a b e p part mode fmt s) := by
  unfold execVdqnt
  try dsimp only
  with_reducible repeat' (first
    | assumption
    | (refine issue_wf _ _ _ _ _ _ ?_ ?_)
    | (refine vdqntRun_wf _ _ _ _ _ _ _ _ _ _ ?_)
    | (intro _))
theorem execVsmxStep_wf (m : Bool) (d : BitVec 5) (a : BitVec 5) (e : BitVec 5) (p : BitVec 3) (s : State) (hs : s.Has Canon) : OutHas Canon (execVsmxStep m d a e p s) := by
  unfold execVsmxStep
  try dsimp only
  with_reducible repeat' (first
    | assumption
    | (refine issue_wf _ _ _ _ _ _ ?_ ?_)
    | (refine vsmxStepRun_wf _ _ _ _ _ _ ?_)
    | (intro _))
theorem execVrsq_wf (m : Bool) (d : BitVec 5) (a : BitVec 5) (p : BitVec 3) (s : State) (hs : s.Has Canon) : OutHas Canon (execVrsq m d a p s) := by
  unfold execVrsq
  try dsimp only
  with_reducible repeat' (first
    | assumption
    | (refine issue_wf _ _ _ _ _ _ ?_ ?_)
    | (refine vspecRun_wf _ _ _ _ _ _ ?_)
    | (intro _))
theorem execVred_wf (m : Bool) (d : BitVec 5) (a : BitVec 5) (p : BitVec 3) (op : BitVec 4) (s : State) (hs : s.Has Canon) : OutHas Canon (execVred m d a p op s) := by
  unfold execVred
  try dsimp only
  with_reducible repeat' (first
    | assumption
    | (refine issue_wf _ _ _ _ _ _ ?_ ?_)
    | (refine vredRun_wf _ _ _ _ _ _ ?_)
    | (intro _))
theorem execVshr_wf (m : Bool) (d : BitVec 5) (a : BitVec 5) (b : BitVec 5) (p : BitVec 3) (s : State) (hs : s.Has Canon) : OutHas Canon (execVshr m d a b p s) := by
  unfold execVshr
  try dsimp only
  with_reducible repeat' (first
    | assumption
    | (refine issue_wf _ _ _ _ _ _ ?_ ?_)
    | (refine vintRun_wf _ _ _ _ _ _ _ _ _ ?_)
    | (intro _))
theorem execVmax_wf (m : Bool) (d : BitVec 5) (a : BitVec 5) (b : BitVec 5) (p : BitVec 3) (s : State) (hs : s.Has Canon) : OutHas Canon (execVmax m d a b p s) := by
  unfold execVmax
  try dsimp only
  with_reducible repeat' (first
    | assumption
    | (refine issue_wf _ _ _ _ _ _ ?_ ?_)
    | (refine vfltRun_wf _ _ _ _ _ _ _ _ ?_)
    | (intro _))
theorem execVclz_wf (m : Bool) (w : BitVec 2) (d : BitVec 5) (a : BitVec 5) (p : BitVec 3) (s : State) (hs : s.Has Canon) : OutHas Canon (execVclz m w d a p s) := by
  unfold execVclz
  try dsimp only
  with_reducible repeat' (first
    | assumption
    | (refine issue_wf _ _ _ _ _ _ ?_ ?_)
    | (refine vbitRun_wf _ _ _ _ _ _ _ ?_)
    | (intro _))
theorem execVsmxMerge_wf (m : Bool) (d : BitVec 5) (a : BitVec 5) (e : BitVec 5) (s : State) (hs : s.Has Canon) : OutHas Canon (execVsmxMerge m d a e s) := by
  unfold execVsmxMerge
  try dsimp only
  with_reducible repeat' (first
    | assumption
    | (refine issue_wf _ _ _ _ _ _ ?_ ?_)
    | (refine vsmxMergeRun_wf _ _ _ _ _ ?_)
    | (intro _))
theorem execVrand_wf (m : Bool) (d : BitVec 5) (a : BitVec 6) (p : BitVec 3) (s : State) (hs : s.Has Canon) : OutHas Canon (execVrand m d a p s) := by
  unfold execVrand
  try dsimp only
  with_reducible repeat' (first
    | assumption
    | (refine issue_wf _ _ _ _ _ _ ?_ ?_)
    | (refine vrandRun_wf _ _ _ _ _ ?_)
    | (intro _))
theorem execVtanh_wf (m : Bool) (d : BitVec 5) (a : BitVec 5) (p : BitVec 3) (s : State) (hs : s.Has Canon) : OutHas Canon (execVtanh m d a p s) := by
  unfold execVtanh
  try dsimp only
  with_reducible repeat' (first
    | assumption
    | (refine issue_wf _ _ _ _ _ _ ?_ ?_)
    | (refine vspecRun_wf _ _ _ _ _ _ ?_)
    | (intro _))
theorem execVisub_wf (m : Bool) (d : BitVec 5) (a : BitVec 5) (b : BitVec 5) (p : BitVec 3) (s : State) (hs : s.Has Canon) : OutHas Canon (execVisub m d a b p s) := by
  unfold execVisub
  try dsimp only
  with_reducible repeat' (first
    | assumption
    | (refine issue_wf _ _ _ _ _ _ ?_ ?_)
    | (refine vintRun_wf _ _ _ _ _ _ _ _ _ ?_)
    | (intro _))
theorem execVqnt_wf (m : Bool) (d : BitVec 5) (a : BitVec 5) (b : BitVec 6) (e : BitVec 6) (part : BitVec 3) (mode : BitVec 3) (fmt : BitVec 4) (s : State) (hs : s.Has Canon) : OutHas Canon (execVqnt m d a b e part mode fmt s) := by
  unfold execVqnt
  try dsimp only
  with_reducible repeat' (first
    | assumption
    | (refine issue_wf _ _ _ _ _ _ ?_ ?_)
    | (refine vqntRun_wf _ _ _ _ _ _ _ _ _ ?_)
    | (intro _))
theorem execVstrm_wf (m : Bool) (d : BitVec 5) (a : BitVec 6) (off : BitVec 32) (s : State) (hs : s.Has Canon) : OutHas Canon (execVstrm m d a off s) := by
  unfold execVstrm
  try dsimp only
  with_reducible repeat' (first
    | assumption
    | (refine issue_wf _ _ _ _ _ _ ?_ ?_)
    | (refine vstrmRun_wf _ _ _ _ _ ?_)
    | (intro _))
theorem execVrcp_wf (m : Bool) (d : BitVec 5) (a : BitVec 5) (p : BitVec 3) (s : State) (hs : s.Has Canon) : OutHas Canon (execVrcp m d a p s) := by
  unfold execVrcp
  try dsimp only
  with_reducible repeat' (first
    | assumption
    | (refine issue_wf _ _ _ _ _ _ ?_ ?_)
    | (refine vspecRun_wf _ _ _ _ _ _ ?_)
    | (intro _))
theorem execVexp2_wf (m : Bool) (d : BitVec 5) (a : BitVec 5) (p : BitVec 3) (s : State) (hs : s.Has Canon) : OutHas Canon (execVexp2 m d a p s) := by
  unfold execVexp2
  try dsimp only
  with_reducible repeat' (first
    | assumption
    | (refine issue_wf _ _ _ _ _ _ ?_ ?_)
    | (refine vspecRun_wf _ _ _ _ _ _ ?_)
    | (intro _))
theorem execVbcast_wf (m : Bool) (d : BitVec 5) (a : BitVec 6) (p : BitVec 3) (fmt : BitVec 4) (s : State) (hs : s.Has Canon) : OutHas Canon (execVbcast m d a p fmt s) := by
  unfold execVbcast
  try dsimp only
  with_reducible repeat' (first
    | assumption
    | (refine issue_wf _ _ _ _ _ _ ?_ ?_)
    | (refine vbcastRun_wf _ _ _ _ _ _ ?_)
    | (intro _))
theorem execVlog2_wf (m : Bool) (d : BitVec 5) (a : BitVec 5) (p : BitVec 3) (s : State) (hs : s.Has Canon) : OutHas Canon (execVlog2 m d a p s) := by
  unfold execVlog2
  try dsimp only
  with_reducible repeat' (first
    | assumption
    | (refine issue_wf _ _ _ _ _ _ ?_ ?_)
    | (refine vspecRun_wf _ _ _ _ _ _ ?_)
    | (intro _))
theorem execVshl_wf (m : Bool) (d : BitVec 5) (a : BitVec 5) (b : BitVec 5) (p : BitVec 3) (s : State) (hs : s.Has Canon) : OutHas Canon (execVshl m d a b p s) := by
  unfold execVshl
  try dsimp only
  with_reducible repeat' (first
    | assumption
    | (refine issue_wf _ _ _ _ _ _ ?_ ?_)
    | (refine vintRun_wf _ _ _ _ _ _ _ _ _ ?_)
    | (intro _))
theorem execVdrop_wf (m : Bool) (d : BitVec 5) (a : BitVec 5) (b : BitVec 6) (e : BitVec 6) (p : BitVec 3) (scale : BitVec 32) (s : State) (hs : s.Has Canon) : OutHas Canon (execVdrop m d a b e p scale s) := by
  unfold execVdrop
  try dsimp only
  with_reducible repeat' (first
    | assumption
    | (refine issue_wf _ _ _ _ _ _ ?_ ?_)
    | (refine vdropRun_wf _ _ _ _ _ _ _ _ ?_)
    | (intro _))
theorem execVstop_wf (m : Bool) (d : BitVec 6) (a : BitVec 5) (s : State) (hs : s.Has Canon) : OutHas Canon (execVstop m d a s) := by
  unfold execVstop
  try dsimp only
  with_reducible repeat' (first
    | assumption
    | (refine issue_wf _ _ _ _ _ _ ?_ ?_)
    | (refine vstopRun_wf _ _ _ ?_)
    | (intro _))
theorem execVffs_wf (m : Bool) (w : BitVec 2) (d : BitVec 5) (a : BitVec 5) (p : BitVec 3) (s : State) (hs : s.Has Canon) : OutHas Canon (execVffs m w d a p s) := by
  unfold execVffs
  try dsimp only
  with_reducible repeat' (first
    | assumption
    | (refine issue_wf _ _ _ _ _ _ ?_ ?_)
    | (refine vbitRun_wf _ _ _ _ _ _ _ ?_)
    | (intro _))
theorem execVst_wf (m : Bool) (d : BitVec 5) (a : BitVec 6) (p : BitVec 3) (off : BitVec 32) (s : State) (hs : s.Has Canon) : OutHas Canon (execVst m d a p off s) := by
  unfold execVst
  try dsimp only
  with_reducible repeat' (first
    | assumption
    | (refine issue_wf _ _ _ _ _ _ ?_ ?_)
    | (refine vstRun_wf _ _ _ _ _ _ ?_)
    | (intro _))
theorem execVbcastLit_wf (m : Bool) (d : BitVec 5) (p : BitVec 3) (fmt : BitVec 4) (lit : Word) (s : State) (hs : s.Has Canon) : OutHas Canon (execVbcastLit m d p fmt lit s) := by
  unfold execVbcastLit
  try dsimp only
  with_reducible repeat' (first
    | assumption
    | (refine issue_wf _ _ _ _ _ _ ?_ ?_)
    | (refine vbcastRun_wf _ _ _ _ _ _ ?_)
    | (intro _))
theorem execVmovv_wf (m : Bool) (d : BitVec 5) (a : BitVec 6) (n : BitVec 7) (s : State) (hs : s.Has Canon) : OutHas Canon (execVmovv m d a n s) := by
  unfold execVmovv
  try dsimp only
  with_reducible repeat' (first
    | assumption
    | (refine issue_wf _ _ _ _ _ _ ?_ ?_)
    | (refine vmovvRun_wf _ _ _ _ _ ?_)
    | (intro _))
theorem execFmtset_wf (m : Bool) (d : BitVec 5) (acc : Bool) (fmt : BitVec 4) (s : State) (hs : s.Has Canon) : OutHas Canon (execFmtset m d acc fmt s) := by
  unfold execFmtset
  try dsimp only
  with_reducible repeat' (first
    | assumption
    | (refine issue_wf _ _ _ _ _ _ ?_ ?_)
    | (refine fmtsetRun_wf _ _ _ _ _ ?_)
    | (intro _))
theorem execVpopc_wf (m : Bool) (w : BitVec 2) (d : BitVec 5) (a : BitVec 5) (p : BitVec 3) (s : State) (hs : s.Has Canon) : OutHas Canon (execVpopc m w d a p s) := by
  unfold execVpopc
  try dsimp only
  with_reducible repeat' (first
    | assumption
    | (refine issue_wf _ _ _ _ _ _ ?_ ?_)
    | (refine vbitRun_wf _ _ _ _ _ _ _ ?_)
    | (intro _))
theorem execVsmxInit_wf (m : Bool) (e : BitVec 5) (s : State) (hs : s.Has Canon) : OutHas Canon (execVsmxInit m e s) := by
  unfold execVsmxInit
  try dsimp only
  with_reducible repeat' (first
    | assumption
    | (refine issue_wf _ _ _ _ _ _ ?_ ?_)
    | (refine vsmxInitRun_wf _ _ _ ?_)
    | (intro _))
theorem execFmtget_wf (m : Bool) (d : BitVec 6) (a : BitVec 5) (acc : Bool) (s : State) (hs : s.Has Canon) : OutHas Canon (execFmtget m d a acc s) := by
  unfold execFmtget
  try dsimp only
  with_reducible repeat' (first
    | assumption
    | (refine issue_wf _ _ _ _ _ _ ?_ ?_)
    | (refine fmtgetRun_wf _ _ _ _ _ ?_)
    | (intro _))
theorem execVimul_wf (m : Bool) (d : BitVec 5) (a : BitVec 5) (b : BitVec 5) (p : BitVec 3) (s : State) (hs : s.Has Canon) : OutHas Canon (execVimul m d a b p s) := by
  unfold execVimul
  try dsimp only
  with_reducible repeat' (first
    | assumption
    | (refine issue_wf _ _ _ _ _ _ ?_ ?_)
    | (refine vintRun_wf _ _ _ _ _ _ _ _ _ ?_)
    | (intro _))
theorem execVxor_wf (m : Bool) (d : BitVec 5) (a : BitVec 5) (b : BitVec 5) (p : BitVec 3) (s : State) (hs : s.Has Canon) : OutHas Canon (execVxor m d a b p s) := by
  unfold execVxor
  try dsimp only
  with_reducible repeat' (first
    | assumption
    | (refine issue_wf _ _ _ _ _ _ ?_ ?_)
    | (refine vintRun_wf _ _ _ _ _ _ _ _ _ ?_)
    | (intro _))
theorem execVmul_wf (m : Bool) (d : BitVec 5) (a : BitVec 5) (b : BitVec 5) (p : BitVec 3) (s : State) (hs : s.Has Canon) : OutHas Canon (execVmul m d a b p s) := by
  unfold execVmul
  try dsimp only
  with_reducible repeat' (first
    | assumption
    | (refine issue_wf _ _ _ _ _ _ ?_ ?_)
    | (refine vfltRun_wf _ _ _ _ _ _ _ _ ?_)
    | (intro _))
theorem execVperm_wf (m : Bool) (d : BitVec 5) (a : BitVec 5) (b : BitVec 5) (p : BitVec 3) (s : State) (hs : s.Has Canon) : OutHas Canon (execVperm m d a b p s) := by
  unfold execVperm
  try dsimp only
  with_reducible repeat' (first
    | assumption
    | (refine issue_wf _ _ _ _ _ _ ?_ ?_)
    | (refine vpermRun_wf _ _ _ _ _ _ ?_)
    | (intro _))
theorem execVloop_wf (m : Bool) (a : BitVec 6) (cnt : BitVec 4) (s : State) (hs : s.Has Canon) : OutHas Canon (execVloop m a cnt s) := by
  unfold execVloop
  try dsimp only
  with_reducible repeat' (first
    | assumption
    | (refine issue_wf _ _ _ _ _ _ ?_ ?_)
    | (refine vloopRun_wf _ _ _ _ ?_)
    | (intro _))
theorem execVabs_wf (m : Bool) (d : BitVec 5) (a : BitVec 5) (p : BitVec 3) (s : State) (hs : s.Has Canon) : OutHas Canon (execVabs m d a p s) := by
  unfold execVabs
  try dsimp only
  with_reducible repeat' (first
    | assumption
    | (refine issue_wf _ _ _ _ _ _ ?_ ?_)
    | (refine vfltRun_wf _ _ _ _ _ _ _ _ ?_)
    | (intro _))
theorem execVfms_wf (m : Bool) (d : BitVec 5) (a : BitVec 5) (b : BitVec 5) (p : BitVec 3) (s : State) (hs : s.Has Canon) : OutHas Canon (execVfms m d a b p s) := by
  unfold execVfms
  try dsimp only
  with_reducible repeat' (first
    | assumption
    | (refine issue_wf _ _ _ _ _ _ ?_ ?_)
    | (refine vfltRun_wf _ _ _ _ _ _ _ _ ?_)
    | (intro _))
theorem execVmovx_wf (m : Bool) (d : BitVec 6) (a : BitVec 5) (n : BitVec 7) (s : State) (hs : s.Has Canon) : OutHas Canon (execVmovx m d a n s) := by
  unfold execVmovx
  try dsimp only
  with_reducible repeat' (first
    | assumption
    | (refine issue_wf _ _ _ _ _ _ ?_ ?_)
    | (refine vmovxRun_wf _ _ _ _ _ ?_)
    | (intro _))
theorem execVfma_wf (m : Bool) (d : BitVec 5) (a : BitVec 5) (b : BitVec 5) (p : BitVec 3) (s : State) (hs : s.Has Canon) : OutHas Canon (execVfma m d a b p s) := by
  unfold execVfma
  try dsimp only
  with_reducible repeat' (first
    | assumption
    | (refine issue_wf _ _ _ _ _ _ ?_ ?_)
    | (refine vfltRun_wf _ _ _ _ _ _ _ _ ?_)
    | (intro _))
theorem execVcmp_wf (m : Bool) (cond : BitVec 4) (d : BitVec 3) (a : BitVec 5) (b : BitVec 5) (p : BitVec 3) (s : State) (hs : s.Has Canon) : OutHas Canon (execVcmp m cond d a b p s) := by
  unfold execVcmp
  try dsimp only
  with_reducible repeat' (first
    | assumption
    | (refine issue_wf _ _ _ _ _ _ ?_ ?_)
    | (refine vcmpRun_wf _ _ _ _ _ _ _ ?_)
    | (intro _))
theorem execViadd_wf (m : Bool) (d : BitVec 5) (a : BitVec 5) (b : BitVec 5) (p : BitVec 3) (s : State) (hs : s.Has Canon) : OutHas Canon (execViadd m d a b p s) := by
  unfold execViadd
  try dsimp only
  with_reducible repeat' (first
    | assumption
    | (refine issue_wf _ _ _ _ _ _ ?_ ?_)
    | (refine vintRun_wf _ _ _ _ _ _ _ _ _ ?_)
    | (intro _))
theorem execVsub_wf (m : Bool) (d : BitVec 5) (a : BitVec 5) (b : BitVec 5) (p : BitVec 3) (s : State) (hs : s.Has Canon) : OutHas Canon (execVsub m d a b p s) := by
  unfold execVsub
  try dsimp only
  with_reducible repeat' (first
    | assumption
    | (refine issue_wf _ _ _ _ _ _ ?_ ?_)
    | (refine vfltRun_wf _ _ _ _ _ _ _ _ ?_)
    | (intro _))
/-! ### Message -/

theorem State.alignPass_wf {P : List Host.Cell → Prop} (s : State) (hs : s.Has P) : Res.Has P (State.alignPass s) := by
  unfold State.alignPass
  try dsimp only
  with_reducible repeat' (first
    | assumption
    | (refine Res.Has.has_ok ?_)
    | (refine Has.upd ?_ (State.updMine_mem _ _)))
theorem State.wargs_mem (s : State) (ws : List Word) : (State.wargs s ws).mem = s.mem := by
  refine Has.eq fun P h => ?_
  unfold State.wargs
  try dsimp only
  with_reducible repeat' (first
    | assumption
    | (refine Has.foldl _ ?_ ?_)
    | (refine Has.upd ?_ (State.wvar_mem _ _ _))
    | (intro _))
theorem State.breakQ_mem (s : State) (id : Nat) : (State.breakQ s id).mem = s.mem := rfl
theorem State.alignEnd_mem (s : State) (ks : List Nat) (pc : Word) : (State.alignEnd s ks pc).mem = s.mem := by
  refine Has.eq fun P h => ?_
  unfold State.alignEnd
  try dsimp only
  with_reducible repeat' (first
    | assumption
    | (refine Has.foldl _ ?_ ?_)
    | split
    | (refine Has.upd ?_ (State.updFr_mem _ _ _ _))
    | (intro _))
theorem State.queueLate_wf {P : List Host.Cell → Prop} (s : State) (i : BitVec 6) (c : BitVec 6) (h : Unit → Res) (hs : s.Has P) (h_h : Res.Has P (h ())) : Res.Has P (State.queueLate s i c h) := by
  unfold State.queueLate
  try dsimp only
  with_reducible repeat' (first
    | assumption
    | split
    | (refine Res.Has.has_trap ?_))
theorem State.kept_mem (s : State) (mark : Nat) (l : List (BitVec 8)) : (State.kept s mark l).mem = s.mem := rfl
theorem State.ringGets_wf {P : List Host.Cell → Prop} (s : State) (id n m : Nat) (hs : s.Has P) {r : QR} (e : s.ringGets id n m = .inl r) :
    QR.Has P r := by
  induction m generalizing n s with
  | zero => cases e
  | succ m ih =>
    have hu := State.unitAcc_wf s (id / 768) (spillUnit id) (s.squeue id).ctx
      ((s.squeue id).ringbase.toNat + 64 * (n % (s.squeue id).ringsize)) needR hs
    unfold State.ringGets at e
    dsimp only at e
    generalize s.unitAcc _ _ _ _ _ = x at hu e
    cases hu with
    | has_wait h => cases e; exact .has_wait h
    | has_fail h => cases e; exact .has_broken (Has.upd h (State.breakQ_mem _ _))
    | @has_go t _ _ h =>
      dsimp only at e
      split at e
      · cases e; exact .has_broken (Has.upd h (State.breakQ_mem _ _))
      · generalize hq : t.ringGets id (n + 1) m = y at e
        cases y with
        | inl z => cases e; exact ih _ _ h hq
        | inr l => cases e

theorem State.refillQ_wf {P : List Host.Cell → Prop} (s : State) (id : Nat) (hs : s.Has P) : QR.Has P (s.refillQ id) := by
  unfold State.refillQ
  dsimp only
  split
  · rename_i q; exact State.ringGets_wf _ _ _ _ hs q
  · exact .has_done (Has.upd hs (State.setSQueue_mem _ _ _))
theorem State.ringPut_wf (s : State) (id : Nat) (n : Nat) (l : List (BitVec 8)) (hs : s.Has Canon) : QR.Has Canon (State.ringPut s id n l) := by
  unfold State.ringPut
  try dsimp only
  with_reducible repeat' (first
    | assumption
    | split
    | (refine QR.Has.has_done ?_)
    | (refine QR.Has.has_wait ?_)
    | (refine QR.Has.has_broken ?_)
    | (refine UAcc.go_has (by assumption) (State.unitAcc_wf _ _ _ _ _ _ ?_))
    | (refine UAcc.wait_has (by assumption) (State.unitAcc_wf _ _ _ _ _ _ ?_))
    | (refine UAcc.fail_has (by assumption) (State.unitAcc_wf _ _ _ _ _ _ ?_))
    | (refine State.unitPut_wf _ _ _ _ _ _ ?_)
    | (refine Has.upd ?_ (State.breakQ_mem _ _)))
theorem State.ringPush_wf (s : State) (id : Nat) (l : List (BitVec 8)) (hs : s.Has Canon) : QR.Has Canon (State.ringPush s id l) := by
  unfold State.ringPush
  try dsimp only
  with_reducible repeat' (first
    | assumption
    | split
    | (refine QR.Has.has_done ?_)
    | (refine QR.done_has (by assumption) (State.ringPut_wf _ _ _ _ ?_))
    | (refine State.ringPut_wf _ _ _ _ ?_)
    | (refine Has.upd ?_ (State.setSQueue_mem _ _ _)))
theorem State.ringPuts_wf (s : State) (id n : Nat) (l : List (List (BitVec 8))) (hs : s.Has Canon) : QR.Has Canon (State.ringPuts s id n l) := by
  induction l generalizing s n with
  | nil => exact .has_done hs
  | cons a r ih =>
    have hp := State.ringPut_wf s id n a hs
    unfold State.ringPuts
    generalize s.ringPut id n a = x at hp
    cases hp with
    | has_done h => exact ih _ _ h
    | has_wait h => exact .has_wait h
    | has_broken h => exact .has_broken h
theorem State.pushQ_wf (s : State) (id : Nat) (l : List (BitVec 8)) (hs : s.Has Canon) : QR.Has Canon (State.pushQ s id l) := by
  unfold State.pushQ
  try dsimp only
  with_reducible repeat' (first
    | assumption
    | split
    | (refine QR.Has.has_done ?_)
    | (refine Has.upd ?_ (State.setSQueue_mem _ _ _))
    | (refine QR.done_has (by assumption) (State.ringPuts_wf _ _ _ _ ?_))
    | (refine State.ringPuts_wf _ _ _ _ ?_)
    | (refine State.ringPush_wf _ _ _ ?_))
theorem State.storeReady_wf {P : List Host.Cell → Prop} (s : State) (i : Instr) (ea : Word) (n : Nat) (hs : s.Has P) : Got.Has P (State.storeReady s i ea n) := by
  unfold State.storeReady
  try dsimp only
  with_reducible repeat' (first
    | assumption
    | split
    | (refine Got.Has.has_got ?_)
    | (refine Got.Has.has_stop ?_)
    | (refine Res.Has.has_trap ?_)
    | (refine Res.Has.has_hold ?_)
    | (refine State.needWalk_wf _ _ _ _ ?_)
    | (refine Has.upd ?_ (State.ticked_mem _)))
theorem State.joinAdd_wf (s : State) (i : Instr) (joinc : Word) (v : Nat) (hs : s.Has Canon) : Got.Has Canon (State.joinAdd s i joinc v) := by
  unfold State.joinAdd
  try dsimp only
  with_reducible repeat' (first
    | assumption
    | split
    | (refine Got.Has.has_got ?_)
    | (refine Got.Has.has_stop ?_)
    | (refine Got.bind_has ?_ ?_)
    | (refine Res.Has.has_ok ?_)
    | (refine Res.Has.has_to ?_)
    | (refine Res.Has.has_trap ?_)
    | (refine Res.Has.has_hold ?_)
    | (refine Res.Has.has_gone ?_)
    | (refine State.atomic_wf _ _ _ _ _ _ ?_)
    | (refine Got.got_has (by assumption) (State.atomic_wf _ _ _ _ _ _ ?_))
    | (refine Got.stop_has (by assumption) (State.atomic_wf _ _ _ _ _ _ ?_))
    | (refine Has.foldl _ ?_ ?_)
    | (refine State.Has.mk ?_; dsimp only; refine State.Has.of ?_)
    | (intro _))
theorem State.record_wf {P : List Host.Cell → Prop} (s : State) (i : Instr) (ea : Word) (hs : s.Has P) : Got.Has P (State.record s i ea) := by
  unfold State.record
  try dsimp only
  with_reducible repeat' (first
    | assumption
    | (refine State.loadRun_wf _ _ _ _ _ _ _ _ _ ?_))
theorem State.capture_wf {P : List Host.Cell → Prop} (s : State) (i : Instr) (ea : Word) (n : Nat) (mark : Nat) (sp : Straddle) (hs : s.Has P) : Got.Has P (State.capture s i ea n mark sp) := by
  unfold State.capture
  try dsimp only
  with_reducible repeat' (first
    | assumption
    | split
    | (refine Got.Has.has_got ?_)
    | (refine State.loadRun_wf _ _ _ _ _ _ _ _ _ ?_))
theorem State.atBoundary_wf (s : State) (g : State → Res) (hs : s.Has Canon) (h_g : ∀ x0, x0.Has Canon → Res.Has Canon (g x0)) : Res.Has Canon (State.atBoundary s g) := by
  unfold State.atBoundary
  try dsimp only
  with_reducible repeat' (first
    | assumption
    | split
    | (apply h_g)
    | (refine Res.Has.has_gone ?_)
    | (refine State.takeTrap_wf _ _ _ _ _ ?_)
    | (refine Has.upd ?_ (State.updCur_mem _ _)))
theorem execYield_wf (m : Bool) (s : State) (hs : s.Has Canon) : OutHas Canon (execYield m s) := by
  unfold execYield
  try dsimp only
  with_reducible repeat' (first
    | assumption
    | split
    | (refine Res.Has.has_gone ?_)
    | (refine issue_wf _ _ _ _ _ _ ?_ ?_)
    | (refine Has.upd ?_ (State.updCur_mem _ _))
    | (refine State.atBoundary_wf _ _ ?_ ?_)
    | (refine State.wake_wf _ _ _ ?_)
    | (refine Has.upd ?_ (State.parkFrame_mem _ _ _ _))
    | (intro _))
theorem execMsgld_wf (m : Bool) (d : BitVec 6) (a : BitVec 6) (s : State) (hs : s.Has Canon) : OutHas Canon (execMsgld m d a s) := by
  unfold execMsgld
  try dsimp only
  with_reducible repeat' (first
    | assumption
    | split
    | (refine Res.Has.has_ok ?_)
    | (refine Res.Has.has_trap ?_)
    | (refine issue_wf _ _ _ _ _ _ ?_ ?_)
    | (refine Has.upd ?_ (State.wvar_mem _ _ _))
    | (intro _))
theorem execFork_wf (m : Bool) (d : BitVec 6) (a : BitVec 6) (s : State) (hs : s.Has Canon) : OutHas Canon (execFork m d a s) := by
  unfold execFork
  try dsimp only
  with_reducible repeat' (first
    | assumption
    | (refine Got.res_has ?_ ?_)
    | split
    | (refine Res.Has.has_ok ?_)
    | (refine Res.Has.has_trap ?_)
    | (refine issue_wf _ _ _ _ _ _ ?_ ?_)
    | (refine State.record_wf _ _ _ ?_)
    | (refine Has.upd ?_ (State.wvar_mem _ _ _))
    | (refine State.relHold_wf _ ?_)
    | (refine State.joinAdd_wf _ _ _ _ ?_)
    | (refine Has.upd ?_ (State.updMine_mem _ _))
    | (intro _))
theorem execSendr_wf (m : Bool) (d : BitVec 6) (b : BitVec 6) (rlx : Bool) (len : BitVec 32) (s : State) (hs : s.Has Canon) : OutHas Canon (execSendr m d b rlx len s) := by
  unfold execSendr
  try dsimp only
  with_reducible repeat' (first
    | assumption
    | (refine Got.res_has ?_ ?_)
    | split
    | (refine Res.Has.has_ok ?_)
    | (refine Res.Has.has_hold ?_)
    | (refine issue_wf _ _ _ _ _ _ ?_ ?_)
    | (refine Has.upd ?_ (State.wvar_mem _ _ _))
    | (refine State.capture_wf _ _ _ _ _ _ ?_)
    | (refine State.relHold_wf _ ?_)
    | (refine Has.upd ?_ (State.kept_mem _ _ _))
    | (refine Has.upd ?_ (State.updCur_mem _ _))
    | (refine State.Has.mk ?_; dsimp only; refine State.Has.of ?_)
    | (intro _))
theorem execQpush_wf (m : Bool) (d : BitVec 6) (a : BitVec 6) (b : BitVec 6) (c : BitVec 6) (s : State) (hs : s.Has Canon) : OutHas Canon (execQpush m d a b c s) := by
  unfold execQpush
  try dsimp only
  with_reducible repeat' (first
    | assumption
    | (refine Got.res_has ?_ ?_)
    | split
    | (refine Res.Has.has_ok ?_)
    | (refine Res.Has.has_hold ?_)
    | (refine issue_wf _ _ _ _ _ _ ?_ ?_)
    | (refine Has.upd ?_ (State.wvar_mem _ _ _))
    | (refine State.capture_wf _ _ _ _ _ _ ?_)
    | (refine State.relHold_wf _ ?_)
    | (refine Has.upd ?_ (State.kept_mem _ _ _))
    | (refine State.queueLate_wf _ _ _ _ ?_ ?_)
    | (refine QR.done_has (by assumption) (State.pushQ_wf _ _ _ ?_))
    | (refine QR.wait_has (by assumption) (State.pushQ_wf _ _ _ ?_))
    | (refine QR.broken_has (by assumption) (State.pushQ_wf _ _ _ ?_))
    | (refine Has.upd ?_ (State.updCur_mem _ _))
    | (refine Has.upd ?_ (State.setSQueue_mem _ _ _))
    | (intro _))
theorem execAlign_wf (m : Bool) (n : BitVec 12) (s : State) (hs : s.Has Canon) : OutHas Canon (execAlign m n s) := by
  unfold execAlign
  try dsimp only
  with_reducible repeat' (first
    | assumption
    | split
    | (refine Res.Has.has_ok ?_)
    | (refine Res.Has.has_hold ?_)
    | (refine issue_wf _ _ _ _ _ _ ?_ ?_)
    | (refine State.alignPass_wf _ ?_)
    | (refine Has.upd ?_ (State.alignEnd_mem _ _ _))
    | (intro _))
theorem execEndFiring_wf (m : Bool) (s : State) (hs : s.Has Canon) : OutHas Canon (execEndFiring m s) := by
  unfold execEndFiring
  try dsimp only
  with_reducible repeat' (first
    | assumption
    | (refine Got.res_has ?_ ?_)
    | (refine issue_wf _ _ _ _ _ _ ?_ ?_)
    | split
    | (refine OutHas.has_next ?_)
    | exact OutHas.has_fault
    | exact OutHas.has_refused
    | (refine issue_wf _ _ _ _ _ _ _ ?_)
    | (refine OutHas.next_has (by assumption) (issue_wf _ _ _ _ _ _ _ ?_))
    | (refine Has.upd ?_ (State.parkFrame_mem _ _ _ _))
    | (refine State.atBoundary_wf _ _ ?_ ?_)
    | (refine State.atomic_wf _ _ _ _ _ _ ?_)
    | (refine Got.got_has (by assumption) (State.atomic_wf _ _ _ _ _ _ ?_))
    | (refine Got.stop_has (by assumption) (State.atomic_wf _ _ _ _ _ _ ?_))
    | (refine State.endNow_wf _ _ _ ?_)
    | (refine Has.foldl _ ?_ ?_)
    | (refine State.Has.mk ?_; dsimp only; refine State.Has.of ?_)
    | (intro _)
    | (refine Res.Has.has_ok ?_)
    | (refine Res.Has.has_to ?_)
    | (refine Res.Has.has_trap ?_)
    | (refine Res.Has.has_hold ?_)
    | (refine Res.Has.has_gone ?_)
    | (refine Got.Has.has_got ?_)
    | (refine Got.Has.has_stop ?_))
theorem execActdef_wf (m : Bool) (d : BitVec 6) (a : BitVec 6) (b : BitVec 6) (c : BitVec 6) (prod : BitVec 4) (cons : BitVec 4) (noout : Bool) (tag : BitVec 6) (s : State) (hs : s.Has Canon) : OutHas Canon (execActdef m d a b c prod cons noout tag s) := by
  unfold execActdef
  try dsimp only
  with_reducible repeat' (first
    | assumption
    | split
    | (refine Res.Has.has_ok ?_)
    | (refine Res.Has.has_trap ?_)
    | (refine issue_wf _ _ _ _ _ _ ?_ ?_)
    | (refine Has.upd ?_ (State.wvar_mem _ _ _))
    | (refine Has.upd ?_ (State.updMine_mem _ _))
    | (intro _))
theorem execMsgfree_wf (m : Bool) (s : State) (hs : s.Has Canon) : OutHas Canon (execMsgfree m s) := by
  unfold execMsgfree
  try dsimp only
  with_reducible repeat' (first
    | assumption
    | split
    | (refine Res.Has.has_ok ?_)
    | (refine issue_wf _ _ _ _ _ _ ?_ ?_)
    | (refine Has.upd ?_ (State.updCur_mem _ _))
    | (refine Has.upd ?_ (State.updMine_mem _ _))
    | (intro _))
theorem tagOp_wf (i : Instr) (m : Bool) (d : BitVec 6) (a : BitVec 6) (regs : List Nat) (g : State → Tag → Tag × Bool) (s : State) (hs : s.Has Canon) : OutHas Canon (tagOp i m d a regs g s) := by
  unfold tagOp
  try dsimp only
  with_reducible repeat' (first
    | assumption
    | split
    | (refine Res.Has.has_ok ?_)
    | (refine issue_wf _ _ _ _ _ _ ?_ ?_)
    | (refine Has.upd ?_ (State.wvar_mem _ _ _))
    | (refine Has.upd ?_ (State.updMine_mem _ _))
    | (intro _))
theorem execTagdis_wf (m : Bool) (d : BitVec 6) (a : BitVec 6) (s : State) (hs : s.Has Canon) : OutHas Canon (execTagdis m d a s) := by
  unfold execTagdis
  try dsimp only
  with_reducible repeat' (first
    | assumption
    | (refine tagOp_wf _ _ _ _ _ _ _ ?_))
theorem execSetpri_wf (m : Bool) (d : BitVec 6) (a : BitVec 6) (b : BitVec 6) (s : State) (hs : s.Has Canon) : OutHas Canon (execSetpri m d a b s) := by
  unfold execSetpri
  try dsimp only
  with_reducible repeat' (first
    | assumption
    | (refine tagOp_wf _ _ _ _ _ _ _ ?_))
theorem execSendReplay_wf (m : Bool) (d : BitVec 6) (b : BitVec 6) (c : BitVec 6) (s : State) (hs : s.Has Canon) : OutHas Canon (execSendReplay m d b c s) := by
  unfold execSendReplay
  try dsimp only
  with_reducible repeat' (first
    | assumption
    | split
    | (refine Res.Has.has_ok ?_)
    | (refine Res.Has.has_hold ?_)
    | (refine issue_wf _ _ _ _ _ _ ?_ ?_)
    | (refine Has.upd ?_ (State.wvar_mem _ _ _))
    | (refine Has.upd ?_ (State.updMine_mem _ _))
    | (refine Has.upd ?_ (State.kept_mem _ _ _))
    | (intro _))
theorem execSpawn_wf (m : Bool) (d : BitVec 6) (a : BitVec 6) (b : BitVec 6) (s : State) (hs : s.Has Canon) : OutHas Canon (execSpawn m d a b s) := by
  unfold execSpawn
  try dsimp only
  with_reducible repeat' (first
    | assumption
    | (refine Got.res_has ?_ ?_)
    | split
    | (refine Res.Has.has_ok ?_)
    | (refine Res.Has.has_trap ?_)
    | (refine Res.Has.has_hold ?_)
    | (refine issue_wf _ _ _ _ _ _ ?_ ?_)
    | (refine Has.upd ?_ (State.wvar_mem _ _ _))
    | (refine State.joinAdd_wf _ _ _ _ ?_)
    | (refine State.record_wf _ _ _ ?_)
    | (refine State.relHold_wf _ ?_)
    | (refine Has.upd ?_ (State.updMine_mem _ _))
    | (refine Has.upd ?_ (State.updCur_mem _ _))
    | (intro _))
theorem State.reserved_mem (s : State) (t : Nat) (l : List (BitVec 8)) : (s.reserved t l).mem = s.mem := rfl
theorem execSend_wf (m : Bool) (d a b : BitVec 6) (rlx tr rply : Bool) (rtag tag : BitVec 6) (len : BitVec 32) (s : State) (hs : s.Has Canon) :
    OutHas Canon (execSend m d a b rlx tr rply rtag tag len s) := by
  unfold execSend
  refine issue_wf _ _ _ _ _ _ hs fun s h => ?_
  dsimp only
  refine .ite (.has_ok (Has.upd h (State.wvar_mem _ _ _))) (.ite (.has_ok (Has.upd h (State.wvar_mem _ _ _))) (.ite (.has_hold h) ?_))
  refine Got.res_has (.ite (.has_got h) (State.capture_wf _ _ _ _ _ _ h)) fun t l h => ?_
  have hk : State.Has Canon (t.kept 20 l) := Has.upd h (State.kept_mem _ _ _)
  refine .ite (State.relHold_wf _ hk) (.ite (.has_hold hk) (.ite (.has_trap (Has.iteS (Has.upd h (State.updMine_mem _ _)) h)) ?_))
  refine .ite (.has_hold ?_) (.has_ok ?_)
  · refine Has.iteS (Has.upd ?_ (State.reserved_mem _ _ _)) (Has.upd ?_ (State.kept_mem _ _ _)) <;>
      exact Has.iteS (Has.upd h (State.updMine_mem _ _)) h
  · refine Has.upd (Has.upd (Has.iteS (Has.upd h (State.updMine_mem _ _)) h) (State.updMine_mem _ _)) (State.wvar_mem _ _ _)
theorem execQstat_wf (m : Bool) (d : BitVec 6) (a : BitVec 6) (s : State) (hs : s.Has Canon) : OutHas Canon (execQstat m d a s) := by
  unfold execQstat
  try dsimp only
  with_reducible repeat' (first
    | assumption
    | split
    | (refine Res.Has.has_ok ?_)
    | (refine issue_wf _ _ _ _ _ _ ?_ ?_)
    | (refine Has.upd ?_ (State.wvar_mem _ _ _))
    | (intro _))
theorem execQpop_wf (m : Bool) (d a b c : BitVec 6) (s : State) (hs : s.Has Canon) : OutHas Canon (execQpop m d a b c s) := by
  unfold execQpop
  extract_lets i
  refine issue_wf _ _ _ _ _ _ hs fun s h => ?_
  beta_reduce
  extract_lets id
  clear_value id
  split
  · exact .has_ok (Has.upd h (State.wvar_mem _ _ _))
  refine Got.res_has (State.storeReady_wf _ _ _ _ h) fun s _ h => ?_
  extract_lets q own
  clear_value own
  split
  · exact State.queueLate_wf _ _ _ _ h (.has_hold h)
  have hq : QR.Has Canon (if q.bank.isEmpty then s.refillQ id else QR.done s) := by
    split
    · exact State.refillQ_wf _ _ h
    · exact .has_done h
  generalize (if q.bank.isEmpty then s.refillQ id else QR.done s) = x at hq
  cases hq with
  | has_wait h => exact .has_hold h
  | has_broken h => exact .has_ok (Has.upd h (State.wvar_mem _ _ _))
  | has_done h =>
    refine Got.res_has (State.storeRun_wf _ _ _ _ _ _ _ _ h) fun s _ h => ?_
    refine .has_ok (Has.upd ?_ (State.wvar_mem _ _ _))
    split
    · exact Has.upd (Has.upd h (State.setSQueue_mem _ _ _)) (State.updCur_mem _ _)
    · exact Has.upd h (State.setSQueue_mem _ _ _)
theorem execJoin_wf (m : Bool) (d a b : BitVec 6) (s : State) (hs : s.Has Canon) : OutHas Canon (execJoin m d a b s) := by
  unfold execJoin
  try dsimp only
  with_reducible repeat' (first
    | assumption
    | (refine Got.res_has ?_ ?_)
    | (refine regLoad_wf _ _ _ ?_)
    | (refine State.load_wf _ _ _ _ _ _ ?_ ?_)
    | (refine issue_wf _ _ _ _ _ _ ?_ ?_)
    | split
    | (refine OutHas.has_next ?_)
    | exact OutHas.has_fault
    | exact OutHas.has_refused
    | (refine State.join_wf _ _ _ _ ?_)
    | (refine issue_wf _ _ _ _ _ _ _ ?_)
    | (refine OutHas.next_has (by assumption) (issue_wf _ _ _ _ _ _ _ ?_))
    | (refine State.load_wf _ _ _ _ _ _ _ ?_)
    | (refine Got.got_has (by assumption) (State.load_wf _ _ _ _ _ _ _ ?_))
    | (refine Got.stop_has (by assumption) (State.load_wf _ _ _ _ _ _ _ ?_))
    | (refine regLoad_wf _ _ _ ?_)
    | (refine Got.got_has (by assumption) (regLoad_wf _ _ _ ?_))
    | (refine Got.stop_has (by assumption) (regLoad_wf _ _ _ ?_))
    | (refine Has.upd ?_ (State.wvar_mem _ _ _))
    | (refine State.atomic_wf _ _ _ _ _ _ ?_)
    | (refine Got.got_has (by assumption) (State.atomic_wf _ _ _ _ _ _ ?_))
    | (refine Got.stop_has (by assumption) (State.atomic_wf _ _ _ _ _ _ ?_))
    | (refine Has.upd ?_ (State.updMine_mem _ _))
    | (refine Has.upd ?_ (State.wargs_mem _ _))
    | (refine Has.foldl _ ?_ ?_)
    | (refine State.Has.mk ?_; dsimp only; refine State.Has.of ?_)
    | (intro _)
    | (refine Res.Has.has_ok ?_)
    | (refine Res.Has.has_to ?_)
    | (refine Res.Has.has_trap ?_)
    | (refine Res.Has.has_hold ?_)
    | (refine Res.Has.has_gone ?_)
    | (refine Got.Has.has_got ?_)
    | (refine Got.Has.has_stop ?_))
theorem execHold_wf (m : Bool) (d : BitVec 6) (a : BitVec 6) (s : State) (hs : s.Has Canon) : OutHas Canon (execHold m d a s) := by
  unfold execHold
  try dsimp only
  with_reducible repeat' (first
    | assumption
    | (refine tagOp_wf _ _ _ _ _ _ _ ?_))
theorem execRelease_wf (m : Bool) (d : BitVec 6) (a : BitVec 6) (s : State) (hs : s.Has Canon) : OutHas Canon (execRelease m d a s) := by
  unfold execRelease
  try dsimp only
  with_reducible repeat' (first
    | assumption
    | (refine tagOp_wf _ _ _ _ _ _ _ ?_))
theorem execTagen_wf (m : Bool) (d : BitVec 6) (a : BitVec 6) (s : State) (hs : s.Has Canon) : OutHas Canon (execTagen m d a s) := by
  unfold execTagen
  try dsimp only
  with_reducible repeat' (first
    | assumption
    | (refine tagOp_wf _ _ _ _ _ _ _ ?_))
/-! ### Sheet -/

theorem State.cellSt_wf {P : List Host.Cell → Prop} (s : State) (code : Nat) (cell : Nat) (detail : Nat) (g : Option Nat) (hs : s.Has P) : (State.cellSt s code cell detail g).1.Has P := by
  unfold State.cellSt
  try dsimp only
  with_reducible repeat' (first
    | assumption
    | split
    | (refine Has.upd ?_ (State.ticked_mem _)))
theorem State.endSt_wf {P : List Host.Cell → Prop} (s : State) (d : BitVec 6) (code : Nat) (cell : Nat) (detail : Nat) (g : Option Nat) (hs : s.Has P) : Res.Has P (State.endSt s d code cell detail g) := by
  unfold State.endSt
  try dsimp only
  with_reducible repeat' (first
    | assumption
    | (refine Res.Has.has_ok ?_)
    | (refine State.cellSt_wf _ _ _ _ _ ?_)
    | (refine Has.upd ?_ (State.wvar_mem _ _ _)))
theorem State.badSheet_wf {P : List Host.Cell → Prop} (s : State) (d : BitVec 6) (n : Nat) (hs : s.Has P) : Res.Has P (State.badSheet s d n) := by
  unfold State.badSheet
  try dsimp only
  with_reducible repeat' (first
    | assumption
    | (refine State.endSt_wf _ _ _ _ _ _ ?_))
theorem State.cstLate_wf {P : List Host.Cell → Prop} (s : State) (d : BitVec 6) (c : BitVec 6) (n : Nat) (saved : List Nat) (hs : s.Has P) : Res.Has P (State.cstLate s d c n saved) := by
  unfold State.cstLate
  try dsimp only
  with_reducible repeat' (first
    | assumption
    | split
    | (refine Res.Has.has_hold ?_)
    | (refine State.endSt_wf _ _ _ _ _ _ ?_)
    | (refine Has.upd ?_ (State.updCur_mem _ _)))
theorem State.endCld_wf {P : List Host.Cell → Prop} (s : State) (d : BitVec 6) (e : BitVec 6) (addr : Word) (code : Nat) (n : Nat) (detail : Nat) (g : Option Nat) (hs : s.Has P) : Res.Has P (State.endCld s d e addr code n detail g) := by
  unfold State.endCld
  try dsimp only
  with_reducible repeat' (first
    | assumption
    | (refine Res.Has.has_ok ?_)
    | (refine State.cellSt_wf _ _ _ _ _ ?_)
    | (refine Has.upd ?_ (State.wvar_mem _ _ _)))
theorem State.notePages_mem (s : State) (sh : Sheet) (l : List (BitVec 8)) : (State.notePages s sh l).mem = s.mem := rfl
theorem State.sheetT_wf {P : List Host.Cell → Prop} (s : State) (i : Instr) (a : BitVec 6) (create : Bool) (bad : State → Res) (h : State → Sheet → Res) (hs : s.Has P) (h_bad : ∀ x0, x0.Has P → Res.Has P (bad x0)) (h_h : ∀ x0 x1, x0.Has P → Res.Has P (h x0 x1)) : Res.Has P (State.sheetT s i a create bad h) := by
  unfold State.sheetT
  try dsimp only
  with_reducible repeat' (first
    | assumption
    | split
    | (apply h_bad)
    | (apply h_h)
    | (refine Res.Has.has_trap ?_)
    | (refine Res.Has.has_hold ?_)
    | (refine State.needWalk_wf _ _ _ _ ?_)
    | (refine Has.upd ?_ (State.markAD_mem _ _ _ _ _)))
theorem State.defCell_wf (s : State) (t n g : Nat) (l : List (BitVec 8)) (hs : s.Has Canon) : State.Has Canon (State.defCell s t n g l) := by
  unfold State.defCell
  try dsimp only
  with_reducible repeat' (first
    | assumption
    | split
    | (refine State.seqStore_wf _ _ _ _ ?_)
    | (refine State.setDsc_wf _ _ _ _ _ _ _ ?_)
    | (refine Has.foldl _ ?_ ?_)
    | (refine State.Has.mk ?_; dsimp only; refine State.Has.of ?_)
    | (intro _))
theorem State.cellPages_wf {P : List Host.Cell → Prop} (s : State) (l : List Nat) (hs : s.Has P) : PagesR.Has P (State.cellPages s l) := by
  induction l with
  | nil => exact .has_ok hs
  | cons a r ih =>
    unfold State.cellPages
    dsimp only
    split
    · exact .has_bad hs
    · split
      · split
        · exact ih
        · exact .has_bad hs
      · split
        · exact .has_bad (Has.upd hs (State.dropAns_mem _ _ _ _))
        · exact .has_wait (Has.upd hs (State.startWalk_mem _ _ _ _ _ _ _))
theorem State.newSheet_wf (s : State) (d t va : Nat) (w : Word) (hs : s.Has Canon) : State.Has Canon (State.newSheet s d t va w) := by
  unfold State.newSheet
  try dsimp only
  with_reducible repeat' (first
    | assumption
    | split
    | (refine Has.upd ?_ (State.updDie_mem _ _ _))
    | (refine State.seqStore_wf _ _ _ _ ?_)
    | (refine State.setHdr_wf _ _ _ _ _ _ ?_)
    | (refine State.seqN_wf _ _ _ _ _ ?_)
    | (refine Has.foldl _ ?_ ?_)
    | (refine State.Has.mk ?_; dsimp only; refine State.Has.of ?_)
    | (intro _))
theorem State.cured_wf (s : State) (t n : Nat) (hs : s.Has Canon) : State.Has Canon (State.cured s t n) := by
  unfold State.cured
  try dsimp only
  with_reducible repeat' (first
    | assumption
    | split
    | (refine State.setDsc_wf _ _ _ _ _ _ _ ?_)
    | (refine Has.foldl _ ?_ ?_)
    | (refine State.Has.mk ?_; dsimp only; refine State.Has.of ?_)
    | (intro _))
theorem State.cstSetup_wf (s : State) (d c : BitVec 6) (t n : Nat) (hs : s.Has Canon) : Res.Has Canon (State.cstSetup s d c t n) := by
  unfold State.cstSetup
  try dsimp only
  with_reducible repeat' (first
    | assumption
    | split
    | (refine Res.Has.has_ok ?_)
    | (refine Res.Has.has_to ?_)
    | (refine Res.Has.has_trap ?_)
    | (refine Res.Has.has_hold ?_)
    | (refine Res.Has.has_gone ?_)
    | (refine Got.res_has ?_ ?_)
    | (refine State.cstLate_wf _ _ _ _ _ ?_)
    | (refine State.cured_wf _ _ _ ?_)
    | (refine State.endSt_wf _ _ _ _ _ _ ?_)
    | (refine Has.foldl _ ?_ ?_)
    | (refine State.Has.mk ?_; dsimp only; refine State.Has.of ?_)
    | (intro _))
theorem State.define_wf (s : State) (d : BitVec 6) (sh : Sheet) (ta n : Nat) (l : List (BitVec 8)) (hs : s.Has Canon) : Res.Has Canon (State.define s d sh ta n l) := by
  unfold State.define
  try dsimp only
  with_reducible repeat' (first
    | assumption
    | split
    | (refine Res.Has.has_ok ?_)
    | (refine Res.Has.has_to ?_)
    | (refine Res.Has.has_trap ?_)
    | (refine Res.Has.has_hold ?_)
    | (refine Res.Has.has_gone ?_)
    | (refine Got.res_has ?_ ?_)
    | (refine State.endSt_wf _ _ _ _ _ _ ?_)
    | (refine State.newSheet_wf _ _ _ _ _ ?_)
    | (refine Has.upd ?_ (State.notePages_mem _ _ _))
    | (refine State.defCell_wf _ _ _ _ _ ?_)
    | (refine State.setHdr_wf _ _ _ _ _ _ ?_)
    | (refine State.chains_wf _ _ ?_)
    | (refine State.writeRanks_wf _ _ ?_)
    | (refine Has.foldl _ ?_ ?_)
    | (refine State.Has.mk ?_; dsimp only; refine State.Has.of ?_)
    | (intro _))
theorem State.defBufs_wf {P : List Host.Cell → Prop} (s : State) (l : List (BitVec 8)) (ta : Nat) (cells : Nat) (hs : s.Has P) : PagesR.Has P (State.defBufs s l ta cells) := by
  unfold State.defBufs
  try dsimp only
  with_reducible repeat' (first
    | assumption
    | split
    | (refine PagesR.Has.has_ok ?_)
    | (refine PagesR.Has.has_bad ?_)
    | (refine PagesR.ok_has (by assumption) (State.cellPages_wf _ _ ?_))
    | (refine State.cellPages_wf _ _ ?_))
theorem State.cellRecord_wf {P : List Host.Cell → Prop} (s : State) (i : Instr) (b : BitVec 6) (hs : s.Has P) : Got.Has P (State.cellRecord s i b) := by
  unfold State.cellRecord
  try dsimp only
  with_reducible repeat' (first
    | assumption
    | (refine State.capture_wf _ _ _ _ _ _ ?_))
theorem State.cstCopy_wf (s : State) (src dst : Word) (len : Nat) (hs : s.Has Canon) : CstR.Has Canon (State.cstCopy s src dst len) := by
  unfold State.cstCopy
  dsimp only
  split
  · exact .has_wait hs
  · split
    · exact .has_fail hs
    · split
      · rename_i q; exact .has_wait (CpyAt.wait_has rfl (State.cpyScan_wf _ _ _ _ _ q hs))
      · exact .has_fail (Has.upd (Has.upd (t := { (s.cpyRun _ _ _ _ _ _ _).1 with ans := _ }) (State.cpyRun_wf s _ _ _ _ _ _ _ hs) rfl) (State.ticked_mem _))
      · exact .has_wait hs
      · exact .has_done (Has.upd (Has.upd (t := { (s.cpyRun _ _ _ _ _ _ _).1 with ans := _ }) (State.cpyRun_wf s _ _ _ _ _ _ _ hs) rfl) (State.updMine_mem _ _))
theorem State.startSheet_wf (s : State) (d : Nat) (t : Nat) (hs : s.Has Canon) : State.Has Canon (State.startSheet s d t) := by
  unfold State.startSheet
  try dsimp only
  with_reducible repeat' (first
    | assumption
    | (refine Has.foldl _ ?_ ?_)
    | split
    | (refine State.setHdr_wf _ _ _ _ _ _ ?_)
    | (refine State.setDsc_wf _ _ _ _ _ _ _ ?_)
    | (refine Has.upd ?_ (State.poisonFront_mem _ _ _ _))
    | (refine State.settle_wf _ _ _ _ ?_)
    | (intro _))
theorem State.cstOpen_wf (s : State) (d : BitVec 6) (c : BitVec 6) (sh : Sheet) (n : Nat) (hs : s.Has Canon) : Res.Has Canon (State.cstOpen s d c sh n) := by
  unfold State.cstOpen
  try dsimp only
  with_reducible repeat' (first
    | assumption
    | split
    | (refine State.endSt_wf _ _ _ _ _ _ ?_)
    | (refine State.openGen_wf _ _ _ _ _ ?_)
    | (refine State.cstLate_wf _ _ _ _ _ ?_))
theorem State.edit_wf (s : State) (d : BitVec 6) (sh : Sheet) (n : Nat) (l : List (BitVec 8)) (named : List Nat) (hs : s.Has Canon) : Res.Has Canon (State.edit s d sh n l named) := by
  unfold State.edit
  try dsimp only
  with_reducible repeat' (first
    | assumption
    | split
    | (refine Res.Has.has_ok ?_)
    | (refine Res.Has.has_to ?_)
    | (refine Res.Has.has_trap ?_)
    | (refine Res.Has.has_hold ?_)
    | (refine Res.Has.has_gone ?_)
    | (refine Got.res_has ?_ ?_)
    | (refine State.applyBind_wf _ _ _ _ ?_)
    | (refine State.endSt_wf _ _ _ _ _ _ ?_)
    | (refine State.seqStore_wf _ _ _ _ ?_)
    | (refine State.seqN_wf _ _ _ _ _ ?_)
    | (refine State.openGen_wf _ _ _ _ _ ?_)
    | (refine Has.foldl _ ?_ ?_)
    | (refine State.Has.mk ?_; dsimp only; refine State.Has.of ?_)
    | (intro _))
theorem State.cstStore_wf (s : State) (d : BitVec 6) (b : BitVec 6) (c : BitVec 6) (sh : Sheet) (n : Nat) (hs : s.Has Canon) : Res.Has Canon (State.cstStore s d b c sh n) := by
  unfold State.cstStore
  try dsimp only
  with_reducible repeat' (first
    | assumption
    | split
    | (refine State.cstSetup_wf _ _ _ _ _ ?_)
    | (refine State.cstOpen_wf _ _ _ _ _ ?_)
    | (refine State.cstLate_wf _ _ _ _ _ ?_)
    | (refine CstR.done_has (by assumption) (State.cstCopy_wf _ _ _ _ ?_))
    | (refine CstR.wait_has (by assumption) (State.cstCopy_wf _ _ _ _ ?_))
    | (refine CstR.fail_has (by assumption) (State.cstCopy_wf _ _ _ _ ?_))
    | (refine State.endSt_wf _ _ _ _ _ _ ?_))
theorem State.memberCommit_wf (s : State) (d : Nat) (fm : Formula) (hs : s.Has Canon) : State.Has Canon (State.memberCommit s d fm) := by
  unfold State.memberCommit
  try dsimp only
  with_reducible repeat' (first
    | assumption
    | split
    | (refine Has.upd ?_ (State.updSheet_mem _ _ _ _))
    | (refine State.commitCell_wf _ _ _ _ _ ?_))
theorem execCstat_wf (m : Bool) (d : BitVec 6) (a : BitVec 6) (n : BitVec 16) (sel : BitVec 4) (s : State) (hs : s.Has Canon) : OutHas Canon (execCstat m d a n sel s) := by
  unfold execCstat
  try dsimp only
  with_reducible repeat' (first
    | assumption
    | (refine Res.Has.has_ok ?_)
    | (refine issue_wf _ _ _ _ _ _ ?_ ?_)
    | (refine State.sheetT_wf _ _ _ _ _ _ ?_ ?_ ?_)
    | (refine Has.upd ?_ (State.wvar_mem _ _ _))
    | (intro _))
theorem execCdef_wf (m : Bool) (d : BitVec 6) (a : BitVec 6) (b : BitVec 6) (n : BitVec 16) (s : State) (hs : s.Has Canon) : OutHas Canon (execCdef m d a b n s) := by
  unfold execCdef
  try dsimp only
  with_reducible repeat' (first
    | assumption
    | (refine Got.res_has ?_ ?_)
    | split
    | (refine Res.Has.has_hold ?_)
    | (refine issue_wf _ _ _ _ _ _ ?_ ?_)
    | (refine State.sheetT_wf _ _ _ _ _ _ ?_ ?_ ?_)
    | (refine State.badSheet_wf _ _ _ ?_)
    | (refine State.cellRecord_wf _ _ _ ?_)
    | (refine State.endSt_wf _ _ _ _ _ _ ?_)
    | (refine PagesR.ok_has (by assumption) (State.defBufs_wf _ _ _ _ ?_))
    | (refine PagesR.bad_has (by assumption) (State.defBufs_wf _ _ _ _ ?_))
    | (refine PagesR.wait_has (by assumption) (State.defBufs_wf _ _ _ _ ?_))
    | (refine Has.upd ?_ (State.kept_mem _ _ _))
    | (refine State.define_wf _ _ _ _ _ _ ?_)
    | (intro _))
theorem execCld_wf (m : Bool) (d a b e c : BitVec 6) (n : BitVec 16) (s : State) (hs : s.Has Canon) : OutHas Canon (execCld m d a b e c n s) := by
  refine issue_wf _ _ _ _ _ _ hs fun s h => State.sheetT_wf _ _ _ _ _ _ h (fun s h => State.endCld_wf _ _ _ _ _ _ _ _ h) fun s sh h => ?_
  have he : ∀ (d e : BitVec 6) (w : Word) (a b c : Nat) (g : Option Nat), Res.Has Canon (s.endCld d e w a b c g) :=
    fun _ _ _ _ _ _ _ => State.endCld_wf _ _ _ _ _ _ _ _ h
  dsimp only
  generalize (match s.cur.saved with | [41, g] => some g | _ => none) = taken
  with_reducible repeat' (first
    | exact he _ _ _ _ _ _ _
    | exact Res.Has.has_trap h
    | exact Res.Has.has_hold (Has.upd h (State.updCur_mem _ _))
    | split)
theorem execCunsnap_wf (m : Bool) (a : BitVec 6) (b : BitVec 6) (s : State) (hs : s.Has Canon) : OutHas Canon (execCunsnap m a b s) := by
  unfold execCunsnap
  try dsimp only
  with_reducible repeat' (first
    | assumption
    | split
    | (refine Res.Has.has_ok ?_)
    | (refine Res.Has.has_trap ?_)
    | (refine Res.Has.has_hold ?_)
    | (refine issue_wf _ _ _ _ _ _ ?_ ?_)
    | (refine State.sheetT_wf _ _ _ _ _ _ ?_ ?_ ?_)
    | (refine State.setHdr_wf _ _ _ _ _ _ ?_)
    | (intro _))
theorem cgenI_wf (i : Instr) (m : Bool) (regs : List Nat) (d : BitVec 6) (a : BitVec 6) (h : State → Sheet → Res) (s : State) (hs : s.Has Canon) (h_h : ∀ x0 x1, x0.Has Canon → Res.Has Canon (h x0 x1)) : OutHas Canon (cgenI i m regs d a h s) := by
  unfold cgenI
  try dsimp only
  with_reducible repeat' (first
    | assumption
    | (refine issue_wf _ _ _ _ _ _ ?_ ?_)
    | (refine State.sheetT_wf _ _ _ _ _ _ ?_ ?_ ?_)
    | (refine State.badSheet_wf _ _ _ ?_)
    | (intro _))
theorem execCgenRelease_wf (m : Bool) (d : BitVec 6) (a : BitVec 6) (s : State) (hs : s.Has Canon) : OutHas Canon (execCgenRelease m d a s) := by
  unfold execCgenRelease
  try dsimp only
  with_reducible repeat' (first
    | assumption
    | (refine cgenI_wf _ _ _ _ _ _ _ ?_ ?_)
    | (refine State.endSt_wf _ _ _ _ _ _ ?_)
    | (refine State.setHdr_wf _ _ _ _ _ _ ?_)
    | (intro _))
theorem execCsnap_wf (m : Bool) (d a e : BitVec 6) (s : State) (hs : s.Has Canon) : OutHas Canon (execCsnap m d a e s) := by
  unfold execCsnap
  try dsimp only
  with_reducible repeat' (first
    | assumption
    | (refine Got.res_has ?_ ?_)
    | (refine State.sheetT_wf _ _ _ _ _ _ ?_ ?_ ?_)
    | (refine issue_wf _ _ _ _ _ _ ?_ ?_)
    | split
    | (refine OutHas.has_next ?_)
    | exact OutHas.has_fault
    | exact OutHas.has_refused
    | (refine issue_wf _ _ _ _ _ _ _ ?_)
    | (refine OutHas.next_has (by assumption) (issue_wf _ _ _ _ _ _ _ ?_))
    | (refine State.sheetT_wf _ _ _ _ _ _ _ _ ?_)
    | (refine State.endCld_wf _ _ _ _ _ _ _ _ ?_)
    | (refine State.seqN_wf _ _ _ _ _ ?_)
    | (refine Has.foldl _ ?_ ?_)
    | (refine State.Has.mk ?_; dsimp only; refine State.Has.of ?_)
    | (intro _)
    | (refine Res.Has.has_ok ?_)
    | (refine Res.Has.has_to ?_)
    | (refine Res.Has.has_trap ?_)
    | (refine Res.Has.has_hold ?_)
    | (refine Res.Has.has_gone ?_)
    | (refine Got.Has.has_got ?_)
    | (refine Got.Has.has_stop ?_))
theorem execCst_wf (m : Bool) (d : BitVec 6) (a : BitVec 6) (b : BitVec 6) (c : BitVec 6) (n : BitVec 16) (s : State) (hs : s.Has Canon) : OutHas Canon (execCst m d a b c n s) := by
  unfold execCst
  try dsimp only
  with_reducible repeat' (first
    | assumption
    | split
    | (refine issue_wf _ _ _ _ _ _ ?_ ?_)
    | (refine State.sheetT_wf _ _ _ _ _ _ ?_ ?_ ?_)
    | (refine State.badSheet_wf _ _ _ ?_)
    | (refine State.relHold_wf _ ?_)
    | (refine State.endSt_wf _ _ _ _ _ _ ?_)
    | (refine State.cstStore_wf _ _ _ _ _ _ ?_)
    | (intro _))
theorem execCprec_wf (m : Bool) (d : BitVec 6) (a : BitVec 6) (s : State) (hs : s.Has Canon) : OutHas Canon (execCprec m d a s) := by
  unfold execCprec
  try dsimp only
  with_reducible repeat' (first
    | assumption
    | split
    | (refine Res.Has.has_ok ?_)
    | (refine issue_wf _ _ _ _ _ _ ?_ ?_)
    | (refine Has.upd ?_ (State.wvar_mem _ _ _))
    | (intro _))
theorem execCunb_wf (m : Bool) (d : BitVec 6) (a : BitVec 6) (n : BitVec 16) (s : State) (hs : s.Has Canon) : OutHas Canon (execCunb m d a n s) := by
  unfold execCunb
  try dsimp only
  with_reducible repeat' (first
    | assumption
    | split
    | (refine issue_wf _ _ _ _ _ _ ?_ ?_)
    | (refine State.sheetT_wf _ _ _ _ _ _ ?_ ?_ ?_)
    | (refine State.badSheet_wf _ _ _ ?_)
    | (refine State.endSt_wf _ _ _ _ _ _ ?_)
    | (refine State.edit_wf _ _ _ _ _ _ ?_)
    | (intro _))
theorem execCcommit_wf (m : Bool) (d : BitVec 6) (a : BitVec 6) (s : State) (hs : s.Has Canon) : OutHas Canon (execCcommit m d a s) := by
  unfold execCcommit
  try dsimp only
  with_reducible repeat' (first
    | assumption
    | split
    | (refine Res.Has.has_ok ?_)
    | (refine Res.Has.has_hold ?_)
    | (refine issue_wf _ _ _ _ _ _ ?_ ?_)
    | (refine Has.upd ?_ (State.wvar_mem _ _ _))
    | (refine Has.upd ?_ (State.ticked_mem _))
    | (refine State.relHold_wf _ ?_)
    | (refine Has.upd ?_ (State.updCur_mem _ _))
    | (refine State.cellFail_wf _ _ _ _ ?_)
    | (refine State.memberCommit_wf _ _ _ ?_)
    | (refine State.endSt_wf _ _ _ _ _ _ ?_)
    | (intro _))
theorem execCbind_wf (m : Bool) (d : BitVec 6) (a : BitVec 6) (b : BitVec 6) (n : BitVec 16) (s : State) (hs : s.Has Canon) : OutHas Canon (execCbind m d a b n s) := by
  unfold execCbind
  try dsimp only
  with_reducible repeat' (first
    | assumption
    | (refine Got.res_has ?_ ?_)
    | split
    | (refine Res.Has.has_trap ?_)
    | (refine issue_wf _ _ _ _ _ _ ?_ ?_)
    | (refine State.sheetT_wf _ _ _ _ _ _ ?_ ?_ ?_)
    | (refine State.badSheet_wf _ _ _ ?_)
    | (refine State.cellRecord_wf _ _ _ ?_)
    | (refine State.endSt_wf _ _ _ _ _ _ ?_)
    | (refine State.faultRec_wf _ _ _ _ _ _ _ ?_)
    | (refine State.edit_wf _ _ _ _ _ _ ?_)
    | (intro _))
theorem execCgenPinlim_wf (m : Bool) (d a b : BitVec 6) (s : State) (hs : s.Has Canon) : OutHas Canon (execCgenPinlim m d a b s) := by
  unfold execCgenPinlim
  try dsimp only
  with_reducible repeat' (first
    | assumption
    | (refine Got.res_has ?_ ?_)
    | (refine cgenI_wf _ _ _ _ _ _ _ ?_ ?_)
    | split
    | (refine OutHas.has_next ?_)
    | exact OutHas.has_fault
    | exact OutHas.has_refused
    | (refine cgenI_wf _ _ _ _ _ _ _ _ ?_)
    | (refine OutHas.next_has (by assumption) (cgenI_wf _ _ _ _ _ _ _ _ ?_))
    | (refine State.endSt_wf _ _ _ _ _ _ ?_)
    | (refine State.seqN_wf _ _ _ _ _ ?_)
    | (refine Has.foldl _ ?_ ?_)
    | (refine State.Has.mk ?_; dsimp only; refine State.Has.of ?_)
    | (intro _)
    | (refine Res.Has.has_ok ?_)
    | (refine Res.Has.has_to ?_)
    | (refine Res.Has.has_trap ?_)
    | (refine Res.Has.has_hold ?_)
    | (refine Res.Has.has_gone ?_)
    | (refine Got.Has.has_got ?_)
    | (refine Got.Has.has_stop ?_))
theorem execCgenStart_wf (m : Bool) (d : BitVec 6) (a : BitVec 6) (s : State) (hs : s.Has Canon) : OutHas Canon (execCgenStart m d a s) := by
  unfold execCgenStart
  try dsimp only
  with_reducible repeat' (first
    | assumption
    | split
    | (refine cgenI_wf _ _ _ _ _ _ _ ?_ ?_)
    | (refine State.endSt_wf _ _ _ _ _ _ ?_)
    | (refine State.startSheet_wf _ _ _ ?_)
    | (intro _))
theorem execCgenHold_wf (m : Bool) (d : BitVec 6) (a : BitVec 6) (b : BitVec 6) (s : State) (hs : s.Has Canon) : OutHas Canon (execCgenHold m d a b s) := by
  unfold execCgenHold
  try dsimp only
  with_reducible repeat' (first
    | assumption
    | (refine cgenI_wf _ _ _ _ _ _ _ ?_ ?_)
    | (refine State.endSt_wf _ _ _ _ _ _ ?_)
    | (refine State.setHdr_wf _ _ _ _ _ _ ?_)
    | (intro _))
theorem execCgenWaitgen_wf (m : Bool) (d : BitVec 6) (a : BitVec 6) (b : BitVec 6) (c : BitVec 6) (s : State) (hs : s.Has Canon) : OutHas Canon (execCgenWaitgen m d a b c s) := by
  unfold execCgenWaitgen
  try dsimp only
  with_reducible repeat' (first
    | assumption
    | split
    | (refine Res.Has.has_hold ?_)
    | (refine cgenI_wf _ _ _ _ _ _ _ ?_ ?_)
    | (refine State.endSt_wf _ _ _ _ _ _ ?_)
    | (intro _))
/-! ### Attention -/

theorem State.lnStep_mem (s : State) (n : Nat) (ph : Nat) (at_ : List Nat) : (State.lnStep s n ph at_).mem = s.mem := rfl
theorem State.lnOwn_wf {P : List Host.Cell → Prop} (s : State) (d : BitVec 6) (v : LSlot) (h : Unit → Res) (hs : s.Has P) (h_h : Res.Has P (h ())) : Res.Has P (State.lnOwn s d v h) := by
  unfold State.lnOwn
  try dsimp only
  with_reducible repeat' (first
    | assumption
    | split
    | (refine Res.Has.has_ok ?_)
    | (refine Has.upd ?_ (State.wvar_mem _ _ _)))
theorem State.flDrop_mem (s : State) (d : Nat) : (State.flDrop s d).mem = s.mem := rfl
theorem State.forward_wf {P : List Host.Cell → Prop} (s : State) (v : Kv) (key : Nat) (loc : Nat) (no : Res) (yes : State → Res) (hs : s.Has P) (h_no : Res.Has P (no)) (h_yes : ∀ x0, x0.Has P → Res.Has P (yes x0)) : Res.Has P (State.forward s v key loc no yes) := by
  unfold State.forward
  try dsimp only
  with_reducible repeat' (first
    | assumption
    | split
    | (apply h_yes)
    | (refine Res.Has.has_trap ?_)
    | (refine Res.Has.has_hold ?_)
    | (refine State.relHold_wf _ ?_)
    | (refine Has.upd ?_ (State.updCur_mem _ _))
    | (refine Has.upd ?_ (State.updMine_mem _ _)))
theorem State.queries_wf {P : List Host.Cell → Prop} (s : State) (d b e c rtag : BitVec 6) (v : Kv) (l : List Nat) (n : Nat) (r : List Nat)
    (hs : s.Has P) : Res.Has P (State.queries s d b e c rtag v l n r) := by
  induction r generalizing s n with
  | nil => exact .has_ok (Has.upd hs (State.wvar_mem _ _ _))
  | cons h r ih =>
    unfold State.queries
    dsimp only
    split
    · exact .has_ok (Has.upd hs (State.wvar_mem _ _ _))
    · split
      · exact .has_hold (Has.upd hs (State.updCur_mem _ _))
      · exact ih _ _ (Has.upd hs (State.updMine_mem _ _))
theorem State.lnI_wf {P : List Host.Cell → Prop} (s : State) (d : BitVec 6) (a : BitVec 6) (h : State → Nat → LSlot → Res) (hs : s.Has P) (h_h : ∀ x0 x1 x2, x0.Has P → Res.Has P (h x0 x1 x2)) : Res.Has P (State.lnI s d a h) := by
  unfold State.lnI
  try dsimp only
  with_reducible repeat' (first
    | assumption
    | split
    | (apply h_h)
    | (refine Res.Has.has_ok ?_)
    | (refine Res.Has.has_hold ?_)
    | (refine Has.upd ?_ (State.wvar_mem _ _ _)))
theorem State.setLslot_mem (s : State) (d : Nat) (n : Nat) (v : LSlot) : (State.setLslot s d n v).mem = s.mem := rfl
theorem State.lnBreak_wf {P : List Host.Cell → Prop} (s : State) (d : BitVec 6) (n : Nat) (kind : Nat) (v : LSlot) (hs : s.Has P) : Res.Has P (State.lnBreak s d n kind v) := by
  unfold State.lnBreak
  try dsimp only
  with_reducible repeat' (first
    | assumption
    | (refine Res.Has.has_ok ?_)
    | (refine Has.upd ?_ (State.wvar_mem _ _ _))
    | (refine Has.upd ?_ (State.setLslot_mem _ _ _ _)))
theorem State.setCairn_wf (s : State) (k : Nat) (v : Kv) (n : Nat) (key : Nat) (w : Nat) (hs : s.Has Canon) : State.Has Canon (State.setCairn s k v n key w) := by
  unfold State.setCairn
  try dsimp only
  with_reducible repeat' (first
    | assumption
    | (refine State.poolStore_wf _ _ _ _ ?_))
theorem State.setFree_wf (s : State) (k : Nat) (v : Kv) (n : Nat) (free : Bool) (hs : s.Has Canon) : State.Has Canon (State.setFree s k v n free) := by
  unfold State.setFree
  try dsimp only
  with_reducible repeat' (first
    | assumption
    | split
    | (refine State.poolStore_wf _ _ _ _ ?_))
theorem State.liveAdd_wf (s : State) (k : Nat) (v : Kv) (n : Nat) (hs : s.Has Canon) : State.Has Canon (State.liveAdd s k v n) := by
  unfold State.liveAdd
  try dsimp only
  with_reducible repeat' (first
    | assumption
    | (refine State.poolStore_wf _ _ _ _ ?_))
theorem State.unitEl_wf (s : State) (d ctx pa : Nat) (w : Word) (l : List (BitVec 8)) (hs : s.Has Canon) : State.Has Canon (State.unitEl s d ctx pa w l) := by
  unfold State.unitEl
  try dsimp only
  with_reducible repeat' (first
    | assumption
    | split
    | (refine Has.upd ?_ (State.flits_mem _ _ _))
    | (refine State.unitStore_wf _ _ _ ?_)
    | (refine State.put_wf _ _ _ _ _ _ _ _ ?_)
    | (refine State.unitPut_wf _ _ _ _ _ _ ?_)
    | (refine Has.foldl _ ?_ ?_)
    | (refine State.Has.mk ?_; dsimp only; refine State.Has.of ?_)
    | (intro _))
theorem State.writePlaces_wf (s : State) (d : Nat) (ctx : Nat) (u : Nat) (ps : List (Nat × Word)) (l : List (BitVec 8)) (hs : s.Has Canon) : State.Has Canon (State.writePlaces s d ctx u ps l) := by
  unfold State.writePlaces
  try dsimp only
  with_reducible repeat' (first
    | assumption
    | (refine Has.foldl _ ?_ ?_)
    | (refine State.unitEl_wf _ _ _ _ _ _ ?_)
    | (intro _))
theorem State.lnSheet_wf {P : List Host.Cell → Prop} (s : State) (d : Nat) (v : LSlot) (hs : s.Has P) : UMem.Has P (State.lnSheet s d v) := by
  unfold State.lnSheet
  try dsimp only
  with_reducible repeat' (first
    | assumption
    | split
    | (refine UMem.Has.has_got ?_)
    | (refine UMem.Has.has_wait ?_)
    | (refine UMem.Has.has_fault ?_)
    | (refine UAcc.go_has (by assumption) (State.unitAcc_wf _ _ _ _ _ _ ?_))
    | (refine UAcc.wait_has (by assumption) (State.unitAcc_wf _ _ _ _ _ _ ?_))
    | (refine UAcc.fail_has (by assumption) (State.unitAcc_wf _ _ _ _ _ _ ?_)))
theorem State.unitXlats_wf {P : List Host.Cell → Prop} (s : State) (d : Nat) (u : Nat) (ctx : Nat) (needs : Bool × Bool × Bool) (a5 : List Nat) (hs : s.Has P) : UMem.Has P (State.unitXlats s d u ctx needs a5) := by
  revert hs
  fun_induction State.unitXlats s d u ctx needs a5
  all_goals with_reducible repeat' (first
    | assumption
    | (refine UMem.Has.has_got ?_)
    | (refine UMem.Has.has_wait ?_)
    | (refine UMem.Has.has_fault ?_)
    | (refine UAcc.wait_has (by assumption) (State.unitAcc_wf _ _ _ _ _ _ ?_))
    | (refine UAcc.fail_has (by assumption) (State.unitAcc_wf _ _ _ _ _ _ ?_))
    | (intro _))
theorem State.unitByte_wf {P : List Host.Cell → Prop} (s : State) (d : Nat) (u : Nat) (ctx : Nat) (k : Nat) (f : Nat) (va : Nat) (needs : Bool × Bool × Bool) (hs : s.Has P) : UMem.Has P (State.unitByte s d u ctx k f va needs) := by
  unfold State.unitByte
  try dsimp only
  with_reducible repeat' (first
    | assumption
    | split
    | (refine UMem.Has.has_got ?_)
    | (refine UMem.Has.has_wait ?_)
    | (refine UMem.Has.has_fault ?_)
    | (refine UAcc.go_has (by assumption) (State.unitAcc_wf _ _ _ _ _ _ ?_))
    | (refine UAcc.wait_has (by assumption) (State.unitAcc_wf _ _ _ _ _ _ ?_))
    | (refine UAcc.fail_has (by assumption) (State.unitAcc_wf _ _ _ _ _ _ ?_))
    | (refine Has.upd ?_ (State.updFr_mem _ _ _ _)))
theorem State.ring_wf {P : List Host.Cell → Prop} (s : State) (i : Instr) (v : Kv) (hash : Nat) (hs : s.Has P) : Got.Has P (State.ring s i v hash) := by
  unfold State.ring
  try dsimp only
  with_reducible repeat' (first
    | assumption
    | (refine State.load_wf _ _ _ _ _ _ ?_ ?_)
    | (refine regLoad_wf _ _ _ ?_)
    | (intro _))
theorem State.unitPlaces_wf {P : List Host.Cell → Prop} (s : State) (d u ctx k f : Nat) (needs : Bool × Bool × Bool) (l : List Nat) (hs : s.Has P) :
    UMem.Has P (State.unitPlaces s d u ctx k f needs l) := by
  induction l generalizing s with
  | nil => exact .has_got hs
  | cons a r ih =>
    have hb := State.unitByte_wf s d u ctx k f a needs hs
    unfold State.unitPlaces
    generalize s.unitByte d u ctx k f a needs = x at hb
    cases hb with
    | has_wait h => exact .has_wait h
    | has_fault h => exact .has_fault h
    | @has_got t _ h =>
      have ih := ih t h
      dsimp only
      generalize t.unitPlaces d u ctx k f needs r = y at ih
      cases ih with
      | has_wait h => exact .has_wait h
      | has_fault h => exact .has_fault h
      | has_got h => exact .has_got h
theorem State.homes_wf {P : List Host.Cell → Prop} (s : State) (i : Instr) (v : Kv) (l : List Nat) (hs : s.Has P) : Got.Has P (State.homes s i v l) := by
  induction l generalizing s with
  | nil => exact .has_got hs
  | cons a r ih =>
    unfold State.homes
    exact Got.bind_has (State.ring_wf _ _ _ _ hs) fun _ _ h => Got.bind_has (ih _ h) fun _ _ h => .has_got h
theorem State.flPush_wf (s : State) (d ctx k f p : Nat) (hs : s.Has Canon) : FlW.Has Canon (s.flPush d ctx k f p) := by
  unfold State.flPush
  dsimp only
  split
  · exact .has_code hs
  split
  · exact .has_code hs
  split
  · exact .has_code hs
  have hu := State.unitPlaces_wf s d (freeUnit d) ctx k f needW (addrs ((s.die d).fl.stack.toNat + 4 * (s.die d).fl.top) 4) hs
  generalize s.unitPlaces _ _ _ _ _ _ _ = z at hu
  cases hu with
  | has_wait h => exact .has_wait h
  | has_fault h => exact .has_code h
  | has_got h => exact .has_done (Has.upd (State.writePlaces_wf _ _ _ _ _ _ h) (State.updDie_mem _ _ _))
theorem State.kv_wf {P : List Host.Cell → Prop} (s : State) (i : Instr) (a : BitVec 6) (bad : State → Res) (h : State → Kv → Res) (hs : s.Has P) (h_bad : ∀ x0, x0.Has P → Res.Has P (bad x0)) (h_h : ∀ x0 x1, x0.Has P → Res.Has P (h x0 x1)) : Res.Has P (State.kv s i a bad h) := by
  unfold State.kv
  try dsimp only
  with_reducible repeat' (first
    | assumption
    | (refine Got.res_has ?_ ?_)
    | split
    | (apply h_bad)
    | (apply h_h)
    | (refine State.loadRun_wf _ _ _ _ _ _ _ _ _ ?_)
    | (intro _))
theorem State.lnWrite_wf (s : State) (d : BitVec 6) (n ph : Nat) (v : LSlot) (u : Nat) (as : List Nat)
    (l : State → List (Nat × Word) → List (BitVec 8)) (h : State → Res) (hs : s.Has Canon) (hh : ∀ t, t.Has Canon → Res.Has Canon (h t)) :
    Res.Has Canon (s.lnWrite d n ph v u as l h) := by
  have hu := State.unitPlaces_wf s (dieOf s.turn) (lanternUnit (dieOf s.turn)) v.ctx s.turn s.fi needW as hs
  unfold State.lnWrite
  dsimp only
  generalize s.unitPlaces _ _ _ _ _ _ _ = z at hu
  cases hu with
  | has_wait h => exact .has_hold (Has.upd h (State.lnStep_mem _ _ _ _))
  | has_fault h => exact State.lnBreak_wf _ _ _ _ _ h
  | has_got h => exact hh _ (State.writePlaces_wf _ _ _ _ _ _ h)
theorem State.flPeek_wf {P : List Host.Cell → Prop} (s : State) (d ctx k f : Nat) (hs : s.Has P) : FlR.Has P (s.flPeek d ctx k f) := by
  unfold State.flPeek
  dsimp only
  split
  · exact .has_code hs
  split
  · exact .has_code hs
  have hu := State.unitPlaces_wf s d (freeUnit d) ctx k f needR (addrs ((s.die d).fl.stack.toNat + 4 * ((s.die d).fl.top - 1)) 4) hs
  generalize s.unitPlaces _ _ _ _ _ _ _ = z at hu
  cases hu with
  | has_wait h => exact .has_wait h
  | has_fault h => exact .has_code h
  | has_got h => exact .has_got h
theorem State.append_wf (s : State) (i : Instr) (d : BitVec 6) (v : Kv) (key t : Nat) (tok : List Fp) (e : Dest) (hs : s.Has Canon) : Res.Has Canon (State.append s i d v key t tok e) := by
  unfold State.append
  try dsimp only
  with_reducible repeat' (first
    | assumption
    | split
    | (refine Res.Has.has_ok ?_)
    | (refine Res.Has.has_to ?_)
    | (refine Res.Has.has_trap ?_)
    | (refine Res.Has.has_hold ?_)
    | (refine Res.Has.has_gone ?_)
    | (refine Got.res_has ?_ ?_)
    | (refine State.relHold_wf _ ?_)
    | (refine State.storeRun_wf _ _ _ _ _ _ _ _ ?_)
    | (refine Got.got_has (by assumption) (State.storeRun_wf _ _ _ _ _ _ _ _ ?_))
    | (refine Got.stop_has (by assumption) (State.storeRun_wf _ _ _ _ _ _ _ _ ?_))
    | (refine State.setCairn_wf _ _ _ _ _ _ ?_)
    | (refine State.liveAdd_wf _ _ _ _ ?_)
    | (refine State.setFree_wf _ _ _ _ _ ?_)
    | (refine Has.upd ?_ (State.flDrop_mem _ _))
    | (refine Has.upd ?_ (State.flag_mem _ _))
    | (refine Has.upd ?_ (State.wvar_mem _ _ _))
    | (refine State.loadRun_wf _ _ _ _ _ _ _ _ _ ?_)
    | (refine Got.got_has (by assumption) (State.loadRun_wf _ _ _ _ _ _ _ _ _ ?_))
    | (refine Got.stop_has (by assumption) (State.loadRun_wf _ _ _ _ _ _ _ _ _ ?_))
    | (refine Has.foldl _ ?_ ?_)
    | (refine State.Has.mk ?_; dsimp only; refine State.Has.of ?_)
    | (intro _))
theorem State.lnCst_wf (s : State) (d : BitVec 6) (n : Nat) (v : LSlot) (com : List Nat) (j : Nat) (wrote : Bool) (l : List (Nat × Nat × Nat)) (hs : s.Has Canon) :
    Res.Has Canon (State.lnCst s d n v com j wrote l) := by
  induction l generalizing s j wrote with
  | nil =>
    unfold State.lnCst
    split
    · exact .has_hold (Has.upd hs (State.lnStep_mem _ _ _ _))
    · exact .has_ok (Has.upd (Has.upd hs (State.setLslot_mem _ _ _ _)) (State.wvar_mem _ _ _))
  | cons c r ih =>
    have hl := State.lnSheet_wf s (dieOf s.turn) v hs
    unfold State.lnCst
    extract_lets dd
    change UMem.Has Canon (s.lnSheet dd v) at hl
    generalize s.lnSheet dd v = x at hl
    cases hl with
    | has_wait h =>
      refine .has_hold ?_
      split
      · exact h
      · exact Has.upd h (State.lnStep_mem _ _ _ _)
    | has_fault h => exact State.lnBreak_wf _ _ _ _ _ h
    | @has_got t o h =>
      cases o with
      | none => exact State.lnBreak_wf _ _ _ _ _ h
      | some sh =>
        dsimp -zeta only
        extract_lets t opening
        have ho : ∀ s, s.Has Canon → Res.Has Canon (opening s) := by
          intro s h
          dsimp only [opening]
          split
          · exact ih _ _ _ (State.cured_wf _ _ _ h)
          split
          · exact .has_hold (Has.upd h (State.lnStep_mem _ _ _ _))
          · exact ih _ _ _ (State.openGen_wf _ _ _ _ _ h)
        clear_value opening
        split
        · exact .has_ok (Has.upd (Has.upd h (State.setLslot_mem _ _ _ _)) (State.wvar_mem _ _ _))
        split
        · exact ho _ h
        split
        · exact .has_hold (Has.upd h (State.lnStep_mem _ _ _ _))
        · exact State.lnWrite_wf _ _ _ _ _ _ _ _ _ h ho
theorem State.lnRun_wf (s : State) (d : BitVec 6) (n : Nat) (ph : Nat) (wrote : Bool) (hs : s.Has Canon) : Res.Has Canon (State.lnRun s d n ph wrote) := by
  unfold State.lnRun
  try dsimp only
  with_reducible repeat' (first
    | assumption
    | split
    | (refine Res.Has.has_hold ?_)
    | (refine Has.upd ?_ (State.lnStep_mem _ _ _ _))
    | (refine State.lnCst_wf _ _ _ _ _ _ _ _ ?_)
    | (refine State.lnWrite_wf _ _ _ _ _ _ _ _ _ ?_ ?_)
    | (intro _))
theorem execFlpush_wf (m : Bool) (d : BitVec 6) (a : BitVec 6) (b : BitVec 6) (s : State) (hs : s.Has Canon) : OutHas Canon (execFlpush m d a b s) := by
  unfold execFlpush
  try dsimp only
  with_reducible repeat' (first
    | assumption
    | split
    | (refine Res.Has.has_ok ?_)
    | (refine Res.Has.has_hold ?_)
    | (refine issue_wf _ _ _ _ _ _ ?_ ?_)
    | (refine Has.upd ?_ (State.wvar_mem _ _ _))
    | (refine State.relHold_wf _ ?_)
    | (refine FlW.done_has (by assumption) (State.flPush_wf _ _ _ _ _ _ ?_))
    | (refine FlW.code_has (by assumption) (State.flPush_wf _ _ _ _ _ _ ?_))
    | (refine FlW.wait_has (by assumption) (State.flPush_wf _ _ _ _ _ _ ?_))
    | (intro _))
theorem execFlpop_wf (m : Bool) (d : BitVec 6) (a : BitVec 6) (s : State) (hs : s.Has Canon) : OutHas Canon (execFlpop m d a s) := by
  unfold execFlpop
  try dsimp only
  with_reducible repeat' (first
    | assumption
    | split
    | (refine Res.Has.has_ok ?_)
    | (refine Res.Has.has_hold ?_)
    | (refine issue_wf _ _ _ _ _ _ ?_ ?_)
    | (refine Has.upd ?_ (State.wvar_mem _ _ _))
    | (refine FlR.got_has (by assumption) (State.flPeek_wf _ _ _ _ _ ?_))
    | (refine FlR.code_has (by assumption) (State.flPeek_wf _ _ _ _ _ ?_))
    | (refine FlR.wait_has (by assumption) (State.flPeek_wf _ _ _ _ _ ?_))
    | (refine Has.upd ?_ (State.flDrop_mem _ _))
    | (intro _))
theorem execLnrank_wf (m : Bool) (d a b : BitVec 6) (s : State) (hs : s.Has Canon) : OutHas Canon (execLnrank m d a b s) := by
  refine issue_wf _ _ _ _ _ _ hs fun s h => State.lnI_wf _ _ _ _ h fun s n v h => State.lnOwn_wf _ _ _ _ h ?_
  dsimp only
  split
  · exact .has_ok (Has.upd h (State.wvar_mem _ _ _))
  split
  · exact State.relHold_wf _ h
  have hu := State.unitPlaces_wf s (dieOf s.turn) (lanternUnit (dieOf s.turn)) v.ctx s.turn s.fi needR
    (addrs (s.xn b) (4 * v.npos) ++ addrs (v.w 3).toNat (v.npos / 8)) h
  generalize dieOf s.turn = dd at hu ⊢
  generalize s.unitPlaces _ _ _ _ _ _ _ = z at hu
  cases hu with
  | has_wait h => exact .has_hold h
  | has_fault h => exact .has_ok (Has.upd h (State.wvar_mem _ _ _))
  | has_got h => exact .has_ok (Has.upd (Has.upd h (State.setLslot_mem _ _ _ _)) (State.wvar_mem _ _ _))
theorem execKlook_wf (m : Bool) (d : BitVec 6) (a : BitVec 6) (b : BitVec 6) (e : BitVec 6) (fwd : BitVec 4) (s : State) (hs : s.Has Canon) : OutHas Canon (execKlook m d a b e fwd s) := by
  unfold execKlook
  try dsimp only
  with_reducible repeat' (first
    | assumption
    | (refine Got.res_has ?_ ?_)
    | split
    | (refine Res.Has.has_ok ?_)
    | (refine Res.Has.has_hold ?_)
    | (refine issue_wf _ _ _ _ _ _ ?_ ?_)
    | (refine Has.upd ?_ (State.wvar_mem _ _ _))
    | (refine State.kv_wf _ _ _ _ _ ?_ ?_ ?_)
    | (refine State.forward_wf _ _ _ _ _ _ ?_ ?_ ?_)
    | (refine State.ring_wf _ _ _ _ ?_)
    | (intro _))
theorem execLncfg_wf (m : Bool) (d : BitVec 6) (a : BitVec 6) (b : BitVec 6) (s : State) (hs : s.Has Canon) : OutHas Canon (execLncfg m d a b s) := by
  unfold execLncfg
  try dsimp only
  with_reducible repeat' (first
    | assumption
    | (refine Got.res_has ?_ ?_)
    | split
    | (refine Res.Has.has_ok ?_)
    | (refine issue_wf _ _ _ _ _ _ ?_ ?_)
    | (refine State.lnI_wf _ _ _ _ ?_ ?_)
    | (refine Has.upd ?_ (State.wvar_mem _ _ _))
    | (refine Has.upd ?_ (State.setLslot_mem _ _ _ _))
    | (refine State.loadRun_wf _ _ _ _ _ _ _ _ _ ?_)
    | (intro _))
theorem execKappend_wf (m : Bool) (d : BitVec 6) (a : BitVec 6) (b : BitVec 6) (c : BitVec 6) (s : State) (hs : s.Has Canon) : OutHas Canon (execKappend m d a b c s) := by
  unfold execKappend
  try dsimp only
  with_reducible repeat' (first
    | assumption
    | (refine Got.res_has ?_ ?_)
    | split
    | (refine Res.Has.has_ok ?_)
    | (refine Res.Has.has_trap ?_)
    | (refine Res.Has.has_hold ?_)
    | (refine issue_wf _ _ _ _ _ _ ?_ ?_)
    | (refine State.kv_wf _ _ _ _ _ ?_ ?_ ?_)
    | (refine Has.upd ?_ (State.wvar_mem _ _ _))
    | (refine State.loadRun_wf _ _ _ _ _ _ _ _ _ ?_)
    | (refine State.append_wf _ _ _ _ _ _ _ _ ?_)
    | (refine State.ring_wf _ _ _ _ ?_)
    | (refine FlR.got_has (by assumption) (State.flPeek_wf _ _ _ _ _ ?_))
    | (refine FlR.code_has (by assumption) (State.flPeek_wf _ _ _ _ _ ?_))
    | (refine FlR.wait_has (by assumption) (State.flPeek_wf _ _ _ _ _ ?_))
    | (intro _))
theorem execLnstat_wf (m : Bool) (d : BitVec 6) (a : BitVec 6) (s : State) (hs : s.Has Canon) : OutHas Canon (execLnstat m d a s) := by
  unfold execLnstat
  try dsimp only
  with_reducible repeat' (first
    | assumption
    | split
    | (refine Res.Has.has_ok ?_)
    | (refine issue_wf _ _ _ _ _ _ ?_ ?_)
    | (refine State.lnI_wf _ _ _ _ ?_ ?_)
    | (refine Has.upd ?_ (State.wvar_mem _ _ _))
    | (intro _))
theorem execKrehome_wf (m : Bool) (d : BitVec 6) (a : BitVec 6) (b : BitVec 6) (c : BitVec 6) (s : State) (hs : s.Has Canon) : OutHas Canon (execKrehome m d a b c s) := by
  unfold execKrehome
  try dsimp only
  with_reducible repeat' (first
    | assumption
    | (refine Got.res_has ?_ ?_)
    | split
    | (refine Res.Has.has_ok ?_)
    | (refine Res.Has.has_hold ?_)
    | (refine issue_wf _ _ _ _ _ _ ?_ ?_)
    | (refine Has.upd ?_ (State.wvar_mem _ _ _))
    | (refine State.kv_wf _ _ _ _ _ ?_ ?_ ?_)
    | (refine State.relHold_wf _ ?_)
    | (refine Has.upd ?_ (State.updCur_mem _ _))
    | (refine Has.upd ?_ (State.updMine_mem _ _))
    | (refine State.loadRun_wf _ _ _ _ _ _ _ _ _ ?_)
    | (intro _))
theorem execLncommit_wf (m : Bool) (d a : BitVec 6) (s : State) (hs : s.Has Canon) : OutHas Canon (execLncommit m d a s) := by
  refine issue_wf _ _ _ _ _ _ hs fun s h => State.lnI_wf _ _ _ _ h fun s n v h => ?_
  dsimp only
  split
  · exact State.lnRun_wf _ _ _ _ _ h
  · exact State.lnRun_wf _ _ _ _ _ h
  · refine State.lnOwn_wf _ _ _ _ h ?_
    split
    · exact .has_ok (Has.upd h (State.wvar_mem _ _ _))
    · split
      · exact State.relHold_wf _ h
      · have hl : UMem.Has Canon (if v.cells ((v.round + 1) % 2 ^ 32) (v.rank.take v.take) = [] then UMem.got s none
            else s.lnSheet (dieOf s.turn) v) := by
          split
          · exact .has_got h
          · exact State.lnSheet_wf _ _ _ h
        generalize (if v.cells ((v.round + 1) % 2 ^ 32) (v.rank.take v.take) = [] then UMem.got s none
            else s.lnSheet (dieOf s.turn) v) = x at hl
        generalize dieOf s.turn = dd
        cases hl with
        | has_wait h => exact .has_hold h
        | has_fault h => exact .has_ok (Has.upd h (State.wvar_mem _ _ _))
        | @has_got t o h =>
          dsimp only
          split
          · exact .has_ok (Has.upd h (State.wvar_mem _ _ _))
          · have hu := State.unitXlats_wf t dd (lanternUnit dd) v.ctx needW
              ((v.places v.take).1 ++ (v.places v.take).2.1 ++ (v.places v.take).2.2) h
            generalize t.unitXlats _ _ _ _ _ = y at hu
            cases hu with
            | has_wait h => exact .has_hold h
            | has_fault h => exact .has_ok (Has.upd h (State.wvar_mem _ _ _))
            | has_got h => exact State.lnRun_wf _ _ _ _ _ (Has.upd h (State.setLslot_mem _ _ _ _))
theorem execKqry_wf (m : Bool) (d : BitVec 6) (a : BitVec 6) (b : BitVec 6) (e : BitVec 6) (c : BitVec 6) (rtag : BitVec 6) (nb : BitVec 4) (s : State) (hs : s.Has Canon) : OutHas Canon (execKqry m d a b e c rtag nb s) := by
  unfold execKqry
  try dsimp only
  with_reducible repeat' (first
    | assumption
    | (refine Got.res_has ?_ ?_)
    | split
    | (refine Res.Has.has_ok ?_)
    | (refine issue_wf _ _ _ _ _ _ ?_ ?_)
    | (refine State.relHold_wf _ ?_)
    | (refine Has.upd ?_ (State.updCur_mem _ _))
    | (refine State.queries_wf _ _ _ _ _ _ _ _ _ _ ?_)
    | (refine State.kv_wf _ _ _ _ _ ?_ ?_ ?_)
    | (refine Has.upd ?_ (State.wvar_mem _ _ _))
    | (refine State.homes_wf _ _ _ _ ?_)
    | (intro _))
/-! ### Isolation -/

theorem State.tlbDrop_mem (s : State) (ctx : Nat) (a : Nat) (n : Nat) : (State.tlbDrop s ctx a n).mem = s.mem := rfl
theorem State.install_mem (s : State) (d : Nat) (w : Option Walk) (x : TlbEnt) : (State.install s d w x).mem = s.mem := by
  refine Has.eq fun P h => ?_
  unfold State.install
  try dsimp only
  with_reducible repeat' (first
    | assumption
    | split
    | (refine Has.upd ?_ (State.updDie_mem _ _ _))
    | (refine Has.upd ?_ (State.updCore_mem _ _ _))
    | (refine Has.upd ?_ (State.updCamp_mem _ _ _)))
theorem State.tlbw_wf (s : State) (d : Nat) (e : Word) (va : Word) (ctx : Word) (tok : Word) (hs : s.Has Canon) : (State.tlbw s d e va ctx tok).1.Has Canon := by
  unfold State.tlbw
  try dsimp only
  with_reducible repeat' (first
    | assumption
    | split
    | (refine State.walkNo_wf _ _ _ ?_)
    | (refine Has.upd ?_ (State.install_mem _ _ _ _))
    | (refine State.walkYes_wf _ _ _ ?_))
theorem execSlogq_wf (m : Bool) (d : BitVec 6) (a : BitVec 6) (s : State) (hs : s.Has Canon) : OutHas Canon (execSlogq m d a s) := by
  unfold execSlogq
  try dsimp only
  with_reducible repeat' (first
    | assumption
    | split
    | (refine Res.Has.has_ok ?_)
    | (refine issue_wf _ _ _ _ _ _ ?_ ?_)
    | (refine Has.upd ?_ (State.wvar_mem _ _ _))
    | (intro _))
theorem execTlbw_wf (m : Bool) (d : BitVec 6) (a : BitVec 6) (b : BitVec 6) (e : BitVec 6) (c : BitVec 6) (s : State) (hs : s.Has Canon) : OutHas Canon (execTlbw m d a b e c s) := by
  unfold execTlbw
  try dsimp only
  with_reducible repeat' (first
    | assumption
    | split
    | (refine Res.Has.has_ok ?_)
    | (refine Res.Has.has_trap ?_)
    | (refine issue_wf _ _ _ _ _ _ ?_ ?_)
    | (refine State.tlbw_wf _ _ _ _ _ _ ?_)
    | (refine Has.upd ?_ (State.wvar_mem _ _ _))
    | (intro _))
theorem execCapset_wf (m : Bool) (d : BitVec 6) (a : BitVec 6) (s : State) (hs : s.Has Canon) : OutHas Canon (execCapset m d a s) := by
  unfold execCapset
  try dsimp only
  with_reducible repeat' (first
    | assumption
    | (refine Res.Has.has_ok ?_)
    | (refine issue_wf _ _ _ _ _ _ ?_ ?_)
    | (refine Has.upd ?_ (State.wvar_mem _ _ _))
    | (refine Has.upd ?_ (State.updMine_mem _ _))
    | (intro _))
theorem execCtxq_wf (m : Bool) (d : BitVec 6) (a : BitVec 6) (s : State) (hs : s.Has Canon) : OutHas Canon (execCtxq m d a s) := by
  unfold execCtxq
  try dsimp only
  with_reducible repeat' (first
    | assumption
    | split
    | (refine Res.Has.has_ok ?_)
    | (refine issue_wf _ _ _ _ _ _ ?_ ?_)
    | (refine Has.upd ?_ (State.wvar_mem _ _ _))
    | (intro _))
theorem execTlbinv_wf (m : Bool) (d : BitVec 6) (a : BitVec 6) (b : BitVec 6) (c : BitVec 6) (s : State) (hs : s.Has Canon) : OutHas Canon (execTlbinv m d a b c s) := by
  unfold execTlbinv
  try dsimp only
  with_reducible repeat' (first
    | assumption
    | split
    | (refine Res.Has.has_ok ?_)
    | (refine Res.Has.has_trap ?_)
    | (refine Res.Has.has_hold ?_)
    | (refine issue_wf _ _ _ _ _ _ ?_ ?_)
    | (refine Has.upd ?_ (State.wvar_mem _ _ _))
    | (refine Has.upd ?_ (State.tlbDrop_mem _ _ _ _))
    | (intro _))
theorem execTlbprb_wf (m : Bool) (d : BitVec 6) (a : BitVec 6) (e : BitVec 6) (c : BitVec 6) (s : State) (hs : s.Has Canon) : OutHas Canon (execTlbprb m d a e c s) := by
  unfold execTlbprb
  try dsimp only
  with_reducible repeat' (first
    | assumption
    | split
    | (refine Res.Has.has_ok ?_)
    | (refine Res.Has.has_trap ?_)
    | (refine issue_wf _ _ _ _ _ _ ?_ ?_)
    | (refine Has.upd ?_ (State.wvar_mem _ _ _))
    | (intro _))

end Sys2Proof.Machine
end

