-- ==== Sys2Proof/Laws/KeepsUnits.lean ====
section
/-! SUPPORT. Memory stays canonical under the units' acts and the events (see KeepsCore). -/
namespace Sys2Proof.Machine

/-! ### Recovery -/

theorem State.freeFlow_mem (s : State) (n : Nat) (x : Flow) : (State.freeFlow s n x).mem = s.mem := rfl
theorem State.endCg_wf {P : List Host.Cell → Prop} (s : State) (d : BitVec 6) (code : Nat) (g : Group) (hs : s.Has P) : Res.Has P (State.endCg s d code g) := by
  unfold State.endCg
  try dsimp only
  with_reducible repeat' (first
    | assumption
    | (refine Res.Has.has_ok ?_)
    | (refine Has.upd ?_ (State.wvar_mem _ _ _)))
theorem State.formed_wf (s : State) (g : Nat) (inc : Nat) (hs : s.Has Canon) : State.Has Canon (State.formed s g inc) := by
  unfold State.formed
  try dsimp only
  with_reducible repeat' (first
    | assumption
    | (refine State.post_wf _ _ _ _ _ _ ?_)
    | (refine Has.upd ?_ (State.setGroup_mem _ _ _))
    | (refine State.Has.mk ?_; dsimp only; refine State.Has.of ?_))
theorem State.commit_wf (s : State) (g : Nat) (inc : Nat) (hs : s.Has Canon) : State.Has Canon (State.commit s g inc) := by
  unfold State.commit
  with_reducible repeat' (first
    | assumption
    | (refine Has.foldl _ ?_ ?_)
    | (refine State.formed_wf _ _ _ ?_)
    | (refine Has.upd ?_ (State.flits_mem _ _ _))
    | (intro _))
theorem State.tryCommit_wf (s : State) (g : Nat) (hs : s.Has Canon) : State.Has Canon (State.tryCommit s g) := by
  unfold State.tryCommit
  try dsimp only
  with_reducible repeat' (first
    | assumption
    | split
    | (refine State.post_wf _ _ _ _ _ _ ?_)
    | (refine Has.upd ?_ (State.setGroup_mem _ _ _))
    | (refine State.commit_wf _ _ _ ?_))
theorem State.joinArrive_wf (s : State) (g : Nat) (j : Join) (hs : s.Has Canon) : State.Has Canon (State.joinArrive s g j) := by
  unfold State.joinArrive
  try dsimp only
  with_reducible repeat' (first
    | assumption
    | split
    | (refine State.record_wf _ _ _ ?_)
    | (refine Got.got_has (by assumption) (State.record_wf _ _ _ ?_))
    | (refine Got.stop_has (by assumption) (State.record_wf _ _ _ ?_))
    | (refine Has.upd ?_ (State.flits_mem _ _ _))
    | (refine Has.upd ?_ (State.setGroup_mem _ _ _))
    | (refine State.tryCommit_wf _ _ ?_)
    | (refine Has.foldl _ ?_ ?_)
    | (refine State.Has.mk ?_; dsimp only; refine State.Has.of ?_)
    | (intro _))
theorem State.join_wf (s : State) (g : Nat) (l : List (BitVec 8)) (ms : List (Nat × Nat)) (hs : s.Has Canon) : Res.Has Canon (State.join s g l ms) := by
  unfold State.join
  try dsimp only
  with_reducible repeat' (first
    | assumption
    | split
    | (refine Res.Has.has_hold ?_)
    | (refine Has.upd ?_ (State.updCur_mem _ _))
    | (refine Has.upd ?_ (State.setGroup_mem _ _ _))
    | (refine Has.upd ?_ (State.flits_mem _ _ _))
    | (refine State.joinArrive_wf _ _ _ ?_))
theorem State.cgRecord_wf {P : List Host.Cell → Prop} (s : State) (i : Instr) (b : BitVec 6) (h : State → List (BitVec 8) → Res) (hs : s.Has P) (h_h : ∀ x0 x1, x0.Has P → Res.Has P (h x0 x1)) : Res.Has P (State.cgRecord s i b h) := by
  unfold State.cgRecord
  try dsimp only
  with_reducible repeat' (first
    | assumption
    | (refine Got.res_has ?_ ?_)
    | split
    | (apply h_h)
    | (refine State.loadRun_wf _ _ _ _ _ _ _ _ _ ?_)
    | (intro _))
theorem execFlowOpen_wf (m : Bool) (d : BitVec 6) (a : BitVec 6) (b : BitVec 6) (s : State) (hs : s.Has Canon) : OutHas Canon (execFlowOpen m d a b s) := by
  unfold execFlowOpen
  try dsimp only
  with_reducible repeat' (first
    | assumption
    | split
    | (refine Res.Has.has_ok ?_)
    | (refine Res.Has.has_trap ?_)
    | (refine issue_wf _ _ _ _ _ _ ?_ ?_)
    | (refine Has.upd ?_ (State.wvar_mem _ _ _))
    | (refine Has.upd ?_ (State.updMine_mem _ _))
    | (intro _))
theorem execCgform_wf (m : Bool) (d : BitVec 6) (a : BitVec 6) (b : BitVec 6) (c : BitVec 6) (s : State) (hs : s.Has Canon) : OutHas Canon (execCgform m d a b c s) := by
  unfold execCgform
  try dsimp only
  with_reducible repeat' (first
    | assumption
    | split
    | (refine Res.Has.has_ok ?_)
    | (refine Res.Has.has_trap ?_)
    | (refine Res.Has.has_hold ?_)
    | (refine issue_wf _ _ _ _ _ _ ?_ ?_)
    | (refine Has.upd ?_ (State.wvar_mem _ _ _))
    | (refine State.endCg_wf _ _ _ _ ?_)
    | (refine Has.upd ?_ (State.setGroup_mem _ _ _))
    | (refine State.cgRecord_wf _ _ _ _ ?_ ?_)
    | (refine State.relHold_wf _ ?_)
    | (refine State.join_wf _ _ _ _ ?_)
    | (intro _))
theorem execCgstat_wf (m : Bool) (d : BitVec 6) (a : BitVec 6) (s : State) (hs : s.Has Canon) : OutHas Canon (execCgstat m d a s) := by
  unfold execCgstat
  try dsimp only
  with_reducible repeat' (first
    | assumption
    | split
    | (refine Res.Has.has_ok ?_)
    | (refine issue_wf _ _ _ _ _ _ ?_ ?_)
    | (refine Has.upd ?_ (State.wvar_mem _ _ _))
    | (intro _))
theorem execFlowQry_wf (m : Bool) (d : BitVec 6) (a : BitVec 6) (s : State) (hs : s.Has Canon) : OutHas Canon (execFlowQry m d a s) := by
  unfold execFlowQry
  try dsimp only
  with_reducible repeat' (first
    | assumption
    | split
    | (refine Res.Has.has_ok ?_)
    | (refine issue_wf _ _ _ _ _ _ ?_ ?_)
    | (refine Has.upd ?_ (State.wvar_mem _ _ _))
    | (intro _))
theorem execCgwait_wf (m : Bool) (d : BitVec 6) (a : BitVec 6) (b : BitVec 6) (e : BitVec 6) (c : BitVec 6) (s : State) (hs : s.Has Canon) : OutHas Canon (execCgwait m d a b e c s) := by
  unfold execCgwait
  try dsimp only
  with_reducible repeat' (first
    | assumption
    | (refine Got.res_has ?_ ?_)
    | split
    | (refine Res.Has.has_ok ?_)
    | (refine Res.Has.has_trap ?_)
    | (refine Res.Has.has_hold ?_)
    | (refine issue_wf _ _ _ _ _ _ ?_ ?_)
    | (refine State.load_wf _ _ _ _ _ _ ?_ ?_)
    | (refine Has.upd ?_ (State.updCur_mem _ _))
    | (refine regLoad_wf _ _ _ ?_)
    | (refine Has.upd ?_ (State.wvar_mem _ _ _))
    | (refine State.endCg_wf _ _ _ _ ?_)
    | (intro _))
theorem execCgsig_wf (m : Bool) (d : BitVec 6) (a : BitVec 6) (b : BitVec 6) (s : State) (hs : s.Has Canon) : OutHas Canon (execCgsig m d a b s) := by
  unfold execCgsig
  try dsimp only
  with_reducible repeat' (first
    | assumption
    | split
    | (refine Res.Has.has_ok ?_)
    | (refine Res.Has.has_trap ?_)
    | (refine issue_wf _ _ _ _ _ _ ?_ ?_)
    | (refine Has.upd ?_ (State.wvar_mem _ _ _))
    | (refine State.endCg_wf _ _ _ _ ?_)
    | (refine State.groupAbort_wf _ _ _ ?_)
    | (intro _))
theorem execFlowClose_wf (m : Bool) (d a : BitVec 6) (s : State) (hs : s.Has Canon) : OutHas Canon (execFlowClose m d a s) := by
  unfold execFlowClose
  try dsimp only
  with_reducible repeat' (first
    | assumption
    | (refine Got.res_has ?_ ?_)
    | (refine issue_wf _ _ _ _ _ _ ?_ ?_)
    | split
    | (refine OutHas.has_next ?_)
    | exact OutHas.has_fault
    | exact OutHas.has_refused
    | (refine issue_wf _ _ _ _ _ _ _ ?_)
    | (refine OutHas.next_has (by assumption) (issue_wf _ _ _ _ _ _ _ ?_))
    | (refine Has.upd ?_ (State.wvar_mem _ _ _))
    | (refine Has.upd ?_ (State.freeFlow_mem _ _ _))
    | (refine Has.upd ?_ (State.updCur_mem _ _))
    | (refine Has.foldl _ ?_ ?_)
    | (refine State.Has.mk ?_; dsimp only; refine State.Has.of ?_)
    | (intro _)
    | (refine Res.Has.has_ok ?_)
    | (refine Res.Has.has_to ?_)
    | (refine Res.Has.has_trap ?_)
    | (refine Res.Has.has_hold ?_)
    | (refine Res.Has.has_gone ?_)
    | (refine Got.Has.has_got ?_)
    | (refine Got.Has.has_stop ?_))
/-! ### Save -/

theorem State.dropOwners_mem (s : State) (k : Nat) (ctx : Nat) : (State.dropOwners s k ctx).mem = s.mem := rfl
theorem State.carryPoison_mem (s : State) (a b n : Nat) : (State.carryPoison s a b n).mem = s.mem := rfl
theorem State.image_wf (s : State) (k p ctx g : Nat) (hs : s.Has Canon) : State.Has Canon (State.image s k p ctx g) := by
  unfold State.image
  try dsimp only
  with_reducible repeat' (first
    | assumption
    | split
    | (refine State.unitStore_wf _ _ _ ?_)
    | (refine Has.upd ?_ (State.carryPoison_mem _ _ _ _))
    | (refine State.unitWr_wf _ _ _ _ ?_)
    | (refine Has.foldl _ ?_ ?_)
    | (refine State.Has.mk ?_; dsimp only; refine State.Has.of ?_)
    | (intro _))
theorem State.writeRecord_wf (s : State) (ctx : Nat) (k : Nat) (hs : s.Has Canon) : State.Has Canon (State.writeRecord s ctx k) := by
  unfold State.writeRecord
  try dsimp only
  with_reducible repeat' (first
    | assumption
    | split
    | (refine State.unitStore_wf _ _ _ ?_))
theorem State.takeGranule_wf (s : State) (k : Nat) (ctx : Nat) (g : Nat) (hs : s.Has Canon) : (State.takeGranule s k ctx g).1.Has Canon := by
  unfold State.takeGranule
  try dsimp only
  with_reducible repeat' (first
    | assumption
    | split
    | (refine Has.upd ?_ (State.updCore_mem _ _ _))
    | (refine State.image_wf _ _ _ _ _ ?_))
theorem State.preempt_wf (s : State) (k : Nat) (hs : s.Has Canon) : State.Has Canon (State.preempt s k) := by
  unfold State.preempt
  try dsimp only
  with_reducible repeat' (first
    | assumption
    | (refine Has.foldl _ ?_ ?_)
    | split
    | (refine Has.upd ?_ (State.setFr_mem _ _ _ _))
    | (refine Has.upd ?_ (State.setCore_mem _ _ _))
    | (refine State.unitStore_wf _ _ _ ?_)
    | (refine Has.upd ?_ (State.ticked_mem _))
    | (refine State.writeRecord_wf _ _ _ ?_)
    | (refine State.setHeld_wf _ _ _ _ ?_)
    | (refine State.Has.mk ?_; dsimp only; refine State.Has.of ?_)
    | (intro _))
theorem State.takeAll_wf (s : State) (k : Nat) (ctx : Nat) (gs : List Nat) (hs : s.Has Canon) : State.Has Canon (State.takeAll s k ctx gs) := by
  unfold State.takeAll
  try dsimp only
  with_reducible repeat' (first
    | assumption
    | (refine Has.foldl _ ?_ ?_)
    | (refine State.takeGranule_wf _ _ _ _ ?_)
    | (intro _))
theorem State.reload_wf (s : State) (k ctx : Nat) (hs : s.Has Canon) : State.Has Canon (State.reload s k ctx) := by
  unfold State.reload
  try dsimp only
  with_reducible repeat' (first
    | assumption
    | split
    | (refine State.takeGranule_wf _ _ _ _ ?_)
    | (refine Has.fst (by assumption) (State.takeGranule_wf _ _ _ _ ?_))
    | (refine State.store_wf _ _ _ ?_)
    | (refine Has.upd ?_ (State.carryPoison_mem _ _ _ _))
    | (refine State.unitWr_wf _ _ _ _ ?_)
    | (refine Has.foldl _ ?_ ?_)
    | (refine State.Has.mk ?_; dsimp only; refine State.Has.of ?_)
    | (intro _))
theorem State.resumeCtx_wf (s : State) (k : Nat) (ctx : Nat) (hs : s.Has Canon) : State.Has Canon (State.resumeCtx s k ctx) := by
  unfold State.resumeCtx
  try dsimp only
  with_reducible repeat' (first
    | assumption
    | (refine Has.foldl _ ?_ ?_)
    | split
    | (refine State.reload_wf _ _ _ ?_)
    | (refine Has.upd ?_ (State.setCore_mem _ _ _))
    | (refine Has.upd ?_ (State.setFr_mem _ _ _ _))
    | (refine State.setHeld_wf _ _ _ _ ?_)
    | (refine State.wake_wf _ _ _ ?_)
    | (refine State.replay_wf _ _ ?_)
    | (refine State.Has.mk ?_; dsimp only; refine State.Has.of ?_)
    | (intro _))
/-! ### Firings -/

theorem unitAct_wf {P : List Host.Cell → Prop} (g : State → State) (s : State) (hs : s.Has P) (hg : ∀ t, t.Has P → State.Has P (g t)) :
    OutHas P (unitAct g s) := by
  refine .has_next ?_
  split
  · exact hg _ hs
  · exact hs
theorem State.rejoin_mem (s : State) (k g : Nat) : (State.rejoin s k g).mem = s.mem := by
  unfold State.rejoin
  split <;> rfl
theorem State.choose_mem (s : State) (k : Nat) (f : Nat) : (State.choose s k f).mem = s.mem := by
  refine Has.eq fun P h => ?_
  unfold State.choose
  try dsimp only
  with_reducible repeat' (first
    | assumption
    | (refine Has.upd ?_ (State.updCore_mem _ _ _))
    | (refine Has.upd ?_ (State.updFr_mem _ _ _ _))
    | (refine Has.upd ?_ (State.rejoin_mem _ _ _))
    | (refine Has.foldl _ ?_ ?_)
    | split
    | (refine Has.upd ?_ (State.updFr_mem _ _ _ _))
    | (refine Has.upd ?_ (State.updCore_mem _ _ _))
    | (intro _))
theorem State.freeOut_mem (s : State) (k : Nat) (n : Nat) : (State.freeOut s k n).mem = s.mem := by
  refine Has.eq fun P h => ?_
  unfold State.freeOut
  try dsimp only
  with_reducible repeat' (first
    | assumption
    | (refine Has.upd ?_ (State.flushAutos_mem _ _))
    | (refine Has.upd ?_ (State.updCore_mem _ _ _)))
theorem execQuantumExpiry_wf {P : List Host.Cell → Prop} (k : Nat) (s : State) (hs : s.Has P) : OutHas P (execQuantumExpiry k s) := by
  unfold execQuantumExpiry
  try dsimp only
  with_reducible repeat' (first
    | assumption
    | split
    | (refine unitAct_wf _ _ ?_ ?_)
    | (refine Has.upd ?_ (State.updFr_mem _ _ _ _))
    | (intro _))
theorem execAutoReplySend_wf {P : List Host.Cell → Prop} (k : Nat) (s : State) (hs : s.Has P) : OutHas P (execAutoReplySend k s) := by
  unfold execAutoReplySend
  try dsimp only
  with_reducible repeat' (first
    | assumption
    | split
    | (refine unitAct_wf _ _ ?_ ?_)
    | (refine Has.upd ?_ (State.flushAutos_mem _ _))
    | (intro _))
theorem State.resume_mem (s : State) (k : Nat) (f : Nat) : (State.resume s k f).mem = s.mem := rfl
theorem State.ageTags_mem (s : State) (k : Nat) (ts : List Nat) : (State.ageTags s k ts).mem = s.mem := rfl
theorem State.begin_mem (s : State) (k : Nat) (f : Nat) (r : Frame) (x3 : Word) (ws : List Word) : (State.begin s k f r x3 ws).mem = s.mem := rfl
theorem execCellReadWake_wf {P : List Host.Cell → Prop} (k : Nat) (f : Nat) (s : State) (hs : s.Has P) : OutHas P (execCellReadWake k f s) := by
  unfold execCellReadWake
  try dsimp only
  with_reducible repeat' (first
    | assumption
    | split
    | (refine unitAct_wf _ _ ?_ ?_)
    | (refine Has.upd ?_ (State.resume_mem _ _ _))
    | (intro _))
theorem execSpawnAnswer_wf {P : List Host.Cell → Prop} (k : Nat) (f : Nat) (s : State) (hs : s.Has P) : OutHas P (execSpawnAnswer k f s) := by
  unfold execSpawnAnswer
  try dsimp only
  with_reducible repeat' (first
    | assumption
    | split
    | (refine unitAct_wf _ _ ?_ ?_)
    | (refine Has.upd ?_ (State.resume_mem _ _ _))
    | (refine Has.upd ?_ (State.updCore_mem _ _ _))
    | (refine Has.upd ?_ (State.updFr_mem _ _ _ _))
    | (intro _))
theorem execAlignWaitExpiry_wf {P : List Host.Cell → Prop} (k : Nat) (f : Nat) (s : State) (hs : s.Has P) : OutHas P (execAlignWaitExpiry k f s) := by
  unfold execAlignWaitExpiry
  try dsimp only
  with_reducible repeat' (first
    | assumption
    | split
    | (refine unitAct_wf _ _ ?_ ?_)
    | (refine Has.upd ?_ (State.alignEnd_mem _ _ _))
    | (intro _))
theorem State.beginTask_mem (s : State) (k : Nat) (f : Nat) (src : Src) (t : Task) : (State.beginTask s k f src t).mem = s.mem := rfl
theorem State.beginTag_mem (s : State) (k : Nat) (f : Nat) (n : Nat) : (State.beginTag s k f n).mem = s.mem := by
  refine Has.eq fun P h => ?_
  unfold State.beginTag
  try dsimp only
  with_reducible repeat' (first
    | assumption
    | split
    | (refine Has.upd ?_ (State.setSQueue_mem _ _ _))
    | (refine Has.upd ?_ (State.begin_mem _ _ _ _ _ _))
    | (refine Has.upd ?_ (State.beginTask_mem _ _ _ _ _))
    | (refine Has.upd ?_ (State.updCore_mem _ _ _)))
theorem State.dequeWork_wf {P : List Host.Cell → Prop} (s : State) (k : Nat) (f : Nat) (hs : s.Has P) : OptHas P (State.dequeWork s k f) := by
  unfold State.dequeWork
  try dsimp only
  with_reducible repeat' (first
    | assumption
    | split
    | (refine OptHas.has_some ?_)
    | exact OptHas.has_none
    | (refine Has.upd ?_ (State.choose_mem _ _ _))
    | (refine Has.upd ?_ (State.beginTask_mem _ _ _ _ _))
    | (refine Has.upd ?_ (State.updCore_mem _ _ _)))
theorem State.shelter_wf (s : State) (j : Nat) (g : Msg) (hs : s.Has Canon) : OptHas Canon (State.shelter s j g) := by
  unfold State.shelter
  try dsimp only
  with_reducible repeat' (first
    | assumption
    | split
    | (refine OptHas.has_some ?_)
    | exact OptHas.has_none
    | (refine Has.upd ?_ (State.startBivouac_mem _ _))
    | (refine State.poolStore_wf _ _ _ _ ?_))
theorem OptHas.ite_has {P : List Host.Cell → Prop} {c : Prop} [Decidable c] {o : Option State} {t : State}
    (e : (if c then none else o) = some t) (h : OptHas P o) : t.Has P := by
  split at e
  · cases e
  · exact OptHas.some_has e h

theorem State.decide_mem (s : State) (k : Nat) : (State.decide s k).mem = s.mem := by
  refine Has.eq fun P h => ?_
  unfold State.decide
  generalize s.freeFrame k = free
  cases free <;> dsimp only
  all_goals with_reducible repeat' (first
    | assumption
    | split
    | (refine OptHas.ite_has (by assumption) (State.dequeWork_wf _ _ _ h))
    | (refine Has.upd ?_ (State.ageTags_mem _ _ _))
    | (refine Has.upd ?_ (State.choose_mem _ _ _))
    | (refine Has.upd ?_ (State.updCore_mem _ _ _))
    | (refine Has.upd ?_ (State.beginTag_mem _ _ _ _)))
theorem State.decideLeaving_wf {P : List Host.Cell → Prop} (s : State) (k : Nat) (hs : s.Has P) : State.Has P (State.decideLeaving s k) := by
  unfold State.decideLeaving
  try dsimp only
  with_reducible repeat' (first
    | assumption
    | split
    | (refine Has.upd ?_ (State.choose_mem _ _ _))
    | (refine Has.foldl _ ?_ ?_)
    | (refine State.Has.mk ?_; dsimp only; refine State.Has.of ?_)
    | (intro _))
theorem execSelectorDecision_wf {P : List Host.Cell → Prop} (k : Nat) (s : State) (hs : s.Has P) : OutHas P (execSelectorDecision k s) := by
  unfold execSelectorDecision
  try dsimp only
  with_reducible repeat' (first
    | assumption
    | (refine Got.res_has ?_ ?_)
    | (refine unitAct_wf _ _ ?_ ?_)
    | split
    | (refine OutHas.has_next ?_)
    | exact OutHas.has_fault
    | exact OutHas.has_refused
    | (refine unitAct_wf _ _ _ ?_)
    | (refine OutHas.next_has (by assumption) (unitAct_wf _ _ _ ?_))
    | (refine State.decideLeaving_wf _ _ ?_)
    | (refine Has.upd ?_ (State.decide_mem _ _))
    | (refine Has.foldl _ ?_ ?_)
    | (refine State.Has.mk ?_; dsimp only; refine State.Has.of ?_)
    | (intro _)
    | (refine Res.Has.has_ok ?_)
    | (refine Res.Has.has_to ?_)
    | (refine Res.Has.has_trap ?_)
    | (refine Res.Has.has_hold ?_)
    | (refine Res.Has.has_gone ?_)
    | (refine Got.Has.has_got ?_)
    | (refine Got.Has.has_stop ?_))
theorem State.arrive1_wf (s : State) (g : Msg) (hs : s.Has Canon) : OptHas Canon (State.arrive1 s g) := by
  unfold State.arrive1
  try dsimp only
  with_reducible repeat' (first
    | assumption
    | split
    | (refine OptHas.has_some ?_)
    | exact OptHas.has_none
    | (refine Has.upd ?_ (State.updCore_mem _ _ _))
    | (refine State.shelter_wf _ _ _ ?_))
theorem State.spawnIn_wf {P : List Host.Cell → Prop} (s : State) (k n : Nat) (e : OutE) (hs : s.Has P) : State.Has P (State.spawnIn s k n e) := by
  unfold State.spawnIn
  try dsimp only
  with_reducible repeat' (first
    | assumption
    | split
    | (refine Has.upd ?_ (State.freeOut_mem _ _ _))
    | (refine Has.upd ?_ (State.updCore_mem _ _ _))
    | (refine Has.foldl _ ?_ ?_)
    | (refine State.Has.mk ?_; dsimp only; refine State.Has.of ?_)
    | (intro _))
theorem execSpawnArrival_wf {P : List Host.Cell → Prop} (k f : Nat) (s : State) (hs : s.Has P) : OutHas P (execSpawnArrival k f s) := by
  unfold execSpawnArrival
  try dsimp only
  with_reducible repeat' (first
    | assumption
    | (refine Got.res_has ?_ ?_)
    | (refine unitAct_wf _ _ ?_ ?_)
    | split
    | (refine OutHas.has_next ?_)
    | exact OutHas.has_fault
    | exact OutHas.has_refused
    | (refine unitAct_wf _ _ _ ?_)
    | (refine OutHas.next_has (by assumption) (unitAct_wf _ _ _ ?_))
    | (refine State.spawnIn_wf _ _ _ _ ?_)
    | (refine Has.upd ?_ (State.updFr_mem _ _ _ _))
    | (refine Has.upd ?_ (State.updCore_mem _ _ _))
    | (refine Has.foldl _ ?_ ?_)
    | (refine State.Has.mk ?_; dsimp only; refine State.Has.of ?_)
    | (intro _)
    | (refine Res.Has.has_ok ?_)
    | (refine Res.Has.has_to ?_)
    | (refine Res.Has.has_trap ?_)
    | (refine Res.Has.has_hold ?_)
    | (refine Res.Has.has_gone ?_)
    | (refine Got.Has.has_got ?_)
    | (refine Got.Has.has_stop ?_))
theorem State.offer_wf (s : State) (k : Nat) (n : Nat) (again : Bool) (hs : s.Has Canon) : State.Has Canon (State.offer s k n again) := by
  unfold State.offer
  try dsimp only
  with_reducible repeat' (first
    | assumption
    | split
    | (refine OptHas.some_has (by assumption) (State.arrive1_wf _ _ ?_))
    | (refine Has.upd ?_ (State.freeOut_mem _ _ _))
    | (refine Has.upd ?_ (State.updDie_mem _ _ _))
    | (refine Has.upd ?_ (State.updCore_mem _ _ _)))
theorem execRequestArrival_wf (k : Nat) (n : Nat) (s : State) (hs : s.Has Canon) : OutHas Canon (execRequestArrival k n s) := by
  unfold execRequestArrival
  try dsimp only
  with_reducible repeat' (first
    | assumption
    | (refine unitAct_wf _ _ ?_ ?_)
    | (refine State.offer_wf _ _ _ _ ?_)
    | (intro _))
theorem execRequestRetry_wf (k : Nat) (n : Nat) (s : State) (hs : s.Has Canon) : OutHas Canon (execRequestRetry k n s) := by
  unfold execRequestRetry
  try dsimp only
  with_reducible repeat' (first
    | assumption
    | (refine unitAct_wf _ _ ?_ ?_)
    | (refine State.offer_wf _ _ _ _ ?_)
    | (intro _))
theorem execReplyArrival_wf (n : Nat) (s : State) (hs : s.Has Canon) : OutHas Canon (execReplyArrival n s) := by
  unfold execReplyArrival
  try dsimp only
  with_reducible repeat' (first
    | assumption
    | split
    | (refine unitAct_wf _ _ ?_ ?_)
    | (refine Has.upd ?_ (State.updCore_mem _ _ _))
    | (refine State.writeRecord_wf _ _ _ ?_)
    | (refine State.Has.mk ?_; dsimp only; refine State.Has.of ?_)
    | (intro _))
theorem State.waitaRead_wf {P : List Host.Cell → Prop} (s : State) (k : Nat) (f : Nat) (va : Nat) (size : Nat) (w : Wait) (hs : s.Has P) : WRead.Has P (State.waitaRead s k f va size w) := by
  unfold State.waitaRead
  try dsimp only
  with_reducible repeat' (first
    | assumption
    | split
    | (refine WRead.Has.has_val ?_)
    | (refine WRead.Has.has_trap ?_)
    | (refine WRead.Has.has_later ?_)
    | (refine Has.upd ?_ (State.dropAns_mem _ _ _ _))
    | (refine Has.upd ?_ (State.startWalk_mem _ _ _ _ _ _ _))
    | (refine Has.upd ?_ (State.ticked_mem _))
    | (refine Has.upd ?_ (State.markAD_mem _ _ _ _ _)))
theorem State.engineIn_mem (s : State) (k : Nat) (off : Nat) (v : Word) : (State.engineIn s k off v).mem = s.mem := by
  simp [State.engineIn, State.engineReg_mem]
theorem State.waitTrap_wf (s : State) (k : Nat) (f : Nat) (w : Wait) (t : Trap) (hs : s.Has Canon) : State.Has Canon (State.waitTrap s k f w t) := by
  unfold State.waitTrap
  try dsimp only
  with_reducible repeat' (first
    | assumption
    | (refine State.takeTrap_wf _ _ _ _ _ ?_)
    | (refine Has.upd ?_ (State.updFr_mem _ _ _ _)))
theorem State.waitaEnd_wf (s : State) (k : Nat) (f : Nat) (w : Wait) (d : Nat) (e : Nat) (v : Word) (x : Word) (hs : s.Has Canon) : State.Has Canon (State.waitaEnd s k f w d e v x) := by
  unfold State.waitaEnd
  try dsimp only
  with_reducible repeat' (first
    | assumption
    | (refine State.wake_wf _ _ _ ?_)
    | (refine Has.upd ?_ (State.updFr_mem _ _ _ _)))
theorem execVarResultReturn_wf (k : Nat) (f : Nat) (s : State) (hs : s.Has Canon) : OutHas Canon (execVarResultReturn k f s) := by
  unfold execVarResultReturn
  try dsimp only
  with_reducible repeat' (first
    | assumption
    | split
    | (refine unitAct_wf _ _ ?_ ?_)
    | (refine State.wake_wf _ _ _ ?_)
    | (refine Has.upd ?_ (State.updFr_mem _ _ _ _))
    | (intro _))
theorem State.recheckWait_wf (s : State) (k : Nat) (f : Nat) (w : Wait) (hs : s.Has Canon) : State.Has Canon (State.recheckWait s k f w) := by
  unfold State.recheckWait
  try dsimp only
  with_reducible repeat' (first
    | assumption
    | split
    | (refine WRead.val_has (by assumption) (State.waitaRead_wf _ _ _ _ _ _ ?_))
    | (refine WRead.trap_has (by assumption) (State.waitaRead_wf _ _ _ _ _ _ ?_))
    | (refine WRead.later_has (by assumption) (State.waitaRead_wf _ _ _ _ _ _ ?_))
    | (refine State.waitTrap_wf _ _ _ _ _ ?_)
    | (refine State.waitaEnd_wf _ _ _ _ _ _ _ _ ?_))
theorem State.limitOne_wf (s : State) (k f : Nat) (w : Wait) (hs : s.Has Canon) : State.Has Canon (State.limitOne s k f w) := by
  unfold State.limitOne
  try dsimp only
  with_reducible repeat' (first
    | assumption
    | split
    | (refine Has.upd ?_ (State.updFr_mem _ _ _ _))
    | (refine State.wake_wf _ _ _ ?_)
    | (refine State.recheckWait_wf _ _ _ _ ?_)
    | (refine Has.foldl _ ?_ ?_)
    | (refine State.Has.mk ?_; dsimp only; refine State.Has.of ?_)
    | (intro _))
theorem State.limitPass_wf (s : State) (k f : Nat) (hs : s.Has Canon) : State.Has Canon (State.limitPass s k f) := by
  unfold State.limitPass
  try dsimp only
  with_reducible repeat' (first
    | assumption
    | (refine Got.res_has ?_ ?_)
    | split
    | (refine State.limitOne_wf _ _ _ _ ?_)
    | (refine Has.upd ?_ (State.updFr_mem _ _ _ _))
    | (refine Has.upd ?_ (State.resume_mem _ _ _))
    | (refine Has.upd ?_ (State.ticked_mem _))
    | (refine Has.foldl _ ?_ ?_)
    | (refine State.Has.mk ?_; dsimp only; refine State.Has.of ?_)
    | (intro _))
theorem execWaitLimitExpiry_wf (k : Nat) (f : Nat) (s : State) (hs : s.Has Canon) : OutHas Canon (execWaitLimitExpiry k f s) := by
  unfold execWaitLimitExpiry
  try dsimp only
  with_reducible repeat' (first
    | assumption
    | split
    | (refine unitAct_wf _ _ ?_ ?_)
    | (refine State.limitPass_wf _ _ _ ?_)
    | (intro _))
theorem State.recheckWaits_wf (s : State) (k : Nat) (f : Nat) (hs : s.Has Canon) : State.Has Canon (State.recheckWaits s k f) := by
  unfold State.recheckWaits
  try dsimp only
  with_reducible repeat' (first
    | assumption
    | (refine Has.foldl _ ?_ ?_)
    | (refine State.recheckWait_wf _ _ _ _ ?_)
    | (intro _))
theorem State.recheck_wf (s : State) (k : Nat) (f : Nat) (hs : s.Has Canon) : State.Has Canon (State.recheck s k f) := by
  unfold State.recheck
  try dsimp only
  with_reducible repeat' (first
    | assumption
    | split
    | (refine State.recheckWaits_wf _ _ _ ?_)
    | (refine Has.upd ?_ (State.resume_mem _ _ _))
    | (refine Has.upd ?_ (State.updFr_mem _ _ _ _))
    | (refine State.wake_wf _ _ _ ?_))
theorem execWaitRecheck_wf (k : Nat) (f : Nat) (s : State) (hs : s.Has Canon) : OutHas Canon (execWaitRecheck k f s) := by
  unfold execWaitRecheck
  try dsimp only
  with_reducible repeat' (first
    | assumption
    | split
    | (refine unitAct_wf _ _ ?_ ?_)
    | (refine State.recheck_wf _ _ _ ?_)
    | (intro _))
theorem execMxremArrival_wf (k : Nat) (n : Nat) (s : State) (hs : s.Has Canon) : OutHas Canon (execMxremArrival k n s) := by
  unfold execMxremArrival
  try dsimp only
  with_reducible repeat' (first
    | assumption
    | split
    | (refine unitAct_wf _ _ ?_ ?_)
    | (refine Has.upd ?_ (State.ticked_mem _))
    | (refine State.mailbox_wf _ _ _ _ _ ?_)
    | (refine Has.upd ?_ (State.freeOut_mem _ _ _))
    | (refine Has.upd ?_ (State.updCore_mem _ _ _))
    | (refine Has.upd ?_ (State.acceptMm_mem _ _ _ _ _))
    | (intro _))
/-! ### Engines -/

theorem State.setToken_mem (s : State) (n : Nat) (tok : Nat) : (State.setToken s n tok).mem = s.mem := rfl
theorem State.moveAnswer_mem (s : State) (k : Nat) (f : Nat) (code : Nat) (loc : Nat) (rest : List Nat) : (State.moveAnswer s k f code loc rest).mem = s.mem := rfl
theorem State.queueWrite_mem (s : State) (id : Nat) (off : Nat) (v : Word) : (State.queueWrite s id off v).mem = s.mem := by
  refine Has.eq fun P h => ?_
  unfold State.queueWrite
  try dsimp only
  with_reducible repeat' (first
    | assumption
    | split
    | (refine Has.upd ?_ (State.setSQueue_mem _ _ _)))
theorem execStageQueueDescWrite_wf {P : List Host.Cell → Prop} (id : Nat) (off : BitVec 6) (v : BitVec 64) (s : State) (hs : s.Has P) : OutHas P (execStageQueueDescWrite id off v s) := by
  unfold execStageQueueDescWrite
  try dsimp only
  with_reducible repeat' (first
    | assumption
    | split
    | (refine unitAct_wf _ _ ?_ ?_)
    | (refine Has.upd ?_ (State.queueWrite_mem _ _ _ _))
    | (intro _))
theorem State.moveDone_mem (s : State) (k : Nat) (f : Nat) (code : Nat) (loc : Nat) (v : Kv) (key : Nat) : (State.moveDone s k f code loc v key).mem = s.mem := rfl
theorem State.governOne_wf (s : State) (die : Nat) (n : Nat) (donors : List Nat) (used : List Nat) (hs : s.Has Canon) : (State.governOne s die n donors used).1.Has Canon := by
  unfold State.governOne
  try dsimp only
  with_reducible repeat' (first
    | assumption
    | split
    | (refine Has.upd ?_ (State.updCore_mem _ _ _))
    | (refine State.post_wf _ _ _ _ _ _ ?_))
theorem execGovernorSample_wf (die : Nat) (s : State) (hs : s.Has Canon) : OutHas Canon (execGovernorSample die s) := by
  refine unitAct_wf _ _ hs fun s h => ?_
  refine Has.upd ?_ (State.updDie_mem _ _ _)
  have key : ∀ (l d : List Nat) (z : State × List Nat), z.1.Has Canon →
      State.Has Canon (l.foldl (fun (z : State × List Nat) n => z.1.governOne die n d z.2) z).1 := by
    intro l d
    induction l with
    | nil => exact fun z h => h
    | cons n r ih => exact fun z h => ih _ (State.governOne_wf _ _ _ _ _ h)
  exact key _ _ _ h
theorem execWalkRequest_wf (die : Nat) (n : Nat) (s : State) (hs : s.Has Canon) : OutHas Canon (execWalkRequest die n s) := by
  unfold execWalkRequest
  try dsimp only
  with_reducible repeat' (first
    | assumption
    | split
    | (refine unitAct_wf _ _ ?_ ?_)
    | (refine Has.upd ?_ (State.setToken_mem _ _ _))
    | (refine State.post_wf _ _ _ _ _ _ ?_)
    | (refine Has.upd ?_ (State.updDie_mem _ _ _))
    | (refine Has.upd ?_ (State.setFr_mem _ _ _ _))
    | (intro _))
theorem execPinExpiry_wf (die : Nat) (i : Nat) (slot : Nat) (s : State) (hs : s.Has Canon) : OutHas Canon (execPinExpiry die i slot s) := by
  unfold execPinExpiry
  try dsimp only
  with_reducible repeat' (first
    | assumption
    | split
    | (refine unitAct_wf _ _ ?_ ?_)
    | (refine State.setHdr_wf _ _ _ _ _ _ ?_)
    | (intro _))
theorem execMatrixCmdStart_wf (k : Nat) (s : State) (hs : s.Has Canon) : OutHas Canon (execMatrixCmdStart k s) := by
  unfold execMatrixCmdStart
  try dsimp only
  with_reducible repeat' (first
    | assumption
    | (refine unitAct_wf _ _ ?_ ?_)
    | (refine State.startMx_wf _ _ ?_)
    | (intro _))
theorem execQueueRefill_wf (id : Nat) (s : State) (hs : s.Has Canon) : OutHas Canon (execQueueRefill id s) := by
  refine unitAct_wf _ _ hs fun s h => ?_
  dsimp only
  split
  · exact h
  · have hr := State.refillQ_wf s id h
    generalize s.refillQ id = x at hr
    cases hr <;> assumption
theorem execHeldGoAccept_wf {P : List Host.Cell → Prop} (k : Nat) (cp : Bool) (s : State) (hs : s.Has P) : OutHas P (execHeldGoAccept k cp s) := by
  unfold execHeldGoAccept
  try dsimp only
  with_reducible repeat' (first
    | assumption
    | (refine unitAct_wf _ _ ?_ ?_)
    | (refine Has.upd ?_ (State.heldGo_mem _ _ _))
    | (intro _))
theorem execKrehomeAnswer_wf (k : Nat) (f : Nat) (s : State) (hs : s.Has Canon) : OutHas Canon (execKrehomeAnswer k f s) := by
  unfold execKrehomeAnswer
  try dsimp only
  with_reducible repeat' (first
    | assumption
    | split
    | (refine unitAct_wf _ _ ?_ ?_)
    | (refine Has.upd ?_ (State.moveDone_mem _ _ _ _ _ _ _))
    | (refine State.liveAdd_wf _ _ _ _ ?_)
    | (refine State.setCairn_wf _ _ _ _ _ _ ?_)
    | (refine State.setFree_wf _ _ _ _ _ ?_)
    | (refine FlW.done_has (by assumption) (State.flPush_wf _ _ _ _ _ _ ?_))
    | (refine FlW.code_has (by assumption) (State.flPush_wf _ _ _ _ _ _ ?_))
    | (refine FlW.wait_has (by assumption) (State.flPush_wf _ _ _ _ _ _ ?_))
    | (intro _))
theorem execCellDispatch_wf (die : Nat) (i : Nat) (n : Nat) (s : State) (hs : s.Has Canon) : OutHas Canon (execCellDispatch die i n s) := by
  unfold execCellDispatch
  try dsimp only
  with_reducible repeat' (first
    | assumption
    | split
    | (refine unitAct_wf _ _ ?_ ?_)
    | (refine Has.upd ?_ (State.updDie_mem _ _ _))
    | (refine State.setDsc_wf _ _ _ _ _ _ _ ?_)
    | (intro _))
theorem execCword_wf {P : List Host.Cell → Prop} (k : Nat) (j : BitVec 2) (v : BitVec 64) (s : State) (hs : s.Has P) : OutHas P (execCword k j v s) := by
  unfold execCword
  try dsimp only
  with_reducible repeat' (first
    | assumption
    | (refine unitAct_wf _ _ ?_ ?_)
    | (refine Has.upd ?_ (State.engineIn_mem _ _ _ _))
    | (intro _))
theorem execMword_wf {P : List Host.Cell → Prop} (k : Nat) (j : BitVec 2) (v : BitVec 64) (s : State) (hs : s.Has P) : OutHas P (execMword k j v s) := by
  unfold execMword
  try dsimp only
  with_reducible repeat' (first
    | assumption
    | (refine unitAct_wf _ _ ?_ ?_)
    | (refine Has.upd ?_ (State.engineIn_mem _ _ _ _))
    | (intro _))
theorem execCgo_wf {P : List Host.Cell → Prop} (k : Nat) (v : BitVec 64) (s : State) (hs : s.Has P) : OutHas P (execCgo k v s) := by
  unfold execCgo
  try dsimp only
  with_reducible repeat' (first
    | assumption
    | (refine unitAct_wf _ _ ?_ ?_)
    | (refine Has.upd ?_ (State.engineIn_mem _ _ _ _))
    | (intro _))
theorem execMgo_wf {P : List Host.Cell → Prop} (k : Nat) (v : BitVec 64) (s : State) (hs : s.Has P) : OutHas P (execMgo k v s) := by
  unfold execMgo
  try dsimp only
  with_reducible repeat' (first
    | assumption
    | (refine unitAct_wf _ _ ?_ ?_)
    | (refine Has.upd ?_ (State.engineIn_mem _ _ _ _))
    | (intro _))
theorem State.movePage_wf (s : State) (k f j : Nat) (v : Kv) (page : List (BitVec 8)) (hs : s.Has Canon) :
    MoveR.Has Canon (s.movePage k f j v page) := by
  unfold State.movePage
  split
  · exact .has_placed (State.setFree_wf _ _ _ _ _ (State.poolStore_wf _ _ _ _ hs))
  · have hp := State.flPeek_wf s (dieOf j) (s.core j).ctxid k f hs
    dsimp only
    generalize s.flPeek (dieOf j) (s.core j).ctxid k f = q at hp
    cases hp with
    | has_wait h => exact .has_wait h
    | has_code h => exact .has_code h
    | @has_got t p h =>
      have hu := State.unitPlaces_wf t (dieOf j) (freeUnit (dieOf j)) (s.core j).ctxid k f needW (addrs (t.pageVa j v 2 p) page.length) h
      dsimp only
      generalize t.unitPlaces _ _ _ _ _ _ _ = z at hu
      cases hu with
      | has_wait h => exact .has_wait h
      | has_fault h => exact .has_code h
      | has_got h => exact .has_placed (Has.upd (State.writePlaces_wf _ _ _ _ _ _ h) (State.flDrop_mem _ _))
theorem State.moveTarget_wf (s : State) (k f j key : Nat) (w : Word) (v : Kv) (page : List (BitVec 8)) (hs : s.Has Canon) :
    State.Has Canon (State.moveTarget s k f j key w v page) := by
  unfold State.moveTarget
  extract_lets rest put
  have hput : ∀ n, State.Has Canon (put s n) := by
    intro n
    dsimp only [put]
    split
    · exact Has.upd (State.liveAdd_wf _ _ _ _ (State.setCairn_wf _ _ _ _ _ _ hs)) (State.moveAnswer_mem _ _ _ _ _ _)
    · have hm := State.movePage_wf s k f j v page hs
      generalize s.movePage k f j v page = q at hm
      cases hm with
      | has_placed h => exact Has.upd (State.liveAdd_wf _ _ _ _ (State.setCairn_wf _ _ _ _ _ _ h)) (State.moveAnswer_mem _ _ _ _ _ _)
      | has_code h => exact Has.upd h (State.moveAnswer_mem _ _ _ _ _ _)
      | has_wait h => exact h
  clear_value put
  split
  · exact Has.upd hs (State.moveAnswer_mem _ _ _ _ _ _)
  split
  · exact Has.upd hs (State.moveAnswer_mem _ _ _ _ _ _)
  split
  · split
    · exact hput _
    · exact Has.upd hs (State.moveAnswer_mem _ _ _ _ _ _)
  · exact hput _
  · exact Has.upd hs (State.moveAnswer_mem _ _ _ _ _ _)
theorem execPoisonOpening_wf (die : Nat) (i : Nat) (n : Nat) (s : State) (hs : s.Has Canon) : OutHas Canon (execPoisonOpening die i n s) := by
  unfold execPoisonOpening
  try dsimp only
  with_reducible repeat' (first
    | assumption
    | split
    | (refine unitAct_wf _ _ ?_ ?_)
    | (refine State.openGen_wf _ _ _ _ _ ?_)
    | (refine Has.upd ?_ (State.updSheet_mem _ _ _ _))
    | (intro _))
theorem execKrehomeTarget_wf (k : Nat) (f : Nat) (s : State) (hs : s.Has Canon) : OutHas Canon (execKrehomeTarget k f s) := by
  unfold execKrehomeTarget
  try dsimp only
  with_reducible repeat' (first
    | assumption
    | split
    | (refine unitAct_wf _ _ ?_ ?_)
    | (refine State.moveTarget_wf _ _ _ _ _ _ _ _ ?_)
    | (intro _))
theorem execWalkTimeout_wf (die : Nat) (n : Nat) (s : State) (hs : s.Has Canon) : OutHas Canon (execWalkTimeout die n s) := by
  unfold execWalkTimeout
  try dsimp only
  with_reducible repeat' (first
    | assumption
    | split
    | (refine unitAct_wf _ _ ?_ ?_)
    | (refine State.walkNo_wf _ _ _ ?_)
    | (intro _))
theorem execMatrixCmdComplete_wf (k : Nat) (s : State) (hs : s.Has Canon) : OutHas Canon (execMatrixCmdComplete k s) := by
  unfold execMatrixCmdComplete
  try dsimp only
  with_reducible repeat' (first
    | assumption
    | (refine unitAct_wf _ _ ?_ ?_)
    | (refine State.endMx_wf _ _ ?_)
    | (intro _))
theorem execCopyCmdComplete_wf (k : Nat) (n : Nat) (s : State) (hs : s.Has Canon) : OutHas Canon (execCopyCmdComplete k n s) := by
  unfold execCopyCmdComplete
  try dsimp only
  with_reducible repeat' (first
    | assumption
    | split
    | (refine unitAct_wf _ _ ?_ ?_)
    | (refine State.runCopy_wf _ _ _ ?_)
    | (intro _))
/-! ### Fabric -/

theorem State.setPeer_mem (s : State) (t : Nat) (p : Peer) : (State.setPeer s t p).mem = s.mem := rfl
theorem State.answerRefuse_mem (s : State) (g : Nat) : (State.answerRefuse s g).mem = s.mem := by
  unfold State.answerRefuse
  split <;> simp [State.setGroup_mem]
theorem State.dropRdup_mem (s : State) (n : Nat) : (State.dropRdup s n).mem = s.mem := rfl
theorem State.afterRelease_mem (s : State) (k : Nat) : (State.afterRelease s k).mem = s.mem := by
  simp [State.afterRelease, State.wakeSlog_mem]
theorem State.timeoutAt_mem (s : State) (k : Nat) (f : Nat) (va : Nat) (pkg : Nat) : (State.timeoutAt s k f va pkg).mem = s.mem := rfl
theorem execCgansRefuse_wf {P : List Host.Cell → Prop} (g : Nat) (s : State) (hs : s.Has P) : OutHas P (execCgansRefuse g s) := by
  unfold execCgansRefuse
  try dsimp only
  with_reducible repeat' (first
    | assumption
    | (refine unitAct_wf _ _ ?_ ?_)
    | (refine Has.upd ?_ (State.answerRefuse_mem _ _))
    | (intro _))
theorem State.farLimit_mem (s : State) (k : Nat) (f : Nat) : (State.farLimit s k f).mem = s.mem := by
  refine Has.eq fun P h => ?_
  unfold State.farLimit
  try dsimp only
  with_reducible repeat' (first
    | assumption
    | split
    | (refine Has.upd ?_ (State.resume_mem _ _ _))
    | (refine Has.upd ?_ (State.updFr_mem _ _ _ _))
    | (refine Has.upd ?_ (State.setPeer_mem _ _ _))
    | (refine Has.upd ?_ (State.timeoutAt_mem _ _ _ _ _))
    | (refine Has.upd ?_ (State.openEpoch_mem _ _)))
theorem execLinkAckReceive_wf {P : List Host.Cell → Prop} (die : Nat) (port : Nat) (num : BitVec 12) (report : Bool) (s : State) (hs : s.Has P) : OutHas P (execLinkAckReceive die port num report s) := by
  unfold execLinkAckReceive
  try dsimp only
  with_reducible repeat' (first
    | assumption
    | split
    | (refine unitAct_wf _ _ ?_ ?_)
    | (refine Has.upd ?_ (State.setPort_mem _ _ _))
    | (intro _))
theorem State.train_mem (s : State) (p : Nat) : (State.train s p).mem = s.mem := rfl
theorem State.retrain_mem (s : State) (die : Nat) (mask : BitVec 3) : (State.retrain s die mask).mem = s.mem := by
  refine Has.eq fun P h => ?_
  unfold State.retrain
  try dsimp only
  with_reducible repeat' (first
    | assumption
    | (refine Has.foldl _ ?_ ?_)
    | split
    | (refine Has.upd ?_ (State.train_mem _ _))
    | (intro _))
theorem execRdupPropagate_wf (n : Nat) (die : Nat) (s : State) (hs : s.Has Canon) : OutHas Canon (execRdupPropagate n die s) := by
  unfold execRdupPropagate
  try dsimp only
  with_reducible repeat' (first
    | assumption
    | split
    | (refine unitAct_wf _ _ ?_ ?_)
    | (refine State.store_wf _ _ _ ?_)
    | (refine Has.upd ?_ (State.afterRelease_mem _ _))
    | (refine Has.upd ?_ (State.dropRdup_mem _ _))
    | (refine State.Has.mk ?_; dsimp only; refine State.Has.of ?_)
    | (intro _))
theorem execRetrain_wf {P : List Host.Cell → Prop} (die : Nat) (mask : BitVec 3) (s : State) (hs : s.Has P) : OutHas P (execRetrain die mask s) := by
  unfold execRetrain
  try dsimp only
  with_reducible repeat' (first
    | assumption
    | split
    | (refine unitAct_wf _ _ ?_ ?_)
    | (refine Has.upd ?_ (State.retrain_mem _ _ _))
    | (intro _))
theorem execLaneLockLoss_wf {P : List Host.Cell → Prop} (die : Nat) (port : Nat) (s : State) (hs : s.Has P) : OutHas P (execLaneLockLoss die port s) := by
  unfold execLaneLockLoss
  try dsimp only
  with_reducible repeat' (first
    | assumption
    | split
    | (refine unitAct_wf _ _ ?_ ?_)
    | (refine Has.upd ?_ (State.train_mem _ _))
    | (intro _))
theorem execLinkFlitReceive_wf {P : List Host.Cell → Prop} (die : Nat) (port : Nat) (num : BitVec 12) (crcOk : Bool) (s : State) (hs : s.Has P) : OutHas P (execLinkFlitReceive die port num crcOk s) := by
  unfold execLinkFlitReceive
  try dsimp only
  with_reducible repeat' (first
    | assumption
    | split
    | (refine unitAct_wf _ _ ?_ ?_)
    | (refine Has.upd ?_ (State.setPort_mem _ _ _))
    | (refine Has.upd ?_ (State.train_mem _ _))
    | (intro _))
theorem State.perform_wf (s : State) (t : Nat) (q : PStore) (hs : s.Has Canon) : State.Has Canon (State.perform s t q) := by
  unfold State.perform
  try dsimp only
  with_reducible repeat' (first
    | assumption
    | split
    | (refine Has.upd ?_ (State.setPeer_mem _ _ _))
    | (refine State.unitStore_wf _ _ _ ?_))
theorem execProgramTrafficAck_wf (dst : Nat) (count : BitVec 32) (sw : Bool) (s : State) (hs : s.Has Canon) : OutHas Canon (execProgramTrafficAck dst count sw s) := by
  unfold execProgramTrafficAck
  try dsimp only
  with_reducible repeat' (first
    | assumption
    | (refine Has.foldl _ ?_ ?_)
    | split
    | (refine unitAct_wf _ _ ?_ ?_)
    | (refine Has.upd ?_ (State.setPeer_mem _ _ _))
    | (refine State.perform_wf _ _ _ ?_)
    | (refine Has.upd ?_ (State.afterRelease_mem _ _))
    | (intro _))
theorem State.linksDown_wf (s : State) (hs : s.Has Canon) : State.Has Canon (State.linksDown s) := by
  unfold State.linksDown
  try dsimp only
  with_reducible repeat' (first
    | assumption
    | (refine Has.foldl _ ?_ ?_)
    | split
    | (refine State.groupAbort_wf _ _ _ ?_)
    | (intro _))
theorem execGroupCommitArrival_wf (g : Nat) (inc : BitVec 16) (s : State) (hs : s.Has Canon) : OutHas Canon (execGroupCommitArrival g inc s) := by
  unfold execGroupCommitArrival
  try dsimp only
  with_reducible repeat' (first
    | assumption
    | split
    | (refine unitAct_wf _ _ ?_ ?_)
    | (refine Has.upd ?_ (State.tellOthers_mem _ _))
    | (refine State.formed_wf _ _ _ ?_)
    | (refine State.post_wf _ _ _ _ _ _ ?_)
    | (refine Has.upd ?_ (State.setGroup_mem _ _ _))
    | (intro _))
theorem execPortRetrainDone_wf (die : Nat) (port : Nat) (lanes : BitVec 16) (s : State) (hs : s.Has Canon) : OutHas Canon (execPortRetrainDone die port lanes s) := by
  unfold execPortRetrainDone
  try dsimp only
  with_reducible repeat' (first
    | assumption
    | split
    | (refine unitAct_wf _ _ ?_ ?_)
    | (refine State.post_wf _ _ _ _ _ _ ?_)
    | (refine Has.upd ?_ (State.setPort_mem _ _ _))
    | (refine State.linksDown_wf _ ?_)
    | (refine Has.upd ?_ (State.flits_mem _ _ _))
    | (intro _))
theorem execGroupAbortMsg_wf (g : Nat) (inc : BitVec 16) (reason : BitVec 3) (s : State) (hs : s.Has Canon) : OutHas Canon (execGroupAbortMsg g inc reason s) := by
  unfold execGroupAbortMsg
  try dsimp only
  with_reducible repeat' (first
    | assumption
    | split
    | (refine unitAct_wf _ _ ?_ ?_)
    | (refine Has.upd ?_ (State.setGroup_mem _ _ _))
    | (refine State.groupEnd_wf _ _ _ ?_)
    | (intro _))
theorem execCgwaitLimit_wf (k : Nat) (f : Nat) (s : State) (hs : s.Has Canon) : OutHas Canon (execCgwaitLimit k f s) := by
  unfold execCgwaitLimit
  try dsimp only
  with_reducible repeat' (first
    | assumption
    | split
    | (refine unitAct_wf _ _ ?_ ?_)
    | (refine State.groupAbort_wf _ _ _ ?_)
    | (intro _))
theorem execGroupJoinArrival_wf (g : Nat) (core : Nat) (pkgNo : Nat) (ctx : BitVec 16) (record : List (BitVec 8)) (prop : BitVec 16) (s : State) (hs : s.Has Canon) : OutHas Canon (execGroupJoinArrival g core pkgNo ctx record prop s) := by
  unfold execGroupJoinArrival
  try dsimp only
  with_reducible repeat' (first
    | assumption
    | split
    | (refine unitAct_wf _ _ ?_ ?_)
    | (refine State.joinArrive_wf _ _ _ ?_)
    | (intro _))
theorem State.answerCommit_wf (s : State) (g : Nat) (hs : s.Has Canon) : State.Has Canon (State.answerCommit s g) := by
  unfold State.answerCommit
  try dsimp only
  with_reducible repeat' (first
    | assumption
    | split
    | (refine State.commit_wf _ _ _ ?_))
theorem execCgansCommit_wf (g : Nat) (s : State) (hs : s.Has Canon) : OutHas Canon (execCgansCommit g s) := by
  unfold execCgansCommit
  try dsimp only
  with_reducible repeat' (first
    | assumption
    | (refine unitAct_wf _ _ ?_ ?_)
    | (refine State.answerCommit_wf _ _ ?_)
    | (intro _))
theorem execCgformLimit_wf (k : Nat) (f : Nat) (s : State) (hs : s.Has Canon) : OutHas Canon (execCgformLimit k f s) := by
  unfold execCgformLimit
  try dsimp only
  with_reducible repeat' (first
    | assumption
    | split
    | (refine unitAct_wf _ _ ?_ ?_)
    | (refine State.groupAbort_wf _ _ _ ?_)
    | (intro _))
theorem State.amoHome_wf (s : State) (op : Nat) (pa : Nat) (n : Nat) (v : Word) (cmp : Word) (hs : s.Has Canon) : State.Has Canon (State.amoHome s op pa n v cmp) := by
  unfold State.amoHome
  try dsimp only
  with_reducible repeat' (first
    | assumption
    | split
    | (refine State.wrN_wf _ _ _ _ ?_))
theorem State.homeStore_wf (s : State) (pa : Nat) (l : List (BitVec 8)) (n : Nat) (hs : s.Has Canon) : State.Has Canon (State.homeStore s pa l n) := by
  induction n generalizing s pa l with
  | zero => exact hs
  | succ n ih =>
    unfold State.homeStore
    dsimp only
    have ht : State.Has Canon (match s.homePa pa with
        | some q => s.store q (l.take (4096 - pa % 4096))
        | none => s) := by
      split
      · exact State.store_wf _ _ _ hs
      · exact hs
    exact Has.iteS ht (ih _ _ _ ht)
theorem State.homeWrite_wf (s : State) (pa : Nat) (l : List (BitVec 8)) (hs : s.Has Canon) : State.Has Canon (State.homeWrite s pa l) := by
  unfold State.homeWrite
  try dsimp only
  with_reducible repeat' (first
    | assumption
    | split
    | (refine Has.upd ?_ (State.engineIn_mem _ _ _ _))
    | (refine State.ringBell_wf _ _ _ _ _ ?_)
    | (refine State.homeStore_wf _ _ _ _ ?_)
    | (refine Has.foldl _ ?_ ?_)
    | (refine State.Has.mk ?_; dsimp only; refine State.Has.of ?_)
    | (intro _))
theorem State.lateRelease_wf (s : State) (t : Nat) (q : PStore) (hs : s.Has Canon) : State.Has Canon (State.lateRelease s t q) := by
  unfold State.lateRelease
  try dsimp only
  with_reducible repeat' (first
    | assumption
    | split
    | (refine Has.upd ?_ (State.updFr_mem _ _ _ _))
    | (refine State.guilt_wf _ _ _ ?_)
    | (refine State.Has.mk ?_; dsimp only; refine State.Has.of ?_))
theorem State.flowDrain_wf (s : State) (f : InFlow) (n : Nat) (hs : s.Has Canon) : State.Has Canon (State.flowDrain s f n).1 := by
  induction n generalizing s f with
  | zero => exact hs
  | succ n ih =>
    unfold State.flowDrain
    split
    · exact ih _ _ (State.homeWrite_wf _ _ _ hs)
    · exact hs
theorem State.pendLimit_wf (s : State) (t j : Nat) (hs : s.Has Canon) : State.Has Canon (State.pendLimit s t j) := by
  unfold State.pendLimit
  try dsimp only
  with_reducible repeat' (first
    | assumption
    | split
    | (refine Has.upd ?_ (State.setPeer_mem _ _ _))
    | (refine State.perform_wf _ _ _ ?_)
    | (refine Has.upd ?_ (State.openEpoch_mem _ _))
    | (refine State.lateRelease_wf _ _ _ ?_)
    | (refine Has.upd ?_ (State.farLimit_mem _ _ _))
    | (refine Has.foldl _ ?_ ?_)
    | (refine State.Has.mk ?_; dsimp only; refine State.Has.of ?_)
    | (intro _))
theorem State.applyReleases_wf (s : State) (src n : Nat) (hs : s.Has Canon) : State.Has Canon (s.applyReleases src n) := by
  induction n generalizing s with
  | zero => exact hs
  | succ n ih =>
    unfold State.applyReleases
    dsimp only
    split
    · exact hs
    · refine ih _ (Has.upd ?_ (State.setPeer_mem _ _ _))
      split
      · exact State.amoHome_wf _ _ _ _ _ _ hs
      · exact State.homeWrite_wf _ _ _ hs
theorem State.applyAll_wf (s : State) (src : Nat) (hs : s.Has Canon) : State.Has Canon (State.applyAll s src) := by
  unfold State.applyAll
  try dsimp only
  with_reducible repeat' (first
    | assumption
    | (refine State.applyReleases_wf _ _ _ ?_))
theorem State.waitaLimit_wf (s : State) (k : Nat) (f : Nat) (hs : s.Has Canon) : State.Has Canon (State.waitaLimit s k f) := by
  unfold State.waitaLimit
  try dsimp only
  with_reducible repeat' (first
    | assumption
    | split
    | (refine State.waitTrap_wf _ _ _ _ _ ?_)
    | (refine Has.upd ?_ (State.openEpoch_mem _ _)))
theorem execFlowPacketArrival_wf (src : Nat) (flow : Nat) (seq : BitVec 32 × BitVec 32) (ordered : Bool) (grp : Option (Nat × BitVec 16)) (pa : Nat) (bytes : List (BitVec 8)) (s : State) (hs : s.Has Canon) : OutHas Canon (execFlowPacketArrival src flow seq ordered grp pa bytes s) := by
  unfold execFlowPacketArrival
  try dsimp only
  with_reducible repeat' (first
    | assumption
    | split
    | (refine unitAct_wf _ _ ?_ ?_)
    | (refine Has.upd ?_ (State.setGroup_mem _ _ _))
    | (refine State.flowDrain_wf _ _ _ ?_)
    | (refine State.homeWrite_wf _ _ _ ?_)
    | (refine State.applyAll_wf _ _ ?_)
    | (refine Has.upd ?_ (State.setPeer_mem _ _ _))
    | (intro _))
theorem execFabricStoreArrival_wf (src : Nat) (epoch : BitVec 8) (num : BitVec 32) (pa : Nat) (bytes : List (BitVec 8)) (s : State) (hs : s.Has Canon) : OutHas Canon (execFabricStoreArrival src epoch num pa bytes s) := by
  unfold execFabricStoreArrival
  try dsimp only
  with_reducible repeat' (first
    | assumption
    | split
    | (refine unitAct_wf _ _ ?_ ?_)
    | (refine Has.upd ?_ (State.setPeer_mem _ _ _))
    | (refine State.applyAll_wf _ _ ?_)
    | (refine State.homeWrite_wf _ _ _ ?_)
    | (intro _))
theorem State.releaseIn_wf (s : State) (src : Nat) (p : Peer) (r : RelWait) (hs : s.Has Canon) : State.Has Canon (State.releaseIn s src p r) := by
  unfold State.releaseIn
  try dsimp only
  with_reducible repeat' (first
    | assumption
    | split
    | (refine Has.upd ?_ (State.setPeer_mem _ _ _))
    | (refine State.applyAll_wf _ _ ?_))
theorem execFabricReleaseApply_wf (src : Nat) (epoch : BitVec 8) (num : BitVec 32) (count : BitVec 32) (marks : List (Nat × Nat)) (pa : Nat) (bytes : List (BitVec 8)) (s : State) (hs : s.Has Canon) : OutHas Canon (execFabricReleaseApply src epoch num count marks pa bytes s) := by
  unfold execFabricReleaseApply
  try dsimp only
  with_reducible repeat' (first
    | assumption
    | split
    | (refine unitAct_wf _ _ ?_ ?_)
    | (refine State.releaseIn_wf _ _ _ _ ?_)
    | (intro _))
theorem execRemoteAccessArrival_wf (src : Nat) (op : Nat) (pa : Nat) (size : Nat) (v : BitVec 64 × BitVec 64) (tag : AccessTag) (s : State) (hs : s.Has Canon) : OutHas Canon (execRemoteAccessArrival src op pa size v tag s) := by
  unfold execRemoteAccessArrival
  try dsimp only
  with_reducible repeat' (first
    | assumption
    | split
    | (refine unitAct_wf _ _ ?_ ?_)
    | (refine State.releaseIn_wf _ _ _ _ ?_)
    | (refine Has.upd ?_ (State.setPeer_mem _ _ _))
    | (refine State.applyAll_wf _ _ ?_)
    | (refine State.amoHome_wf _ _ _ _ _ _ ?_)
    | (intro _))
theorem State.replayAll_wf (s : State) (hs : s.Has Canon) : State.Has Canon (State.replayAll s) := by
  unfold State.replayAll
  try dsimp only
  with_reducible repeat' (first
    | assumption
    | (refine Has.foldl _ ?_ ?_)
    | split
    | (refine State.replay_wf _ _ ?_)
    | (intro _))
theorem State.applyPeers_wf (s : State) (hs : s.Has Canon) : State.Has Canon (State.applyPeers s) := by
  unfold State.applyPeers
  try dsimp only
  with_reducible repeat' (first
    | assumption
    | split
    | (refine State.applyAll_wf _ _ ?_)
    | (refine Has.foldl _ ?_ ?_)
    | (refine State.Has.mk ?_; dsimp only; refine State.Has.of ?_)
    | (intro _))
theorem execRdupInvalidateAck_wf (n die : Nat) (s : State) (hs : s.Has Canon) : OutHas Canon (execRdupInvalidateAck n die s) := by
  unfold execRdupInvalidateAck
  try dsimp only
  with_reducible repeat' (first
    | assumption
    | (refine Got.res_has ?_ ?_)
    | (refine unitAct_wf _ _ ?_ ?_)
    | split
    | (refine OutHas.has_next ?_)
    | exact OutHas.has_fault
    | exact OutHas.has_refused
    | (refine unitAct_wf _ _ _ ?_)
    | (refine OutHas.next_has (by assumption) (unitAct_wf _ _ _ ?_))
    | (refine State.atomic_wf _ _ _ _ _ _ ?_)
    | (refine Got.got_has (by assumption) (State.atomic_wf _ _ _ _ _ _ ?_))
    | (refine Got.stop_has (by assumption) (State.atomic_wf _ _ _ _ _ _ ?_))
    | (refine State.store_wf _ _ _ ?_)
    | (refine Has.upd ?_ (State.dropRdup_mem _ _))
    | (refine Has.upd ?_ (State.afterRelease_mem _ _))
    | (refine State.replayAll_wf _ ?_)
    | (refine State.applyPeers_wf _ ?_)
    | (refine Has.foldl _ ?_ ?_)
    | (refine State.Has.mk ?_; dsimp only; refine State.Has.of ?_)
    | (intro _)
    | (refine Res.Has.has_ok ?_)
    | (refine Res.Has.has_to ?_)
    | (refine Res.Has.has_trap ?_)
    | (refine Res.Has.has_hold ?_)
    | (refine Res.Has.has_gone ?_)
    | (refine Got.Has.has_got ?_)
    | (refine Got.Has.has_stop ?_))
theorem State.copyLimit_wf (s : State) (k n : Nat) (hs : s.Has Canon) : State.Has Canon (State.copyLimit s k n) := by
  unfold State.copyLimit
  try dsimp only
  with_reducible repeat' (first
    | assumption
    | split
    | (refine State.cpyEnd_wf _ _ _ _ _ _ ?_)
    | (refine Has.upd ?_ (State.openEpoch_mem _ _))
    | (refine State.groupAbort_wf _ _ _ ?_)
    | (refine Has.foldl _ ?_ ?_)
    | (refine State.Has.mk ?_; dsimp only; refine State.Has.of ?_)
    | (intro _))
theorem execRemoteLimitExpiry_wf (n : Nat) (s : State) (hs : s.Has Canon) : OutHas Canon (execRemoteLimitExpiry n s) := by
  unfold execRemoteLimitExpiry
  try dsimp only
  with_reducible repeat' (first
    | assumption
    | split
    | (refine unitAct_wf _ _ ?_ ?_)
    | (refine Has.upd ?_ (State.farLimit_mem _ _ _))
    | (refine State.pendLimit_wf _ _ _ ?_)
    | (refine State.copyLimit_wf _ _ _ ?_)
    | (refine State.waitaLimit_wf _ _ _ ?_)
    | (intro _))
/-! ### FrontEnd -/

theorem State.cold_wf (s : State) (m : List Host.Cell) (p : List (Nat × Nat)) (h : Canon m) : State.Has Canon (State.cold s m p) := ⟨h⟩
theorem State.thaw_mem (s : State) (ctx : Nat) : (State.thaw s ctx).mem = s.mem := rfl
theorem State.wfGo_mem (s : State) (d : Nat) : (State.wfGo s d).mem = s.mem := rfl
theorem State.flWrite_mem (s : State) (d : Nat) (off : Nat) (v : Word) : (State.flWrite s d off v).mem = s.mem := by
  refine Has.eq fun P h => ?_
  unfold State.flWrite
  try dsimp only
  with_reducible repeat' (first
    | assumption
    | split
    | (refine Has.upd ?_ (State.updDie_mem _ _ _)))
theorem execWfgo_wf {P : List Host.Cell → Prop} (die : Nat) (s : State) (hs : s.Has P) : OutHas P (execWfgo die s) := by
  unfold execWfgo
  try dsimp only
  with_reducible repeat' (first
    | assumption
    | split
    | (refine unitAct_wf _ _ ?_ ?_)
    | (refine Has.upd ?_ (State.wfGo_mem _ _))
    | (intro _))
theorem execFreeListRegWrite_wf {P : List Host.Cell → Prop} (die : Nat) (off : BitVec 12) (v : BitVec 64) (s : State) (hs : s.Has P) : OutHas P (execFreeListRegWrite die off v s) := by
  unfold execFreeListRegWrite
  try dsimp only
  with_reducible repeat' (first
    | assumption
    | split
    | (refine unitAct_wf _ _ ?_ ?_)
    | (refine Has.upd ?_ (State.flWrite_mem _ _ _ _))
    | (intro _))
theorem State.boot_mem (s : State) (digests : List (BitVec 64)) (svn : Nat) (ok : Bool) : (State.boot s digests svn ok).mem = s.mem := by
  refine Has.eq fun P h => ?_
  unfold State.boot
  try dsimp only
  with_reducible repeat' (first
    | assumption
    | (refine Has.foldl _ ?_ ?_)
    | split
    | (refine Has.upd ?_ (State.updDie_mem _ _ _))
    | (refine Has.upd ?_ (State.setPort_mem _ _ _))
    | (refine State.Has.mk ?_; dsimp only; refine State.Has.of ?_)
    | (intro _))
theorem State.warm_wf (s : State) (h : s.Has Canon) : State.Has Canon (State.warm s) := by
  unfold State.warm
  exact Has.upd (State.cold_wf s _ _ (wf_filter _ h.of)) (State.boot_mem _ _ _ _)
theorem execWalkImageLoadDone_wf {P : List Host.Cell → Prop} (die : Nat) (s : State) (hs : s.Has P) : OutHas P (execWalkImageLoadDone die s) := by
  unfold execWalkImageLoadDone
  try dsimp only
  with_reducible repeat' (first
    | assumption
    | split
    | (refine unitAct_wf _ _ ?_ ?_)
    | (refine Has.upd ?_ (State.updDie_mem _ _ _))
    | (intro _))
theorem State.mgmtWrite_wf (s : State) (m : Nat) (off : Nat) (v : Word) (hs : s.Has Canon) : State.Has Canon (State.mgmtWrite s m off v) := by
  unfold State.mgmtWrite
  try dsimp only
  with_reducible repeat' (first
    | assumption
    | split
    | (refine State.warm_wf _ ?_)
    | (refine State.Has.mk ?_; dsimp only; refine State.Has.of ?_))
theorem State.ctxClear_wf (s : State) (slot : Nat) (hs : s.Has Canon) : State.Has Canon (State.ctxClear s slot) := by
  unfold State.ctxClear
  try dsimp only
  with_reducible repeat' (first
    | assumption
    | (refine Has.upd ?_ (State.thaw_mem _ _))
    | (refine State.setCtxFld_wf _ _ _ _ _ ?_))
theorem State.uqWrite_mem (s : State) (d : Nat) (q : Nat) (off : Nat) (v : Word) : (State.uqWrite s d q off v).mem = s.mem := by
  refine Has.eq fun P h => ?_
  unfold State.uqWrite
  try dsimp only
  with_reducible repeat' (first
    | assumption
    | split
    | (refine Has.upd ?_ (State.setUq_mem _ _ _ _)))
theorem State.wipeCore_wf (s : State) (ctx : Nat) (k : Nat) (hs : s.Has Canon) : State.Has Canon (State.wipeCore s ctx k) := by
  unfold State.wipeCore
  try dsimp only
  with_reducible repeat' (first
    | assumption
    | split
    | (refine State.setHeld_wf _ _ _ _ ?_)
    | (refine Has.upd ?_ (State.setCore_mem _ _ _))
    | (refine Has.upd ?_ (State.updCore_mem _ _ _))
    | (refine State.Has.mk ?_; dsimp only; refine State.Has.of ?_))
theorem State.unfreezeBy_wf (s : State) (m : Nat) (who : Nat) (hs : s.Has Canon) : State.Has Canon (State.unfreezeBy s m who) := by
  unfold State.unfreezeBy
  try dsimp only
  with_reducible repeat' (first
    | assumption
    | split
    | (refine Has.upd ?_ (State.thaw_mem _ _))
    | (refine State.setCtxFld_wf _ _ _ _ _ ?_)
    | (refine State.Has.mk ?_; dsimp only; refine State.Has.of ?_))
theorem State.retireRest_wf (s : State) (slot : Nat) (hs : s.Has Canon) : State.Has Canon (State.retireRest s slot) := by
  unfold State.retireRest
  try dsimp only
  with_reducible repeat' (first
    | assumption
    | (refine Has.foldl _ ?_ ?_)
    | (refine State.wipeCore_wf _ _ _ ?_)
    | (refine Has.upd ?_ (State.tlbDrop_mem _ _ _ _))
    | (refine State.setCtxFld_wf _ _ _ _ _ ?_)
    | (refine State.post_wf _ _ _ _ _ _ ?_)
    | (intro _))
theorem execUserQueueDescWrite_wf {P : List Host.Cell → Prop} (die : Nat) (q : Nat) (off : BitVec 6) (v : BitVec 64) (s : State) (hs : s.Has P) : OutHas P (execUserQueueDescWrite die q off v s) := by
  unfold execUserQueueDescWrite
  try dsimp only
  with_reducible repeat' (first
    | assumption
    | split
    | (refine unitAct_wf _ _ ?_ ?_)
    | (refine Has.upd ?_ (State.uqWrite_mem _ _ _ _ _))
    | (intro _))
theorem State.retireOn_wf (s : State) (hs : s.Has Canon) : State.Has Canon (State.retireOn s) := by
  unfold State.retireOn
  try dsimp only
  with_reducible repeat' (first
    | assumption
    | (refine Has.foldl _ ?_ ?_)
    | split
    | (refine State.retireRest_wf _ _ ?_)
    | (intro _))
theorem State.violation_wf (s : State) (m pa : Nat) (hs : s.Has Canon) : State.Has Canon (State.violation s m pa) := by
  unfold State.violation
  try dsimp only
  with_reducible repeat' (first
    | assumption
    | split
    | (refine State.freeze_wf _ _ _ _ ?_)
    | (refine Has.foldl _ ?_ ?_)
    | (refine State.Has.mk ?_; dsimp only; refine State.Has.of ?_)
    | (intro _))
theorem State.seatCore_wf (s : State) (L : Launch) (img : List (BitVec 8)) (rank : Nat) (k : Nat) (hs : s.Has Canon) : State.Has Canon (State.seatCore s L img rank k) := by
  unfold State.seatCore
  try dsimp only
  with_reducible repeat' (first
    | assumption
    | (refine Has.foldl _ ?_ ?_)
    | split
    | (refine State.takeAll_wf _ _ _ _ ?_)
    | (refine Has.upd ?_ (State.dropOwners_mem _ _ _))
    | (refine Has.upd ?_ (State.setFr_mem _ _ _ _))
    | (refine Has.upd ?_ (State.setCore_mem _ _ _))
    | (refine Has.upd ?_ (State.begin_mem _ _ _ _ _ _))
    | (intro _))
theorem State.release_wf (s : State) (L : Launch) (img : List (BitVec 8)) (hs : s.Has Canon) : State.Has Canon (State.release s L img) := by
  unfold State.release
  try dsimp only
  with_reducible repeat' (first
    | assumption
    | (refine Has.foldl _ ?_ ?_)
    | (refine State.seatCore_wf _ _ _ _ _ ?_)
    | (refine Has.upd ?_ (State.putLaunch_mem _ _))
    | (refine Has.upd ?_ (State.setBar_mem _ _ _))
    | (intro _))
theorem State.schedOut_wf (s : State) (k : Nat) (hs : s.Has Canon) : State.Has Canon (State.schedOut s k) := by
  unfold State.schedOut
  try dsimp only
  with_reducible repeat' (first
    | assumption
    | split
    | (refine Has.upd ?_ (State.updCore_mem _ _ _))
    | (refine State.preempt_wf _ _ ?_))
theorem State.readVa_wf {P : List Host.Cell → Prop} (s : State) (d u ctx n va m : Nat) (hs : s.Has P) :
    ImgRd.Has P (State.readVa s d u ctx n va m) := by
  induction n generalizing va m s with
  | zero => exact .has_got hs
  | succ n ih =>
    have ha := State.unitAcc_wf s d u ctx va needR hs
    unfold State.readVa
    split
    · exact .has_got hs
    · dsimp only
      generalize s.unitAcc d u ctx va needR = x at ha
      cases ha with
      | has_wait h => exact .has_wait h
      | has_fail h => exact .has_fault h
      | @has_go t _ _ h =>
        have ih := ih t (va + min m (4096 - va % 4096)) (m - min m (4096 - va % 4096)) h
        dsimp only
        split
        · exact .has_fault h
        · generalize t.readVa d u ctx n _ _ = y at ih
          cases ih with
          | has_got h => exact .has_got h
          | has_wait h => exact .has_wait h
          | has_fault h => exact .has_fault h
theorem execSchedout_wf (die : Nat) (core : Nat) (s : State) (hs : s.Has Canon) : OutHas Canon (execSchedout die core s) := by
  unfold execSchedout
  try dsimp only
  with_reducible repeat' (first
    | assumption
    | split
    | (refine unitAct_wf _ _ ?_ ?_)
    | (refine State.schedOut_wf _ _ ?_)
    | (intro _))
theorem State.freeStopped_wf (s : State) (k : Nat) (f : Nat) (hs : s.Has Canon) : State.Has Canon (State.freeStopped s k f) := by
  unfold State.freeStopped
  try dsimp only
  with_reducible repeat' (first
    | assumption
    | split
    | (refine State.endNow_wf _ _ _ ?_))
theorem execFreefBivouac_wf (die : Nat) (core : Nat) (s : State) (hs : s.Has Canon) : OutHas Canon (execFreefBivouac die core s) := by
  unfold execFreefBivouac
  try dsimp only
  with_reducible repeat' (first
    | assumption
    | split
    | (refine unitAct_wf _ _ ?_ ?_)
    | (refine State.freeStopped_wf _ _ _ ?_)
    | (intro _))
theorem State.recovWrite_wf (s : State) (d : Nat) (off : Nat) (v : Word) (hs : s.Has Canon) : State.Has Canon (State.recovWrite s d off v) := by
  unfold State.recovWrite
  try dsimp only
  with_reducible repeat' (first
    | assumption
    | split
    | (refine State.schedOut_wf _ _ ?_)
    | (refine State.freeStopped_wf _ _ _ ?_)
    | (refine Has.upd ?_ (State.updDie_mem _ _ _))
    | (refine Has.upd ?_ (State.retrain_mem _ _ _))
    | (refine State.answerCommit_wf _ _ ?_)
    | (refine Has.upd ?_ (State.answerRefuse_mem _ _)))
theorem execFreefFrame_wf (die : Nat) (core : Nat) (f : Nat) (s : State) (hs : s.Has Canon) : OutHas Canon (execFreefFrame die core f s) := by
  unfold execFreefFrame
  try dsimp only
  with_reducible repeat' (first
    | assumption
    | split
    | (refine unitAct_wf _ _ ?_ ?_)
    | (refine State.freeStopped_wf _ _ _ ?_)
    | (intro _))
theorem State.noImage_wf (s : State) (L : Launch) (hs : s.Has Canon) : State.Has Canon (State.noImage s L) := by
  unfold State.noImage
  try dsimp only
  with_reducible repeat' (first
    | assumption
    | (refine State.guilt_wf _ _ _ ?_)
    | (refine State.sigOut_wf _ _ _ ?_))
theorem State.malformed_wf (s : State) (die : Nat) (q : Nat) (ctx : Nat) (p : List Word) (hs : s.Has Canon) : State.Has Canon (State.malformed s die q ctx p) := by
  unfold State.malformed
  try dsimp only
  with_reducible repeat' (first
    | assumption
    | split
    | (refine State.guilt_wf _ _ _ ?_)
    | (refine State.sigOut_wf _ _ _ ?_)
    | (refine State.Has.mk ?_; dsimp only; refine State.Has.of ?_))
theorem State.releaseIf_wf (s : State) (L : Launch) (hs : s.Has Canon) : State.Has Canon (State.releaseIf s L) := by
  unfold State.releaseIf
  try dsimp only
  with_reducible repeat' (first
    | assumption
    | (refine Has.foldl _ ?_ ?_)
    | split
    | (refine State.preempt_wf _ _ ?_)
    | (refine Has.upd ?_ (State.updCore_mem _ _ _))
    | (refine ImgRd.got_has (by assumption) (State.readVa_wf _ _ _ _ _ _ _ ?_))
    | (refine ImgRd.wait_has (by assumption) (State.readVa_wf _ _ _ _ _ _ _ ?_))
    | (refine ImgRd.fault_has (by assumption) (State.readVa_wf _ _ _ _ _ _ _ ?_))
    | (refine State.noImage_wf _ _ ?_)
    | (refine State.release_wf _ _ _ ?_)
    | (intro _))
theorem State.limitGuilt_wf (s : State) (L : Launch) (hs : s.Has Canon) : State.Has Canon (State.limitGuilt s L) := by
  unfold State.limitGuilt
  split
  · exact State.Has.mk hs.of
  · exact State.guilt_wf _ _ _ hs
theorem execLaunchComplete_wf (n : Nat) (s : State) (hs : s.Has Canon) : OutHas Canon (execLaunchComplete n s) := by
  unfold execLaunchComplete
  try dsimp only
  with_reducible repeat' (first
    | assumption
    | (refine Has.foldl _ ?_ ?_)
    | split
    | (refine unitAct_wf _ _ ?_ ?_)
    | (refine State.retireOn_wf _ ?_)
    | (refine State.limitGuilt_wf _ _ ?_)
    | (refine State.queueErr_wf _ _ _ ?_)
    | (refine Has.upd ?_ (State.dropLaunch_mem _ _))
    | (refine State.sigOut_wf _ _ _ ?_)
    | (refine State.memberLost_wf _ _ _ _ ?_)
    | (intro _))
theorem State.ctxRetire_wf (s : State) (slot : Nat) (hs : s.Has Canon) : State.Has Canon (State.ctxRetire s slot) := by
  unfold State.ctxRetire
  try dsimp only
  with_reducible repeat' (first
    | assumption
    | split
    | (refine State.retireOn_wf _ ?_)
    | (refine State.endCtxLaunches_wf _ _ _ ?_)
    | (refine State.Has.mk ?_; dsimp only; refine State.Has.of ?_))
theorem execLaunchLimitExpiry_wf (n : Nat) (s : State) (hs : s.Has Canon) : OutHas Canon (execLaunchLimitExpiry n s) := by
  unfold execLaunchLimitExpiry
  try dsimp only
  with_reducible repeat' (first
    | assumption
    | split
    | (refine unitAct_wf _ _ ?_ ?_)
    | (refine State.limitGuilt_wf _ _ ?_)
    | (refine State.launchEnd_wf _ _ _ ?_)
    | (intro _))
theorem execLaunchRelease_wf (n : Nat) (s : State) (hs : s.Has Canon) : OutHas Canon (execLaunchRelease n s) := by
  unfold execLaunchRelease
  try dsimp only
  with_reducible repeat' (first
    | assumption
    | split
    | (refine unitAct_wf _ _ ?_ ?_)
    | (refine State.releaseIf_wf _ _ ?_)
    | (intro _))
theorem execDoorbell_wf (die : Nat) (q : Nat) (v : BitVec 32) (s : State) (hs : s.Has Canon) : OutHas Canon (execDoorbell die q v s) := by
  unfold execDoorbell
  try dsimp only
  with_reducible repeat' (first
    | assumption
    | split
    | (refine unitAct_wf _ _ ?_ ?_)
    | (refine State.ringBell_wf _ _ _ _ ?_)
    | (intro _))
theorem execQueuePacketRead_wf (die : Nat) (q : Nat) (s : State) (hs : s.Has Canon) : OutHas Canon (execQueuePacketRead die q s) := by
  unfold execQueuePacketRead
  try dsimp only
  with_reducible repeat' (first
    | assumption
    | split
    | (refine unitAct_wf _ _ ?_ ?_)
    | (refine UAcc.go_has (by assumption) (State.unitAcc_wf _ _ _ _ _ _ ?_))
    | (refine UAcc.wait_has (by assumption) (State.unitAcc_wf _ _ _ _ _ _ ?_))
    | (refine UAcc.fail_has (by assumption) (State.unitAcc_wf _ _ _ _ _ _ ?_))
    | (refine State.queueErr_wf _ _ _ ?_)
    | (refine Has.upd ?_ (State.setUq_mem _ _ _ _))
    | (refine State.malformed_wf _ _ _ _ _ ?_)
    | (intro _))
theorem execContextResume_wf (k : Nat) (ctx : BitVec 16) (s : State) (hs : s.Has Canon) : OutHas Canon (execContextResume k ctx s) := by
  unfold execContextResume
  try dsimp only
  with_reducible repeat' (first
    | assumption
    | split
    | (refine unitAct_wf _ _ ?_ ?_)
    | (refine State.resumeCtx_wf _ _ _ ?_)
    | (refine Has.upd ?_ (State.dropOwners_mem _ _ _))
    | (intro _))
theorem State.twGo_wf (s : State) (d : Nat) (hs : s.Has Canon) : State.Has Canon (State.twGo s d) := by
  unfold State.twGo
  try dsimp only
  with_reducible repeat' (first
    | assumption
    | split
    | (refine Has.upd ?_ (State.updDie_mem _ _ _))
    | (refine State.tlbw_wf _ _ _ _ _ _ ?_)
    | (refine Has.upd ?_ (State.ticked_mem _)))
theorem State.frontWrite_wf (s : State) (m : Nat) (d : Nat) (off : Nat) (v : Word) (hs : s.Has Canon) : State.Has Canon (State.frontWrite s m d off v) := by
  unfold State.frontWrite
  try dsimp only
  with_reducible repeat' (first
    | assumption
    | split
    | (refine Has.upd ?_ (State.uqWrite_mem _ _ _ _ _))
    | (refine Has.upd ?_ (State.updDie_mem _ _ _))
    | (refine State.unfreezeBy_wf _ _ _ ?_)
    | (refine State.ctxClear_wf _ _ ?_)
    | (refine State.ctxRetire_wf _ _ ?_)
    | (refine Has.upd ?_ (State.wfGo_mem _ _))
    | (refine State.twGo_wf _ _ ?_))
theorem execTwgo_wf (die : Nat) (s : State) (hs : s.Has Canon) : OutHas Canon (execTwgo die s) := by
  unfold execTwgo
  try dsimp only
  with_reducible repeat' (first
    | assumption
    | split
    | (refine unitAct_wf _ _ ?_ ?_)
    | (refine State.twGo_wf _ _ ?_)
    | (intro _))
theorem State.pageWrite_wf (s : State) (m o : Nat) (v : Word) (hs : s.Has Canon) : State.Has Canon (State.pageWrite s m o v) := by
  unfold State.pageWrite
  try dsimp only
  with_reducible repeat' (first
    | assumption
    | split
    | (refine State.violation_wf _ _ _ ?_)
    | (refine Has.upd ?_ (State.engineIn_mem _ _ _ _))
    | (refine Has.upd ?_ (State.queueWrite_mem _ _ _ _))
    | (refine Has.upd ?_ (State.flWrite_mem _ _ _ _))
    | (refine State.frontWrite_wf _ _ _ _ _ ?_)
    | (refine State.ringBell_wf _ _ _ _ _ ?_)
    | (refine State.recovWrite_wf _ _ _ _ ?_)
    | (refine State.mgmtWrite_wf _ _ _ _ ?_)
    | (refine Has.foldl _ ?_ ?_)
    | (refine State.Has.mk ?_; dsimp only; refine State.Has.of ?_)
    | (intro _))
theorem execCtxctlClear_wf (master : BitVec 18) (slot : BitVec 8) (s : State) (hs : s.Has Canon) : OutHas Canon (execCtxctlClear master slot s) := by
  unfold execCtxctlClear
  try dsimp only
  with_reducible repeat' (first
    | assumption
    | (refine unitAct_wf _ _ ?_ ?_)
    | (refine State.pageWrite_wf _ _ _ _ ?_)
    | (intro _))
theorem State.answer_mem (s : State) (m a v : Nat) : (State.answer s m a v).mem = s.mem := rfl
theorem execHostLinkAccess_wf (fn : Nat) (wr : Bool) (pa size : Nat) (v : BitVec 64) (s : State) (hs : s.Has Canon) :
    OutHas Canon (execHostLinkAccess fn wr pa size v s) := by
  refine unitAct_wf _ _ hs fun s h => ?_
  have hm : ∀ a, State.Has Canon (if wr = true then s.store a (bytesOf (min size 8) v.toNat) else s.answer (mFn (fn % 128)) a (s.unitRd a (min size 8))) :=
    fun a => Has.iteS (State.store_wf _ _ _ h) (Has.upd h (State.answer_mem _ _ _ _))
  have ho : ∀ (t : State) a x, t.Has Canon → State.Has Canon (if wr = true then t else t.answer (mFn (fn % 128)) a x) :=
    fun t a x h => Has.iteS h (Has.upd h (State.answer_mem _ _ _ _))
  have hv : ∀ m a, State.Has Canon (s.violation m a) := fun m a => State.violation_wf _ _ _ h
  refine Has.iteS (hm _) (Has.iteS h (Has.iteS (ho _ _ _ h) (Has.iteS (ho _ _ _ (hv _ _)) ?_)))
  split
  · exact hm _
  · exact Has.iteS (ho _ _ _ (hv _ _)) (hm _)
  · refine Has.iteS (Has.iteS (State.pageWrite_wf _ _ _ _ h) (Has.iteS (hv _ _) h)) (Has.iteS (ho _ _ _ (hv _ _)) (Has.upd h (State.answer_mem _ _ _ _)))
  · exact ho _ _ _ (hv _ _)
theorem State.portWrite_wf (s : State) (o : Nat) (v : Word) (hs : s.Has Canon) : State.Has Canon (State.portWrite s o v) := by
  unfold State.portWrite
  try dsimp only
  with_reducible repeat' (first
    | assumption
    | split
    | (refine State.pageWrite_wf _ _ _ _ ?_)
    | (refine Has.foldl _ ?_ ?_)
    | (refine State.Has.mk ?_; dsimp only; refine State.Has.of ?_)
    | (intro _))
theorem execRegisterWrite_wf (master : BitVec 18) (pa : Nat) (v : BitVec 64) (s : State) (hs : s.Has Canon) : OutHas Canon (execRegisterWrite master pa v s) := by
  unfold execRegisterWrite
  try dsimp only
  with_reducible repeat' (first
    | assumption
    | (refine Got.res_has ?_ ?_)
    | split
    | (refine OutHas.has_next ?_)
    | exact OutHas.has_fault
    | exact OutHas.has_refused
    | (refine State.portWrite_wf _ _ _ ?_)
    | (refine State.pageWrite_wf _ _ _ _ ?_)
    | (refine Has.foldl _ ?_ ?_)
    | (refine State.Has.mk ?_; dsimp only; refine State.Has.of ?_)
    | (intro _)
    | (refine Res.Has.has_ok ?_)
    | (refine Res.Has.has_to ?_)
    | (refine Res.Has.has_trap ?_)
    | (refine Res.Has.has_hold ?_)
    | (refine Res.Has.has_gone ?_)
    | (refine Got.Has.has_got ?_)
    | (refine Got.Has.has_stop ?_))
theorem execUnfreeze_wf (master : BitVec 18) (who : BitVec 18) (s : State) (hs : s.Has Canon) : OutHas Canon (execUnfreeze master who s) := by
  unfold execUnfreeze
  try dsimp only
  with_reducible repeat' (first
    | assumption
    | (refine unitAct_wf _ _ ?_ ?_)
    | (refine State.pageWrite_wf _ _ _ _ ?_)
    | (intro _))
theorem execCtxctlRetire_wf (master : BitVec 18) (slot : BitVec 8) (s : State) (hs : s.Has Canon) : OutHas Canon (execCtxctlRetire master slot s) := by
  unfold execCtxctlRetire
  try dsimp only
  with_reducible repeat' (first
    | assumption
    | (refine unitAct_wf _ _ ?_ ?_)
    | (refine State.pageWrite_wf _ _ _ _ ?_)
    | (intro _))
/-! ### Package -/

theorem boardAct_wf {P : List Host.Cell → Prop} (g : State → State) (s : State) (hs : s.Has P) (hg : ∀ t, t.Has P → State.Has P (g t)) :
    OutHas P (boardAct g s) := .has_next (hg _ hs)
theorem execStbyPowerUp_wf {P : List Host.Cell → Prop} (s : State) (hs : s.Has P) : OutHas P (execStbyPowerUp s) := by
  unfold execStbyPowerUp
  try dsimp only
  with_reducible repeat' (first
    | assumption
    | (refine boardAct_wf _ _ ?_ ?_)
    | (refine State.Has.mk ?_; dsimp only; refine State.Has.of ?_)
    | (intro _))
theorem execStbyPowerDown_wf (s : State) : OutHas Canon (execStbyPowerDown s) := .has_next ⟨rfl⟩
theorem execPerstLink1_wf {P : List Host.Cell → Prop} (s : State) (hs : s.Has P) : OutHas P (execPerstLink1 s) := by
  unfold execPerstLink1
  try dsimp only
  with_reducible repeat' (first
    | assumption
    | split
    | (refine boardAct_wf _ _ ?_ ?_)
    | (refine State.Has.mk ?_; dsimp only; refine State.Has.of ?_)
    | (intro _))
theorem execMainPowerDown_wf (s : State) : OutHas Canon (execMainPowerDown s) := .has_next ⟨rfl⟩
theorem State.junction_wf {P : List Host.Cell → Prop} (s : State) (die temp : Nat) (hs : s.Has P) : State.Has P (State.junction s die temp) := by
  unfold State.junction
  try dsimp only
  with_reducible repeat' (first
    | assumption
    | split
    | (refine Has.foldl _ ?_ ?_)
    | (refine State.Has.mk ?_; dsimp only; refine State.Has.of ?_)
    | (intro _))
theorem execThermalThrottleEnd_wf {P : List Host.Cell → Prop} (die : Nat) (temp : BitVec 8) (s : State) (hs : s.Has P) : OutHas P (execThermalThrottleEnd die temp s) := by
  unfold execThermalThrottleEnd
  try dsimp only
  with_reducible repeat' (first
    | assumption
    | (refine Got.res_has ?_ ?_)
    | (refine boardAct_wf _ _ ?_ ?_)
    | split
    | (refine OutHas.has_next ?_)
    | exact OutHas.has_fault
    | exact OutHas.has_refused
    | (refine boardAct_wf _ _ _ ?_)
    | (refine OutHas.next_has (by assumption) (boardAct_wf _ _ _ ?_))
    | (refine State.junction_wf _ _ _ ?_)
    | (refine Has.foldl _ ?_ ?_)
    | (refine State.Has.mk ?_; dsimp only; refine State.Has.of ?_)
    | (intro _)
    | (refine Res.Has.has_ok ?_)
    | (refine Res.Has.has_to ?_)
    | (refine Res.Has.has_trap ?_)
    | (refine Res.Has.has_hold ?_)
    | (refine Res.Has.has_gone ?_)
    | (refine Got.Has.has_got ?_)
    | (refine Got.Has.has_stop ?_))
theorem execSpdmMeasurement_wf {P : List Host.Cell → Prop} (die : Nat) (s : State) (hs : s.Has P) : OutHas P (execSpdmMeasurement die s) := by
  unfold execSpdmMeasurement
  try dsimp only
  with_reducible repeat' (first
    | assumption
    | (refine Got.res_has ?_ ?_)
    | (refine boardAct_wf _ _ ?_ ?_)
    | split
    | (refine OutHas.has_next ?_)
    | exact OutHas.has_fault
    | exact OutHas.has_refused
    | (refine boardAct_wf _ _ _ ?_)
    | (refine OutHas.next_has (by assumption) (boardAct_wf _ _ _ ?_))
    | (refine Has.upd ?_ (State.answer_mem _ _ _ _))
    | (refine Has.foldl _ ?_ ?_)
    | (refine State.Has.mk ?_; dsimp only; refine State.Has.of ?_)
    | (intro _)
    | (refine Res.Has.has_ok ?_)
    | (refine Res.Has.has_to ?_)
    | (refine Res.Has.has_trap ?_)
    | (refine Res.Has.has_hold ?_)
    | (refine Res.Has.has_gone ?_)
    | (refine Got.Has.has_got ?_)
    | (refine Got.Has.has_stop ?_))
theorem execPowerWindow_wf {P : List Host.Cell → Prop} (avg : BitVec 12) (s : State) (hs : s.Has P) : OutHas P (execPowerWindow avg s) := by
  unfold execPowerWindow
  try dsimp only
  with_reducible repeat' (first
    | assumption
    | (refine Got.res_has ?_ ?_)
    | (refine boardAct_wf _ _ ?_ ?_)
    | split
    | (refine OutHas.has_next ?_)
    | exact OutHas.has_fault
    | exact OutHas.has_refused
    | (refine boardAct_wf _ _ _ ?_)
    | (refine OutHas.next_has (by assumption) (boardAct_wf _ _ _ ?_))
    | (refine Has.foldl _ ?_ ?_)
    | (refine State.Has.mk ?_; dsimp only; refine State.Has.of ?_)
    | (intro _)
    | (refine Res.Has.has_ok ?_)
    | (refine Res.Has.has_to ?_)
    | (refine Res.Has.has_trap ?_)
    | (refine Res.Has.has_hold ?_)
    | (refine Res.Has.has_gone ?_)
    | (refine Got.Has.has_got ?_)
    | (refine Got.Has.has_stop ?_))
theorem execThermalThrottle_wf {P : List Host.Cell → Prop} (die : Nat) (temp : BitVec 8) (s : State) (hs : s.Has P) : OutHas P (execThermalThrottle die temp s) := by
  unfold execThermalThrottle
  try dsimp only
  with_reducible repeat' (first
    | assumption
    | (refine Got.res_has ?_ ?_)
    | (refine boardAct_wf _ _ ?_ ?_)
    | split
    | (refine OutHas.has_next ?_)
    | exact OutHas.has_fault
    | exact OutHas.has_refused
    | (refine boardAct_wf _ _ _ ?_)
    | (refine OutHas.next_has (by assumption) (boardAct_wf _ _ _ ?_))
    | (refine State.junction_wf _ _ _ ?_)
    | (refine Has.foldl _ ?_ ?_)
    | (refine State.Has.mk ?_; dsimp only; refine State.Has.of ?_)
    | (intro _)
    | (refine Res.Has.has_ok ?_)
    | (refine Res.Has.has_to ?_)
    | (refine Res.Has.has_trap ?_)
    | (refine Res.Has.has_hold ?_)
    | (refine Res.Has.has_gone ?_)
    | (refine Got.Has.has_got ?_)
    | (refine Got.Has.has_stop ?_))
theorem execMgmtRead_wf {P : List Host.Cell → Prop} (off : BitVec 12) (s : State) (hs : s.Has P) : OutHas P (execMgmtRead off s) := by
  unfold execMgmtRead
  try dsimp only
  with_reducible repeat' (first
    | assumption
    | (refine Got.res_has ?_ ?_)
    | (refine boardAct_wf _ _ ?_ ?_)
    | split
    | (refine OutHas.has_next ?_)
    | exact OutHas.has_fault
    | exact OutHas.has_refused
    | (refine boardAct_wf _ _ _ ?_)
    | (refine OutHas.next_has (by assumption) (boardAct_wf _ _ _ ?_))
    | (refine Has.upd ?_ (State.answer_mem _ _ _ _))
    | (refine Has.foldl _ ?_ ?_)
    | (refine State.Has.mk ?_; dsimp only; refine State.Has.of ?_)
    | (intro _)
    | (refine Res.Has.has_ok ?_)
    | (refine Res.Has.has_to ?_)
    | (refine Res.Has.has_trap ?_)
    | (refine Res.Has.has_hold ?_)
    | (refine Res.Has.has_gone ?_)
    | (refine Got.Has.has_got ?_)
    | (refine Got.Has.has_stop ?_))
theorem State.poisonUnit_mem (s : State) (a : Nat) (n : Nat) : (State.poisonUnit s a n).mem = s.mem := by
  refine Has.eq fun P h => ?_
  unfold State.poisonUnit
  try dsimp only
  with_reducible repeat' (first
    | assumption
    | split
    | (refine State.Has.mk ?_; dsimp only; refine State.Has.of ?_))
theorem execPatrolScrub_wf {P : List Host.Cell → Prop} (die : Nat) (addr : BitVec 56) (s : State) (hs : s.Has P) : OutHas P (execPatrolScrub die addr s) := by
  unfold execPatrolScrub
  try dsimp only
  with_reducible repeat' (first
    | assumption
    | (refine unitAct_wf _ _ ?_ ?_)
    | (intro _))
theorem execThermalTrip_wf {P : List Host.Cell → Prop} (die : Nat) (temp : BitVec 8) (s : State) (hs : s.Has P) : OutHas P (execThermalTrip die temp s) := by
  unfold execThermalTrip
  try dsimp only
  with_reducible repeat' (first
    | assumption
    | (refine Got.res_has ?_ ?_)
    | (refine boardAct_wf _ _ ?_ ?_)
    | split
    | (refine OutHas.has_next ?_)
    | exact OutHas.has_fault
    | exact OutHas.has_refused
    | (refine boardAct_wf _ _ _ ?_)
    | (refine OutHas.next_has (by assumption) (boardAct_wf _ _ _ ?_))
    | (refine State.junction_wf _ _ _ ?_)
    | (refine Has.foldl _ ?_ ?_)
    | (refine State.Has.mk ?_; dsimp only; refine State.Has.of ?_)
    | (intro _)
    | (refine Res.Has.has_ok ?_)
    | (refine Res.Has.has_to ?_)
    | (refine Res.Has.has_trap ?_)
    | (refine Res.Has.has_hold ?_)
    | (refine Res.Has.has_gone ?_)
    | (refine Got.Has.has_got ?_)
    | (refine Got.Has.has_stop ?_))
theorem execFirmwareUpdate_wf {P : List Host.Cell → Prop} (digests : List (BitVec 64)) (svn : BitVec 16) (ok : Bool) (s : State) (hs : s.Has P) : OutHas P (execFirmwareUpdate digests svn ok s) := by
  unfold execFirmwareUpdate
  try dsimp only
  with_reducible repeat' (first
    | assumption
    | split
    | (refine boardAct_wf _ _ ?_ ?_)
    | (refine Has.upd ?_ (State.boot_mem _ _ _ _))
    | (refine State.Has.mk ?_; dsimp only; refine State.Has.of ?_)
    | (intro _))
theorem execMainPowerUp_wf (digests : List (BitVec 64)) (svn : BitVec 16) (ok : Bool) (s : State) (hs : s.Has Canon) :
    OutHas Canon (execMainPowerUp digests svn ok s) := by
  refine .has_next ?_
  dsimp only
  split
  · exact hs
  · exact Has.upd (s := { s.cold [] [] with flash := digests }) ⟨rfl⟩ (State.boot_mem _ _ _ _)
theorem execCorrectedError_wf (die : Nat) (unit : BitVec 8) (addr : BitVec 56) (s : State) (hs : s.Has Canon) : OutHas Canon (execCorrectedError die unit addr s) := by
  unfold execCorrectedError
  try dsimp only
  with_reducible repeat' (first
    | assumption
    | split
    | (refine unitAct_wf _ _ ?_ ?_)
    | (refine Has.upd ?_ (State.updDie_mem _ _ _))
    | (refine State.post_wf _ _ _ _ _ _ ?_)
    | (intro _))
theorem execPwrlim_wf (v : BitVec 64) (s : State) (hs : s.Has Canon) : OutHas Canon (execPwrlim v s) := by
  unfold execPwrlim
  try dsimp only
  with_reducible repeat' (first
    | assumption
    | split
    | (refine boardAct_wf _ _ ?_ ?_)
    | (refine State.mgmtWrite_wf _ _ _ _ ?_)
    | (intro _))
theorem execReset_wf (v : BitVec 64) (s : State) (hs : s.Has Canon) : OutHas Canon (execReset v s) := by
  unfold execReset
  try dsimp only
  with_reducible repeat' (first
    | assumption
    | split
    | (refine boardAct_wf _ _ ?_ ?_)
    | (refine State.mgmtWrite_wf _ _ _ _ ?_)
    | (intro _))
theorem execPerstLink0_wf (s : State) (hs : s.Has Canon) : OutHas Canon (execPerstLink0 s) := by
  unfold execPerstLink0
  try dsimp only
  with_reducible repeat' (first
    | assumption
    | split
    | (refine boardAct_wf _ _ ?_ ?_)
    | (refine State.warm_wf _ ?_)
    | (intro _))
theorem execTrip_wf (v : BitVec 64) (s : State) (hs : s.Has Canon) : OutHas Canon (execTrip v s) := by
  unfold execTrip
  try dsimp only
  with_reducible repeat' (first
    | assumption
    | split
    | (refine boardAct_wf _ _ ?_ ?_)
    | (refine State.mgmtWrite_wf _ _ _ _ ?_)
    | (intro _))
theorem State.cellPoison_wf (s : State) (d : Nat) (e : SheetE) (a : Nat) (c : Nat) (hs : s.Has Canon) : State.Has Canon (State.cellPoison s d e a c) := by
  unfold State.cellPoison
  try dsimp only
  with_reducible repeat' (first
    | assumption
    | split
    | (refine State.faultRec_wf _ _ _ _ _ _ _ ?_)
    | (refine Has.upd ?_ (State.updSheet_mem _ _ _ _))
    | (refine Has.upd ?_ (State.poisonFront_mem _ _ _ _))
    | (refine State.settle_wf _ _ _ _ ?_)
    | (refine State.setDsc_wf _ _ _ _ _ _ _ ?_))
theorem State.cellError_wf (s : State) (a : Nat) (n : Nat) (hs : s.Has Canon) : State.Has Canon (State.cellError s a n) := by
  unfold State.cellError
  try dsimp only
  with_reducible repeat' (first
    | assumption
    | (refine Has.foldl _ ?_ ?_)
    | split
    | (refine State.cellPoison_wf _ _ _ _ _ ?_)
    | (intro _))
theorem State.stopSaved_wf (s : State) (ctx : Nat) (k : Nat) (f : Nat) (r : Frame) (t : Trap) (hs : s.Has Canon) : State.Has Canon (State.stopSaved s ctx k f r t) := by
  unfold State.stopSaved
  try dsimp only
  with_reducible repeat' (first
    | assumption
    | split
    | (refine State.actOnSaved_wf _ _ _ _ ?_)
    | (refine Has.upd ?_ (State.updDie_mem _ _ _))
    | (refine State.post_wf _ _ _ _ _ _ ?_)
    | (refine State.Has.mk ?_; dsimp only; refine State.Has.of ?_))
theorem State.reloadFront_wf (s : State) (d : Nat) (hs : s.Has Canon) : State.Has Canon (State.reloadFront s d) := by
  unfold State.reloadFront
  try dsimp only
  with_reducible repeat' (first
    | assumption
    | (refine Has.foldl _ ?_ ?_)
    | (refine Has.upd ?_ (State.updDie_mem _ _ _))
    | (refine State.launchEnd_wf _ _ _ ?_)
    | (intro _))
theorem execErrorTriageWord_wf (die : Nat) (s : State) (hs : s.Has Canon) : OutHas Canon (execErrorTriageWord die s) := by
  unfold execErrorTriageWord
  try dsimp only
  with_reducible repeat' (first
    | assumption
    | (refine Has.foldl _ ?_ ?_)
    | split
    | (refine unitAct_wf _ _ ?_ ?_)
    | (refine Has.upd ?_ (State.updDie_mem _ _ _))
    | (refine State.actOn_wf _ _ _ ?_)
    | (refine State.reloadFront_wf _ _ ?_)
    | (intro _))
theorem execFrontEndError_wf (die : Nat) (s : State) (hs : s.Has Canon) : OutHas Canon (execFrontEndError die s) := by
  unfold execFrontEndError
  try dsimp only
  with_reducible repeat' (first
    | assumption
    | split
    | (refine unitAct_wf _ _ ?_ ?_)
    | (refine Has.upd ?_ (State.updDie_mem _ _ _))
    | (refine State.reloadFront_wf _ _ ?_)
    | (intro _))
theorem State.poolError_wf (s : State) (unit : Nat) (k : Nat) (off : Nat) (a : Nat) (hs : s.Has Canon) : State.Has Canon (State.poolError s unit k off a) := by
  unfold State.poolError
  try dsimp only
  with_reducible repeat' (first
    | assumption
    | split
    | (refine Has.upd ?_ (State.ticked_mem _))
    | (refine State.stopFiring_wf _ _ _ _ ?_)
    | (refine Has.upd ?_ (State.updCore_mem _ _ _))
    | (refine Has.upd ?_ (State.poisonUnit_mem _ _ _))
    | (refine State.stopSaved_wf _ _ _ _ _ _ ?_)
    | (refine State.Has.mk ?_; dsimp only; refine State.Has.of ?_))
theorem State.damage_wf (s : State) (die : Nat) (unit : Nat) (addr : Nat) (hs : s.Has Canon) : State.Has Canon (State.damage s die unit addr) := by
  unfold State.damage
  try dsimp only
  with_reducible repeat' (first
    | assumption
    | split
    | (refine State.poolError_wf _ _ _ _ _ ?_)
    | (refine State.cellError_wf _ _ _ ?_)
    | (refine Has.upd ?_ (State.poisonUnit_mem _ _ _))
    | (refine Has.upd ?_ (State.updDie_mem _ _ _))
    | (refine Has.upd ?_ (State.breakQ_mem _ _))
    | (refine State.slogFail_wf _ _ _ _ ?_))
theorem execUncorrectableError_wf (die : Nat) (unit : BitVec 8) (addr : BitVec 56) (s : State) (hs : s.Has Canon) : OutHas Canon (execUncorrectableError die unit addr s) := by
  unfold execUncorrectableError
  try dsimp only
  with_reducible repeat' (first
    | assumption
    | split
    | (refine unitAct_wf _ _ ?_ ?_)
    | (refine Has.upd ?_ (State.updDie_mem _ _ _))
    | (refine State.post_wf _ _ _ _ _ _ ?_)
    | (refine State.damage_wf _ _ _ _ ?_)
    | (intro _))
/-! ### Auto -/

theorem State.recheckAll_wf (still : State → Nat → Nat → Bool) (s : State) (hs : s.Has Canon) : State.Has Canon (State.recheckAll still s) := by
  unfold State.recheckAll
  try dsimp only
  with_reducible repeat' (first
    | assumption
    | (refine Has.foldl _ ?_ ?_)
    | split
    | (refine State.recheckWaits_wf _ _ _ ?_)
    | (refine State.recheck_wf _ _ _ ?_)
    | (intro _))

end Sys2Proof.Machine
end

