-- ==== Sys2Proof/Laws/Numbers.lean ====
section
/-! SUPPORT. Codes that rounding gives fit their formats. -/
namespace Sys2Proof.Machine

theorem ite_fst_lt {c : Prop} [Decidable c] {a b : Nat × Nat} {n : Nat} (ha : c → a.1 < n) (hb : ¬c → b.1 < n) : (if c then a else b).1 < n := by
  split
  · next h => exact ha h
  · next h => exact hb h
theorem intCode_lt (t : Nat) (i : Int) : intCode t i < 2 ^ elemBits t := by
  unfold intCode
  have h : (0 : Int) < 2 ^ elemBits t := by positivity
  have := Int.emod_lt_of_pos i h
  have := Int.emod_nonneg i (Int.ne_of_gt h)
  zify
  rw [Int.toNat_of_nonneg this]
  assumption
theorem roundInt_lt (t mode hsr : Nat) (fi : Bool) (q : Q) : (roundInt t mode hsr fi q).1 < 2 ^ elemBits t := by
  unfold roundInt
  dsimp only
  exact ite_fst_lt (fun _ => intCode_lt _ _) fun _ => ite_fst_lt (fun _ => intCode_lt _ _) fun _ => intCode_lt _ _
/-- The largest finite code, an infinity and a NaN, with a sign, fit the format. -/
theorem codes_lt {t : Nat} (h1 : 1 ≤ t) (h2 : t ≤ 8) (neg : Bool) :
    maxCode t + (if neg then 2 ^ (fltBits t - 1) else 0) < 2 ^ fltBits t ∧ nanCode t < 2 ^ fltBits t ∧
      (hasInf t = true → infCode t + (if neg then 2 ^ (fltBits t - 1) else 0) < 2 ^ fltBits t) := by
  have : t = 1 ∨ t = 2 ∨ t = 3 ∨ t = 4 ∨ t = 5 ∨ t = 6 ∨ t = 7 ∨ t = 8 := by omega
  rcases this with e | e | e | e | e | e | e | e <;> subst e <;> cases neg <;> decide
theorem roundFlt_lt {t : Nat} (h1 : 1 ≤ t) (h2 : t ≤ 8) (mode hsr : Nat) (q : Q) : (roundFlt t mode hsr q).1 < 2 ^ fltBits t := by
  have hc (neg : Bool) := codes_lt h1 h2 neg
  unfold roundFlt
  dsimp only
  have hs (k : Nat) (hk : k ≤ maxCode t) : k + (if q.n < 0 then 2 ^ (fltBits t - 1) else 0) < 2 ^ fltBits t := by
    have := (hc (decide (q.n < 0))).1
    simp only [decide_eq_true_eq] at this
    omega
  refine ite_fst_lt (fun _ => ite_fst_lt (fun hi => ?_) fun _ => by simpa using hs _ (Nat.le_refl _)) fun h => by simpa using hs _ (Nat.le_of_not_lt h)
  have := (hc (decide (q.n < 0))).2.2 hi
  simp only [decide_eq_true_eq] at this
  split
  · exact this
  · exact hs _ (Nat.le_refl _)
theorem lq4Floor_lt (y : Q) : lq4Floor y < 16 := by
  unfold lq4Floor
  have := List.length_filter_le (fun c => (Q.int (lq4Q c)).le y) (List.range 16)
  rw [List.length_range] at this
  omega
theorem lq4_top {y : Q} (h : lq4Floor y = 15) : (Q.int 127).le y = true := by
  unfold lq4Floor at h
  have hl := List.length_filter_le (fun c => (Q.int (lq4Q c)).le y) (List.range 16)
  rw [List.length_range] at hl
  have he : ((List.range 16).filter fun c => (Q.int (lq4Q c)).le y).length = (List.range 16).length := by rw [List.length_range]; omega
  have := List.length_filter_eq_length_iff.mp he 15 (by simp)
  simpa [lq4Q] using this
theorem roundLq4_lt (mode hsr : Nat) (x : Q) : (roundLq4 mode hsr x).1 < 16 := by
  unfold roundLq4
  dsimp only
  refine ite_fst_lt (fun _ => by simp) fun h1 => ite_fst_lt (fun _ => by simp) fun _ => ite_fst_lt (fun _ => lq4Floor_lt _) fun h3 => ?_
  have hne : lq4Floor (x.mul (Q.int 127)) ≠ 15 := by
    intro e
    have := lq4_top e
    rw [e] at h3
    simp [Q.le, Q.lt, Q.eq, lq4Q, Q.int, Q.mul] at h1 h3 this
    omega
  have := lq4Floor_lt (x.mul (Q.int 127))
  have up : ∀ {c : Prop} [Decidable c], (if c then lq4Floor (x.mul (Q.int 127)) else lq4Floor (x.mul (Q.int 127)) + 1) < 16 := by
    intro c _; split <;> omega
  have dn : ∀ {c : Prop} [Decidable c], (if c then lq4Floor (x.mul (Q.int 127)) + 1 else lq4Floor (x.mul (Q.int 127))) < 16 := by
    intro c _; split <;> omega
  dsimp only
  split
  · split
    · exact up
    · exact dn
  · exact dn
  · omega
  · omega
  · split
    · exact up
    · exact dn
/-- Every code that a conversion gives fits its format. -/
theorem convTo_lt (t mode hsr : Nat) (fi : Bool) (x : Fp) : (convTo t mode hsr fi x).1 < 2 ^ elemBits t := by
  by_cases hf : isFloat t = true
  · simp only [isFloat, Bool.and_eq_true, decide_eq_true_eq] at hf
    have hw : 2 ^ fltBits t ≤ 2 ^ elemBits t := by
      apply Nat.pow_le_pow_right (by omega)
      have : t = 1 ∨ t = 2 ∨ t = 3 ∨ t = 4 ∨ t = 5 ∨ t = 6 ∨ t = 7 ∨ t = 8 := by omega
      rcases this with e | e | e | e | e | e | e | e <;> subst e <;> decide
    have hf' : isFloat t = true := by simp [isFloat, hf]
    refine Nat.lt_of_lt_of_le ?_ hw
    have hc (neg : Bool) := codes_lt hf.1 hf.2 neg
    cases x with
    | nan => simpa [convTo, hf'] using (hc false).2.1
    | inf neg =>
      simp only [convTo, hf', if_true]
      exact ite_fst_lt (fun h => (hc neg).2.2 h) fun _ => (hc neg).1
    | num neg q =>
      simp only [convTo, hf', if_true]
      refine ite_fst_lt (fun _ => ?_) fun _ => ?_
      · have := (hc neg).1; simp only at *; omega
      · simp only [roundTo, hf', if_true]; exact roundFlt_lt hf.1 hf.2 _ _ _
  · have hni : hasInf t = false := by
      simp only [isFloat, Bool.and_eq_true, decide_eq_true_eq] at hf
      simp [hasInf, isWide]; omega
    by_cases h9 : t = 9
    · subst h9
      cases x with
      | nan => simp [convTo, isFloat, elemBits]
      | inf neg => simp only [convTo, hni]; cases neg <;> simp [isFloat, elemBits]
      | num neg q =>
        simp only [convTo]
        refine ite_fst_lt (fun _ => by simp [isFloat, elemBits]) fun _ => ?_
        simp only [roundTo, isFloat]
        exact roundLq4_lt _ _ _
    · cases x with
      | nan => simp [convTo, hf, h9]
      | inf neg => simp only [convTo, hni, hf, h9, if_false, Bool.false_eq_true]; exact intCode_lt _ _
      | num neg q =>
        simp only [convTo, hf, h9, if_false, Bool.false_eq_true]
        refine ite_fst_lt (fun _ => by simp) fun _ => ?_
        simp only [roundTo, hf, h9, if_false, Bool.false_eq_true]
        exact roundInt_lt _ _ _ _ _
theorem finish_lt (t : Nat) (r : Fp × Nat) : (finish t r).1 < 2 ^ elemBits t := convTo_lt t 0 0 false r.1

end Sys2Proof.Machine
end

