-- ==== Sys2Proof/Laws/Tables.lean ====
section
/-! SUPPORT. What a table holds after a write: the value written under its number, and every other number as before. -/
namespace Sys2Proof.Tab
variable {α : Type}

theorem look_ins_self (l : List (Nat × α)) (k : Nat) (v : α) : look (ins l k v) k = some v := by
  induction l with
  | nil => simp [ins, look]
  | cons e r ih =>
    simp only [ins]
    split
    · simp [look]
    · split
      · simp [look]
      · next h _ => simp [look, h, ih]

theorem look_ins_ne (l : List (Nat × α)) {j k : Nat} (v : α) (h : j ≠ k) : look (ins l k v) j = look l j := by
  have h' : ¬k = j := fun e => h e.symm
  induction l with
  | nil => simp [ins, look, h']
  | cons e r ih =>
    simp only [ins]
    split
    · next e0 => simp [look, h', e0]
    · split
      · simp [look, h']
      · simp [look, ih]

@[simp] theorem get_put_self (t : Tab α) (k : Nat) (v d : α) : (t.put k v).get k d = v := by
  simp [get, put, look_ins_self]
theorem get_put_ne (t : Tab α) {j k : Nat} (v d : α) (h : j ≠ k) : (t.put k v).get j d = t.get j d := by
  simp [get, put, look_ins_ne t.l v h]
theorem get_put (t : Tab α) (j k : Nat) (v d : α) : (t.put k v).get j d = if j = k then v else t.get j d := by
  split
  · next h => subst h; simp
  · next h => exact get_put_ne t v d h
@[simp] theorem get?_put_self (t : Tab α) (k : Nat) (v : α) : (t.put k v).get? k = some v := look_ins_self t.l k v
theorem get?_put_ne (t : Tab α) {j k : Nat} (v : α) (h : j ≠ k) : (t.put k v).get? j = t.get? j := look_ins_ne t.l v h
theorem ins_ins (l : List (Nat × α)) (k : Nat) (u v : α) : ins (ins l k u) k v = ins l k v := by
  induction l with
  | nil => simp [ins]
  | cons e r ih =>
    obtain ⟨j, w⟩ := e
    by_cases h1 : j = k
    · simp [ins, h1]
    · by_cases h2 : k < j
      · simp [ins, h1, h2]
      · simp [ins, h1, h2, ih]
/-- Of two writes under one number the later stands. -/
@[simp] theorem put_put (t : Tab α) (k : Nat) (u v : α) : (t.put k u).put k v = t.put k v := by
  simp [put, ins_ins]
@[simp] theorem get_empty (k : Nat) (d : α) : ({} : Tab α).get k d = d := rfl
@[simp] theorem get?_empty (k : Nat) : ({} : Tab α).get? k = none := rfl

/-- The numbers of a table stand in strictly rising order. -/
def rising : List (Nat × α) → Prop
  | [] => True
  | [_] => True
  | a :: b :: r => a.1 < b.1 ∧ rising (b :: r)
theorem rising_tail {a : Nat × α} {r : List (Nat × α)} (h : rising (a :: r)) : rising r := by
  cases r with
  | nil => trivial
  | cons b r => exact h.2
theorem ins_head (l : List (Nat × α)) (a : Nat × α) (k : Nat) (v : α) (h : rising (a :: l)) (hk : a.1 < k) :
    rising (a :: ins l k v) := by
  induction l generalizing a with
  | nil => exact ⟨hk, trivial⟩
  | cons b r ih =>
    simp only [ins]
    split
    · next e => exact ⟨hk, by
        cases r with
        | nil => trivial
        | cons c r => exact ⟨e ▸ h.2.1, h.2.2⟩⟩
    · split
      · next h1 h2 => exact ⟨hk, h2, h.2⟩
      · next h1 h2 => exact ⟨h.1, ih b h.2 (Nat.lt_of_le_of_ne (Nat.le_of_not_lt h2) h1)⟩
/-- A write keeps the order of the numbers. -/
theorem rising_put (t : Tab α) (k : Nat) (v : α) (h : rising t.l) : rising (t.put k v).l := by
  show rising (ins t.l k v)
  generalize t.l = l at h
  cases l with
  | nil => trivial
  | cons a r =>
    simp only [ins]
    split
    · next e => cases r with
        | nil => trivial
        | cons c r => exact ⟨e ▸ h.1, h.2⟩
    · split
      · next h1 h2 => exact ⟨h2, h⟩
      · next h1 h2 => exact ins_head r a k v h (Nat.lt_of_le_of_ne (Nat.le_of_not_lt h2) h1)

end Sys2Proof.Tab
end

