-- ==== Sys2Proof/Laws/State.lean ====
section
/-! SUPPORT. Every field of the state after each update, and what the accessors read then. -/
namespace Sys2Proof.Machine

/-! ### Fields -/

@[simp] theorem setFr_pkg (s : State) (k f : Nat) (r : Frame) : (s.setFr k f r).pkg = s.pkg := rfl
@[simp] theorem setFr_cores (s : State) (k f : Nat) (r : Frame) : (s.setFr k f r).cores = s.cores := rfl
@[simp] theorem setFr_frames (s : State) (k f : Nat) (r : Frame) : (s.setFr k f r).frames = s.frames.put (32 * k + f) r := rfl
@[simp] theorem setFr_camps (s : State) (k f : Nat) (r : Frame) : (s.setFr k f r).camps = s.camps := rfl
@[simp] theorem setFr_dies (s : State) (k f : Nat) (r : Frame) : (s.setFr k f r).dies = s.dies := rfl
@[simp] theorem setFr_mem (s : State) (k f : Nat) (r : Frame) : (s.setFr k f r).mem = s.mem := rfl
@[simp] theorem setFr_poison (s : State) (k f : Nat) (r : Frame) : (s.setFr k f r).poison = s.poison := rfl
@[simp] theorem setFr_groups (s : State) (k f : Nat) (r : Frame) : (s.setFr k f r).groups = s.groups := rfl
@[simp] theorem setFr_launches (s : State) (k f : Nat) (r : Frame) : (s.setFr k f r).launches = s.launches := rfl
@[simp] theorem setFr_launchNo (s : State) (k f : Nat) (r : Frame) : (s.setFr k f r).launchNo = s.launchNo := rfl
@[simp] theorem setFr_retiring (s : State) (k f : Nat) (r : Frame) : (s.setFr k f r).retiring = s.retiring := rfl
@[simp] theorem setFr_answered (s : State) (k f : Nat) (r : Frame) : (s.setFr k f r).answered = s.answered := rfl
@[simp] theorem setFr_replies (s : State) (k f : Nat) (r : Frame) : (s.setFr k f r).replies = s.replies := rfl
@[simp] theorem setFr_peers (s : State) (k f : Nat) (r : Frame) : (s.setFr k f r).peers = s.peers := rfl
@[simp] theorem setFr_rdup (s : State) (k f : Nat) (r : Frame) : (s.setFr k f r).rdup = s.rdup := rfl
@[simp] theorem setFr_walks (s : State) (k f : Nat) (r : Frame) : (s.setFr k f r).walks = s.walks := rfl
@[simp] theorem setFr_ans (s : State) (k f : Nat) (r : Frame) : (s.setFr k f r).ans = s.ans := rfl
@[simp] theorem setFr_savedCores (s : State) (k f : Nat) (r : Frame) : (s.setFr k f r).savedCores = s.savedCores := rfl
@[simp] theorem setFr_savedFrames (s : State) (k f : Nat) (r : Frame) : (s.setFr k f r).savedFrames = s.savedFrames := rfl
@[simp] theorem setFr_frozenFns (s : State) (k f : Nat) (r : Frame) : (s.setFr k f r).frozenFns = s.frozenFns := rfl
@[simp] theorem setFr_frozenMgmt (s : State) (k f : Nat) (r : Frame) : (s.setFr k f r).frozenMgmt = s.frozenMgmt := rfl
@[simp] theorem setFr_mgmt (s : State) (k f : Nat) (r : Frame) : (s.setFr k f r).mgmt = s.mgmt := rfl
@[simp] theorem setFr_main (s : State) (k f : Nat) (r : Frame) : (s.setFr k f r).main = s.main := rfl
@[simp] theorem setFr_stby (s : State) (k f : Nat) (r : Frame) : (s.setFr k f r).stby = s.stby := rfl
@[simp] theorem setFr_linkUp (s : State) (k f : Nat) (r : Frame) : (s.setFr k f r).linkUp = s.linkUp := rfl
@[simp] theorem setFr_flash (s : State) (k f : Nat) (r : Frame) : (s.setFr k f r).flash = s.flash := rfl
@[simp] theorem setFr_agenda (s : State) (k f : Nat) (r : Frame) : (s.setFr k f r).agenda = s.agenda := rfl
@[simp] theorem setFr_turn (s : State) (k f : Nat) (r : Frame) : (s.setFr k f r).turn = s.turn := rfl
@[simp] theorem setFr_unitTurn (s : State) (k f : Nat) (r : Frame) : (s.setFr k f r).unitTurn = s.unitTurn := rfl
@[simp] theorem setFr_unitNo (s : State) (k f : Nat) (r : Frame) : (s.setFr k f r).unitNo = s.unitNo := rfl
@[simp] theorem setFr_tick (s : State) (k f : Nat) (r : Frame) : (s.setFr k f r).tick = s.tick := rfl

@[simp] theorem setCore_pkg (s : State) (k : Nat) (c : Core) : (s.setCore k c).pkg = s.pkg := rfl
@[simp] theorem setCore_cores (s : State) (k : Nat) (c : Core) : (s.setCore k c).cores = s.cores.put k c := rfl
@[simp] theorem setCore_frames (s : State) (k : Nat) (c : Core) : (s.setCore k c).frames = s.frames := rfl
@[simp] theorem setCore_camps (s : State) (k : Nat) (c : Core) : (s.setCore k c).camps = s.camps := rfl
@[simp] theorem setCore_dies (s : State) (k : Nat) (c : Core) : (s.setCore k c).dies = s.dies := rfl
@[simp] theorem setCore_mem (s : State) (k : Nat) (c : Core) : (s.setCore k c).mem = s.mem := rfl
@[simp] theorem setCore_poison (s : State) (k : Nat) (c : Core) : (s.setCore k c).poison = s.poison := rfl
@[simp] theorem setCore_groups (s : State) (k : Nat) (c : Core) : (s.setCore k c).groups = s.groups := rfl
@[simp] theorem setCore_launches (s : State) (k : Nat) (c : Core) : (s.setCore k c).launches = s.launches := rfl
@[simp] theorem setCore_launchNo (s : State) (k : Nat) (c : Core) : (s.setCore k c).launchNo = s.launchNo := rfl
@[simp] theorem setCore_retiring (s : State) (k : Nat) (c : Core) : (s.setCore k c).retiring = s.retiring := rfl
@[simp] theorem setCore_answered (s : State) (k : Nat) (c : Core) : (s.setCore k c).answered = s.answered := rfl
@[simp] theorem setCore_replies (s : State) (k : Nat) (c : Core) : (s.setCore k c).replies = s.replies := rfl
@[simp] theorem setCore_peers (s : State) (k : Nat) (c : Core) : (s.setCore k c).peers = s.peers := rfl
@[simp] theorem setCore_rdup (s : State) (k : Nat) (c : Core) : (s.setCore k c).rdup = s.rdup := rfl
@[simp] theorem setCore_walks (s : State) (k : Nat) (c : Core) : (s.setCore k c).walks = s.walks := rfl
@[simp] theorem setCore_ans (s : State) (k : Nat) (c : Core) : (s.setCore k c).ans = s.ans := rfl
@[simp] theorem setCore_savedCores (s : State) (k : Nat) (c : Core) : (s.setCore k c).savedCores = s.savedCores := rfl
@[simp] theorem setCore_savedFrames (s : State) (k : Nat) (c : Core) : (s.setCore k c).savedFrames = s.savedFrames := rfl
@[simp] theorem setCore_frozenFns (s : State) (k : Nat) (c : Core) : (s.setCore k c).frozenFns = s.frozenFns := rfl
@[simp] theorem setCore_frozenMgmt (s : State) (k : Nat) (c : Core) : (s.setCore k c).frozenMgmt = s.frozenMgmt := rfl
@[simp] theorem setCore_mgmt (s : State) (k : Nat) (c : Core) : (s.setCore k c).mgmt = s.mgmt := rfl
@[simp] theorem setCore_main (s : State) (k : Nat) (c : Core) : (s.setCore k c).main = s.main := rfl
@[simp] theorem setCore_stby (s : State) (k : Nat) (c : Core) : (s.setCore k c).stby = s.stby := rfl
@[simp] theorem setCore_linkUp (s : State) (k : Nat) (c : Core) : (s.setCore k c).linkUp = s.linkUp := rfl
@[simp] theorem setCore_flash (s : State) (k : Nat) (c : Core) : (s.setCore k c).flash = s.flash := rfl
@[simp] theorem setCore_agenda (s : State) (k : Nat) (c : Core) : (s.setCore k c).agenda = s.agenda := rfl
@[simp] theorem setCore_turn (s : State) (k : Nat) (c : Core) : (s.setCore k c).turn = s.turn := rfl
@[simp] theorem setCore_unitTurn (s : State) (k : Nat) (c : Core) : (s.setCore k c).unitTurn = s.unitTurn := rfl
@[simp] theorem setCore_unitNo (s : State) (k : Nat) (c : Core) : (s.setCore k c).unitNo = s.unitNo := rfl
@[simp] theorem setCore_tick (s : State) (k : Nat) (c : Core) : (s.setCore k c).tick = s.tick := rfl

@[simp] theorem setDie_pkg (s : State) (d : Nat) (v : Die) : (s.setDie d v).pkg = s.pkg := rfl
@[simp] theorem setDie_cores (s : State) (d : Nat) (v : Die) : (s.setDie d v).cores = s.cores := rfl
@[simp] theorem setDie_frames (s : State) (d : Nat) (v : Die) : (s.setDie d v).frames = s.frames := rfl
@[simp] theorem setDie_camps (s : State) (d : Nat) (v : Die) : (s.setDie d v).camps = s.camps := rfl
@[simp] theorem setDie_dies (s : State) (d : Nat) (v : Die) : (s.setDie d v).dies = s.dies.put d v := rfl
@[simp] theorem setDie_mem (s : State) (d : Nat) (v : Die) : (s.setDie d v).mem = s.mem := rfl
@[simp] theorem setDie_poison (s : State) (d : Nat) (v : Die) : (s.setDie d v).poison = s.poison := rfl
@[simp] theorem setDie_groups (s : State) (d : Nat) (v : Die) : (s.setDie d v).groups = s.groups := rfl
@[simp] theorem setDie_launches (s : State) (d : Nat) (v : Die) : (s.setDie d v).launches = s.launches := rfl
@[simp] theorem setDie_launchNo (s : State) (d : Nat) (v : Die) : (s.setDie d v).launchNo = s.launchNo := rfl
@[simp] theorem setDie_retiring (s : State) (d : Nat) (v : Die) : (s.setDie d v).retiring = s.retiring := rfl
@[simp] theorem setDie_answered (s : State) (d : Nat) (v : Die) : (s.setDie d v).answered = s.answered := rfl
@[simp] theorem setDie_replies (s : State) (d : Nat) (v : Die) : (s.setDie d v).replies = s.replies := rfl
@[simp] theorem setDie_peers (s : State) (d : Nat) (v : Die) : (s.setDie d v).peers = s.peers := rfl
@[simp] theorem setDie_rdup (s : State) (d : Nat) (v : Die) : (s.setDie d v).rdup = s.rdup := rfl
@[simp] theorem setDie_walks (s : State) (d : Nat) (v : Die) : (s.setDie d v).walks = s.walks := rfl
@[simp] theorem setDie_ans (s : State) (d : Nat) (v : Die) : (s.setDie d v).ans = s.ans := rfl
@[simp] theorem setDie_savedCores (s : State) (d : Nat) (v : Die) : (s.setDie d v).savedCores = s.savedCores := rfl
@[simp] theorem setDie_savedFrames (s : State) (d : Nat) (v : Die) : (s.setDie d v).savedFrames = s.savedFrames := rfl
@[simp] theorem setDie_frozenFns (s : State) (d : Nat) (v : Die) : (s.setDie d v).frozenFns = s.frozenFns := rfl
@[simp] theorem setDie_frozenMgmt (s : State) (d : Nat) (v : Die) : (s.setDie d v).frozenMgmt = s.frozenMgmt := rfl
@[simp] theorem setDie_mgmt (s : State) (d : Nat) (v : Die) : (s.setDie d v).mgmt = s.mgmt := rfl
@[simp] theorem setDie_main (s : State) (d : Nat) (v : Die) : (s.setDie d v).main = s.main := rfl
@[simp] theorem setDie_stby (s : State) (d : Nat) (v : Die) : (s.setDie d v).stby = s.stby := rfl
@[simp] theorem setDie_linkUp (s : State) (d : Nat) (v : Die) : (s.setDie d v).linkUp = s.linkUp := rfl
@[simp] theorem setDie_flash (s : State) (d : Nat) (v : Die) : (s.setDie d v).flash = s.flash := rfl
@[simp] theorem setDie_agenda (s : State) (d : Nat) (v : Die) : (s.setDie d v).agenda = s.agenda := rfl
@[simp] theorem setDie_turn (s : State) (d : Nat) (v : Die) : (s.setDie d v).turn = s.turn := rfl
@[simp] theorem setDie_unitTurn (s : State) (d : Nat) (v : Die) : (s.setDie d v).unitTurn = s.unitTurn := rfl
@[simp] theorem setDie_unitNo (s : State) (d : Nat) (v : Die) : (s.setDie d v).unitNo = s.unitNo := rfl
@[simp] theorem setDie_tick (s : State) (d : Nat) (v : Die) : (s.setDie d v).tick = s.tick := rfl

@[simp] theorem updCamp_pkg (s : State) (c : Nat) (g : Camp → Camp) : (s.updCamp c g).pkg = s.pkg := rfl
@[simp] theorem updCamp_cores (s : State) (c : Nat) (g : Camp → Camp) : (s.updCamp c g).cores = s.cores := rfl
@[simp] theorem updCamp_frames (s : State) (c : Nat) (g : Camp → Camp) : (s.updCamp c g).frames = s.frames := rfl
@[simp] theorem updCamp_camps (s : State) (c : Nat) (g : Camp → Camp) : (s.updCamp c g).camps = s.camps.put c (g (s.camp c)) := rfl
@[simp] theorem updCamp_dies (s : State) (c : Nat) (g : Camp → Camp) : (s.updCamp c g).dies = s.dies := rfl
@[simp] theorem updCamp_mem (s : State) (c : Nat) (g : Camp → Camp) : (s.updCamp c g).mem = s.mem := rfl
@[simp] theorem updCamp_poison (s : State) (c : Nat) (g : Camp → Camp) : (s.updCamp c g).poison = s.poison := rfl
@[simp] theorem updCamp_groups (s : State) (c : Nat) (g : Camp → Camp) : (s.updCamp c g).groups = s.groups := rfl
@[simp] theorem updCamp_launches (s : State) (c : Nat) (g : Camp → Camp) : (s.updCamp c g).launches = s.launches := rfl
@[simp] theorem updCamp_launchNo (s : State) (c : Nat) (g : Camp → Camp) : (s.updCamp c g).launchNo = s.launchNo := rfl
@[simp] theorem updCamp_retiring (s : State) (c : Nat) (g : Camp → Camp) : (s.updCamp c g).retiring = s.retiring := rfl
@[simp] theorem updCamp_answered (s : State) (c : Nat) (g : Camp → Camp) : (s.updCamp c g).answered = s.answered := rfl
@[simp] theorem updCamp_replies (s : State) (c : Nat) (g : Camp → Camp) : (s.updCamp c g).replies = s.replies := rfl
@[simp] theorem updCamp_peers (s : State) (c : Nat) (g : Camp → Camp) : (s.updCamp c g).peers = s.peers := rfl
@[simp] theorem updCamp_rdup (s : State) (c : Nat) (g : Camp → Camp) : (s.updCamp c g).rdup = s.rdup := rfl
@[simp] theorem updCamp_walks (s : State) (c : Nat) (g : Camp → Camp) : (s.updCamp c g).walks = s.walks := rfl
@[simp] theorem updCamp_ans (s : State) (c : Nat) (g : Camp → Camp) : (s.updCamp c g).ans = s.ans := rfl
@[simp] theorem updCamp_savedCores (s : State) (c : Nat) (g : Camp → Camp) : (s.updCamp c g).savedCores = s.savedCores := rfl
@[simp] theorem updCamp_savedFrames (s : State) (c : Nat) (g : Camp → Camp) : (s.updCamp c g).savedFrames = s.savedFrames := rfl
@[simp] theorem updCamp_frozenFns (s : State) (c : Nat) (g : Camp → Camp) : (s.updCamp c g).frozenFns = s.frozenFns := rfl
@[simp] theorem updCamp_frozenMgmt (s : State) (c : Nat) (g : Camp → Camp) : (s.updCamp c g).frozenMgmt = s.frozenMgmt := rfl
@[simp] theorem updCamp_mgmt (s : State) (c : Nat) (g : Camp → Camp) : (s.updCamp c g).mgmt = s.mgmt := rfl
@[simp] theorem updCamp_main (s : State) (c : Nat) (g : Camp → Camp) : (s.updCamp c g).main = s.main := rfl
@[simp] theorem updCamp_stby (s : State) (c : Nat) (g : Camp → Camp) : (s.updCamp c g).stby = s.stby := rfl
@[simp] theorem updCamp_linkUp (s : State) (c : Nat) (g : Camp → Camp) : (s.updCamp c g).linkUp = s.linkUp := rfl
@[simp] theorem updCamp_flash (s : State) (c : Nat) (g : Camp → Camp) : (s.updCamp c g).flash = s.flash := rfl
@[simp] theorem updCamp_agenda (s : State) (c : Nat) (g : Camp → Camp) : (s.updCamp c g).agenda = s.agenda := rfl
@[simp] theorem updCamp_turn (s : State) (c : Nat) (g : Camp → Camp) : (s.updCamp c g).turn = s.turn := rfl
@[simp] theorem updCamp_unitTurn (s : State) (c : Nat) (g : Camp → Camp) : (s.updCamp c g).unitTurn = s.unitTurn := rfl
@[simp] theorem updCamp_unitNo (s : State) (c : Nat) (g : Camp → Camp) : (s.updCamp c g).unitNo = s.unitNo := rfl
@[simp] theorem updCamp_tick (s : State) (c : Nat) (g : Camp → Camp) : (s.updCamp c g).tick = s.tick := rfl

@[simp] theorem store_pkg (s : State) (a : Nat) (l : List (BitVec 8)) : (s.store a l).pkg = s.pkg := rfl
@[simp] theorem store_cores (s : State) (a : Nat) (l : List (BitVec 8)) : (s.store a l).cores = s.cores := rfl
@[simp] theorem store_frames (s : State) (a : Nat) (l : List (BitVec 8)) : (s.store a l).frames = s.frames := rfl
@[simp] theorem store_camps (s : State) (a : Nat) (l : List (BitVec 8)) : (s.store a l).camps = s.camps := rfl
@[simp] theorem store_dies (s : State) (a : Nat) (l : List (BitVec 8)) : (s.store a l).dies = s.dies := rfl
@[simp] theorem store_mem (s : State) (a : Nat) (l : List (BitVec 8)) : (s.store a l).mem = wrCells s.mem a l := rfl
@[simp] theorem store_poison (s : State) (a : Nat) (l : List (BitVec 8)) : (s.store a l).poison = unpoison s.poison a l.length := rfl
@[simp] theorem store_groups (s : State) (a : Nat) (l : List (BitVec 8)) : (s.store a l).groups = s.groups := rfl
@[simp] theorem store_launches (s : State) (a : Nat) (l : List (BitVec 8)) : (s.store a l).launches = s.launches := rfl
@[simp] theorem store_launchNo (s : State) (a : Nat) (l : List (BitVec 8)) : (s.store a l).launchNo = s.launchNo := rfl
@[simp] theorem store_retiring (s : State) (a : Nat) (l : List (BitVec 8)) : (s.store a l).retiring = s.retiring := rfl
@[simp] theorem store_answered (s : State) (a : Nat) (l : List (BitVec 8)) : (s.store a l).answered = s.answered := rfl
@[simp] theorem store_replies (s : State) (a : Nat) (l : List (BitVec 8)) : (s.store a l).replies = s.replies := rfl
@[simp] theorem store_peers (s : State) (a : Nat) (l : List (BitVec 8)) : (s.store a l).peers = s.peers := rfl
@[simp] theorem store_rdup (s : State) (a : Nat) (l : List (BitVec 8)) : (s.store a l).rdup = s.rdup := rfl
@[simp] theorem store_walks (s : State) (a : Nat) (l : List (BitVec 8)) : (s.store a l).walks = s.walks := rfl
@[simp] theorem store_ans (s : State) (a : Nat) (l : List (BitVec 8)) : (s.store a l).ans = s.ans := rfl
@[simp] theorem store_savedCores (s : State) (a : Nat) (l : List (BitVec 8)) : (s.store a l).savedCores = s.savedCores := rfl
@[simp] theorem store_savedFrames (s : State) (a : Nat) (l : List (BitVec 8)) : (s.store a l).savedFrames = s.savedFrames := rfl
@[simp] theorem store_frozenFns (s : State) (a : Nat) (l : List (BitVec 8)) : (s.store a l).frozenFns = s.frozenFns := rfl
@[simp] theorem store_frozenMgmt (s : State) (a : Nat) (l : List (BitVec 8)) : (s.store a l).frozenMgmt = s.frozenMgmt := rfl
@[simp] theorem store_mgmt (s : State) (a : Nat) (l : List (BitVec 8)) : (s.store a l).mgmt = s.mgmt := rfl
@[simp] theorem store_main (s : State) (a : Nat) (l : List (BitVec 8)) : (s.store a l).main = s.main := rfl
@[simp] theorem store_stby (s : State) (a : Nat) (l : List (BitVec 8)) : (s.store a l).stby = s.stby := rfl
@[simp] theorem store_linkUp (s : State) (a : Nat) (l : List (BitVec 8)) : (s.store a l).linkUp = s.linkUp := rfl
@[simp] theorem store_flash (s : State) (a : Nat) (l : List (BitVec 8)) : (s.store a l).flash = s.flash := rfl
@[simp] theorem store_agenda (s : State) (a : Nat) (l : List (BitVec 8)) : (s.store a l).agenda = s.agenda := rfl
@[simp] theorem store_turn (s : State) (a : Nat) (l : List (BitVec 8)) : (s.store a l).turn = s.turn := rfl
@[simp] theorem store_unitTurn (s : State) (a : Nat) (l : List (BitVec 8)) : (s.store a l).unitTurn = s.unitTurn := rfl
@[simp] theorem store_unitNo (s : State) (a : Nat) (l : List (BitVec 8)) : (s.store a l).unitNo = s.unitNo := rfl
@[simp] theorem store_tick (s : State) (a : Nat) (l : List (BitVec 8)) : (s.store a l).tick = s.tick := rfl

@[simp] theorem ticked_pkg (s : State)  : (s.ticked).pkg = s.pkg := rfl
@[simp] theorem ticked_cores (s : State)  : (s.ticked).cores = s.cores := rfl
@[simp] theorem ticked_frames (s : State)  : (s.ticked).frames = s.frames := rfl
@[simp] theorem ticked_camps (s : State)  : (s.ticked).camps = s.camps := rfl
@[simp] theorem ticked_dies (s : State)  : (s.ticked).dies = s.dies := rfl
@[simp] theorem ticked_mem (s : State)  : (s.ticked).mem = s.mem := rfl
@[simp] theorem ticked_poison (s : State)  : (s.ticked).poison = s.poison := rfl
@[simp] theorem ticked_groups (s : State)  : (s.ticked).groups = s.groups := rfl
@[simp] theorem ticked_launches (s : State)  : (s.ticked).launches = s.launches := rfl
@[simp] theorem ticked_launchNo (s : State)  : (s.ticked).launchNo = s.launchNo := rfl
@[simp] theorem ticked_retiring (s : State)  : (s.ticked).retiring = s.retiring := rfl
@[simp] theorem ticked_answered (s : State)  : (s.ticked).answered = s.answered := rfl
@[simp] theorem ticked_replies (s : State)  : (s.ticked).replies = s.replies := rfl
@[simp] theorem ticked_peers (s : State)  : (s.ticked).peers = s.peers := rfl
@[simp] theorem ticked_rdup (s : State)  : (s.ticked).rdup = s.rdup := rfl
@[simp] theorem ticked_walks (s : State)  : (s.ticked).walks = s.walks := rfl
@[simp] theorem ticked_ans (s : State)  : (s.ticked).ans = s.ans := rfl
@[simp] theorem ticked_savedCores (s : State)  : (s.ticked).savedCores = s.savedCores := rfl
@[simp] theorem ticked_savedFrames (s : State)  : (s.ticked).savedFrames = s.savedFrames := rfl
@[simp] theorem ticked_frozenFns (s : State)  : (s.ticked).frozenFns = s.frozenFns := rfl
@[simp] theorem ticked_frozenMgmt (s : State)  : (s.ticked).frozenMgmt = s.frozenMgmt := rfl
@[simp] theorem ticked_mgmt (s : State)  : (s.ticked).mgmt = s.mgmt := rfl
@[simp] theorem ticked_main (s : State)  : (s.ticked).main = s.main := rfl
@[simp] theorem ticked_stby (s : State)  : (s.ticked).stby = s.stby := rfl
@[simp] theorem ticked_linkUp (s : State)  : (s.ticked).linkUp = s.linkUp := rfl
@[simp] theorem ticked_flash (s : State)  : (s.ticked).flash = s.flash := rfl
@[simp] theorem ticked_agenda (s : State)  : (s.ticked).agenda = s.agenda := rfl
@[simp] theorem ticked_turn (s : State)  : (s.ticked).turn = s.turn := rfl
@[simp] theorem ticked_unitTurn (s : State)  : (s.ticked).unitTurn = s.unitTurn := rfl
@[simp] theorem ticked_unitNo (s : State)  : (s.ticked).unitNo = s.unitNo := rfl
@[simp] theorem ticked_tick (s : State)  : (s.ticked).tick = s.tick + 1 := rfl

/-! ### Updates in terms of the setters -/

@[simp] theorem updFr_eq (s : State) (k f : Nat) (g : Frame → Frame) : s.updFr k f g = s.setFr k f (g (s.fr k f)) := rfl
@[simp] theorem updCore_eq (s : State) (k : Nat) (g : Core → Core) : s.updCore k g = s.setCore k (g (s.core k)) := rfl
@[simp] theorem updDie_eq (s : State) (d : Nat) (g : Die → Die) : s.updDie d g = s.setDie d (g (s.die d)) := rfl
@[simp] theorem updCur_eq (s : State) (g : Frame → Frame) : s.updCur g = s.setCur (g s.cur) := rfl
@[simp] theorem updMine_eq (s : State) (g : Core → Core) : s.updMine g = s.setCore s.turn (g s.myCore) := rfl

/-! ### Accessors -/

@[simp] theorem fr_setFr_self (s : State) (k f : Nat) (r : Frame) : (s.setFr k f r).fr k f = r := Tab.get_put_self _ _ _ _
@[simp] theorem setFr_setFr (s : State) (k f : Nat) (r q : Frame) : (s.setFr k f r).setFr k f q = s.setFr k f q := by
  simp [State.setFr]
@[simp] theorem setCore_setCore (s : State) (k : Nat) (c d : Core) : (s.setCore k c).setCore k d = s.setCore k d := by
  simp [State.setCore]
@[simp] theorem setDie_setDie (s : State) (d : Nat) (v w : Die) : (s.setDie d v).setDie d w = s.setDie d w := by
  simp [State.setDie]
theorem fr_setFr_ne (s : State) {k f j g : Nat} (r : Frame) (h : 32 * j + g ≠ 32 * k + f) : (s.setFr k f r).fr j g = s.fr j g :=
  Tab.get_put_ne _ _ _ h
@[simp] theorem core_setCore_self (s : State) (k : Nat) (c : Core) : (s.setCore k c).core k = c := Tab.get_put_self _ _ _ _
theorem core_setCore_ne (s : State) {j k : Nat} (c : Core) (h : j ≠ k) : (s.setCore k c).core j = s.core j := Tab.get_put_ne _ _ _ h
@[simp] theorem die_setDie_self (s : State) (d : Nat) (v : Die) : (s.setDie d v).die d = v := Tab.get_put_self _ _ _ _
theorem die_setDie_ne (s : State) {d e : Nat} (v : Die) (h : e ≠ d) : (s.setDie d v).die e = s.die e := Tab.get_put_ne _ _ _ h

@[simp] theorem core_setFr (s : State) (k f : Nat) (r : Frame) (j : Nat) : (s.setFr k f r).core j = s.core j := rfl
@[simp] theorem die_setFr (s : State) (k f : Nat) (r : Frame) (e : Nat) : (s.setFr k f r).die e = s.die e := rfl
@[simp] theorem camp_setFr (s : State) (k f : Nat) (r : Frame) (e : Nat) : (s.setFr k f r).camp e = s.camp e := rfl
@[simp] theorem rd_setFr (s : State) (k f : Nat) (r : Frame) (b : Nat) : (s.setFr k f r).rd b = s.rd b := rfl
@[simp] theorem fi_setFr (s : State) (k f : Nat) (r : Frame) : (s.setFr k f r).fi = s.fi := rfl
@[simp] theorem myCore_setFr (s : State) (k f : Nat) (r : Frame) : (s.setFr k f r).myCore = s.myCore := rfl
@[simp] theorem fr_setCore (s : State) (k : Nat) (c : Core) (j i : Nat) : (s.setCore k c).fr j i = s.fr j i := rfl
@[simp] theorem die_setCore (s : State) (k : Nat) (c : Core) (e : Nat) : (s.setCore k c).die e = s.die e := rfl
@[simp] theorem camp_setCore (s : State) (k : Nat) (c : Core) (e : Nat) : (s.setCore k c).camp e = s.camp e := rfl
@[simp] theorem rd_setCore (s : State) (k : Nat) (c : Core) (b : Nat) : (s.setCore k c).rd b = s.rd b := rfl
@[simp] theorem fr_setDie (s : State) (d : Nat) (v : Die) (j i : Nat) : (s.setDie d v).fr j i = s.fr j i := rfl
@[simp] theorem core_setDie (s : State) (d : Nat) (v : Die) (j : Nat) : (s.setDie d v).core j = s.core j := rfl
@[simp] theorem camp_setDie (s : State) (d : Nat) (v : Die) (e : Nat) : (s.setDie d v).camp e = s.camp e := rfl
@[simp] theorem rd_setDie (s : State) (d : Nat) (v : Die) (b : Nat) : (s.setDie d v).rd b = s.rd b := rfl
@[simp] theorem fi_setDie (s : State) (d : Nat) (v : Die) : (s.setDie d v).fi = s.fi := rfl
@[simp] theorem myCore_setDie (s : State) (d : Nat) (v : Die) : (s.setDie d v).myCore = s.myCore := rfl
@[simp] theorem cur_setDie (s : State) (d : Nat) (v : Die) : (s.setDie d v).cur = s.cur := rfl
@[simp] theorem x_setDie (s : State) (d : Nat) (v : Die) (n : BitVec 6) : (s.setDie d v).x n = s.x n := rfl
@[simp] theorem fr_updCamp (s : State) (c : Nat) (g : Camp → Camp) (j i : Nat) : (s.updCamp c g).fr j i = s.fr j i := rfl
@[simp] theorem core_updCamp (s : State) (c : Nat) (g : Camp → Camp) (j : Nat) : (s.updCamp c g).core j = s.core j := rfl
@[simp] theorem die_updCamp (s : State) (c : Nat) (g : Camp → Camp) (e : Nat) : (s.updCamp c g).die e = s.die e := rfl
@[simp] theorem rd_updCamp (s : State) (c : Nat) (g : Camp → Camp) (b : Nat) : (s.updCamp c g).rd b = s.rd b := rfl
@[simp] theorem fi_updCamp (s : State) (c : Nat) (g : Camp → Camp) : (s.updCamp c g).fi = s.fi := rfl
@[simp] theorem myCore_updCamp (s : State) (c : Nat) (g : Camp → Camp) : (s.updCamp c g).myCore = s.myCore := rfl
@[simp] theorem cur_updCamp (s : State) (c : Nat) (g : Camp → Camp) : (s.updCamp c g).cur = s.cur := rfl
@[simp] theorem x_updCamp (s : State) (c : Nat) (g : Camp → Camp) (n : BitVec 6) : (s.updCamp c g).x n = s.x n := rfl
@[simp] theorem fr_store (s : State) (a : Nat) (l : List (BitVec 8)) (j i : Nat) : (s.store a l).fr j i = s.fr j i := rfl
@[simp] theorem core_store (s : State) (a : Nat) (l : List (BitVec 8)) (j : Nat) : (s.store a l).core j = s.core j := rfl
@[simp] theorem die_store (s : State) (a : Nat) (l : List (BitVec 8)) (e : Nat) : (s.store a l).die e = s.die e := rfl
@[simp] theorem camp_store (s : State) (a : Nat) (l : List (BitVec 8)) (e : Nat) : (s.store a l).camp e = s.camp e := rfl
@[simp] theorem fi_store (s : State) (a : Nat) (l : List (BitVec 8)) : (s.store a l).fi = s.fi := rfl
@[simp] theorem myCore_store (s : State) (a : Nat) (l : List (BitVec 8)) : (s.store a l).myCore = s.myCore := rfl
@[simp] theorem cur_store (s : State) (a : Nat) (l : List (BitVec 8)) : (s.store a l).cur = s.cur := rfl
@[simp] theorem x_store (s : State) (a : Nat) (l : List (BitVec 8)) (n : BitVec 6) : (s.store a l).x n = s.x n := rfl
@[simp] theorem fr_ticked (s : State)  (j i : Nat) : (s.ticked).fr j i = s.fr j i := rfl
@[simp] theorem core_ticked (s : State)  (j : Nat) : (s.ticked).core j = s.core j := rfl
@[simp] theorem die_ticked (s : State)  (e : Nat) : (s.ticked).die e = s.die e := rfl
@[simp] theorem camp_ticked (s : State)  (e : Nat) : (s.ticked).camp e = s.camp e := rfl
@[simp] theorem rd_ticked (s : State)  (b : Nat) : (s.ticked).rd b = s.rd b := rfl
@[simp] theorem fi_ticked (s : State)  : (s.ticked).fi = s.fi := rfl
@[simp] theorem myCore_ticked (s : State)  : (s.ticked).myCore = s.myCore := rfl
@[simp] theorem cur_ticked (s : State)  : (s.ticked).cur = s.cur := rfl
@[simp] theorem x_ticked (s : State)  (n : BitVec 6) : (s.ticked).x n = s.x n := rfl

/-! ### The issuing firing -/

@[simp] theorem cur_setFr_here (s : State) (r : Frame) : (s.setFr s.turn s.fi r).cur = r := fr_setFr_self s _ _ r
@[simp] theorem cur_setCur (s : State) (r : Frame) : (s.setCur r).cur = r := fr_setFr_self s _ _ r
@[simp] theorem setCur_turn (s : State) (r : Frame) : (s.setCur r).turn = s.turn := rfl
@[simp] theorem setCur_mem (s : State) (r : Frame) : (s.setCur r).mem = s.mem := rfl
@[simp] theorem setCur_cores (s : State) (r : Frame) : (s.setCur r).cores = s.cores := rfl
@[simp] theorem setCur_dies (s : State) (r : Frame) : (s.setCur r).dies = s.dies := rfl
@[simp] theorem fi_setCur (s : State) (r : Frame) : (s.setCur r).fi = s.fi := rfl
@[simp] theorem myCore_setCur (s : State) (r : Frame) : (s.setCur r).myCore = s.myCore := rfl
@[simp] theorem rd_setCur (s : State) (r : Frame) (b : Nat) : (s.setCur r).rd b = s.rd b := rfl
@[simp] theorem myCore_setCore (s : State) (c : Core) : (s.setCore s.turn c).myCore = c := core_setCore_self s _ c
theorem cur_setCore (s : State) (k : Nat) (c : Core) (h : c.issuing = (s.core k).issuing) : (s.setCore k c).cur = s.cur := by
  have hi : (s.setCore k c).fi = s.fi := by
    by_cases e : s.turn = k
    · subst e; simp [State.fi, h]
    · simp [State.fi, core_setCore_ne s c e]
  show (s.setCore k c).fr s.turn (s.setCore k c).fi = s.fr s.turn s.fi
  rw [hi]; rfl

/-! ### Registers -/

@[simp] theorem rx_zero (r : Frame) : r.rx 0 = 0#64 := rfl
@[simp] theorem rp_zero (r : Frame) : r.rp 0 = -1#64 := rfl
@[simp] theorem wx_zero (r : Frame) (v : Word) : r.wx 0 v = r := rfl
theorem rx_wx_self (r : Frame) {n : Nat} (v : Word) (h : n ≠ 0) : (r.wx n v).rx n = v := by simp [Frame.wx, Frame.rx, h]
theorem rx_wx_ne (r : Frame) {n m : Nat} (v : Word) (h : m ≠ n) : (r.wx n v).rx m = r.rx m := by
  unfold Frame.wx Frame.rx
  split
  · rfl
  · split
    · rfl
    · exact Tab.get_put_ne _ _ _ h
theorem rp_wp_self (r : Frame) {n : Nat} (v : Word) (h : n ≠ 0) : (r.wp n v).rp n = v := by simp [Frame.wp, Frame.rp, h]
theorem rp_wp_ne (r : Frame) {n m : Nat} (v : Word) (h : m ≠ n) : (r.wp n v).rp m = r.rp m := by
  unfold Frame.wp Frame.rp
  split
  · rfl
  · split
    · rfl
    · exact Tab.get_put_ne _ _ _ h
@[simp] theorem rv_wv_self (r : Frame) (n : Nat) (v : BitVec 512) (t : Nat) : (r.wv n v t).rv n = v := by simp [Frame.wv, Frame.rv]
@[simp] theorem rt_wv_self (r : Frame) (n : Nat) (v : BitVec 512) (t : Nat) : (r.wv n v t).rt n = t % 16 := by
  simp [Frame.wv, Frame.rt]
theorem rv_wv_ne (r : Frame) {n m : Nat} (v : BitVec 512) (t : Nat) (h : m ≠ n) : (r.wv n v t).rv m = r.rv m :=
  Tab.get_put_ne _ _ _ h
theorem rt_wv_ne (r : Frame) {n m : Nat} (v : BitVec 512) (t : Nat) (h : m ≠ n) : (r.wv n v t).rt m = r.rt m := by
  simp [Frame.wv, Frame.rt, Tab.get_put_ne _ _ _ h]
@[simp] theorem wx_stat (r : Frame) (n : Nat) (v : Word) : (r.wx n v).stat = r.stat := by unfold Frame.wx; split <;> rfl
@[simp] theorem wx_pc (r : Frame) (n : Nat) (v : Word) : (r.wx n v).pc = r.pc := by unfold Frame.wx; split <;> rfl
@[simp] theorem wx_v (r : Frame) (n : Nat) (v : Word) : (r.wx n v).v = r.v := by unfold Frame.wx; split <;> rfl
@[simp] theorem wx_vtag (r : Frame) (n : Nat) (v : Word) : (r.wx n v).vtag = r.vtag := by unfold Frame.wx; split <;> rfl
@[simp] theorem wx_p (r : Frame) (n : Nat) (v : Word) : (r.wx n v).p = r.p := by unfold Frame.wx; split <;> rfl
@[simp] theorem wx_fflags (r : Frame) (n : Nat) (v : Word) : (r.wx n v).fflags = r.fflags := by unfold Frame.wx; split <;> rfl
@[simp] theorem wx_epc (r : Frame) (n : Nat) (v : Word) : (r.wx n v).epc = r.epc := by unfold Frame.wx; split <;> rfl
@[simp] theorem wx_cause (r : Frame) (n : Nat) (v : Word) : (r.wx n v).cause = r.cause := by unfold Frame.wx; split <;> rfl
@[simp] theorem wx_tval (r : Frame) (n : Nat) (v : Word) : (r.wx n v).tval = r.tval := by unfold Frame.wx; split <;> rfl
@[simp] theorem wx_tval2 (r : Frame) (n : Nat) (v : Word) : (r.wx n v).tval2 = r.tval2 := by unfold Frame.wx; split <;> rfl
@[simp] theorem wx_tval3 (r : Frame) (n : Nat) (v : Word) : (r.wx n v).tval3 = r.tval3 := by unfold Frame.wx; split <;> rfl
@[simp] theorem wx_handler (r : Frame) (n : Nat) (v : Word) : (r.wx n v).handler = r.handler := by unfold Frame.wx; split <;> rfl
@[simp] theorem wx_out (r : Frame) (n : Nat) (v : Word) : (r.wx n v).out = r.out := by unfold Frame.wx; split <;> rfl
@[simp] theorem wx_seq (r : Frame) (n : Nat) (v : Word) : (r.wx n v).seq = r.seq := by unfold Frame.wx; split <;> rfl
@[simp] theorem wx_unret (r : Frame) (n : Nat) (v : Word) : (r.wx n v).unret = r.unret := by unfold Frame.wx; split <;> rfl
@[simp] theorem wx_waits (r : Frame) (n : Nat) (v : Word) : (r.wx n v).waits = r.waits := by unfold Frame.wx; split <;> rfl
@[simp] theorem wx_hold (r : Frame) (n : Nat) (v : Word) : (r.wx n v).hold = r.hold := by unfold Frame.wx; split <;> rfl
@[simp] theorem wx_behind (r : Frame) (n : Nat) (v : Word) : (r.wx n v).behind = r.behind := by unfold Frame.wx; split <;> rfl
@[simp] theorem wx_expired (r : Frame) (n : Nat) (v : Word) : (r.wx n v).expired = r.expired := by unfold Frame.wx; split <;> rfl
@[simp] theorem wx_saved (r : Frame) (n : Nat) (v : Word) : (r.wx n v).saved = r.saved := by unfold Frame.wx; split <;> rfl
@[simp] theorem wx_far (r : Frame) (n : Nat) (v : Word) : (r.wx n v).far = r.far := by unfold Frame.wx; split <;> rfl
@[simp] theorem wx_ending (r : Frame) (n : Nat) (v : Word) : (r.wx n v).ending = r.ending := by unfold Frame.wx; split <;> rfl
@[simp] theorem wx_yielded (r : Frame) (n : Nat) (v : Word) : (r.wx n v).yielded = r.yielded := by unfold Frame.wx; split <;> rfl
@[simp] theorem wx_quantum (r : Frame) (n : Nat) (v : Word) : (r.wx n v).quantum = r.quantum := by unfold Frame.wx; split <;> rfl
@[simp] theorem wx_parkNo (r : Frame) (n : Nat) (v : Word) : (r.wx n v).parkNo = r.parkNo := by unfold Frame.wx; split <;> rfl
@[simp] theorem wx_deferred (r : Frame) (n : Nat) (v : Word) : (r.wx n v).deferred = r.deferred := by unfold Frame.wx; split <;> rfl
@[simp] theorem wx_now (r : Frame) (n : Nat) (v : Word) : (r.wx n v).now = r.now := by unfold Frame.wx; split <;> rfl
@[simp] theorem wx_streams (r : Frame) (n : Nat) (v : Word) : (r.wx n v).streams = r.streams := by unfold Frame.wx; split <;> rfl
@[simp] theorem wx_vloop (r : Frame) (n : Nat) (v : Word) : (r.wx n v).vloop = r.vloop := by unfold Frame.wx; split <;> rfl
@[simp] theorem wx_src (r : Frame) (n : Nat) (v : Word) : (r.wx n v).src = r.src := by unfold Frame.wx; split <;> rfl
@[simp] theorem wx_tag (r : Frame) (n : Nat) (v : Word) : (r.wx n v).tag = r.tag := by unfold Frame.wx; split <;> rfl
@[simp] theorem wx_msg (r : Frame) (n : Nat) (v : Word) : (r.wx n v).msg = r.msg := by unfold Frame.wx; split <;> rfl
@[simp] theorem wx_slot (r : Frame) (n : Nat) (v : Word) : (r.wx n v).slot = r.slot := by unfold Frame.wx; split <;> rfl
@[simp] theorem wx_owes (r : Frame) (n : Nat) (v : Word) : (r.wx n v).owes = r.owes := by unfold Frame.wx; split <;> rfl
@[simp] theorem wx_fm (r : Frame) (n : Nat) (v : Word) : (r.wx n v).fm = r.fm := by unfold Frame.wx; split <;> rfl
@[simp] theorem wx_joinc (r : Frame) (n : Nat) (v : Word) : (r.wx n v).joinc = r.joinc := by unfold Frame.wx; split <;> rfl
@[simp] theorem wx_resv (r : Frame) (n : Nat) (v : Word) : (r.wx n v).resv = r.resv := by unfold Frame.wx; split <;> rfl
@[simp] theorem wx_mxs (r : Frame) (n : Nat) (v : Word) : (r.wx n v).mxs = r.mxs := by unfold Frame.wx; split <;> rfl
@[simp] theorem wx_cps (r : Frame) (n : Nat) (v : Word) : (r.wx n v).cps = r.cps := by unfold Frame.wx; split <;> rfl
@[simp] theorem wx_token (r : Frame) (n : Nat) (v : Word) : (r.wx n v).token = r.token := by unfold Frame.wx; split <;> rfl
@[simp] theorem wv_pc (r : Frame) (n : Nat) (v : BitVec 512) (t : Nat) : (r.wv n v t).pc = r.pc := rfl
@[simp] theorem wv_x (r : Frame) (n : Nat) (v : BitVec 512) (t : Nat) : (r.wv n v t).x = r.x := rfl
@[simp] theorem wv_fflags (r : Frame) (n : Nat) (v : BitVec 512) (t : Nat) : (r.wv n v t).fflags = r.fflags := rfl
@[simp] theorem wv_p (r : Frame) (n : Nat) (v : BitVec 512) (t : Nat) : (r.wv n v t).p = r.p := rfl
@[simp] theorem wv_out (r : Frame) (n : Nat) (v : BitVec 512) (t : Nat) : (r.wv n v t).out = r.out := rfl
@[simp] theorem wv_seq (r : Frame) (n : Nat) (v : BitVec 512) (t : Nat) : (r.wv n v t).seq = r.seq := rfl
@[simp] theorem wv_unret (r : Frame) (n : Nat) (v : BitVec 512) (t : Nat) : (r.wv n v t).unret = r.unret := rfl
@[simp] theorem wv_deferred (r : Frame) (n : Nat) (v : BitVec 512) (t : Nat) : (r.wv n v t).deferred = r.deferred := rfl
@[simp] theorem wv_now (r : Frame) (n : Nat) (v : BitVec 512) (t : Nat) : (r.wv n v t).now = r.now := rfl
@[simp] theorem wv_waits (r : Frame) (n : Nat) (v : BitVec 512) (t : Nat) : (r.wv n v t).waits = r.waits := rfl
@[simp] theorem wv_quantum (r : Frame) (n : Nat) (v : BitVec 512) (t : Nat) : (r.wv n v t).quantum = r.quantum := rfl
@[simp] theorem wv_streams (r : Frame) (n : Nat) (v : BitVec 512) (t : Nat) : (r.wv n v t).streams = r.streams := rfl
@[simp] theorem wv_hold (r : Frame) (n : Nat) (v : BitVec 512) (t : Nat) : (r.wv n v t).hold = r.hold := rfl

end Sys2Proof.Machine
end

