-- ==== Sys2Proof/Laws/Ops.lean ====
section
/-! SUPPORT. What each shared operation can do: issuing, retiring, boundaries, traps, the return, parking. -/
namespace Sys2Proof.Machine

/-! ### Issuing (R32, R129) -/

/-- No register an instruction names is outstanding in its group. -/
theorem hazard_none {r : Frame} {regs : List Nat} (h : ∀ n ∈ regs, n = 0 ∨ (n ∉ r.out ∧ n ∉ r.seq)) : hazard r regs = none := by
  unfold hazard
  rw [List.find?_eq_none]
  intro n hn
  rcases h n hn with h0 | ⟨h1, h2⟩
  · simp [h0]
  · simp [h1, h2]
/-- With no trap due and no hazard, the instruction's own body decides. -/
theorem issue_body {m : Bool} {len : Nat} {i : Instr} {regs : List Nat} {body : State → Res} {s : State} (hn : s.cur.now = false)
    (hz : hazard s.cur regs = none) : issue m len i regs body s = .next ((body s).finish m len) := by
  simp [issue, hn, hz]
/-- Issuing always answers a next state. -/
theorem issue_next (m : Bool) (len : Nat) (i : Instr) (regs : List Nat) (body : State → Res) (s : State) :
    ∃ t, issue m len i regs body s = .next t := by
  unfold issue
  dsimp only
  split
  · split <;> exact ⟨_, rfl⟩
  · split <;> exact ⟨_, rfl⟩
/-- A hazard raises GROUP_HAZARD with the word and the register, and the body does nothing (R32). -/
theorem issue_hazard {m : Bool} {len : Nat} {i : Instr} {regs : List Nat} {body : State → Res} {s : State} {n : Nat}
    (hn : s.cur.now = false) (hz : hazard s.cur regs = some n) :
    issue m len i regs body s = .next (s.raise s.turn s.fi ⟨2, (firstWord i).zeroExtend 64, wd n, 0#64⟩ s.cur.pc) := by
  simp [issue, hn, hz]

/-! ### Retiring -/

theorem retire_unmarked (s : State) (pc : Word) :
    s.retire false pc = s.setCur { s.cur.settled with pc := pc } := rfl
theorem retire_marked (s : State) (pc : Word) :
    s.retire true pc =
      (s.setCur { s.cur.settled with pc := pc }).boundary := rfl
@[simp] theorem cur_retire_unmarked (s : State) (pc : Word) :
    (s.retire false pc).cur = { s.cur.settled with pc := pc } := by
  simp [retire_unmarked]
@[simp] theorem mem_retire_unmarked (s : State) (pc : Word) : (s.retire false pc).mem = s.mem := rfl
@[simp] theorem cores_retire_unmarked (s : State) (pc : Word) : (s.retire false pc).cores = s.cores := rfl
@[simp] theorem dies_retire_unmarked (s : State) (pc : Word) : (s.retire false pc).dies = s.dies := rfl

/-! ### Boundaries (R33, R129) -/

/-- With results outstanding, a boundary parks the firing. -/
theorem boundary_parks (s : State) (h : s.cur.unret ≠ 0 ∨ s.cur.waits ≠ []) : s.boundary = s.parkFrame s.turn s.fi id := by
  unfold State.boundary
  rcases h with h | h
  · simp [h]
  · simp [h]
/-- With everything returned, nothing deferred and no quantum used up, a boundary begins a group. -/
theorem boundary_clear (s : State) (hu : s.cur.unret = 0) (hw : s.cur.waits = []) (hd : s.cur.deferred = []) (hq : s.cur.quantum = false) :
    s.boundary = s.setCur { s.cur with out := [], seq := [] } := by
  unfold State.boundary
  simp [hu, hw, hd, hq]
/-- With everything returned and a trap deferred, the boundary takes it, the next instruction's address in epc. -/
theorem boundary_traps (s : State) {t : Trap} {ts : List Trap} (hu : s.cur.unret = 0) (hw : s.cur.waits = []) (hd : s.cur.deferred = t :: ts) :
    s.boundary = (s.setCur { s.cur with deferred := ts, now := false }).takeTrap s.turn s.fi t s.cur.pc := by
  unfold State.boundary
  simp [hu, hw, hd]
/-- What a frame holds after parking: the same, but for its state and its place among the parked. -/
theorem fr_parkFrame (s : State) (k f : Nat) (g : Frame → Frame) :
    (s.parkFrame k f g).fr k f = { g (s.fr k f) with stat := .parked, parkNo := (s.core k).parks } := by
  simp [State.parkFrame]
@[simp] theorem mem_parkFrame (s : State) (k f : Nat) (g : Frame → Frame) : (s.parkFrame k f g).mem = s.mem := rfl
@[simp] theorem turn_parkFrame (s : State) (k f : Nat) (g : Frame → Frame) : (s.parkFrame k f g).turn = s.turn := rfl

/-! ### Traps (R126, R127) -/

/-- A program cause of a firing without the handler flag, with tvec set, results returned and no trap deferred: the handler. -/
theorem enterTrap_handler (s : State) (k f : Nat) (t : Trap) (epc : Word) (hc : t.cause < 0x80) (hh : (s.fr k f).handler = false)
    (hv : (s.core k).tvec ≠ 0#64) (hu : (s.fr k f).unret = 0) (hw : (s.fr k f).waits = []) (hd : (s.fr k f).deferred = []) :
    s.enterTrap k f t epc =
      s.setFr k f ({ (s.fr k f).settled with vloop := none, loopW := [], ending := false }.handle (s.core k).tvec t epc) := by
  unfold State.enterTrap State.deliver
  simp [Nat.not_le.mpr hc, hh, hv, hu, hw, hd, Frame.settled]
/-- With results outstanding the firing parks, and enters its handler once they are back. -/
theorem enterTrap_parks (s : State) (k f : Nat) (t : Trap) (epc : Word) (hc : t.cause < 0x80) (hh : (s.fr k f).handler = false)
    (hv : (s.core k).tvec ≠ 0#64) (hu : (s.fr k f).unret ≠ 0 ∨ (s.fr k f).waits ≠ []) :
    s.enterTrap k f t epc =
      s.parkFrame k f fun r => { r.settled with vloop := none, loopW := [], ending := false, owed := some (t, epc) } := by
  unfold State.enterTrap
  rcases hu with h | h <;> simp [Nat.not_le.mpr hc, hh, hv, h]
/-- With the handler flag set a program cause stops the firing as DOUBLE. -/
theorem enterTrap_double (s : State) (k f : Nat) (t : Trap) (epc : Word) (hc : t.cause < 0x80) (hh : (s.fr k f).handler = true) :
    s.enterTrap k f t epc = s.stopFiring k f ⟨0x81, wd t.cause, t.t1, (s.fr k f).cause⟩ := by
  unfold State.enterTrap
  simp [Nat.not_le.mpr hc, hh]
/-- With tvec zero a program cause stops the firing as DOUBLE, with no first cause. -/
theorem enterTrap_notvec (s : State) (k f : Nat) (t : Trap) (epc : Word) (hc : t.cause < 0x80) (hh : (s.fr k f).handler = false)
    (hv : (s.core k).tvec = 0#64) : s.enterTrap k f t epc = s.stopFiring k f ⟨0x81, wd t.cause, t.t1, 0#64⟩ := by
  unfold State.enterTrap
  simp [Nat.not_le.mpr hc, hh, hv]
/-- A privileged cause stops the firing under its own code. -/
theorem enterTrap_privileged (s : State) (k f : Nat) (t : Trap) (epc : Word) (hc : 0x80 ≤ t.cause) : s.enterTrap k f t epc = s.stopFiring k f t := by
  unfold State.enterTrap
  simp [hc]
theorem takeTrap_core (s : State) (k f : Nat) (t : Trap) (epc : Word) (h : isTsc k = false) : s.takeTrap k f t epc = s.enterTrap k f t epc := by
  simp [State.takeTrap, h]
theorem raise_own (s : State) (k f : Nat) (t : Trap) (epc : Word) (h : (s.fr k f).body = none) : s.raise k f t epc = s.takeTrap k f t epc := by
  simp [State.raise, h]

/-! ### Waking (R33, R129) -/

/-- A parked firing whose results are all back, with nothing deferred and no END, begins a group. -/
theorem wake_group (s : State) (k f : Nat) (hp : (s.fr k f).stat = .parked) (hu : (s.fr k f).unret = 0) (hw : (s.fr k f).waits = [])
    (hh : (s.fr k f).hold = .no) (hd : (s.fr k f).deferred = []) (ho : (s.fr k f).owed = none) (he : (s.fr k f).ending = false) :
    s.wake k f = s.setFr k f { s.fr k f with stat := .ready, out := [], seq := [] } := by
  unfold State.wake
  simp [hp, hu, hw, hh, hd, ho, he]

end Sys2Proof.Machine
end

