-- ==== Sys2Proof/Laws/PerInstr.lean ====
section
/-! SUPPORT. For every instruction with words: decoding what the encoder lays out gives the instruction back (R27 to R47). -/
set_option Elab.async false
set_option linter.unusedSimpArgs false
namespace Sys2Proof.Laws

/-- The words of a well-formed instruction decode to it, with every operand at its value. -/
def Roundtrip.Statement (i : Instr) : Prop := i.wf = true → i.isWord = true → decodeList (encode i) = .ok i

theorem Roundtrip.nop (a0) : Roundtrip.Statement (.nop a0) := by
  intro hw _
  simp [decodeList, decodeWords, encode, wordAt, withLen, lenKind, dec00, chk]
theorem Roundtrip.align (a0 a1) : Roundtrip.Statement (.align a0 a1) := by
  intro hw _
  simp only [Instr.wf, Bool.and_eq_true, Bool.or_eq_true, Bool.not_eq_true', decide_eq_true_eq, decide_eq_false_iff_not] at hw
  simp [-BitVec.extractLsb'_toNat, -BitVec.getLsbD_eq_getElem, -BitVec.toNat_setWidth, toNat_wide, lt2, lt3, lt4, lt5, decodeList, decodeWords, encode, wordAt, withLen, lenKind, dec00, chk, hw]
theorem Roundtrip.endFiring (a0) : Roundtrip.Statement (.endFiring a0) := by
  intro hw _
  simp [decodeList, decodeWords, encode, wordAt, withLen, lenKind, dec00, chk]
theorem Roundtrip.yield (a0) : Roundtrip.Statement (.yield a0) := by
  intro hw _
  simp [decodeList, decodeWords, encode, wordAt, withLen, lenKind, dec00, chk]
theorem Roundtrip.add (a0 a1 a2 a3) : Roundtrip.Statement (.add a0 a1 a2 a3) := by
  intro hw _
  simp [decodeList, decodeWords, encode, wordAt, withLen, lenKind, dec01, chk]
theorem Roundtrip.sub (a0 a1 a2 a3) : Roundtrip.Statement (.sub a0 a1 a2 a3) := by
  intro hw _
  simp [decodeList, decodeWords, encode, wordAt, withLen, lenKind, dec01, chk]
theorem Roundtrip.mul (a0 a1 a2 a3) : Roundtrip.Statement (.mul a0 a1 a2 a3) := by
  intro hw _
  simp [decodeList, decodeWords, encode, wordAt, withLen, lenKind, dec01, chk]
theorem Roundtrip.mulh (a0 a1 a2 a3) : Roundtrip.Statement (.mulh a0 a1 a2 a3) := by
  intro hw _
  simp [decodeList, decodeWords, encode, wordAt, withLen, lenKind, dec01, chk]
theorem Roundtrip.mulhn (a0 a1 a2 a3) : Roundtrip.Statement (.mulhn a0 a1 a2 a3) := by
  intro hw _
  simp [decodeList, decodeWords, encode, wordAt, withLen, lenKind, dec01, chk]
theorem Roundtrip.div (a0 a1 a2 a3) : Roundtrip.Statement (.div a0 a1 a2 a3) := by
  intro hw _
  simp [decodeList, decodeWords, encode, wordAt, withLen, lenKind, dec01, chk]
theorem Roundtrip.divn (a0 a1 a2 a3) : Roundtrip.Statement (.divn a0 a1 a2 a3) := by
  intro hw _
  simp [decodeList, decodeWords, encode, wordAt, withLen, lenKind, dec01, chk]
theorem Roundtrip.rem (a0 a1 a2 a3) : Roundtrip.Statement (.rem a0 a1 a2 a3) := by
  intro hw _
  simp [decodeList, decodeWords, encode, wordAt, withLen, lenKind, dec01, chk]
theorem Roundtrip.remn (a0 a1 a2 a3) : Roundtrip.Statement (.remn a0 a1 a2 a3) := by
  intro hw _
  simp [decodeList, decodeWords, encode, wordAt, withLen, lenKind, dec01, chk]
theorem Roundtrip.min (a0 a1 a2 a3) : Roundtrip.Statement (.min a0 a1 a2 a3) := by
  intro hw _
  simp [decodeList, decodeWords, encode, wordAt, withLen, lenKind, dec01, chk]
theorem Roundtrip.max (a0 a1 a2 a3) : Roundtrip.Statement (.max a0 a1 a2 a3) := by
  intro hw _
  simp [decodeList, decodeWords, encode, wordAt, withLen, lenKind, dec01, chk]
theorem Roundtrip.minn (a0 a1 a2 a3) : Roundtrip.Statement (.minn a0 a1 a2 a3) := by
  intro hw _
  simp [decodeList, decodeWords, encode, wordAt, withLen, lenKind, dec01, chk]
theorem Roundtrip.maxn (a0 a1 a2 a3) : Roundtrip.Statement (.maxn a0 a1 a2 a3) := by
  intro hw _
  simp [decodeList, decodeWords, encode, wordAt, withLen, lenKind, dec01, chk]
theorem Roundtrip.slt (a0 a1 a2 a3) : Roundtrip.Statement (.slt a0 a1 a2 a3) := by
  intro hw _
  simp [decodeList, decodeWords, encode, wordAt, withLen, lenKind, dec01, chk]
theorem Roundtrip.sltn (a0 a1 a2 a3) : Roundtrip.Statement (.sltn a0 a1 a2 a3) := by
  intro hw _
  simp [decodeList, decodeWords, encode, wordAt, withLen, lenKind, dec01, chk]
theorem Roundtrip.and (a0 a1 a2 a3) : Roundtrip.Statement (.and a0 a1 a2 a3) := by
  intro hw _
  simp [decodeList, decodeWords, encode, wordAt, withLen, lenKind, dec02, chk]
theorem Roundtrip.or (a0 a1 a2 a3) : Roundtrip.Statement (.or a0 a1 a2 a3) := by
  intro hw _
  simp [decodeList, decodeWords, encode, wordAt, withLen, lenKind, dec02, chk]
theorem Roundtrip.xor (a0 a1 a2 a3) : Roundtrip.Statement (.xor a0 a1 a2 a3) := by
  intro hw _
  simp [decodeList, decodeWords, encode, wordAt, withLen, lenKind, dec02, chk]
theorem Roundtrip.andn (a0 a1 a2 a3) : Roundtrip.Statement (.andn a0 a1 a2 a3) := by
  intro hw _
  simp [decodeList, decodeWords, encode, wordAt, withLen, lenKind, dec02, chk]
theorem Roundtrip.orn (a0 a1 a2 a3) : Roundtrip.Statement (.orn a0 a1 a2 a3) := by
  intro hw _
  simp [decodeList, decodeWords, encode, wordAt, withLen, lenKind, dec02, chk]
theorem Roundtrip.sll (a0 a1 a2 a3) : Roundtrip.Statement (.sll a0 a1 a2 a3) := by
  intro hw _
  simp [decodeList, decodeWords, encode, wordAt, withLen, lenKind, dec02, chk]
theorem Roundtrip.srl (a0 a1 a2 a3) : Roundtrip.Statement (.srl a0 a1 a2 a3) := by
  intro hw _
  simp [decodeList, decodeWords, encode, wordAt, withLen, lenKind, dec02, chk]
theorem Roundtrip.sra (a0 a1 a2 a3) : Roundtrip.Statement (.sra a0 a1 a2 a3) := by
  intro hw _
  simp [decodeList, decodeWords, encode, wordAt, withLen, lenKind, dec02, chk]
theorem Roundtrip.rol (a0 a1 a2 a3) : Roundtrip.Statement (.rol a0 a1 a2 a3) := by
  intro hw _
  simp [decodeList, decodeWords, encode, wordAt, withLen, lenKind, dec02, chk]
theorem Roundtrip.ror (a0 a1 a2 a3) : Roundtrip.Statement (.ror a0 a1 a2 a3) := by
  intro hw _
  simp [decodeList, decodeWords, encode, wordAt, withLen, lenKind, dec02, chk]
theorem Roundtrip.clz (a0 a1 a2 a3) : Roundtrip.Statement (.clz a0 a1 a2 a3) := by
  intro hw _
  simp only [Instr.wf, Bool.and_eq_true, Bool.or_eq_true, Bool.not_eq_true', decide_eq_true_eq, decide_eq_false_iff_not] at hw
  simp [-BitVec.extractLsb'_toNat, -BitVec.getLsbD_eq_getElem, -BitVec.toNat_setWidth, toNat_wide, lt2, lt3, lt4, lt5, decodeList, decodeWords, encode, wordAt, withLen, lenKind, dec03, chk, hw]
theorem Roundtrip.ffs (a0 a1 a2 a3) : Roundtrip.Statement (.ffs a0 a1 a2 a3) := by
  intro hw _
  simp only [Instr.wf, Bool.and_eq_true, Bool.or_eq_true, Bool.not_eq_true', decide_eq_true_eq, decide_eq_false_iff_not] at hw
  simp [-BitVec.extractLsb'_toNat, -BitVec.getLsbD_eq_getElem, -BitVec.toNat_setWidth, toNat_wide, lt2, lt3, lt4, lt5, decodeList, decodeWords, encode, wordAt, withLen, lenKind, dec03, chk, hw]
theorem Roundtrip.popc (a0 a1 a2 a3) : Roundtrip.Statement (.popc a0 a1 a2 a3) := by
  intro hw _
  simp only [Instr.wf, Bool.and_eq_true, Bool.or_eq_true, Bool.not_eq_true', decide_eq_true_eq, decide_eq_false_iff_not] at hw
  simp [-BitVec.extractLsb'_toNat, -BitVec.getLsbD_eq_getElem, -BitVec.toNat_setWidth, toNat_wide, lt2, lt3, lt4, lt5, decodeList, decodeWords, encode, wordAt, withLen, lenKind, dec03, chk, hw]
theorem Roundtrip.brev (a0 a1 a2 a3) : Roundtrip.Statement (.brev a0 a1 a2 a3) := by
  intro hw _
  simp only [Instr.wf, Bool.and_eq_true, Bool.or_eq_true, Bool.not_eq_true', decide_eq_true_eq, decide_eq_false_iff_not] at hw
  simp [-BitVec.extractLsb'_toNat, -BitVec.getLsbD_eq_getElem, -BitVec.toNat_setWidth, toNat_wide, lt2, lt3, lt4, lt5, decodeList, decodeWords, encode, wordAt, withLen, lenKind, dec03, chk, hw]
theorem Roundtrip.addi (a0 a1 a2 a3) : Roundtrip.Statement (.addi a0 a1 a2 a3) := by
  intro hw _
  simp [decodeList, decodeWords, encode, wordAt, withLen, lenKind, dec04, chk]
theorem Roundtrip.addiLit (a0 a1 a2 a3) : Roundtrip.Statement (.addiLit a0 a1 a2 a3) := by
  intro hw _
  simp only [Instr.wf, Bool.and_eq_true, Bool.or_eq_true, Bool.not_eq_true', decide_eq_true_eq, decide_eq_false_iff_not] at hw
  simp [-BitVec.extractLsb'_toNat, -BitVec.getLsbD_eq_getElem, -BitVec.toNat_setWidth, toNat_wide, lt2, lt3, lt4, lt5, decodeList, decodeWords, encode, wordAt, withLen, lenKind, dec04, chk, hw]
theorem Roundtrip.andi (a0 a1 a2 a3) : Roundtrip.Statement (.andi a0 a1 a2 a3) := by
  intro hw _
  simp [decodeList, decodeWords, encode, wordAt, withLen, lenKind, dec05, chk]
theorem Roundtrip.andiLit (a0 a1 a2 a3) : Roundtrip.Statement (.andiLit a0 a1 a2 a3) := by
  intro hw _
  simp only [Instr.wf, Bool.and_eq_true, Bool.or_eq_true, Bool.not_eq_true', decide_eq_true_eq, decide_eq_false_iff_not] at hw
  simp [-BitVec.extractLsb'_toNat, -BitVec.getLsbD_eq_getElem, -BitVec.toNat_setWidth, toNat_wide, lt2, lt3, lt4, lt5, decodeList, decodeWords, encode, wordAt, withLen, lenKind, dec05, chk, hw]
theorem Roundtrip.ori (a0 a1 a2 a3) : Roundtrip.Statement (.ori a0 a1 a2 a3) := by
  intro hw _
  simp [decodeList, decodeWords, encode, wordAt, withLen, lenKind, dec06, chk]
theorem Roundtrip.oriLit (a0 a1 a2 a3) : Roundtrip.Statement (.oriLit a0 a1 a2 a3) := by
  intro hw _
  simp only [Instr.wf, Bool.and_eq_true, Bool.or_eq_true, Bool.not_eq_true', decide_eq_true_eq, decide_eq_false_iff_not] at hw
  simp [-BitVec.extractLsb'_toNat, -BitVec.getLsbD_eq_getElem, -BitVec.toNat_setWidth, toNat_wide, lt2, lt3, lt4, lt5, decodeList, decodeWords, encode, wordAt, withLen, lenKind, dec06, chk, hw]
theorem Roundtrip.xori (a0 a1 a2 a3) : Roundtrip.Statement (.xori a0 a1 a2 a3) := by
  intro hw _
  simp [decodeList, decodeWords, encode, wordAt, withLen, lenKind, dec07, chk]
theorem Roundtrip.xoriLit (a0 a1 a2 a3) : Roundtrip.Statement (.xoriLit a0 a1 a2 a3) := by
  intro hw _
  simp only [Instr.wf, Bool.and_eq_true, Bool.or_eq_true, Bool.not_eq_true', decide_eq_true_eq, decide_eq_false_iff_not] at hw
  simp [-BitVec.extractLsb'_toNat, -BitVec.getLsbD_eq_getElem, -BitVec.toNat_setWidth, toNat_wide, lt2, lt3, lt4, lt5, decodeList, decodeWords, encode, wordAt, withLen, lenKind, dec07, chk, hw]
theorem Roundtrip.slti (a0 a1 a2 a3) : Roundtrip.Statement (.slti a0 a1 a2 a3) := by
  intro hw _
  simp [decodeList, decodeWords, encode, wordAt, withLen, lenKind, dec08, chk]
theorem Roundtrip.sltiLit (a0 a1 a2 a3) : Roundtrip.Statement (.sltiLit a0 a1 a2 a3) := by
  intro hw _
  simp only [Instr.wf, Bool.and_eq_true, Bool.or_eq_true, Bool.not_eq_true', decide_eq_true_eq, decide_eq_false_iff_not] at hw
  simp [-BitVec.extractLsb'_toNat, -BitVec.getLsbD_eq_getElem, -BitVec.toNat_setWidth, toNat_wide, lt2, lt3, lt4, lt5, decodeList, decodeWords, encode, wordAt, withLen, lenKind, dec08, chk, hw]
theorem Roundtrip.slli (a0 a1 a2 a3) : Roundtrip.Statement (.slli a0 a1 a2 a3) := by
  intro hw _
  simp only [Instr.wf, Bool.and_eq_true, Bool.or_eq_true, Bool.not_eq_true', decide_eq_true_eq, decide_eq_false_iff_not] at hw
  simp [-BitVec.extractLsb'_toNat, -BitVec.getLsbD_eq_getElem, -BitVec.toNat_setWidth, toNat_wide, lt2, lt3, lt4, lt5, decodeList, decodeWords, encode, wordAt, withLen, lenKind, dec09, chk, hw]
theorem Roundtrip.srli (a0 a1 a2 a3) : Roundtrip.Statement (.srli a0 a1 a2 a3) := by
  intro hw _
  simp only [Instr.wf, Bool.and_eq_true, Bool.or_eq_true, Bool.not_eq_true', decide_eq_true_eq, decide_eq_false_iff_not] at hw
  simp [-BitVec.extractLsb'_toNat, -BitVec.getLsbD_eq_getElem, -BitVec.toNat_setWidth, toNat_wide, lt2, lt3, lt4, lt5, decodeList, decodeWords, encode, wordAt, withLen, lenKind, dec09, chk, hw]
theorem Roundtrip.srai (a0 a1 a2 a3) : Roundtrip.Statement (.srai a0 a1 a2 a3) := by
  intro hw _
  simp only [Instr.wf, Bool.and_eq_true, Bool.or_eq_true, Bool.not_eq_true', decide_eq_true_eq, decide_eq_false_iff_not] at hw
  simp [-BitVec.extractLsb'_toNat, -BitVec.getLsbD_eq_getElem, -BitVec.toNat_setWidth, toNat_wide, lt2, lt3, lt4, lt5, decodeList, decodeWords, encode, wordAt, withLen, lenKind, dec09, chk, hw]
theorem Roundtrip.limm (a0 a1 a2) : Roundtrip.Statement (.limm a0 a1 a2) := by
  intro hw _
  simp [decodeList, decodeWords, encode, wordAt, withLen, lenKind, dec0A, chk]
theorem Roundtrip.limmLit (a0 a1 a2) : Roundtrip.Statement (.limmLit a0 a1 a2) := by
  intro hw _
  simp only [Instr.wf, Bool.and_eq_true, Bool.or_eq_true, Bool.not_eq_true', decide_eq_true_eq, decide_eq_false_iff_not] at hw
  simp [-BitVec.extractLsb'_toNat, -BitVec.getLsbD_eq_getElem, -BitVec.toNat_setWidth, toNat_wide, lt2, lt3, lt4, lt5, decodeList, decodeWords, encode, wordAt, withLen, lenKind, dec0A, chk, hw]
theorem Roundtrip.adpc (a0 a1 a2) : Roundtrip.Statement (.adpc a0 a1 a2) := by
  intro hw _
  simp [decodeList, decodeWords, encode, wordAt, withLen, lenKind, dec0B, chk]
theorem Roundtrip.bfx (a0 a1 a2 a3 a4 a5) : Roundtrip.Statement (.bfx a0 a1 a2 a3 a4 a5) := by
  intro hw _
  simp only [Instr.wf, Bool.and_eq_true, Bool.or_eq_true, Bool.not_eq_true', decide_eq_true_eq, decide_eq_false_iff_not] at hw
  simp [-BitVec.extractLsb'_toNat, -BitVec.getLsbD_eq_getElem, -BitVec.toNat_setWidth, toNat_wide, lt2, lt3, lt4, lt5, decodeList, decodeWords, encode, wordAt, withLen, lenKind, dec0C, chk, hw]
theorem Roundtrip.bfi (a0 a1 a2 a3 a4) : Roundtrip.Statement (.bfi a0 a1 a2 a3 a4) := by
  intro hw _
  simp only [Instr.wf, Bool.and_eq_true, Bool.or_eq_true, Bool.not_eq_true', decide_eq_true_eq, decide_eq_false_iff_not] at hw
  simp [-BitVec.extractLsb'_toNat, -BitVec.getLsbD_eq_getElem, -BitVec.toNat_setWidth, toNat_wide, lt2, lt3, lt4, lt5, decodeList, decodeWords, encode, wordAt, withLen, lenKind, dec0D, chk, hw]
theorem Roundtrip.sextB (a0 a1 a2) : Roundtrip.Statement (.sextB a0 a1 a2) := by
  intro hw _
  simp [decodeList, decodeWords, encode, wordAt, withLen, lenKind, dec0E, chk]
theorem Roundtrip.sextH (a0 a1 a2) : Roundtrip.Statement (.sextH a0 a1 a2) := by
  intro hw _
  simp [decodeList, decodeWords, encode, wordAt, withLen, lenKind, dec0E, chk]
theorem Roundtrip.sextW (a0 a1 a2) : Roundtrip.Statement (.sextW a0 a1 a2) := by
  intro hw _
  simp [decodeList, decodeWords, encode, wordAt, withLen, lenKind, dec0E, chk]
theorem Roundtrip.zextB (a0 a1 a2) : Roundtrip.Statement (.zextB a0 a1 a2) := by
  intro hw _
  simp [decodeList, decodeWords, encode, wordAt, withLen, lenKind, dec0E, chk]
theorem Roundtrip.zextH (a0 a1 a2) : Roundtrip.Statement (.zextH a0 a1 a2) := by
  intro hw _
  simp [decodeList, decodeWords, encode, wordAt, withLen, lenKind, dec0E, chk]
theorem Roundtrip.zextW (a0 a1 a2) : Roundtrip.Statement (.zextW a0 a1 a2) := by
  intro hw _
  simp [decodeList, decodeWords, encode, wordAt, withLen, lenKind, dec0E, chk]
theorem Roundtrip.br (a0 a1) : Roundtrip.Statement (.br a0 a1) := by
  intro hw _
  simp [decodeList, decodeWords, encode, wordAt, withLen, lenKind, dec10, chk]
theorem Roundtrip.beqz (a0 a1 a2) : Roundtrip.Statement (.beqz a0 a1 a2) := by
  intro hw _
  simp [decodeList, decodeWords, encode, wordAt, withLen, lenKind, dec10, chk]
theorem Roundtrip.bnez (a0 a1 a2) : Roundtrip.Statement (.bnez a0 a1 a2) := by
  intro hw _
  simp [decodeList, decodeWords, encode, wordAt, withLen, lenKind, dec10, chk]
theorem Roundtrip.bltz (a0 a1 a2) : Roundtrip.Statement (.bltz a0 a1 a2) := by
  intro hw _
  simp [decodeList, decodeWords, encode, wordAt, withLen, lenKind, dec10, chk]
theorem Roundtrip.bgez (a0 a1 a2) : Roundtrip.Statement (.bgez a0 a1 a2) := by
  intro hw _
  simp [decodeList, decodeWords, encode, wordAt, withLen, lenKind, dec10, chk]
theorem Roundtrip.bgtz (a0 a1 a2) : Roundtrip.Statement (.bgtz a0 a1 a2) := by
  intro hw _
  simp [decodeList, decodeWords, encode, wordAt, withLen, lenKind, dec10, chk]
theorem Roundtrip.blez (a0 a1 a2) : Roundtrip.Statement (.blez a0 a1 a2) := by
  intro hw _
  simp [decodeList, decodeWords, encode, wordAt, withLen, lenKind, dec10, chk]
theorem Roundtrip.bpany (a0 a1 a2) : Roundtrip.Statement (.bpany a0 a1 a2) := by
  intro hw _
  simp only [Instr.wf, Bool.and_eq_true, Bool.or_eq_true, Bool.not_eq_true', decide_eq_true_eq, decide_eq_false_iff_not] at hw
  simp [-BitVec.extractLsb'_toNat, -BitVec.getLsbD_eq_getElem, -BitVec.toNat_setWidth, toNat_wide, lt2, lt3, lt4, lt5, decodeList, decodeWords, encode, wordAt, withLen, lenKind, dec11, chk, hw]
theorem Roundtrip.bpnone (a0 a1 a2) : Roundtrip.Statement (.bpnone a0 a1 a2) := by
  intro hw _
  simp only [Instr.wf, Bool.and_eq_true, Bool.or_eq_true, Bool.not_eq_true', decide_eq_true_eq, decide_eq_false_iff_not] at hw
  simp [-BitVec.extractLsb'_toNat, -BitVec.getLsbD_eq_getElem, -BitVec.toNat_setWidth, toNat_wide, lt2, lt3, lt4, lt5, decodeList, decodeWords, encode, wordAt, withLen, lenKind, dec11, chk, hw]
theorem Roundtrip.bcmp (a0 a1 a2 a3 a4) : Roundtrip.Statement (.bcmp a0 a1 a2 a3 a4) := by
  intro hw _
  simp only [Instr.wf, Bool.and_eq_true, Bool.or_eq_true, Bool.not_eq_true', decide_eq_true_eq, decide_eq_false_iff_not] at hw
  simp [-BitVec.extractLsb'_toNat, -BitVec.getLsbD_eq_getElem, -BitVec.toNat_setWidth, toNat_wide, lt2, lt3, lt4, lt5, decodeList, decodeWords, encode, wordAt, withLen, lenKind, dec12, chk, hw]
theorem Roundtrip.call (a0 a1) : Roundtrip.Statement (.call a0 a1) := by
  intro hw _
  simp [decodeList, decodeWords, encode, wordAt, withLen, lenKind, dec13, chk]
theorem Roundtrip.jr (a0 a1) : Roundtrip.Statement (.jr a0 a1) := by
  intro hw _
  simp [decodeList, decodeWords, encode, wordAt, withLen, lenKind, dec14, chk]
theorem Roundtrip.ret (a0) : Roundtrip.Statement (.ret a0) := by
  intro hw _
  simp [decodeList, decodeWords, encode, wordAt, withLen, lenKind, dec14, chk]
theorem Roundtrip.callr (a0 a1) : Roundtrip.Statement (.callr a0 a1) := by
  intro hw _
  simp [decodeList, decodeWords, encode, wordAt, withLen, lenKind, dec14, chk]
theorem Roundtrip.jtab (a0 a1 a2 a3) : Roundtrip.Statement (.jtab a0 a1 a2 a3) := by
  intro hw _
  simp [decodeList, decodeWords, encode, wordAt, withLen, lenKind, dec15, chk]
theorem Roundtrip.trap (a0 a1) : Roundtrip.Statement (.trap a0 a1) := by
  intro hw _
  simp [decodeList, decodeWords, encode, wordAt, withLen, lenKind, dec18, chk]
theorem Roundtrip.eret (a0) : Roundtrip.Statement (.eret a0) := by
  intro hw _
  simp [decodeList, decodeWords, encode, wordAt, withLen, lenKind, dec18, chk]
theorem Roundtrip.csrr (a0 a1 a2) : Roundtrip.Statement (.csrr a0 a1 a2) := by
  intro hw _
  simp only [Instr.wf, Bool.and_eq_true, Bool.or_eq_true, Bool.not_eq_true', decide_eq_true_eq, decide_eq_false_iff_not] at hw
  simp [-BitVec.extractLsb'_toNat, -BitVec.getLsbD_eq_getElem, -BitVec.toNat_setWidth, toNat_wide, lt2, lt3, lt4, lt5, decodeList, decodeWords, encode, wordAt, withLen, lenKind, dec19, chk, hw]
theorem Roundtrip.csrw (a0 a1 a2) : Roundtrip.Statement (.csrw a0 a1 a2) := by
  intro hw _
  simp only [Instr.wf, Bool.and_eq_true, Bool.or_eq_true, Bool.not_eq_true', decide_eq_true_eq, decide_eq_false_iff_not] at hw
  simp [-BitVec.extractLsb'_toNat, -BitVec.getLsbD_eq_getElem, -BitVec.toNat_setWidth, toNat_wide, lt2, lt3, lt4, lt5, decodeList, decodeWords, encode, wordAt, withLen, lenKind, dec19, chk, hw]
theorem Roundtrip.csrx (a0 a1 a2 a3) : Roundtrip.Statement (.csrx a0 a1 a2 a3) := by
  intro hw _
  simp only [Instr.wf, Bool.and_eq_true, Bool.or_eq_true, Bool.not_eq_true', decide_eq_true_eq, decide_eq_false_iff_not] at hw
  simp [-BitVec.extractLsb'_toNat, -BitVec.getLsbD_eq_getElem, -BitVec.toNat_setWidth, toNat_wide, lt2, lt3, lt4, lt5, decodeList, decodeWords, encode, wordAt, withLen, lenKind, dec19, chk, hw]
theorem Roundtrip.ld (a0 a1 a2 a3 a4 a5) : Roundtrip.Statement (.ld a0 a1 a2 a3 a4 a5) := by
  intro hw _
  simp only [Instr.wf, Bool.and_eq_true, Bool.or_eq_true, Bool.not_eq_true', decide_eq_true_eq, decide_eq_false_iff_not] at hw
  simp [-BitVec.extractLsb'_toNat, -BitVec.getLsbD_eq_getElem, -BitVec.toNat_setWidth, toNat_wide, lt2, lt3, lt4, lt5, decodeList, decodeWords, encode, wordAt, withLen, lenKind, dec20, chk, hw]
theorem Roundtrip.ldLit (a0 a1 a2 a3 a4 a5) : Roundtrip.Statement (.ldLit a0 a1 a2 a3 a4 a5) := by
  intro hw _
  simp only [Instr.wf, Bool.and_eq_true, Bool.or_eq_true, Bool.not_eq_true', decide_eq_true_eq, decide_eq_false_iff_not] at hw
  simp [-BitVec.extractLsb'_toNat, -BitVec.getLsbD_eq_getElem, -BitVec.toNat_setWidth, toNat_wide, lt2, lt3, lt4, lt5, decodeList, decodeWords, encode, wordAt, withLen, lenKind, dec20, chk, hw]
theorem Roundtrip.ldz (a0 a1 a2 a3 a4 a5) : Roundtrip.Statement (.ldz a0 a1 a2 a3 a4 a5) := by
  intro hw _
  simp only [Instr.wf, Bool.and_eq_true, Bool.or_eq_true, Bool.not_eq_true', decide_eq_true_eq, decide_eq_false_iff_not] at hw
  simp [-BitVec.extractLsb'_toNat, -BitVec.getLsbD_eq_getElem, -BitVec.toNat_setWidth, toNat_wide, lt2, lt3, lt4, lt5, decodeList, decodeWords, encode, wordAt, withLen, lenKind, dec21, chk, hw]
theorem Roundtrip.ldzLit (a0 a1 a2 a3 a4 a5) : Roundtrip.Statement (.ldzLit a0 a1 a2 a3 a4 a5) := by
  intro hw _
  simp only [Instr.wf, Bool.and_eq_true, Bool.or_eq_true, Bool.not_eq_true', decide_eq_true_eq, decide_eq_false_iff_not] at hw
  simp [-BitVec.extractLsb'_toNat, -BitVec.getLsbD_eq_getElem, -BitVec.toNat_setWidth, toNat_wide, lt2, lt3, lt4, lt5, decodeList, decodeWords, encode, wordAt, withLen, lenKind, dec21, chk, hw]
theorem Roundtrip.st (a0 a1 a2 a3 a4 a5) : Roundtrip.Statement (.st a0 a1 a2 a3 a4 a5) := by
  intro hw _
  simp only [Instr.wf, Bool.and_eq_true, Bool.or_eq_true, Bool.not_eq_true', decide_eq_true_eq, decide_eq_false_iff_not] at hw
  simp [-BitVec.extractLsb'_toNat, -BitVec.getLsbD_eq_getElem, -BitVec.toNat_setWidth, toNat_wide, lt2, lt3, lt4, lt5, decodeList, decodeWords, encode, wordAt, withLen, lenKind, dec22, chk, hw]
theorem Roundtrip.stLit (a0 a1 a2 a3 a4 a5) : Roundtrip.Statement (.stLit a0 a1 a2 a3 a4 a5) := by
  intro hw _
  simp only [Instr.wf, Bool.and_eq_true, Bool.or_eq_true, Bool.not_eq_true', decide_eq_true_eq, decide_eq_false_iff_not] at hw
  simp [-BitVec.extractLsb'_toNat, -BitVec.getLsbD_eq_getElem, -BitVec.toNat_setWidth, toNat_wide, lt2, lt3, lt4, lt5, decodeList, decodeWords, encode, wordAt, withLen, lenKind, dec22, chk, hw]
theorem Roundtrip.pref (a0 a1 a2 a3) : Roundtrip.Statement (.pref a0 a1 a2 a3) := by
  intro hw _
  simp [decodeList, decodeWords, encode, wordAt, withLen, lenKind, dec23, chk]
theorem Roundtrip.prefLit (a0 a1 a2 a3) : Roundtrip.Statement (.prefLit a0 a1 a2 a3) := by
  intro hw _
  simp only [Instr.wf, Bool.and_eq_true, Bool.or_eq_true, Bool.not_eq_true', decide_eq_true_eq, decide_eq_false_iff_not] at hw
  simp [-BitVec.extractLsb'_toNat, -BitVec.getLsbD_eq_getElem, -BitVec.toNat_setWidth, toNat_wide, lt2, lt3, lt4, lt5, decodeList, decodeWords, encode, wordAt, withLen, lenKind, dec23, chk, hw]
theorem Roundtrip.amoadd (a0 a1 a2 a3 a4 a5 a6 a7) : Roundtrip.Statement (.amoadd a0 a1 a2 a3 a4 a5 a6 a7) := by
  intro hw _
  simp only [Instr.wf, Bool.and_eq_true, Bool.or_eq_true, Bool.not_eq_true', decide_eq_true_eq, decide_eq_false_iff_not] at hw
  simp [-BitVec.extractLsb'_toNat, -BitVec.getLsbD_eq_getElem, -BitVec.toNat_setWidth, toNat_wide, lt2, lt3, lt4, lt5, decodeList, decodeWords, encode, wordAt, withLen, lenKind, dec28, chk, hw]
  grind
theorem Roundtrip.amoand (a0 a1 a2 a3 a4 a5 a6 a7) : Roundtrip.Statement (.amoand a0 a1 a2 a3 a4 a5 a6 a7) := by
  intro hw _
  simp only [Instr.wf, Bool.and_eq_true, Bool.or_eq_true, Bool.not_eq_true', decide_eq_true_eq, decide_eq_false_iff_not] at hw
  simp [-BitVec.extractLsb'_toNat, -BitVec.getLsbD_eq_getElem, -BitVec.toNat_setWidth, toNat_wide, lt2, lt3, lt4, lt5, decodeList, decodeWords, encode, wordAt, withLen, lenKind, dec28, chk, hw]
  grind
theorem Roundtrip.amoor (a0 a1 a2 a3 a4 a5 a6 a7) : Roundtrip.Statement (.amoor a0 a1 a2 a3 a4 a5 a6 a7) := by
  intro hw _
  simp only [Instr.wf, Bool.and_eq_true, Bool.or_eq_true, Bool.not_eq_true', decide_eq_true_eq, decide_eq_false_iff_not] at hw
  simp [-BitVec.extractLsb'_toNat, -BitVec.getLsbD_eq_getElem, -BitVec.toNat_setWidth, toNat_wide, lt2, lt3, lt4, lt5, decodeList, decodeWords, encode, wordAt, withLen, lenKind, dec28, chk, hw]
  grind
theorem Roundtrip.amoxor (a0 a1 a2 a3 a4 a5 a6 a7) : Roundtrip.Statement (.amoxor a0 a1 a2 a3 a4 a5 a6 a7) := by
  intro hw _
  simp only [Instr.wf, Bool.and_eq_true, Bool.or_eq_true, Bool.not_eq_true', decide_eq_true_eq, decide_eq_false_iff_not] at hw
  simp [-BitVec.extractLsb'_toNat, -BitVec.getLsbD_eq_getElem, -BitVec.toNat_setWidth, toNat_wide, lt2, lt3, lt4, lt5, decodeList, decodeWords, encode, wordAt, withLen, lenKind, dec28, chk, hw]
  grind
theorem Roundtrip.amomin (a0 a1 a2 a3 a4 a5 a6 a7) : Roundtrip.Statement (.amomin a0 a1 a2 a3 a4 a5 a6 a7) := by
  intro hw _
  simp only [Instr.wf, Bool.and_eq_true, Bool.or_eq_true, Bool.not_eq_true', decide_eq_true_eq, decide_eq_false_iff_not] at hw
  simp [-BitVec.extractLsb'_toNat, -BitVec.getLsbD_eq_getElem, -BitVec.toNat_setWidth, toNat_wide, lt2, lt3, lt4, lt5, decodeList, decodeWords, encode, wordAt, withLen, lenKind, dec28, chk, hw]
  grind
theorem Roundtrip.amomax (a0 a1 a2 a3 a4 a5 a6 a7) : Roundtrip.Statement (.amomax a0 a1 a2 a3 a4 a5 a6 a7) := by
  intro hw _
  simp only [Instr.wf, Bool.and_eq_true, Bool.or_eq_true, Bool.not_eq_true', decide_eq_true_eq, decide_eq_false_iff_not] at hw
  simp [-BitVec.extractLsb'_toNat, -BitVec.getLsbD_eq_getElem, -BitVec.toNat_setWidth, toNat_wide, lt2, lt3, lt4, lt5, decodeList, decodeWords, encode, wordAt, withLen, lenKind, dec28, chk, hw]
  grind
theorem Roundtrip.amominn (a0 a1 a2 a3 a4 a5 a6 a7) : Roundtrip.Statement (.amominn a0 a1 a2 a3 a4 a5 a6 a7) := by
  intro hw _
  simp only [Instr.wf, Bool.and_eq_true, Bool.or_eq_true, Bool.not_eq_true', decide_eq_true_eq, decide_eq_false_iff_not] at hw
  simp [-BitVec.extractLsb'_toNat, -BitVec.getLsbD_eq_getElem, -BitVec.toNat_setWidth, toNat_wide, lt2, lt3, lt4, lt5, decodeList, decodeWords, encode, wordAt, withLen, lenKind, dec28, chk, hw]
  grind
theorem Roundtrip.amomaxn (a0 a1 a2 a3 a4 a5 a6 a7) : Roundtrip.Statement (.amomaxn a0 a1 a2 a3 a4 a5 a6 a7) := by
  intro hw _
  simp only [Instr.wf, Bool.and_eq_true, Bool.or_eq_true, Bool.not_eq_true', decide_eq_true_eq, decide_eq_false_iff_not] at hw
  simp [-BitVec.extractLsb'_toNat, -BitVec.getLsbD_eq_getElem, -BitVec.toNat_setWidth, toNat_wide, lt2, lt3, lt4, lt5, decodeList, decodeWords, encode, wordAt, withLen, lenKind, dec28, chk, hw]
  grind
theorem Roundtrip.amoswp (a0 a1 a2 a3 a4 a5 a6 a7) : Roundtrip.Statement (.amoswp a0 a1 a2 a3 a4 a5 a6 a7) := by
  intro hw _
  simp only [Instr.wf, Bool.and_eq_true, Bool.or_eq_true, Bool.not_eq_true', decide_eq_true_eq, decide_eq_false_iff_not] at hw
  simp [-BitVec.extractLsb'_toNat, -BitVec.getLsbD_eq_getElem, -BitVec.toNat_setWidth, toNat_wide, lt2, lt3, lt4, lt5, decodeList, decodeWords, encode, wordAt, withLen, lenKind, dec28, chk, hw]
  grind
theorem Roundtrip.amocas (a0 a1 a2 a3 a4 a5 a6 a7 a8) : Roundtrip.Statement (.amocas a0 a1 a2 a3 a4 a5 a6 a7 a8) := by
  intro hw _
  simp only [Instr.wf, Bool.and_eq_true, Bool.or_eq_true, Bool.not_eq_true', decide_eq_true_eq, decide_eq_false_iff_not] at hw
  simp [-BitVec.extractLsb'_toNat, -BitVec.getLsbD_eq_getElem, -BitVec.toNat_setWidth, toNat_wide, lt2, lt3, lt4, lt5, decodeList, decodeWords, encode, wordAt, withLen, lenKind, dec28, chk, hw]
  grind
theorem Roundtrip.amofadd (a0 a1 a2 a3 a4 a5 a6 a7 a8) : Roundtrip.Statement (.amofadd a0 a1 a2 a3 a4 a5 a6 a7 a8) := by
  intro hw _
  simp only [Instr.wf, Bool.and_eq_true, Bool.or_eq_true, Bool.not_eq_true', decide_eq_true_eq, decide_eq_false_iff_not] at hw
  simp [-BitVec.extractLsb'_toNat, -BitVec.getLsbD_eq_getElem, -BitVec.toNat_setWidth, toNat_wide, lt2, lt3, lt4, lt5, decodeList, decodeWords, encode, wordAt, withLen, lenKind, dec28, chk, hw]
  obtain ⟨⟨_, h1⟩, h2⟩ := hw
  rcases h1 with ⟨rfl, rfl⟩ | ⟨rfl | rfl, rfl⟩ <;> rcases h2 with h2 | h2 <;> simp [h2]
theorem Roundtrip.fence (a0 a1 a2) : Roundtrip.Statement (.fence a0 a1 a2) := by
  intro hw _
  simp only [Instr.wf, Bool.and_eq_true, Bool.or_eq_true, Bool.not_eq_true', decide_eq_true_eq, decide_eq_false_iff_not] at hw
  simp [-BitVec.extractLsb'_toNat, -BitVec.getLsbD_eq_getElem, -BitVec.toNat_setWidth, toNat_wide, lt2, lt3, lt4, lt5, decodeList, decodeWords, encode, wordAt, withLen, lenKind, dec29, chk, hw]
  omega
theorem Roundtrip.waita (a0 a1 a2 a3 a4 a5 a6 a7 a8 a9 a10) : Roundtrip.Statement (.waita a0 a1 a2 a3 a4 a5 a6 a7 a8 a9 a10) := by
  intro hw _
  simp only [Instr.wf, Bool.and_eq_true, Bool.or_eq_true, Bool.not_eq_true', decide_eq_true_eq, decide_eq_false_iff_not] at hw
  simp [-BitVec.extractLsb'_toNat, -BitVec.getLsbD_eq_getElem, -BitVec.toNat_setWidth, toNat_wide, lt2, lt3, lt4, lt5, decodeList, decodeWords, encode, wordAt, withLen, lenKind, dec2A, chk, hw]
  grind
theorem Roundtrip.waitaLit (a0 a1 a2 a3 a4 a5 a6 a7 a8 a9 a10) : Roundtrip.Statement (.waitaLit a0 a1 a2 a3 a4 a5 a6 a7 a8 a9 a10) := by
  intro hw _
  simp only [Instr.wf, Bool.and_eq_true, Bool.or_eq_true, Bool.not_eq_true', decide_eq_true_eq, decide_eq_false_iff_not] at hw
  simp [-BitVec.extractLsb'_toNat, -BitVec.getLsbD_eq_getElem, -BitVec.toNat_setWidth, toNat_wide, lt2, lt3, lt4, lt5, decodeList, decodeWords, encode, wordAt, withLen, lenKind, dec2A, chk, hw]
  grind
theorem Roundtrip.bar (a0 a1) : Roundtrip.Statement (.bar a0 a1) := by
  intro hw _
  simp [decodeList, decodeWords, encode, wordAt, withLen, lenKind, dec2B, chk]
theorem Roundtrip.bararv (a0 a1) : Roundtrip.Statement (.bararv a0 a1) := by
  intro hw _
  simp [decodeList, decodeWords, encode, wordAt, withLen, lenKind, dec2B, chk]
theorem Roundtrip.barwt (a0 a1 a2 a3) : Roundtrip.Statement (.barwt a0 a1 a2 a3) := by
  intro hw _
  simp [decodeList, decodeWords, encode, wordAt, withLen, lenKind, dec2B, chk]
theorem Roundtrip.vld (a0 a1 a2 a3 a4 a5) : Roundtrip.Statement (.vld a0 a1 a2 a3 a4 a5) := by
  intro hw _
  simp only [Instr.wf, Bool.and_eq_true, Bool.or_eq_true, Bool.not_eq_true', decide_eq_true_eq, decide_eq_false_iff_not] at hw
  simp [-BitVec.extractLsb'_toNat, -BitVec.getLsbD_eq_getElem, -BitVec.toNat_setWidth, toNat_wide, lt2, lt3, lt4, lt5, decodeList, decodeWords, encode, wordAt, withLen, lenKind, dec30, chk, hw]
theorem Roundtrip.vst (a0 a1 a2 a3 a4) : Roundtrip.Statement (.vst a0 a1 a2 a3 a4) := by
  intro hw _
  simp only [Instr.wf, Bool.and_eq_true, Bool.or_eq_true, Bool.not_eq_true', decide_eq_true_eq, decide_eq_false_iff_not] at hw
  simp [-BitVec.extractLsb'_toNat, -BitVec.getLsbD_eq_getElem, -BitVec.toNat_setWidth, toNat_wide, lt2, lt3, lt4, lt5, decodeList, decodeWords, encode, wordAt, withLen, lenKind, dec30, chk, hw]
theorem Roundtrip.vadd (a0 a1 a2 a3 a4) : Roundtrip.Statement (.vadd a0 a1 a2 a3 a4) := by
  intro hw _
  simp [decodeList, decodeWords, encode, wordAt, withLen, lenKind, dec31, chk]
theorem Roundtrip.vsub (a0 a1 a2 a3 a4) : Roundtrip.Statement (.vsub a0 a1 a2 a3 a4) := by
  intro hw _
  simp [decodeList, decodeWords, encode, wordAt, withLen, lenKind, dec31, chk]
theorem Roundtrip.vmul (a0 a1 a2 a3 a4) : Roundtrip.Statement (.vmul a0 a1 a2 a3 a4) := by
  intro hw _
  simp [decodeList, decodeWords, encode, wordAt, withLen, lenKind, dec31, chk]
theorem Roundtrip.vmax (a0 a1 a2 a3 a4) : Roundtrip.Statement (.vmax a0 a1 a2 a3 a4) := by
  intro hw _
  simp [decodeList, decodeWords, encode, wordAt, withLen, lenKind, dec31, chk]
theorem Roundtrip.vmin (a0 a1 a2 a3 a4) : Roundtrip.Statement (.vmin a0 a1 a2 a3 a4) := by
  intro hw _
  simp [decodeList, decodeWords, encode, wordAt, withLen, lenKind, dec31, chk]
theorem Roundtrip.vabs (a0 a1 a2 a3) : Roundtrip.Statement (.vabs a0 a1 a2 a3) := by
  intro hw _
  simp [decodeList, decodeWords, encode, wordAt, withLen, lenKind, dec31, chk]
theorem Roundtrip.vneg (a0 a1 a2 a3) : Roundtrip.Statement (.vneg a0 a1 a2 a3) := by
  intro hw _
  simp [decodeList, decodeWords, encode, wordAt, withLen, lenKind, dec31, chk]
theorem Roundtrip.vfma (a0 a1 a2 a3 a4) : Roundtrip.Statement (.vfma a0 a1 a2 a3 a4) := by
  intro hw _
  simp [decodeList, decodeWords, encode, wordAt, withLen, lenKind, dec31, chk]
theorem Roundtrip.vfms (a0 a1 a2 a3 a4) : Roundtrip.Statement (.vfms a0 a1 a2 a3 a4) := by
  intro hw _
  simp [decodeList, decodeWords, encode, wordAt, withLen, lenKind, dec31, chk]
theorem Roundtrip.viadd (a0 a1 a2 a3 a4) : Roundtrip.Statement (.viadd a0 a1 a2 a3 a4) := by
  intro hw _
  simp [decodeList, decodeWords, encode, wordAt, withLen, lenKind, dec32, chk]
theorem Roundtrip.visub (a0 a1 a2 a3 a4) : Roundtrip.Statement (.visub a0 a1 a2 a3 a4) := by
  intro hw _
  simp [decodeList, decodeWords, encode, wordAt, withLen, lenKind, dec32, chk]
theorem Roundtrip.vimul (a0 a1 a2 a3 a4) : Roundtrip.Statement (.vimul a0 a1 a2 a3 a4) := by
  intro hw _
  simp [decodeList, decodeWords, encode, wordAt, withLen, lenKind, dec32, chk]
theorem Roundtrip.vand (a0 a1 a2 a3 a4) : Roundtrip.Statement (.vand a0 a1 a2 a3 a4) := by
  intro hw _
  simp [decodeList, decodeWords, encode, wordAt, withLen, lenKind, dec32, chk]
theorem Roundtrip.vor (a0 a1 a2 a3 a4) : Roundtrip.Statement (.vor a0 a1 a2 a3 a4) := by
  intro hw _
  simp [decodeList, decodeWords, encode, wordAt, withLen, lenKind, dec32, chk]
theorem Roundtrip.vxor (a0 a1 a2 a3 a4) : Roundtrip.Statement (.vxor a0 a1 a2 a3 a4) := by
  intro hw _
  simp [decodeList, decodeWords, encode, wordAt, withLen, lenKind, dec32, chk]
theorem Roundtrip.vshl (a0 a1 a2 a3 a4) : Roundtrip.Statement (.vshl a0 a1 a2 a3 a4) := by
  intro hw _
  simp [decodeList, decodeWords, encode, wordAt, withLen, lenKind, dec32, chk]
theorem Roundtrip.vshr (a0 a1 a2 a3 a4) : Roundtrip.Statement (.vshr a0 a1 a2 a3 a4) := by
  intro hw _
  simp [decodeList, decodeWords, encode, wordAt, withLen, lenKind, dec32, chk]
theorem Roundtrip.vcmp (a0 a1 a2 a3 a4 a5) : Roundtrip.Statement (.vcmp a0 a1 a2 a3 a4 a5) := by
  intro hw _
  simp only [Instr.wf, Bool.and_eq_true, Bool.or_eq_true, Bool.not_eq_true', decide_eq_true_eq, decide_eq_false_iff_not] at hw
  simp [-BitVec.extractLsb'_toNat, -BitVec.getLsbD_eq_getElem, -BitVec.toNat_setWidth, toNat_wide, lt2, lt3, lt4, lt5, decodeList, decodeWords, encode, wordAt, withLen, lenKind, dec33, chk, hw]
  rintro rfl
  simp at hw
theorem Roundtrip.vsel (a0 a1 a2 a3 a4) : Roundtrip.Statement (.vsel a0 a1 a2 a3 a4) := by
  intro hw _
  simp [decodeList, decodeWords, encode, wordAt, withLen, lenKind, dec33, chk]
theorem Roundtrip.vcvt (a0 a1 a2 a3 a4 a5 a6 a7) : Roundtrip.Statement (.vcvt a0 a1 a2 a3 a4 a5 a6 a7) := by
  intro hw _
  simp only [Instr.wf, Bool.and_eq_true, Bool.or_eq_true, Bool.not_eq_true', decide_eq_true_eq, decide_eq_false_iff_not] at hw
  simp [-BitVec.extractLsb'_toNat, -BitVec.getLsbD_eq_getElem, -BitVec.toNat_setWidth, toNat_wide, lt2, lt3, lt4, lt5, decodeList, decodeWords, encode, wordAt, withLen, lenKind, dec34, chk, hw]
theorem Roundtrip.vqnt (a0 a1 a2 a3 a4 a5 a6 a7) : Roundtrip.Statement (.vqnt a0 a1 a2 a3 a4 a5 a6 a7) := by
  intro hw _
  simp only [Instr.wf, Bool.and_eq_true, Bool.or_eq_true, Bool.not_eq_true', decide_eq_true_eq, decide_eq_false_iff_not] at hw
  simp [-BitVec.extractLsb'_toNat, -BitVec.getLsbD_eq_getElem, -BitVec.toNat_setWidth, toNat_wide, lt2, lt3, lt4, lt5, decodeList, decodeWords, encode, wordAt, withLen, lenKind, dec34, chk, hw]
theorem Roundtrip.vdqnt (a0 a1 a2 a3 a4 a5 a6 a7 a8) : Roundtrip.Statement (.vdqnt a0 a1 a2 a3 a4 a5 a6 a7 a8) := by
  intro hw _
  simp only [Instr.wf, Bool.and_eq_true, Bool.or_eq_true, Bool.not_eq_true', decide_eq_true_eq, decide_eq_false_iff_not] at hw
  simp [-BitVec.extractLsb'_toNat, -BitVec.getLsbD_eq_getElem, -BitVec.toNat_setWidth, toNat_wide, lt2, lt3, lt4, lt5, decodeList, decodeWords, encode, wordAt, withLen, lenKind, dec34, chk, hw]
theorem Roundtrip.vexp2 (a0 a1 a2 a3) : Roundtrip.Statement (.vexp2 a0 a1 a2 a3) := by
  intro hw _
  simp [decodeList, decodeWords, encode, wordAt, withLen, lenKind, dec35, chk]
theorem Roundtrip.vlog2 (a0 a1 a2 a3) : Roundtrip.Statement (.vlog2 a0 a1 a2 a3) := by
  intro hw _
  simp [decodeList, decodeWords, encode, wordAt, withLen, lenKind, dec35, chk]
theorem Roundtrip.vrcp (a0 a1 a2 a3) : Roundtrip.Statement (.vrcp a0 a1 a2 a3) := by
  intro hw _
  simp [decodeList, decodeWords, encode, wordAt, withLen, lenKind, dec35, chk]
theorem Roundtrip.vrsq (a0 a1 a2 a3) : Roundtrip.Statement (.vrsq a0 a1 a2 a3) := by
  intro hw _
  simp [decodeList, decodeWords, encode, wordAt, withLen, lenKind, dec35, chk]
theorem Roundtrip.vtanh (a0 a1 a2 a3) : Roundtrip.Statement (.vtanh a0 a1 a2 a3) := by
  intro hw _
  simp [decodeList, decodeWords, encode, wordAt, withLen, lenKind, dec35, chk]
theorem Roundtrip.vred (a0 a1 a2 a3 a4) : Roundtrip.Statement (.vred a0 a1 a2 a3 a4) := by
  intro hw _
  simp only [Instr.wf, Bool.and_eq_true, Bool.or_eq_true, Bool.not_eq_true', decide_eq_true_eq, decide_eq_false_iff_not] at hw
  simp [-BitVec.extractLsb'_toNat, -BitVec.getLsbD_eq_getElem, -BitVec.toNat_setWidth, toNat_wide, lt2, lt3, lt4, lt5, decodeList, decodeWords, encode, wordAt, withLen, lenKind, dec36, chk, hw]
theorem Roundtrip.vsmxStep (a0 a1 a2 a3 a4) : Roundtrip.Statement (.vsmxStep a0 a1 a2 a3 a4) := by
  intro hw _
  simp only [Instr.wf, Bool.and_eq_true, Bool.or_eq_true, Bool.not_eq_true', decide_eq_true_eq, decide_eq_false_iff_not] at hw
  simp [-BitVec.extractLsb'_toNat, -BitVec.getLsbD_eq_getElem, -BitVec.toNat_setWidth, toNat_wide, lt2, lt3, lt4, lt5, decodeList, decodeWords, encode, wordAt, withLen, lenKind, dec36, chk, hw]
theorem Roundtrip.vsmxMerge (a0 a1 a2 a3) : Roundtrip.Statement (.vsmxMerge a0 a1 a2 a3) := by
  intro hw _
  simp only [Instr.wf, Bool.and_eq_true, Bool.or_eq_true, Bool.not_eq_true', decide_eq_true_eq, decide_eq_false_iff_not] at hw
  simp [-BitVec.extractLsb'_toNat, -BitVec.getLsbD_eq_getElem, -BitVec.toNat_setWidth, toNat_wide, lt2, lt3, lt4, lt5, decodeList, decodeWords, encode, wordAt, withLen, lenKind, dec36, chk, hw]
theorem Roundtrip.vsmxFinal (a0 a1 a2) : Roundtrip.Statement (.vsmxFinal a0 a1 a2) := by
  intro hw _
  simp only [Instr.wf, Bool.and_eq_true, Bool.or_eq_true, Bool.not_eq_true', decide_eq_true_eq, decide_eq_false_iff_not] at hw
  simp [-BitVec.extractLsb'_toNat, -BitVec.getLsbD_eq_getElem, -BitVec.toNat_setWidth, toNat_wide, lt2, lt3, lt4, lt5, decodeList, decodeWords, encode, wordAt, withLen, lenKind, dec36, chk, hw]
theorem Roundtrip.vsmxInit (a0 a1) : Roundtrip.Statement (.vsmxInit a0 a1) := by
  intro hw _
  simp only [Instr.wf, Bool.and_eq_true, Bool.or_eq_true, Bool.not_eq_true', decide_eq_true_eq, decide_eq_false_iff_not] at hw
  simp [-BitVec.extractLsb'_toNat, -BitVec.getLsbD_eq_getElem, -BitVec.toNat_setWidth, toNat_wide, lt2, lt3, lt4, lt5, decodeList, decodeWords, encode, wordAt, withLen, lenKind, dec36, chk, hw]
theorem Roundtrip.vrand (a0 a1 a2 a3) : Roundtrip.Statement (.vrand a0 a1 a2 a3) := by
  intro hw _
  simp only [Instr.wf, Bool.and_eq_true, Bool.or_eq_true, Bool.not_eq_true', decide_eq_true_eq, decide_eq_false_iff_not] at hw
  simp [-BitVec.extractLsb'_toNat, -BitVec.getLsbD_eq_getElem, -BitVec.toNat_setWidth, toNat_wide, lt2, lt3, lt4, lt5, decodeList, decodeWords, encode, wordAt, withLen, lenKind, dec37, chk, hw]
theorem Roundtrip.vdrop (a0 a1 a2 a3 a4 a5 a6) : Roundtrip.Statement (.vdrop a0 a1 a2 a3 a4 a5 a6) := by
  intro hw _
  simp only [Instr.wf, Bool.and_eq_true, Bool.or_eq_true, Bool.not_eq_true', decide_eq_true_eq, decide_eq_false_iff_not] at hw
  simp [-BitVec.extractLsb'_toNat, -BitVec.getLsbD_eq_getElem, -BitVec.toNat_setWidth, toNat_wide, lt2, lt3, lt4, lt5, decodeList, decodeWords, encode, wordAt, withLen, lenKind, dec37, chk, hw]
theorem Roundtrip.vperm (a0 a1 a2 a3 a4) : Roundtrip.Statement (.vperm a0 a1 a2 a3 a4) := by
  intro hw _
  simp only [Instr.wf, Bool.and_eq_true, Bool.or_eq_true, Bool.not_eq_true', decide_eq_true_eq, decide_eq_false_iff_not] at hw
  simp [-BitVec.extractLsb'_toNat, -BitVec.getLsbD_eq_getElem, -BitVec.toNat_setWidth, toNat_wide, lt2, lt3, lt4, lt5, decodeList, decodeWords, encode, wordAt, withLen, lenKind, dec38, chk, hw]
theorem Roundtrip.vbcast (a0 a1 a2 a3 a4) : Roundtrip.Statement (.vbcast a0 a1 a2 a3 a4) := by
  intro hw _
  simp only [Instr.wf, Bool.and_eq_true, Bool.or_eq_true, Bool.not_eq_true', decide_eq_true_eq, decide_eq_false_iff_not] at hw
  simp [-BitVec.extractLsb'_toNat, -BitVec.getLsbD_eq_getElem, -BitVec.toNat_setWidth, toNat_wide, lt2, lt3, lt4, lt5, decodeList, decodeWords, encode, wordAt, withLen, lenKind, dec38, chk, hw]
theorem Roundtrip.vbcastLit (a0 a1 a2 a3 a4) : Roundtrip.Statement (.vbcastLit a0 a1 a2 a3 a4) := by
  intro hw _
  simp only [Instr.wf, Bool.and_eq_true, Bool.or_eq_true, Bool.not_eq_true', decide_eq_true_eq, decide_eq_false_iff_not] at hw
  simp [-BitVec.extractLsb'_toNat, -BitVec.getLsbD_eq_getElem, -BitVec.toNat_setWidth, toNat_wide, lt2, lt3, lt4, lt5, decodeList, decodeWords, encode, wordAt, withLen, lenKind, dec38, chk, hw]
theorem Roundtrip.vmovx (a0 a1 a2 a3) : Roundtrip.Statement (.vmovx a0 a1 a2 a3) := by
  intro hw _
  simp only [Instr.wf, Bool.and_eq_true, Bool.or_eq_true, Bool.not_eq_true', decide_eq_true_eq, decide_eq_false_iff_not] at hw
  simp [-BitVec.extractLsb'_toNat, -BitVec.getLsbD_eq_getElem, -BitVec.toNat_setWidth, toNat_wide, lt2, lt3, lt4, lt5, decodeList, decodeWords, encode, wordAt, withLen, lenKind, dec38, chk, hw]
theorem Roundtrip.vmovv (a0 a1 a2 a3) : Roundtrip.Statement (.vmovv a0 a1 a2 a3) := by
  intro hw _
  simp only [Instr.wf, Bool.and_eq_true, Bool.or_eq_true, Bool.not_eq_true', decide_eq_true_eq, decide_eq_false_iff_not] at hw
  simp [-BitVec.extractLsb'_toNat, -BitVec.getLsbD_eq_getElem, -BitVec.toNat_setWidth, toNat_wide, lt2, lt3, lt4, lt5, decodeList, decodeWords, encode, wordAt, withLen, lenKind, dec38, chk, hw]
theorem Roundtrip.fmtget (a0 a1 a2 a3) : Roundtrip.Statement (.fmtget a0 a1 a2 a3) := by
  intro hw _
  simp only [Instr.wf, Bool.and_eq_true, Bool.or_eq_true, Bool.not_eq_true', decide_eq_true_eq, decide_eq_false_iff_not] at hw
  simp [-BitVec.extractLsb'_toNat, -BitVec.getLsbD_eq_getElem, -BitVec.toNat_setWidth, toNat_wide, lt2, lt3, lt4, lt5, decodeList, decodeWords, encode, wordAt, withLen, lenKind, dec38, chk, hw]
  grind
theorem Roundtrip.fmtset (a0 a1 a2 a3) : Roundtrip.Statement (.fmtset a0 a1 a2 a3) := by
  intro hw _
  simp only [Instr.wf, Bool.and_eq_true, Bool.or_eq_true, Bool.not_eq_true', decide_eq_true_eq, decide_eq_false_iff_not] at hw
  simp [-BitVec.extractLsb'_toNat, -BitVec.getLsbD_eq_getElem, -BitVec.toNat_setWidth, toNat_wide, lt2, lt3, lt4, lt5, decodeList, decodeWords, encode, wordAt, withLen, lenKind, dec38, chk, hw]
  cases a2 <;> grind
theorem Roundtrip.vloop (a0 a1 a2) : Roundtrip.Statement (.vloop a0 a1 a2) := by
  intro hw _
  simp only [Instr.wf, Bool.and_eq_true, Bool.or_eq_true, Bool.not_eq_true', decide_eq_true_eq, decide_eq_false_iff_not] at hw
  simp [-BitVec.extractLsb'_toNat, -BitVec.getLsbD_eq_getElem, -BitVec.toNat_setWidth, toNat_wide, lt2, lt3, lt4, lt5, decodeList, decodeWords, encode, wordAt, withLen, lenKind, dec39, chk, hw]
theorem Roundtrip.vstrm (a0 a1 a2 a3) : Roundtrip.Statement (.vstrm a0 a1 a2 a3) := by
  intro hw _
  simp only [Instr.wf, Bool.and_eq_true, Bool.or_eq_true, Bool.not_eq_true', decide_eq_true_eq, decide_eq_false_iff_not] at hw
  simp [-BitVec.extractLsb'_toNat, -BitVec.getLsbD_eq_getElem, -BitVec.toNat_setWidth, toNat_wide, lt2, lt3, lt4, lt5, decodeList, decodeWords, encode, wordAt, withLen, lenKind, dec39, chk, hw]
theorem Roundtrip.vstop (a0 a1 a2) : Roundtrip.Statement (.vstop a0 a1 a2) := by
  intro hw _
  simp only [Instr.wf, Bool.and_eq_true, Bool.or_eq_true, Bool.not_eq_true', decide_eq_true_eq, decide_eq_false_iff_not] at hw
  simp [-BitVec.extractLsb'_toNat, -BitVec.getLsbD_eq_getElem, -BitVec.toNat_setWidth, toNat_wide, lt2, lt3, lt4, lt5, decodeList, decodeWords, encode, wordAt, withLen, lenKind, dec39, chk, hw]
theorem Roundtrip.vclz (a0 a1 a2 a3 a4) : Roundtrip.Statement (.vclz a0 a1 a2 a3 a4) := by
  intro hw _
  simp only [Instr.wf, Bool.and_eq_true, Bool.or_eq_true, Bool.not_eq_true', decide_eq_true_eq, decide_eq_false_iff_not] at hw
  simp [-BitVec.extractLsb'_toNat, -BitVec.getLsbD_eq_getElem, -BitVec.toNat_setWidth, toNat_wide, lt2, lt3, lt4, lt5, decodeList, decodeWords, encode, wordAt, withLen, lenKind, dec3A, chk, hw]
theorem Roundtrip.vffs (a0 a1 a2 a3 a4) : Roundtrip.Statement (.vffs a0 a1 a2 a3 a4) := by
  intro hw _
  simp only [Instr.wf, Bool.and_eq_true, Bool.or_eq_true, Bool.not_eq_true', decide_eq_true_eq, decide_eq_false_iff_not] at hw
  simp [-BitVec.extractLsb'_toNat, -BitVec.getLsbD_eq_getElem, -BitVec.toNat_setWidth, toNat_wide, lt2, lt3, lt4, lt5, decodeList, decodeWords, encode, wordAt, withLen, lenKind, dec3A, chk, hw]
theorem Roundtrip.vpopc (a0 a1 a2 a3 a4) : Roundtrip.Statement (.vpopc a0 a1 a2 a3 a4) := by
  intro hw _
  simp only [Instr.wf, Bool.and_eq_true, Bool.or_eq_true, Bool.not_eq_true', decide_eq_true_eq, decide_eq_false_iff_not] at hw
  simp [-BitVec.extractLsb'_toNat, -BitVec.getLsbD_eq_getElem, -BitVec.toNat_setWidth, toNat_wide, lt2, lt3, lt4, lt5, decodeList, decodeWords, encode, wordAt, withLen, lenKind, dec3A, chk, hw]
theorem Roundtrip.mxmul (a0 a1 a2 a3 a4) : Roundtrip.Statement (.mxmul a0 a1 a2 a3 a4) := by
  intro hw _
  simp [decodeList, decodeWords, encode, wordAt, withLen, lenKind, dec40, chk]
theorem Roundtrip.mxspm (a0 a1 a2 a3 a4) : Roundtrip.Statement (.mxspm a0 a1 a2 a3 a4) := by
  intro hw _
  simp [decodeList, decodeWords, encode, wordAt, withLen, lenKind, dec40, chk]
theorem Roundtrip.mxdrn (a0 a1 a2 a3) : Roundtrip.Statement (.mxdrn a0 a1 a2 a3) := by
  intro hw _
  simp [decodeList, decodeWords, encode, wordAt, withLen, lenKind, dec41, chk]
theorem Roundtrip.mxclr (a0 a1 a2) : Roundtrip.Statement (.mxclr a0 a1 a2) := by
  intro hw _
  simp only [Instr.wf, Bool.and_eq_true, Bool.or_eq_true, Bool.not_eq_true', decide_eq_true_eq, decide_eq_false_iff_not] at hw
  simp [-BitVec.extractLsb'_toNat, -BitVec.getLsbD_eq_getElem, -BitVec.toNat_setWidth, toNat_wide, lt2, lt3, lt4, lt5, decodeList, decodeWords, encode, wordAt, withLen, lenKind, dec42, chk, hw]
  cases a2 <;> simp
theorem Roundtrip.mxwait (a0 a1) : Roundtrip.Statement (.mxwait a0 a1) := by
  intro hw _
  simp [decodeList, decodeWords, encode, wordAt, withLen, lenKind, dec42, chk]
theorem Roundtrip.mxstat (a0 a1) : Roundtrip.Statement (.mxstat a0 a1) := by
  intro hw _
  simp [decodeList, decodeWords, encode, wordAt, withLen, lenKind, dec42, chk]
theorem Roundtrip.mxrem (a0 a1 a2 a3 a4 a5) : Roundtrip.Statement (.mxrem a0 a1 a2 a3 a4 a5) := by
  intro hw _
  simp [decodeList, decodeWords, encode, wordAt, withLen, lenKind, dec43, chk]
theorem Roundtrip.cpy (a0 a1 a2 a3 a4) : Roundtrip.Statement (.cpy a0 a1 a2 a3 a4) := by
  intro hw _
  simp [decodeList, decodeWords, encode, wordAt, withLen, lenKind, dec44, chk]
theorem Roundtrip.cpyg (a0 a1 a2 a3 a4) : Roundtrip.Statement (.cpyg a0 a1 a2 a3 a4) := by
  intro hw _
  simp [decodeList, decodeWords, encode, wordAt, withLen, lenKind, dec44, chk]
theorem Roundtrip.cpys (a0 a1 a2 a3 a4) : Roundtrip.Statement (.cpys a0 a1 a2 a3 a4) := by
  intro hw _
  simp [decodeList, decodeWords, encode, wordAt, withLen, lenKind, dec44, chk]
theorem Roundtrip.cpyr (a0 a1 a2 a3 a4) : Roundtrip.Statement (.cpyr a0 a1 a2 a3 a4) := by
  intro hw _
  simp [decodeList, decodeWords, encode, wordAt, withLen, lenKind, dec44, chk]
theorem Roundtrip.cpywait (a0 a1) : Roundtrip.Statement (.cpywait a0 a1) := by
  intro hw _
  simp [decodeList, decodeWords, encode, wordAt, withLen, lenKind, dec45, chk]
theorem Roundtrip.cpystat (a0 a1) : Roundtrip.Statement (.cpystat a0 a1) := by
  intro hw _
  simp [decodeList, decodeWords, encode, wordAt, withLen, lenKind, dec45, chk]
theorem Roundtrip.bufdcl (a0 a1 a2 a3) : Roundtrip.Statement (.bufdcl a0 a1 a2 a3) := by
  intro hw _
  simp only [Instr.wf, Bool.and_eq_true, Bool.or_eq_true, Bool.not_eq_true', decide_eq_true_eq, decide_eq_false_iff_not] at hw
  simp [-BitVec.extractLsb'_toNat, -BitVec.getLsbD_eq_getElem, -BitVec.toNat_setWidth, toNat_wide, lt2, lt3, lt4, lt5, decodeList, decodeWords, encode, wordAt, withLen, lenKind, dec46, chk, hw]
theorem Roundtrip.bufset (a0 a1 a2) : Roundtrip.Statement (.bufset a0 a1 a2) := by
  intro hw _
  simp only [Instr.wf, Bool.and_eq_true, Bool.or_eq_true, Bool.not_eq_true', decide_eq_true_eq, decide_eq_false_iff_not] at hw
  simp [-BitVec.extractLsb'_toNat, -BitVec.getLsbD_eq_getElem, -BitVec.toNat_setWidth, toNat_wide, lt2, lt3, lt4, lt5, decodeList, decodeWords, encode, wordAt, withLen, lenKind, dec46, chk, hw]
  grind
theorem Roundtrip.bufqry (a0 a1 a2) : Roundtrip.Statement (.bufqry a0 a1 a2) := by
  intro hw _
  simp only [Instr.wf, Bool.and_eq_true, Bool.or_eq_true, Bool.not_eq_true', decide_eq_true_eq, decide_eq_false_iff_not] at hw
  simp [-BitVec.extractLsb'_toNat, -BitVec.getLsbD_eq_getElem, -BitVec.toNat_setWidth, toNat_wide, lt2, lt3, lt4, lt5, decodeList, decodeWords, encode, wordAt, withLen, lenKind, dec46, chk, hw]
theorem Roundtrip.send (a0 a1 a2 a3 a4 a5 a6 a7 a8 a9) : Roundtrip.Statement (.send a0 a1 a2 a3 a4 a5 a6 a7 a8 a9) := by
  intro hw _
  simp only [Instr.wf, Bool.and_eq_true, Bool.or_eq_true, Bool.not_eq_true', decide_eq_true_eq, decide_eq_false_iff_not] at hw
  simp [-BitVec.extractLsb'_toNat, -BitVec.getLsbD_eq_getElem, -BitVec.toNat_setWidth, toNat_wide, lt2, lt3, lt4, lt5, decodeList, decodeWords, encode, wordAt, withLen, lenKind, dec48, chk, hw]
  grind
theorem Roundtrip.sendReplay (a0 a1 a2 a3) : Roundtrip.Statement (.sendReplay a0 a1 a2 a3) := by
  intro hw _
  simp [decodeList, decodeWords, encode, wordAt, withLen, lenKind, dec48, chk]
theorem Roundtrip.sendr (a0 a1 a2 a3 a4) : Roundtrip.Statement (.sendr a0 a1 a2 a3 a4) := by
  intro hw _
  simp only [Instr.wf, Bool.and_eq_true, Bool.or_eq_true, Bool.not_eq_true', decide_eq_true_eq, decide_eq_false_iff_not] at hw
  simp [-BitVec.extractLsb'_toNat, -BitVec.getLsbD_eq_getElem, -BitVec.toNat_setWidth, toNat_wide, lt2, lt3, lt4, lt5, decodeList, decodeWords, encode, wordAt, withLen, lenKind, dec48, chk, hw]
theorem Roundtrip.msgld (a0 a1 a2) : Roundtrip.Statement (.msgld a0 a1 a2) := by
  intro hw _
  simp [decodeList, decodeWords, encode, wordAt, withLen, lenKind, dec49, chk]
theorem Roundtrip.msgfree (a0) : Roundtrip.Statement (.msgfree a0) := by
  intro hw _
  simp [decodeList, decodeWords, encode, wordAt, withLen, lenKind, dec49, chk]
theorem Roundtrip.tagen (a0 a1 a2) : Roundtrip.Statement (.tagen a0 a1 a2) := by
  intro hw _
  simp [decodeList, decodeWords, encode, wordAt, withLen, lenKind, dec4A, chk]
theorem Roundtrip.tagdis (a0 a1 a2) : Roundtrip.Statement (.tagdis a0 a1 a2) := by
  intro hw _
  simp [decodeList, decodeWords, encode, wordAt, withLen, lenKind, dec4A, chk]
theorem Roundtrip.hold (a0 a1 a2) : Roundtrip.Statement (.hold a0 a1 a2) := by
  intro hw _
  simp [decodeList, decodeWords, encode, wordAt, withLen, lenKind, dec4A, chk]
theorem Roundtrip.release (a0 a1 a2) : Roundtrip.Statement (.release a0 a1 a2) := by
  intro hw _
  simp [decodeList, decodeWords, encode, wordAt, withLen, lenKind, dec4A, chk]
theorem Roundtrip.setpri (a0 a1 a2 a3) : Roundtrip.Statement (.setpri a0 a1 a2 a3) := by
  intro hw _
  simp [decodeList, decodeWords, encode, wordAt, withLen, lenKind, dec4A, chk]
theorem Roundtrip.spawn (a0 a1 a2 a3) : Roundtrip.Statement (.spawn a0 a1 a2 a3) := by
  intro hw _
  simp [decodeList, decodeWords, encode, wordAt, withLen, lenKind, dec4C, chk]
theorem Roundtrip.fork (a0 a1 a2) : Roundtrip.Statement (.fork a0 a1 a2) := by
  intro hw _
  simp [decodeList, decodeWords, encode, wordAt, withLen, lenKind, dec4D, chk]
theorem Roundtrip.join (a0 a1 a2 a3) : Roundtrip.Statement (.join a0 a1 a2 a3) := by
  intro hw _
  simp only [Instr.wf, Bool.and_eq_true, Bool.or_eq_true, Bool.not_eq_true', decide_eq_true_eq, decide_eq_false_iff_not] at hw
  simp [-BitVec.extractLsb'_toNat, -BitVec.getLsbD_eq_getElem, -BitVec.toNat_setWidth, toNat_wide, lt2, lt3, lt4, lt5, decodeList, decodeWords, encode, wordAt, withLen, lenKind, dec4D, chk, hw]
  grind
theorem Roundtrip.qpush (a0 a1 a2 a3 a4) : Roundtrip.Statement (.qpush a0 a1 a2 a3 a4) := by
  intro hw _
  simp [decodeList, decodeWords, encode, wordAt, withLen, lenKind, dec4E, chk]
theorem Roundtrip.qpop (a0 a1 a2 a3 a4) : Roundtrip.Statement (.qpop a0 a1 a2 a3 a4) := by
  intro hw _
  simp [decodeList, decodeWords, encode, wordAt, withLen, lenKind, dec4E, chk]
theorem Roundtrip.qstat (a0 a1 a2) : Roundtrip.Statement (.qstat a0 a1 a2) := by
  intro hw _
  simp [decodeList, decodeWords, encode, wordAt, withLen, lenKind, dec4E, chk]
theorem Roundtrip.actdef (a0 a1 a2 a3 a4 a5 a6 a7 a8) : Roundtrip.Statement (.actdef a0 a1 a2 a3 a4 a5 a6 a7 a8) := by
  intro hw _
  simp only [Instr.wf, Bool.and_eq_true, Bool.or_eq_true, Bool.not_eq_true', decide_eq_true_eq, decide_eq_false_iff_not] at hw
  simp [-BitVec.extractLsb'_toNat, -BitVec.getLsbD_eq_getElem, -BitVec.toNat_setWidth, toNat_wide, lt2, lt3, lt4, lt5, decodeList, decodeWords, encode, wordAt, withLen, lenKind, dec4F, chk, hw]
theorem Roundtrip.cdef (a0 a1 a2 a3 a4) : Roundtrip.Statement (.cdef a0 a1 a2 a3 a4) := by
  intro hw _
  simp [decodeList, decodeWords, encode, wordAt, withLen, lenKind, dec50, chk]
theorem Roundtrip.cbind (a0 a1 a2 a3 a4) : Roundtrip.Statement (.cbind a0 a1 a2 a3 a4) := by
  intro hw _
  simp [decodeList, decodeWords, encode, wordAt, withLen, lenKind, dec50, chk]
theorem Roundtrip.cunb (a0 a1 a2 a3) : Roundtrip.Statement (.cunb a0 a1 a2 a3) := by
  intro hw _
  simp [decodeList, decodeWords, encode, wordAt, withLen, lenKind, dec50, chk]
theorem Roundtrip.cld (a0 a1 a2 a3 a4 a5 a6) : Roundtrip.Statement (.cld a0 a1 a2 a3 a4 a5 a6) := by
  intro hw _
  simp [decodeList, decodeWords, encode, wordAt, withLen, lenKind, dec51, chk]
theorem Roundtrip.cst (a0 a1 a2 a3 a4 a5) : Roundtrip.Statement (.cst a0 a1 a2 a3 a4 a5) := by
  intro hw _
  simp [decodeList, decodeWords, encode, wordAt, withLen, lenKind, dec51, chk]
theorem Roundtrip.csnap (a0 a1 a2 a3) : Roundtrip.Statement (.csnap a0 a1 a2 a3) := by
  intro hw _
  simp [decodeList, decodeWords, encode, wordAt, withLen, lenKind, dec52, chk]
theorem Roundtrip.cunsnap (a0 a1 a2) : Roundtrip.Statement (.cunsnap a0 a1 a2) := by
  intro hw _
  simp [decodeList, decodeWords, encode, wordAt, withLen, lenKind, dec52, chk]
theorem Roundtrip.cgenStart (a0 a1 a2) : Roundtrip.Statement (.cgenStart a0 a1 a2) := by
  intro hw _
  simp [decodeList, decodeWords, encode, wordAt, withLen, lenKind, dec52, chk]
theorem Roundtrip.cgenHold (a0 a1 a2 a3) : Roundtrip.Statement (.cgenHold a0 a1 a2 a3) := by
  intro hw _
  simp [decodeList, decodeWords, encode, wordAt, withLen, lenKind, dec52, chk]
theorem Roundtrip.cgenRelease (a0 a1 a2) : Roundtrip.Statement (.cgenRelease a0 a1 a2) := by
  intro hw _
  simp [decodeList, decodeWords, encode, wordAt, withLen, lenKind, dec52, chk]
theorem Roundtrip.cgenPinlim (a0 a1 a2 a3) : Roundtrip.Statement (.cgenPinlim a0 a1 a2 a3) := by
  intro hw _
  simp [decodeList, decodeWords, encode, wordAt, withLen, lenKind, dec52, chk]
theorem Roundtrip.cgenWaitgen (a0 a1 a2 a3 a4) : Roundtrip.Statement (.cgenWaitgen a0 a1 a2 a3 a4) := by
  intro hw _
  simp [decodeList, decodeWords, encode, wordAt, withLen, lenKind, dec52, chk]
theorem Roundtrip.cstat (a0 a1 a2 a3 a4) : Roundtrip.Statement (.cstat a0 a1 a2 a3 a4) := by
  intro hw _
  simp only [Instr.wf, Bool.and_eq_true, Bool.or_eq_true, Bool.not_eq_true', decide_eq_true_eq, decide_eq_false_iff_not] at hw
  simp [-BitVec.extractLsb'_toNat, -BitVec.getLsbD_eq_getElem, -BitVec.toNat_setWidth, toNat_wide, lt2, lt3, lt4, lt5, decodeList, decodeWords, encode, wordAt, withLen, lenKind, dec52, chk, hw]
  grind
theorem Roundtrip.cprec (a0 a1 a2) : Roundtrip.Statement (.cprec a0 a1 a2) := by
  intro hw _
  simp [decodeList, decodeWords, encode, wordAt, withLen, lenKind, dec53, chk]
theorem Roundtrip.ccommit (a0 a1 a2) : Roundtrip.Statement (.ccommit a0 a1 a2) := by
  intro hw _
  simp [decodeList, decodeWords, encode, wordAt, withLen, lenKind, dec53, chk]
theorem Roundtrip.kappend (a0 a1 a2 a3 a4) : Roundtrip.Statement (.kappend a0 a1 a2 a3 a4) := by
  intro hw _
  simp [decodeList, decodeWords, encode, wordAt, withLen, lenKind, dec54, chk]
theorem Roundtrip.klook (a0 a1 a2 a3 a4 a5) : Roundtrip.Statement (.klook a0 a1 a2 a3 a4 a5) := by
  intro hw _
  simp only [Instr.wf, Bool.and_eq_true, Bool.or_eq_true, Bool.not_eq_true', decide_eq_true_eq, decide_eq_false_iff_not] at hw
  simp [-BitVec.extractLsb'_toNat, -BitVec.getLsbD_eq_getElem, -BitVec.toNat_setWidth, toNat_wide, lt2, lt3, lt4, lt5, decodeList, decodeWords, encode, wordAt, withLen, lenKind, dec55, chk, hw]
theorem Roundtrip.kqry (a0 a1 a2 a3 a4 a5 a6 a7) : Roundtrip.Statement (.kqry a0 a1 a2 a3 a4 a5 a6 a7) := by
  intro hw _
  simp only [Instr.wf, Bool.and_eq_true, Bool.or_eq_true, Bool.not_eq_true', decide_eq_true_eq, decide_eq_false_iff_not] at hw
  simp [-BitVec.extractLsb'_toNat, -BitVec.getLsbD_eq_getElem, -BitVec.toNat_setWidth, toNat_wide, lt2, lt3, lt4, lt5, decodeList, decodeWords, encode, wordAt, withLen, lenKind, dec55, chk, hw]
theorem Roundtrip.krehome (a0 a1 a2 a3 a4) : Roundtrip.Statement (.krehome a0 a1 a2 a3 a4) := by
  intro hw _
  simp [decodeList, decodeWords, encode, wordAt, withLen, lenKind, dec55, chk]
theorem Roundtrip.flpop (a0 a1 a2) : Roundtrip.Statement (.flpop a0 a1 a2) := by
  intro hw _
  simp [decodeList, decodeWords, encode, wordAt, withLen, lenKind, dec56, chk]
theorem Roundtrip.flpush (a0 a1 a2 a3) : Roundtrip.Statement (.flpush a0 a1 a2 a3) := by
  intro hw _
  simp [decodeList, decodeWords, encode, wordAt, withLen, lenKind, dec56, chk]
theorem Roundtrip.lncfg (a0 a1 a2 a3) : Roundtrip.Statement (.lncfg a0 a1 a2 a3) := by
  intro hw _
  simp [decodeList, decodeWords, encode, wordAt, withLen, lenKind, dec58, chk]
theorem Roundtrip.lnrank (a0 a1 a2 a3) : Roundtrip.Statement (.lnrank a0 a1 a2 a3) := by
  intro hw _
  simp [decodeList, decodeWords, encode, wordAt, withLen, lenKind, dec58, chk]
theorem Roundtrip.lncommit (a0 a1 a2) : Roundtrip.Statement (.lncommit a0 a1 a2) := by
  intro hw _
  simp [decodeList, decodeWords, encode, wordAt, withLen, lenKind, dec58, chk]
theorem Roundtrip.lnstat (a0 a1 a2) : Roundtrip.Statement (.lnstat a0 a1 a2) := by
  intro hw _
  simp [decodeList, decodeWords, encode, wordAt, withLen, lenKind, dec58, chk]
theorem Roundtrip.flowOpen (a0 a1 a2 a3) : Roundtrip.Statement (.flowOpen a0 a1 a2 a3) := by
  intro hw _
  simp [decodeList, decodeWords, encode, wordAt, withLen, lenKind, dec5C, chk]
theorem Roundtrip.flowClose (a0 a1 a2) : Roundtrip.Statement (.flowClose a0 a1 a2) := by
  intro hw _
  simp [decodeList, decodeWords, encode, wordAt, withLen, lenKind, dec5C, chk]
theorem Roundtrip.flowQry (a0 a1 a2) : Roundtrip.Statement (.flowQry a0 a1 a2) := by
  intro hw _
  simp [decodeList, decodeWords, encode, wordAt, withLen, lenKind, dec5C, chk]
theorem Roundtrip.cgform (a0 a1 a2 a3 a4) : Roundtrip.Statement (.cgform a0 a1 a2 a3 a4) := by
  intro hw _
  simp [decodeList, decodeWords, encode, wordAt, withLen, lenKind, dec5D, chk]
theorem Roundtrip.cgsig (a0 a1 a2 a3) : Roundtrip.Statement (.cgsig a0 a1 a2 a3) := by
  intro hw _
  simp [decodeList, decodeWords, encode, wordAt, withLen, lenKind, dec5D, chk]
theorem Roundtrip.cgwait (a0 a1 a2 a3 a4 a5) : Roundtrip.Statement (.cgwait a0 a1 a2 a3 a4 a5) := by
  intro hw _
  simp [decodeList, decodeWords, encode, wordAt, withLen, lenKind, dec5D, chk]
theorem Roundtrip.cgstat (a0 a1 a2) : Roundtrip.Statement (.cgstat a0 a1 a2) := by
  intro hw _
  simp [decodeList, decodeWords, encode, wordAt, withLen, lenKind, dec5D, chk]
theorem Roundtrip.tlbw (a0 a1 a2 a3 a4 a5) : Roundtrip.Statement (.tlbw a0 a1 a2 a3 a4 a5) := by
  intro hw _
  simp [decodeList, decodeWords, encode, wordAt, withLen, lenKind, dec60, chk]
theorem Roundtrip.tlbinv (a0 a1 a2 a3 a4) : Roundtrip.Statement (.tlbinv a0 a1 a2 a3 a4) := by
  intro hw _
  simp [decodeList, decodeWords, encode, wordAt, withLen, lenKind, dec60, chk]
theorem Roundtrip.tlbprb (a0 a1 a2 a3 a4) : Roundtrip.Statement (.tlbprb a0 a1 a2 a3 a4) := by
  intro hw _
  simp [decodeList, decodeWords, encode, wordAt, withLen, lenKind, dec60, chk]
theorem Roundtrip.capset (a0 a1 a2) : Roundtrip.Statement (.capset a0 a1 a2) := by
  intro hw _
  simp [decodeList, decodeWords, encode, wordAt, withLen, lenKind, dec61, chk]
theorem Roundtrip.ctxq (a0 a1 a2) : Roundtrip.Statement (.ctxq a0 a1 a2) := by
  intro hw _
  simp [decodeList, decodeWords, encode, wordAt, withLen, lenKind, dec62, chk]
theorem Roundtrip.slogq (a0 a1 a2) : Roundtrip.Statement (.slogq a0 a1 a2) := by
  intro hw _
  simp [decodeList, decodeWords, encode, wordAt, withLen, lenKind, dec63, chk]
theorem Roundtrip.undefinedEncoding (a0 a1 a2) : Roundtrip.Statement (.undefinedEncoding a0 a1 a2) := by
  intro _ h
  exact Bool.noConfusion h
theorem Roundtrip.varResultReturn (a0 a1) : Roundtrip.Statement (.varResultReturn a0 a1) := by
  intro _ h
  exact Bool.noConfusion h
theorem Roundtrip.selectorDecision (a0) : Roundtrip.Statement (.selectorDecision a0) := by
  intro _ h
  exact Bool.noConfusion h
theorem Roundtrip.quantumExpiry (a0) : Roundtrip.Statement (.quantumExpiry a0) := by
  intro _ h
  exact Bool.noConfusion h
theorem Roundtrip.alignWaitExpiry (a0 a1) : Roundtrip.Statement (.alignWaitExpiry a0 a1) := by
  intro _ h
  exact Bool.noConfusion h
theorem Roundtrip.requestArrival (a0 a1) : Roundtrip.Statement (.requestArrival a0 a1) := by
  intro _ h
  exact Bool.noConfusion h
theorem Roundtrip.requestRetry (a0 a1) : Roundtrip.Statement (.requestRetry a0 a1) := by
  intro _ h
  exact Bool.noConfusion h
theorem Roundtrip.replyArrival (a0) : Roundtrip.Statement (.replyArrival a0) := by
  intro _ h
  exact Bool.noConfusion h
theorem Roundtrip.autoReplySend (a0) : Roundtrip.Statement (.autoReplySend a0) := by
  intro _ h
  exact Bool.noConfusion h
theorem Roundtrip.spawnArrival (a0 a1) : Roundtrip.Statement (.spawnArrival a0 a1) := by
  intro _ h
  exact Bool.noConfusion h
theorem Roundtrip.spawnAnswer (a0 a1) : Roundtrip.Statement (.spawnAnswer a0 a1) := by
  intro _ h
  exact Bool.noConfusion h
theorem Roundtrip.mxremArrival (a0 a1) : Roundtrip.Statement (.mxremArrival a0 a1) := by
  intro _ h
  exact Bool.noConfusion h
theorem Roundtrip.matrixCmdStart (a0) : Roundtrip.Statement (.matrixCmdStart a0) := by
  intro _ h
  exact Bool.noConfusion h
theorem Roundtrip.matrixCmdComplete (a0) : Roundtrip.Statement (.matrixCmdComplete a0) := by
  intro _ h
  exact Bool.noConfusion h
theorem Roundtrip.copyCmdComplete (a0 a1) : Roundtrip.Statement (.copyCmdComplete a0 a1) := by
  intro _ h
  exact Bool.noConfusion h
theorem Roundtrip.mword (a0 a1 a2) : Roundtrip.Statement (.mword a0 a1 a2) := by
  intro _ h
  exact Bool.noConfusion h
theorem Roundtrip.mgo (a0 a1) : Roundtrip.Statement (.mgo a0 a1) := by
  intro _ h
  exact Bool.noConfusion h
theorem Roundtrip.cword (a0 a1 a2) : Roundtrip.Statement (.cword a0 a1 a2) := by
  intro _ h
  exact Bool.noConfusion h
theorem Roundtrip.cgo (a0 a1) : Roundtrip.Statement (.cgo a0 a1) := by
  intro _ h
  exact Bool.noConfusion h
theorem Roundtrip.heldGoAccept (a0 a1) : Roundtrip.Statement (.heldGoAccept a0 a1) := by
  intro _ h
  exact Bool.noConfusion h
theorem Roundtrip.walkRequest (a0 a1) : Roundtrip.Statement (.walkRequest a0 a1) := by
  intro _ h
  exact Bool.noConfusion h
theorem Roundtrip.walkTimeout (a0 a1) : Roundtrip.Statement (.walkTimeout a0 a1) := by
  intro _ h
  exact Bool.noConfusion h
theorem Roundtrip.cellDispatch (a0 a1 a2) : Roundtrip.Statement (.cellDispatch a0 a1 a2) := by
  intro _ h
  exact Bool.noConfusion h
theorem Roundtrip.pinExpiry (a0 a1 a2) : Roundtrip.Statement (.pinExpiry a0 a1 a2) := by
  intro _ h
  exact Bool.noConfusion h
theorem Roundtrip.poisonOpening (a0 a1 a2) : Roundtrip.Statement (.poisonOpening a0 a1 a2) := by
  intro _ h
  exact Bool.noConfusion h
theorem Roundtrip.cellReadWake (a0 a1) : Roundtrip.Statement (.cellReadWake a0 a1) := by
  intro _ h
  exact Bool.noConfusion h
theorem Roundtrip.waitRecheck (a0 a1) : Roundtrip.Statement (.waitRecheck a0 a1) := by
  intro _ h
  exact Bool.noConfusion h
theorem Roundtrip.waitLimitExpiry (a0 a1) : Roundtrip.Statement (.waitLimitExpiry a0 a1) := by
  intro _ h
  exact Bool.noConfusion h
theorem Roundtrip.governorSample (a0) : Roundtrip.Statement (.governorSample a0) := by
  intro _ h
  exact Bool.noConfusion h
theorem Roundtrip.queueRefill (a0) : Roundtrip.Statement (.queueRefill a0) := by
  intro _ h
  exact Bool.noConfusion h
theorem Roundtrip.stageQueueDescWrite (a0 a1 a2) : Roundtrip.Statement (.stageQueueDescWrite a0 a1 a2) := by
  intro _ h
  exact Bool.noConfusion h
theorem Roundtrip.krehomeTarget (a0 a1) : Roundtrip.Statement (.krehomeTarget a0 a1) := by
  intro _ h
  exact Bool.noConfusion h
theorem Roundtrip.krehomeAnswer (a0 a1) : Roundtrip.Statement (.krehomeAnswer a0 a1) := by
  intro _ h
  exact Bool.noConfusion h
theorem Roundtrip.rdupPropagate (a0 a1) : Roundtrip.Statement (.rdupPropagate a0 a1) := by
  intro _ h
  exact Bool.noConfusion h
theorem Roundtrip.rdupInvalidateAck (a0 a1) : Roundtrip.Statement (.rdupInvalidateAck a0 a1) := by
  intro _ h
  exact Bool.noConfusion h
theorem Roundtrip.fabricStoreArrival (a0 a1 a2 a3 a4) : Roundtrip.Statement (.fabricStoreArrival a0 a1 a2 a3 a4) := by
  intro _ h
  exact Bool.noConfusion h
theorem Roundtrip.fabricReleaseApply (a0 a1 a2 a3 a4 a5 a6) : Roundtrip.Statement (.fabricReleaseApply a0 a1 a2 a3 a4 a5 a6) := by
  intro _ h
  exact Bool.noConfusion h
theorem Roundtrip.flowPacketArrival (a0 a1 a2 a3 a4 a5 a6) : Roundtrip.Statement (.flowPacketArrival a0 a1 a2 a3 a4 a5 a6) := by
  intro _ h
  exact Bool.noConfusion h
theorem Roundtrip.linkFlitReceive (a0 a1 a2 a3) : Roundtrip.Statement (.linkFlitReceive a0 a1 a2 a3) := by
  intro _ h
  exact Bool.noConfusion h
theorem Roundtrip.linkAckReceive (a0 a1 a2 a3) : Roundtrip.Statement (.linkAckReceive a0 a1 a2 a3) := by
  intro _ h
  exact Bool.noConfusion h
theorem Roundtrip.laneLockLoss (a0 a1) : Roundtrip.Statement (.laneLockLoss a0 a1) := by
  intro _ h
  exact Bool.noConfusion h
theorem Roundtrip.portRetrainDone (a0 a1 a2) : Roundtrip.Statement (.portRetrainDone a0 a1 a2) := by
  intro _ h
  exact Bool.noConfusion h
theorem Roundtrip.retrain (a0 a1) : Roundtrip.Statement (.retrain a0 a1) := by
  intro _ h
  exact Bool.noConfusion h
theorem Roundtrip.remoteLimitExpiry (a0) : Roundtrip.Statement (.remoteLimitExpiry a0) := by
  intro _ h
  exact Bool.noConfusion h
theorem Roundtrip.groupJoinArrival (a0 a1 a2 a3 a4 a5) : Roundtrip.Statement (.groupJoinArrival a0 a1 a2 a3 a4 a5) := by
  intro _ h
  exact Bool.noConfusion h
theorem Roundtrip.groupCommitArrival (a0 a1) : Roundtrip.Statement (.groupCommitArrival a0 a1) := by
  intro _ h
  exact Bool.noConfusion h
theorem Roundtrip.groupAbortMsg (a0 a1 a2) : Roundtrip.Statement (.groupAbortMsg a0 a1 a2) := by
  intro _ h
  exact Bool.noConfusion h
theorem Roundtrip.cgwaitLimit (a0 a1) : Roundtrip.Statement (.cgwaitLimit a0 a1) := by
  intro _ h
  exact Bool.noConfusion h
theorem Roundtrip.cgformLimit (a0 a1) : Roundtrip.Statement (.cgformLimit a0 a1) := by
  intro _ h
  exact Bool.noConfusion h
theorem Roundtrip.cgansCommit (a0) : Roundtrip.Statement (.cgansCommit a0) := by
  intro _ h
  exact Bool.noConfusion h
theorem Roundtrip.cgansRefuse (a0) : Roundtrip.Statement (.cgansRefuse a0) := by
  intro _ h
  exact Bool.noConfusion h
theorem Roundtrip.doorbell (a0 a1 a2) : Roundtrip.Statement (.doorbell a0 a1 a2) := by
  intro _ h
  exact Bool.noConfusion h
theorem Roundtrip.queuePacketRead (a0 a1) : Roundtrip.Statement (.queuePacketRead a0 a1) := by
  intro _ h
  exact Bool.noConfusion h
theorem Roundtrip.launchRelease (a0) : Roundtrip.Statement (.launchRelease a0) := by
  intro _ h
  exact Bool.noConfusion h
theorem Roundtrip.contextResume (a0 a1) : Roundtrip.Statement (.contextResume a0 a1) := by
  intro _ h
  exact Bool.noConfusion h
theorem Roundtrip.launchComplete (a0) : Roundtrip.Statement (.launchComplete a0) := by
  intro _ h
  exact Bool.noConfusion h
theorem Roundtrip.launchLimitExpiry (a0) : Roundtrip.Statement (.launchLimitExpiry a0) := by
  intro _ h
  exact Bool.noConfusion h
theorem Roundtrip.hostLinkAccess (a0 a1 a2 a3 a4) : Roundtrip.Statement (.hostLinkAccess a0 a1 a2 a3 a4) := by
  intro _ h
  exact Bool.noConfusion h
theorem Roundtrip.ctxctlClear (a0 a1) : Roundtrip.Statement (.ctxctlClear a0 a1) := by
  intro _ h
  exact Bool.noConfusion h
theorem Roundtrip.ctxctlRetire (a0 a1) : Roundtrip.Statement (.ctxctlRetire a0 a1) := by
  intro _ h
  exact Bool.noConfusion h
theorem Roundtrip.unfreeze (a0 a1) : Roundtrip.Statement (.unfreeze a0 a1) := by
  intro _ h
  exact Bool.noConfusion h
theorem Roundtrip.wfgo (a0) : Roundtrip.Statement (.wfgo a0) := by
  intro _ h
  exact Bool.noConfusion h
theorem Roundtrip.walkImageLoadDone (a0) : Roundtrip.Statement (.walkImageLoadDone a0) := by
  intro _ h
  exact Bool.noConfusion h
theorem Roundtrip.twgo (a0) : Roundtrip.Statement (.twgo a0) := by
  intro _ h
  exact Bool.noConfusion h
theorem Roundtrip.userQueueDescWrite (a0 a1 a2 a3) : Roundtrip.Statement (.userQueueDescWrite a0 a1 a2 a3) := by
  intro _ h
  exact Bool.noConfusion h
theorem Roundtrip.freeListRegWrite (a0 a1 a2) : Roundtrip.Statement (.freeListRegWrite a0 a1 a2) := by
  intro _ h
  exact Bool.noConfusion h
theorem Roundtrip.schedout (a0 a1) : Roundtrip.Statement (.schedout a0 a1) := by
  intro _ h
  exact Bool.noConfusion h
theorem Roundtrip.freefFrame (a0 a1 a2) : Roundtrip.Statement (.freefFrame a0 a1 a2) := by
  intro _ h
  exact Bool.noConfusion h
theorem Roundtrip.freefBivouac (a0 a1) : Roundtrip.Statement (.freefBivouac a0 a1) := by
  intro _ h
  exact Bool.noConfusion h
theorem Roundtrip.registerWrite (a0 a1 a2) : Roundtrip.Statement (.registerWrite a0 a1 a2) := by
  intro _ h
  exact Bool.noConfusion h
theorem Roundtrip.frontEndError (a0) : Roundtrip.Statement (.frontEndError a0) := by
  intro _ h
  exact Bool.noConfusion h
theorem Roundtrip.correctedError (a0 a1 a2) : Roundtrip.Statement (.correctedError a0 a1 a2) := by
  intro _ h
  exact Bool.noConfusion h
theorem Roundtrip.uncorrectableError (a0 a1 a2) : Roundtrip.Statement (.uncorrectableError a0 a1 a2) := by
  intro _ h
  exact Bool.noConfusion h
theorem Roundtrip.patrolScrub (a0 a1) : Roundtrip.Statement (.patrolScrub a0 a1) := by
  intro _ h
  exact Bool.noConfusion h
theorem Roundtrip.stbyPowerUp : Roundtrip.Statement (.stbyPowerUp) := by
  intro _ h
  exact Bool.noConfusion h
theorem Roundtrip.stbyPowerDown : Roundtrip.Statement (.stbyPowerDown) := by
  intro _ h
  exact Bool.noConfusion h
theorem Roundtrip.mainPowerUp (a0 a1 a2) : Roundtrip.Statement (.mainPowerUp a0 a1 a2) := by
  intro _ h
  exact Bool.noConfusion h
theorem Roundtrip.mainPowerDown : Roundtrip.Statement (.mainPowerDown) := by
  intro _ h
  exact Bool.noConfusion h
theorem Roundtrip.firmwareUpdate (a0 a1 a2) : Roundtrip.Statement (.firmwareUpdate a0 a1 a2) := by
  intro _ h
  exact Bool.noConfusion h
theorem Roundtrip.perstLink0 : Roundtrip.Statement (.perstLink0) := by
  intro _ h
  exact Bool.noConfusion h
theorem Roundtrip.perstLink1 : Roundtrip.Statement (.perstLink1) := by
  intro _ h
  exact Bool.noConfusion h
theorem Roundtrip.reset (a0) : Roundtrip.Statement (.reset a0) := by
  intro _ h
  exact Bool.noConfusion h
theorem Roundtrip.pwrlim (a0) : Roundtrip.Statement (.pwrlim a0) := by
  intro _ h
  exact Bool.noConfusion h
theorem Roundtrip.trip (a0) : Roundtrip.Statement (.trip a0) := by
  intro _ h
  exact Bool.noConfusion h
theorem Roundtrip.powerWindow (a0) : Roundtrip.Statement (.powerWindow a0) := by
  intro _ h
  exact Bool.noConfusion h
theorem Roundtrip.thermalThrottle (a0 a1) : Roundtrip.Statement (.thermalThrottle a0 a1) := by
  intro _ h
  exact Bool.noConfusion h
theorem Roundtrip.thermalTrip (a0 a1) : Roundtrip.Statement (.thermalTrip a0 a1) := by
  intro _ h
  exact Bool.noConfusion h
theorem Roundtrip.mgmtRead (a0) : Roundtrip.Statement (.mgmtRead a0) := by
  intro _ h
  exact Bool.noConfusion h
theorem Roundtrip.spdmMeasurement (a0) : Roundtrip.Statement (.spdmMeasurement a0) := by
  intro _ h
  exact Bool.noConfusion h
theorem Roundtrip.programTrafficAck (a0 a1 a2) : Roundtrip.Statement (.programTrafficAck a0 a1 a2) := by
  intro _ h
  exact Bool.noConfusion h
theorem Roundtrip.remoteAccessArrival (a0 a1 a2 a3 a4 a5) : Roundtrip.Statement (.remoteAccessArrival a0 a1 a2 a3 a4 a5) := by
  intro _ h
  exact Bool.noConfusion h
theorem Roundtrip.errorTriageWord (a0) : Roundtrip.Statement (.errorTriageWord a0) := by
  intro _ h
  exact Bool.noConfusion h
theorem Roundtrip.thermalThrottleEnd (a0 a1) : Roundtrip.Statement (.thermalThrottleEnd a0 a1) := by
  intro _ h
  exact Bool.noConfusion h

end Sys2Proof.Laws
end

