-- ==== Sys2Proof/Laws/Vector.lean ====
section
/-! SUPPORT. What the shared operations of the vector instructions do: elements of a register, results of active elements, and an
instruction none of whose registers is a stream. -/
namespace Sys2Proof.Machine

/-! ### Elements -/

theorem el_split (v P W : Nat) : v = v % P + v / P % W * P + v / P / W * W * P := by
  calc v = P * (v / P) + v % P := (Nat.div_add_mod v P).symm
    _ = P * (W * (v / P / W) + v / P % W) + v % P := by rw [Nat.div_add_mod (v / P) W]
    _ = _ := by ring
/-- Element `j` of a number whose element `i` is replaced. -/
theorem el_replace (v w i j c : Nat) :
    (v - v / 2 ^ (w * i) % 2 ^ w * 2 ^ (w * i) + c % 2 ^ w * 2 ^ (w * i)) / 2 ^ (w * j) % 2 ^ w =
      if j = i then c % 2 ^ w else v / 2 ^ (w * j) % 2 ^ w := by
  have h1 := el_split v (2 ^ (w * i)) (2 ^ w)
  have hl : v % 2 ^ (w * i) < 2 ^ (w * i) := Nat.mod_lt _ (by positivity)
  have hc : c % 2 ^ w < 2 ^ w := Nat.mod_lt _ (by positivity)
  have hx : v / 2 ^ (w * i) % 2 ^ w < 2 ^ w := Nat.mod_lt _ (by positivity)
  generalize v % 2 ^ (w * i) = lo at *
  generalize c % 2 ^ w = y at *
  generalize v / 2 ^ (w * i) % 2 ^ w = x at *
  generalize v / 2 ^ (w * i) / 2 ^ w = hi at *
  have h2 : v - x * 2 ^ (w * i) + y * 2 ^ (w * i) = lo + y * 2 ^ (w * i) + hi * 2 ^ w * 2 ^ (w * i) := by omega
  rw [h2]
  conv_rhs => rw [h1]
  have key (z : Nat) (hz : z < 2 ^ w) : (lo + z * 2 ^ (w * i) + hi * 2 ^ w * 2 ^ (w * i)) / 2 ^ (w * j) % 2 ^ w =
      if j = i then z else if j < i then lo / 2 ^ (w * j) % 2 ^ w else hi / 2 ^ (w * (j - i - 1)) % 2 ^ w := by
    rcases Nat.lt_trichotomy j i with h | h | h
    · have e : 2 ^ (w * i) = 2 ^ (w * j) * (2 ^ w * 2 ^ (w * (i - j - 1))) := by
        rw [← Nat.pow_add, ← Nat.pow_add]; congr 1
        obtain ⟨k, rfl⟩ : ∃ k, i = j + 1 + k := ⟨i - j - 1, by omega⟩
        have : j + 1 + k - j - 1 = k := by omega
        rw [this]; ring
      rw [if_neg (by omega), if_pos h, e,
        show lo + z * (2 ^ (w * j) * (2 ^ w * 2 ^ (w * (i - j - 1)))) + hi * 2 ^ w * (2 ^ (w * j) * (2 ^ w * 2 ^ (w * (i - j - 1)))) =
          lo + 2 ^ (w * j) * (2 ^ w * (z * 2 ^ (w * (i - j - 1)) + hi * 2 ^ w * 2 ^ (w * (i - j - 1)))) by ring,
        Nat.add_mul_div_left _ _ (by positivity), Nat.add_mul_mod_self_left]
    · subst h
      rw [if_pos rfl, show lo + z * 2 ^ (w * j) + hi * 2 ^ w * 2 ^ (w * j) = lo + 2 ^ (w * j) * (z + 2 ^ w * hi) by ring,
        Nat.add_mul_div_left _ _ (by positivity), Nat.div_eq_of_lt hl, Nat.zero_add, Nat.add_mul_mod_self_left, Nat.mod_eq_of_lt hz]
    · rw [if_neg (by omega), if_neg (by omega)]
      have e : 2 ^ (w * j) = 2 ^ (w * i) * 2 ^ w * 2 ^ (w * (j - i - 1)) := by
        rw [← Nat.pow_add, ← Nat.pow_add]; congr 1
        obtain ⟨k, rfl⟩ : ∃ k, j = i + 1 + k := ⟨j - i - 1, by omega⟩
        have : i + 1 + k - i - 1 = k := by omega
        rw [this]; ring
      rw [e, ← Nat.div_div_eq_div_mul, ← Nat.div_div_eq_div_mul,
        show lo + z * 2 ^ (w * i) + hi * 2 ^ w * 2 ^ (w * i) = lo + 2 ^ (w * i) * (z + 2 ^ w * hi) by ring,
        Nat.add_mul_div_left _ _ (by positivity), Nat.div_eq_of_lt hl, Nat.zero_add, Nat.add_mul_div_left _ _ (by positivity),
        Nat.div_eq_of_lt hz, Nat.zero_add]
  rw [key y hc, key x hx]
  split
  · rfl
  · rfl

theorem getEl_eq (v : BitVec 512) (w i : Nat) : getEl v w i = v.toNat / 2 ^ (w * i) % 2 ^ w := by
  simp [getEl, Nat.shiftRight_eq_div_pow]
theorem getEl_lt (v : BitVec 512) (w i : Nat) : getEl v w i < 2 ^ w := Nat.mod_lt _ (by positivity)

/-- Element `j` of the value whose element `i` is replaced. -/
theorem getEl_setEl (v : BitVec 512) {w i : Nat} (j c : Nat) (h : (i + 1) * w ≤ 512) :
    getEl (setEl v w i c) w j = if j = i then c % 2 ^ w else getEl v w j := by
  have hx : v.toNat / 2 ^ (w * i) % 2 ^ w * 2 ^ (w * i) ≤ v.toNat :=
    Nat.le_trans (Nat.mul_le_mul_right _ (Nat.mod_le _ _)) (Nat.div_mul_le_self _ _)
  have hb : v.toNat - v.toNat / 2 ^ (w * i) % 2 ^ w * 2 ^ (w * i) + c % 2 ^ w * 2 ^ (w * i) < 2 ^ 512 := by
    apply Nat.lt_pow_two_of_testBit
    intro b hb
    have hw : w * i + w ≤ 512 := by nlinarith
    have h1 := el_split v.toNat (2 ^ (w * i)) (2 ^ w)
    have hv := v.isLt
    have hl : v.toNat % 2 ^ (w * i) < 2 ^ (w * i) := Nat.mod_lt _ (by positivity)
    have hc : c % 2 ^ w < 2 ^ w := Nat.mod_lt _ (by positivity)
    have hh : v.toNat / 2 ^ (w * i) / 2 ^ w < 2 ^ (512 - (w * i + w)) := by
      rw [Nat.div_div_eq_div_mul, ← Nat.pow_add, Nat.div_lt_iff_lt_mul (by positivity), ← Nat.pow_add]
      rwa [Nat.sub_add_cancel hw]
    generalize v.toNat % 2 ^ (w * i) = lo at *
    generalize c % 2 ^ w = y at *
    generalize v.toNat / 2 ^ (w * i) % 2 ^ w = x at *
    generalize v.toNat / 2 ^ (w * i) / 2 ^ w = hi at *
    have h2 : v.toNat - x * 2 ^ (w * i) + y * 2 ^ (w * i) = lo + 2 ^ (w * i) * (y + 2 ^ w * hi) := by
      have : lo + 2 ^ (w * i) * (y + 2 ^ w * hi) = lo + y * 2 ^ (w * i) + hi * 2 ^ w * 2 ^ (w * i) := by ring
      omega
    rw [h2]
    apply Nat.testBit_lt_two_pow
    have h3 : y + 2 ^ w * hi < 2 ^ (w + (512 - (w * i + w))) := by
      rw [Nat.pow_add]
      have : 2 ^ w * hi + 2 ^ w ≤ 2 ^ w * 2 ^ (512 - (w * i + w)) := by
        have := Nat.mul_le_mul_left (2 ^ w) (Nat.succ_le_of_lt hh); rwa [Nat.mul_succ] at this
      omega
    have h4 : lo + 2 ^ (w * i) * (y + 2 ^ w * hi) < 2 ^ (w * i) * 2 ^ (w + (512 - (w * i + w))) := by
      have := Nat.mul_le_mul_left (2 ^ (w * i)) (Nat.succ_le_of_lt h3)
      rw [Nat.mul_succ] at this; omega
    rw [← Nat.pow_add] at h4
    have : w * i + (w + (512 - (w * i + w))) = 512 := by omega
    rw [this] at h4
    exact Nat.lt_of_lt_of_le h4 (Nat.pow_le_pow_right (by omega) hb)
  have : (setEl v w i c).toNat = v.toNat - v.toNat / 2 ^ (w * i) % 2 ^ w * 2 ^ (w * i) + c % 2 ^ w * 2 ^ (w * i) := by
    simp only [setEl, getEl, Nat.shiftLeft_eq, Nat.shiftRight_eq_div_pow, BitVec.toNat_ofNat]
    exact Nat.mod_eq_of_lt hb
  rw [getEl_eq, this, el_replace, getEl_eq]

/-- Element `j` after writes of elements below the end: the last write to it, else what it was. -/
theorem getEl_foldl {w : Nat} (g : Nat × Nat → Nat) (els : List (Nat × Nat)) (v : BitVec 512) (j : Nat) (h : ∀ e ∈ els, (e.1 + 1) * w ≤ 512)
    (hn : (els.map (·.1)).Nodup) :
    getEl (els.foldl (fun v e => setEl v w e.1 (g e)) v) w j =
      match els.find? fun e => e.1 = j with
      | some e => g e % 2 ^ w
      | none => getEl v w j := by
  induction els generalizing v with
  | nil => rfl
  | cons e r ih =>
    simp only [List.map_cons, List.nodup_cons] at hn
    rw [List.foldl_cons, ih _ (fun x hx => h x (by simp [hx])) hn.2, List.find?_cons]
    by_cases he : e.1 = j
    · subst he
      have : r.find? (fun x => x.1 = e.1) = none := by
        rw [List.find?_eq_none]
        intro x hx hc
        exact hn.1 (List.mem_map.mpr ⟨x, hx, by simpa using hc⟩)
      simp [this, getEl_setEl v _ _ (h e (by simp))]
    · have hj : ¬j = e.1 := fun x => he x.symm
      simp only [he, decide_false, getEl_setEl v _ _ (h e (by simp)), hj, if_false]
/-- The value a result leaves in its register, element by element. -/
theorem VOut.getEl_value (o : VOut) (old : BitVec 512) (j : Nat) (h : ∀ e ∈ o.els, (e.1 + 1) * o.w ≤ 512) (hn : (o.els.map (·.1)).Nodup) :
    getEl (o.value old) o.w j =
      match o.els.find? fun e => e.1 = j with
      | some e => (if o.tag = 6 || o.tag = 7 then e.2 % 64 else e.2) % 2 ^ o.w
      | none => getEl old o.w j := getEl_foldl _ _ _ _ h hn

/-! ### Active elements -/

theorem elwise_eq (n : Nat) (act : Nat → Bool) (g : Nat → Nat × Nat) :
    elwise n act g = (((List.range n).filter act).map fun k => (k, (g k).1), ((List.range n).filter act).foldl (fun f k => f ||| (g k).2) 0) := by
  unfold elwise
  have : ∀ (l : List Nat) (a : List (Nat × Nat)) (f : Nat),
      l.foldl (fun z k => if act k then (z.1 ++ [(k, (g k).1)], z.2 ||| (g k).2) else z) (a, f) =
        (a ++ (l.filter act).map fun k => (k, (g k).1), (l.filter act).foldl (fun f k => f ||| (g k).2) f) := by
    intro l
    induction l with
    | nil => intro a f; simp
    | cons k r ih => intro a f; by_cases h : act k <;> simp [h, ih]
  simpa using this (List.range n) [] 0
theorem testBit_foldl_or (l : List Nat) (g : Nat → Nat) (f b : Nat) :
    (l.foldl (fun f k => f ||| g k) f).testBit b = true ↔ f.testBit b = true ∨ ∃ k ∈ l, (g k).testBit b = true := by
  induction l generalizing f with
  | nil => simp
  | cons k r ih => simp [ih, or_assoc]
theorem find_filter_range (n : Nat) (act : Nat → Bool) (g : Nat → Nat) (j : Nat) :
    (((List.range n).filter act).map fun k => (k, g k)).find? (fun e => e.1 = j) = if j < n ∧ act j = true then some (j, g j) else none := by
  split
  · next h =>
    rw [List.find?_eq_some_iff_append]
    refine ⟨by simp, ?_⟩
    obtain ⟨l1, l2, hl⟩ := List.append_of_mem (List.mem_map.mpr ⟨j, by simp [h], rfl⟩ : (j, g j) ∈ ((List.range n).filter act).map fun k => (k, g k))
    refine ⟨l1, l2, hl, ?_⟩
    intro a ha
    have hn : ((((List.range n).filter act).map fun k => (k, g k)).map (·.1)).Nodup := by
      rw [List.map_map]; exact (List.Nodup.filter _ List.nodup_range).map (fun _ _ h => h)
    rw [hl] at hn
    simp only [List.map_append, List.map_cons, List.nodup_append, List.nodup_cons, List.mem_map, List.mem_cons] at hn
    have : a.1 ≠ j := hn.2.2 a.1 ⟨a, ha, rfl⟩ j (.inl rfl)
    simp [this]
  · next h =>
    rw [List.find?_eq_none]
    intro e he hc
    obtain ⟨k, hk, rfl⟩ := List.mem_map.mp he
    simp at hk hc
    subst hc
    exact h hk

/-! ### Instructions none of whose registers is a stream -/

theorem srcBad_plain {r : Frame} {f n : Nat} {ok : Nat → Bool} (h : r.streams.get? n = none) (ho : ok (r.rt n) = true) : r.srcBad f n ok = none := by
  simp [Frame.srcBad, Frame.writes, Frame.stream, h, ho]
theorem dstBad_plain {r : Frame} {f n t : Nat} (h : r.streams.get? n = none) : r.dstBad f n t = none := by
  simp [Frame.dstBad, Frame.reads, Frame.writes, Frame.stream, h]
theorem lane_plain {r : Frame} {g w n : Nat} (h : r.streams.get? g = none) (hn : (n + 1) * w ≤ 512) : r.lane g w n = true := by
  simp [Frame.lane, Frame.laneBytes, Frame.stream, h, hn]
theorem pops_plain (s : State) (i : Instr) (l : List Nat) (h : ∀ n ∈ l, s.cur.streams.get? n = none) : s.pops i l = .got s [] := by
  induction l with
  | nil => rfl
  | cons n r ih =>
    simp only [State.pops, Frame.reads, Frame.stream, h n (by simp), Option.filter_none]
    exact ih fun m hm => h m (by simp [hm])
@[simp] theorem vval_nil (s : State) : s.vval [] = s.cur.rv := rfl
theorem vpush_plain (s : State) (i : Instr) (o : VOut) (v : BitVec 512) (h : ∀ n, o.d = some n → s.cur.streams.get? n = none) :
    s.vpush i o v = .got s () := by
  unfold State.vpush
  cases hd : o.d with
  | none => rfl
  | some n => simp [Frame.writes, Frame.stream, h n hd]
/-- With every check passed and no stream named, the writes follow the calculation. -/
theorem vdo_plain {i : Instr} {chk : Frame → List (Option (Nat × Nat))} {srcs : List Nat} {work : State → (Nat → BitVec 512) → VOut} {s : State}
    (hc : ∀ c ∈ chk s.cur, c = none) (hs : ∀ n ∈ srcs, s.cur.streams.get? n = none)
    (hd : ∀ n, (work s s.cur.rv).d = some n → s.cur.streams.get? n = none) :
    vdo i chk srcs work s =
      let o := work s s.cur.rv
      let v := match o.d with | some n => o.value (s.cur.rv n) | none => 0#512
      let both := match o.d, o.st with | some n, some (e, _) => n == e | _, _ => false
      let t := o.x.foldl (fun s e => s.wvar e.1 e.2) (s.updCur fun r => r.vput (srcs ++ o.d.toList) [] o v (both && Config.freeBit s.tick 0))
      .ok (if both || o.used then t.ticked else t) := by
  have h1 : (chk s.cur).findSome? id = none := by
    rw [List.findSome?_eq_none_iff]; intro c hx; simp [hc c hx]
  unfold vdo
  rw [h1]
  simp only
  rw [pops_plain s i srcs.eraseDups fun n hn => hs n (by simpa using hn)]
  simp only [Got.res, vval_nil]
  rw [vpush_plain s i _ _ hd]
  simp only [List.isEmpty_nil, Bool.not_true, Bool.or_false]
  all_goals rfl

/-- One result register, written element by element from `els`; flags joined; everything else of the firing stays. -/
theorem vdo_one {i : Instr} {chk : Frame → List (Option (Nat × Nat))} {srcs : List Nat} {work : State → (Nat → BitVec 512) → VOut} {s : State}
    {n w tag fl : Nat} {els : List (Nat × Nat)} {push : Option (List Nat)}
    (ho : work s s.cur.rv = { d := some n, w := w, tag := tag, els := els, flags := fl, push := push }) (hc : ∀ c ∈ chk s.cur, c = none)
    (hs : ∀ n ∈ srcs, s.cur.streams.get? n = none) (hd : s.cur.streams.get? n = none) :
    ∃ u, vdo i chk srcs work s = .ok u ∧ u = s.setCur (s.cur.vput (srcs ++ [n]) [] { d := some n, w := w, tag := tag, els := els, flags := fl, push := push }
      (VOut.value { d := some n, w := w, tag := tag, els := els, flags := fl, push := push } (s.cur.rv n)) false) := by
  refine ⟨_, ?_, rfl⟩
  rw [vdo_plain hc hs (by rw [ho]; intro m hm; cases hm; exact hd)]
  rw [ho]
  rfl
/-- The frame after such a write. -/
theorem vput_one (r : Frame) (named : List Nat) (n w tag fl : Nat) (els : List (Nat × Nat)) (push : Option (List Nat)) (v : BitVec 512) :
    let q := r.vput named [] { d := some n, w := w, tag := tag, els := els, flags := fl, push := push } v false
    q.x = r.x ∧ q.p = r.p ∧ q.pc = r.pc ∧ q.rv n = v ∧ q.rt n = tag % 16 ∧ q.fflags = r.fflags ||| BitVec.ofNat 6 fl ∧
      ∀ k, k ≠ n → q.rv k = r.rv k ∧ q.rt k = r.rt k := by
  refine ⟨rfl, rfl, rfl, ?_, ?_, rfl, ?_⟩
  · simp [Frame.vput, Frame.wv, Frame.rv]
  · simp [Frame.vput, Frame.wv, Frame.rt]
  · intro k hk
    simp [Frame.vput, Frame.wv, Frame.rv, Frame.rt, Tab.get_put_ne _ _ _ hk]

end Sys2Proof.Machine
end

