-- ==== Sys2Proof/Tests/Slice0.lean ====
section
/-! SUPPORT. Small checks of the model against the spec's own words and numbers, and for every statement with hypotheses a state and
operands that meet them. -/
open Sys2Proof Sys2Proof.Machine Sys2Proof.Spec
set_option Elab.async false
namespace Sys2Proof.Tests

/-! ### States -/

/-- Core 0 runs frame 0 of context 1: 8 frames, 8 accumulator tiles, 200 scratchpad granules; the 64 MiB page at 0 maps main memory of
die 0, the next one is a CELL page, then a page that may not be read, then one that may only be read. -/
def core0 : Core :=
  { ctxid := 1, issuing := some 0, tvec := 0x2000#64, capw := 7#64, partw := 0x000000C800080008#64,
    tlb := [{ ctx := 1, va := 0, w := 0x7000000000000C00#64 }, { ctx := 1, va := 0x4000000, w := 0x6800000004000C00#64 },
            { ctx := 1, va := 0x8000000, w := 0x3000000008000C00#64 }, { ctx := 1, va := 0xC000000, w := 0x400000000C000C00#64 }] }
/-- x1 0x1004, x4 0x40, x5 3, x6 the scratchpad, x7 −2, x8 a misaligned address, x9 a sheet's table, x10 0xFFF; p1 bit 0; v1 to v3 FP32,
v4 U32, v5 RAW. -/
def frame0 : Frame :=
  ((((((((((((({ stat := .ready, pc := 0x1000#64 } : Frame).wx 1 0x1004#64).wx 4 0x40#64).wx 5 3#64).wx 6 0xFF000000010000#64).wx 7 (-2#64)).wx
    8 0x41#64).wx 9 0x4000000#64).wx 10 0xFFF#64).wp 1 1#64).wv 1 0x3F800000#512 1).wv 2 0x40000000#512 1).wv 3 0#512 1).wv 4 5#512 15
def mk (c : Core) (r : Frame) : State :=
  { State.reset with main := true, cores := ({} : Tab Core).put 0 c, frames := ({} : Tab Frame).put 0 r }
def s0 : State := mk core0 frame0
def nextOf : Out → State
  | .next t => t
  | _ => State.reset
def after (i : Instr) (s : State) : State := nextOf (exec i s)
def xOf (i : Instr) (s : State) (n : Nat) : Word := (after i s).cur.rx n
/-- The firing traps with this cause and values. -/
def trapsWith (i : Instr) (s : State) (cause : Nat) (v1 v2 v3 : Word) : Bool :=
  let r := (after i s).fr s.turn s.fi
  r.cause = BitVec.ofNat 64 cause && r.tval = v1 && r.tval2 = v2 && r.tval3 = v3 && r.handler && r.pc = s.myCore.tvec

theorem s0_ready : Ready s0 [1, 2, 3, 4, 5, 6, 7, 8, 9, 10, 11, 129] := by unfold Ready; decide
theorem s0_traps : TakesTrap s0 s0.turn s0.fi := by unfold TakesTrap; decide
theorem s0_wf : Memory.wf s0.mem = true := rfl
/-- A place in memory, as a check of its address, entry and pool offset. -/
def atMem (p : Place) (f : Nat → Word → Option Nat → Bool) : Bool := match p with | .mem a e o => f a e o | _ => false
theorem atMem_elim {p : Place} {f : Nat → Word → Option Nat → Bool} (h : atMem p f = true) : ∃ a e o, p = .mem a e o ∧ f a e o = true := by
  unfold atMem at h
  split at h
  · exact ⟨_, _, _, rfl, h⟩
  · cases h
def noBuf (s : State) (n : Nat) (ok : List Nat) (off : Option Nat) : Bool := off.all fun o => s.myCore.bufBad o n ok = none
theorem noBuf_elim {s : State} {n : Nat} {ok : List Nat} {off : Option Nat} (h : noBuf s n ok off = true) :
    ∀ o, off = some o → s.myCore.bufBad o n ok = none := by
  rintro o rfl; simpa [noBuf] using h
theorem loadable (s : State) (va n pa : Nat) (h : (isTsc s.turn = false ∧ s.acqWait = false ∧ va < 2 ^ 56 ∧ va % n = 0 ∧
      s.myCore.slogHits va n = false ∧ s.myCore.boardHolds va n false = false) ∧
    atMem (s.place s.turn va n needR) (fun h w off => pa = readPa s.turn h w && !isRemote s h && !holeIn pa n && !s.ownPending s.turn h n &&
      !s.poisonedAt pa n && noBuf s n [2, 3] off) = true) : Loadable s va n pa := by
  obtain ⟨⟨a, b, c, d, e, f⟩, h⟩ := h
  obtain ⟨x, y, z, g, h⟩ := atMem_elim h
  simp only [Bool.and_eq_true, decide_eq_true_eq, Bool.not_eq_true'] at h
  obtain ⟨⟨⟨⟨⟨h1, h2⟩, h3⟩, h4⟩, h5⟩, h6⟩ := h
  exact ⟨a, b, c, d, e, f, x, y, z, g, h1, h2, h3, h4, h5, noBuf_elim h6⟩
theorem storable (s : State) (va n pa : Nat) (rel : Bool) (h : (isTsc s.turn = false ∧ s.cur.saved = [] ∧ s.loadWait = false ∧ va < 2 ^ 56 ∧
      va % n = 0 ∧ (rel = true → s.relWaits true s.pkg = false) ∧ s.myCore.boardHolds va n true = false ∧ s.myCore.slogHits va n = false) ∧
    atMem (s.place s.turn va n needW) (fun a w off => a = pa && pkgOf pa = s.pkg && !holeIn pa n && !entCell w && !entRdup w && !s.lineHeld pa &&
      noBuf s n [0] off) = true) : Storable s va n pa rel := by
  obtain ⟨⟨a, b, c, d, e, f, g, i⟩, h⟩ := h
  obtain ⟨x, y, z, p, h⟩ := atMem_elim h
  simp only [Bool.and_eq_true, decide_eq_true_eq, Bool.not_eq_true'] at h
  obtain ⟨⟨⟨⟨⟨⟨rfl, h1⟩, h2⟩, h3⟩, h4⟩, h5⟩, h6⟩ := h
  exact ⟨a, b, c, d, e, f, g, i, y, z, p, h1, h2, h3, h4, h5, noBuf_elim h6⟩
theorem atomicAt (s : State) (va n pa : Nat) (rel wide : Bool) (h : (isTsc s.turn = false ∧ s.cur.saved = [] ∧ s.loadWait = false ∧ va < 2 ^ 56 ∧ va % n = 0 ∧
      (rel = true → s.relWaits wide 0xFFFF = false) ∧ s.myCore.slogHits va n = false ∧ s.myCore.boardHolds va n true = false) ∧
    (s.rdup.any fun r => spans r.pa r.bytes.length pa n && r.dies.contains (dieOf s.turn)) = false ∧
    atMem (s.place s.turn va n needRW) (fun a w off => a = pa && !entCell w && !entRdup w && !isRemote s pa && !holeIn pa n &&
      !s.ownPending s.turn pa n && !s.poisonedAt pa n && !s.lineHeld pa && noBuf s n [0] off) = true) : AtomicAt s va n pa rel wide := by
  obtain ⟨⟨a, q, b, c, d, e, f, g⟩, i, h⟩ := h
  obtain ⟨x, y, z, p, h⟩ := atMem_elim h
  simp only [Bool.and_eq_true, decide_eq_true_eq, Bool.not_eq_true'] at h
  obtain ⟨⟨⟨⟨⟨⟨⟨⟨rfl, h1⟩, h2⟩, h3⟩, h4⟩, h5⟩, h6⟩, h7⟩, h8⟩ := h
  refine ⟨a, ?_, b, c, d, e, f, g, y, z, p, h1, h2, h3, h4, h5, h6, h7, i, noBuf_elim h8⟩
  intro v hv; rw [q] at hv; cases hv
/-- A read or write that gives a value and leaves the firing, as a check of the value. -/
def gives {α : Type} (s : State) (g : Got α) (p : α → Bool) : Bool :=
  match g with
  | .got t v => t.cur = s.cur && t.turn = s.turn && t.myCore.outbox = s.myCore.outbox && p v
  | .stop _ => false

/-! ### Well-formedness refuses what the encoding does not admit (R37, R46) -/

theorem wf_csr_number : (Instr.csrr false 3#6 0x006#12).wf = false ∧ (Instr.csrw false 3#6 0x400#12).wf = false ∧
    (Instr.csrx false 3#6 4#6 0x016#12).wf = false := by decide
theorem wf_fields : (Instr.bfx false 3#6 4#6 false 0#7 0#6).wf = false ∧ (Instr.bfx false 3#6 4#6 false 33#7 32#6).wf = false ∧
    (Instr.bfi false 3#6 4#6 0#7 0#6).wf = false ∧ (Instr.bcmp false 6#4 3#6 4#6 0#32).wf = false := by decide
/-- R41: LD has no release, ST no acquire. -/
theorem wf_order : (Instr.ld false 3#6 4#6 3#2 2#2 0#6).wf = false ∧ (Instr.ldLit false 3#6 4#6 3#2 2#2 0#64).wf = false ∧
    (Instr.ldz false 3#6 4#6 3#2 2#2 0#6).wf = false ∧ (Instr.ldzLit false 3#6 4#6 3#2 2#2 0#64).wf = false ∧
    (Instr.st false 3#6 4#6 3#2 1#2 0#6).wf = false ∧ (Instr.stLit false 3#6 4#6 3#2 1#2 0#64).wf = false := by decide
theorem wf_atomics : (Instr.amoadd false 3#6 4#6 5#6 1#2 0#3 0#4 0#32).wf = false ∧ (Instr.amoadd false 3#6 4#6 5#6 3#2 6#3 1#4 0#32).wf = false ∧
    (Instr.amocas false 3#6 4#6 5#6 6#6 3#2 0#3 5#4 0#32).wf = false ∧ (Instr.amoswp false 3#6 4#6 5#6 3#2 1#3 0#4 0#32).wf = false ∧
    (Instr.amofadd false 3#6 4#6 5#6 0#2 1#2 0#3 0#4 0#32).wf = false ∧ (Instr.amofadd false 3#6 4#6 5#6 3#2 1#2 0#3 0#4 0#32).wf = false ∧
    (Instr.fence false 0#2 6#3).wf = false ∧ (Instr.waita false 3#6 4#6 5#6 6#6 7#6 8#4 3#2 0#3 0#4 0#32).wf = false ∧
    (Instr.waitaLit false 3#6 4#6 5#6 6#6 7#6 0#4 3#2 0#3 2#4 0#64).wf = false := by decide
theorem wf_vectors : (Instr.vcmp false 6#4 1#3 1#5 2#5 0#3).wf = false ∧ (Instr.vcvt false 1#5 2#5 0#6 0#3 0#3 0#3 9#4).wf = false ∧
    (Instr.vcvt false 1#5 2#5 0#6 0#3 0#3 5#3 1#4).wf = false ∧ (Instr.vqnt false 1#5 2#5 0#6 3#6 0#3 0#3 3#4).wf = false ∧
    (Instr.vdqnt false 1#5 2#5 0#6 3#6 0#3 0#3 0#3 4#4).wf = false ∧ (Instr.vred false 1#5 2#5 0#3 5#4).wf = false ∧
    (Instr.fmtget false 1#6 16#5 true).wf = false ∧ (Instr.fmtset false 1#5 true 2#4).wf = false ∧
    (Instr.vstrm false 23#5 2#6 0#32).wf = false ∧ (Instr.vstop false 2#6 23#5).wf = false := by decide
theorem wf_rest : (Instr.bufset false 3#5 1#4).wf = false ∧ (Instr.send false 0#6 1#6 2#6 false false false 1#6 5#6 8#32).wf = false ∧
    (Instr.send false 0#6 1#6 2#6 false false true 1#6 5#6 257#32).wf = false ∧ (Instr.sendr false 0#6 1#6 false 257#32).wf = false ∧
    (Instr.join false 4#6 1#6 2#6).wf = false ∧ (Instr.join false 11#6 1#6 2#6).wf = false ∧ (Instr.cstat false 1#6 2#6 0#16 3#4).wf = false ∧
    (Instr.cstat false 1#6 2#6 8#16 2#4).wf = false ∧ (Instr.klook false 1#6 2#6 3#6 4#6 2#4).wf = false := by decide

/-! ### Words the spec writes out decode to the instructions they stand for -/

/-- R39, R45, R120 and the programs' listings. -/
theorem decode_scalar :
    decodeList [0x01C61408#32] = .ok (.add false 5#6 6#6 7#6) ∧ decodeList [0x01C6140C#32] = .ok (.add true 5#6 6#6 7#6) ∧
    decodeList [0x10C92408#32] = .ok (.sub false 9#6 9#6 3#6) ∧ decodeList [0x814B3408#32] = .ok (.remn false 13#6 11#6 5#6) ∧
    decodeList [0x19001C50#32] = .ok (.limm false 7#6 100#10) ∧
    decodeList [0x00001C51#32, 0x9ABCDEF0#32, 0x12345678#32] = .ok (.limmLit false 7#6 0x123456789ABCDEF0#64) ∧
    decodeList [0x00025029#32, 0x000FFFFF#32, 0#32] = .ok (.andiLit false 20#6 2#6 0xFFFFF#64) ∧
    decodeList [0x00145421#32, 0x00000D00#32, 0#32] = .ok (.addiLit false 21#6 20#6 0xD00#64) ∧
    decodeList [0x20000000#32] = .ok (.endFiring false) := by decide
/-- R40, R115, R118, R125. -/
theorem decode_control :
    decodeList [0xFFE86880#32] = .ok (.bnez false 3#6 (-3)) ∧ decodeList [0x00004098#32] = .ok (.call false 16#22) ∧
    decodeList [0x000700A0#32] = .ok (.jr false 7#6) ∧ decodeList [0x100000A0#32] = .ok (.ret false) ∧
    decodeList [0x200900A0#32] = .ok (.callr false 9#6) ∧ decodeList [0x003E00C0#32] = .ok (.trap false 62#6) ∧
    decodeList [0x100000C0#32] = .ok (.eret false) ∧ decodeList [0x000014CA#32, 0x00120000#32, 0#32] = .ok (.csrr false 5#6 0x012#12) ∧
    decodeList [0x18A00092#32, 0#32, 0x18#32] = .ok (.bcmp false 1#4 32#6 34#6 24#32) := by decide
/-- R41, R122, R222, R226 to R232. -/
theorem decode_memory :
    decodeList [0x0D822100#32] = .ok (.ld false 8#6 2#6 2#2 1#2 3#6) ∧ decodeList [0x049F850C#32] = .ok (.ldz true 33#6 31#6 2#2 0#2 1#6) ∧
    decodeList [0x008A2D09#32, 0x100#32, 0#32] = .ok (.ldzLit false 11#6 10#6 2#2 0#2 0x100#64) ∧
    decodeList [0x00421911#32, 0xF00#32, 0#32] = .ok (.stLit false 6#6 2#6 1#2 0#2 0xF00#64) ∧
    decodeList [0x91871542#32, 0x00333008#32, 0#32] = .ok (.amocas false 5#6 7#6 6#6 8#6 3#2 3#3 3#4 0#32) ∧
    decodeList [0x03CD4142#32, 0x00300000#32, 0#32] = .ok (.amoadd false 16#6 13#6 15#6 3#2 0#3 0#4 0#32) ∧
    decodeList [0x300C2952#32, 0x003512CD#32, 5#32] = .ok (.waita false 10#6 12#6 0#6 11#6 13#6 3#4 3#2 5#3 1#4 5#32) ∧
    decodeList [0x000C2953#32, 0x003002CD#32, 0#32, 0#32, 1#32] = .ok (.waitaLit false 10#6 12#6 0#6 11#6 13#6 0#4 3#2 0#3 0#4 0x100000000#64) ∧
    decodeList [0x00001558#32] = .ok (.bar false 5#6) ∧ decodeList [0x10001558#32] = .ok (.bararv false 5#6) ∧
    decodeList [0x21C61558#32] = .ok (.barwt false 5#6 6#6 7#6) := by decide
/-- R133 to R154. -/
theorem decode_vector :
    decodeList [0x04310588#32] = .ok (.vadd false 1#5 2#5 3#5 2#3) ∧ decodeList [0x70629188#32] = .ok (.vfma false 4#5 5#5 6#5 0#3) ∧
    decodeList [0x00839D90#32] = .ok (.viadd false 7#5 7#5 8#5 0#3) ∧ decodeList [0x20208D98#32] = .ok (.vcmp false 2#4 3#3 1#5 2#5 0#3) ∧
    decodeList [0x8820A598#32] = .ok (.vsel false 9#5 1#5 2#5 4#3) ∧
    decodeList [0x000119A2#32, 0x00082000#32, 0#32] = .ok (.vcvt false 6#5 1#5 0#6 0#3 1#3 0#3 2#4) ∧
    decodeList [0x10031DA2#32, 0x00008300#32, 0#32] = .ok (.vqnt false 7#5 3#5 0#6 12#6 0#3 0#3 8#4) ∧
    decodeList [0x200721A2#32, 0x00002300#32, 0#32] = .ok (.vdqnt false 8#5 7#5 0#6 12#6 0#3 0#3 0#3 2#4) ∧
    decodeList [0x000105A8#32] = .ok (.vexp2 false 1#5 2#5 0#3) ∧ decodeList [0x3005A9A8#32] = .ok (.vrsq false 10#5 11#5 0#3) ∧
    decodeList [0x001805B2#32, 0x00001000#32, 0#32] = .ok (.vred false 1#5 24#5 0#3 1#4) ∧
    decodeList [0x101809B2#32, 0x00000241#32, 0#32] = .ok (.vsmxStep false 2#5 24#5 9#5 1#3) ∧
    decodeList [0x001415BA#32, 0#32, 0#32] = .ok (.vrand false 5#5 20#6 0#3) ∧
    decodeList [0x018511C2#32, 0#32, 0#32] = .ok (.vperm false 4#5 5#5 6#5 0#3) ∧
    decodeList [0x20012DC2#32, 0#32, 0#32] = .ok (.vmovx false 11#6 1#5 0#7) ∧
    decodeList [0x50000DC2#32, 0x00002000#32, 0#32] = .ok (.fmtset false 3#5 false 2#4) ∧
    decodeList [0x100011C3#32, 0x00001000#32, 0#32, 0x3FC00000#32, 0#32] = .ok (.vbcastLit false 4#5 0#3 1#4 0x3FC00000#64) ∧
    decodeList [0x00020D82#32, 0x00002000#32, 0x80#32] = .ok (.vld false 3#5 2#6 0#3 2#4 0x80#32) ∧
    decodeList [0x100261CA#32, 0#32, 0#32] = .ok (.vstrm false 24#5 2#6 0#32) ∧ decodeList [0x201829CA#32, 0#32, 0#32] = .ok (.vstop false 10#6 24#5) ∧
    decodeList [0x000901CA#32, 0#32, 0#32] = .ok (.vloop false 9#6 0#4) ∧ decodeList [0x600315D0#32] = .ok (.vpopc false 1#2 5#5 6#5 0#3) := by decide
/-- R157 to R183. -/
theorem decode_engines :
    decodeList [0x000C0202#32, 0x00000595#32, 0#32] = .ok (.mxmul false 12#6 0#6 22#6 21#6) ∧
    decodeList [0x0595020A#32, 0x00000014#32, 0#32] = .ok (.mxdrn false 21#6 22#6 20#6) ∧
    decodeList [0x00400A10#32] = .ok (.mxclr false 2#4 false) ∧ decodeList [0x10001610#32] = .ok (.mxwait false 5#6) ∧
    decodeList [0x20001610#32] = .ok (.mxstat false 5#6) ∧
    decodeList [0x034C261A#32, 0x000002CA#32, 0#32] = .ok (.mxrem false 9#6 12#6 13#6 11#6 10#6) ∧
    decodeList [0x034C0222#32, 0x000002CA#32, 0#32] = .ok (.cpy false 12#6 13#6 11#6 10#6) ∧
    decodeList [0x00001628#32] = .ok (.cpywait false 5#6) ∧ decodeList [0x10001628#32] = .ok (.cpystat false 5#6) ∧
    decodeList [0x01850232#32, 0x00030000#32, 0#32] = .ok (.bufdcl false 5#6 6#6 3#5) ∧
    decodeList [0x10000232#32, 0x00032000#32, 0#32] = .ok (.bufset false 3#5 2#4) ∧
    decodeList [0x20001E32#32, 0x00030000#32, 0#32] = .ok (.bufqry false 7#6 3#5) := by decide
/-- R313 to R328. -/
theorem decode_messages :
    decodeList [0x03890242#32, 0x00050000#32, 8#32] = .ok (.send false 0#6 9#6 14#6 false false false 0#6 5#6 8#32) ∧
    decodeList [0x03890242#32, 0x20050000#32, 8#32] = .ok (.send false 0#6 9#6 14#6 false true false 0#6 5#6 8#32) ∧
    decodeList [0x03C04246#32, 0x00001018#32, 0#32] = .ok (.sendReplay true 16#6 15#6 24#6) ∧
    decodeList [0x11C01642#32, 0#32, 16#32] = .ok (.sendr false 5#6 7#6 false 16#32) ∧
    decodeList [0x00092248#32] = .ok (.msgld false 8#6 9#6) ∧ decodeList [0x00061650#32] = .ok (.tagen false 5#6 6#6) ∧
    decodeList [0x20060250#32] = .ok (.hold false 0#6 6#6) ∧ decodeList [0x30060250#32] = .ok (.release false 0#6 6#6) ∧
    decodeList [0x41C61650#32] = .ok (.setpri false 5#6 6#6 7#6) ∧ decodeList [0x01C61662#32, 0#32, 0#32] = .ok (.spawn false 5#6 6#6 7#6) ∧
    decodeList [0x138D3268#32] = .ok (.join false 12#6 13#6 14#6) ∧ decodeList [0x01C61672#32, 8#32, 0#32] = .ok (.qpush false 5#6 6#6 7#6 8#6) ∧
    decodeList [0x20061672#32, 0#32, 0#32] = .ok (.qstat false 5#6 6#6) := by decide
/-- R262 to R271. -/
theorem decode_cells :
    decodeList [0x05541682#32, 0x00030000#32, 0#32] = .ok (.cdef false 5#6 20#6 21#6 3#16) ∧
    decodeList [0x15941682#32, 0x00020000#32, 0#32] = .ok (.cbind false 5#6 20#6 22#6 2#16) ∧
    decodeList [0x20141682#32, 0x00020000#32, 0#32] = .ok (.cunb false 5#6 20#6 2#16) ∧
    decodeList [0x05D41A8A#32, 0x000401D8#32, 0#32] = .ok (.cld false 6#6 20#6 23#6 7#6 24#6 4#16) ∧
    decodeList [0x1654168A#32, 0x00000018#32, 0#32] = .ok (.cst false 5#6 20#6 25#6 24#6 0#16) ∧
    decodeList [0x00145E92#32, 0x000001C0#32, 0#32] = .ok (.csnap false 23#6 20#6 7#6) ∧
    decodeList [0x15D40292#32, 0#32, 0#32] = .ok (.cunsnap false 20#6 23#6) ∧
    decodeList [0x26941692#32, 0x00001000#32, 0#32] = .ok (.cgenHold false 5#6 20#6 26#6) ∧
    decodeList [0x22D41696#32, 0x00004018#32, 0#32] = .ok (.cgenWaitgen true 5#6 20#6 11#6 24#6) ∧
    decodeList [0x30143E96#32, 0x00022000#32, 0#32] = .ok (.cstat true 15#6 20#6 2#16 2#4) ∧
    decodeList [0x000A2698#32] = .ok (.cprec false 9#6 10#6) ∧ decodeList [0x10001698#32] = .ok (.ccommit false 5#6 0#6) := by decide
/-- R338 to R351, R375 to R381, R422 to R432. -/
theorem decode_units :
    decodeList [0x01C616A2#32, 8#32, 0#32] = .ok (.kappend false 5#6 6#6 7#6 8#6) ∧
    decodeList [0x020716AA#32, 0x00001180#32, 0#32] = .ok (.klook false 5#6 7#6 8#6 6#6 1#4) ∧
    decodeList [0x120716AA#32, 0x01430189#32, 0#32] = .ok (.kqry false 5#6 7#6 8#6 6#6 9#6 20#6 3#4) ∧
    decodeList [0x21C616AA#32, 8#32, 0#32] = .ok (.krehome false 5#6 6#6 7#6 8#6) ∧
    decodeList [0x000616B0#32] = .ok (.flpop false 5#6 6#6) ∧ decodeList [0x11C616B0#32] = .ok (.flpush false 5#6 6#6 7#6) ∧
    decodeList [0x01C616C2#32, 0#32, 0#32] = .ok (.lncfg false 5#6 6#6 7#6) ∧ decodeList [0x300616C2#32, 0#32, 0#32] = .ok (.lnstat false 5#6 6#6) ∧
    decodeList [0x01C616EA#32, 8#32, 0#32] = .ok (.cgform false 5#6 6#6 7#6 8#6) ∧
    decodeList [0x21C616EA#32, 0x00000209#32, 0#32] = .ok (.cgwait false 5#6 6#6 7#6 8#6 9#6) ∧
    decodeList [0x01C61702#32, 0x00000248#32, 0#32] = .ok (.tlbw false 5#6 6#6 7#6 9#6 8#6) ∧
    decodeList [0x11C61702#32, 8#32, 0#32] = .ok (.tlbinv false 5#6 6#6 7#6 8#6) ∧
    decodeList [0x20061702#32, 0x00000248#32, 0#32] = .ok (.tlbprb false 5#6 6#6 9#6 8#6) ∧
    decodeList [0x0006170A#32, 0#32, 0#32] = .ok (.capset false 5#6 6#6) ∧ decodeList [0x00061718#32] = .ok (.slogq false 5#6 6#6) := by decide
/-- R46: the number of the first check that fails. -/
theorem decode_refuses :
    decodeList [0x00000078#32] = .error 1 ∧ decodeList [0x00000009#32, 0#32, 0#32] = .error 2 ∧
    decodeList [0x00000010#32 ||| 0xF0000000#32] = .error 4 ∧ decodeList [0x00000400#32] = .error 5 ∧
    decodeList [0x000014CA#32, 0x00060000#32, 0#32] = .error 7 := by decide
/-- R29: an encoded word decodes to what was encoded, at the ends of a field's range. -/
theorem encode_ends : decodeList (encode (.add true 63#6 63#6 63#6)) = .ok (.add true 63#6 63#6 63#6) ∧
    decodeList (encode (.ldLit false 63#6 0#6 3#2 3#2 (-8#64))) = .ok (.ldLit false 63#6 0#6 3#2 3#2 (-8#64)) := by decide

/-! ### One step each, with the result the spec gives -/

theorem test_add_wraps : xOf (.add false 3#6 7#6 5#6) s0 3 = 1#64 := by decide
/-- R108: the corners of division. -/
theorem test_div_by_zero : xOf (.div false 3#6 7#6 2#6) s0 3 = 0xFFFFFFFFFFFFFFFF#64 ∧ xOf (.rem false 3#6 7#6 2#6) s0 3 = -2#64 := by decide
theorem test_mulh_signs : xOf (.mulh false 3#6 7#6 5#6) s0 3 = -1#64 ∧ xOf (.mulhn false 3#6 7#6 5#6) s0 3 = 2#64 := by decide
theorem test_sra_keeps_sign : xOf (.sra false 3#6 7#6 5#6) s0 3 = -1#64 ∧ xOf (.srai false 3#6 7#6 63#6) s0 3 = -1#64 := by decide
theorem test_slt_signed : xOf (.slt false 3#6 7#6 5#6) s0 3 = 1#64 ∧ xOf (.sltn false 3#6 7#6 5#6) s0 3 = 0#64 := by decide
/-- R34: a write to x0 is discarded. -/
theorem test_x0 : xOf (.addi false 0#6 5#6 1#10) s0 0 = 0#64 := by decide
theorem test_popc_bytes : xOf (.popc false 0#2 3#6 7#6) s0 3 = 0x0808080808080807#64 := by decide
/-- R111: relative to the instruction's own address. -/
theorem test_adpc : xOf (.adpc false 3#6 (-1)) s0 3 = 0xFFC#64 := by decide
theorem test_bfx_signed : xOf (.bfx false 3#6 5#6 true 1#7 1#6) s0 3 = -1#64 := by decide
theorem test_branch : (after (.bltz false 7#6 (-2)) s0).cur.pc = 0xFF8#64 ∧ (after (.bgez false 7#6 (-2)) s0).cur.pc = 0x1004#64 := by decide
/-- R118: the link is the next instruction. -/
theorem test_call : (after (.call false 16#22) s0).cur.pc = 0x1040#64 ∧ xOf (.call false 16#22) s0 1 = 0x1004#64 := by decide
theorem test_jump_misaligned : trapsWith (.jr false 5#6) s0 3 3#64 0x000500A0#64 0#64 = true := by decide
theorem test_trap : trapsWith (.trap false 5#6) s0 0x14 3#64 0#64 0#64 = true ∧ (after (.trap false 5#6) s0).cur.epc = 0x1004#64 := by decide
theorem test_eret_outside : trapsWith (.eret false) s0 0x15 0x100000C0#64 0#64 0#64 = true := by decide
/-- R32, with the spec's own program: the marker removed, ADD x8, x5, x6 traps with register 5. -/
theorem test_group_hazard : trapsWith (.add false 8#6 5#6 6#6) (s0.updCur fun r => { r with out := [5], unret := 0 }) 2 0x01852008#64 5#64 0#64 = true := by decide
/-- R78: LIM takes 16 for 0. -/
theorem test_csr_obuflim : (after (.csrw false 2#6 3#12) s0).csr 3#12 = 16#64 := by decide
theorem test_csr_priv : ((after (.csrr false 3#6 0xC00#12) s0).fr 0 0).stat = .stopped ∧ ((after (.csrr false 3#6 0xC00#12) s0).fr 0 0).cause = 0x80#64 := by decide
theorem test_load_signed : xOf (.ld false 3#6 4#6 0#2 0#2 0#6) (s0.wrN 0x40 2 0x11F0) 3 = -16#64 ∧
    xOf (.ldz false 3#6 4#6 1#2 0#2 0#6) (s0.wrN 0x40 2 0x11F0) 3 = 0x11F0#64 := by decide
theorem test_store_low_byte : ((after (.st false 7#6 4#6 0#2 0#2 1#6) s0).rd 0x41, (after (.st false 7#6 4#6 0#2 0#2 1#6) s0).rd 0x42) = (0xFE#8, 0#8) := by decide
theorem test_load_misaligned : trapsWith (.ld false 3#6 8#6 1#2 0#2 0#6) s0 3 0x41#64 0x00480D00#64 0#64 = true := by decide
theorem test_store_unmapped_logs : (after (.stLit false 5#6 0#6 3#2 0#2 0x10000000#64) s0).myCore.slog.keys = [0] := by decide
theorem test_pref_counts : (after (.prefLit false 0#6 3#2 0x10000000#64) s0).myCore.prefdrop = 1#64 := by decide
/-- R222: AMOMIN compares signed; the old value comes back. -/
theorem test_amomin : xOf (.amomin false 3#6 4#6 7#6 2#2 0#3 0#4 0#32) (s0.wrN 0x40 4 5) 3 = 5#64 ∧
    (after (.amomin false 3#6 4#6 7#6 2#2 0#3 0#4 0#32) (s0.wrN 0x40 4 5)).rdN 0x40 4 = 0xFFFFFFFE := by decide
theorem test_amocas_fails : (after (.amocas false 3#6 4#6 5#6 7#6 2#2 0#3 0#4 0#32) (s0.wrN 0x40 4 5)).rdN 0x40 4 = 5 := by decide
/-- R223: 1.0 + 2.0 in FP32. -/
theorem test_amofadd : (after (.amofadd false 3#6 4#6 5#6 0#2 2#2 0#3 0#4 0#32) ((s0.wrN 0x40 4 0x3F800000).updCur fun r => r.wx 5 0x40000000#64)).rdN 0x40 4 = 0x40400000 := by decide
theorem test_waita_at_once : xOf (.waita false 3#6 4#6 0#6 11#6 0#6 0#4 3#2 0#3 0#4 0#32) s0 11 = 1#64 ∧
    xOf (.waita false 3#6 4#6 0#6 11#6 0#6 1#4 3#2 0#3 0#4 0#32) s0 11 = 0#64 := by decide
theorem test_vadd : ((after (.vadd false 3#5 1#5 2#5 0#3) s0).cur.rv 3).toNat % 2 ^ 32 = 0x40400000 ∧ (after (.vadd false 3#5 1#5 2#5 0#3) s0).cur.rt 3 = 1 := by decide +kernel
theorem test_vadd_masked : ((after (.vadd false 3#5 1#5 2#5 1#3) s0).cur.rv 3).toNat / 2 ^ 32 = 0 := by decide +kernel
theorem test_vadd_format : trapsWith (.vadd false 3#5 4#5 2#5 0#3) s0 8 0x00220D88#64 1#64 15#64 = true := by decide
theorem test_vcmp : (after (.vcmp false 2#4 2#3 1#5 2#5 0#3) s0).cur.rp 2 = 1#64 := by decide +kernel
/-- R144: with seed 0 and X[a] 0 lane 0 is 0. -/
theorem test_vrand : ((after (.vrand false 5#5 0#6 0#3) s0).cur.rv 5).toNat % 2 ^ 32 = 0 := by decide +kernel
theorem test_vred : ((after (.vred false 3#5 1#5 0#3 0#4) s0).cur.rv 3).toNat = 0x3F800000 := by decide +kernel
theorem test_mxclr : (after (.mxclr false 2#4 false) s0).myCore.mx.queue.map (·.op) = [3] := by decide
theorem test_bufdcl_range : trapsWith (.bufdcl false 4#6 4#6 3#5) s0 5 (0xFF000000000040#64) 0x0104_0232#64 0#64 = true := by decide
/-- R313: codes 1 and 2. -/
theorem test_send_codes : xOf (.send false 3#6 7#6 4#6 true false false 0#6 5#6 8#32) s0 3 = 1#64 ∧
    xOf (.send false 3#6 5#6 4#6 true false false 0#6 60#6 8#32) s0 3 = 2#64 := by decide
theorem test_msgld_none : xOf (.msgld false 3#6 4#6) s0 3 = 0#64 := by decide
theorem test_release_limit : xOf (.release false 3#6 5#6) s0 3 = 0x10000#64 := by decide
theorem test_qpush_badq : xOf (.qpush false 3#6 7#6 4#6 0#6) s0 3 = 7#64 := by decide
theorem test_cprec_outside : xOf (.cprec false 3#6 4#6) s0 3 = 0#64 := by decide
theorem test_flpop_baddie : xOf (.flpop false 3#6 7#6) s0 3 = 0x12#64 := by decide +kernel
theorem test_lnstat_badslot : xOf (.lnstat false 3#6 7#6) s0 3 = 0x12#64 := by decide
theorem test_flow_badflow : xOf (.flowClose false 3#6 5#6) s0 3 = 0xA#64 := by decide
theorem test_cgwait_badgroup : xOf (.cgwait false 3#6 4#6 5#6 6#6 0#6) s0 3 = 2#64 := by decide
theorem test_capset_drops : xOf (.capset false 3#6 5#6) s0 3 = 3#64 := by decide
theorem test_tlbw_priv : ((after (.tlbw false 3#6 4#6 5#6 6#6 7#6) s0).fr 0 0).cause = 0x80#64 := by decide
theorem test_tlbprb : xOf (.tlbprb false 3#6 4#6 11#6 0#6) s0 11 = 1#64 := by decide
/-- R438: with MAIN down no unit acts. -/
theorem test_main_down : exec (.selectorDecision 0) State.reset = .next State.reset := rfl
/-- R444: 400 to 3,200 watts. -/
theorem test_pwrlim : (nextOf (exec (.pwrlim 100#64) { State.reset with stby := true })).mgmt.pwrlim = 400 := by decide
theorem test_doorbell_broken : (nextOf (exec (.doorbell 0 0 3#32) (s0.setUq 0 0 { enable := true, log2 := 1 }))).uq 0 0 |>.error := by decide

/-! ### States and operands that meet the hypotheses of the statements, clause by clause -/

theorem witness_DecodeEncode : (Instr.ldLit true 63#6 63#6 3#2 3#2 (-8#64)).wf = true ∧ (Instr.ldLit true 63#6 63#6 3#2 3#2 (-8#64)).isWord = true := by decide
/-- The words of MULH, and a word of no major, at the pc. -/
theorem witness_StepRunsDecoded :
    let s := s0.wrN 0x1000 4 0x338D3008
    let u := s0.wrN 0x1000 4 0x78
    (s.agenda = [] ∧ s.unitTurn = false ∧ s.canIssue s.turn = true ∧ s.fetch s.turn s.fi s.cur.pc.toNat = .ok [0x338D3008#32] ∧
      decodeList ([0x338D3008#32] ++ [0#32, 0#32, 0#32, 0#32, 0#32]) = .ok (.mulh false 12#6 13#6 14#6)) ∧
    u.canIssue u.turn = true ∧ u.fetch u.turn u.fi u.cur.pc.toNat = .ok [0x78#32] ∧
      decodeList ([0x78#32] ++ [0#32, 0#32, 0#32, 0#32, 0#32]) = .error 1 :=
  ⟨⟨rfl, rfl, rfl, rfl, rfl⟩, rfl, rfl, rfl⟩
/-- Registers ready, for the statements on integer instructions, constants and fields. -/
theorem witness_IntegerInstructions : Ready s0 [(4#6).toNat, (5#6).toNat, (3#6).toNat] := by unfold Ready; decide
theorem witness_ImmediateOperations : Ready s0 [(4#6).toNat, (0#6).toNat] := by unfold Ready; decide
theorem witness_ConstantsBitsAndFields : Ready s0 [(4#6).toNat, (3#6).toNat] ∧ 1 ≤ (64#7).toNat ∧ (0#6).toNat + (64#7).toNat ≤ 64 ∧
    (63#6).toNat + (1#7).toNat ≤ 64 := by
  unfold Ready
  decide +kernel
theorem witness_FixedFrame : fixedOps (.adpc false 3#6 0#10) = some ([3], 3#6) ∧ Ready s0 [3] ∧ s0.cur.deferred = [] ∧
    exec (.adpc false 3#6 0#10) s0 = .next (after (.adpc false 3#6 0#10) s0) := ⟨rfl, by unfold Ready; decide, rfl, rfl⟩
/-- x0 is zero, x5 above and x7 below it; p0 has a bit and p2 none. -/
theorem witness_Branches : Ready s0 [0, 128] ∧ Ready s0 [7, 130] ∧ s0.x 0#6 = 0#64 ∧ (s0.x 7#6).toInt < 0 ∧ (s0.x 5#6).toInt > 0 ∧
    (s0.cur.rp 0).getLsbD 0 = true ∧ s0.cur.rp 2 = 0#64 := by
  unfold Ready
  decide +kernel
theorem witness_CompareAndBranch : Ready s0 [4, 5] ∧ (5#4).toNat ≤ 5 ∧ s0.x 4#6 ≠ s0.x 5#6 ∧ s0.x 4#6 = s0.x 4#6 ∧ (s0.x 7#6).toInt < (s0.x 5#6).toInt ∧
    (s0.x 7#6).toNat ≥ (s0.x 5#6).toNat := by
  unfold Ready
  decide +kernel
/-- A word-aligned target and one that is not; a table read, one behind its length, one misaligned. -/
theorem witness_CallsJumpsAndTables : Ready s0 [4, 1] ∧ (s0.x 4#6).toNat % 4 = 0 ∧ (s0.x 1#6).toNat % 4 = 0 ∧ (s0.x 5#6).toNat % 4 ≠ 0 ∧
    TakesTrap s0 s0.turn s0.fi ∧ ((s0.updCur fun r => r.wx 1 6#64).x 1#6).toNat % 4 ≠ 0 ∧ (s0.x 5#6).toNat ≥ (3#16).toNat ∧ (s0.x 5#6).toNat < (4#16).toNat ∧
    gives s0 (s0.load (.jtab false 5#6 4#6 4#16) (s0.x 4#6 + 4#64 * s0.x 5#6) 4 3 regLoad) (fun _ => true) = true := by
  unfold Ready TakesTrap
  decide +kernel
theorem witness_FiringControl :
    let g : Gang := { launch := 1, rank := 0, cores := [0, 4], steal := 0, bar := 0, code := [] }
    Ready s0 [] ∧ s0.myCore.gang = none ∧ s0.cur.src = .launch ∧ (s0.updMine fun c => { c with gang := some g }).myCore.gang = some g ∧
    (g.cores.filter fun j => campOf j = campOf 0).length < 2 ∧ s0.cur.unret = 0 ∧ s0.cur.waits = [] ∧ s0.cur.deferred = [] ∧ s0.cur.joinc = 0#64 ∧
    (s0.updCur fun r => { r with unret := 1 }).cur.unret ≠ 0 ∧ Clear s0.cur ∧ s0.cur.hold = .no ∧ s0.cur.ending = false ∧ s0.cur.owed = none ∧
    (let h : Gang := { g with cores := [0, 1] }
     let t := s0.updMine fun c => { c with gang := some h }
     t.myCore.gang = some h ∧ t.cur.expired = false ∧ (1#12 : BitVec 12) ≠ 0#12 ∧ (h.cores.filter fun j => campOf j = campOf 0).length ≥ 2 ∧
       (h.cores.filter fun j => campOf j = campOf 0).head? = some 0 ∧ t.atAlign 1 t.cur.pc = false) ∧
    (let e := (s0.wrN 0x40 8 2).updCur fun r => { r with joinc := 0x40#64 }
     e.cur.joinc ≠ 0#64 ∧ (match e.atomic (.endFiring false) e.cur.joinc 8 { rel := true, wide := true } (fun v => (some (v + 2 ^ 64 - 1), ())) with
       | .got _ _ => true | _ => false) = true) := by
  unfold Ready Clear
  decide +kernel
theorem witness_TrapsByInstruction : Ready s0 [5] ∧ TakesTrap s0 s0.turn s0.fi ∧ s0.cur.now = false ∧ s0.cur.handler = false ∧
    (s0.updCur fun r => { r with handler := true }).cur.handler = true := ⟨by unfold Ready; decide, s0_traps, rfl, rfl, rfl⟩
theorem witness_GroupHazard :
    let s := s0.updCur fun r => { r with out := [63] }
    namedRegs (.jr false 63#6) = some [63] ∧ s.cur.now = false ∧ TakesTrap s s.turn s.fi ∧ 63 ∈ s.cur.out := by
  unfold TakesTrap
  decide +kernel
theorem witness_TrapEntry :
    let t : Trap := ⟨0x15, 0#64, 0#64, 0#64⟩
    let w := s0.updCur fun r => { r with unret := 1 }
    let p := s0.updCur fun r => { r with unret := 1, stat := .parked, owed := some (t, 4#64) }
    TakesTrap s0 0 0 ∧ t.cause < 0x80 ∧ isTsc 0 = false ∧ (w.fr 0 0).handler = false ∧ (w.core 0).tvec ≠ 0#64 ∧ (w.fr 0 0).unret ≠ 0 ∧
    p.main = true ∧ (p.fr 0 0).stat = .parked ∧ (p.fr 0 0).owed = some (t, 4#64) ∧ (p.fr 0 0).unret = 1 ∧ (p.fr 0 0).waits = [] ∧ (p.fr 0 0).hold = .no ∧
    (p.fr 0 0).deferred = [] := by
  unfold TakesTrap
  decide +kernel
/-- A privileged cause, a firing in its handler, a core without tvec. -/
theorem witness_FiringStops : nfld ((s0.updDie 0 fun v => { v with assist := 8 }).die (dieOf 0)).assist 3 1 = 1 ∧ (0x80 : Nat) ≥ 0x80 ∧
    (s0.updCur fun r => { r with handler := true }).cur.handler = true ∧ ((s0.updCore 0 fun c => { c with tvec := 0#64 }).core 0).tvec = 0#64 ∧
    (let v := (s0.updDie 0 fun v => { v with evbase := 0x20000 }).die 0
     v.evbase ≠ 0 ∧ isRemote s0 (v.evbase + 16 * (v.evput % 2 ^ v.evlog2)) = false ∧ holeIn (v.evbase + 16 * (v.evput % 2 ^ v.evlog2)) 16 = false) := by decide
theorem witness_GroupBoundary : Clear s0.cur ∧ (s0.updCur fun r => { r with unret := 1 }).cur.unret ≠ 0 ∧
    (s0.updCur fun r => { r with deferred := [⟨0x13, 0#64, 0#64, 0#64⟩] }).cur.deferred = [⟨0x13, 0#64, 0#64, 0#64⟩] := by
  unfold Clear
  decide +kernel
theorem witness_ControlRegisters : Ready s0 [4, 3] ∧ 0x402#12 ∈ csrAll ∧ 0x15#12 ∈ csrRw ∧ (0xC00#12).toNat / 1024 = 3 ∧ (0xFFF#12).toNat / 1024 = 3 ∧
    s0.cur.deferred = [] ∧ isTsc s0.turn = false := by
  unfold Ready
  decide +kernel
/-- First and last byte of the scratchpad, the bytes beside it, the hole, an unmapped page, a refused one, one that is there. -/
theorem witness_AddressPlaces :
    let lo := (fld core0.partw 0 4 + fld core0.partw 16 5) * 4096
    let hi := lo + fld core0.partw 32 9 * 4096
    lo = 0x10000 ∧ hi = 0xD8000 ∧ (lo ≤ 0x10000 ∧ 0x10000 + 8 ≤ hi) ∧ (lo ≤ 0xD7FF8 ∧ 0xD7FF8 + 8 ≤ hi) ∧ ¬(lo ≤ 0xFFF8) ∧ ¬(0xD8000 + 8 ≤ hi) ∧
    s0.place 0 0xFF000000100000 8 needR = .badva ∧ s0.tlbLook 0 1 0x10000000 = none ∧ s0.place 0 0x8000000 8 needR = .refused ∧
    ((s0.tlbLook 0 1 0x40).any fun x => fld x.1.w 62 1 = 1 && fld x.1.w 56 1 = 0 && (fld x.1.w 12 41 * 4096 + (0x40 - x.1.va)) % 2 ^ 40 < 0x9000000000) = true ∧
    (s0.core 0).owner.l = [] := by
  decide +kernel
theorem witness_LoadsAndFrame : (Ready s0 [4, 3] ∧ s0.relWaits true 0xFFFF = false ∧ (0x40#64 : Word).toNat % 8 = 0) ∧ Loadable s0 0x40 8 0x40 ∧
    Loadable s0 0xFF000000010000 8 (s0.poolPa 0 0x10000) ∧ exec (.ld false 3#6 4#6 3#2 0#2 0#6) s0 = .next (after (.ld false 3#6 4#6 3#2 0#2 0#6) s0) :=
  ⟨by unfold Ready; decide +kernel, loadable _ _ _ _ (by decide +kernel), loadable _ _ _ _ (by decide +kernel), rfl⟩
/-- A store performed, and one that goes into the side log because nothing maps its page, or its page refuses it. -/
theorem witness_Stores : Storable s0 0x40 8 0x40 true ∧ (Ready s0 [4, 3] ∧ Memory.wf s0.mem = true ∧
    isTsc s0.turn = false ∧ s0.fi ≠ 8 ∧ s0.loadWait = false ∧ s0.relWaits true s0.pkg = false ∧ s0.myCore.boardHolds 0x10000000 8 true = false ∧
      s0.place s0.turn 0x10000000 8 needW = .unmapped ∧ s0.place s0.turn 0xC000000 8 needW = .refused ∧ s0.myCore.slog.get? 0 = none) :=
  ⟨storable _ _ _ _ _ (by decide +kernel), by unfold Ready; decide +kernel⟩
/-- Each fault of R122 has a place that raises it: the hole, the page without R, the CELL page, a poisoned byte, a
filling buffer. -/
theorem witness_FaultsAndPrefetch :
    let p : State := { s0 with poison := [(0x40, 8)] }
    let b := s0.updMine fun c => { c with bufs := c.bufs.put 31 { base := 0x10000, len := 64, span := 0, state := 1 } }
    Ready s0 [4, 3] ∧ TakesTrap s0 s0.turn s0.fi ∧ s0.loadWait = false ∧ s0.acqWait = false ∧ (2 ^ 56 : Nat) ≥ 2 ^ 56 ∧ (1#64 : Word).toNat % 2 ≠ 0 ∧
    s0.place 0 0xFF000000100000 8 needR = .badva ∧ s0.place 0 0xFF000000100000 8 needW = .badva ∧ s0.place 0 0x8000000 8 needR = .refused ∧
    atMem (s0.place 0 0x4000000 8 needW) (fun _ e off => off = none && entCell e) = true ∧
    atMem (p.place 0 0x40 8 needR) (fun pa e off => off = none && pkgOf pa = p.pkg && !p.ownPending 0 pa 8 && p.poisonedAt (readPa 0 pa e) 8) = true ∧
    atMem (b.place 0 0xFF000000010000 8 needR) (fun _ _ off => off.any fun o => b.myCore.bufBad o 8 [2, 3] = some (31, 1) && b.myCore.bufBad o 8 [0] = some (31, 1)) = true ∧
    atMem (s0.place 0 0x40 8 needR) (fun pa w _ => !s0.poisonedAt (readPa 0 pa w) 8) = true ∧ s0.place 0 0x10000000 8 needR = .unmapped := by
  unfold Ready TakesTrap
  decide +kernel
theorem witness_Atomics : Ready s0 [4, 5, 6, 3] ∧ AtomicAt s0 0x40 8 0x40 true true ∧ AtomicAt s0 0x40 2 0x40 false false :=
  ⟨by unfold Ready; decide, atomicAt _ _ _ _ _ _ (by decide +kernel), atomicAt _ _ _ _ _ _ (by decide +kernel)⟩
/-- The value 0 at the place read meets each condition, or fails it, for some operand. -/
theorem witness_FencesWaitsAndBarriers :
    let g : Gang := { launch := 1, rank := 0, cores := [0], steal := 0, bar := 2, code := [] }
    let r : Barrier := { armed := true, members := [0] }
    let s := (s0.updMine fun c => { c with gang := some g }).setBar g r
    let ahead := (s0.updMine fun c => { c with gang := some g }).setBar g { r with members := [0, 1], arr := ({} : Tab Nat).put 0 2 }
    (Ready s0 [4, 5, 6, 3, 11] ∧ s0.cur.waits = [] ∧ s0.relWaits true 0xFFFF = false ∧ gives s0 (s0.load (.nop false) (s0.x 4#6) 8 0 regLoad) (· = 0) = true ∧
      (s0.x 2#6).toNat % 2 ^ 48 = 0) ∧
    (s.myCore.gang = some g ∧ (s.barOf g).armed = true ∧ s.turn ∈ (s.barOf g).members ∧ (s.barOf g).aborted = false ∧
      ((s.barOf g).arr.get s.turn 0 + 2 ^ 32 - (s.barOf g).c) % 2 ^ 32 < 2 ∧ s.relWaits g.wide 0xFFFF = false) ∧
    ((ahead.barOf g).arr.get ahead.turn 0 + 2 ^ 32 - (ahead.barOf g).c) % 2 ^ 32 ≥ 2 ∧ (s0.barOf g).armed = false ∧ s0.myCore.gang = none ∧
    ((s.setBar g { r with aborted := true }).barOf g).aborted = true ∧ s.turn ∉ ((s.setBar g { r with members := [1] }).barOf g).members := by
  unfold Ready
  decide +kernel
/-- The least code above zero is a number in each floating format. -/
theorem witness_GridValuesAreExact : ∀ t ∈ [1, 2, 3, 4, 5, 6, 7, 8], 1 < 2 ^ fltBits t ∧ ∃ neg q, fltVal t 1 = .num neg q := by
  intro t ht
  simp only [List.mem_cons, List.not_mem_nil, or_false] at ht
  rcases ht with rfl | rfl | rfl | rfl | rfl | rfl | rfl | rfl <;> exact ⟨by decide, _, _, rfl⟩

/-- A state in which every vector register of the list is plain. -/
theorem s0_plain : Plain s0 [1#5, 2#5, 3#5, 4#5, 5#5, 6#5, 7#5, 8#5, 24#5, 31#5] := by unfold Plain; decide
/-- v5 E2M1, v6 a row of softmax as VSMX init leaves it, v7 I16. -/
def sv : State := s0.updCur fun r => ((r.wv 5 0#512 8).wv 6 0xFF800000#512 1).wv 7 0xFFFF#512 12
theorem sv_plain : Plain sv [1#5, 2#5, 3#5, 4#5, 5#5, 6#5, 7#5, 8#5, 24#5, 31#5] := by unfold Plain; decide
theorem witness_VectorFloat : s0.cur.now = false ∧ Plain s0 [3#5, 1#5, 2#5] ∧ s0.cur.rt 1 = 1 ∧ s0.cur.rt 2 = s0.cur.rt 1 ∧ s0.cur.rt 3 = s0.cur.rt 1 := by
  unfold Plain
  decide +kernel
/-- N32 and I16, the ends of the number tags among them; RAW for the bitwise ones. -/
theorem witness_VectorInteger : s0.cur.now = false ∧ Plain s0 [3#5, 4#5, 4#5] ∧ 10 ≤ s0.cur.rt 4 ∧ s0.cur.rt 4 ≤ 15 ∧ sv.cur.rt 7 = 12 ∧
    Plain sv [3#5, 7#5, 7#5] ∧ elemBits (sv.cur.rt 7) = elemBits (sv.cur.rt 7) ∧ s0.cur.rt 8 = 0 := by
  unfold Plain
  decide +kernel
theorem witness_VectorCompareAndMove : Ready s0 [3, 4] ∧ Plain s0 [3#5, 1#5, 2#5] ∧ s0.cur.rt 1 = 1 ∧ s0.cur.rt 2 = s0.cur.rt 1 ∧ (1#3 : BitVec 3) ≠ 0#3 ∧
    s0.cur.rt 4 = 15 ∧ elemBits (s0.cur.rt 4) = elemBits (s0.cur.rt 1) ∧ (15#7).toNat < elemCount (s0.cur.rt 1) ∧ elemCount (s0.cur.rt 1) ≤ (16#7).toNat := by
  unfold Ready Plain
  decide +kernel
/-- A reduction in FP32 and in I16, with AMAX excluded for the latter; a softmax row before its first step and one after. -/
theorem witness_ReductionAndSoftmax : s0.cur.now = false ∧ Plain sv [3#5, 1#5] ∧ sv.cur.rt 1 = 1 ∧ sv.cur.rt 7 = 12 ∧ (3#4).toNat ≠ 4 ∧ (4#4).toNat ≤ 4 ∧
    sv.cur.rt 3 = sv.cur.rt 1 ∧ Plain sv [2#5, 1#5, 6#5] ∧ (2#5 : BitVec 5) ≠ 6#5 ∧ sv.cur.rt 6 = 1 ∧ vel 32 (sv.cur.rv 6) 0 = 0xFF800000 ∧
    sv.cur.rt 3 = 1 ∧ vel 32 (sv.cur.rv 3) 0 ≠ 0xFF800000 := by
  unfold Plain
  decide +kernel
/-- FP32 to BF16 into the last part; E2M1 to FP32 from the last part; two FP32 registers into a block of E2M1. -/
theorem witness_VectorConversions : Ready sv [4, 3] ∧ Plain sv [8#5, 1#5] ∧ sv.cur.rt 1 = 1 ∧ (1 : Nat) < Nat.max (elemCount 2 / elemCount 1) (elemCount 1 / elemCount 2) ∧
    sv.cur.rt 5 = 8 ∧ 7 < elemCount 8 / elemCount 1 ∧ 3 < elemCount 8 / 32 ∧ (2#5).toNat % (32 / elemCount 1) = 0 ∧
    (∀ r ∈ [2, 3], sv.cur.rt r = 1 ∧ sv.cur.streams.get? r = none) ∧ (7#3 : BitVec 3) ≠ 0#3 ∧ TakesTrap sv sv.turn sv.fi ∧ 3 < sv.cur.rt 4 ∧ sv.cur.rt 4 ≠ sv.cur.rt 1 := by
  unfold Ready Plain TakesTrap
  decide +kernel
/-- The first bytes of the scratchpad and its last ones. -/
theorem s0_quiet : NoTraffic s0 := ⟨rfl, fun _ => rfl⟩
theorem witness_ScratchpadRuns :
    let as := [0xFF000000010000, 0xFF000000010001]
    isTsc s0.turn = false ∧ (0xFF000000010000#64 : Word).toNat < 2 ^ 56 ∧ (0xFF000000010000#64 : Word).toNat % 8 = 0 ∧ s0.pkg < 2 ^ 13 ∧ s0.turn < 4608 ∧
    s0.myCore.owner.l = [] ∧ s0.acqWait = false ∧ s0.loadWait = false ∧ InScratchpad s0 as false ∧
    InScratchpad s0 [0xFF0000000D7FFE, 0xFF0000000D7FFF] true ∧ 1 ≤ 2 ∧ as = [0xFF000000010000].flatMap (fun a => (List.range 2).map (a + ·)) ∧ as.Nodup := by
  unfold InScratchpad
  decide +kernel
theorem witness_VectorLoadStore : Ready s0 [4] ∧ Plain s0 [3#5] ∧
    (let as := (List.range 64).map fun b => (0x40#64 + BitVec.ofNat 64 b).toNat
     gives s0 (s0.loadRun (.vld false 3#5 4#6 0#3 1#4 0#32) 0x40#64 as 4 64 0 (.vec as) State.byteNow) (·.length = 64) = true ∧
       gives s0 (s0.storeRun (.vst false 3#5 4#6 0#3 0#32) 0x40#64 4 (as.zip (List.replicate 64 7#8)) 4 64 (.vec as)) (fun _ => true) = true) := by
  unfold Ready Plain
  decide +kernel
/-- The descriptor of a read stream of 16 FP32 units at 0x80, one level, stride 4. -/
def sd : State := ((s0.wrN 0x40 8 0x80).wrN 0x48 8 0x21).wrN 0x50 8 16 |>.wrN 0x60 8 4
def st0 : Stream := { base := 0x80#64, write := false, fmt := 1#4, n0 := 16, n1 := 1, n2 := 1, s0 := 4#64, s1 := 0#64, s2 := 0#64, pos := 0 }
theorem witness_StreamsTagsAndLoops :
    let u := s0.updCur fun r => { r with streams := r.streams.put 24 st0, vtag := r.vtag.put 24 1#4 }
    let w : Stream := { st0 with write := true }
    let l := s0.wrN 0x100C 4 0x00310588
    Ready s0 [3, 4] ∧ s0.cur.writes 24 = none ∧
    gives sd (sd.loadWords (.vstrm false 24#5 4#6 0#32) 0x40#64 8) (fun ws => !(mkStream ws).bad &&
      (ws.getD 0 0#64 :: (ws.drop 4).take ((ws.getD 1 0#64).toNat / 32 % 4)).all fun v => v.toNat % (mkStream ws).st.unit = 0) = true ∧
    s0.cur.streams.get? 24 = none ∧ u.cur.streams.get? 24 = some st0 ∧ st0.write = false ∧ u.ownDue = false ∧ w.total - w.pos < 2 ^ 64 ∧
    u.cur.rt 24 = 1 ∧ u.cur.streams.get? 3 = none ∧ st0.pos + 16 ≤ st0.total ∧
    gives u (u.loadRun (.vabs false 3#5 24#5 0#3) (BitVec.ofNat 64 (st0.addr st0.pos)) st0.bytesAt 1 64 0 (.vec st0.bytesAt) st0.byte) (·.length = 64) = true ∧
    Plain s0 [3#5, 1#5] ∧ (7#5).toNat < fld s0.myCore.partw 16 5 ∧ s0.myCore.mx.queue = [] ∧ s0.myCore.mx.running = [] ∧
    (match l.loopBody (.vloop false 5#6 0#4) (l.cur.pc.toNat + 12) 1 with
      | .got s' b => s'.cur.vloop.isNone && s'.cur.saved.isEmpty && (match loopRun (b.map bodyFn) ((s'.x 5#6).toNat % 2 ^ 32) 0 0 s' with | .fin _ => true | _ => false)
      | _ => false) = true ∧ s0.cur.loopW = [] ∧
    (let w := s0.updCur fun r => { r with vloop := some (1, 0), loopW := [[0x588#32], [0x00310588#32]] }
     w.cur.loopW = [0x588#32] :: [[0x00310588#32]] ∧ w.cur.vloop = some (1, 0) ∧ w.cur.saved = []) := by
  unfold Ready Plain
  decide +kernel
/-- Operand records in the scratchpad: A of 2 rows and 4 columns of BF16, a dense B, a sparse B, a drain; x12 the command word of a copy
of no bytes, x20 to x24 what the commands name. -/
def se : State :=
  let w (s : State) (o a b : Nat) : State := (s.wrN (0xC000000000 + o) 8 a).wrN (0xC000000000 + o + 8) 8 b
  let s := w (w (w (w s0 0x10000 0x10200 0x200040002) 0x10040 0x10240 0x200020004) 0x10080 0x10280 0x200020002) 0x100C0 0x10300 0x100010001
  let s := s.wrN 0xC0000100B0 8 0x8000000000010180
  (s.updMine fun c => { c with accTag := c.accTag.put 0 1#4 }).updCur fun r =>
    (((((r.wx 12 0x1000000000#64).wx 20 0x10000#64).wx 21 0x10040#64).wx 22 0x10080#64).wx 23 0x100C0#64).wx 24 0x10#64
theorem witness_EngineCommands : Ready se [20, 21, 24, 0] ∧ se.loadWait = false ∧ se.myCore.mx.queue.length < 2 ∧ se.relWaits false 0xFFFF = false ∧
    (se.mxBad se.turn (mxCmd se 0 (se.x 20#6) (se.x 21#6) (se.x 24#6) 0#64)).isNone = true ∧
    (se.mxBad se.turn (mxCmd se 1 (se.x 20#6) (se.x 22#6) (se.x 24#6) 0#64)).isNone = true ∧
    (se.mxBad se.turn (mxCmd se 2 (se.x 23#6) 0#64 0#64 0#64)).isNone = true ∧ (7#4).toNat < fld se.myCore.partw 16 5 ∧
    (∀ op ∈ [0, 1, 2, 3], (se.cpyBad se.turn (cpCmd se op 0#64 0#64 (se.x 12#6) 0#64)).isNone = true) := by
  unfold Ready
  decide +kernel
theorem witness_BuffersWaitsAndStatus :
    let u := s0.updCur fun r => { r with mxs := { seq := 65535, flags := 63, code := 6, open_ := 1 }, cps := { seq := 0, open_ := 15 } }
    let b := s0.updMine fun c => { c with bufs := c.bufs.put 3 { base := 0x10000, len := 64, span := 0, state := 2 } }
    Ready s0 [4, 3, 2, 11, 12] ∧ s0.cur.mxs.open_ = 0 ∧ s0.cur.mxs.seq < 65536 ∧ s0.cur.mxs.flags < 64 ∧ s0.cur.cps.open_ = 0 ∧ u.cur.mxs.open_ ≠ 0 ∧ u.cur.cps.open_ ≠ 0 ∧
    (s0.x 4#6).toNat < 4608 ∧ s0.acqWait = false ∧ s0.loadWait = false ∧ s0.relWaits true 0xFFFF = false ∧ s0.myCore.outbox.length < 16 ∧
    (s0.myCore.buf 3).len = 0 ∧ (64 : Nat) ≠ 0 ∧ 0x10000 % 64 = 0 ∧ 0x10000 + 64 ≤ 0x10000 + 200 * 4096 ∧ (b.myCore.buf 3).len ≠ 0 ∧ (b.myCore.buf 3).state ≠ 1 ∧
    (b.myCore.buf 3).state ≠ 3 ∧ b.myCore.mx.running = [] ∧ b.myCore.mx.queue = [] ∧ b.myCore.copies = [] ∧ TakesTrap s0 s0.turn s0.fi := by
  unfold Ready TakesTrap
  decide +kernel
/-- Tag 4 affine and enabled, tag 63 bound with a heap of one slot at 0x10000 of the pool; the Bivouac firing in frame 8. -/
def sm : State := s0.updMine fun c =>
  { c with tags := (c.tags.put 4 { kind := .affine, entry := 0x3000#64, e := true }).put 63 { kind := .affine, entry := 0x3000#64 },
           heapbase := 0x10000#64, heaplim := 0x10180#64 }
theorem witness_Messages :
    let v := sm.updCur fun r => (({ r with src := .bivouac }).wx 11 0xFF000000010040#64).wx 12 0x8#64
    let o := sm.updCur fun r => { r with owes := some (5, 4), msg := some { payload := [1#8] }, slot := some 2 }
    Ready sm [5, 4, 2, 3] ∧ (sm.x 7#6).toNat ≥ 4608 ∧ (sm.x 5#6).toNat < 4608 ∧ (60#6).toNat ≥ 60 ∧ (59#6).toNat < 60 ∧ (sm.myCore.tag 6).kind ≠ .affine ∧
    (sm.myCore.tag 4).kind = .affine ∧ sm.myCore.replySlots < 8 ∧ sm.cur.saved = [] ∧ sm.myCore.outbox.length < sm.myCore.obuflim ∧ sm.cur.owes = none ∧
    gives sm (sm.loadRun (.send false 3#6 5#6 4#6 false false true 4#6 59#6 8#32) (sm.x 4#6) ((List.range 8).map fun n => (sm.x 4#6 + BitVec.ofNat 64 n).toNat) 8 8 0 { phys := true } State.byteNow) (·.length = 8) = true ∧
    sm.relWaits true 0xFFFF = false ∧ o.cur.owes = some (5, 4) ∧ sm.cur.src ≠ .bivouac ∧ v.cur.src = .bivouac ∧ v.heapSlot v.turn (v.x 4#6) = none ∧
    v.heapSlot v.turn (v.x 11#6) = some 0 ∧ v.myCore.freeSlot 0 24 = some 0 ∧ (sm.x 4#6).toNat % 8 = 0 ∧ (sm.x 5#6).toNat % 8 ≠ 0 ∧ o.cur.msg = some { payload := [1#8] } ∧
    o.cur.slot = some 2 ∧ TakesTrap sm sm.turn sm.fi := by
  unfold Ready TakesTrap
  decide +kernel
theorem witness_TagInstructions :
    let t := sm.updMine fun c => { c with tags := c.tags.put 5 { h := 15 } }
    Ready sm [4, 5, 3] ∧ (sm.x 5#6).toNat % 64 ≠ 60 ∧ (sm.x 5#6).toNat % 64 ≠ 63 ∧ (sm.myCore.tag 3).h < 15 ∧ (t.myCore.tag 5).h ≥ 15 ∧ (t.myCore.tag 5).h ≠ 0 ∧
    (sm.myCore.tag 3).h = 0 ∧ (sm.x 10#6).toNat % 64 = 63 := by
  unfold Ready
  decide +kernel
theorem witness_Tasks :
    let full := s0.updMine fun c => { c with deque := List.replicate 64 ⟨[], 0⟩ }
    let j := s0.wrN 0x40 8 1
    Ready s0 ([4, 5, 3] ++ (List.range 8).map (· + 4)) ∧
    gives s0 (s0.loadRun (.fork false 3#6 4#6) (s0.x 4#6) ((List.range 64).map fun n => (s0.x 4#6 + BitVec.ofNat 64 n).toNat) 8 64 0 {} State.byteNow)
      (fun l => ((words64 8 l).getD 0 0#64).toNat % 4 = 0 && (words64 8 l).getD 1 0#64 = 0#64) = true ∧
    full.myCore.deque.length ≥ 64 ∧ s0.myCore.deque.length < 64 ∧ s0.relWaits true 0xFFFF = false ∧
    gives s0 (s0.load (.join false 3#6 4#6 2#6) (s0.x 4#6) 8 0 regLoad) (· = 0) = true ∧ gives j (j.load (.join false 3#6 4#6 2#6) (j.x 4#6) 8 0 regLoad) (· ≠ 0) = true ∧
    (∀ t ∈ j.myCore.deque, t.words.getD 1 0#64 ≠ j.x 4#6) ∧ (j.x 2#6).toNat % 2 ^ 48 = 0 ∧ (s0.updCur fun r => { r with saved := [33] }).cur.saved = [33] ∧ s0.cur.saved = [] ∧
    (s0.x 7#6).toNat ≥ 4608 ∧ (s0.x 5#6).toNat < 4608 ∧ s0.myCore.replySlots < 8 ∧ s0.myCore.outbox.length < 16 ∧
    (let t : Task := ⟨[0x3000#64, 0x40#64, 0#64, 0#64, 0#64, 0#64, 0#64, 0#64], 0⟩
     let q := j.updMine fun c => { c with deque := [t] }
     q.myCore.deque = [] ++ t :: [] ∧ t.words.getD 1 0#64 = q.x 4#6 ∧ t.words.length = 8) := by
  unfold Ready
  decide +kernel
/-- A record that names a join counter at 0x40, which an AMO may change. -/
theorem witness_Tasks_counter :
    let s := s0.wrN 0x48 8 0x80
    gives s (s.loadRun (.fork false 3#6 4#6) (s.x 4#6) ((List.range 64).map fun n => (s.x 4#6 + BitVec.ofNat 64 n).toNat) 8 64 0 {} State.byteNow)
      (fun l => ((words64 8 l).getD 0 0#64).toNat % 4 = 0 && (words64 8 l).getD 1 0#64 = 0x80#64) = true ∧ (0x80#64 : Word) ≠ 0#64 ∧ (0x80#64 : Word).toNat % 8 = 0 ∧
    AtomicAt s 0x80 8 0x80 false false := ⟨by decide +kernel, by decide, by decide, atomicAt _ _ _ _ _ _ (by decide +kernel)⟩
/-- Queue 3 of context 1 with one record and room for another. -/
def sq : State := s0.setSQueue 3 { enable := true, ctx := 1, ringsize := 4, share := 8, high := 8, low := 1, head := 5, tail := 6, bank := [List.replicate 64 7#8] }
theorem witness_QueuesAndActors :
    let q := sq.squeue 3
    Ready sq [5, 4, 2, 3] ∧ (sq.x 5#6).toNat = 3 ∧ q.enable = true ∧ q.ctx = sq.myCore.ctxid ∧ q.broken = false ∧ sq.cur.resv = none ∧ sq.cur.saved = [] ∧
    gives sq (sq.loadRun (.qpush false 3#6 5#6 4#6 2#6) (sq.x 4#6) ((List.range 64).map fun n => (sq.x 4#6 + BitVec.ofNat 64 n).toNat) 8 64 0 {} State.byteNow) (·.length = 64) = true ∧
    q.tail - q.head = q.bank.length ∧ q.bank.length < q.share ∧ q.resvPush < q.room ∧ q.bank = [List.replicate 64 7#8] ∧ q.tail - q.head > q.resvPop ∧
    gives sq (sq.storeReady (.qpop false 3#6 5#6 4#6 2#6) (sq.x 4#6) 64) (fun _ => true) = true ∧
    gives sq (sq.storeRun (.qpop false 3#6 5#6 4#6 2#6) (sq.x 4#6) 8 (((List.range 64).map fun n => (sq.x 4#6 + BitVec.ofNat 64 n).toNat).zip (List.replicate 64 7#8)) 8 64 {}) (fun _ => true) = true ∧
    (sq.x 7#6).toNat ≥ 4608 ∧ (sq.squeue 0).enable = false ∧ ((sq.setSQueue 3 { q with ctx := 2 }).squeue 3).ctx ≠ sq.myCore.ctxid ∧
    ((sq.setSQueue 3 { q with broken := true }).squeue 3).broken = true ∧ sq.tagBusy sq.turn 59 = false ∧ sq.waiting sq.turn 59 = [] ∧ 59 ∉ sq.myCore.awaits ∧
    (sq.x 10#6).toNat % 4 ≠ 0 ∧ (sq.x 4#6).toNat % 4 = 0 ∧ sq.x 4#6 ≠ 0#64 ∧ (sq.updMine fun c => { c with awaits := [59] }).myCore.awaits = [59] := by
  unfold Ready
  decide +kernel
/-! #### Cells -/

/-- A sheet at 0x4000000, named by x9, with this header and generation word; a descriptor of a cell of 16 FP32 values at 0x40, binding
records at 0x80 and, for a cell that is its own precedent, at 0xC0. -/
def sheet (h g : Nat) : State :=
  let s := s0.updDie 0 fun v => { v with dir := [{ pa := 0x4000000, ctx := 1, va := 0x4000000 }] }
  let s := ((s.wrN 0x4000000 8 h).wrN 0x4000008 8 g).wrN 0x40 24 (0x4100000 + 0x4200000 * 2 ^ 64 + (1 + 16 * 2 ^ 16 + 2 ^ 32) * 2 ^ 128)
  let s := (s.wrN 0x80 16 (0x3000 + (2 ^ 16 + 2 ^ 24) * 2 ^ 64)).wrN 0xC0 16 (0x3000 + (2 ^ 16 + 2 ^ 24) * 2 ^ 64)
  (s.wrN 0xD8 8 1).updCur fun r => (r.wx 11 0x80#64).wx 12 0xC0#64
theorem table_region (o : Nat) (h : o < 0x4000000) : regionOf (0x4000000 + o) = .main 0 := by
  unfold regionOf localOf
  have a : (0x4000000 + o) % 2 ^ 40 = 0x4000000 + o := by omega
  have b : ¬0x4000000 + o ≥ 2 ^ 56 := by omega
  have c : 0x4000000 + o < 0x9000000000 := by omega
  have d : (0x4000000 + o) / 0x1800000000 = 0 := by omega
  simp only [a, b, c, d, ↓reduceIte]
theorem one_die (w : Word) (h : entRdup w = false) : OneDie w 0 0x4000000 0x4000000 := by
  unfold OneDie
  refine ⟨fun e => ?_, fun o ho => table_region o (by simpa using ho)⟩
  rw [h] at e; cases e
theorem sheet_at : SheetAt (sheet (2 ^ 31 + 1) 0) 9#6 0 0x4000000 0x4000000 := by
  refine ⟨⟨rfl, rfl, by decide, by decide, rfl, rfl, _, _, rfl, rfl, ?_, one_die _ rfl, rfl, rfl⟩, _, rfl, rfl, one_die _ rfl⟩
  decide
def rec (s : State) (i : Instr) (b : BitVec 6) (p : List (BitVec 8) → Bool) : Bool :=
  match (sheetS s 9#6).cellRecord i b with
  | .got v l => v.mem = s.mem && v.x 9#6 = s.x 9#6 && l.length = 64 && p l
  | .stop _ => false
/-- Setup with one cell and with two, and a running sheet of two cells. -/
theorem witness_SheetDefinition :
    let s := sheet (2 ^ 31 + 1) 0
    let t := sheet (2 ^ 31 + 2) 0
    let u := sheet 2 (2 ^ 32 + 1)
    let f := t.wrN 0x40010A8 8 0x800
    Ready s [9, 4, 11, 12, 3] ∧ Memory.wf s.mem = true ∧ (1#16).toNat ≠ 0 ∧ s.setup 0x4000000 = true ∧ s.ncells 0x4000000 = 1 ∧
    rec s (.cdef false 3#6 9#6 4#6 1#16) 4#6 (fun l => !defBad l 0x4000000 1 && (match s.defBufs l 0x4000000 2 with | .ok v => v.mem = s.mem | _ => false)) = true ∧
    rec s (.cdef false 3#6 9#6 11#6 1#16) 11#6 (fun l => defBad l 0x4000000 1) = true ∧ u.setup 0x4000000 = false ∧ u.ncells 0x4000000 = 2 ∧
    rec t (.cbind false 3#6 9#6 11#6 0#16) 11#6 (fun l => !bindBad l 2 && (t.findPath 0x4000000 0 (bindPrecs l) sheetFuel [[0]] []).isNone &&
      !t.rankBad 0x4000000 0 0 (bindPrecs l)) = true ∧
    rec t (.cbind false 3#6 9#6 12#6 0#16) 12#6 (fun l => !bindBad l 2 && t.findPath 0x4000000 0 (bindPrecs l) sheetFuel [[0]] [] = some [0]) = true ∧
    rec t (.cbind false 3#6 9#6 2#6 0#16) 2#6 (fun l => bindBad l 2) = true ∧ TakesTrap t t.turn t.fi ∧
    u.unfinished 0x4000000 < 4 ∧ u.freeEdit 0x4000000 = some 0 ∧ (sheet 2 (5 * 2 ^ 32 + 1)).unfinished 0x4000000 ≥ 4 ∧
    t.formulaAt 0x4000000 0 1 = false ∧ f.formulaAt 0x4000000 0 1 = true := by
  unfold Ready TakesTrap
  decide +kernel
/-- The record is read, its buffers' pages are there, and the read changes nothing the statement names. -/
def defOk (s : State) (i : Instr) (b : BitVec 6) (n cells : Nat) : Bool :=
  match (sheetS s 9#6).cellRecord i b with
  | .got v l => v.mem = s.mem && v.x 9#6 = s.x 9#6 && v.sheetE 0 0x4000000 = s.sheetE 0 0x4000000 && v.myCore.ctxid = s.myCore.ctxid && l.length = 64 &&
    !defBad l 0x4000000 n && (match v.defBufs l 0x4000000 cells with | .ok w => w = v | _ => false)
  | .stop _ => false
/-- Cell 0 of a sheet that is there, or of a table no sheet has; cell 1 of a sheet of two, defined again; a formula cell unbound while the sheet
runs. -/
theorem witness_SheetDefinition_again :
    let s := sheet (2 ^ 31 + 1) 0
    let z := s.updDie 0 fun v => { v with dir := [] }
    let t := sheet (2 ^ 31 + 2) 0
    let f := (sheet 2 (2 ^ 32 + 1)).wrN 0x40010A8 8 0x800
    defOk s (.cdef false 3#6 9#6 4#6 0#16) 4#6 0 1 = true ∧ s.sheetE 0 0x4000000 ≠ none ∧ defOk z (.cdef false 3#6 9#6 4#6 0#16) 4#6 0 1 = true ∧
    z.sheetE 0 0x4000000 = none ∧ (z.die 0).dir.length < 4096 ∧ defOk t (.cdef false 3#6 9#6 4#6 1#16) 4#6 1 2 = true ∧ t.setup 0x4000000 = true ∧
    (1#16).toNat < t.ncells 0x4000000 ∧ 0x1000 + 128 * t.ncells 0x4000000 ≤ 0x4000000 ∧ (∀ j, j < 2 → t.nprec 0x4000000 j ≤ 8) ∧
    f.formulaAt 0x4000000 (f.opened 0x4000000) 1 = true ∧ f.setup 0x4000000 = false ∧ f.unfinished 0x4000000 < 4 ∧ f.freeEdit 0x4000000 = some 0 := by
  decide +kernel
theorem witness_SheetDefinition_page : SheetPage ((sheet (2 ^ 31 + 1) 0).updDie 0 fun v => { v with dir := [] }) 9#6 0 0x4000000 0x4000000 := by
  refine ⟨rfl, rfl, by decide, by decide, rfl, rfl, _, _, rfl, rfl, ?_, one_die _ rfl, rfl, rfl⟩
  decide
/-- A running sheet whose cell 1 has a version of generation 1; one with pin slot 3 live, its handle in x13; a cell stale for generation 2. -/
def runS : State := ((sheet 2 (2 ^ 32 + 1)).wrN 0x40010A0 8 (2 ^ 32)).wrN 0x4001080 24 (0x4100000 + 0x4200000 * 2 ^ 64 + (1 + 16 * 2 ^ 16 + 2 ^ 32) * 2 ^ 128)
theorem run_at : SheetAt runS 9#6 0 0x4000000 0x4000000 := by
  refine ⟨⟨rfl, rfl, by decide, by decide, rfl, rfl, _, _, rfl, rfl, ?_, one_die _ rfl, rfl, rfl⟩, _, rfl, rfl, one_die _ rfl⟩
  decide
theorem witness_SheetAccess :
    let p := (runS.wrN 0x4000038 8 (7 * 2 ^ 48 + 2 ^ 32 + 1)).updCur fun r => r.wx 13 (BitVec.ofNat 64 (7 * 2 ^ 48 + 3 * 2 ^ 32 + 1))
    let w := (runS.wrN 0x4000008 8 (2 * 2 ^ 32 + 1)).wrN 0x40010A8 8 (2 * 2 ^ 32 + 0x1800)
    let b := (sheet (2 ^ 31 + 2) 0).wrN 0x4001080 24 (0x4100000 + 0x4200000 * 2 ^ 64 + (1 + 16 * 2 ^ 16 + 2 ^ 32) * 2 ^ 128)
    Ready p [9, 13, 2, 3, 11] ∧ Memory.wf p.mem = true ∧ p.cur.saved = [] ∧ (2 : Nat) ≥ p.ncells 0x4000000 ∧
    (p.x 13#6).toNat / 2 ^ 32 % 2 ^ 16 = 3 ∧ leBytes p (0x4000020 + 8 * 3) 8 / 2 ^ 32 % 2 = 1 ∧ leBytes p (0x4000020 + 8 * 3) 8 / 2 ^ 48 = (p.x 13#6).toNat / 2 ^ 48 ∧
    leBytes p (0x4000020 + 8 * 3) 8 % 2 ^ 32 = (p.x 13#6).toNat % 2 ^ 32 ∧ p.setup 0x4000000 = false ∧
    glt 1 (leBytes p (0x4000000 + 0x1000 + 128 * 1 + 0x48) 8 / 2 ^ 32) = false ∧ p.cellWaits 0x4000000 1 1 = false ∧ p.errAt 0 0x4000000 1 1 = none ∧
    p.poisonedFor 0 0x4000000 1 1 = false ∧ p.bufAt 0x4000000 1 1 = some 0x4100000#64 ∧ w.cellWaits 0x4000000 1 2 = true ∧ w.cur.expired = false ∧ (w.x 2#6).toNat % 2 ^ 48 = 0 ∧
    leBytes runS (0x4000020 + 8 * 3) 8 / 2 ^ 32 % 2 = 0 ∧ runS.x 4#6 ≠ 0#64 ∧ TakesTrap runS runS.turn runS.fi ∧ runS.cur.waits = [] ∧ runS.relWaits true 0xFFFF = false ∧
    runS.cur.fm.map (·.t) ≠ some 0x4000000 ∧ runS.formulaAt 0x4000000 (runS.opened 0x4000000) 1 = false ∧
    (match (sheetS b 9#6).cstCopy (b.x 4#6) (b.frontBuf 0x4000000 1) (b.bufBytes 0x4000000 1) with | .done v => !v.cstDue | _ => false) = true ∧ b.setup 0x4000000 = true ∧
    runS.backFree 0x4000000 1 = true ∧ runS.cstOther 0x4000000 1 = false ∧ runS.cellState 0x4000000 1 ≠ 2 ∧
    (match (sheetS runS 9#6).cstCopy (runS.x 4#6) (runS.backBuf 0x4000000 1) (runS.bufBytes 0x4000000 1) with | .done v => decide (v.unfinished 0x4000000 < 4) && !v.cstDue | _ => false) = true := by
  unfold Ready TakesTrap
  decide +kernel
theorem witness_SheetControl :
    let fm : Formula := { t := 0x4000000, cell := 1, gen := 2, rank := 0, members := 1, committed := false }
    let c := runS.updCur fun r => ({ r with fm := some fm }).wx 14 8#64
    let q := (c.wrN 0x40010C8 8 (1 * 2 ^ 24)).wrN 0x40010D0 2 1
    Ready runS [9, 4, 5, 3] ∧ (0#16).toNat < runS.ncells 0x4000000 ∧ runS.setup 0x4000000 = false ∧ (sheet (2 ^ 31 + 2) 0).setup 0x4000000 = true ∧
    gle ((runS.x 2#6).toNat % 2 ^ 32) (runS.done 0x4000000) = true ∧ gle ((runS.x 5#6).toNat % 2 ^ 32) (runS.done 0x4000000) = false ∧ (runS.x 2#6).toNat % 2 ^ 48 = 0 ∧
    (runS.x 5#6).toNat % 2 ^ 48 ≠ 0 ∧ Memory.wf runS.mem = true ∧ runS.cur.computing = none ∧ c.cur.computing = some fm ∧ fm.cell < 2 ^ 16 ∧ fm.gen < 2 ^ 32 ∧ (c.x 14#6).toNat = 8 ∧
    (q.x 2#6).toNat < q.nprec fm.t fm.cell ∧ q.bufAt fm.t (q.prec fm.t fm.cell (q.x 2#6).toNat) fm.gen = some 0x4100000#64 ∧ c.acqWait = false ∧ c.relWaits true 0xFFFF = false ∧
    c.cur.cps.open_ = 0 ∧ (c.x 2#6).toNat % 2 ^ 8 = 0 ∧ (c.x 4#6).toNat % 2 ^ 8 ≠ 0 := by
  unfold Ready
  decide +kernel
/-! #### Key-value spaces, free lists, the Lantern -/

/-- A space at 0x200 of D 64, query tag 4 and one page slot; its area at 0x11000 of the pool holds key 5 (x16) in the scratchpad page, the
stub of key 6 (x17) and the memory cell of key 7 (x18); x19 a token of NaNs, x20 the self window. -/
def kvd : Word := 0x200#64
def kvv : Kv := { kvd := kvd, d := 64, qtag := 4, nslot := 1, satdef := 0, cairn := 0x11000, slots := 0x13000 }
def kvs : State :=
  let s := ((sm.wrN 0x200 16 (64 + 4 * 2 ^ 8 + 2 ^ 16 + (0x11000 + 0x13000 * 2 ^ 32) * 2 ^ 64)).wrN 0x800 256 (0x7FC0 * (2 ^ 2048 / 65535))).updCur fun r =>
    ((((((r.wx 15 kvd).wx 16 5#64).wx 17 6#64).wx 18 7#64).wx 19 0x800#64).wx 20 0xFF000000010000#64).wx 21 8#64
  ((s.setCairn 0 kvv (kvHash 5 % 256) 5 (2 ^ 62)).setCairn 0 kvv (kvHash 6 % 256) 6 (3 * 2 ^ 62 + 9)).setCairn 0 kvv (kvHash 7 % 256) 7 (2 ^ 62 + 2 ^ 61)
def runOf (s : State) (i : Instr) (a n : Nat) (p : State → List (BitVec 8) → Bool) : Bool :=
  match s.loadRun i (BitVec.ofNat 64 a) ((List.range n).map (a + ·)) 8 n 0 {} State.byteNow with
  | .got t l => t.cur = s.cur && t.turn = s.turn && p t l
  | .stop _ => false
theorem witness_KeyValueSpaces_header :
    let header (a : Nat) (bad : Bool) : Bool := match kvs.loadRun (Instr.klook false 3#6 15#6 16#6 11#6 0#4) (BitVec.ofNat 64 a) ((List.range 64).map (a + ·)) 64 64 0 {} State.byteNow with
      | .got t l => t.cur = kvs.cur && t.turn = kvs.turn && kvBad t.myCore l (kvOf (BitVec.ofNat 64 a) l) = bad && (bad || kvOf (BitVec.ofNat 64 a) l = kvv)
      | .stop _ => false
    Ready kvs [15, 16, 0, 11, 3] ∧ header 0x200 false = true ∧ header 0x40 true = true := by
  unfold Ready
  decide +kernel
theorem witness_KeyValueSpaces_probe : kvs.myCore.inTransit kvv 5 = false ∧
    kvs.probe 0 kvv 5 = .found (kvHash 5 % 256) ∧ kvs.probe 0 kvv 6 = .found (kvHash 6 % 256) ∧ kvs.probe 0 kvv 7 = .found (kvHash 7 % 256) := by
  decide +kernel
theorem witness_KeyValueSpaces_kinds :
    (kvs.cairnW 0 kvv (kvHash 5 % 256)).toNat / 2 ^ 61 = 2 ∧ (kvs.cairnW 0 kvv (kvHash 6 % 256)).toNat / 2 ^ 62 = 3 ∧ (kvs.cairnW 0 kvv (kvHash 7 % 256)).toNat / 2 ^ 61 = 3 := by
  decide +kernel
theorem witness_KeyValueSpaces_empty : kvs.probe 0 kvv 8 = .empty (kvHash 8 % 256) := by decide +kernel
theorem witness_KeyValueSpaces_ring : gives kvs (kvs.ring (.klook false 3#6 15#6 16#6 11#6 0#4) kvv (kvHash 8)) (· < 4608) = true := by decide +kernel
theorem witness_KeyValueSpaces_append :
    runOf kvs (.kappend false 3#6 15#6 4#6 2#6) 0x40 256 (fun _ l => (bf16s l 128).all fun x => !x.isNan && !x.isInf) = true ∧
    runOf kvs (.kappend false 3#6 15#6 19#6 2#6) 0x800 256 (fun _ l => (bf16s l 128).any fun x => x.isNan) = true := by
  decide +kernel
/-- The header of key 5's page is read, its 17th token is out of order and its first is not; the rows and header of the append, and of a page
newly taken for key 8, go out. -/
theorem witness_KeyValueSpaces_page : kvs.pageVa 0 kvv 1 0 = 0xFF000000013000 ∧
    runOf kvs (.kappend false 3#6 15#6 4#6 2#6) 0xFF000000013000 3 (fun t h => t.turn = kvs.turn && (h.getD 1 0#8).toNat = 0 &&
      !(appHead kvv h false (bf16s (List.replicate 256 0#8) 128)).up) = true ∧
    kvs.relWaits false 0xFFFF = false := by
  decide +kernel
def zeroRows (va : Nat) : List (Nat × BitVec 8) :=
  ((List.range 64).map fun n => (va + 64 + n, 0#8)) ++ ((List.range 64).map fun n => (va + 1088 + n, 0#8)) ++ [(va, 0#8), (va + 1, 1#8)]
def zeroTok : List Fp := bf16s (List.replicate 256 0#8) 128
theorem zeroRows_append : (appendPage kvv 0xFF000000013000 (appHead kvv (List.replicate 3 0#8) false zeroTok) [] false zeroTok 0).bytes =
    zeroRows 0xFF000000013000 := by decide +kernel
theorem witness_KeyValueSpaces_store :
    gives kvs (kvs.storeRun (.kappend false 3#6 15#6 4#6 2#6) (BitVec.ofNat 64 0xFF000000013000) 1
      (appendPage kvv 0xFF000000013000 (appHead kvv (List.replicate 3 0#8) false zeroTok) [] false zeroTok 0).bytes 1 2112 {}) (fun _ => true) = true := by
  rw [zeroRows_append]; decide +kernel
theorem witness_KeyValueSpaces_newPage :
    (kvs.setFree 0 kvv 0 true).freePage 0 kvv = some 0 ∧ gives kvs (kvs.ring (.kappend false 3#6 15#6 4#6 2#6) kvv (kvHash 8)) (· = kvs.turn) = true ∧
    gives kvs (kvs.storeRun (.kappend false 3#6 15#6 4#6 2#6) (BitVec.ofNat 64 0xFF000000013000) 1
      (appendPage kvv 0xFF000000013000 (appHead kvv [] true zeroTok) [] true zeroTok 0).bytes 1 2112 {}) (fun _ => true) = true := by
  decide +kernel
/-- The homes of four blocks, and one that has room in the outbox. -/
theorem witness_KeyValueSpaces_query :
    gives kvs (kvs.homes (.kqry false 3#6 15#6 2#6 4#6 2#6 4#6 3#4) kvv ((List.range 4).map (0 + ·))) (fun hs => hs.length = 4 && hs.all (· < 4608)) = true ∧
    (2 : Nat) ≤ (3#4).toNat + 1 ∧ 0 % 2 ^ 32 + (3#4).toNat < 2 ^ 32 ∧ kvs.myCore.replySlots + 4 ≤ max 8 kvs.myCore.replySlots ∧
    kvs.myCore.outbox.length + 4 ≤ kvs.myCore.obuflim := by
  decide +kernel
theorem witness_KeyValueSpaces_reply :
    kvs.cur.saved = [] ∧ (kvs.x 5#6).toNat % 64 ≠ 0 ∧ (kvs.x 4#6).toNat % 64 = 0 ∧ inSelf (kvs.x 4#6).toNat = false ∧ (kvs.myCore.tag 6).kind ≠ .affine ∧ (kvs.myCore.tag 4).kind = .affine ∧
    kvs.myCore.replySlots < 8 ∧ kvs.myCore.outbox.length < kvs.myCore.obuflim ∧ kvs.relWaits true 0xFFFF = false ∧ kvs.relWaits false 0xFFFF = false ∧ (kvs.x 7#6).toNat ≥ 4608 ∧ (kvs.x 2#6).toNat = kvs.turn ∧
    (kvs.updMine fun c => { c with awaits := List.replicate 8 4 }).myCore.replySlots ≥ 8 := by
  decide +kernel
/-- The list of die 0 with two of four pages, its stack at 0x100, and the page of it in the die's own table. -/
def fls : State := s0.updDie 0 fun v => { v with fl := { stack := 0x100#64, enable := true, ctx := 1, cap := 4, top := 2 }, tlb := [{ ctx := 1, va := 0, w := 0x7000000000000C00#64 }] }
/-- A Lantern slot of 16 positions and one layer with every position masked; its record, by its words. -/
def lrec : List (BitVec 8) := (bytesOf 8 (16 + 2 ^ 16) ++ bytesOf 8 0x3F800000 ++ bytesOf 8 (1 + 16 * 2 ^ 16) ++ bytesOf 8 0x300 ++ bytesOf 8 0x340 ++ bytesOf 8 0x380) ++ List.replicate 144 0#8
def lns : State := (fls.setLslot 0 3 { ctx := 1, record := lrec, state := 1 }).wrN 0x300 2 0xFFFF
/-- `UnitAt`, as a check. -/
def unitAt (s : State) (d ctx : Nat) (wr : Bool) (as pas : List Nat) : Bool :=
  as.length = pas.length && (List.range as.length).all fun j =>
    as.getD j 0 < 2 ^ 56 && s.isOwn (pas.getD j 0) && (match regionOf (pas.getD j 0) with | .main _ => true | _ => false) &&
    (wr || !s.poisonedAt (pas.getD j 0) 1) && (!wr || !s.lineHeld (pas.getD j 0)) &&
    (findEnt (s.die d).tlb ctx (as.getD j 0)).any fun e => fld e.w (if wr then 61 else 62) 1 = 1 && !entRdup e.w && e.pa (as.getD j 0) = pas.getD j 0
theorem unitAt_elim {s : State} {d ctx : Nat} {wr : Bool} {as pas : List Nat} (h : unitAt s d ctx wr as pas = true) : UnitAt s d ctx wr as pas := by
  simp only [unitAt, Bool.and_eq_true, decide_eq_true_eq, List.all_eq_true, List.mem_range, Bool.or_eq_true, Bool.not_eq_true', Option.any_eq_true] at h
  refine ⟨h.1, fun j hj => ?_⟩
  obtain ⟨⟨⟨⟨⟨a, b⟩, c⟩, p⟩, t⟩, e, g, ⟨u, v⟩, w⟩ := h.2 j hj
  refine ⟨a, b, ?_, fun q => ?_, fun q => ?_, e, g, u, v, w⟩
  · split at c
    · exact ⟨_, ‹_›⟩
    · cases c
  · rcases p with p | p
    · rw [q] at p; cases p
    · exact p
  · rcases t with t | t
    · rw [q] at t; cases t
    · exact t
/-- A slot of 16 positions and one layer that has ranked and takes none, its list at 0x400; x12 a good record in the scratchpad, x13 a bad one. -/
def lz : LSlot := { ctx := 1, state := 2, record := bytesOf 8 (16 + 2 ^ 16) ++ List.replicate 16 0#8 ++ bytesOf 8 0x300 ++ bytesOf 8 0x400 ++ bytesOf 8 0x500 ++ List.replicate 144 0#8 }
def lzs : State :=
  ((lns.setLslot 0 3 lz).wrN 0xC000010000 192 (ofBytes lrec)).updCur fun r => (r.wx 12 0xFF000000010000#64).wx 13 0xFF000000010100#64
theorem witness_FreeListsAndLantern_places :
    UnitAt fls 0 1 false (run (0x100 + 4 * (2 - 1)) 4) (run 0x104 4) ∧ UnitAt fls 0 1 true (run (0x100 + 4 * 2) 4) (run 0x108 4) ∧
    UnitAt lns 0 1 false (run 0x40 (4 * 16) ++ run 0x300 (16 / 8)) (run 0x40 64 ++ run 0x300 2) ∧
    UnitAt lzs 0 1 true (run 0x400 8 ++ run 0x300 (16 / 8) ++ run 0x500 (1 * 16 / 8)) (run 0x400 8 ++ run 0x300 2 ++ run 0x500 2) :=
  ⟨unitAt_elim (by decide +kernel), unitAt_elim (by decide +kernel), unitAt_elim (by decide +kernel), unitAt_elim (by decide +kernel)⟩
theorem lzs_quiet : NoTraffic lzs := ⟨rfl, fun _ => rfl⟩
theorem witness_FreeListsAndLantern_record :
    let at_ (a : BitVec 6) : List (BitVec 8) := (run (lzs.x a).toNat 192).map fun o => lzs.rd (lzs.poolPa lzs.turn (o - 0xFF000000000000))
    lzs.x 12#6 ≠ 0#64 ∧ (lzs.x 12#6).toNat % 64 = 0 ∧ isTsc lzs.turn = false ∧ lzs.pkg < 2 ^ 13 ∧ lzs.turn < 4608 ∧ lzs.myCore.owner.l = [] ∧
    InScratchpad lzs (run (lzs.x 12#6).toNat 192) false ∧ InScratchpad lzs (run (lzs.x 13#6).toNat 192) false ∧
    ({ ctx := 1, record := at_ 12#6, state := 1 } : LSlot).bad = false ∧ ({ ctx := 1, record := at_ 13#6, state := 1 } : LSlot).bad = true := by
  unfold InScratchpad
  decide +kernel
theorem witness_FreeListsAndLantern :
    let l := (fls.die 0).fl
    let v := lns.lslot 0 3
    let z := lzs.lslot 0 3
    Ready fls [2, 5, 3] ∧ fls.acqWait = false ∧ (6 : Nat) ≥ 6 ∧ (fls.x 2#6).toNat < 6 ∧ (s0.die 0).fl.enable = false ∧ l.enable = true ∧ l.ctx = fls.myCore.ctxid ∧
    l.top = 2 ∧ l.cap = 4 ∧ l.stack = 0x100#64 ∧ fls.loadWait = false ∧ fls.relWaits true 0xFFFF = false ∧ Memory.wf fls.mem = true ∧
    (fls.x 5#6).toNat % 2 ^ 32 < l.cap ∧ (fls.x 10#6).toNat % 2 ^ 32 ≥ l.cap ∧ (lns.x 7#6).toNat ≥ 16 ∧ (lns.x 5#6).toNat = 3 ∧ lns.lnBusy 3 = false ∧ lns.cur.saved = [] ∧
    v.state ≠ 0 ∧ v.ctx = lns.myCore.ctxid ∧ (lns.lslot 0 4).state = 0 ∧ (lns.x 4#6).toNat = 0x40 ∧ (lns.x 5#6).toNat % 64 ≠ 0 ∧ v.npos = 16 ∧ (v.w 3).toNat = 0x300 ∧
    lns.relWaits true 0xFFFF = false ∧ Ready lzs [5, 12, 3] ∧ lzs.lnBusy 3 = false ∧ lzs.cur.saved = [] ∧ z.state = 2 ∧ z.ctx = lzs.myCore.ctxid ∧ z.npos = 16 ∧ z.nlayer = 1 ∧
    ((z.w 3).toNat, (z.w 4).toNat, (z.w 5).toNat) = (0x300, 0x400, 0x500) ∧ z.take = 0 ∧ z.cells ((z.round + 1) % 2 ^ 32) [] = [] ∧ lzs.unitDue 0 = false ∧
    lzs.relWaits true 0xFFFF = false ∧ Memory.wf lzs.mem = true ∧ (run 0x400 8 ++ run 0x300 2 ++ run 0x500 2).Nodup := by
  unfold Ready
  decide +kernel
/-! #### Translation, flows, groups -/

/-- A firing of translation service core 4608 with the entry word of a 4 KiB page at 0x5000 for context 1 in its registers. -/
def ts : State := (({ mk core0 frame0 with turn := 4608, cores := ({} : Tab Core).put 4608 { core0 with ctxid := 0 }, frames := ({} : Tab Frame).put (32 * 4608) (((frame0.wx 13 0x4000000000005000#64).wx 14 0x5000#64).wx 15 1#64) } : State).updDie 0 fun v => { v with ctxbase := 0x8000 }) |>.wrN 0x8000 8 (1 + 2 ^ 16)
theorem witness_TranslationAndRights :
    let e := s0.updMine fun c => { c with slog := c.slog.put 63 { frame := 3, va := 0x1000, size := 8, bytes := [(0, 1#8)], order := 0 } }
    let c := (s0.updDie 0 fun v => { v with ctxbase := 0x8000 }).wrN 0x8000 8 (1 + 2 ^ 16)
    Ready s0 [4, 8, 2, 5, 3] ∧ isTsc s0.turn = false ∧ s0.cur.deferred = [] ∧ s0.x 5#6 ≠ 0#64 ∧ (s0.x 5#6).toNat ≠ s0.myCore.ctxid ∧ Ready ts [13, 14, 15, 2, 3] ∧ isTsc ts.turn = true ∧
    (ts.x 13#6).toNat < 2 ^ 63 ∧ ts.x 2#6 = 0#64 ∧ ts.entryBad (ts.x 13#6) (ts.x 14#6) (BitVec.ofNat 64 ((ts.x 15#6).toNat % 2 ^ 16)) none = 0 ∧
    ts.entryBad (ts.x 13#6) (ts.x 10#6) (BitVec.ofNat 64 ((ts.x 15#6).toNat % 2 ^ 16)) none ≠ 0 ∧ s0.x 2#6 = 0#64 ∧ (s0.x 4#6).toNat % 4096 ≠ 0 ∧ (s0.x 9#6).toNat % 4096 = 0 ∧
    (s0.tlbDrop 1 0 0).ctxPending 1 = false ∧ (s0.x 7#6).toNat ≥ 2 ^ 56 ∧ (s0.tlbLook s0.turn 1 0x40).isSome = true ∧ s0.slotOf 1 = none ∧ c.slotOf c.myCore.ctxid = some 0 ∧
    (s0.x 10#6).toNat > 64 ∧ s0.myCore.slog.get? 63 = none ∧ e.myCore.slog.get? 63 = some { frame := 3, va := 0x1000, size := 8, bytes := [(0, 1#8)], order := 0 } := by
  unfold Ready
  decide +kernel
/-- Rights to flows and groups; a flow in slot 3 with all its packets delivered, and dead; a formed group 3 of which the core is a member. -/
theorem witness_FlowsAndGroups :
    let x : Flow := { pkg := 9, ordered := true, grouped := false, group := 0, inc := 0, next := 5, delivered := 5 }
    let f := s0.updMine fun c => { c with flows := c.flows.put 3 x }
    let full := s0.updMine fun c => { c with flows := ⟨(List.range 31).map fun n => (n + 1, x)⟩ }
    let g : Group := { state := 2, ctx := 1, inc := 7, members := [(0, 0)] }
    let q := s0.setGroup 3 g
    let none_ := s0.updMine fun c => { c with capw := 0#64 }
    let m := ((s0.wrN 0x40 8 1).wrN 0x48 8 100).wrN 0x50 4 0
    let sav (l : List Nat) := s0.updCur fun r => { r with saved := l }
    Ready s0 [5, 4, 2, 3, 11] ∧ isTsc s0.turn = false ∧ s0.cur.deferred = [] ∧ none_.myCore.capw.getLsbD 1 = false ∧ none_.myCore.capw.getLsbD 2 = false ∧ s0.cur.saved = [] ∧
    s0.myCore.capw.getLsbD 1 = true ∧ s0.myCore.capw.getLsbD 2 = true ∧ (s0.x 7#6).toNat ≥ 4608 ∧ (s0.x 2#6).toNat = s0.pkg ∧ (s0.x 5#6).toNat < 4608 ∧ (s0.x 5#6).toNat ≠ s0.pkg ∧
    (s0.x 4#6).toNat / 4 % 2 ^ 6 ≠ 0 ∧ (s0.x 2#6).toNat < 2 ∧ ((List.range 31).all fun n => (full.myCore.flows.get? (n + 1)).isSome) = true ∧ s0.myCore.flows.get? 1 = none ∧
    s0.myCore.flows.get? 3 = none ∧ f.myCore.flows.get? 3 = some x ∧ x.dead = false ∧ f.myCore.copies = [] ∧ x.delivered = x.next ∧ (s0.x 10#6).toNat ≥ 64 ∧ (q.group 3).state = 2 ∧
    (q.group 3).ctx = q.myCore.ctxid ∧ (q.turn, q.pkg) ∈ (q.group 3).members ∧ (s0.group 3).state = 0 ∧ (q.setGroup 3 { g with ctx := 2 }).group 3 = { g with ctx := 2 } ∧
    runOf m (.cgform false 3#6 5#6 4#6 2#6) 0x40 16 (fun t h => ofBytes (h.take 8) = 1 && t.x 4#6 = m.x 4#6 &&
      runOf t (.cgform false 3#6 5#6 4#6 2#6) 0x40 20 (fun _ l => (cgMembers l).isSome)) = true ∧ (s0.x 5#6).toNat ≤ 4 ∧ (sav [savFormed, 3, 7]).cur.saved = [savFormed, 3, 7] ∧
    (sav [savAborted, 3, 7, 2]).cur.saved = [savAborted, 3, 7, 2] ∧ (q.x 4#6).toNat % 8 = 0 ∧
    gives (q.updCur fun r => { r with saved := [savGroup, 3, g.inc] }) ((q.updCur fun r => { r with saved := [savGroup, 3, g.inc] }).load (.cgwait false 3#6 5#6 4#6 2#6 2#6) (q.x 4#6) 8 0 regLoad)
      (· ≥ (q.x 2#6).toNat) = true := by
  unfold Ready
  decide +kernel
/-! #### Events -/

def oneGang : Gang := { launch := 1, rank := 0, cores := [0, 1], steal := 0, bar := 0, code := [] }
theorem witness_FiringEvents :
    let w := s0.updCur fun r => { r with unret := 1 }
    let p := s0.updCur fun r => { r with unret := 1, stat := .parked }
    let h := s0.updCur fun r => { r with hold := .wait, stat := .parked }
    let a := (s0.updMine fun c => { c with gang := some oneGang }).updCur fun r => { r with hold := .align }
    let b := (s0.updCore 1 fun c => { c with gang := some oneGang }).updFr 1 0 fun r => { r with hold := .align, stat := .parked }
    let i := (s0.updMine fun c => { c with issuing := none }).updFr 0 8 fun r => { r with stat := .ready }
    let full := (List.range 8).foldl (fun s f => s.updFr 0 f fun r => { r with stat := .parked }) (s0.updMine fun c => { c with issuing := none })
    State.reset.main = false ∧ (w.fr 0 0).stat ≠ .free ∧ (w.fr 0 0).unret = 1 ∧ (p.fr 0 0).stat = .parked ∧ (p.fr 0 0).unret = 1 ∧ (p.fr 0 0).waits = [] ∧ (p.fr 0 0).hold = .no ∧
    (p.fr 0 0).ending = false ∧ (p.fr 0 0).deferred = [] ∧ p.main = true ∧ (s0.core 0).issuing = some 0 ∧ (h.fr 0 0).stat ≠ .free ∧ (h.fr 0 0).stat ≠ .stopped ∧ (i.fr 0 8).yielded = false ∧ (h.fr 0 0).waits = [] ∧ (h.fr 0 0).hold = .wait ∧
    (a.core 0).gang = some oneGang ∧ (a.fr 0 0).hold = .align ∧ a.launchFr 0 = some 0 ∧ (oneGang.mates 0).headD 0 = 0 ∧ (b.core 1).gang = some oneGang ∧ (b.fr 1 0).hold = .align ∧
    b.launchFr 1 = some 0 ∧ (oneGang.mates 1).headD 1 ≠ 1 ∧ isTsc 0 = false ∧ (i.core 0).issuing = none ∧ (i.core 0).frozen = false ∧ (i.core 0).leave = false ∧ (i.fr 0 8).stat = .ready ∧
    i.main = true ∧ (full.core 0).issuing = none ∧ (full.core 0).frozen = false ∧ (full.core 0).leave = false ∧ full.freeFrame 0 = none ∧ ∀ j, j < 9 → (full.fr 0 j).stat ≠ .ready := by
  decide +kernel
theorem witness_MessageEvents :
    let g : Msg := { ctx := 1, tag := 4, payload := [1#8] }
    let x : Msg := { g with kind := .mxrem, capw := 1#64, words := [0#64, 0#64, 0#64, 0#64] }
    let put (g : Msg) : State := sm.updMine fun c => { c with outbox := [⟨g, false⟩] }
    let busy := (put x).updMine fun c => { c with mx := { c.mx with queue := List.replicate 2 { op := 3, w0 := 0#64, w1 := 0#64, w2 := 0#64, w3 := 0#64, who := .regs } } }
    let o := ({ sm with replies := [g] } : State).updMine fun c => { c with autos := [g] }
    let q (l : List Nat) : State := sm.updCur fun r => { r with saved := l }
    let y : Msg := { kind := .spawn, ctx := 1, dst := 1, tag := 62, words := [0#64] }
    let sp : State := (q [31, 7]).updMine fun c => { c with outbox := [⟨y, false⟩] }
    let t := sp.updCore 1 fun c => { c with ctxid := 1, tags := c.tags.put 62 { e := true } }
    let many := sm.updMine fun c => { c with outbox := List.replicate 16 ⟨g, false⟩ }
    (0 : Nat) < 4896 ∧ ((put g).core 0).outbox = [⟨g, false⟩] ∧ g.kind = .plain ∧ ((put { g with ctx := 2 }).core 0).ctxid ≠ 2 ∧ ((put g).core 0).ctxid = g.ctx ∧
    (((put g).core 0).tag 4).kind = .affine ∧ (((put g).core 0).tag 5).kind ≠ .affine ∧ ((put g).core 0).freeSlot 0 24 = some 0 ∧ (s0.updMine fun c => { c with outbox := [⟨g, false⟩] }).heapCap 0 = 0 ∧
    ((put x).core 0).outbox = [⟨x, false⟩] ∧ x.kind = .mxrem ∧ x.capw.getLsbD 0 = true ∧ g.capw.getLsbD 0 = false ∧ ((put x).core 0).full false = false ∧ (busy.core 0).full false = true ∧
    o.replies = [g] ∧ (o.core 0).ctxid = g.ctx ∧ (o.core 0).freeSlot 24 8 = some 24 ∧ ((o.core 0).tag 4).kind = .affine ∧ (o.core 0).autos = [g] ∧ (o.core 0).outbox.length < 16 ∧
    (many.core 0).outbox.length ≥ 16 ∧ (t.fr 0 0).saved = [31, 7] ∧ (t.core 0).outbox = [⟨y, false⟩] ∧ y.kind = .spawn ∧ y.no = 0 ∧ (t.core 1).ctxid = y.ctx ∧
    ((t.core 1).tag 62).e = true ∧ ((t.core 1).tag 62).h = 0 ∧ ((t.core 1).inbox.l.filter fun e => e.2.kind = .spawn).length < 8 ∧ t.heapCap 1 = 0 ∧
    (t.core 1).freeSlot 0 24 = some 0 ∧ (sp.core 1).ctxid ≠ y.ctx ∧ ((q [32, 1, 7]).fr 0 0).saved = [32, 1, 7] ∧ ((q [32, 1, 7]).fr 0 0).stat ≠ .free ∧
    ((q [32, 1, 7]).fr 0 0).stat ≠ .stopped ∧ (q [32, 1, 7]).main = true := by
  decide +kernel
theorem witness_EngineEvents :
    let l : Tab Word := ((({} : Tab Word).put 0 1#64).put 1 1#64).put 2 1#64 |>.put 3 1#64
    let m : Cmd := { op := 3, w0 := 0#64, w1 := 0#64, w2 := 0#64, w3 := 0#64, who := .regs }
    let h : HeldGo := { words := [1#64, 1#64, 1#64, 1#64], v := 3#64, core := 0, frame := 0 }
    let full := s0.updMine fun c => { c with mx := { c.mx with latch := l }, cp := { c.cp with latch := l } }
    let held := s0.updMine fun c => { c with cp := { c.cp with latch := l, held := [h] } }
    let busy := held.updMine fun c => { c with cp := { c.cp with queue := [m, m] } }
    let q := s0.updMine fun c => { c with mx := { c.mx with queue := [m] }, cp := { c.cp with running := [m] } }
    let b : Cmd := { m with bad := 5 }
    let n : Cmd := { m with op := 0, w0 := 0xFF000000100000#64, w1 := 0x40#64, w2 := 1#64 }
    let done_ : State := s0.updMine fun c => { c with mx := { c.mx with running := [m], result := some (0, 0, 0) } }
    let ended : State := s0.updMine fun c => { c with cp := { c.cp with running := [{ m with ended := some (0, 0, 0) }] } }
    let full_ : State := ended.updMine fun c => { c with slog := ⟨(List.range 64).map fun n => (n, { frame := 0, va := 0, size := 8, bytes := [], order := 0 })⟩ }
    let later : State := { ended with rdup := [{ pa := 0x100, bytes := [1#8], home := 0, dies := [1], atomic := true, core := 0, ctx := 1, seq := some 0 }] }
    (s0.core 0).mx.latch.get? (0#2).toNat = none ∧ (s0.core 0).cp.latch.get? (0#2).toNat = none ∧ s0.main = true ∧ (∀ i < 4, (full.core 0).mx.latch.get? i = some 1#64) ∧
    (∀ i < 4, (full.core 0).cp.latch.get? i = some 1#64) ∧ (full.core 0).full false = false ∧ (full.core 0).full true = false ∧ (full.core 0).mx.held = [] ∧ (s0.core 0).cp.held = [] ∧
    (held.core 0).cp.held = [h] ∧ (held.core 0).full true = false ∧ (busy.core 0).full true = true ∧ (q.core 0).mx.running = [] ∧ (q.core 0).mx.queue = [m] ∧
    b.bad ≠ 0 ∧ (done_.core 0).mx.running = [m] ∧ (done_.core 0).mx.result = some (0, 0, 0) ∧ done_.mailWaits 0 m.who (m.mail false) = false ∧
    (q.core 0).cp.running = [m] ∧ m.ended = none ∧ m.bad = 0 ∧ q.cpyScan 0 m m.len 0 = none ∧ (match s0.cpyScan 0 n 1 0 with | some (0, .code 6) => true | _ => false) = true ∧
    (ended.core 0).cp.running = [{ m with ended := some (0, 0, 0) }] ∧ ended.cmdDue 0 m = false ∧ later.cmdDue 0 m = true ∧ ended.mailWaits 0 m.who (m.mail true) = false ∧
    full_.mailWaits 0 m.who 0x10000000 = true ∧
    (ended.core 0).flows.get? (m.w2.toNat / 2 ^ 52) = none ∧ (∀ x ∈ ([] : List Cmd), x ≠ m) := by
  decide +kernel
/-- Without an owner table every granule lies at its own number, so a tile's bytes lie apart. -/
theorem apart (s : State) (k t : Nat) (h : (s.core k).owner.l = []) : TileApart s k t := by
  intro i j _ _ e
  simp only [State.poolPa, State.here, Core.phys, h, findOwner, Option.getD_none] at e
  omega
def queued (m : Cmd) : State := se.updMine fun c => { c with mx := { c.mx with queue := [m] } }
def mulCmd : Cmd := se.mxFix 0 (mxCmd se 0 (se.x 20#6) (se.x 21#6) (se.x 24#6) 0#64)
def drnCmd : Cmd := se.mxFix 0 (mxCmd se 2 (se.x 23#6) 0#64 0#64 0#64)
def clrCmd : Cmd := { op := 3, w0 := 0#64, w1 := 0#64, w2 := 0x105#64, w3 := 0#64, who := .regs }
theorem witness_EngineEvents_tiles :
    let js (r : Rec) (b : Nat) (isA : Bool) : List (Nat × Nat) := blockBytes r b isA ((List.range 32).filter (· < 4))
    ((∀ m ∈ [mulCmd, drnCmd, clrCmd], (queued m).main = true ∧ (queued m).halted 0 = false ∧ ((queued m).core 0).mx.running = [] ∧ ((queued m).core 0).mx.queue = [m] ∧
      m.bad = 0 ∧ Memory.wf (queued m).mem = true) ∧ clrCmd.op = 3) ∧
    (mulCmd.op = 0 ∧ mulCmd.w2.toNat / 2 ^ 4 % 2 = 1 ∧ mulCmd.recA.kdim true false = 4 ∧ mulCmd.recB.depth false = 4 ∧ mulCmd.recA.acc = false ∧
      mulCmd.recA.pen = false ∧ mulCmd.recA.ef = 2 ∧ mulCmd.recB.ef = 2 ∧
      (queued mulCmd).poolPoison 0 ([(mulCmd.w0.toNat, 64), (mulCmd.w1.toNat, 64)] ++ blockScales mulCmd.recA true 4 0 ++ blockScales mulCmd.recB false 4 0 ++
        js mulCmd.recA (mulCmd.bases.getD 0 0) true ++ js mulCmd.recB (mulCmd.bases.getD 1 0) false) = false) ∧
    (drnCmd.op = 2 ∧ drnCmd.w2.toNat / 2 ^ 5 % 2 = 0 ∧ (se.core 0).accPoison = [] ∧ (queued drnCmd).poolPoison 0 [(drnCmd.w0.toNat, 64)] = false ∧
      elemBits drnCmd.recA.fmt = 32 ∧ drnCmd.recA.rows = 1 ∧ drnCmd.recA.cols = 1 ∧
      (drnCmd.recA.at (drnCmd.bases.getD 0 0) 0 0).map ((queued drnCmd).poolPa 0) = [0xC000010300, 0xC000010301, 0xC000010302, 0xC000010303] ∧
      (se.core 0).tileOff 0 + 4096 < 0x10000) := by
  decide +kernel
theorem witness_EngineEvents_apart (m : Cmd) (t : Nat) : TileApart (queued m) 0 t := apart _ _ _ rfl
/-- A copy of two bytes from 0x40 to 0x80, one whose destination is a draining buffer reached through its own page, and a core held by a frozen
context. -/
def cpCmd2 (op : Nat) : Cmd := { op := op, w0 := 0x40#64, w1 := 0x80#64, w2 := 2#64, w3 := 0#64, who := .regs }
def copying (m : Cmd) : State := s0.updMine fun c => { c with cp := { c.cp with running := [m] } }
theorem witness_EngineEvents_copies :
    let m := cpCmd2 0
    let s := copying m
    s.main = true ∧ s.halted 0 = false ∧ isTsc 0 = false ∧ (s.core 0).cp.running = [m] ∧ m.ended = none ∧ m.bad = 0 ∧ m.op ≤ 3 ∧ Memory.wf s.mem = true ∧
    s.cpyScan 0 m m.len 0 = none ∧ s.aliasOut 0 m = false ∧ m.bases = [] ∧ m.len = 2 ∧
    (∀ i, i < 2 → copyAddr s 0 m i = (0x40 + i, 0x80 + i) ∧ s.place 0 (0x40 + i) 1 needR = .mem (0x40 + i) 0x7000000000000C00#64 none ∧
      s.place 0 (0x80 + i) 1 needW = .mem (0x80 + i) 0x7000000000000C00#64 none ∧ regionOf (0x40 + i) = .main 0 ∧ regionOf (0x80 + i) = .main 0 ∧
      readPa 0 (0x40 + i) 0x7000000000000C00#64 = 0x40 + i) ∧ entRdup 0x7000000000000C00#64 = false ∧ m.mail true = 0 ∧
    ({ (s0.updMine fun c => { c with frozen := true, gang := some oneGang }) with
      launches := [{ id := 1, die := 0, q := 5, ctx := 1, after := false, scope := 0, steal := 0, bar := 0, image := 0#64, size := 4, entry := 0, gangw := 0#64,
                     partw := 0#64, arg := 0#64, signal := 0#64, cores := [0] }] } : State).halted 0 = true ∧
    (let b := (copying { m with w0 := 0x80#64, w1 := 0x8010000#64 }).updMine fun c => { c with
       bufs := c.bufs.put 3 { base := 0x10000, len := 64, span := 0, state := 2 }, tlb := { ctx := 1, va := 0x8000000, w := 0x700000C000000C00#64 } :: c.tlb }
     b.aliasOut 0 { m with w0 := 0x80#64, w1 := 0x8010000#64 } = true) := by
  decide +kernel
/-- Die 0 with the first 64 MiB page and the record of context 1 at 0x8000; a walk for core 0. -/
def sb : State := ((s0.updDie 0 fun v => { v with tlb := [{ ctx := 1, va := 0, w := 0x7000000000000C00#64 }], ctxbase := 0x8000 }).wrN 0x8000 8 (1 + 2 ^ 16))
theorem witness_SequencerEvents :
    let k : Walk := { who := .frame 0 0, core := 0, ctx := 1, va := 0x9000, kind := 0, needs := needR }
    let w : State := { sb with walks := [k] }
    let a := w.updDie 0 fun v => { v with assist := 2 }
    let i := w.updDie 0 fun v => { v with walkImg := some [0#8], walkEntry := 0 }
    let d := (runS.wrN 0x4000008 8 (2 * 2 ^ 32 + 1)).wrN 0x40010A8 8 (2 * 2 ^ 32 + 0x1800)
    let e : SheetE := { pa := 0x4000000, ctx := 1, va := 0x4000000 }
    let q : State := sb.setSQueue 3 { enable := true, ctx := 1, ringbase := 0x4000#64, ringsize := 4, share := 8, high := 8, low := 1, head := 5, tail := 7, refill := true }
    let Q := q.squeue 3
    w.walks[0]? = some k ∧ dieOf k.core = 0 ∧ nextWalk w.walks 0 = some k ∧ nfld (a.die 0).assist 1 1 = 1 ∧ a.main = true ∧ nfld (i.die 0).assist 1 1 = 0 ∧ (i.die 0).walkImg = some [0#8] ∧
    i.freeFrame (tscOf k.core) = some 0 ∧ (d.die 0).dir[0]? = some e ∧ d.dispatchCell e.pa = some 1 ∧ runS.dispatchCell e.pa = none ∧ d.main = true ∧
    1 ∈ ({ e with poisonWait := [1] } : SheetE).poisonWait ∧ d.unfinished e.pa < 4 ∧ Q.enable = true ∧ Q.broken = false ∧ Q.refill = true ∧ (sb.squeue 4).refill = false ∧ Q.inRing = 2 ∧ (w.die 0).walkImg = none ∧ 0 < 16 ∧
    (match q.ringGets 3 (Q.head + Q.bank.length) (min Q.inRing (Q.share - Q.bank.length)) with | .inr l => l.length = 2 | .inl _ => false) = true ∧ (sb.squeue 4).enable = false := by
  decide +kernel
theorem witness_MoveAndReplicaEvents :
    let r : Rdup := { pa := 0x100, bytes := [1#8], home := 0, dies := [1], atomic := false, core := 0 }
    let x : Rdup := { r with atomic := true, dies := [1, 2] }
    let t : State := { s0 with rdup := [r, x] }
    let q (l : List Nat) : State := kvs.updCur fun r => { r with saved := l }
    ((q (51 :: 1 :: 7 :: 9 :: (kvv.pack ++ [0]))).fr 0 0).saved = 51 :: 1 :: 7 :: 9 :: (kvv.pack ++ [0]) ∧ kvs.main = true ∧ (kvs.core 1).ctxid ≠ (kvs.core 0).ctxid ∧ (kvs.fr 0 0).stat ≠ .free ∧ (kvs.fr 0 0).stat ≠ .stopped ∧
    ((q (52 :: 0xC :: 0 :: 1 :: 7 :: 9 :: kvv.pack)).fr 0 0).saved = 52 :: 0xC :: 0 :: 1 :: 7 :: 9 :: kvv.pack ∧
    (q (52 :: 0 :: 5 :: 1 :: 7 :: (2 ^ 62 + 2 ^ 61) :: kvv.pack)).probe 0 kvv 7 = .found (kvHash 7 % 256) ∧ (2 ^ 62 + 2 ^ 61) / 2 ^ 61 % 2 = 1 ∧
    t.rdup[0]? = some r ∧ 1 ∈ r.dies ∧ r.dies = [1] ∧ (∀ y ∈ t.rdup.take 0, sameLine y r = false ∨ 1 ∉ y.dies) ∧ t.rdup[1]? = some x ∧ x.dies.erase 1 ≠ [] ∧
    (∀ y ∈ ({ s0 with rdup := [x] } : State).rdup.take 0, sameLine y x = false) := by
  decide +kernel
theorem witness_ProgramTraffic_flows :
    let p : Peer := { flows := ({} : Tab InFlow).put 3 { start := 1, got := [4], next := 2 } }
    let s := s0.setPeer 1 p
    let F := p.flows.get 3 {}
    (s.peer 1).flows.get? 3 = some F ∧ F.start ≠ (0#32).toNat ∧ seqGe (0#32).toNat F.next = false ∧ F.start = (1#32).toNat ∧ seqGe (1#32).toNat F.next = false ∧ (4#32).toNat ∈ F.got ∧
    seqGe (2#32).toNat F.next = true ∧ (2#32).toNat = F.next ∧ (3#32).toNat ≠ F.next ∧ seqGe (3#32).toNat F.next = true ∧ (2#32).toNat ∉ F.got ∧ F.held = [] ∧ (s.peer 1).flows.get? 4 = none := by
  decide +kernel
theorem witness_ProgramTraffic :
    let p : Peer := { applied := [5], relApplied := [7], flows := ({} : Tab InFlow).put 3 { start := 1, got := [4], next := 2 } }
    let s := s0.setPeer 1 p
    let q : PStore := { num := 1, rel := none, pa := 0x100, bytes := [1#8], core := 0, frame := 0, launch := 1 }
    let o := s0.setPeer 1 { pending := [q] }
    let f := s0.updCur fun r => { r with far := [(0x100, 1)], hold := .wait }
    ((1 : Nat) ≠ s.pkg ∧ ((255#8).toNat + 256 - (s.peer 1).rxEpoch) % 256 ≥ 128 ∧ (255#8).toNat ≠ (s.peer 1).rxEpoch ∧ (0#8).toNat = (s.peer 1).rxEpoch ∧ (5#32).toNat ∈ (s.peer 1).applied ∧
      seqGe (s.peer 1).delivered (0#32).toNat = true ∧ (6#32).toNat ∉ (s.peer 1).applied ∧ seqGe (s.peer 1).delivered (6#32).toNat = false ∧ (s.peer 1).relWait = [] ∧
      regionOf 0x100 = .main 0 ∧ s.isOwn 0x100 = true ∧ regionOf 0xC000010000 = .sram 0 0x10000 ∧ (s.windowPa (s.core 0).ctxid 0 0x10000).isSome = true ∧
      s.windowPa (s.core 0).ctxid 0 0x100 = none ∧ s.main = true) ∧
    ((7#32).toNat ∈ (s.peer 1).relApplied ∧ (1#32).toNat ∉ (s.peer 1).relApplied ∧ seqGe (s.peer 1).relDone (1#32).toNat = false ∧ seqGe (s.peer 1).delivered (1#32).toNat = false ∧
      seqGe (s.peer 1).delivered (0#32).toNat = true ∧ (8 : Nat) ∈ [1, 2, 4, 8]) ∧
    (0x100 % 8 = 0 ∧ s.poisonedAt 0x100 8 = false ∧ s.rdN 0x100 8 = (0#64).toNat % 2 ^ (8 * 8) ∧ s.rdN 0x100 8 ≠ (1#64).toNat % 2 ^ (8 * 8)) ∧
    (s.peer 1).pending = [] ∧ (o.peer 1).pending = [q] ∧ q.epoch = (o.peer 1).txEpoch ∧ seqGe (1#32).toNat q.num = true ∧ regionOf q.pa = .main 0 ∧ (f.fr 0 0).far = [(0x100, 1)] ∧
    (1 : Nat) < 2 ^ 16 ∧ (f.fr 0 0).hold ≠ .no ∧ (f.fr 0 0).stat ≠ .stopped ∧ (f.fr 0 0).saved = [] ∧ q.rel = none := by
  decide +kernel
theorem witness_LinksAndGroupEvents :
    let u (p : Port) : State := s0.setPort 0 p
    let g : Group := { state := 2, ctx := 1, inc := 7, members := [(0, 0)] }
    let sav (l : List Nat) (g : Group) : State := (s0.setGroup 3 g).updCur fun r => { r with saved := l }
    let l := bytesOf 8 2 ++ bytesOf 8 100 ++ bytesOf 4 0 ++ bytesOf 4 (1 + 2 ^ 16)
    ((u { width := 1 }).port 0).width ≠ 0 ∧ ((u { width := 1 }).port 0).training = false ∧ ((u { width := 1 }).port 0).lastRx = none ∧
    ((u { width := 1, crcFails := 1 }).port 0).crcFails = 1 ∧ (5#12).toNat ∉ ((u { width := 1 }).port 0).replay ∧
    ((u { width := 1, replay := [5, 6] }).port 0).replay = (5#12).toNat :: [6] ∧ ((u { width := 1, replay := [5, 6] }).port 0).waitTx = 0 ∧
    ((u { width := 1, training := true }).port 0).training = true ∧ ((u { width := 1, training := true }).port 0).width = 1 ∧ (1 : Nat) ≠ s0.pkg ∧
    (cgMembers l).map (·.map (·.2)) = some [s0.pkg, 1] ∧ cgMembers [] = none ∧ ((s0.setGroup 3 { g with state := 1 }).group 3).state = 1 ∧ ((s0.setGroup 3 g).group 3).state = 2 ∧
    ((s0.setGroup 3 g).group 3).inc ≠ (5#16).toNat ∧ ((s0.setGroup 3 g).group 3).inc = (7#16).toNat ∧ ((sav [savGroup, 3, 7] g).fr 0 0).saved = [savGroup, 3, ((s0.setGroup 3 g).group 3).inc] ∧
    ((sav [savForm, 3, 5] { g with state := 1 }).fr 0 0).saved = [savForm, 3, 5] ∧ ((s0.setGroup 3 { g with state := 1, posted := true }).group 3).posted = true ∧ (s0.group 3).posted = false := by
  decide +kernel
/-- Queue 5 of die 0 for context 1, its ring of 16 packets at 0x4000: one no-operation packet, of phase 0. -/
def sl (w : Nat) : State :=
  (sb.wrN 0x4000 8 w).setUq 0 5 { ring := 0x4000#64, enable := true, ctx := 1, log2 := 4, promised := 1 }
/-- A launch of core 0 that reads its 4-byte image at 0x3000. -/
def la : Launch := { id := 1, die := 0, q := 5, ctx := 1, after := false, scope := 0, steal := 0, bar := 0, image := 0x3000#64, size := 4, entry := 0, gangw := 0x1010000#64, partw := 0xC800080008#64,
                     arg := 0#64, signal := 0x100#64, cores := [0] }
theorem witness_LaunchEvents :
    let u := (sl 1).uq 0 5
    let launch := (((sl (1 + 2 ^ 16)).wrN 0x4008 8 0x3000).wrN 0x4010 8 4).wrN 0x4018 16 (0x1010000 + 0xC800080008 * 2 ^ 64)
    let at_ (s : State) : Nat := match s.unitAcc 0 (frontUnit 0 5) 1 0x4000 needR with | .go _ pa _ => pa | _ => 1
    let bad (s : State) : Bool := packetBad (words64 8 (s.rdBytes 0x4000 64))
    let run_ (L : Launch) : State := { sb with launches := [L] }
    let ready := ({ sb with launches := [la] } : State).updMine fun c => { c with gang := none, issuing := none }
    let q : State := { sb with launches := [{ la with released := true }] }
    let gone : State := (q.updMine fun c => { c with ctxid := 2 })
    let saved : State := ({ sb with savedCores := ({} : Tab Core).put (savedKey 1 1) {} } : State)
    let told := (sl 1).updDie 0 fun v => { v with assist := 1 }
    (0 : Nat) < 6 ∧ (5 : Nat) < 64 ∧ (s0.uq 0 5).enable = false ∧ u.enable = true ∧ (sl 1).barred u.ctx = false ∧ ((2 + 2 ^ 32 - u.head) % 2 ^ 32 ≤ 2 ^ u.log2) ∧
    (2 + 2 ^ 32 - u.head) % 2 ^ 32 > (u.promised + 2 ^ 32 - u.head) % 2 ^ 32 ∧ (17 + 2 ^ 32 - u.head) % 2 ^ 32 > 2 ^ u.log2 ∧ s0.mayParse 0 5 = false ∧ (sl 1).mayParse 0 5 = true ∧
    at_ (sl 1) = 0x4000 ∧ (sl 1).poisonedAt 0x4000 64 = false ∧ bad (sl 1) = false ∧ bad (sl 3) = true ∧ bad launch = false ∧ launch.mayParse 0 5 = true ∧
    ((words64 8 ((sl 0).rdBytes 0x4000 64)).getD 0 0#64).toNat % 2 = 0 ∧ ((words64 8 (launch.rdBytes 0x4000 64)).getD 0 0#64).toNat / 2 ^ 16 % 2 ^ 8 = 1 ∧ (run_ la).launches[0]? = some la ∧
    la.released = false ∧ la.ended = false ∧ la.after = false ∧ ready.barred la.ctx = false ∧ ready.frozen la.ctx = false ∧ ready.slotOf la.ctx = some 0 ∧ (ready.die la.die).feDown = false ∧
    ready.barArmed la = false ∧ (∀ R ∈ ready.launches, R.id = la.id ∨ R.released = false ∨ R.ended = true ∨ R.die ≠ la.die ∨ R.q ≠ la.q) ∧
    (match ready.seat la 0 with | .free => true | _ => false) = true ∧ (match ready.readVa la.die (3600 + la.die) la.ctx 17 la.image.toNat la.size with | .got _ l => l.length = 4 | _ => false) = true ∧
    s0.retiring = [] ∧ q.gangDone la = true ∧ ({ q with rdup := [{ pa := 0x100, bytes := [1#8], home := 0, dies := [1], atomic := true, core := 0, ctx := 1 }] } : State).gangDone la = false ∧
    ({ la with sigFault := true } : Launch).sigFault = true ∧ la.sigFault = false ∧ ({ la with ended := true } : Launch).ended = true ∧ (∀ k ∈ la.cores, gone.retired la k = true) ∧
    (∃ k ∈ la.cores, q.retired la k = false) ∧ s0.mayResume 1 1 = false ∧ saved.mayResume 1 1 = true ∧
    nfld ((sl 1).die 0).assist 0 1 = 0 ∧ nfld (told.die 0).assist 0 1 = 1 ∧ told.uq 0 5 = u ∧ told.barred u.ctx = false ∧ la.owes = false ∧
    (∀ o ∈ ((run_ la).launchEnd la (-1)).launches, o.id ≠ la.id) := by
  decide +kernel
theorem witness_MasterEvents :
    let t := s0.updDie 0 fun v => { v with tw := (((({} : Tab Word).put 0 1#64).put 1 1#64).put 2 1#64).put 3 1#64, wfbusy := true, assist := 2, fl := { v.fl with enable := true } }
    let z := (s0.updFr 0 0 fun r => { r with stat := .stopped }).updFr 0 8 fun r => { r with stat := .stopped }
    let r : State := ((({ sb with launches := [{ la with released := true }] } : State).wrN 0x8010 8 0x10000).wrN 0x10000 4 1).updMine fun c => { c with gang := some { launch := 1, rank := 0, cores := [0], steal := 0, bar := 0, code := [] } }
    let f : State := { s0 with frozenMgmt := true, frozenFns := [3], linkUp := [0, 1] }
    let a (pa : Nat) := s0.pkg * 2 ^ 40 + pa % 2 ^ 40
    (0 : Nat) < 6 ∧ (5 : Nat) < 64 ∧ (s0.uq 0 5).enable = false ∧ ((sl 1).uq 0 5).enable = true ∧ (s0.die 0).fl.enable = false ∧ (t.die 0).fl.enable = true ∧ nfld (t.die 0).assist 1 1 = 1 ∧
    nfld (s0.die 0).assist 1 1 = 0 ∧ (s0.die 0).wfbusy = false ∧ (t.die 0).wfbusy = true ∧ s0.main = true ∧ (∀ i < 4, (t.die 0).tw.get? i = some 1#64) ∧
    (s0.core (768 * 0 + 5)).ctxid = 0 ∧ (r.core 0).ctxid ≠ 0 ∧ (r.savePa (r.core 0).ctxid 0).isSome = true ∧ (r.runs 0).isSome = true ∧ r.mayLeave 0 = true ∧
    (s0.savePa 1 0) = none ∧ (s0.runs 0) = none ∧ (r.updFr 0 0 fun f => { f with unret := 1 }).mayLeave 0 = false ∧ (z.fr (768 * 0 + 0) 0).stat = .stopped ∧ (s0.fr (768 * 0 + 0) 0).stat ≠ .stopped ∧ (z.fr (768 * 0 + 0) 8).stat = .stopped ∧
    f.isFrozenM (2 ^ 17) = true ∧ s0.isFrozenM (2 ^ 16) = false ∧ regionOf 0xF000000040 = .regs 0x40 ∧ s0.isOwn 0xF000000040 = true ∧ (2 ^ 16 = 2 ^ 16 ∨ 2 ^ 16 = 2 ^ 16 + 64) ∧
    (0x10003#18).toNat < 2 ^ 17 ∧ (0x10003#18).toNat ≥ 2 ^ 16 ∧ 0x10003#18 ≠ 0x10000#18 ∧ (0x20000#18).toNat = 2 ^ 17 ∧ (5#18).toNat < 256 ∧ 3 ∈ f.frozenFns ∧ 4 ∉ f.frozenFns ∧ 4 / 64 ∈ f.linkUp ∧
    130 / 64 ∉ f.linkUp ∧ regionOf (a 0x100) = .main 0 ∧ (8 : Nat) ≤ 8 ∧ holeIn (a 0x100) 8 = false ∧ regionOf (a 0xC000000000) = .sram 0 0 ∧ 4 % 64 ≠ 0 ∧ regionOf (a 0xB000000000) = .hole := by
  decide +kernel
theorem witness_ErrorEvents :
    let h := s0.updDie 0 fun v => { v with assist := 8 }
    let t : State := (s0.updDie 0 fun v => { v with triage := [(savedKey (s0.core 0).ctxid 0, 0)] }).updFr 0 0 fun r => { r with stat := .stopped }
    let d := s0.updDie 0 fun v => { v with feDown := true }
    let acted (s : State) : State := (s.die 0).triage.foldl (fun s e => s.actOn e.1 e.2) (s.updDie 0 fun v => { v with triage := [] })
    (t.die 0).triage = [(savedKey (t.core 0).ctxid 0, 0)] ∧ (s0.core 0).ctxid ≠ 2 ∧ (t.fr 0 0).stat = .stopped ∧ ((acted t).die 0).feDown = false ∧ ((acted d).die 0).feDown = true ∧ (0 : Nat) < 6 ∧ regionOf (s0.pkg * 2 ^ 40 + (0x100#56).toNat % 2 ^ 40) = .main 0 ∧ regionOf (s0.pkg * 2 ^ 40 + (0xC000000000#56).toNat % 2 ^ 40) = .sram 0 0 ∧ (5#56).toNat < 4608 ∧
    nfld (h.die 0).assist 3 1 = 1 ∧ nfld (s0.die 0).assist 3 1 = 0 ∧ (∀ L ∈ s0.launches, L.die ≠ 0 ∨ L.released = true ∨ L.ended = true) ∧ (s0.die 0).triage = [] ∧ (s0.die 0).feDown = false := by
  decide +kernel
theorem witness_BoardEvents :
    let off : State := { State.reset with stby := true }
    let bad : State := { s0 with mgmt := { s0.mgmt with bootfail := true } }
    let up : State := { s0 with stby := true, mgmt := { s0.mgmt with ready := true } }
    off.stby = true ∧ off.main = false ∧ State.reset.stby = false ∧ bad.main = true ∧ bad.mgmt.bootfail = true ∧ s0.mgmt.bootfail = false ∧ up.main = true ∧ up.mgmt.ready = true ∧
    s0.mgmt.ready = false ∧ up.frozenMgmt = false ∧ (1#64).getLsbD 0 = true ∧ (0#64).getLsbD 0 = false ∧ up.stby = true ∧ (0x100#64).getLsbD 8 = true ∧ (0 : Nat) < 6 ∧ (115#8).toNat ≥ 115 ∧
    (100#8).toNat < 105 ∧ (105#8).toNat ≥ 105 := by
  decide +kernel
/-! #### The clauses on what waits, what is lost and what comes back -/

theorem witness_FiringEvents_owed : (s0.updCur fun r => { r with unret := 1, stat := .parked }).cur.owed = none := rfl
/-- A denied remote command whose status word has no room: a full side log and a mailbox page without a translation. -/
theorem witness_MessageEvents_mailbox :
    let full := sm.updMine fun c => { c with slog := ⟨(List.range 64).map fun n => (n, { frame := 0, va := 0, size := 8, bytes := [], order := 0 })⟩ }
    full.mailWaits 0 .regs (mbox 0x10000000#64) = true ∧ sm.mailWaits 0 .regs (mbox 0x10000000#64) = false := by
  decide +kernel
/-- A line that waits for acknowledgements and one that does not; an unsolicited store, and one of an incarnation the peer has left. -/
theorem witness_ProgramTraffic_lines :
    let r : Rdup := { pa := 0x100, bytes := [1#8], home := 0, dies := [1], atomic := true, core := 0, ctx := 1 }
    let h : State := { s0 with rdup := [r] }
    let q : PStore := { num := 1, rel := none, pa := 0x100, bytes := [1#8], core := 0, frame := 0, launch := 1 }
    let p : Peer := { pending := [q] }
    let late : Peer := { pending := [q], learnt := 1 }
    h.linesHeld 0x100 8 = true ∧ s0.linesHeld 0x100 8 = false ∧ s0.isOwn 0x100 = true ∧ regionOf 0x100 = .main 0 ∧ p.lost = [] ∧
    (q.epoch + 256 - p.learnt) % 256 < 128 ∧ (q.epoch + 256 - late.learnt) % 256 ≥ 128 ∧ (0 : Nat) < 32 := by
  decide +kernel
/-- A group record whose rank 0 is a core of package 1. -/
theorem witness_FlowsAndGroups_join :
    let l := bytesOf 8 2 ++ bytesOf 8 100 ++ bytesOf 4 (4 + 2 ^ 16) ++ bytesOf 4 0
    cgMembers l = some [(4, 1), (s0.turn, s0.pkg)] ∧ (1 : Nat) ≠ s0.pkg ∧ (s0.group 3).state ≠ 1 ∧ s0.relWaits true 0xFFFF = false := by
  decide +kernel
theorem witness_TranslationAndRights_log : s0.x 4#6 = 64#64 := by decide +kernel
/-- A launch of one core; a saved context whose frame waits for a result, and whose granule 5 is in its SAVE area. -/
theorem witness_LaunchEvents_leaves :
    let w : Frame := { frame0 with stat := .parked, unret := 1 }
    let s : State := { sb with savedCores := ({} : Tab Core).put (savedKey 1 1) core0, savedFrames := ({} : Tab (List (Nat × Frame))).put (savedKey 1 1) [(0, w)] }
    la.cores.Nodup ∧ la.cores[0]? = some 0 ∧ la.cores = [0] ∧ s.savedCores.get? (savedKey 1 1) = some core0 ∧ core0.slog = {} ∧
    (∀ e ∈ s.savedFrames.get (savedKey 1 1) [], e.2.unret ≠ 0 ∧ e.1 ∈ framesOf 1) ∧ (∀ f ∈ framesOf 1, (s.fr 1 f).stat ≠ .parked) ∧
    ((s.savedFrames.get (savedKey 1 1) []).map (·.1)).Nodup := by
  decide +kernel
/-- The record of context 1 names its SAVE area at 0x100000, where core 1's record is the second 64 KiB; the bit of granule 5 of core 1 is set there. -/
theorem witness_LaunchEvents_reload :
    let s := (sb.wrN 0x8010 8 0x100000).wrN 0x100008 8 1
    (s.savePa 1 1).any (fun r => nfld ((s.wrN (r + 0x100) 1 32).unitRd (r + 0x100) 1) 5 1 = 1 && s.unitRd (r + 0x100) 1 = 0) = true ∧
    (s.core 1).owner.get? 0 = none := by
  decide +kernel
/-- Host memory, main memory through a link that is up, a register; a retiring of nothing, and a record with its word in main memory. -/
theorem witness_MasterEvents_places :
    let u : State := { sb with linkUp := [0, 1] }
    regionOf (2 ^ 56 + 0x100) = .host ∧ holeIn (2 ^ 56 + 0x100) 8 = false ∧ holeIn (s0.here 0xF004000000) 8 = false ∧ s0.fnReaches 0 1 = true ∧ u.fnReaches 0 1 = false ∧ u.linkUp = [0, 1] ∧
    ([0x7000000, 0x7000020, 0x7000028, 0x4000028, 0x4000030].contains 0x5000000) = false ∧ sb.retiring = [] ∧ sb.launches = [] ∧ regionOf (sb.ctxPa 0) = .main 0 ∧ holeIn (sb.ctxPa 0) 8 = false ∧
    (sb.ctxDw 0 0).toNat / 2 ^ 16 % 2 = 1 ∧ (sb.ctxDw 0 0).toNat % 2 ^ 16 ≠ 0 ∧ (sb.ctxDw 1 0).toNat / 2 ^ 16 % 2 = 0 := by
  decide +kernel
/-- A granule of frames, of accumulators and of scratchpad, none of them moved. -/
theorem witness_ErrorEvents_pool : (s0.core 0).owner.get? 0 = none ∧ pwFrames (s0.core 0).partw = 8 ∧ pwFrames (s0.core 0).partw + pwAccs (s0.core 0).partw = 16 ∧
    (s0.fr 0 0).stat ≠ .free ∧ (s0.fr 0 0).stat ≠ .stopped ∧ 48 / 48 = 1 := by
  decide +kernel
theorem witness_BoardEvents_port :
    let off : State := { State.reset with stby := true }
    off.mgmt.offReq = false ∧ (3200#12 : BitVec 12).toNat ≤ ({ s0 with mgmt := { s0.mgmt with limit := 3200 } } : State).mgmt.limit ∧ off.frozenMgmt = false ∧
    (0x20000#18 : BitVec 18).toNat / 2 ^ 16 = 2 ∧ regionOf (s0.here 0xF007000000) = .regs 0x7000000 ∧ off.isOwn 0xF007000000 = true ∧ (110#8).toNat < 115 ∧
    (115#8).toNat ≥ 115 := by
  decide +kernel
/-- R434: SHA3-256 of no bytes, the first byte of the digest in bits 7:0. -/
theorem test_sha3_empty : sha3 [] = 0x4a43f8804b0ad882fa493be44dff80f562d661a05647c15166d71ebff8c6ffa7#256 := by decide +kernel
end Sys2Proof.Tests
end

section
/-! Power down, boot, junctions and the management port: what each shared operation and each act of the board does (R434 to R446). -/
open Sys2Proof Sys2Proof.Machine Sys2Proof.Spec
namespace Sys2Proof.Machine

/-! ### Power down (R438) -/

/-- With MAIN down a unit's act leaves the state as it is (R438): what `unitAct` answers then. -/
theorem next_of_main_down {s : State} (h : s.main = false) (t : State) : (.next (if s.main then t else s) : Out) = .next s := by
  simp [h]
/-- With MAIN and STBY down no register page takes a write (R438). -/
theorem registerWrite_power_down {s : State} (hm : s.main = false) (hs : s.stby = false) (who : BitVec 18) (pa : Nat) (v : Word) :
    exec (.registerWrite who pa v) s = .next s := by
  rw [exec_registerWrite]
  unfold execRegisterWrite State.portWrite
  cases regionOf pa <;> simp [hm, hs]

/-! ### Boot and reset (R434, R442) -/

/-- Acts on the dies one after the other change nothing else. -/
theorem foldl_dies {α : Type} {f : State → α → State} (hf : ∀ s a, ∃ D, f s a = { s with dies := D }) (l : List α) (s : State) :
    ∃ D, l.foldl f s = { s with dies := D } := by
  induction l generalizing s with
  | nil => exact ⟨s.dies, rfl⟩
  | cons a l ih =>
    obtain ⟨D, hD⟩ := hf s a
    rw [List.foldl_cons, hD]
    exact ih _
/-- An update of the first `n` dies, each once. -/
theorem die_foldl_updDie (g : Die → Die) (n d : Nat) (s : State) :
    ((List.range n).foldl (fun s d => s.updDie d g) s).die d = if d < n then g (s.die d) else s.die d := by
  induction n with
  | zero => rfl
  | succ n ih =>
    rw [List.range_succ, List.foldl_append, List.foldl_cons, List.foldl_nil, updDie_eq]
    by_cases hd : d = n
    · subst hd
      rw [die_setDie_self, ih]
      simp
    · rw [die_setDie_ne _ _ hd, ih]
      have : d < n ↔ d < n + 1 := by omega
      simp only [this]
/-- What a boot does to a die: it is marked, and its log extended by both digests (R434). -/
def Die.measured (digests : List Word) (v : Die) : Die :=
  { v with booted := true, attest := extendLog (extendLog v.attest (digest256 digests)) (digest256 (digests.drop 4)) }
/-- A port begins to train. -/
def State.portTrains (s : State) (p : Nat) : State := s.setPort p { s.port p with training := true }
/-- Ports that begin to train leave the boot mark and the log of every die. -/
theorem die_foldl_portTrains (l : List Nat) (d : Nat) (s : State) :
    ((l.foldl State.portTrains s).die d).booted = (s.die d).booted ∧ ((l.foldl State.portTrains s).die d).attest = (s.die d).attest := by
  induction l generalizing s with
  | nil => exact ⟨rfl, rfl⟩
  | cons p l ih =>
    obtain ⟨hb, ha⟩ := ih (s.portTrains p)
    rw [List.foldl_cons, hb, ha, State.portTrains, State.setPort, updDie_eq]
    by_cases hd : d = p / 3
    · subst hd
      rw [die_setDie_self]
      exact ⟨rfl, rfl⟩
    · rw [die_setDie_ne _ _ hd]
      exact ⟨rfl, rfl⟩
/-- The dies measured, then the ports in training. -/
def State.brought (s : State) (digests : List Word) : State :=
  (List.range 18).foldl State.portTrains ((List.range 6).foldl (fun s d => s.updDie d (·.measured digests)) { s with main := true })
theorem boot_ok (s : State) (digests : List Word) (svn : Nat) :
    s.boot digests svn true = { s.brought digests with
      linkUp := [0, 1], mgmt := { (s.brought digests).mgmt with bootfail := false, ready := true, svn := svn } } := rfl
theorem brought_fields (s : State) (digests : List Word) : ∃ D, s.brought digests = { s with main := true, dies := D } := by
  obtain ⟨D, hD⟩ := foldl_dies (f := fun s d => s.updDie d (·.measured digests)) (fun s d => ⟨_, rfl⟩) (List.range 6) { s with main := true }
  obtain ⟨E, hE⟩ := foldl_dies (f := State.portTrains) (fun s p => ⟨_, rfl⟩) (List.range 18) { s with main := true, dies := D }
  exact ⟨E, by rw [State.brought, hD, hE]⟩
/-- A boot raises MAIN and records its outcome; beside the dies and the links it changes nothing else. -/
theorem boot_fields (s : State) (digests : List Word) (svn : Nat) (ok : Bool) :
    ∃ D, s.boot digests svn ok = { s with main := true, dies := D, linkUp := if ok then [0, 1] else s.linkUp, mgmt := { s.mgmt with
      bootfail := !ok, ready := ok, svn := if ok then svn else s.mgmt.svn } } := by
  cases ok with
  | false => exact ⟨s.dies, rfl⟩
  | true =>
    obtain ⟨D, hD⟩ := brought_fields s digests
    exact ⟨D, by rw [boot_ok, hD]; rfl⟩
theorem die_withLinks (s : State) (l : List Nat) (m : Mgmt) (d : Nat) : ({ s with linkUp := l, mgmt := m } : State).die d = s.die d := rfl
/-- A boot whose checks pass marks every die and extends its log by both digests. -/
theorem die_boot (s : State) (digests : List Word) (svn : Nat) {d : Nat} (hd : d < 6) :
    ((s.boot digests svn true).die d).booted = true ∧
      ((s.boot digests svn true).die d).attest = extendLog (extendLog (s.die d).attest (digest256 digests)) (digest256 (digests.drop 4)) := by
  have hdie : (s.boot digests svn true).die d = (s.brought digests).die d := by
    rw [boot_ok]
    exact die_withLinks (s.brought digests) _ _ d
  obtain ⟨hb, ha⟩ := die_foldl_portTrains (List.range 18) d ((List.range 6).foldl (fun s d => s.updDie d (·.measured digests)) { s with main := true })
  rw [die_foldl_updDie, if_pos hd] at hb ha
  rw [hdie, State.brought, hb, ha]
  exact ⟨rfl, rfl⟩
/-- Memory that forgets the cells at some addresses reads zero there, and elsewhere as before. -/
theorem rdCell_filter (p : Nat → Bool) (m : List Host.Cell) (x : Nat) :
    rdCell (m.filter fun c => !p c.1) x = if p x then 0#8 else rdCell m x := by
  induction m with
  | nil => simp [rdCell]
  | cons c r ih =>
    obtain ⟨a, b⟩ := c
    by_cases ha : p a = true
    · by_cases hx : a = x
      · subst hx; simpa [ha] using ih
      · simpa [ha, rdCell, hx] using ih
    · by_cases hx : a = x
      · subst hx; simp [ha, rdCell]
      · simpa [ha, rdCell, hx] using ih

/-! ### Junctions (R440) -/

theorem testBit_setBitN_self (w n : Nat) : (setBitN w n).testBit n = true := by simp [setBitN]
theorem testBit_setBitN_ne (w : Nat) {n d : Nat} (h : d ≠ n) : (setBitN w n).testBit d = w.testBit d := by
  simp [setBitN, Nat.testBit_two_pow_of_ne h.symm]
/-- Taking 2^n from a number with bit `n` set clears that bit and leaves the others. -/
theorem testBit_sub_two_pow {w n : Nat} (h : w.testBit n = true) (d : Nat) : (w - 2 ^ n).testBit d = (w.testBit d && d != n) := by
  have hodd : w / 2 ^ n % 2 = 1 := by simpa [Nat.testBit_eq_decide_div_mod_eq] using h
  have hlow : w % 2 ^ n < 2 ^ n := Nat.mod_lt _ (Nat.two_pow_pos n)
  obtain ⟨a, ha⟩ : ∃ a, w / 2 ^ n = 2 * a + 1 := ⟨w / 2 ^ n / 2, by omega⟩
  have hw : w = 2 ^ n * (2 * a + 1) + w % 2 ^ n := by rw [← ha, Nat.div_add_mod]
  have hsub : w - 2 ^ n = 2 ^ n * (2 * a) + w % 2 ^ n := by rw [Nat.mul_add, Nat.mul_one] at hw; omega
  generalize w % 2 ^ n = r at *
  rw [hsub, hw, Nat.testBit_two_pow_mul_add _ hlow, Nat.testBit_two_pow_mul_add _ hlow]
  rcases Nat.lt_trichotomy d n with hd | hd | hd
  · simp [hd, hd.ne]
  · simp [hd]
  · obtain ⟨k, rfl⟩ := Nat.exists_eq_add_of_lt hd
    have hlt : ¬n + k + 1 < n := by omega
    have hsucc : n + k + 1 - n = k + 1 := by omega
    have hhalf : (2 * a + 1) / 2 = a := by omega
    rw [if_neg hlt, if_neg hlt, hsucc]
    simp [hhalf, Nat.testBit_add_one, Nat.add_assoc]
theorem testBit_clearBitN (w n d : Nat) : (clearBitN w n).testBit d = (w.testBit d && d != n) := by
  unfold clearBitN
  split
  · next h => exact testBit_sub_two_pow h d
  · next h =>
    by_cases hd : d = n
    · subst hd; simpa using h
    · simp [hd]
/-- The search for the hottest ends at a place no cooler than where it began and than each it passes. -/
theorem le_foldl_hottest (f : Nat → Nat) (l : List Nat) (a : Nat) :
    f a ≤ f (l.foldl (fun a d => if f d > f a then d else a) a) ∧ ∀ d ∈ l, f d ≤ f (l.foldl (fun a d => if f d > f a then d else a) a) := by
  induction l generalizing a with
  | nil => simp
  | cons e l ih =>
    obtain ⟨hstart, hrest⟩ := ih (if f e > f a then e else a)
    have hmax : f a ≤ f (if f e > f a then e else a) ∧ f e ≤ f (if f e > f a then e else a) := by split <;> omega
    rw [List.foldl_cons]
    refine ⟨hmax.1.trans hstart, fun d hd => ?_⟩
    rcases List.mem_cons.mp hd with rfl | hd
    · exact hmax.2.trans hstart
    · exact hrest d hd
/-- The report of a die holds its junction, and shows the hottest of the six (R440). -/
theorem report_temps (m : Mgmt) (die temp : Nat) : (m.report die temp).temps.get die 0 = temp := Tab.get_put_self ..
theorem report_hottest (m : Mgmt) (die temp : Nat) {d : Nat} (hd : d < 6) : (m.report die temp).temps.get d 0 ≤ (m.report die temp).temp :=
  (le_foldl_hottest (fun d => (m.temps.put die temp).get d 0) (List.range 6) 0).2 d (List.mem_range.mpr hd)
/-- THROT shows the die where its junction is at 105 °C or above (R440). -/
theorem report_throt_self (m : Mgmt) (die temp : Nat) : (m.report die temp).throt.testBit die = true ↔ temp ≥ 105 := by
  unfold Mgmt.report
  dsimp only
  split
  · next h => simp [testBit_setBitN_self, h]
  · next h => simp [testBit_clearBitN]; omega
theorem report_throt_ne (m : Mgmt) (temp : Nat) {die d : Nat} (h : d ≠ die) : (m.report die temp).throt.testBit d = m.throt.testBit d := by
  unfold Mgmt.report
  dsimp only
  split
  · exact testBit_setBitN_ne _ h
  · simp [testBit_clearBitN, h]
theorem junction_silent {s : State} {die : Nat} (temp : Nat) (h : s.stby = false ∨ die ≥ 6) : s.junction die temp = s := by
  rcases h with h | h <;> simp [State.junction, h]
theorem junction_reports {s : State} {die temp : Nat} (hs : s.stby = true) (hd : die < 6) (ht : temp < 115) :
    s.junction die temp = { s with mgmt := s.mgmt.report die temp } := by
  simp [State.junction, hs, Nat.not_le.mpr hd, Nat.not_le.mpr ht]
theorem junction_trips {s : State} {die temp : Nat} (hs : s.stby = true) (hd : die < 6) (ht : temp ≥ 115) :
    s.junction die temp = { s with main := false, mgmt := (s.mgmt.report die temp).tripAt die s.main } := by
  simp [State.junction, hs, Nat.not_le.mpr hd, ht]

/-! ### The management page and the port (R444, R445) -/

theorem fld_one_eq (v : Word) (i : Nat) : fld v i 1 = 1 ↔ v.getLsbD i = true := by
  simp [fld, BitVec.getLsbD, Nat.testBit, Nat.and_comm 1, Nat.and_one_is_mod]
/-- The pages and registers the port may write (R393, R445). -/
theorem masterBarred_port (s : State) (o : Nat) :
    s.masterBarred mMgmt o = true ↔ o ∉ [0x7000000, 0x7000020, 0x7000028, 0x4000028, 0x4000030] := by
  have hm : isMgmt mMgmt = true := rfl
  simp only [State.masterBarred, hm, if_true, Bool.not_eq_true', Bool.and_eq_false_iff, Bool.or_eq_false_iff, decide_eq_false_iff_not, List.mem_cons,
    List.not_mem_nil, or_false]
  omega
theorem pageWrite_frozenPort {s : State} (h : s.frozenMgmt = true) (o : Nat) (v : Word) : s.pageWrite mMgmt o v = s := by
  have hf : s.isFrozenM mMgmt = true := h
  simp [State.pageWrite, hf]
/-- With MAIN down a register page takes a store from the management port alone. -/
theorem registerWrite_main_down {s : State} {who : BitVec 18} {pa o : Nat} (v : Word) (hmain : s.main = false) (hpa : regionOf pa = .regs o)
    (hown : s.isOwn pa = true) : exec (.registerWrite who pa v) s = .next (if who.toNat / 2 ^ 16 = 2 then s.portWrite o v else s) := by
  rw [exec_registerWrite, execRegisterWrite, hpa]
  simp [hown, hmain, isMgmt]
theorem portWrite_silent {s : State} (o : Nat) (v : Word) (h : s.stby = false ∨ s.frozenMgmt = true) : s.portWrite o v = s := by
  rcases h with h | h
  · simp [State.portWrite, h]
  · simp [State.portWrite, pageWrite_frozenPort h]
theorem portWrite_pwrlim {s : State} (v : Word) (hmain : s.main = false) (hs : s.stby = true) (hf : s.frozenMgmt = false) :
    s.portWrite 0x7000000 v = { s with mgmt := { s.mgmt with pwrlim := clampPower v } } := by
  have hf : s.isFrozenM mMgmt = false := hf
  have hm : isMgmt mMgmt = true := rfl
  have hb : s.masterBarred mMgmt 0x7000000 = false := rfl
  simp [State.portWrite, hs, hmain, hb, State.pageWrite, hf, State.mgmtWrite, hm]
/-- Of the page that stays on STBY the port's RESET does nothing while MAIN is down, and a front-end page is held in reset (R438). -/
theorem portWrite_held {s : State} (v : Word) {o : Nat} (hmain : s.main = false) (ho : o ∈ [0x7000028, 0x4000028, 0x4000030]) : s.portWrite o v = s := by
  have hb : s.masterBarred mMgmt o = false := by
    rw [← Bool.not_eq_true, masterBarred_port]
    simp at ho ⊢
    omega
  have hpage : ¬(o % 0x40000000 / 0x1000000 = 7 ∧ o % 0x1000 ≠ 0x28) := by
    simp at ho
    omega
  simp [State.portWrite, hmain, hb, hpage]
/-- A write outside the port's set freezes it; with MAIN down nothing is posted (R393, R394, R438). -/
theorem portWrite_violates {s : State} (v : Word) {o : Nat} (hmain : s.main = false) (hs : s.stby = true) (hf : s.frozenMgmt = false)
    (ho : o ∉ [0x7000000, 0x7000020, 0x7000028, 0x4000028, 0x4000030]) : s.portWrite o v = { s with frozenMgmt := true } := by
  have hf : s.isFrozenM mMgmt = false := hf
  have hm : isMgmt mMgmt = true := rfl
  have hb := (masterBarred_port s o).mpr ho
  simp [State.portWrite, hs, hb, State.pageWrite, hf, State.violation, hmain, hm]

/-! ### Acts of the board (R434, R435, R438, R442) -/

theorem mainPowerUp_boots {s : State} (hs : s.stby = true) (hm : s.main = false) (ho : s.mgmt.offReq = false) (digests : List Word)
    (svn : BitVec 16) (ok : Bool) :
    exec (.mainPowerUp digests svn ok) s = .next (({ s.cold [] [] with flash := digests } : State).boot digests svn.toNat ok) := by
  simp only [exec_mainPowerUp, execMainPowerUp, boardAct, hs, hm, ho, Bool.not_true, Bool.or_self, Bool.false_eq_true, if_false]
/-- A warm reset keeps memory and its poison but for the pools, and boots the image the flash holds (R442). -/
theorem warm_fields (s : State) :
    ∃ D, s.warm = { s.cold (s.mem.filter fun c => !s.inPool c.1) (s.poison.filter fun u => !s.inPool u.1) with
      main := true, dies := D, linkUp := if !s.mgmt.bootfail then [0, 1] else [],
      mgmt := { (s.cold [] []).mgmt with bootfail := !!s.mgmt.bootfail, ready := !s.mgmt.bootfail, svn := if !s.mgmt.bootfail then s.mgmt.svn else 0 } } :=
  boot_fields ..
theorem perstLink1_main_up {s : State} (hm : s.main = true) :
    exec .perstLink1 s = .next { s with linkUp := s.linkUp.filter (· ≠ 1) ++ if s.mgmt.ready then [1] else [] } := by
  simp [execPerstLink1, boardAct, hm]
/-- Bit 0 of a write to RESET is the one that counts (R444). -/
theorem reset_acts {s : State} (hm : s.main = true) (hf : s.frozenMgmt = false) (v : Word) :
    exec (.reset v) s = .next (if v.getLsbD 0 then s.warm else s) := by
  simp [execReset, boardAct, hm, hf, State.mgmtWrite, fld_one_eq]
theorem reset_ignored {s : State} (h : s.main = false ∨ s.frozenMgmt = true) (v : Word) : exec (.reset v) s = .next s := by
  rcases h with h | h <;> simp [execReset, boardAct, h]
/-- Bit 8 of a write to TRIP clears it, and TRIPD with it (R440, R444). -/
theorem trip_acts {s : State} (hs : s.stby = true) (hf : s.frozenMgmt = false) (v : Word) :
    exec (.trip v) s = .next (if v.getLsbD 8 then { s with mgmt := { s.mgmt with trip := false, tripd := 0 } } else s) := by
  have hm : isMgmt mMgmt = true := rfl
  simp [execTrip, boardAct, hs, hf, State.mgmtWrite, hm, fld_one_eq]
/-- Each of the three acts of a junction is one report of it (R440). -/
theorem exec_thermal {act : Instr} {die : Nat} {temp : BitVec 8}
    (h : act ∈ [Instr.thermalThrottle die temp, .thermalThrottleEnd die temp, .thermalTrip die temp]) (s : State) :
    exec act s = .next (s.junction die temp.toNat) := by
  simp only [List.mem_cons, List.not_mem_nil, or_false] at h
  rcases h with rfl | rfl | rfl <;> rfl

end Sys2Proof.Machine
end

section
/-! Scalar stores: the bytes written, the side log, and the order of the checks (R122, R123, R194, R373). -/
open Sys2Proof Sys2Proof.Machine Sys2Proof.Spec
namespace Sys2Proof.Machine

/-- off6 × size, the six bits taken as a signed number (R122). -/
theorem off6_eq_ofInt (size : BitVec 2) (off : BitVec 6) : off6 size off = BitVec.ofInt 64 (off.toInt * (2 ^ size.toNat : Nat)) := by
  revert size off
  decide
theorem getElem_bytesOf {n v j : Nat} (h : j < (bytesOf n v).length) : (bytesOf n v)[j] = BitVec.ofNat 8 (v / 256 ^ j) := by
  induction n generalizing v j with
  | zero => simp [bytesOf] at h
  | succ n ih =>
    cases j with
    | zero => simp [bytesOf]
    | succ j => simp [bytesOf, ih, Nat.div_div_eq_div_mul, Nat.pow_succ, Nat.mul_comm]
/-- The bytes of a stored value, each with its offset. -/
theorem enum_bytesOf (n v : Nat) : enum (bytesOf n v) = (List.range n).map fun j => (j, BitVec.ofNat 8 (v / 256 ^ j)) := by
  apply List.ext_getElem
  · simp [enum, length_bytesOf]
  · intro j h1 h2
    simp [enum, getElem_bytesOf]

/-- Memory after a store of the low bytes of a value: those bytes at their places, every other byte as before (R2). -/
theorem rd_store_bytesOf (s : State) (pa n v : Nat) (hm : Memory.wf s.mem = true) (b : Nat) :
    (s.store pa (bytesOf n v)).rd b = if pa ≤ b ∧ b < pa + n then BitVec.ofNat 8 (v / 256 ^ (b - pa)) else s.rd b := by
  split
  · next h =>
    have hj : b - pa < (bytesOf n v).length := by rw [length_bytesOf]; omega
    have := rd_store_in s pa (bytesOf n v) hm hj
    rwa [getElem_bytesOf, Nat.add_sub_cancel' h.1] at this
  · next h => exact rd_store_out s pa _ (by rw [length_bytesOf]; omega)

/-! ### The side log -/

theorem startWalk_walks (s : State) (w : Who) (k ctx va kind : Nat) (needs : Bool × Bool × Bool) :
    ∃ q, s.startWalk w k ctx va kind needs = { s with walks := q } := by
  unfold State.startWalk
  split
  · exact ⟨s.walks, rfl⟩
  · exact ⟨_, rfl⟩
/-- Walks begun for each of some addresses change the list of walks alone. -/
theorem foldl_startWalk_walks {α : Type} (w : Who) (k ctx kind : Nat) (needs : Bool × Bool × Bool) (va : α → Nat) (l : List α) (s : State) :
    ∃ q, l.foldl (fun s b => s.startWalk w k ctx (va b) kind needs) s = { s with walks := q } := by
  induction l generalizing s with
  | nil => exact ⟨s.walks, rfl⟩
  | cons b l ih =>
    obtain ⟨q, hq⟩ := startWalk_walks s w k ctx (va b) kind needs
    rw [List.foldl_cons, hq]
    exact ih _
/-- Entry `e` stands in slot `n` of core `k`'s side log, and the walks under way are `q`. -/
def State.logged (s : State) (k n : Nat) (e : SlogE) (q : List Walk) : State :=
  { s.setCore k { s.core k with slog := (s.core k).slog.put n e, slogNo := (s.core k).slogNo + 1 } with walks := q }
theorem logged_cur (s : State) (k n : Nat) (e : SlogE) (q : List Walk) : (s.logged k n e q).cur = s.cur :=
  cur_setCore s k _ rfl
theorem logged_slog (s : State) (n : Nat) (e : SlogE) (q : List Walk) :
    (s.logged s.turn n e q).myCore.slog = s.myCore.slog.put n e :=
  congrArg Core.slog (core_setCore_self s s.turn _)
/-- Where the log has room a store enters one of its free entries (R373). -/
theorem enterSlog_free (s : State) (k f va size : Nat) (bytes : List (Nat × BitVec 8)) (g : LogAs) (h : ∃ n, n < 64 ∧ (s.core k).slog.get? n = none) :
    ∃ n e q, s.enterSlog k f va size bytes g = some (s.logged k n e q) ∧ (s.core k).slog.get? n = none ∧
      e.frame = f ∧ e.va = va ∧ e.rel = g.rel ∧ e.bytes = bytes := by
  unfold State.enterSlog
  dsimp only
  cases hn : (List.range 64).find? fun n => ((s.core k).slog.get? n).isNone with
  | none =>
    obtain ⟨n, hlt, hfree⟩ := h
    have := List.find?_eq_none.mp hn n (List.mem_range.mpr hlt)
    simp [hfree] at this
  | some n =>
    have hfree : (s.core k).slog.get? n = none := by simpa using List.find?_some hn
    obtain ⟨q, hq⟩ := foldl_startWalk_walks (.slog k n) k (s.core k).ctxid 4 needW (fun b : Nat × BitVec 8 => va + b.1) _ _
    exact ⟨n, _, q, congrArg some hq, hfree, rfl, rfl, rfl, rfl⟩

/-! ### A scalar store (R122, R123, R201) -/

/-- Steps 1 and 2 of R122 let an aligned address below 2^56 pass. -/
theorem addrTrap_none (i : Instr) {ea : Word} {n : Nat} (hva : ea.toNat < 2 ^ 56) (hal : ea.toNat % n = 0) : addrTrap i ea n = none := by
  have hf : fld ea 56 8 = 0 := by
    unfold fld
    rw [Nat.shiftRight_eq_div_pow, Nat.div_eq_of_lt hva, Nat.zero_mod]
  simp [addrTrap, hf, hal]

/-- What a store that has not gone out yet has to pass before its place counts, at `ea`, `n` bytes long; `rel` says that it is a release. -/
structure State.StorePasses (s : State) (ea : Word) (n : Nat) (rel : Bool) : Prop where
  core : isTsc s.turn = false
  fresh : s.cur.saved = []
  noLoad : s.loadWait = false
  below : ea.toNat < 2 ^ 56
  aligned : ea.toNat % n = 0
  released : (rel && s.relWaits true s.pkg) = false
  board : s.myCore.boardHolds ea.toNat n true = false

/-- A store at a place of this package, of no RDUP page, is a store to memory. -/
theorem put_own {s : State} (k f ctx : Nat) {pa : Nat} {w : Word} {l : List (BitVec 8)} (rel : Option Nat) (hrdup : entRdup w = false)
    (hown : isRemote s pa = false) (hhole : holeIn pa l.length = false) : s.put k f ctx pa w l rel = s.store pa l := by
  simp [State.put, hrdup, hown, State.unitStore, hhole]
/-- The memory side of a store to this package's memory that nothing holds back: it writes, and marks the entries used (R372). -/
theorem storeMem_own {s : State} (i : Instr) (va : Nat) {pa : Nat} {l : List (BitVec 8)} {w : Word} {off : Option Nat} (rel ar : Bool)
    (hcore : isTsc s.turn = false) (hpkg : pkgOf pa = s.pkg) (hhole : holeIn pa l.length = false) (hcell : entCell w = false)
    (hrdup : entRdup w = false) (hline : s.lineHeld pa = false) (hbuf : ∀ o, off = some o → s.myCore.bufBad o l.length [0] = none) :
    s.storeMem i va pa l w off rel ar none = .got ((Spec.used s va true).store pa l) () := by
  have hbuf' : (off.bind fun o => s.myCore.bufBad o l.length wrOk) = none := by
    cases off with
    | none => rfl
    | some o => exact hbuf o rfl
  have hused : s.used va true = Spec.used s va true := by simp [State.used, hcore, Spec.used]
  have hown : isRemote (Spec.used s va true) pa = false := by
    show (decide (pa < 2 ^ 56) && decide (pkgOf pa ≠ s.pkg)) = false
    simp [hpkg]
  simp [State.storeMem, hbuf', hcell, hline, hused, hown, hrdup, put_own _ _ _ none hrdup hown hhole]

@[simp] theorem cur_used (s : State) (va : Nat) (wr : Bool) : (Spec.used s va wr).cur = s.cur := by
  show (((s.setCore s.turn _).updCamp _ _).updDie _ _).cur = s.cur
  rw [updDie_eq, cur_setDie, cur_updCamp]
  exact cur_setCore s s.turn _ rfl
/-- A store with a place in this package's memory writes it. -/
theorem storeAt_mem {s : State} (i : Instr) {ea : Word} {l : List (BitVec 8)} {rel : Bool} (ar : Bool) (regs : State → Nat → List (BitVec 8) → Got Unit)
    {pa : Nat} {w : Word} {off : Option Nat} (hp : s.StorePasses ea l.length rel) (hpl : s.place s.turn ea.toNat l.length needW = .mem pa w off)
    (hslog : s.myCore.slogHits ea.toNat l.length = false) (hpkg : pkgOf pa = s.pkg) (hhole : holeIn pa l.length = false) (hcell : entCell w = false)
    (hrdup : entRdup w = false) (hline : s.lineHeld pa = false) (hbuf : ∀ o, off = some o → s.myCore.bufBad o l.length [0] = none) :
    s.storeAt i ea l rel ar regs = .got ((Spec.used s ea.toNat true).store pa l) () := by
  obtain ⟨hcore, hfresh, hload, hbelow, hal, hrel, hboard⟩ := hp
  have hmem := storeMem_own i ea.toNat rel ar hcore hpkg hhole hcell hrdup hline hbuf
  simp [State.storeAt, State.storeHeld, hfresh, hload, addrTrap_none i hbelow hal, hpl, hpkg, hrel, hboard, hslog, hmem]

/-- A store without a translation or right enters the side log; one of order ar then waits at the instruction (R194, R373). -/
theorem storeAt_logs {s : State} (i : Instr) {ea : Word} {l : List (BitVec 8)} {rel : Bool} (ar : Bool) (regs : State → Nat → List (BitVec 8) → Got Unit)
    (hp : s.StorePasses ea l.length rel)
    (hpl : s.place s.turn ea.toNat l.length needW = .unmapped ∨ s.place s.turn ea.toNat l.length needW = .refused) (hf : s.fi ≠ 8)
    (hfree : ∃ n, n < 64 ∧ s.myCore.slog.get? n = none) :
    ∃ n e q, s.storeAt i ea l rel ar regs = (if ar then .stop (.hold ((s.logged s.turn n e q).updCur fun r => { r with saved := [10] }) .slog)
        else .got (s.logged s.turn n e q) ()) ∧
      s.myCore.slog.get? n = none ∧ e.frame = s.fi ∧ e.va = ea.toNat ∧ e.rel = rel ∧ e.bytes = enum l := by
  obtain ⟨hcore, hfresh, hload, hbelow, hal, hrel, hboard⟩ := hp
  obtain ⟨n, e, q, hlog, hentry⟩ := enterSlog_free s s.turn s.fi ea.toNat l.length (enum l) { unit := l.length, rel := rel } hfree
  refine ⟨n, e, q, ?_, hentry⟩
  rcases hpl with hpl | hpl <;>
    simp [State.storeAt, State.storeHeld, hfresh, hload, addrTrap_none i hbelow hal, hpl, hrel, hboard, State.logOrWalk, hf, hlog, Got.bind]
/-- With nothing outstanding and a literal that is a multiple of the size, ST is what `storeAt` answers. -/
theorem storeI_issues {s : State} (i : Instr) (m : Bool) {len : Nat} {t a : BitVec 6} {size : BitVec 2} (ord : BitVec 2) {off : Word}
    (hready : Spec.Ready s [a.toNat, t.toNat]) (hlit : litBad len (nbytes size) off = false) :
    storeI i m len t a size ord off s = .next (((s.storeAt i (s.x a + off) (bytesOf (nbytes size) (s.xn t)) (ord = 2#2 || ord = 3#2) (ord = 3#2)
      (regStore (s.x a + off).toNat)).res fun s _ => .ok s).finish m len) := by
  have hz : hazard s.cur [rX a, rX t] = none := hazard_none hready.2
  rw [storeI, issue_body hready.1 hz]
  simp [hlit]
/-- The offset of the short form is no literal, so that none is misaligned (R45). -/
theorem litBad_short (n : Nat) (off : Word) : litBad 4 n off = false := rfl
theorem litBad_multiple {len n : Nat} {off : Word} (h : off.toNat % n = 0) : litBad len n off = false := by simp [litBad, h]

end Sys2Proof.Machine
end

section
/-! The statements of the scope: stores, the board, and reset. -/
open Sys2Proof Sys2Proof.Machine Sys2Proof.Spec
namespace Sys2Proof.Proofs

/-- Settles O23: ST is `storeAt`, which writes memory where the place is there and logs the store where it is not. -/
theorem stores : Obligations.Stores := by
  unfold Obligations.Stores
  intro s m t a size ord off lit pa hready n rel v stores logs logsAr logged va vl
  have hlen : (bytesOf n v).length = n := length_bytesOf n v
  have issues (i : Instr) (len : Nat) (o : Word) (hi : exec i s = storeI i m len t a size ord o s) (hlit : litBad len n o = false) :
      exec i s = .next (((s.storeAt i (s.x a + o) (bytesOf n v) rel (ord = 3#2) (regStore (s.x a + o).toNat)).res fun s _ => .ok s).finish m len) :=
    hi.trans (storeI_issues i m ord hready hlit)
  have direct (i : Instr) (len : Nat) (o : Word) (hi : exec i s = storeI i m len t a size ord o s) (hlit : litBad len n o = false)
      (h : Storable s (s.x a + o).toNat n pa rel) : stores i (s.x a + o).toNat len := by
    obtain ⟨hcore, hfresh, hload, hbelow, hal, hrel, hboard, hslog, w, o', hpl, hpkg, hhole, hcell, hrdup, hline, hbuf⟩ := h
    have hpass : s.StorePasses (s.x a + o) n rel := ⟨hcore, hfresh, hload, hbelow, hal, by simpa using hrel, hboard⟩
    rw [← hlen] at hpass hpl hslog hhole hbuf
    refine ⟨(used s (s.x a + o).toNat true).store pa (bytesOf n v), ?_, (cur_store ..).trans (cur_used ..), rfl, fun hm => rd_store_bytesOf _ pa n v hm⟩
    rw [issues i len o hi hlit, storeAt_mem i _ _ hpass hpl hslog hpkg hhole hcell hrdup hline hbuf]
    rfl
  have log (i : Instr) (len : Nat) (o : Word) (hi : exec i s = storeI i m len t a size ord o s) (hlit : litBad len n o = false)
      (h : logged (s.x a + o).toNat) : (ord ≠ 3#2 → logs i (s.x a + o).toNat len) ∧ (ord = 3#2 → logsAr i (s.x a + o).toNat) := by
    obtain ⟨hcore, hf, hfresh, hload, hbelow, hal, hrel, hboard, hpl, hfree⟩ := h
    have hpass : s.StorePasses (s.x a + o) n rel := ⟨hcore, hfresh, hload, hbelow, hal, by simpa using hrel, hboard⟩
    rw [← hlen] at hpass hpl
    obtain ⟨k, e, q, hst, hnone, hframe, hva, herel, hbytes⟩ := storeAt_logs i (ord = 3#2) (regStore (s.x a + o).toNat) hpass hpl hf hfree
    rw [enum_bytesOf] at hbytes
    have hexec := issues i len o hi hlit
    rw [hst] at hexec
    refine ⟨fun hord => ?_, fun hord => ?_⟩
    · rw [if_neg (by simpa using hord)] at hexec
      exact ⟨_, e, k, hexec, rfl, logged_cur .., hnone, logged_slog .., hframe, hva, herel, hbytes⟩
    · rw [if_pos (by simpa using hord)] at hexec
      exact ⟨s.logged s.turn k e q, e, k, hexec, rfl, logged_cur .., hnone, logged_slog .., hframe, hva, by simpa [rel, hord] using herel, hbytes⟩
  have hoff : exec (.st m t a size ord off) s = storeI (.st m t a size ord off) m 4 t a size ord (BitVec.ofInt 64 (off.toInt * n)) s := by
    rw [exec_st, execSt, off6_eq_ofInt]
  exact ⟨direct _ 4 _ hoff (litBad_short ..), log _ 4 _ hoff (litBad_short ..), fun hlit =>
    ⟨direct _ 12 lit rfl (litBad_multiple hlit), log _ 12 lit rfl (litBad_multiple hlit)⟩⟩

/-- Settles O58, act by act: what the board's acts, a boot, a junction and the port's writes do is said once above. -/
theorem boardEvents : Obligations.BoardEvents := by
  unfold Obligations.BoardEvents
  intro s digests svn v avg off die temp up bad
  refine ⟨rfl, ⟨_, rfl, rfl, rfl, rfl, rfl, rfl, rfl, rfl, rfl⟩, ?mainUp, ?mainUpIgnored, ⟨_, rfl, rfl, rfl, rfl, rfl, rfl, rfl, rfl, rfl, rfl, rfl⟩,
    ?update, ?updateIgnored, ?boot, ?perst0, ?perst0Ignored, ?warm, ?perst1, ?reset, ?resetIgnored, ?limits, ?windowIgnored, ?window, ?thermal,
    ?reads, ?readsIgnored, ⟨rfl, rfl, rfl, rfl, rfl, rfl, rfl⟩, ?portWrites⟩
  case mainUp =>
    exact fun hs hm ho => ⟨mainPowerUp_boots hs hm ho .., mainPowerUp_boots hs hm ho ..⟩
  case mainUpIgnored =>
    rintro (h | h | h) ok <;> simp [execMainPowerUp, boardAct, h]
  case update =>
    intro hm hb
    simp [execFirmwareUpdate, boardAct, hm, hb]
  case updateIgnored =>
    rintro ok (h | h | h) <;> simp [execFirmwareUpdate, boardAct, h]
  case boot =>
    obtain ⟨D, hD⟩ := boot_fields s digests svn.toNat true
    refine ⟨_, rfl, ?_, ?_, ?_, ?_, ?_, ?_, ?_, fun d hd => die_boot s digests svn.toNat hd⟩ <;> rw [hD] <;> rfl
  case perst0 =>
    exact fun hm => by simp [execPerstLink0, boardAct, hm]
  case perst0Ignored =>
    exact fun hm => by simp [execPerstLink0, boardAct, hm]
  case warm =>
    obtain ⟨D, hD⟩ := warm_fields s
    rw [hD]
    exact ⟨rfl, rfl, Bool.not_not _, rdCell_filter s.inPool s.mem, rfl, rfl, rfl, rfl, rfl⟩
  case perst1 =>
    intro hm
    refine ⟨_, perstLink1_main_up hm, rfl, ?_⟩
    cases s.mgmt.ready <;> simp
  case reset =>
    intro hm hf hv
    rw [reset_acts hm hf, if_pos hv]
  case resetIgnored =>
    intro h
    by_cases hoff : s.main = false ∨ s.frozenMgmt = true
    · exact reset_ignored hoff v
    · obtain ⟨hm, hf⟩ : s.main = true ∧ s.frozenMgmt = false := by simpa using hoff
      have hv : v.getLsbD 0 = false := by simpa [hm, hf] using h
      rw [reset_acts hm hf, hv]
      rfl
  case limits =>
    intro hs hf
    refine ⟨?_, fun hv => ?_, fun hv => ?_⟩
    · simp [execPwrlim, boardAct, hs, hf, State.mgmtWrite, clampPower]
    · rw [trip_acts hs hf, if_pos hv]
    · rw [trip_acts hs hf, hv]
      rfl
  case windowIgnored =>
    rintro (h | h) <;> simp [execPowerWindow, boardAct, h]
  case window =>
    intro hm ha
    refine ⟨(Config.freeWord s.tick).toNat % 64, Nat.mod_lt _ (by decide), ?_⟩
    simp [execPowerWindow, boardAct, hm, Nat.not_lt.mpr ha]
  case thermal =>
    intro act hact m
    rw [exec_thermal hact]
    refine ⟨fun h => by rw [junction_silent _ h], fun hs hd => ⟨fun ht => by rw [junction_reports hs hd ht], fun ht => ?_,
      ⟨report_throt_self .., fun d hne => report_throt_ne _ _ hne⟩, report_temps .., rfl, fun d hd => report_hottest _ _ _ hd⟩⟩
    rw [junction_trips hs hd ht]
    exact ⟨setBitN m.tripd die, rfl, testBit_setBitN_self .., fun d hne => testBit_setBitN_ne _ hne⟩
  case reads =>
    intro hs hf
    refine ⟨?_, fun hd => ?_⟩
    · simp [execMgmtRead, boardAct, hs, hf, State.answer, mMgmt]
    · simp [execSpdmMeasurement, boardAct, hs, hf, hd, State.answer, mMgmt]
  case readsIgnored =>
    rintro (h | h) <;> simp [execMgmtRead, execSpdmMeasurement, boardAct, h]
  case portWrites =>
    intro hmain o pa who hpa hown
    rw [registerWrite_main_down v hmain hpa hown]
    refine ⟨?_, fun hwho hs hf => ?_⟩
    · rintro (h | h)
      · rw [if_neg h]
      · rw [portWrite_silent o v h, ite_self]
    · rw [if_pos hwho]
      refine ⟨?_, fun ho => ?_, fun ho => ?_⟩
      · rintro rfl
        rw [portWrite_pwrlim v hmain hs hf]
        rfl
      · rw [portWrite_held v hmain ho]
      · rw [portWrite_violates v hmain hs hf ho]

/-- Settles O59: the registers are read off `State.reset`; no unit acts, for MAIN and STBY are down. -/
theorem afterReset : Obligations.AfterReset := by
  unfold Obligations.AfterReset
  intro s
  refine ⟨⟨rfl, rfl, rfl, rfl, rfl, fun _ => rfl, fun _ _ => rfl⟩, ?frames, ?cores, fun _ => ⟨rfl, rfl⟩, ?dies, fun _ => ⟨rfl, rfl, rfl, rfl⟩,
    ⟨rfl, rfl, rfl, rfl, rfl, rfl, rfl, rfl, rfl, rfl, rfl, rfl, rfl, rfl, rfl, rfl⟩, ?units⟩
  case frames =>
    exact fun k f => ⟨rfl, rfl, rfl, rfl, rfl, rfl, rfl, rfl, rfl, rfl, fun n => ⟨ite_self _, rfl, rfl, fun hn => if_neg hn⟩⟩
  case cores =>
    exact fun k => ⟨rfl, rfl, rfl, rfl, rfl, rfl, rfl, rfl, rfl, rfl, rfl, rfl, rfl, rfl, rfl, rfl, rfl, rfl, fun n => ⟨rfl, rfl, rfl, rfl, rfl⟩⟩
  case dies =>
    exact fun d => ⟨rfl, rfl, rfl, rfl, rfl, rfl, rfl, rfl, rfl, rfl, rfl, rfl, rfl, rfl, rfl, rfl, fun q => ⟨rfl, rfl, rfl⟩⟩
  case units =>
    intro k f n d j v o w m c a
    have hm : s.main = false := rfl
    have hs : s.stby = false := rfl
    clear_value s
    simp only [List.forall_mem_cons, List.not_mem_nil, false_implies, implies_true, and_true, true_and, registerWrite_power_down hm hs]
    and_intros <;> exact next_of_main_down hm _

end Sys2Proof.Proofs
end

section
/-! Where an address leads: the windows of the pools, the entry that decides, and its rights (R16, R17, R23, R24, R366). -/
open Sys2Proof Sys2Proof.Machine Sys2Proof.Spec
namespace Sys2Proof.Machine

theorem inSelf_iff (va : Nat) : inSelf va = true ↔ 0xFF000000000000 ≤ va ∧ va < 0xFF000000100000 := by
  unfold inSelf
  rw [Bool.and_eq_true, decide_eq_true_iff, decide_eq_true_iff, selfBase]
theorem inHole_iff (va : Nat) : inHole va = true ↔ 0xFF000000100000 ≤ va ∧ va < 0xFF000000200000 := by
  unfold inHole
  rw [Bool.and_eq_true, decide_eq_true_iff, decide_eq_true_iff, selfBase]
theorem inScratch_iff (w : Word) (off n : Nat) :
    inScratch w off n = true ↔ (fld w 0 4 + fld w 16 5) * 4096 ≤ off ∧ off + n ≤ (fld w 0 4 + fld w 16 5) * 4096 + fld w 32 9 * 4096 := by
  rw [inScratch, Bool.and_eq_true, decide_eq_true_iff, decide_eq_true_iff]
  rfl
/-- An entry permits what it has every needed right for. -/
theorem permits_iff (w : Word) (needs : Bool × Bool × Bool) :
    permits w needs = true ↔ (needs.1 = true → fld w 62 1 = 1) ∧ (needs.2.1 = true → fld w 61 1 = 1) ∧ (needs.2.2 = true → fld w 60 1 = 1) := by
  obtain ⟨r, w', x⟩ := needs
  cases r <;> cases w' <;> cases x <;> simp [permits, entR, entW, entX, and_assoc]
theorem regionOf_main {pa : Nat} (h : pa < 2 ^ 56) (hl : pa % 2 ^ 40 < 0x9000000000) : regionOf pa = .main (pa % 2 ^ 40 / 0x1800000000) := by
  have hlocal : localOf pa < 0x9000000000 := hl
  simp only [regionOf, if_neg (Nat.not_le.mpr h), if_pos hlocal]
  rfl
/-- With no granule claimed a pool's granules lie in their own order (R16). -/
theorem poolPa_unclaimed {s : State} {k : Nat} (h : (s.core k).owner.l = []) (off : Nat) :
    s.poolPa k off = s.pkg * 2 ^ 40 + 0xC000000000 + k * 0x100000 + off := by
  have hphys (c g : Nat) : (s.core k).phys c g = g := by simp [Core.phys, h, findOwner]
  rw [State.poolPa, hphys, State.here]
  omega

section
variable {s : State} {k va : Nat} (hk : isTsc k = false)
include hk

theorem place_self (h : inSelf va = true) (n : Nat) (needs : Bool × Bool × Bool) :
    s.place k va n needs = if inScratch (s.core k).partw (va - selfBase) n then .mem (s.poolPa k (va - selfBase)) 0#64 (some (va - selfBase)) else .badva := by
  simp [State.place, hk, h]
theorem place_hole (h : inSelf va = false) (hh : inHole va = true) (n : Nat) (needs : Bool × Bool × Bool) : s.place k va n needs = .badva := by
  simp [State.place, hk, h, hh]

variable (hs : inSelf va = false) (hh : inHole va = false)
include hs hh

theorem place_unmapped (h : s.tlbLook k (s.core k).ctxid va = none) (n : Nat) (needs : Bool × Bool × Bool) : s.place k va n needs = .unmapped := by
  simp [State.place, hk, hs, hh, h]

variable {e : TlbEnt} {l : Nat} (he : s.tlbLook k (s.core k).ctxid va = some (e, l))
include he

/-- An entry that lacks a right refuses, where no granule may be closed. -/
theorem place_refused {needs : Bool × Bool × Bool} (hp : permits e.w needs = false) (hr : ∀ j o, regionOf (e.pa va) ≠ .sram j o) (n : Nat) :
    s.place k va n needs = .refused := by
  unfold State.place
  cases hreg : regionOf (e.pa va) with
  | sram j o => exact absurd hreg (hr j o)
  | _ => simp [hk, hs, hh, he, hp, hreg]
/-- A closed granule of a pool of this package is found before the rights (R122). -/
theorem place_closed {j o : Nat} (hr : regionOf (e.pa va) = .sram j o) (hown : s.isOwn (e.pa va) = true)
    (hw : s.windowPa (s.core k).ctxid j o = none) (n : Nat) (needs : Bool × Bool × Bool) : s.place k va n needs = .badva := by
  simp [State.place, hk, hs, hh, he, hr, hown, hw]
theorem place_main {d : Nat} {needs : Bool × Bool × Bool} (hr : regionOf (e.pa va) = .main d) (hp : permits e.w needs = true) (n : Nat) :
    s.place k va n needs = .mem (e.pa va) e.w none := by
  simp [State.place, hk, hs, hh, he, hr, hp]
end

end Sys2Proof.Machine
end


section
/-! Traffic from and to other packages: writes at their home, releases, flows, acknowledgements and limits (R212 to R216, R419 to R421). -/
open Sys2Proof Sys2Proof.Machine Sys2Proof.Spec
namespace Sys2Proof.Machine

/-- With MAIN up a unit acts. -/
theorem unitAct_up {s : State} (h : s.main = true) (g : State → State) : unitAct g s = .next (g s) := by simp [unitAct, h]

/-! ### Writes of units -/

theorem wrCells_append (m : List Host.Cell) (a : Nat) (l r : List (BitVec 8)) :
    wrCells m a (l ++ r) = wrCells (wrCells m a l) (a + l.length) r := by
  induction l generalizing m a with
  | nil => rfl
  | cons b l ih => rw [List.cons_append, wrCells, ih, wrCells, List.length_cons, Nat.add_assoc, Nat.add_comm 1]
/-- Memory after a run of bytes is written: those bytes at their places, every other byte as before. -/
theorem rdCell_wrCells {m : List Host.Cell} (hm : Memory.wf m = true) (a : Nat) (l : List (BitVec 8)) (b : Nat) :
    rdCell (wrCells m a l) b = if a ≤ b ∧ b < a + l.length then l.getD (b - a) 0#8 else rdCell m b := by
  split
  · next h =>
    have hj : b - a < l.length := by omega
    have := rdCell_wrCells_in m a l hm hj
    rwa [Nat.add_sub_cancel' h.1, ← List.getD_eq_getElem l 0#8 hj] at this
  · next h => exact rdCell_wrCells_out m a l (by omega)
theorem holeStore_fields (s : State) (pa : Nat) (l : List (BitVec 8)) : ∃ M P, s.holeStore pa l = { s with mem := M, poison := P } := by
  induction l generalizing s pa with
  | nil => exact ⟨s.mem, s.poison, rfl⟩
  | cons b l ih =>
    rw [State.holeStore]
    split
    · exact ih s (pa + 1)
    · obtain ⟨M, P, h⟩ := ih (s.store pa [b]) (pa + 1)
      exact ⟨M, P, h⟩
/-- A unit's write at an address software gave changes memory and its poison alone. -/
theorem unitStore_fields (s : State) (pa : Nat) (l : List (BitVec 8)) : ∃ M P, s.unitStore pa l = { s with mem := M, poison := P } := by
  unfold State.unitStore
  split
  · exact holeStore_fields s pa l
  · exact ⟨_, _, rfl⟩

/-! ### Writes at their home -/

/-- A byte of main memory of this package. -/
def State.MainAt (s : State) (x : Nat) : Prop := (∃ d, regionOf x = .main d) ∧ s.isOwn x = true
/-- A run of bytes of main memory. -/
def State.MainRun (s : State) (pa n : Nat) : Prop := ∀ i, i < n → s.MainAt (pa + i)

theorem homePa_main {s : State} {pa : Nat} (h : s.MainAt pa) : s.homePa pa = some pa := by
  obtain ⟨⟨d, hd⟩, hown⟩ := h
  simp [State.homePa, hown, hd]
theorem homePa_window {s : State} {pa k off : Nat} (hr : regionOf pa = .sram k off) (hown : s.isOwn pa = true) :
    s.homePa pa = s.windowPa (s.core k).ctxid k off := by
  simp [State.homePa, hown, hr]
/-- No bytes change no byte, wherever they go. -/
theorem homeStore_nil (s : State) (pa n : Nat) : ∃ P, s.homeStore pa [] n = { s with poison := P } := by
  cases n with
  | zero => exact ⟨s.poison, rfl⟩
  | succ n =>
    cases h : s.homePa pa with
    | none => exact ⟨s.poison, by simp [State.homeStore, h]⟩
    | some q => exact ⟨unpoison s.poison q 0, by simp [State.homeStore, h, State.store, wrCells]⟩
/-- Bytes that lie in main memory are all written, granule by granule. -/
theorem homeStore_main (s : State) (pa : Nat) (l : List (BitVec 8)) (n : Nat) (h : s.MainRun pa l.length) (hn : l.length + pa % 4096 ≤ 4096 * n) :
    ∃ P, s.homeStore pa l n = { s with mem := wrCells s.mem pa l, poison := P } := by
  induction n generalizing s pa l with
  | zero =>
    obtain rfl : l = [] := List.length_eq_zero_iff.mp (by omega)
    exact ⟨s.poison, rfl⟩
  | succ n ih =>
    by_cases hl : l = []
    · subst hl
      exact homeStore_nil s pa (n + 1)
    · have hpos : 0 < l.length := List.length_pos_iff.mpr hl
      have hfirst : s.homePa pa = some pa := homePa_main (h 0 hpos)
      simp only [State.homeStore, hfirst]
      split
      · next hle => exact ⟨_, by rw [List.take_of_length_le hle]; rfl⟩
      · next hgt =>
        have hrest : (s.store pa (l.take (4096 - pa % 4096))).MainRun (pa + (4096 - pa % 4096)) (l.drop (4096 - pa % 4096)).length := by
          intro i hi
          rw [List.length_drop] at hi
          rw [Nat.add_assoc]
          exact h _ (by omega)
        obtain ⟨P, hP⟩ := ih _ _ _ hrest (by rw [List.length_drop]; omega)
        have happend := wrCells_append s.mem pa (l.take (4096 - pa % 4096)) (l.drop (4096 - pa % 4096))
        rw [List.take_append_drop, List.length_take_of_le (by omega)] at happend
        exact ⟨P, by rw [hP, happend]; rfl⟩
/-- Off the register pages a write at its home goes granule by granule. -/
theorem homeWrite_memory {s : State} {pa : Nat} (l : List (BitVec 8)) (h : ∀ o, regionOf pa ≠ .regs o) :
    s.homeWrite pa l = s.homeStore pa l (l.length / 4096 + 2) := by
  unfold State.homeWrite
  cases hr : regionOf pa with
  | regs o => exact absurd hr (h o)
  | _ => rfl
/-- A write to main memory of this package writes its bytes there, and changes nothing else but the poison. -/
theorem homeWrite_main {s : State} {pa : Nat} {l : List (BitVec 8)} (h : s.MainRun pa l.length) :
    ∃ P, s.homeWrite pa l = { s with mem := wrCells s.mem pa l, poison := P } := by
  by_cases hr : ∃ o, regionOf pa = .regs o
  · obtain ⟨o, hr⟩ := hr
    obtain rfl : l = [] := by
      by_contra hl
      obtain ⟨⟨d, hd⟩, -⟩ := h 0 (List.length_pos_iff.mpr hl)
      rw [Nat.add_zero, hr] at hd
      cases hd
    refine ⟨s.poison, ?_⟩
    simp [State.homeWrite, hr, wrCells]
  · rw [homeWrite_memory l fun o ho => hr ⟨o, ho⟩]
    exact homeStore_main s pa l _ h (by omega)
/-- A write within one granule of a pool goes through its window, or is dropped where the granule is closed (R17). -/
theorem homeWrite_window {s : State} {pa k off : Nat} {l : List (BitVec 8)} (hr : regionOf pa = .sram k off) (hown : s.isOwn pa = true)
    (hl : pa % 4096 + l.length ≤ 4096) :
    (∀ q, s.windowPa (s.core k).ctxid k off = some q → s.homeWrite pa l = s.store q l) ∧
      (s.windowPa (s.core k).ctxid k off = none → s.homeWrite pa l = s) := by
  have hle : l.length ≤ 4096 - pa % 4096 := by omega
  rw [homeWrite_memory l (by simp [hr]), State.homeStore, homePa_window hr hown]
  refine ⟨fun q hq => ?_, fun hq => ?_⟩
  · simp [hq, hle, List.take_of_length_le hle]
  · simp [hq, hle]

/-! ### A peer's record (R213, R214, R420) -/

@[simp] theorem peer_setPeer (s : State) (t : Nat) (p : Peer) : (s.setPeer t p).peer t = p := Tab.get_put_self ..
theorem epochIn_current {p : Peer} {e : Nat} (h : e = p.rxEpoch) : p.epochIn e = some p := if_pos h
theorem epochIn_old {p : Peer} {e : Nat} (hne : e ≠ p.rxEpoch) (h : (e + 256 - p.rxEpoch) % 256 ≥ 128) : p.epochIn e = none := by
  simp [Peer.epochIn, hne, Nat.not_lt.mpr h]
theorem seen_iff (p : Peer) (n : Nat) : p.seen n = true ↔ n ∈ p.applied ∨ seqGe p.delivered n = true := by simp [Peer.seen]
theorem seenRel_iff (p : Peer) (n : Nat) :
    p.seenRel n = true ↔ n ∈ p.relApplied ∨ seqGe p.relDone n = true ∨ ∃ x ∈ p.relWait, x.num = n := by
  simp [Peer.seenRel, or_assoc]
/-- A release number that has been applied is not applied again (R214, R216). -/
theorem seenRel_noteRel (p : Peer) (n : Nat) : (p.noteRel n).seenRel n = true := by
  rw [seenRel_iff]
  by_cases h : seqGe (p.noteRel n).relDone n = true
  · exact .inr (.inl h)
  · exact .inl (List.mem_filter.mpr ⟨by simp, (Bool.not_eq_true' _).mpr (eq_false_of_ne_true h)⟩)
/-- Where no release waits none is applied. -/
theorem applyAll_idle {s : State} {src : Nat} {p : Peer} (h : p.relWait = []) : (s.setPeer src p).applyAll src = s.setPeer src p := by
  simp [State.applyAll, h, State.applyReleases]

section
variable {s : State} {src : Nat} {p : Peer} {x : RelWait} (hseen : p.seenRel x.num = false) (hwait : p.relWait = [])
include hseen hwait

theorem releaseIn_waits (hcount : seqGe p.delivered x.count = false) : s.releaseIn src p x = s.setPeer src { p with relWait := [x] } := by
  simp [State.releaseIn, hseen, hwait, State.applyAll, State.applyReleases, hcount]
theorem releaseIn_applies (hcount : seqGe p.delivered x.count = true) (hmarks : x.marks = []) (hamo : x.amo = none)
    (hline : s.linesHeld x.pa 8 = false) :
    s.releaseIn src p x = ((s.setPeer src { p with relWait := [x] }).homeWrite x.pa x.bytes).setPeer src
      (({ p with relWait := [] } : Peer).noteRel x.num |>.note ((x.count + 1) % 2 ^ 32)) := by
  have hline : (s.setPeer src { p with relWait := [x] }).linesHeld x.pa 8 = false := hline
  simp [State.releaseIn, hseen, hwait, State.applyAll, State.applyReleases, hcount, hmarks, hamo, hline]
end
theorem releaseIn_repeat {s : State} {src : Nat} {p : Peer} {x : RelWait} (h : p.seenRel x.num = true) : s.releaseIn src p x = s.setPeer src p := by
  simp [State.releaseIn, h]

/-! ### Arrivals (R213 to R216) -/

section
variable {s : State} {src : Nat} {epoch : BitVec 8} (hmain : s.main = true)
include hmain

/-- What an earlier epoch sent is discarded (R420). -/
theorem arrivals_old (hne : epoch.toNat ≠ (s.peer src).rxEpoch) (hold : (epoch.toNat + 256 - (s.peer src).rxEpoch) % 256 ≥ 128)
    (num count : BitVec 32) (marks : List (Nat × Nat)) (op pa size : Nat) (v : Word × Word) (l : List (BitVec 8)) :
    exec (.fabricStoreArrival src epoch num pa l) s = .next s ∧ exec (.fabricReleaseApply src epoch num count marks pa l) s = .next s ∧
      exec (.remoteAccessArrival src op pa size v ⟨epoch, num, none⟩) s = .next s := by
  have hnone := epochIn_old hne hold
  refine ⟨?_, ?_, ?_⟩
  · rw [exec_fabricStoreArrival, execFabricStoreArrival, unitAct_up hmain]
    simp [hnone]
  · rw [exec_fabricReleaseApply, execFabricReleaseApply, unitAct_up hmain]
    simp [hnone]
  · rw [exec_remoteAccessArrival, execRemoteAccessArrival, unitAct_up hmain]
    simp [hnone]
theorem fabricStore_lineHeld {pa : Nat} {l : List (BitVec 8)} (h : s.linesHeld pa l.length = true) (num : BitVec 32) :
    exec (.fabricStoreArrival src epoch num pa l) s = .next s := by
  rw [exec_fabricStoreArrival, execFabricStoreArrival, unitAct_up hmain]
  simp [h]
/-- A remote load changes nothing. -/
theorem remoteLoad_silent (pa size : Nat) (v : Word × Word) (tag : AccessTag) : exec (.remoteAccessArrival src 0 pa size v tag) s = .next s := by
  rw [exec_remoteAccessArrival, execRemoteAccessArrival, unitAct_up hmain]
  simp
theorem remoteAccess_lineHeld {pa size : Nat} (h : s.linesHeld pa (okSize size) = true) (op : Nat) (v : Word × Word) (num : BitVec 32) :
    exec (.remoteAccessArrival src op pa size v ⟨epoch, num, none⟩) s = .next s := by
  rw [exec_remoteAccessArrival, execRemoteAccessArrival, unitAct_up hmain]
  cases (s.peer src).epochIn epoch.toNat <;> simp [h]

variable (hsrc : src ≠ s.pkg) (hcur : epoch.toNat = (s.peer src).rxEpoch)
include hsrc hcur

/-- A store of the current epoch is applied at its home, unless it has been (R213). -/
theorem fabricStore_current {pa : Nat} {l : List (BitVec 8)} (hfree : s.linesHeld pa l.length = false) (num : BitVec 32) :
    exec (.fabricStoreArrival src epoch num pa l) s = .next (if (s.peer src).seen num.toNat then s.setPeer src (s.peer src)
      else ((s.homeWrite pa l).setPeer src ((s.peer src).note num.toNat)).applyAll src) := by
  rw [exec_fabricStoreArrival, execFabricStoreArrival, unitAct_up hmain]
  simp [hsrc, hfree, epochIn_current hcur]
theorem fabricRelease_current (num count : BitVec 32) (marks : List (Nat × Nat)) (pa : Nat) (l : List (BitVec 8)) :
    exec (.fabricReleaseApply src epoch num count marks pa l) s =
      .next (s.releaseIn src (s.peer src) { num := num.toNat, count := count.toNat, marks := marks, pa := pa, bytes := l }) := by
  rw [exec_fabricReleaseApply, execFabricReleaseApply, unitAct_up hmain]
  simp [hsrc, epochIn_current hcur]

variable {op : Nat} (h1 : 1 ≤ op) (h13 : op ≤ 13)
include h1 h13

/-- An AMO with release order arrives as a release does (R214). -/
theorem remoteRelease_current (pa size : Nat) (v cmp : Word) (num0 num count : BitVec 32) (marks : List (Nat × Nat)) :
    exec (.remoteAccessArrival src op pa size (v, cmp) ⟨epoch, num0, some ⟨num, count, marks⟩⟩) s =
      .next (s.releaseIn src (s.peer src)
        { num := num.toNat, count := count.toNat, marks := marks, pa := pa, bytes := [], amo := some (op, okSize size, v, cmp) }) := by
  rw [exec_remoteAccessArrival, execRemoteAccessArrival, unitAct_up hmain]
  simp [hsrc, epochIn_current hcur, Nat.one_le_iff_ne_zero.mp h1, Nat.not_lt.mpr h13]
/-- An AMO is performed at its home, unless it has been (R216). -/
theorem remoteAmo_current {pa size : Nat} (hfree : s.linesHeld pa (okSize size) = false) (v cmp : Word) (num : BitVec 32) :
    exec (.remoteAccessArrival src op pa size (v, cmp) ⟨epoch, num, none⟩) s = .next (if (s.peer src).seen num.toNat then s.setPeer src (s.peer src)
      else ((s.amoHome op pa (okSize size) v cmp).setPeer src ((s.peer src).note num.toNat)).applyAll src) := by
  rw [exec_remoteAccessArrival, execRemoteAccessArrival, unitAct_up hmain]
  simp [hsrc, hfree, epochIn_current hcur, Nat.one_le_iff_ne_zero.mp h1, Nat.not_lt.mpr h13]
end

theorem okSize_of_mem {n : Nat} (h : n ∈ [1, 2, 4, 8]) : okSize n = n := by simp [okSize, h]
theorem amoHome_main {s : State} {pa n : Nat} (hpa : s.MainAt pa) (hal : pa % n = 0) (hp : s.poisonedAt pa n = false) (op : Nat) (v cmp : Word) :
    s.amoHome op pa n v cmp = ((amoNew op n (s.rdN pa n) v cmp).map (s.wrN pa n)).getD s := by
  rw [State.amoHome, homePa_main hpa]
  cases h : amoNew op n (s.rdN pa n) v cmp <;> simp [hal, hp, h]

/-! ### Flows (R212, R215) -/

theorem flowOf_earlier {p : Peer} {flow start : Nat} {F : InFlow} (hF : p.flows.get? flow = some F) (hne : F.start ≠ start)
    (hge : seqGe start F.next = false) : p.flowOf flow start = none := by
  simp [Peer.flowOf, hF, hne, hge]
theorem flowOf_eq {p : Peer} {flow start : Nat} {F : InFlow}
    (h : (p.flows.get? flow = some F ∧ F.start = start) ∨ (p.flows.get? flow = none ∧ F = { start := start, next := start })) :
    p.flowOf flow start = some F := by
  rcases h with ⟨hF, hs⟩ | ⟨hF, rfl⟩
  · simp [Peer.flowOf, hF, hs]
  · simp [Peer.flowOf, hF]

section
variable {s : State} {src flow : Nat} {num start : BitVec 32} {ordered : Bool} {pa : Nat} {l : List (BitVec 8)} (hmain : s.main = true)
include hmain

theorem flowPacket_lineHeld (h : s.linesHeld pa l.length = true) : exec (.flowPacketArrival src flow (num, start) ordered none pa l) s = .next s := by
  rw [exec_flowPacketArrival, execFlowPacketArrival, unitAct_up hmain]
  simp [h]
theorem flowPacket_earlier (h : (s.peer src).flowOf flow start.toNat = none) :
    exec (.flowPacketArrival src flow (num, start) ordered none pa l) s = .next s := by
  rw [exec_flowPacketArrival, execFlowPacketArrival, unitAct_up hmain]
  simp [h]

variable {F : InFlow} (hF : (s.peer src).flowOf flow start.toNat = some F)
include hF

/-- A packet that has been delivered is not written again. -/
theorem flowPacket_repeat (h : seqGe num.toNat F.next = false ∨ num.toNat ∈ F.got) :
    exec (.flowPacketArrival src flow (num, start) ordered none pa l) s = .next s := by
  rw [exec_flowPacketArrival, execFlowPacketArrival, unitAct_up hmain]
  rcases h with h | h <;> simp [hF, h]

variable (hsrc : src ≠ s.pkg) (hfree : s.linesHeld pa l.length = false) (hge : seqGe num.toNat F.next = true) (hgot : num.toNat ∉ F.got)
  (hheld : F.held = []) (hwait : (s.peer src).relWait = [])
include hsrc hfree hge hgot hheld hwait

theorem flowPacket_unordered (ho : ordered = false) : exec (.flowPacketArrival src flow (num, start) ordered none pa l) s =
    .next ((s.homeWrite pa l).setPeer src { s.peer src with flows := (s.peer src).flows.put flow (F.deliver num.toNat) }) := by
  rw [exec_flowPacketArrival, execFlowPacketArrival, unitAct_up hmain]
  simp [ho, hsrc, hfree, hF, hge, hgot, hheld, applyAll_idle, hwait]
/-- The packet of an ordered flow that is next is written, and the flow goes on. -/
theorem flowPacket_next (ho : ordered = true) (hnext : num.toNat = F.next) : exec (.flowPacketArrival src flow (num, start) ordered none pa l) s =
    .next ((s.homeWrite pa l).setPeer src { s.peer src with
      flows := (s.peer src).flows.put flow { F with next := (F.next + 1) % 2 ^ 32, held := [] } }) := by
  rw [exec_flowPacketArrival, execFlowPacketArrival, unitAct_up hmain]
  rw [hnext] at hge hgot
  simp [ho, hsrc, hfree, hF, hge, hgot, hheld, State.flowDrain, hnext, applyAll_idle, hwait]
/-- One that is not next is held, and nothing is written. -/
theorem flowPacket_held (ho : ordered = true) (hnext : num.toNat ≠ F.next) : exec (.flowPacketArrival src flow (num, start) ordered none pa l) s =
    .next (s.setPeer src { s.peer src with flows := (s.peer src).flows.put flow { F with held := [(num.toNat, (pa, l))] } }) := by
  rw [exec_flowPacketArrival, execFlowPacketArrival, unitAct_up hmain]
  simp [ho, hsrc, hfree, hF, hge, hgot, hheld, State.flowDrain, hnext, applyAll_idle, hwait]
end

/-! ### Acknowledgements (R213, R420) -/

theorem perform_alive {s : State} {t : Nat} {q : PStore} (h : (s.peer t).alive q = true) (hr : ∀ o, regionOf q.pa ≠ .regs o) :
    s.perform t q = (s.setPeer t { s.peer t with pending := (s.peer t).pending.erase q, learnt := q.epoch }).unitStore q.pa q.bytes := by
  unfold State.perform
  cases hq : regionOf q.pa with
  | regs o => exact absurd hq (hr o)
  | _ => simp [h]
/-- An item behind a newer epoch is lost (log 83). -/
theorem perform_lost {s : State} {t : Nat} {q : PStore} (h : (s.peer t).alive q = false) : s.perform t q = s.setPeer t ((s.peer t).lose q) := by
  simp [State.perform, h]
theorem alive_iff (p : Peer) (q : PStore) :
    p.alive q = true ↔ (q.epoch + 256 - p.learnt) % 256 < 128 ∧ (q.rel = none ∨ ∀ n ∈ p.lost, n.1 ≠ q.epoch ∨ seqGe q.num n.2 = false) := by
  simp [Peer.alive, or_iff_not_imp_left]
/-- With nothing on its way an acknowledgement performs nothing. -/
theorem ack_nothing {s : State} {src : Nat} (hmain : s.main = true) (hp : (s.peer src).pending = []) (count : BitVec 32) (sw : Bool) :
    exec (.programTrafficAck src count sw) s = .next (if sw then s.setPeer src { s.peer src with pending := [] } else s) := by
  rw [exec_programTrafficAck, execProgramTrafficAck, unitAct_up hmain]
  simp [hp]
/-- The acknowledgement of the one item on its way performs it. -/
theorem ack_one {s : State} {src : Nat} {q : PStore} {count : BitVec 32} (hmain : s.main = true) (hp : (s.peer src).pending = [q])
    (hep : q.epoch = (s.peer src).txEpoch) (hge : seqGe count.toNat q.num = true)
    (hlost : ∀ n ∈ (s.peer src).lost, n.1 ≠ (s.peer src).txEpoch ∨ seqGe count.toNat n.2 = false) :
    exec (.programTrafficAck src count false) s = .next ((s.perform src q).afterRelease q.core) := by
  have hpast : ((s.peer src).lost.any fun n => n.1 = (s.peer src).txEpoch && seqGe count.toNat n.2) = false := by
    simpa [or_iff_not_imp_left] using hlost
  rw [exec_programTrafficAck, execProgramTrafficAck, unitAct_up hmain]
  simp [hp, hep, hge, hpast]

/-! ### Limits (R419 to R421) -/

theorem remoteLimit_access {s : State} (hmain : s.main = true) (k : Nat) {f : Nat} (hf : f < 32) :
    exec (.remoteLimitExpiry (4 * (32 * k + f))) s = .next (s.farLimit k f) := by
  have hk : (32 * k + f) / 32 = k := by omega
  rw [exec_remoteLimitExpiry, execRemoteLimitExpiry, unitAct_up hmain]
  simp [hk, Nat.mod_eq_of_lt hf]
theorem remoteLimit_pending {s : State} (hmain : s.main = true) (t : Nat) :
    exec (.remoteLimitExpiry (4 * (t * 2 ^ 16) + 1)) s = .next (s.pendLimit t 0) := by
  have hmod : (4 * (t * 2 ^ 16) + 1) % 4 = 1 := by omega
  have hdiv : (4 * (t * 2 ^ 16) + 1) / 4 = t * 2 ^ 16 := by omega
  rw [exec_remoteLimitExpiry, execRemoteLimitExpiry, unitAct_up hmain]
  simp only [hmod, hdiv, Nat.mul_div_cancel _ (Nat.two_pow_pos 16), Nat.mul_mod_left]

/-- The limit of an access that a firing waits with opens an epoch, and the firing takes TIMEOUT. -/
theorem farLimit_times_out {s : State} {k f va t : Nat} {h : List (Nat × Nat)} (hfar : (s.fr k f).far = (va, t) :: h) (ht : t < 2 ^ 16)
    (hhold : (s.fr k f).hold ≠ .no) (hstat : (s.fr k f).stat ≠ .stopped) (hsaved : (s.fr k f).saved = []) :
    s.farLimit k f = (s.openEpoch t).timeoutAt k f va t := by
  have hown : ¬65536 ≤ t := by omega
  simp [State.farLimit, hfar, hown, hhold, hstat, hsaved]
theorem lose_txEpoch (p : Peer) (q : PStore) : (p.lose q).txEpoch = p.txEpoch := rfl
/-- Performing an item, or losing it, opens no epoch. -/
theorem perform_txEpoch (s : State) (t : Nat) (q : PStore) : ((s.perform t q).peer t).txEpoch = (s.peer t).txEpoch := by
  by_cases ha : (s.peer t).alive q = true
  · by_cases hr : ∃ o, regionOf q.pa = .regs o
    · obtain ⟨o, hr⟩ := hr
      simp [State.perform, ha, hr]
    · rw [perform_alive ha fun o ho => hr ⟨o, ho⟩]
      obtain ⟨M, P, hMP⟩ := unitStore_fields (s.setPeer t { s.peer t with pending := (s.peer t).pending.erase q, learnt := q.epoch }) q.pa q.bytes
      rw [hMP]
      show ((s.setPeer t _).peer t).txEpoch = _
      rw [peer_setPeer]
  · rw [perform_lost (by simpa using ha), peer_setPeer, lose_txEpoch]
theorem foldl_perform_txEpoch (s : State) (t : Nat) (l : List PStore) :
    ((l.foldl (fun s q => s.perform t q) s).peer t).txEpoch = (s.peer t).txEpoch := by
  induction l generalizing s with
  | nil => rfl
  | cons q l ih => rw [List.foldl_cons, ih, perform_txEpoch]
/-- A plain store past its limit marks the pair, and the epoch stays (log 82). -/
theorem pendLimit_plain {s : State} {t j : Nat} {q : PStore} (hq : (s.peer t).pending[j]? = some q) (hrel : q.rel = none) :
    ((s.pendLimit t j).peer t).timedOut = true ∧ ((s.pendLimit t j).peer t).txEpoch = (s.peer t).txEpoch := by
  simp only [State.pendLimit, hq, hrel, peer_setPeer, true_and]
  split
  · exact (foldl_perform_txEpoch ..).trans (foldl_perform_txEpoch ..)
  · exact (congrArg Peer.txEpoch (peer_setPeer ..)).trans (foldl_perform_txEpoch ..)

end Sys2Proof.Machine
end


section
/-! Launches: doorbells and packets, what a launch leaves on its cores, and what comes back to a core
(R278, R280, R287, R288, R364, R385 to R390, R405 to R407). -/
open Sys2Proof Sys2Proof.Machine Sys2Proof.Spec

namespace Sys2Proof.Tab
variable {α : Type}

theorem look_none {l : List (Nat × α)} {k : Nat} (h : ∀ e ∈ l, e.1 ≠ k) : look l k = none := by
  induction l with
  | nil => rfl
  | cons e l ih =>
    rw [List.forall_mem_cons] at h
    simp [look, h.1, ih h.2]
/-- A list that holds at most one entry for each number, made from the numbers. -/
theorem look_filterMap {F : Nat → Option (Nat × α)} (hF : ∀ n e, F n = some e → e.1 = n) (l : List Nat) (k : Nat) :
    look (l.filterMap F) k = if k ∈ l then (F k).map Prod.snd else none := by
  induction l with
  | nil => rfl
  | cons a l ih =>
    cases ha : F a with
    | none =>
      rw [List.filterMap_cons_none ha, ih]
      by_cases hk : k = a
      · subst hk; simp [ha]
      · simp [hk]
    | some e =>
      rw [List.filterMap_cons_some ha, look, ih, hF a e ha]
      by_cases hk : a = k
      · subst hk; simp [ha]
      · simp [hk, Ne.symm hk]
@[simp] theorem get?_del_self (t : Tab α) (k : Nat) : (t.del k).get? k = none := look_none fun e he => by simpa using (List.mem_filter.mp he).2
@[simp] theorem get_del_self (t : Tab α) (k : Nat) (d : α) : (t.del k).get k d = d := by
  show ((t.del k).get? k).getD d = d
  rw [get?_del_self]
  rfl
@[simp] theorem keys_map (t : Tab α) (g : Nat → α → α) : (t.map g).keys = t.keys := by simp [map, keys, Function.comp_def]

end Sys2Proof.Tab

namespace Sys2Proof.Machine

theorem fld_eq (w : Word) (lo n : Nat) : fld w lo n = w.toNat / 2 ^ lo % 2 ^ n := by rw [fld, Nat.shiftRight_eq_div_pow]
/-- Acts each of which leaves the state as it is leave it so together. -/
theorem foldl_still {α β : Type} {g : β → α → β} {b : β} {l : List α} (h : ∀ a ∈ l, g b a = b) : l.foldl g b = b := by
  induction l with
  | nil => rfl
  | cons a l ih =>
    rw [List.forall_mem_cons] at h
    rw [List.foldl_cons, h.1, ih h.2]

/-! ### Doorbells (R386) -/

theorem doorbell_rings {s : State} {die q : Nat} (hd : die < 6) (hq : q < 64) (hmain : s.main = true) (v : BitVec 32) :
    exec (.doorbell die q v) s = .next (s.ringBell die q v.toNat false) := by
  rw [exec_doorbell, execDoorbell, unitAct_up hmain]
  simp [hd, hq]
/-- A doorbell to a queue that is not enabled, or whose context is barred, is ignored (log 33). -/
theorem ringBell_ignored {s : State} {die q : Nat} (h : (s.uq die q).enable = false ∨ s.barred (s.uq die q).ctx = true) (v : Nat) (driver : Bool) :
    s.ringBell die q v driver = s := by
  rcases h with h | h <;> simp [State.ringBell, h]

section
variable {s : State} {die q v : Nat} (hen : (s.uq die q).enable = true) (hbar : s.barred (s.uq die q).ctx = false)
include hen hbar

/-- A doorbell within the ring promises entries, where it promises more than are promised. -/
theorem ringBell_promises (hv : (v + 2 ^ 32 - (s.uq die q).head) % 2 ^ 32 ≤ 2 ^ (s.uq die q).log2) (ha : nfld (s.die die).assist 0 1 = 0) :
    s.ringBell die q v false =
      if (v + 2 ^ 32 - (s.uq die q).head) % 2 ^ 32 > ((s.uq die q).promised + 2 ^ 32 - (s.uq die q).head) % 2 ^ 32 then
        s.setUq die q { s.uq die q with promised := v } else s := by
  simp only [State.ringBell, hen, hbar, Bool.not_true, Bool.or_self, Bool.false_eq_true, if_false, if_pos hv,
    ha, Nat.zero_ne_one, decide_false, Bool.false_and]
theorem ringBell_posts (hv : (v + 2 ^ 32 - (s.uq die q).head) % 2 ^ 32 ≤ 2 ^ (s.uq die q).log2) (ha : nfld (s.die die).assist 0 1 = 1) :
    s.ringBell die q v false = s.bellPost die := by
  simp only [State.ringBell, hen, hbar, Bool.not_true, Bool.or_self, Bool.false_eq_true, if_false, if_pos hv,
    ha, decide_true, Bool.not_false, Bool.and_self, if_true]
theorem ringBell_beyond (hv : (v + 2 ^ 32 - (s.uq die q).head) % 2 ^ 32 > 2 ^ (s.uq die q).log2) (driver : Bool) :
    s.ringBell die q v driver = s.queueErr die q := by
  simp only [State.ringBell, hen, hbar, Bool.not_true, Bool.or_self, Bool.false_eq_true, if_false, if_neg (Nat.not_le.mpr hv)]
end

/-! ### Packets (R386, R387) -/

theorem queuePacketRead_idle {s : State} {die q : Nat} (h : s.mayParse die q = false) (hmain : s.main = true) :
    exec (.queuePacketRead die q) s = .next s := by
  rw [exec_queuePacketRead, execQueuePacketRead, unitAct_up hmain]
  simp [h]
/-- The packet at HEAD, where it is translated and not poisoned: not there yet, malformed, a no-operation, or a launch. -/
theorem queuePacketRead_reads {s s1 : State} {die q pa : Nat} {e : Word} (hmain : s.main = true) (hp : s.mayParse die q = true)
    (hgo : s.unitAcc die (frontUnit die q) (s.uq die q).ctx ((s.uq die q).ring.toNat + 64 * ((s.uq die q).head % 2 ^ (s.uq die q).log2)) needR = .go s1 pa e)
    (hpoison : s1.poisonedAt (dieRead die pa e) 64 = false) :
    let u := s.uq die q
    let p := words64 8 (s1.unitBytes (dieRead die pa e) 64)
    let s2 := s1.setUq die q { u with head := (u.head + 1) % 2 ^ 32 }
    exec (.queuePacketRead die q) s = .next (if fld (p.getD 0 0#64) 0 1 = 0 ∨ fld (p.getD 0 0#64) 8 8 ≠ u.head / 2 ^ u.log2 % 256 then s1
      else if packetBad p then s2.malformed die q u.ctx p
      else if fld (p.getD 0 0#64) 16 8 = 0 then s2
      else { s2 with launchNo := s1.launchNo + 1, launches := s1.launches ++ [mkLaunch s1.launchNo die q u.ctx p s1.mem] }) := by
  rw [exec_queuePacketRead, execQueuePacketRead, unitAct_up hmain]
  simp only [hp, hgo, hpoison, Bool.not_true, Bool.false_eq_true, if_false, Bool.or_eq_true, decide_eq_true_eq]
  rfl

/-! ### Releasing and completing a launch (R288, R388 to R390) -/

section
variable {s : State} {n : Nat} {L : Launch} (hL : s.launches[n]? = some L) (hmain : s.main = true)
include hL hmain

theorem launchRelease_at : exec (.launchRelease n) s = .next (s.releaseIf L) := by
  rw [exec_launchRelease, execLaunchRelease, unitAct_up hmain, hL]
theorem launchComplete_fault (h : L.sigFault = true) : exec (.launchComplete n) s =
    .next (if L.owes then ((s.dropLaunch L.id).queueErr L.die L.q).limitGuilt L else (s.dropLaunch L.id).queueErr L.die L.q).retireOn := by
  rw [exec_launchComplete, execLaunchComplete, unitAct_up hmain, hL]
  simp only [h, if_true]
theorem launchComplete_waits (h : L.sigFault = false)
    (hw : s.gangDone L = false ∨ (L.ended = false ∧ (L.released = false ∨ ∃ k ∈ L.cores, s.retired L k = false))) :
    exec (.launchComplete n) s = .next s.retireOn := by
  rw [exec_launchComplete, execLaunchComplete, unitAct_up hmain, hL]
  rcases hw with hd | ⟨he, hr | hr⟩
  · simp [h, hd]
  · simp [h, he, hr]
  · have hall : (L.cores.all fun k => s.retired L k) = false := by simpa using hr
    simp [h, he, hall]
theorem launchComplete_ended (h : L.sigFault = false) (hd : s.gangDone L = true) (he : L.ended = true) : exec (.launchComplete n) s =
    .next (if L.owes then (s.sigOut L (L.failed.getD 0)).limitGuilt L else s.sigOut L (L.failed.getD 0)).retireOn := by
  rw [exec_launchComplete, execLaunchComplete, unitAct_up hmain, hL]
  simp [h, hd, he]
theorem launchComplete_retired (h : L.sigFault = false) (hd : s.gangDone L = true) (he : L.ended = false) (hr : L.released = true)
    (hall : ∀ k ∈ L.cores, s.retired L k = true) : exec (.launchComplete n) s =
    .next ((L.cores.foldl (fun s k => s.memberLost L.ctx k 3) s).sigOut L (L.failed.getD 0)).retireOn := by
  rw [exec_launchComplete, execLaunchComplete, unitAct_up hmain, hL]
  have hall : (L.cores.all fun k => s.retired L k) = true := by simpa using hall
  simp [h, hd, he, hr, hall]
theorem launchLimit_at : exec (.launchLimitExpiry n) s = .next (if L.ended then s else (s.launchEnd L (-1)).limitGuilt L) := by
  rw [exec_launchLimitExpiry, execLaunchLimitExpiry, unitAct_up hmain, hL]
end
/-- The guilt of a launch that is over is charged at once (R390). -/
theorem limitGuilt_over {s : State} {L : Launch} (h : ∀ o ∈ s.launches, o.id ≠ L.id) : s.limitGuilt L = s.guilt L.ctx 3 := by
  simpa [State.limitGuilt] using fun o ho he => absurd he (h o ho)
theorem releaseIf_held {s : State} {L : Launch} (h : L.released = true ∨ L.ended = true ∨ s.barred L.ctx = true ∨ s.frozen L.ctx = true) :
    s.releaseIf L = s := by
  rcases h with h | h | h | h <;> simp [State.releaseIf, h]
/-- Nothing holds a launch back before its cores are looked at: it is new, its context may run, and none of its queue runs on its cores. -/
structure State.MayRelease (s : State) (L : Launch) : Prop where
  fresh : L.released = false
  running : L.ended = false
  unordered : L.after = false
  allowed : s.barred L.ctx = false
  thawed : s.frozen L.ctx = false
  live : s.slotOf L.ctx ≠ none
  up : (s.die L.die).feDown = false
  barrier : s.barArmed L = false
  alone : ∀ R ∈ s.launches, R.id = L.id ∨ R.released = false ∨ R.ended = true ∨ R.die ≠ L.die ∨ R.q ≠ L.q
/-- A launch that nothing holds back, whose cores are free and whose image reads, is released. -/
theorem releaseIf_releases {s t : State} {L : Launch} {img : List (BitVec 8)} (h : s.MayRelease L) (hseat : ∀ k ∈ L.cores, s.seat L k = .free)
    (himg : s.readVa L.die (3600 + L.die) L.ctx 17 L.image.toNat L.size = .got t img) : s.releaseIf L = t.release L img := by
  obtain ⟨hfresh, hrunning, hafter, hbar, hfrozen, hlive, hup, hbarrier, halone⟩ := h
  have hsame : (s.launches.any fun R => R.id ≠ L.id && R.released && !R.ended && R.die = L.die && R.q = L.q && R.cores.any L.cores.contains) = false := by
    rw [List.any_eq_false]
    intro R hR
    rcases halone R hR with h | h | h | h | h <;> simp [h]
  have hno : (L.cores.any fun k => s.seat L k = .no) = false := by
    rw [List.any_eq_false]
    exact fun k hk => by simp [hseat k hk]
  have hneed : (L.cores.filter fun k => s.seat L k = .preempt) = [] := by
    rw [List.filter_eq_nil_iff]
    exact fun k hk => by simp [hseat k hk]
  have hfree : (L.cores.any fun k => s.seat L k ≠ .free) = false := by
    rw [List.any_eq_false]
    exact fun k hk => by simp [hseat k hk]
  have hslot : (s.slotOf L.ctx).isNone = false := Option.isNone_eq_false_iff.mpr (Option.isSome_iff_ne_none.mpr hlive)
  simp only [State.releaseIf, hfresh, hrunning, hafter, hbar, hfrozen, hup, hbarrier, hsame, hslot, hno, hneed, hfree, himg, Bool.false_and,
    Bool.or_self, Bool.false_eq_true, if_false, List.foldl_nil]
theorem contextResume_at {s : State} (hmain : s.main = true) (k : Nat) (ctx : BitVec 16) : exec (.contextResume k ctx) s =
    .next (if s.mayResume k ctx.toNat then (s.dropOwners k (s.core k).ctxid).resumeCtx k ctx.toNat else s) := by
  rw [exec_contextResume, execContextResume, unitAct_up hmain]

/-! ### Granules (R406): what their operations leave alone -/

theorem setHeld_fields (s : State) (ctx k : Nat) (b : Bool) : ∃ M P, s.setHeld ctx k b = { s with mem := M, poison := P } := by
  unfold State.setHeld
  split
  · exact ⟨s.mem, s.poison, rfl⟩
  · exact unitStore_fields ..

/-- From `s` to `t` only memory, its poison and the granule map of core `k` change. -/
structure GranulesOnly (k : Nat) (s t : State) : Prop where
  rest : ∃ C M P, t = { s with cores := C, mem := M, poison := P }
  others : ∀ j, j ≠ k → t.core j = s.core j
  own : ∃ O, t.core k = { s.core k with owner := O }

namespace GranulesOnly
variable {k : Nat} {s t u : State}

theorem of_memory (h : ∃ M P, t = { s with mem := M, poison := P }) : GranulesOnly k s t := by
  obtain ⟨M, P, rfl⟩ := h
  exact ⟨⟨s.cores, M, P, rfl⟩, fun _ _ => rfl, (s.core k).owner, rfl⟩
theorem refl (s : State) : GranulesOnly k s s := of_memory ⟨s.mem, s.poison, rfl⟩
theorem of_owner (s : State) (O : Tab (Nat × Nat)) : GranulesOnly k s (s.updCore k fun c => { c with owner := O }) :=
  ⟨⟨_, s.mem, s.poison, rfl⟩, fun _ h => core_setCore_ne s _ h, O, core_setCore_self ..⟩
theorem trans (h : GranulesOnly k s t) (h' : GranulesOnly k t u) : GranulesOnly k s u := by
  obtain ⟨⟨C, M, P, ht⟩, hothers, O, hown⟩ := h
  obtain ⟨⟨C', M', P', hu⟩, hothers', O', hown'⟩ := h'
  refine ⟨⟨C', M', P', by rw [hu, ht]⟩, fun j hj => (hothers' j hj).trans (hothers j hj), O', ?_⟩
  rw [hown', hown]
theorem foldl {α : Type} {g : State → α → State} (hg : ∀ s a, GranulesOnly k s (g s a)) (l : List α) (s : State) : GranulesOnly k s (l.foldl g s) := by
  induction l generalizing s with
  | nil => exact refl s
  | cons a l ih => exact (hg s a).trans (ih _)
theorem fr (h : GranulesOnly k s t) (j f : Nat) : t.fr j f = s.fr j f := by
  obtain ⟨C, M, P, rfl⟩ := h.rest
  rfl
theorem savedCores (h : GranulesOnly k s t) : t.savedCores = s.savedCores := by
  obtain ⟨C, M, P, rfl⟩ := h.rest
  rfl
theorem savedFrames (h : GranulesOnly k s t) : t.savedFrames = s.savedFrames := by
  obtain ⟨C, M, P, rfl⟩ := h.rest
  rfl
end GranulesOnly

theorem dropOwners_granules (s : State) (k ctx : Nat) : GranulesOnly k s (s.dropOwners k ctx) := .of_owner s _
/-- A write of a unit, the poison it carries with it, and a second write of a unit. -/
theorem unitWr_granules {s t : State} {k : Nat} (h : GranulesOnly k s t) (src dst n a m v : Nat) :
    GranulesOnly k s ((t.carryPoison src dst n).unitWr a m v) := by
  have hcarry : GranulesOnly k t (t.carryPoison src dst n) := .of_memory ⟨t.mem, _, rfl⟩
  exact h.trans (hcarry.trans (.of_memory (unitStore_fields ..)))
theorem image_granules (s : State) (k p ctx g : Nat) : GranulesOnly k s (s.image k p ctx g) := by
  unfold State.image
  split
  · exact .refl s
  · exact unitWr_granules (.of_memory (unitStore_fields ..)) ..
theorem takeGranule_granules (s : State) (k ctx g : Nat) : GranulesOnly k s (s.takeGranule k ctx g).1 := by
  unfold State.takeGranule
  split
  · exact .of_owner s _
  · split
    · exact (image_granules ..).trans (.of_owner _ _)
    · exact .refl s
theorem takeAll_granules (s : State) (k ctx : Nat) (gs : List Nat) : GranulesOnly k s (s.takeAll k ctx gs) :=
  .foldl (fun s g => takeGranule_granules s k ctx g) gs s
/-- The first granule nobody holds is taken; nothing is written. -/
theorem takeGranule_first {s : State} {k q : Nat} (ctx g : Nat) (hq : q < 256) (hheld : ∀ j, j < q → (s.core k).owner.get? j ≠ none)
    (hfree : (s.core k).owner.get? q = none) :
    s.takeGranule k ctx g = (s.updCore k fun c => { c with owner := c.owner.put q (ctx, g) }, q) := by
  have hfind : ((List.range 256).find? fun p => ((s.core k).owner.get? p).isNone) = some q :=
    List.find?_range_eq_some.mpr ⟨by simp [hfree], List.mem_range.mpr hq, fun j hj => by simpa [Option.isSome_iff_ne_none] using hheld j hj⟩
  rw [State.takeGranule, hfind]

/-! ### Frames written one after the other -/

theorem lt_of_mem_framesOf {k f : Nat} (h : f ∈ framesOf k) : f < 32 := by
  unfold framesOf at h
  split at h <;> have := List.mem_range.mp h <;> omega
theorem zero_mem_framesOf (k : Nat) : 0 ∈ framesOf k := by
  unfold framesOf
  split <;> simp

section
variable {α : Type} (k : Nat) (key : α → Nat) (val : α → Frame) (l : List α) (s : State)

theorem foldl_setFr_fields : ∃ F, l.foldl (fun s a => s.setFr k (key a) (val a)) s = { s with frames := F } := by
  induction l generalizing s with
  | nil => exact ⟨s.frames, rfl⟩
  | cons a l ih =>
    obtain ⟨F, hF⟩ := ih (s.setFr k (key a) (val a))
    exact ⟨F, hF⟩
/-- A frame of the core holds what one of the entries that name it brings, or is as it was where none does. -/
theorem fr_foldl_setFr (f : Nat) :
    (∃ a ∈ l, key a = f ∧ (l.foldl (fun s a => s.setFr k (key a) (val a)) s).fr k f = val a) ∨
      ((∀ a ∈ l, key a ≠ f) ∧ (l.foldl (fun s a => s.setFr k (key a) (val a)) s).fr k f = s.fr k f) := by
  induction l generalizing s with
  | nil => exact .inr ⟨by simp, rfl⟩
  | cons a l ih =>
    rw [List.foldl_cons]
    rcases ih (s.setFr k (key a) (val a)) with ⟨b, hb, hkey, hfr⟩ | ⟨hnone, hfr⟩
    · exact .inl ⟨b, List.mem_cons_of_mem _ hb, hkey, hfr⟩
    · by_cases ha : key a = f
      · exact .inl ⟨a, List.mem_cons_self, ha, by rw [hfr, ← ha, fr_setFr_self]⟩
      · exact .inr ⟨List.forall_mem_cons.mpr ⟨ha, hnone⟩, by rw [hfr, fr_setFr_ne _ _ (by omega)]⟩
theorem fr_foldl_setFr_other {j g : Nat} (hj : j ≠ k) (hg : g < 32) (hkey : ∀ a ∈ l, key a < 32) :
    (l.foldl (fun s a => s.setFr k (key a) (val a)) s).fr j g = s.fr j g := by
  induction l generalizing s with
  | nil => rfl
  | cons a l ih =>
    rw [List.forall_mem_cons] at hkey
    rw [List.foldl_cons, ih _ hkey.2, fr_setFr_ne _ _ (by omega)]
end

/-- Every frame of a core empties. -/
def State.emptied (s : State) (k : Nat) : State := (framesOf k).foldl (fun s f => s.setFr k f {}) s
theorem emptied_fields (s : State) (k : Nat) : ∃ F, s.emptied k = { s with frames := F } := foldl_setFr_fields k id (fun _ => {}) ..
theorem fr_emptied {k f : Nat} (s : State) (h : f ∈ framesOf k) : (s.emptied k).fr k f = {} := by
  rcases fr_foldl_setFr k id (fun _ => ({} : Frame)) (framesOf k) s f with ⟨a, ha, hkey, hfr⟩ | ⟨hnone, hfr⟩
  · exact hfr
  · exact absurd rfl (hnone f h)
theorem fr_emptied_other {j k g : Nat} (s : State) (hj : j ≠ k) (hg : g < 32) : (s.emptied k).fr j g = s.fr j g :=
  fr_foldl_setFr_other k id (fun _ => {}) _ s hj hg fun _ ha => lt_of_mem_framesOf ha

/-! ### Context records depend on memory and on where they lie -/

theorem holeBytes_congr {s t : State} (h : t.mem = s.mem) (pa n : Nat) : t.holeBytes pa n = s.holeBytes pa n := by
  induction n generalizing pa with
  | zero => rfl
  | succ n ih => simp only [State.holeBytes, ih, State.rd, h]
theorem unitBytes_congr {s t : State} (h : t.mem = s.mem) (pa n : Nat) : t.unitBytes pa n = s.unitBytes pa n := by
  have hrd : t.rdBytes pa n = s.rdBytes pa n := rdBytes_congr s t pa n fun b _ _ => by rw [State.rd, h, State.rd]
  rw [State.unitBytes, hrd, holeBytes_congr h, State.unitBytes]
theorem ctxDw_congr {s t : State} (hm : t.mem = s.mem) (hd : t.dies = s.dies) (slot off : Nat) : t.ctxDw slot off = s.ctxDw slot off := by
  have hpa : t.ctxPa slot = s.ctxPa slot := by rw [State.ctxPa, State.die, hd, State.ctxPa, State.die]
  rw [State.ctxDw, hpa, State.unitRd, unitBytes_congr hm, State.ctxDw, State.unitRd]

/-! ### The registers and tags a launch firing starts with (R278, R280) -/

/-- What a firing starts with in x2 to x11, for four words. -/
theorem args_four (r : Frame) (x2 x3 a b c d : Word) :
    r.args x2 x3 [a, b, c, d] = (((((((((r.wx 2 x2).wx 3 x3).wx 4 a).wx 5 b).wx 6 c).wx 7 d).wx 8 0#64).wx 9 0#64).wx 10 0#64).wx 11 0#64 := rfl
theorem begin_fr (s : State) (k f : Nat) (r : Frame) (x3 : Word) (ws : List Word) :
    (s.begin k f r x3 ws).fr k f = ({ r with stat := .ready, x := s.startX k f, parkNo := (s.core k).parks } : Frame).args
      (wd (selfBase + scratchLo (s.core k).partw)) x3 ws := fr_setFr_self ..
/-- The open values of x12 to x63 leave x1 at zero. -/
theorem get_openX_one (t : Nat) : (openX t).get 1 0#64 = 0#64 := by
  have hnone : Tab.look (openX t).l 1 = none := Tab.look_none fun e he => by
    obtain ⟨n, -, rfl⟩ := List.mem_map.mp he
    simp
  rw [Tab.get, hnone]
  rfl
/-- What an image makes of tag `n` (R278). -/
def tagEntry (img : List (BitVec 8)) (base : Word) (n : Nat) : Option (Nat × Tag) :=
  match Config.imageTags img n with
  | some (off, pri) =>
    let p := if n = 63 then 3 else pri % 4
    some (n, { kind := .affine, entry := entryAt base off, bpri := p, epri := p, e := true })
  | none => if n = 61 || n = 62 then some (n, { e := true }) else none
theorem imageTags_eq (img : List (BitVec 8)) (base : Word) : imageTags img base = ⟨(List.range 64).filterMap (tagEntry img base)⟩ := rfl
theorem tagEntry_fst {img : List (BitVec 8)} {base : Word} (n : Nat) (e : Nat × Tag) (h : tagEntry img base n = some e) : e.1 = n := by
  cases hc : Config.imageTags img n with
  | some b =>
    simp only [tagEntry, hc, Option.some.injEq] at h
    rw [← h]
  | none =>
    simp only [tagEntry, hc] at h
    split at h
    · cases h; rfl
    · cases h
theorem get_imageTags (img : List (BitVec 8)) (base : Word) {n : Nat} (hn : n < 64) :
    (imageTags img base).get n {} = ((tagEntry img base n).map Prod.snd).getD {} := by
  rw [imageTags_eq, Tab.get, Tab.look_filterMap tagEntry_fst, if_pos (List.mem_range.mpr hn)]
theorem get_imageTags_bound {img : List (BitVec 8)} {n off pri : Nat} (hn : n < 64) (h : Config.imageTags img n = some (off, pri)) (base : Word) :
    (imageTags img base).get n {} =
      { kind := .affine, entry := entryAt base off, bpri := if n = 63 then 3 else pri % 4, epri := if n = 63 then 3 else pri % 4, e := true } := by
  rw [get_imageTags img base hn]
  simp [tagEntry, h]
theorem get_imageTags_unbound {img : List (BitVec 8)} {n : Nat} (hn : n < 64) (h : Config.imageTags img n = none) (base : Word) :
    (imageTags img base).get n {} = { e := n = 61 || n = 62 } := by
  rw [get_imageTags img base hn]
  by_cases h2 : n = 61 ∨ n = 62
  · simp [tagEntry, h, h2]
  · simp [tagEntry, h, not_or.mp h2]

/-! ### Seating a launch on a core (R14, R278, R280, R364) -/

/-- A tvec is on a word boundary. -/
theorem and_not_three_mod_four (x : Word) : (x &&& ~~~3#64).toNat % 4 = 0 := by
  have hand : (x &&& ~~~3#64).toNat = x.toNat &&& (2 ^ 64 - 4) := by simp [BitVec.toNat_and]
  have hmod : (x.toNat &&& (2 ^ 64 - 4)) % 2 ^ 2 = 0 := by rw [Nat.and_mod_two_pow]; simp
  rw [hand]
  exact hmod
/-- The core's granules are the launch's: those of contexts that are gone are nobody's, and the launch takes its own. -/
def State.granted (s : State) (L : Launch) (k : Nat) : State :=
  (s.dropOwners k L.ctx).takeAll k L.ctx (List.range (pwFrames L.partw + pwAccs L.partw + pwScratch L.partw))
theorem granted_granules (s : State) (L : Launch) (k : Nat) : GranulesOnly k s (s.granted L k) := (dropOwners_granules ..).trans (takeAll_granules ..)
/-- What a member core holds beside its firing once the launch has its granules, in `u`. -/
def Launch.seated (L : Launch) (img : List (BitVec 8)) (rank : Nat) (u : State) (c : Core) : Core :=
  let n := (u.slotOf L.ctx).getD 0
  { c.bare with
    ctxid := L.ctx, capw := capBits (u.ctxDw n 8), tvec := u.ctxDw n 0x28 &&& ~~~3#64, partw := L.partw, tags := imageTags img L.image
    gang := some { launch := L.id, rank := rank, cores := L.cores, steal := L.steal, bar := L.bar, code := L.code }
    flows := (if c.ctxid = L.ctx then c.flows else {}), flowSeq := (if c.ctxid = L.ctx then c.flowSeq else {}), lastUsed := u.tick }
/-- The launch firing before its registers (R280). -/
def Launch.firing (L : Launch) : Frame := { src := .launch, pc := L.image + wd L.entry }

section
variable (s : State) (L : Launch) (img : List (BitVec 8)) (rank k : Nat)

theorem seatCore_eq : s.seatCore L img rank k =
    (((s.granted L k).emptied k).setCore k (L.seated img rank (s.granted L k) ((s.granted L k).core k))).begin k 0 L.firing (srcWord 0 0xFFFF)
      [L.arg, wd rank, wd L.cores.length, L.gangw] := by
  have hctxDw (slot off : Nat) : ((s.granted L k).emptied k).ctxDw slot off = (s.granted L k).ctxDw slot off := by
    obtain ⟨F, hF⟩ := emptied_fields (s.granted L k) k
    rw [hF]
    exact ctxDw_congr rfl rfl slot off
  have htick : ((s.granted L k).emptied k).tick = (s.granted L k).tick := by
    obtain ⟨F, hF⟩ := emptied_fields (s.granted L k) k
    rw [hF]
  simp only [Launch.seated, ← hctxDw, ← htick]
  rfl
theorem seatCore_core : (s.seatCore L img rank k).core k = L.seated img rank (s.granted L k) ((s.granted L k).core k) := by
  rw [seatCore_eq]
  exact core_setCore_self ..
/-- Of the frames of a seated core only frame 0 holds a firing. -/
theorem seatCore_fr {f : Nat} (hf : f ∈ framesOf k) (h0 : f ≠ 0) : (s.seatCore L img rank k).fr k f = {} := by
  rw [seatCore_eq]
  exact (fr_setFr_ne _ _ (by omega)).trans (fr_emptied _ hf)
theorem seatCore_firing : ∃ t n, (s.seatCore L img rank k).fr k 0 =
    ({ L.firing with stat := .ready, x := openX t, parkNo := n } : Frame).args (wd (selfBase + scratchLo L.partw)) (srcWord 0 0xFFFF)
      [L.arg, wd rank, wd L.cores.length, L.gangw] := by
  rw [seatCore_eq, begin_fr, core_setCore_self]
  refine ⟨((s.granted L k).emptied k).tick, 0, ?_⟩
  have hempty : (((s.granted L k).emptied k).setCore k (L.seated img rank (s.granted L k) ((s.granted L k).core k))).fr k 0 = {} :=
    fr_emptied _ (zero_mem_framesOf k)
  rw [State.startX, hempty]
  rfl
theorem seatCore_other {j : Nat} (hj : j ≠ k) :
    (s.seatCore L img rank k).core j = s.core j ∧ ∀ f, f < 32 → (s.seatCore L img rank k).fr j f = s.fr j f := by
  have hg := granted_granules s L k
  rw [seatCore_eq]
  refine ⟨?_, fun f hf => ?_⟩
  · obtain ⟨F, hF⟩ := emptied_fields (s.granted L k) k
    have hcore : ((s.granted L k).emptied k).core j = (s.granted L k).core j := by rw [hF]; rfl
    exact (core_setCore_ne _ _ hj).trans (hcore.trans (hg.others j hj))
  · exact (fr_setFr_ne _ _ (by omega)).trans ((fr_emptied_other _ hj hf).trans (hg.fr j f))
/-- Seats taken on other cores leave a core as it is. -/
theorem foldl_seatCore_other {l : List (Nat × Nat)} (hl : ∀ e ∈ l, k ≠ e.1) :
    (l.foldl (fun s e => s.seatCore L img e.2 e.1) s).core k = s.core k ∧
      ∀ f, f < 32 → (l.foldl (fun s e => s.seatCore L img e.2 e.1) s).fr k f = s.fr k f := by
  induction l generalizing s with
  | nil => exact ⟨rfl, fun _ _ => rfl⟩
  | cons e l ih =>
    rw [List.forall_mem_cons] at hl
    obtain ⟨hcore, hfr⟩ := ih (s.seatCore L img e.2 e.1) hl.2
    obtain ⟨hcore', hfr'⟩ := seatCore_other s L img e.2 e.1 hl.1
    exact ⟨hcore.trans hcore', fun f hf => (hfr f hf).trans (hfr' f hf)⟩
/-- Seats taken one after the other: a core holds what its own seat left there. -/
theorem foldl_seatCore {l : List (Nat × Nat)} (hl : (l.map Prod.fst).Nodup) (h : (k, rank) ∈ l) :
    ∃ u : State, (l.foldl (fun s e => s.seatCore L img e.2 e.1) s).core k = (u.seatCore L img rank k).core k ∧
      ∀ f, f < 32 → (l.foldl (fun s e => s.seatCore L img e.2 e.1) s).fr k f = (u.seatCore L img rank k).fr k f := by
  induction l generalizing s with
  | nil => simp at h
  | cons e l ih =>
    rw [List.map_cons, List.nodup_cons] at hl
    rcases List.mem_cons.mp h with rfl | hmem
    · exact ⟨s, foldl_seatCore_other _ L img k fun e he hk => hl.1 (List.mem_map.mpr ⟨e, he, hk.symm⟩)⟩
    · exact ih _ hl.2 hmem
end

/-- The barrier of a released launch is armed for its members, and the launch is released (R287). -/
theorem release_barrier (s : State) (L : Launch) (img : List (BitVec 8)) :
    (s.release L img).barOf L.gang = { armed := true, members := L.cores } := by
  show ((State.setBar _ L.gang _).die L.gang.home).bars.get L.gang.barKey {} = _
  rw [State.setBar, updDie_eq, die_setDie_self]
  exact Tab.get_put_self ..
theorem release_released (s : State) (L : Launch) (img : List (BitVec 8)) :
    ∀ R ∈ (s.release L img).launches, R.id = L.id → R.released = true := by
  intro R hR hid
  obtain ⟨o, -, rfl⟩ := List.mem_map.mp hR
  split at hid
  · next h => rw [if_pos h]
  · next h => exact absurd hid h

/-! ### Granules that come back (R407) -/

/-- The INIMG bit of granule `g` in the record at `r`. -/
def State.inImage (s : State) (r g : Nat) : Nat := nfld (s.unitRd (r + 0x100 + g / 8) 1) (g % 8) 1
/-- Granule `g` comes back from the pool image at `r`, into the granule that is taken for it. -/
def State.fetchGranule (s : State) (k ctx r g : Nat) : State :=
  let v := (s.takeGranule k ctx g).1
  let p := (s.takeGranule k ctx g).2
  let a := r + 0x10000 + 4096 * g
  ((v.store (granulePa v k p) (v.unitBytes a 4096)).carryPoison a (granulePa v k p) 4096).unitWr (r + 0x100 + g / 8) 1
    (s.unitRd (r + 0x100 + g / 8) 1 - 2 ^ (g % 8))
def State.reloadGranule (s : State) (k ctx r g : Nat) : State := if s.inImage r g = 0 then s else s.fetchGranule k ctx r g

theorem reload_eq {s : State} {k ctx r : Nat} (h : s.savePa ctx k = some r) :
    s.reload k ctx = (List.range 256).foldl (fun s g => s.reloadGranule k ctx r g) s := by
  rw [State.reload, h]
  rfl
theorem fetchGranule_granules (s : State) (k ctx r g : Nat) : GranulesOnly k s (s.fetchGranule k ctx r g) :=
  unitWr_granules ((takeGranule_granules s k ctx g).trans (.of_memory ⟨_, _, rfl⟩)) ..
theorem reload_granules (s : State) (k ctx : Nat) : GranulesOnly k s (s.reload k ctx) := by
  cases h : s.savePa ctx k with
  | none => rw [State.reload, h]; exact .refl s
  | some r =>
    rw [reload_eq h]
    refine .foldl (fun s g => ?_) _ s
    unfold State.reloadGranule
    split
    · exact .refl s
    · exact fetchGranule_granules ..
/-- With no bit set nothing comes back. -/
theorem reload_none {s : State} {k ctx r : Nat} (h : s.savePa ctx k = some r) (hbit : ∀ g, g < 256 → s.inImage r g = 0) : s.reload k ctx = s := by
  rw [reload_eq h]
  exact foldl_still fun g hg => if_pos (hbit g (List.mem_range.mp hg))
/-- With one bit set that granule comes back. -/
theorem reload_one {s : State} {k ctx r g : Nat} (h : s.savePa ctx k = some r) (hg : g < 256) (hbit : s.inImage r g = 1)
    (hbefore : ∀ j, j < g → s.inImage r j = 0) (hafter : ∀ j, g < j → j < 256 → (s.fetchGranule k ctx r g).inImage r j = 0) :
    s.reload k ctx = s.fetchGranule k ctx r g := by
  have hrange : List.range 256 = List.range g ++ g :: List.range' (g + 1) (255 - g) := by
    rw [List.range_eq_range', List.range_eq_range', ← List.range'_succ, show 256 = g + (255 - g + 1) by omega, ← List.range'_append]
    simp
  have hone : s.reloadGranule k ctx r g = s.fetchGranule k ctx r g := if_neg (by omega)
  rw [reload_eq h, hrange, List.foldl_append, foldl_still fun j hj => if_pos (hbefore j (List.mem_range.mp hj)), List.foldl_cons, hone]
  refine foldl_still fun j hj => if_pos ?_
  rw [List.mem_range'_1] at hj
  exact hafter j (by omega) (by omega)

/-! ### A context that comes back (R364, R405) -/

/-- What the record holds changes the deque, the messages, the log and the raw block registers, none of them in number. -/
theorem readRecord_fields (s : State) (ctx k : Nat) (c : Core) : ∃ dq sl ib ob rw,
    s.readRecord ctx k c = { c with deque := dq, slog := sl, inbox := ib, outbox := ob, raws := rw } ∧ dq.length = c.deque.length ∧
      (c.slog = {} → sl = {}) ∧ ib.keys = c.inbox.keys ∧ ob.length = c.outbox.length := by
  unfold State.readRecord
  split
  · exact ⟨c.deque, c.slog, c.inbox, c.outbox, c.raws, rfl, rfl, id, rfl, rfl⟩
  · refine ⟨_, _, _, _, _, rfl, by simp, fun h => ?_, Tab.keys_map .., by simp⟩
    rw [h]
    rfl
/-- An empty side log replays nothing. -/
theorem replay_empty {s : State} {k : Nat} (h : (s.core k).slog = {}) : s.replay k = s := by
  rw [State.replay, h]
  show s.slogWalks k = s
  rw [State.slogWalks, h]
  rfl
/-- A firing that is not parked, or that waits for something, does not wake. -/
theorem wake_still {s : State} {k f : Nat} (h : (s.fr k f).stat = .parked → (s.fr k f).unret ≠ 0 ∨ (s.fr k f).waits ≠ [] ∨ (s.fr k f).hold ≠ .no) :
    s.wake k f = s := by
  unfold State.wake
  by_cases hp : (s.fr k f).stat = .parked
  · rcases h hp with h | h | h <;> simp [h]
  · simp [hp]
/-- The core a context comes back to: what was saved, as its record holds it, with the translations and granules of the core. -/
def State.backCore (s : State) (k ctx : Nat) (c : Core) : Core :=
  let u := s.reload k ctx
  { u.readRecord ctx k { c with raws := (s.core k).raws } with tlb := (s.core k).tlb, owner := (u.core k).owner }
/-- That core, with the frames saved with it. -/
def State.backFrames (s : State) (k ctx : Nat) (c : Core) : State :=
  let u := { s.reload k ctx with savedCores := (s.reload k ctx).savedCores.del (savedKey ctx k) }
  (u.savedFrames.get (savedKey ctx k) []).foldl (fun s e => s.setFr k e.1 e.2) (u.setCore k (s.backCore k ctx c))
/-- The context is back, before its side log replays and its firings wake. -/
def State.back (s : State) (k ctx : Nat) (c : Core) : State :=
  { s.backFrames k ctx c with savedFrames := (s.backFrames k ctx c).savedFrames.del (savedKey ctx k) }.setHeld ctx k false

section
variable (s : State) (k ctx : Nat) (c : Core)

theorem backFrames_fields : ∃ F, s.backFrames k ctx c =
    { { s.reload k ctx with savedCores := s.savedCores.del (savedKey ctx k) }.setCore k (s.backCore k ctx c) with frames := F } := by
  rw [← (reload_granules s k ctx).savedCores]
  exact foldl_setFr_fields ..
theorem back_fields : ∃ M P F, s.back k ctx c = { { s.reload k ctx with savedCores := s.savedCores.del (savedKey ctx k) }.setCore k (s.backCore k ctx c) with
    frames := F, mem := M, poison := P, savedFrames := s.savedFrames.del (savedKey ctx k) } := by
  obtain ⟨F, hF⟩ := backFrames_fields s k ctx c
  obtain ⟨M, P, hMP⟩ := setHeld_fields { s.backFrames k ctx c with savedFrames := (s.backFrames k ctx c).savedFrames.del (savedKey ctx k) } ctx k false
  refine ⟨M, P, F, ?_⟩
  rw [State.back, hMP, hF, ← (reload_granules s k ctx).savedFrames]
  rfl
theorem back_core : (s.back k ctx c).core k = s.backCore k ctx c := by
  obtain ⟨M, P, F, h⟩ := back_fields s k ctx c
  rw [h]
  exact core_setCore_self ..
theorem back_heldSave : (s.back k ctx c).heldSave ctx k = false := by
  obtain ⟨M, P, F, h⟩ := back_fields s k ctx c
  rw [State.heldSave, h]
  show ((s.savedCores.del (savedKey ctx k)).get? (savedKey ctx k)).isSome = false
  rw [Tab.get?_del_self]
  rfl
theorem back_savedFrames : (s.back k ctx c).savedFrames.get (savedKey ctx k) [] = [] := by
  obtain ⟨M, P, F, h⟩ := back_fields s k ctx c
  rw [h]
  exact Tab.get_del_self ..
/-- A frame of the core holds what was saved under its number, or is as it was. -/
theorem back_fr (f : Nat) :
    (∃ e ∈ s.savedFrames.get (savedKey ctx k) [], e.1 = f ∧ (s.back k ctx c).fr k f = e.2) ∨
      ((∀ e ∈ s.savedFrames.get (savedKey ctx k) [], e.1 ≠ f) ∧ (s.back k ctx c).fr k f = s.fr k f) := by
  obtain ⟨M, P, hMP⟩ := setHeld_fields { s.backFrames k ctx c with savedFrames := (s.backFrames k ctx c).savedFrames.del (savedKey ctx k) } ctx k false
  rw [← (reload_granules s k ctx).savedFrames, ← (reload_granules s k ctx).fr, State.back, hMP]
  exact fr_foldl_setFr k (fun e : Nat × Frame => e.1) (fun e => e.2) ..
variable {s k ctx c}

theorem resumeCtx_eq (h : s.savedCores.get? (savedKey ctx k) = some c) :
    s.resumeCtx k ctx = (framesOf k).foldl (fun s f => s.wake k f) ((s.back k ctx c).replay k) := by
  rw [State.resumeCtx, h]
  rfl
/-- With an empty side log and no firing that wakes at once, that is all a resume does. -/
theorem resumeCtx_back (h : s.savedCores.get? (savedKey ctx k) = some c) (hlog : c.slog = {})
    (hsaved : ∀ e ∈ s.savedFrames.get (savedKey ctx k) [], e.2.stat = .parked → e.2.unret ≠ 0 ∨ e.2.waits ≠ [] ∨ e.2.hold ≠ .no)
    (hhere : ∀ f ∈ framesOf k, (s.fr k f).stat ≠ .parked) : s.resumeCtx k ctx = s.back k ctx c := by
  obtain ⟨dq, sl, ib, ob, rw', hrec, -, hsl, -, -⟩ := readRecord_fields (s.reload k ctx) ctx k { c with raws := (s.core k).raws }
  have hempty : ((s.back k ctx c).core k).slog = {} := by
    rw [back_core, State.backCore, hrec]
    exact hsl hlog
  rw [resumeCtx_eq h, replay_empty hempty]
  refine foldl_still fun f hf => wake_still fun hp => ?_
  rcases back_fr s k ctx c f with ⟨e, he, -, hfr⟩ | ⟨-, hfr⟩
  · rw [hfr] at hp ⊢
    exact hsaved e he hp
  · rw [hfr] at hp
    exact absurd hp (hhere f hf)
end

end Sys2Proof.Machine
end

section
/-! The statements of the part. -/
open Sys2Proof Sys2Proof.Machine Sys2Proof.Spec
namespace Sys2Proof.Proofs

/-- Settles O21, window by window: each case is one lemma on `State.place`. -/
theorem addressPlaces : Obligations.AddressPlaces := by
  unfold Obligations.AddressPlaces
  intro s k va n needs hk c w off lo hi
  refine ⟨?selfWindow, ?hole, ?translated, fun howner _ => poolPa_unclaimed howner off⟩
  case selfWindow =>
    intro hge hlt
    have hself := place_self (s := s) hk ((inSelf_iff va).mpr ⟨hge, hlt⟩) n needs
    exact ⟨fun hin => hself.trans (if_pos ((inScratch_iff ..).mpr hin)), fun hout => hself.trans (if_neg (mt (inScratch_iff ..).mp hout))⟩
  case hole =>
    intro hge hlt
    have hs : inSelf va = false := by rw [← Bool.not_eq_true, inSelf_iff]; omega
    exact place_hole hk hs ((inHole_iff va).mpr ⟨hge, hlt⟩) n needs
  case translated =>
    intro hva
    have hs : inSelf va = false := by rw [← Bool.not_eq_true, inSelf_iff]; omega
    have hh : inHole va = false := by rw [← Bool.not_eq_true, inHole_iff]; omega
    refine ⟨fun hnone => place_unmapped hk hs hh hnone n needs, fun e l he => ⟨fun hlack hr => ?_,
      fun j o hr hown hw => place_closed hk hs hh he hr hown hw n needs, fun hR hW hX hhost hloc hpa => ?_⟩⟩
    · have hp : permits e.w needs = false := by
        rw [← Bool.not_eq_true, permits_iff]
        rintro ⟨hR, hW, hX⟩
        rcases hlack with ⟨hn, h0⟩ | ⟨hn, h0⟩ | ⟨hn, h0⟩
        · simp [hR hn] at h0
        · simp [hW hn] at h0
        · simp [hX hn] at h0
      exact place_refused hk hs hh he hp hr n
    · have hat : e.pa va = fld e.w 12 41 * 4096 + (va - e.va) := by simp [TlbEnt.pa, entFrame, entHost, hhost]
      rw [← hat] at hloc hpa ⊢
      exact place_main hk hs hh he (regionOf_main (by omega) hloc) ((permits_iff ..).mpr ⟨hR, hW, hX⟩) n

/-- Settles O53, act by act: what an arrival, an acknowledgement and a limit do is said once above. -/
theorem programTraffic : Obligations.ProgramTraffic := by
  unfold Obligations.ProgramTraffic
  intro s src pa flow size op t k f va epoch num count start l marks ordered sw v cmp hsrc p cur store rel pkt far amo seen seenRel mainAt atMain
    free puts noted waits
  have run_main (u : State) (h : u.mem = wrCells s.mem pa l) : puts u := fun hwf b => by
    show rdCell u.mem b = _
    rw [h]
    exact rdCell_wrCells hwf pa l b
  refine ⟨?old, ?lineHeld, ?storeRepeat, ?storeApplied, ?releaseRepeat, ?releaseWaits, ?releaseApplied, ?flowEarlier, ?flowPackets, ?load, ?amoLineHeld,
    ?amoRepeat, ?amoApplied, ?ackNothing, ?ackOne, ?accessLimit, ?storeLimit⟩
  case old =>
    intro hge hne
    have h (hm : s.main = true) := arrivals_old hm hne hge num count marks op pa size (v, cmp) l
    exact ⟨fun hm => (h hm).1, fun hm => (h hm).2.1, fun hm => (h hm).2.2⟩
  case lineHeld =>
    intro h
    have h : s.linesHeld pa l.length = true := by simpa [free] using h
    exact ⟨fun hm => fabricStore_lineHeld hm h num, fun hm => flowPacket_lineHeld hm h⟩
  case storeRepeat =>
    intro hcur hfree hseen hm
    rw [fabricStore_current hm hsrc hcur hfree, if_pos ((seen_iff ..).mpr hseen)]
  case storeApplied =>
    intro hcur hfree hseen hwait
    have applied (hm : s.main = true) : exec store s = .next ((s.homeWrite pa l).setPeer src (p.note num.toNat)) := by
      rw [fabricStore_current hm hsrc hcur hfree, if_neg (mt (seen_iff ..).mp hseen), applyAll_idle (p := p.note num.toNat) hwait]
    refine ⟨fun hat hm => ?_, fun j off hr hown hl => ⟨fun q hq hm => ?_, fun hq hm => ?_⟩⟩
    · obtain ⟨P, hP⟩ := homeWrite_main hat
      rw [hP] at applied
      exact ⟨_, applied hm, run_main _ rfl, rfl, rfl, rfl⟩
    · rw [applied hm, (homeWrite_window hr hown hl).1 q hq]
    · rw [applied hm, (homeWrite_window hr hown hl).2 hq]
  case releaseRepeat =>
    intro hcur hseen
    exact ⟨fun hm => (fabricRelease_current hm hsrc hcur ..).trans (congrArg _ (releaseIn_repeat ((seenRel_iff ..).mpr hseen))),
      fun h1 h13 hm => (remoteRelease_current hm hsrc hcur h1 h13 ..).trans (congrArg _ (releaseIn_repeat ((seenRel_iff ..).mpr hseen)))⟩
  case releaseWaits =>
    intro hcur hseen hwait hcount
    have hseen : p.seenRel num.toNat = false := eq_false_of_ne_true (mt (seenRel_iff ..).mp hseen)
    refine ⟨fun hm => (fabricRelease_current hm hsrc hcur ..).trans (congrArg _ (releaseIn_waits hseen hwait hcount)), fun h1 h13 hsize hm => ?_⟩
    rw [← okSize_of_mem hsize]
    exact (remoteRelease_current hm hsrc hcur h1 h13 ..).trans (congrArg _ (releaseIn_waits hseen hwait hcount))
  case releaseApplied =>
    intro hcur hseen hwait hcount hmarks hat hline hm
    have hseen : p.seenRel num.toNat = false := eq_false_of_ne_true (mt (seenRel_iff ..).mp hseen)
    refine ⟨_, (fabricRelease_current hm hsrc hcur ..).trans (congrArg _ (releaseIn_applies hseen hwait hcount hmarks rfl hline)), ?_, ?_, ?_⟩
    · obtain ⟨P, hP⟩ := homeWrite_main (s := s.setPeer src _) hat
      exact run_main _ (congrArg State.mem hP)
    · rw [peer_setPeer]
      exact seenRel_noteRel ..
    · rw [peer_setPeer]
      rfl
  case flowEarlier =>
    exact fun F hF hne hge hm => flowPacket_earlier hm (flowOf_earlier hF hne hge)
  case flowPackets =>
    intro F hF
    have hF := flowOf_eq hF
    refine ⟨fun h hm => flowPacket_repeat hm hF h, fun hge hgot hheld hwait hat hfree hm => ?_⟩
    obtain ⟨P, hP⟩ := homeWrite_main hat
    refine ⟨fun ho => ?_, fun ho hnext => ?_, fun ho hnext => ?_⟩
    · have h := flowPacket_unordered hm hF hsrc hfree hge hgot hheld hwait ho
      rw [hP] at h
      exact ⟨_, h, run_main _ rfl⟩
    · have h := flowPacket_next hm hF hsrc hfree hge hgot hheld hwait ho hnext
      rw [hP] at h
      exact ⟨_, _, h, run_main _ rfl, by rw [peer_setPeer]; exact Tab.get?_put_self .., rfl, rfl⟩
    · have h := flowPacket_held hm hF hsrc hfree hge hgot hheld hwait ho hnext
      exact ⟨_, { F with held := [(num.toNat, (pa, l))] }, h, rfl, by rw [peer_setPeer]; exact Tab.get?_put_self .., rfl, rfl⟩
  case load =>
    rintro rfl hm
    exact remoteLoad_silent hm ..
  case amoLineHeld =>
    intro hsize h hm
    rw [← okSize_of_mem hsize] at h
    exact remoteAccess_lineHeld hm h ..
  case amoRepeat =>
    intro hcur h1 h13 hseen hsize hfree hm
    rw [← okSize_of_mem hsize] at hfree
    rw [remoteAmo_current hm hsrc hcur h1 h13 hfree, if_pos ((seen_iff ..).mpr hseen)]
  case amoApplied =>
    intro hcur hseen hwait hsize hfree hpa hal hpoison old x wrote
    have hok := okSize_of_mem hsize
    have applied (h1 : 1 ≤ op) (h13 : op ≤ 13) (hm : s.main = true) :
        exec far s = .next ((((amoNew op size old v cmp).map (s.wrN pa size)).getD s).setPeer src (p.note num.toNat)) := by
      rw [← amoHome_main hpa hal hpoison]
      have h := remoteAmo_current hm hsrc hcur h1 h13 (hok.symm ▸ hfree) v cmp num
      rwa [if_neg (mt (seen_iff ..).mp hseen), applyAll_idle (p := p.note num.toNat) hwait, hok] at h
    refine ⟨fun ho hm => ?_, fun ho hm => ?_, fun ho heq hm => ?_, fun ho hne hm => ?_⟩
    · rw [applied (by omega) (by omega) hm, ho]
      rfl
    · rw [applied (by omega) (by omega) hm, ho]
      rfl
    · rw [applied (by omega) (by omega) hm, ho]
      simp [amoNew, heq, wrote, x]
    · rw [applied (by omega) (by omega) hm, ho]
      simp [amoNew, hne, noted]
  case ackNothing =>
    exact fun hp hm => ack_nothing hm hp count sw
  case ackOne =>
    intro q hp hep hge hr hlost
    refine ⟨fun hnew hrel hm => ?_, fun hold hm => ?_⟩
    · rw [ack_one hm hp hep hge hlost, perform_alive ((alive_iff ..).mpr ⟨hnew, hrel⟩) hr]
      simp [hp, p]
    · have hdead : p.alive q = false := eq_false_of_ne_true fun h => Nat.not_lt.mpr hold ((alive_iff ..).mp h).1
      rw [ack_one hm hp hep hge hlost, perform_lost hdead]
      simp [Peer.lose, hp, p]
  case accessLimit =>
    intro h hfar ht hhold hstat hsaved hf hm
    refine ⟨(s.openEpoch t).timeoutAt k f va t, ?_, ?_, rfl, ?_⟩
    · rw [remoteLimit_access hm k hf, farLimit_times_out hfar ht hhold hstat hsaved]
    · exact congrArg Peer.txEpoch (Tab.get_put_self ..)
    · rw [State.timeoutAt, updFr_eq, fr_setFr_self]
      exact ⟨rfl, rfl, rfl, rfl⟩
  case storeLimit =>
    intro q r hp hrel hm
    have hq : (s.peer src).pending[0]? = some q := by rw [show (s.peer src).pending = q :: r from hp]; rfl
    exact ⟨_, remoteLimit_pending hm src, pendLimit_plain hq hrel⟩

/-- The acts of the front end, one lemma each (R288, R385 to R390). -/
theorem launchRuns_holds : launchRuns := by
  unfold launchRuns
  intro s die q k n v ctx L hd hq u ahead
  refine ⟨?ignored, ?rung, ?idle, ?read, ?retire, ?launch, ?stays, ?resumes⟩
  case ignored =>
    intro h hm
    rw [doorbell_rings hd hq hm, ringBell_ignored h]
  case rung =>
    intro hen hbar
    refine ⟨fun hv ha => ⟨fun hmore hm => ?_, fun hless hm => ?_⟩, fun hv ha => ?_, fun hv hm => ?_⟩
    · rw [doorbell_rings hd hq hm, ringBell_promises hen hbar hv ha, if_pos hmore]
    · rw [doorbell_rings hd hq hm, ringBell_promises hen hbar hv ha, if_neg (Nat.not_lt.mpr hless)]
    · refine ⟨0x0401 + (Config.freeWord s.tick).toNat % 6, (Config.freeWord (s.tick + 1)).toNat, by omega, by omega, fun hm => ?_⟩
      rw [doorbell_rings hd hq hm, ringBell_posts hen hbar hv ha]
      rfl
    · rw [doorbell_rings hd hq hm, ringBell_beyond hen hbar hv]
      rfl
  case idle =>
    exact fun h hm => queuePacketRead_idle h hm
  case read =>
    intro s1 pa e hp hgo hpoison p w s2
    have reads (hm : s.main = true) := queuePacketRead_reads hm hp hgo hpoison
    simp only [fld_eq] at reads
    refine ⟨fun hnone hm => ?_, fun hvalid hphase => ⟨fun hbad hm => ?_, fun hok hnop hm => ?_, fun hok hlaunch hm => ?_⟩⟩
    · have hnone : w.toNat / 2 ^ 0 % 2 ^ 1 = 0 ∨ w.toNat / 2 ^ 8 % 2 ^ 8 ≠ u.head / 2 ^ u.log2 % 256 := by simpa using hnone
      rw [reads hm, if_pos hnone]
    all_goals
      have hthere : ¬(w.toNat / 2 ^ 0 % 2 ^ 1 = 0 ∨ w.toNat / 2 ^ 8 % 2 ^ 8 ≠ u.head / 2 ^ u.log2 % 256) := by rw [hphase]; simp [hvalid]
      rw [reads hm, if_neg hthere]
    · rw [if_pos hbad]
    · rw [if_neg (ne_true_of_eq_false hok), if_pos hnop]
    · rw [if_neg (ne_true_of_eq_false hok), if_neg hlaunch]
  case retire =>
    intro h
    simp [State.retireOn, h]
  case launch =>
    intro hL
    refine ⟨fun h hm => ?_, fun hfresh hrun hafter hbar hfrozen hlive hup hbarrier halone hseat t img himg hm => ?_, ?_, ?_, ?_, ?_, ?_⟩
    · rw [launchRelease_at hL hm, releaseIf_held h]
    · rw [launchRelease_at hL hm, releaseIf_releases ⟨hfresh, hrun, hafter, hbar, hfrozen, hlive, hup, hbarrier, halone⟩ hseat himg]
    · exact fun h hm => launchComplete_fault hL hm h
    · exact fun h hd hm => launchComplete_waits hL hm h (.inl hd)
    · exact fun h hd => ⟨fun he hm => launchComplete_ended hL hm h hd he, fun he hr hall hm => launchComplete_retired hL hm h hd he hr hall,
        fun he hr hm => launchComplete_waits hL hm h (.inr ⟨he, hr⟩)⟩
    · intro he
      have hlimit (hm : s.main = true) : exec (.launchLimitExpiry n) s = .next ((s.launchEnd L (-1)).limitGuilt L) := by
        rw [launchLimit_at hL hm, he]
        rfl
      exact ⟨hlimit, fun hover hm => by rw [hlimit hm, limitGuilt_over hover]⟩
    · intro he hm
      rw [launchLimit_at hL hm, if_pos he]
  case stays =>
    exact fun h hm => by rw [contextResume_at hm, h]; rfl
  case resumes =>
    exact fun h hm => by rw [contextResume_at hm, if_pos h]

/-- A member core holds what its own seat left there (R14, R278, R280, R287). -/
theorem releaseLeaves_holds : releaseLeaves := by
  unfold releaseLeaves
  intro s L img r k hnodup hr t c F
  obtain ⟨u, hcore, hfr⟩ := foldl_seatCore s L img r k (l := L.cores.zipIdx) (by rwa [List.zipIdx_map_fst]) (List.mk_mem_zipIdx_iff_getElem?.mpr hr)
  have hc : c = L.seated img r (u.granted L k) ((u.granted L k).core k) := hcore.trans (seatCore_core ..)
  have hF : F = (u.seatCore L img r k).fr k 0 := hfr 0 (by omega)
  obtain ⟨tick, n, hfiring⟩ := seatCore_firing u L img r k
  rw [hfiring, args_four] at hF
  refine ⟨?ctxid, ?partw, ?seed, ?obuflim, ?heapbase, ?heaplim, ?tvec, ?record, ?gang, ?empty, ?tags, ?free, ?stat, ?src, ?pc, ?fflags, ?reg1, ?reg2,
    ?reg3, ?reg4, ?reg5, ?reg6, ?reg7, ?regs, ?barrier, release_released s L img⟩
  case record =>
    intro hone
    have hc : c = L.seated img 0 (s.granted L k) ((s.granted L k).core k) := by
      rw [← seatCore_core]
      show ((L.cores.zipIdx).foldl (fun s e => s.seatCore L img e.2 e.1) s).core k = _
      rw [hone]
      rfl
    rw [hc]
    exact ⟨rfl, rfl⟩
  case tvec => rw [hc]; exact and_not_three_mod_four _
  case gang => rw [hc]; exact ⟨_, rfl, rfl, rfl, rfl, rfl, rfl, rfl⟩
  case empty => rw [hc]; exact ⟨rfl, rfl, rfl, rfl, rfl, rfl, rfl, rfl⟩
  case tags =>
    intro n hn
    have htag : c.tag n = (imageTags img L.image).get n {} := by rw [hc]; rfl
    rw [htag]
    refine ⟨fun off pri h => ?_, fun h => ?_⟩
    · rw [get_imageTags_bound hn h]
      exact ⟨rfl, rfl, rfl, rfl, rfl⟩
    · rw [get_imageTags_unbound hn h]
      simp
  case free =>
    intro f hf h0
    rw [show t.fr k f = _ from hfr f (lt_of_mem_framesOf hf), seatCore_fr _ _ _ _ _ hf h0]
  case reg1 =>
    rw [hF]
    simp only [rx_wx_ne, ne_eq, OfNat.one_ne_ofNat, not_false_eq_true]
    exact get_openX_one tick
  case regs =>
    intro n h8 h11
    obtain rfl | rfl | rfl | rfl : n = 8 ∨ n = 9 ∨ n = 10 ∨ n = 11 := by omega
    all_goals simp [hF, rx_wx_self, rx_wx_ne]
  case barrier => rw [release_barrier]; exact ⟨rfl, rfl, rfl⟩
  case stat => simp [hF]
  case src => simp [hF, Launch.firing]
  case pc => simp [hF, Launch.firing]
  case fflags => simp [hF, Launch.firing]
  case reg3 => simp [hF, rx_wx_self, rx_wx_ne, srcWord, wd]
  case ctxid | partw | seed | obuflim | heapbase | heaplim => rw [hc]; rfl
  case reg2 | reg4 | reg5 | reg6 | reg7 => simp [hF, rx_wx_self, rx_wx_ne]

/-- A context comes back with what was saved, and its granules as the INIMG bits say (R364, R405, R407). -/
theorem resumeLeaves_holds : resumeLeaves := by
  unfold resumeLeaves
  intro s k ctx c hsaved hlog l t d
  refine ⟨fun hparked _ hhere => ?_, fun r hr => ⟨fun hclear => reload_none hr hclear,
    fun g hg hbit hbefore => ⟨fun hafter => ?_, fun q hq hheld hfree => ?_⟩⟩⟩
  · have ht : t = s.back k ctx c := resumeCtx_back hsaved hlog hparked hhere
    have hd : d = s.backCore k ctx c := by rw [← back_core, ← ht]
    obtain ⟨dq, sl, ib, ob, rw', hrec, hdq, -, hib, hob⟩ := readRecord_fields (s.reload k ctx) ctx k { c with raws := (s.core k).raws }
    rw [State.backCore, hrec] at hd
    rw [ht, hd]
    refine ⟨⟨rfl, rfl, rfl, rfl, rfl, rfl, rfl, rfl⟩, ⟨rfl, rfl, rfl, rfl, rfl, rfl, rfl, rfl, hdq, hob, hib⟩,
      ⟨rfl, back_heldSave .., back_savedFrames ..⟩,
      fun hnodup e he => ?_, fun f _ hnone => ?_⟩
    · rcases back_fr s k ctx c e.1 with ⟨e', he', heq, hfr⟩ | ⟨hnone, -⟩
      · rw [hfr, List.inj_on_of_nodup_map hnodup he' he heq]
      · exact absurd rfl (hnone e he)
    · rcases back_fr s k ctx c f with ⟨e, he, heq, -⟩ | ⟨-, hfr⟩
      · exact absurd heq (hnone e he)
      · exact hfr
  · exact reload_one hr hg hbit hbefore hafter
  · have hfirst := takeGranule_first ctx g hq hheld hfree
    rw [hfirst, updCore_eq, core_setCore_self]
    exact ⟨rfl, Tab.get?_put_self .., rfl⟩

/-- Settles O55: the acts, what a release leaves, and what a resume leaves. -/
theorem launchEvents : Obligations.LaunchEvents := ⟨launchRuns_holds, releaseLeaves_holds, resumeLeaves_holds⟩

end Sys2Proof.Proofs
end

section
/-! Codes of a floating format and Round (R57, R69): a number's code is the integer that Round lays out from the number. -/
open Sys2Proof Sys2Proof.Machine Sys2Proof.Spec
namespace Sys2Proof.Machine

/-- Scaling in one form: of the two powers at least one is 1. -/
theorem Q.scale_eq (a : Q) (e : Int) : a.scale e = ⟨a.n * 2 ^ e.toNat, a.d * 2 ^ (-e).toNat⟩ := by
  unfold Q.scale
  split
  · rw [show (-e).toNat = 0 by omega, Nat.pow_zero, Nat.mul_one]
  · rw [show e.toNat = 0 by omega, Int.pow_zero, Int.mul_one]

theorem log2_mul_two_pow {k : Nat} (hk : k ≠ 0) (i : Nat) : (k * 2 ^ i).log2 = k.log2 + i := by
  rw [Nat.log2_eq_iff (by positivity)]
  have hlow := Nat.mul_le_mul_right (2 ^ i) (Nat.log2_self_le hk)
  have hhigh := Nat.mul_lt_mul_of_pos_right (Nat.lt_log2_self (n := k)) (Nat.two_pow_pos i)
  rw [← Nat.pow_add] at hlow hhigh
  exact ⟨hlow, by rwa [Nat.add_right_comm]⟩
/-- The exponent of `k · 2^i / 2^j` is that of `k`, shifted. -/
theorem floorLog2_shifted {k : Nat} (hk : k ≠ 0) (i j : Nat) : floorLog2 (k * 2 ^ i) (2 ^ j) = ((k.log2 + i : Nat) : Int) - j := by
  have hle := Nat.log2_self_le (n := k * 2 ^ i) (by positivity)
  unfold floorLog2
  rw [Nat.log2_two_pow]
  rw [log2_mul_two_pow hk] at hle ⊢
  refine if_pos ?_
  split
  · rwa [ge_iff_le, ← Nat.pow_add, show j + ((k.log2 + i : Nat) - j : Int).toNat = k.log2 + i by omega]
  · calc 2 ^ j = 2 ^ (k.log2 + i) * 2 ^ (-((k.log2 + i : Nat) - j : Int)).toNat := by rw [← Nat.pow_add]; congr 1; omega
      _ ≤ _ := Nat.mul_le_mul_right _ hle

/-- The number `± k · 2^e` with the sign of `neg`. -/
def gridVal (neg : Bool) (k : Nat) (e : Int) : Q := (Q.int (if neg then -(k : Int) else k)).scale e

theorem gridVal_eq (neg : Bool) (k : Nat) (e : Int) :
    gridVal neg k e = ⟨(if neg then -(k : Int) else k) * 2 ^ e.toNat, 2 ^ (-e).toNat⟩ := by
  rw [gridVal, Q.scale_eq, Q.int, Nat.one_mul]
theorem gridVal_natAbs (neg : Bool) (k : Nat) (e : Int) : (gridVal neg k e).n.natAbs = k * 2 ^ e.toNat := by
  rw [gridVal_eq]
  cases neg <;> simp [Int.natAbs_mul, Int.natAbs_pow]
theorem gridVal_neg_iff (neg : Bool) {k : Nat} (hk : k ≠ 0) (e : Int) : (gridVal neg k e).n < 0 ↔ neg = true := by
  have hpos : (0 : Int) < k * 2 ^ e.toNat := by positivity
  rw [gridVal_eq]
  cases neg
  · simp [hpos.le]
  · simpa using hpos
theorem gridVal_zero_iff (neg : Bool) (k : Nat) (e : Int) : (gridVal neg k e).n = 0 ↔ k = 0 := by
  rw [← Int.natAbs_eq_zero, gridVal_natAbs]
  simp

/-- The exponent of the last place of the least numbers of a format (R57). -/
def leastPlace (t : Nat) : Int := 1 - fmtBias t - manBits t

/-- The last place that Round gives to a number `k · 2^u` least places is its own: `k` is normal, or `u` is none (R69). -/
theorem roundPlace_gridVal (neg : Bool) {t k u : Nat} (hk : k ≠ 0) (hfit : k < 2 ^ (manBits t + 1)) (hu : u = 0 ∨ 2 ^ manBits t ≤ k) :
    max (floorLog2 (gridVal neg k (leastPlace t + u)).n.natAbs (gridVal neg k (leastPlace t + u)).d - manBits t) (leastPlace t) =
      leastPlace t + u := by
  rw [gridVal_natAbs, gridVal_eq, floorLog2_shifted hk]
  have hhigh : k.log2 < manBits t + 1 := (Nat.log2_lt hk).mpr hfit
  have hlow : u = 0 ∨ manBits t ≤ k.log2 := hu.imp_right (Nat.le_log2 hk).mpr
  omega
/-- Counted in its own last place a number is the integer `k`, with no remainder. -/
theorem gridVal_scaled (neg : Bool) (k : Nat) (e : Int) :
    let s := (gridVal neg k e).abs.scale (-e)
    s.n.natAbs / s.d = k ∧ s.n.natAbs % s.d = 0 := by
  have hs : (gridVal neg k e).abs.scale (-e) = ⟨(k * 2 ^ e.toNat : Nat) * 2 ^ (-e).toNat, 2 ^ (-e).toNat * 2 ^ e.toNat⟩ := by
    rw [Q.scale_eq, Q.abs, gridVal_natAbs, gridVal_eq, Int.neg_neg]
  have hn : ((k * 2 ^ e.toNat : Nat) * 2 ^ (-e).toNat : Int).natAbs = k * (2 ^ (-e).toNat * 2 ^ e.toNat) := by
    rw [Int.natAbs_mul, Int.natAbs_natCast, Int.natAbs_pow]
    show _ * 2 ^ _ * 2 ^ _ = _
    ring
  rw [hs]
  dsimp only
  rw [hn]
  exact ⟨Nat.mul_div_cancel _ (by positivity), Nat.mul_mod_left _ _⟩

/-- Round gives back a number of the format's own grid: its code, and no flag, in every mode (R69). -/
theorem roundFlt_gridVal (neg : Bool) {t k u : Nat} (mode hsr : Nat) (hk : k ≠ 0) (hfit : k < 2 ^ (manBits t + 1))
    (hu : u = 0 ∨ 2 ^ manBits t ≤ k) (hmax : k + u * 2 ^ manBits t ≤ maxCode t) :
    roundFlt t mode hsr (gridVal neg k (leastPlace t + u)) =
      (k + u * 2 ^ manBits t + (if neg then 2 ^ (fltBits t - 1) else 0), 0) := by
  have hplace := roundPlace_gridVal neg hk hfit hu
  obtain ⟨hfloor, hrem⟩ := gridVal_scaled neg k (leastPlace t + u)
  have hsign := gridVal_neg_iff neg hk (leastPlace t + u)
  unfold roundFlt
  dsimp only
  rw [← leastPlace, hplace, hfloor, hrem]
  simp [hsign, hmax]

/-! ### What a code of a number stands for (R57, R58) -/

/-- What R58 reserves lies above the greatest finite magnitude: every other magnitude is at most that. -/
theorem magnitude_le_maxCode {t mag : Nat} (h1 : 1 ≤ t) (h8 : t ≤ 8) (hmag : mag < 2 ^ (fltBits t - 1))
    (hspecial : ¬(hasInf t = true ∧ mag / 2 ^ manBits t = 2 ^ expBits t - 1)) (hnan : ¬(t = 4 ∧ mag = 0x7F)) : mag ≤ maxCode t := by
  have : t = 1 ∨ t = 2 ∨ t = 3 ∨ t = 4 ∨ t = 5 ∨ t = 6 ∨ t = 7 ∨ t = 8 := by omega
  rcases this with rfl | rfl | rfl | rfl | rfl | rfl | rfl | rfl <;>
    norm_num [fltBits, manBits, expBits, hasInf, isWide, maxCode] at hmag hspecial hnan ⊢ <;> omega

/-- The integer `k` and the exponent `u` above the least place of a magnitude's number: the hidden bit is there but with the
exponent field 0, whose numbers have the least place (R57). -/
def significand (t mag : Nat) : Nat := if mag / 2 ^ manBits t = 0 then mag % 2 ^ manBits t else 2 ^ manBits t + mag % 2 ^ manBits t
def placesUp (t mag : Nat) : Nat := mag / 2 ^ manBits t - 1

theorem significand_lt (t mag : Nat) : significand t mag < 2 ^ (manBits t + 1) := by
  have := Nat.mod_lt mag (Nat.two_pow_pos (manBits t))
  rw [significand, Nat.pow_succ]
  split <;> omega
theorem placesUp_eq_zero_or (t mag : Nat) : placesUp t mag = 0 ∨ 2 ^ manBits t ≤ significand t mag := by
  rw [significand, placesUp]
  split
  · exact .inl (by omega)
  · exact .inr (Nat.le_add_right _ _)
/-- Exponent and significand fields read as one number count the places from zero. -/
theorem significand_add_placesUp (t mag : Nat) : significand t mag + placesUp t mag * 2 ^ manBits t = mag := by
  have hfields := Nat.mod_add_div' mag (2 ^ manBits t)
  rw [significand, placesUp]
  split
  · next h => simpa [h] using hfields
  · next h =>
    have hone : (mag / 2 ^ manBits t - 1) * 2 ^ manBits t + 2 ^ manBits t = mag / 2 ^ manBits t * 2 ^ manBits t := by
      rw [← Nat.succ_mul, Nat.succ_eq_add_one, Nat.sub_add_cancel (Nat.pos_of_ne_zero h)]
    omega

/-- The two as `fltVal` computes them. -/
theorem cast_significand (t mag : Nat) :
    (significand t mag : Int) = if mag / 2 ^ manBits t = 0 then ((mag % 2 ^ manBits t : Nat) : Int) else 2 ^ manBits t + (mag % 2 ^ manBits t : Nat) := by
  rw [significand]
  split
  · rfl
  · push_cast
    rfl
theorem leastPlace_add_placesUp (t mag : Nat) :
    leastPlace t + placesUp t mag = ((if mag / 2 ^ manBits t = 0 then 1 else mag / 2 ^ manBits t : Nat) - fmtBias t - manBits t : Int) := by
  rw [leastPlace, placesUp]
  generalize mag / 2 ^ manBits t = e
  split <;> omega

/-- A code that stands for a number: its sign bit, a finite magnitude, and the number of that magnitude (R57, R58). -/
theorem fltVal_num {t c : Nat} {neg : Bool} {q : Q} (h1 : 1 ≤ t) (h8 : t ≤ 8) (hc : c < 2 ^ fltBits t) (h : fltVal t c = .num neg q) :
    neg = decide (c / 2 ^ (fltBits t - 1) = 1) ∧ c % 2 ^ (fltBits t - 1) ≤ maxCode t ∧
      q = gridVal neg (significand t (c % 2 ^ (fltBits t - 1))) (leastPlace t + placesUp t (c % 2 ^ (fltBits t - 1))) := by
  unfold fltVal at h
  rw [Nat.mod_eq_of_lt hc] at h
  have hmag := Nat.mod_lt c (Nat.two_pow_pos (fltBits t - 1))
  dsimp only at h
  generalize c % 2 ^ (fltBits t - 1) = mag at h hmag ⊢
  split at h
  · split at h <;> cases h
  · next hspecial =>
    split at h
    · cases h
    · next hnan =>
      simp only [Bool.and_eq_true, decide_eq_true_eq] at hspecial hnan
      cases h
      refine ⟨rfl, magnitude_le_maxCode h1 h8 hmag hspecial hnan, ?_⟩
      rw [gridVal, cast_significand, leastPlace_add_placesUp]
      simp only [decide_eq_true_eq]

/-- The sign bit and the magnitude of a code make up the code. -/
theorem magnitude_add_sign {t c : Nat} (hc : c < 2 ^ fltBits t) :
    c % 2 ^ (fltBits t - 1) + (if c / 2 ^ (fltBits t - 1) = 1 then 2 ^ (fltBits t - 1) else 0) = c := by
  have hb : fltBits t = fltBits t - 1 + 1 := by unfold fltBits; omega
  have hsign : c / 2 ^ (fltBits t - 1) < 2 := by
    rwa [Nat.div_lt_iff_lt_mul (by positivity), ← Nat.pow_succ', Nat.succ_eq_add_one, ← hb]
  have hparts := Nat.mod_add_div c (2 ^ (fltBits t - 1))
  rcases Nat.le_one_iff_eq_zero_or_eq_one.mp (Nat.lt_succ_iff.mp hsign) with h | h
  · simpa [h] using hparts
  · simpa [h] using hparts

/-- A number of a format converts to its own code without a flag (R59, R69). -/
theorem convTo_gridVal (neg : Bool) {t mag : Nat} (mode hsr : Nat) (h1 : 1 ≤ t) (h8 : t ≤ 8) (hmax : mag ≤ maxCode t) :
    convTo t mode hsr false (.num neg (gridVal neg (significand t mag) (leastPlace t + placesUp t mag))) =
      (mag + (if neg then 2 ^ (fltBits t - 1) else 0), 0) := by
  have hflt : isFloat t = true := by simp [isFloat, h1, h8]
  have hmag := significand_add_placesUp t mag
  have hu := placesUp_eq_zero_or t mag
  simp only [convTo, gridVal_zero_iff, hflt, if_true, roundTo]
  split
  · next hzero =>
    have : mag = 0 := by
      rw [hzero] at hu hmag
      have : placesUp t mag = 0 := hu.resolve_right (by simp)
      simpa [this] using hmag.symm
    rw [this, Nat.zero_add]
  · next hk => rw [roundFlt_gridVal neg mode hsr hk (significand_lt t mag) hu (hmag.symm ▸ hmax), hmag]

end Sys2Proof.Machine
end

section
/-! Vector instructions without a stream that write one register: what each leaves there, and in the flags (R35, R79, R130). -/
open Sys2Proof Sys2Proof.Machine Sys2Proof.Spec
namespace Sys2Proof.Machine

theorem vel_eq_getEl (w : Nat) (v : BitVec 512) (n : Nat) : vel w v n = getEl v w n := (getEl_eq v w n).symm
theorem four_le_elemBits (t : Nat) : 4 ≤ elemBits t := by unfold elemBits; split <;> omega
theorem code_le (t c : Nat) : code t c ≤ c := by
  unfold code
  split
  · exact Nat.mod_le c 64
  · exact Nat.le_refl c

/-- Where no register is a stream an element is active as its predicate bit says (R35, R130). -/
theorem act_plain {s : State} {p : BitVec 3} {t n : Nat} {gs : List Nat} (hn : n < elemCount t) (hg : ∀ g ∈ gs, s.cur.streams.get? g = none) :
    s.cur.act p t gs n = true ↔ active s p t n := by
  have hlane : gs.all (fun g => s.cur.lane g (elemBits t) n) = true :=
    List.all_eq_true.mpr fun g h => lane_plain (hg g h) (Nat.mul_le_of_le_div _ _ _ hn)
  have hcount : n < 128 := Nat.lt_of_lt_of_le hn (Nat.div_le_div_left (four_le_elemBits t) (by decide))
  simp [Frame.act, Frame.pbit, hlane, hcount, fld_one_eq, active]

/-- The value that element-wise results leave in their register. -/
theorem vel_value_elwise {o : VOut} {act : Nat → Bool} {g : Nat → Nat × Nat} {j : Nat} (old : BitVec 512)
    (hels : o.els = (elwise (512 / o.w) act g).1) (hfit : ∀ n, (g n).1 < 2 ^ o.w) (hj : j < 512 / o.w) :
    vel o.w (o.value old) j = if act j = true then code o.tag (g j).1 else vel o.w old j := by
  rw [elwise_eq] at hels
  have hin : ∀ e ∈ o.els, (e.1 + 1) * o.w ≤ 512 := by
    rw [hels]
    intro e he
    obtain ⟨k, hk, rfl⟩ := List.mem_map.mp he
    exact Nat.mul_le_of_le_div _ _ _ (List.mem_range.mp (List.mem_filter.mp hk).1)
  have hnodup : (o.els.map (·.1)).Nodup := by
    rw [hels, List.map_map]
    exact (List.nodup_range.filter _).map fun _ _ h => h
  rw [vel_eq_getEl, VOut.getEl_value o old j hin hnodup, hels, find_filter_range]
  by_cases h : act j = true
  · have hmod : code o.tag (g j).1 % 2 ^ o.w = code o.tag (g j).1 := Nat.mod_eq_of_lt (Nat.lt_of_le_of_lt (code_le ..) (hfit j))
    rw [if_pos ⟨hj, h⟩, if_pos h, ← hmod]
    simp [code]
  · rw [if_neg (fun hc => h hc.2), if_neg h, vel_eq_getEl]

/-- The flags of element-wise results join what fflags held (R79). -/
theorem getLsbD_fflags_elwise (f : BitVec 6) (n : Nat) (act : Nat → Bool) (g : Nat → Nat × Nat) {k : Nat} (hk : k < 6) :
    (f ||| BitVec.ofNat 6 (elwise n act g).2).getLsbD k = true ↔
      f.getLsbD k = true ∨ ∃ j, (j < n ∧ act j = true) ∧ (g j).2.testBit k = true := by
  rw [elwise_eq, BitVec.getLsbD_or, BitVec.getLsbD_ofNat, Bool.or_eq_true, Bool.and_eq_true, testBit_foldl_or]
  simp [hk]

/-- An instruction that computes each active element of one register by itself, and whose checks pass, gives those elements. -/
theorem vecGives_elwise {i : Instr} {s : State} {m : Bool} {len d tag w : Nat} {chk : Frame → List (Option (Nat × Nat))} {srcs : List Nat}
    {work : State → (Nat → BitVec 512) → VOut} {act : Nat → Bool} {on : Nat → Prop} {g : Nat → Nat × Nat}
    (hexec : exec i s = .next ((vdo i chk srcs work s).finish m len))
    (hwork : work s s.cur.rv = { d := some d, w := w, tag := tag, els := (elwise (512 / w) act g).1, flags := (elwise (512 / w) act g).2 })
    (hchk : ∀ c ∈ chk s.cur, c = none) (hsrcs : ∀ n ∈ srcs, s.cur.streams.get? n = none) (hd : s.cur.streams.get? d = none)
    (htag : tag < 16) (hfit : ∀ n, (g n).1 < 2 ^ w) (hon : ∀ n, n < 512 / w → (act n = true ↔ on n)) :
    VecGives i s m len d tag w on (fun n => (g n).1) (fun n => (g n).2) := by
  obtain ⟨u, hu, hset⟩ := vdo_one hwork hchk hsrcs hd
  obtain ⟨hx, hp, hpc, hv, ht, hfl, hrest⟩ := vput_one s.cur (srcs ++ [d]) d w tag (elwise (512 / w) act g).2 (elwise (512 / w) act g).1 none
    (VOut.value { d := some d, w := w, tag := tag, els := (elwise (512 / w) act g).1, flags := (elwise (512 / w) act g).2 } (s.cur.rv d))
  rw [hu] at hexec
  refine ⟨u, hexec, ?_⟩
  rw [VecFrame, FlagsJoin, hset]
  simp only [cur_setCur, setCur_cores, setCur_mem, setCur_dies]
  refine ⟨⟨fun k hk => hrest k (by simpa using hk), hx, trivial, trivial, trivial, hpc⟩, hp, ?_, fun n hn => ?_, fun k hk => ?_⟩
  · rw [ht, Nat.mod_eq_of_lt htag]
  · rw [hv, vel_value_elwise (o := { d := some d, w := w, tag := tag, els := _, flags := _ }) _ rfl hfit hn, ← hon n hn]
    exact ⟨fun h => if_pos h, fun h => if_neg h⟩
  · rw [hfl, getLsbD_fflags_elwise _ _ _ _ hk]
    refine or_congr_right (exists_congr fun j => and_congr_left fun _ => and_congr_right fun hj => hon j hj)

/-! ### Floating arithmetic (R135, R141) -/

/-- The registers floating arithmetic reads: a, b where it has one, and d where it reads that. -/
def fltSources (d a : BitVec 5) (b : Option (BitVec 5)) (rd : Bool) : List Nat :=
  a.toNat :: (b.toList.map (·.toNat)) ++ (if rd then [d.toNat] else [])

/-- Floating arithmetic on plain registers of one wide format: `g` of the elements of d, a and b, rounded once (R69, R135). -/
theorem vfltRun_gives {i : Instr} {s : State} {m : Bool} {d a : BitVec 5} {b : Option (BitVec 5)} {rd : Bool} {p : BitVec 3}
    {g : Fp → Fp → Fp → Fp × Nat} {t : Nat} (ht : s.cur.rt a.toNat = t) (hwide : isWide t = true)
    (hexec : exec i s = issue m 4 i [] (vfltRun i d a b rd p g) s) (hnow : s.cur.now = false)
    (hd : s.cur.streams.get? d.toNat = none) (hplain : ∀ n ∈ fltSources d a b rd, s.cur.streams.get? n = none ∧ s.cur.rt n = t) :
    let el (r : BitVec 5) (n : Nat) : Fp := elemVal t (vel (elemBits t) (s.cur.rv r.toNat) n)
    VecGives i s m 4 d.toNat t (elemBits t) (active s p t) (fun n => (finish t (g (el d n) (el a n) (el (b.getD 0#5) n))).1)
      (fun n => (finish t (g (el d n) (el a n) (el (b.getD 0#5) n))).2) := by
  intro el
  rw [issue_body hnow rfl, vfltRun] at hexec
  subst ht
  have htag : s.cur.rt a.toNat < 16 := (s.cur.vtag.get a.toNat 0#4).isLt
  refine vecGives_elwise (act := s.cur.act p (s.cur.rt a.toNat) (d.toNat :: fltSources d a b rd))
    (g := fun n => finish (s.cur.rt a.toNat) (g (el d n) (el a n) (el (b.getD 0#5) n))) hexec ?work ?checks (fun n hn => (hplain n hn).1) hd htag
    (fun n => finish_lt _ _) (fun n hn => act_plain hn ?lanes)
  case work => simp only [el, vel_eq_getEl]; rfl
  case checks =>
    have hsource (f : Nat) {n : Nat} (hn : n ∈ fltSources d a b rd) : s.cur.srcBad f n (· == s.cur.rt a.toNat) = none :=
      srcBad_plain (hplain n hn).1 (beq_iff_eq.mpr (hplain n hn).2)
    intro c hc
    simp only [List.mem_append, List.mem_singleton, List.mem_map, Option.mem_toList] at hc
    rcases hc with ((rfl | ⟨r, hr, rfl⟩) | hc) | rfl
    · exact srcBad_plain (hplain a.toNat (by simp [fltSources])).1 hwide
    · exact hsource 2 (by simp [fltSources, hr])
    · cases rd with
      | false => simp at hc
      | true =>
        rw [if_pos rfl, List.mem_singleton] at hc
        exact hc ▸ hsource 0 (by simp [fltSources])
    · exact dstBad_plain hd
  case lanes => exact List.forall_mem_cons.mpr ⟨hd, fun n hn => (hplain n hn).1⟩

end Sys2Proof.Machine
end

section
/-! The statements of the formats. -/
open Sys2Proof Sys2Proof.Machine Sys2Proof.Spec
namespace Sys2Proof.Proofs

/-- Settles O27: a code that stands for a number is a sign and a finite magnitude, and Round lays out the same two. -/
theorem gridValuesAreExact : Obligations.GridValuesAreExact := by
  unfold Obligations.GridValuesAreExact
  rintro t mode hsr c h1 h8 hc ⟨neg, q, hval⟩
  obtain ⟨hneg, hmax, hq⟩ := fltVal_num h1 h8 hc hval
  rw [hval, hq, convTo_gridVal neg mode hsr h1 h8 hmax, hneg]
  simp only [decide_eq_true_eq, magnitude_add_sign hc]

/-- Settles O28: each is `vfltRun` on registers of one wide format, with a, with a and b, or with d as well. -/
theorem vectorFloat : Obligations.VectorFloat := by
  unfold Obligations.VectorFloat
  intro s m d a b p hnow hplain t w X Y Z gives h1 h3
  have hwide : isWide t = true := by simp [isWide, h1, h3]
  have hd : s.cur.streams.get? d.toNat = none := hplain d (by simp)
  have ha : s.cur.streams.get? a.toNat = none ∧ s.cur.rt a.toNat = t := ⟨hplain a (by simp), rfl⟩
  have hb : s.cur.streams.get? b.toNat = none := hplain b (by simp)
  have unary {i : Instr} {g : Fp → Fp × Nat} (hexec : exec i s = issue m 4 i [] (vfltRun i d a none false p fun _ x _ => g x) s) :
      gives i (fun n => g (X n)) := by
    have hsources : ∀ n ∈ fltSources d a none false, s.cur.streams.get? n = none ∧ s.cur.rt n = t := by simpa [fltSources] using ha
    exact vfltRun_gives (t := t) (b := none) (g := fun _ x _ => g x) rfl hwide hexec hnow hd hsources
  have binary {i : Instr} {g : Fp → Fp → Fp × Nat} (htb : s.cur.rt b.toNat = t)
      (hexec : exec i s = issue m 4 i [] (vfltRun i d a (some b) false p fun _ x y => g x y) s) : gives i (fun n => g (X n) (Y n)) := by
    have hsources : ∀ n ∈ fltSources d a (some b) false, s.cur.streams.get? n = none ∧ s.cur.rt n = t := by
      simpa [fltSources] using ⟨ha, hb, htb⟩
    exact vfltRun_gives (t := t) (b := some b) (g := fun _ x y => g x y) rfl hwide hexec hnow hd hsources
  have ternary {i : Instr} {g : Fp → Fp → Fp → Fp × Nat} (htb : s.cur.rt b.toNat = t) (htd : s.cur.rt d.toNat = t)
      (hexec : exec i s = issue m 4 i [] (vfltRun i d a (some b) true p g) s) : gives i (fun n => g (Z n) (X n) (Y n)) := by
    have hsources : ∀ n ∈ fltSources d a (some b) true, s.cur.streams.get? n = none ∧ s.cur.rt n = t := by
      simpa [fltSources] using ⟨ha, ⟨hb, htb⟩, hd, htd⟩
    exact vfltRun_gives (t := t) (b := some b) (g := g) rfl hwide hexec hnow hd hsources
  refine ⟨fun htb => ⟨?add, ?sub, ?mul, ?max, ?min, fun htd => ⟨?fma, ?fms⟩⟩, ?abs, ?neg, ?exp2, ?log2, ?rcp, ?rsq, ?tanh⟩
  case add => exact binary htb (exec_vadd ..)
  case sub => exact binary (g := fun x y => fpAdd x y.neg) htb (exec_vsub ..)
  case mul => exact binary htb (exec_vmul ..)
  case max => exact binary (g := fun x y => (fpMax x y, 0)) htb (exec_vmax ..)
  case min => exact binary (g := fun x y => (fpMin x y, 0)) htb (exec_vmin ..)
  case fma => exact ternary htb htd (exec_vfma ..)
  case fms => exact ternary (g := fun z x y => fpFma z x.neg y) htb htd (exec_vfms ..)
  case abs => exact unary (g := fun x => (x.abs, 0)) (exec_vabs ..)
  case neg => exact unary (g := fun x => (x.neg, 0)) (exec_vneg ..)
  case exp2 => exact unary (exec_vexp2 ..)
  case log2 => exact unary (exec_vlog2 ..)
  case rcp => exact unary (exec_vrcp ..)
  case rsq => exact unary (exec_vrsq ..)
  case tanh => exact unary (exec_vtanh ..)

end Sys2Proof.Proofs
end

section
/-! A copy whose completion performs a logged store: the counterexample to the statement on the bytes of a copy (R165, R176, R373, R375). -/
open Sys2Proof Sys2Proof.Machine Sys2Proof.Spec
namespace Sys2Proof.Proofs
namespace LoggedStore

/-- Entry of the 64 MiB page at 0, readable and writable, whose frame is main memory of die 0. -/
def pageWord : Word := 0x6000000000000C00#64
/-- CPY of the byte at 0x40 to 0x80, with its mailbox on a page that has no translation. -/
def copy : Cmd := { op := 0, w0 := 0x40#64, w1 := 0x80#64, w2 := 1#64, w3 := 0x8000000#64, who := .regs }
/-- A store of byte 1 to 0x100, logged before its page had a translation. -/
def store : SlogE := { frame := 0, va := 0x100, size := 1, bytes := [(0, 1#8)], order := 0 }
/-- The copy runs while the store stands in the side log with its walk under way. Context 1 has its record at 0x8000. -/
def logged : State :=
  { State.reset with
    main := true
    cores := ({} : Tab Core).put 0
      { ctxid := 1, cp := { running := [copy] }, slog := ({} : Tab SlogE).put 0 store, slogNo := 1 }
    dies := ({} : Tab Die).put 0 { ctxbase := 0x8000 }
    walks := [{ who := .slog 0 0, core := 0, ctx := 1, va := 0x100, kind := 4, needs := needW }] }.wrN 0x8000 8 (2 ^ 16 + 1)
/-- A TLBW with token 0 brings the page's entry to the die's last level. It answers no walk (R375), so nothing replays the store yet. -/
def state : State := (logged.tlbw 0 pageWord 0#64 1#64 0#64).1

/-- The entry still stands where its store may now be performed. -/
theorem page_arrives : logged.place 0 store.va 1 needW = .unmapped ∧ (logged.tlbw 0 pageWord 0#64 1#64 0#64).2 = 0 ∧
    state.place 0 store.va 1 needW = .mem store.va pageWord none ∧ (state.core 0).slog.get? 0 = some store := by
  decide +kernel
theorem copy_runs : state.main = true ∧ state.halted 0 = false ∧ (state.core 0).cp.running = [copy] ∧ Memory.wf state.mem = true ∧
    state.cpyScan 0 copy copy.len 0 = none ∧ state.aliasOut 0 copy = false := by
  decide +kernel

theorem only_byte {i : Nat} (hi : i < copy.len) : i = 0 := by
  have hlen : copy.len = 1 := by decide +kernel
  omega
theorem source_ne_destination : readPa 0 0x40 pageWord ≠ 0x80 := by decide +kernel
theorem place_source : state.place 0 0x40 1 needR = .mem 0x40 pageWord none := by decide +kernel
theorem place_destination : state.place 0 0x80 1 needW = .mem 0x80 pageWord none := by decide +kernel
theorem place_mailbox : state.place 0 (copy.mail true) 8 needW = .unmapped := by decide +kernel

/-- The completion's mailbox write enters the side log (R165), and the replay it starts finds the store's page translated. -/
theorem completion_performs_store :
    exec (.copyCmdComplete 0 0) state = .next (state.runCopy 0 copy) ∧ state.rd store.va = 0#8 ∧ (state.runCopy 0 copy).rd store.va = 1#8 :=
  ⟨rfl, by decide +kernel⟩

end LoggedStore

open LoggedStore

/-- Refutes O51, in its clause on the bytes of a copy: a mailbox write that enters the side log replays an older store of the log whose page
has got its translation meanwhile, so a byte that is neither the copy's nor the mailbox's changes. -/
theorem not_engineEvents : ¬ Obligations.EngineEvents := by
  unfold Obligations.EngineEvents
  rintro ⟨-, -, hcopied⟩
  obtain ⟨hmain, hruns, hrunning, hwf, hscan, halias⟩ := copy_runs
  obtain ⟨hexec, hbefore, hafter⟩ := completion_performs_store
  obtain ⟨u, hu, -, hothers, -⟩ := hcopied state 0 copy [] (fun _ => 0x40) (fun _ => 0x80) (fun _ => pageWord) (fun _ => pageWord)
    hmain hruns rfl hrunning rfl rfl (by decide) hwf hscan halias (.inl rfl)
    (fun i hi => by
      obtain rfl := only_byte hi
      exact ⟨.inr ⟨rfl, 0, by decide +kernel⟩, .inr ⟨rfl, 0, by decide +kernel⟩, ⟨none, place_source⟩, ⟨none, place_destination⟩, rfl,
        by decide +kernel, by decide +kernel⟩)
    (fun _ _ _ _ => source_ne_destination)
    (fun _ _ _ _ hop => absurd hop (by decide))
    (.inr (.inl place_mailbox))
  have hkept : u.rd store.va = state.rd store.va :=
    hothers store.va (fun _ _ => by decide) (.inr fun pb w o hmem => by simp [place_mailbox] at hmem)
  obtain rfl : state.runCopy 0 copy = u := by simpa [hexec] using hu
  rw [hafter, hbefore] at hkept
  exact absurd hkept (by decide)

end Sys2Proof.Proofs
end

section
/-! Vector instructions none of whose registers is a stream: the state after their writes, and their elements (R34, R35, R79, R130). -/
open Sys2Proof Sys2Proof.Machine Sys2Proof.Spec
namespace Sys2Proof.Machine

/-! ### The state after the writes of one instruction -/

/-- Predicates after some writes; one of p0 is discarded (R34). -/
def predsAfter (l : List (BitVec 3 × Word)) (P : Tab Word) : Tab Word := l.foldl (fun P e => if e.1.toNat = 0 then P else P.put e.1.toNat e.2) P
theorem foldl_wp (l : List (BitVec 3 × Word)) (r : Frame) : l.foldl (fun r e => r.wp e.1.toNat e.2) r = { r with p := predsAfter l r.p } := by
  induction l generalizing r with
  | nil => rfl
  | cons e l ih =>
    rw [List.foldl_cons, ih, predsAfter, predsAfter, List.foldl_cons, Frame.wp]
    split <;> rfl
theorem predsAfter_one {p : BitVec 3} (hp : p ≠ 0#3) (w : Word) (P : Tab Word) : predsAfter [(p, w)] P = P.put p.toNat w :=
  if_neg fun h => hp (BitVec.eq_of_toNat_eq h)

/-- The value that a result leaves in its register. -/
def VOut.result (o : VOut) (r : Frame) : BitVec 512 := match o.d with | some n => o.value (r.rv n) | none => 0#512
/-- The frame with the vector registers of a result written: its destination, then its state register. -/
def VOut.regs (o : VOut) (r : Frame) : Frame :=
  let q := match o.d with | some n => r.wv n (o.result r) o.tag | none => r
  match o.st with | some (e, u) => q.wv e u 1 | none => q
/-- The vector registers that a result writes. -/
def VOut.dests (o : VOut) : List Nat := o.d.toList ++ o.st.toList.map (·.1)

theorem regs_scalar (o : VOut) (r : Frame) : (o.regs r).x = r.x ∧ (o.regs r).pc = r.pc := by
  unfold VOut.regs
  cases o.d <;> cases o.st <;> exact ⟨rfl, rfl⟩
theorem regs_other {o : VOut} (r : Frame) {k : Nat} (hk : k ∉ o.dests) : (o.regs r).rv k = r.rv k ∧ (o.regs r).rt k = r.rt k := by
  unfold VOut.regs
  rw [VOut.dests] at hk
  generalize o.d = d at hk
  generalize o.st = st at hk
  cases d <;> cases st <;> simp_all [rv_wv_ne, rt_wv_ne]
theorem regs_dest {o : VOut} (r : Frame) {n : Nat} (hd : o.d = some n) (hst : ∀ e u, o.st = some (e, u) → n ≠ e) :
    (o.regs r).rv n = o.value (r.rv n) ∧ (o.regs r).rt n = o.tag % 16 := by
  unfold VOut.regs VOut.result
  rw [hd]
  cases h : o.st with
  | none => simp
  | some q => simp [rv_wv_ne, rt_wv_ne, hst q.1 q.2 h]
theorem regs_state {o : VOut} (r : Frame) {e : Nat} {u : BitVec 512} (hst : o.st = some (e, u)) : (o.regs r).rv e = u ∧ (o.regs r).rt e = 1 := by
  simp [VOut.regs, hst]

/-- The state after the writes of an instruction with no stream among the registers `named`. -/
def State.vwritten (s : State) (named : List Nat) (o : VOut) : State := s.updCur fun r => r.vput named [] o (o.result r) false
/-- The issuing firing's vector registers, predicates and flags change, beside its streams and outstanding registers. -/
theorem vwritten_cur (s : State) (named : List Nat) (o : VOut) : ∃ S Q, (s.vwritten named o).cur =
    { o.regs s.cur with streams := S, p := predsAfter o.p s.cur.p, fflags := s.cur.fflags ||| BitVec.ofNat 6 o.flags, seq := Q } := by
  rw [State.vwritten, updCur_eq, cur_setCur, Frame.vput, VOut.regs]
  simp only [List.foldl_nil, foldl_wp, Bool.false_eq_true, if_false]
  cases o.d <;> cases o.st <;> exact ⟨_, _, rfl⟩
theorem vwritten_frame (s : State) (named : List Nat) (o : VOut) : VecFrame s (s.vwritten named o) o.dests := by
  obtain ⟨S, Q, hcur⟩ := vwritten_cur s named o
  obtain ⟨hx, hpc⟩ := regs_scalar o s.cur
  refine ⟨fun k hk => ?_, ?_, rfl, rfl, rfl, ?_⟩
  · rw [hcur]
    exact regs_other s.cur hk
  · rw [hcur]
    exact hx
  · rw [hcur]
    exact hpc
theorem vwritten_dest {s : State} (named : List Nat) {o : VOut} {n : Nat} (hd : o.d = some n) (hst : ∀ e u, o.st = some (e, u) → n ≠ e) :
    (s.vwritten named o).cur.rv n = o.value (s.cur.rv n) ∧ (s.vwritten named o).cur.rt n = o.tag % 16 := by
  obtain ⟨S, Q, hcur⟩ := vwritten_cur s named o
  rw [hcur]
  exact regs_dest s.cur hd hst
theorem vwritten_state {s : State} (named : List Nat) {o : VOut} {e : Nat} {u : BitVec 512} (hst : o.st = some (e, u)) :
    (s.vwritten named o).cur.rv e = u ∧ (s.vwritten named o).cur.rt e = 1 := by
  obtain ⟨S, Q, hcur⟩ := vwritten_cur s named o
  rw [hcur]
  exact regs_state s.cur hst
theorem vwritten_flags (s : State) (named : List Nat) (o : VOut) :
    (s.vwritten named o).cur.fflags = s.cur.fflags ||| BitVec.ofNat 6 o.flags ∧ (s.vwritten named o).cur.p = predsAfter o.p s.cur.p := by
  obtain ⟨S, Q, hcur⟩ := vwritten_cur s named o
  rw [hcur]
  exact ⟨rfl, rfl⟩

/-- With every check passed, no stream named, and two results in two registers, the writes of the calculation follow, then its x registers. -/
theorem vdo_writes {i : Instr} {chk : Frame → List (Option (Nat × Nat))} {srcs : List Nat} {work : State → (Nat → BitVec 512) → VOut} {s : State}
    {o : VOut} (hwork : work s s.cur.rv = o) (hchk : ∀ c ∈ chk s.cur, c = none) (hsrcs : ∀ n ∈ srcs, s.cur.streams.get? n = none)
    (hd : ∀ n, o.d = some n → s.cur.streams.get? n = none) (htwo : ∀ n e u, o.d = some n → o.st = some (e, u) → n ≠ e) :
    vdo i chk srcs work s =
      .ok (let t := o.x.foldl (fun s e => s.wvar e.1 e.2) (s.vwritten (srcs ++ o.d.toList) o)
        if o.used then t.ticked else t) := by
  subst hwork
  rw [vdo_plain hchk hsrcs hd]
  generalize work s s.cur.rv = o at *
  obtain ⟨d, w, tag, els, push, flags, x, p, st, used⟩ := o
  cases d with
  | none => simp [State.vwritten, VOut.result]
  | some n =>
    cases st with
    | none => simp [State.vwritten, VOut.result]
    | some q =>
      have hne : (n == q.1) = false := beq_false_of_ne (htwo n q.1 q.2 rfl rfl)
      simp [State.vwritten, VOut.result, hne]

/-- The same for a result without x registers and free values: the writes are all. -/
theorem vdo_writes_only {i : Instr} {chk : Frame → List (Option (Nat × Nat))} {srcs : List Nat} {work : State → (Nat → BitVec 512) → VOut} {s : State}
    {o : VOut} (hwork : work s s.cur.rv = o) (hchk : ∀ c ∈ chk s.cur, c = none) (hsrcs : ∀ n ∈ srcs, s.cur.streams.get? n = none)
    (hd : ∀ n, o.d = some n → s.cur.streams.get? n = none) (htwo : ∀ n e u, o.d = some n → o.st = some (e, u) → n ≠ e)
    (hx : o.x = []) (hused : o.used = false) : vdo i chk srcs work s = .ok (s.vwritten (srcs ++ o.d.toList) o) := by
  rw [vdo_writes hwork hchk hsrcs hd htwo, hx, hused]
  rfl

/-! ### Elements of the result -/

theorem code_mod_two_pow {t w : Nat} (h : t = 6 ∨ t = 7 → w = 8) (c : Nat) : code t (c % 2 ^ w) = code t c % 2 ^ w := by
  unfold code
  split
  · next ht =>
    rw [h ht]
    omega
  · rfl
theorem code_eq_self {t c : Nat} (h : t ≠ 6 ∧ t ≠ 7) : code t c = c := if_neg (by omega)
theorem elemBits_six_bit {t : Nat} (h : t = 6 ∨ t = 7) : elemBits t = 8 := by rcases h with rfl | rfl <;> rfl

/-- Of elements at distinct places the search finds the one at its own. -/
theorem find_map_pair (l : List Nat) (g : Nat → Nat) (j : Nat) :
    (l.map fun n => (n, g n)).find? (fun e => e.1 = j) = if j ∈ l then some (j, g j) else none := by
  induction l with
  | nil => rfl
  | cons n l ih =>
    by_cases h : n = j
    · simp [h]
    · have hne : ¬j = n := fun e => h e.symm
      simp only [List.map_cons, List.find?_cons, h, decide_false, ih, List.mem_cons, hne, false_or]
/-- The value that a result of distinct elements leaves in its register, element by element (R35). -/
theorem vel_value {o : VOut} {idx : List Nat} {g : Nat → Nat} (old : BitVec 512) (hels : o.els = idx.map fun n => (n, g n)) (hidx : idx.Nodup)
    (hin : ∀ n ∈ idx, n < 512 / o.w) (j : Nat) :
    vel o.w (o.value old) j = if j ∈ idx then code o.tag (g j) % 2 ^ o.w else vel o.w old j := by
  have hfits : ∀ e ∈ o.els, (e.1 + 1) * o.w ≤ 512 := by
    rw [hels]
    intro e he
    obtain ⟨n, hn, rfl⟩ := List.mem_map.mp he
    exact Nat.mul_le_of_le_div _ _ _ (hin n hn)
  have hplaces : (o.els.map (·.1)).Nodup := by simpa [hels, Function.comp_def] using hidx
  rw [vel_eq_getEl, VOut.getEl_value o old j hfits hplaces, hels, find_map_pair, vel_eq_getEl]
  by_cases hj : j ∈ idx <;> simp [hj, code]

/-- The result that writes element `n` of register `d` with `g n` for each `n` of `idx`. -/
def VOut.elements (d w tag fl : Nat) (idx : List Nat) (g : Nat → Nat) : VOut :=
  { d := some d, w := w, tag := tag, els := idx.map fun n => (n, g n), flags := fl }

/-- An instruction that writes distinct elements of one register, with x registers and predicates beside them, and whose checks pass. -/
theorem vdo_dest {i : Instr} {s : State} {m : Bool} {len d : Nat} {chk : Frame → List (Option (Nat × Nat))} {srcs : List Nat}
    {work : State → (Nat → BitVec 512) → VOut} {o : VOut} {idx : List Nat} {g : Nat → Nat}
    (hexec : exec i s = .next ((vdo i chk srcs work s).finish m len)) (hwork : work s s.cur.rv = o) (hod : o.d = some d) (host : o.st = none)
    (hused : o.used = false) (hels : o.els = idx.map fun n => (n, g n)) (hchk : ∀ c ∈ chk s.cur, c = none)
    (hsrcs : ∀ n ∈ srcs, s.cur.streams.get? n = none) (hd : s.cur.streams.get? d = none) (htag : o.tag < 16) (hidx : idx.Nodup)
    (hin : ∀ n ∈ idx, n < 512 / o.w) :
    ∃ u : State, exec i s = .next (done (o.x.foldl (fun s e => s.wvar e.1 e.2) u) m len) ∧ VecFrame s u [d] ∧ u.cur.p = predsAfter o.p s.cur.p ∧
      u.cur.rt d = o.tag ∧ u.cur.fflags = s.cur.fflags ||| BitVec.ofNat 6 o.flags ∧
      ∀ n, vel o.w (u.cur.rv d) n = if n ∈ idx then code o.tag (g n) % 2 ^ o.w else vel o.w (s.cur.rv d) n := by
  have hdest (n : Nat) (h : o.d = some n) : s.cur.streams.get? n = none := Option.some.inj (hod.symm.trans h) ▸ hd
  have hone (n : Nat) (e : Nat) (u : BitVec 512) (h : o.st = some (e, u)) : n ≠ e := nomatch host.symm.trans h
  rw [vdo_writes hwork hchk hsrcs hdest (fun n e u _ h => hone n e u h), hused] at hexec
  obtain ⟨hv, ht⟩ := vwritten_dest (s := s) (srcs ++ o.d.toList) hod (hone d)
  obtain ⟨hflags, hp⟩ := vwritten_flags s (srcs ++ o.d.toList) o
  have hframe := vwritten_frame s (srcs ++ o.d.toList) o
  rw [VOut.dests, host, hod] at hframe
  refine ⟨_, hexec, hod ▸ hframe, hp, ht.trans (Nat.mod_eq_of_lt htag), hflags, fun n => ?_⟩
  rw [hv, vel_value _ hels hidx hin]
/-- An instruction whose one result is a register's distinct elements, and whose checks pass. -/
theorem vdo_elements {i : Instr} {s : State} {m : Bool} {len d tag w fl : Nat} {chk : Frame → List (Option (Nat × Nat))} {srcs : List Nat}
    {work : State → (Nat → BitVec 512) → VOut} {idx : List Nat} {g : Nat → Nat}
    (hexec : exec i s = .next ((vdo i chk srcs work s).finish m len)) (hwork : work s s.cur.rv = .elements d w tag fl idx g)
    (hchk : ∀ c ∈ chk s.cur, c = none) (hsrcs : ∀ n ∈ srcs, s.cur.streams.get? n = none) (hd : s.cur.streams.get? d = none)
    (htag : tag < 16) (hidx : idx.Nodup) (hin : ∀ n ∈ idx, n < 512 / w) :
    ∃ u : State, exec i s = .next (done u m len) ∧ VecFrame s u [d] ∧ u.cur.p = s.cur.p ∧ u.cur.rt d = tag ∧
      u.cur.fflags = s.cur.fflags ||| BitVec.ofNat 6 fl ∧
      ∀ n, vel w (u.cur.rv d) n = if n ∈ idx then code tag (g n) % 2 ^ w else vel w (s.cur.rv d) n :=
  vdo_dest (o := .elements d w tag fl idx g) hexec hwork rfl rfl rfl rfl hchk hsrcs hd htag hidx hin
/-- Such an instruction gives those elements (R79, R130). -/
theorem vecGives_elements {i : Instr} {s : State} {m : Bool} {len d tag w fl : Nat} {chk : Frame → List (Option (Nat × Nat))} {srcs : List Nat}
    {work : State → (Nat → BitVec 512) → VOut} {idx : List Nat} {on : Nat → Prop} {g val flv : Nat → Nat}
    (hexec : exec i s = .next ((vdo i chk srcs work s).finish m len)) (hwork : work s s.cur.rv = .elements d w tag fl idx g)
    (hchk : ∀ c ∈ chk s.cur, c = none) (hsrcs : ∀ n ∈ srcs, s.cur.streams.get? n = none) (hd : s.cur.streams.get? d = none)
    (htag : tag < 16) (hidx : idx.Nodup) (hon : ∀ n, n ∈ idx ↔ n < 512 / w ∧ on n) (hval : ∀ n ∈ idx, code tag (g n) % 2 ^ w = code tag (val n))
    (hfl : ∀ k, fl.testBit k = true ↔ ∃ n, (n < 512 / w ∧ on n) ∧ (flv n).testBit k = true) :
    VecGives i s m len d tag w on val flv := by
  obtain ⟨u, hu, hframe, hp, ht, hflags, hels⟩ := vdo_elements hexec hwork hchk hsrcs hd htag hidx fun n h => ((hon n).mp h).1
  refine ⟨u, hu, hframe, hp, ht, fun n hn => ⟨fun h => ?_, fun h => ?_⟩, fun k hk => ?_⟩
  · have hmem := (hon n).mpr ⟨hn, h⟩
    rw [hels, if_pos hmem, hval n hmem]
  · rw [hels, if_neg fun hmem => h ((hon n).mp hmem).2]
  · rw [hflags, ← hfl k, BitVec.getLsbD_or, BitVec.getLsbD_ofNat, Bool.or_eq_true, Bool.and_eq_true, decide_eq_true_eq]
    simp [hk]
/-- The same with no flag raised. -/
theorem vecGives_elements_noflag {i : Instr} {s : State} {m : Bool} {len d tag w : Nat} {chk : Frame → List (Option (Nat × Nat))} {srcs : List Nat}
    {work : State → (Nat → BitVec 512) → VOut} {idx : List Nat} {on : Nat → Prop} {g val : Nat → Nat}
    (hexec : exec i s = .next ((vdo i chk srcs work s).finish m len)) (hwork : work s s.cur.rv = .elements d w tag 0 idx g)
    (hchk : ∀ c ∈ chk s.cur, c = none) (hsrcs : ∀ n ∈ srcs, s.cur.streams.get? n = none) (hd : s.cur.streams.get? d = none)
    (htag : tag < 16) (hidx : idx.Nodup) (hon : ∀ n, n ∈ idx ↔ n < 512 / w ∧ on n) (hval : ∀ n ∈ idx, code tag (g n) % 2 ^ w = code tag (val n)) :
    VecGives i s m len d tag w on val (fun _ => 0) :=
  vecGives_elements hexec hwork hchk hsrcs hd htag hidx hon hval (by simp)
/-- The elements of a tag that an instruction on plain registers works on are the active ones (R130). -/
theorem mem_actives {s : State} {p : BitVec 3} {t : Nat} {gs : List Nat} (hg : ∀ g ∈ gs, s.cur.streams.get? g = none) (n : Nat) :
    n ∈ (List.range (elemCount t)).filter (s.cur.act p t gs) ↔ n < 512 / elemBits t ∧ active s p t n := by
  rw [List.mem_filter, List.mem_range]
  exact and_congr_right fun hn => act_plain hn hg
theorem vel_lt (w : Nat) (v : BitVec 512) (n : Nat) : vel w v n < 2 ^ w := Nat.mod_lt _ (Nat.two_pow_pos w)
theorem rt_lt (r : Frame) (n : Nat) : r.rt n < 16 := (r.vtag.get n 0#4).isLt

/-! ### Integer and bitwise elements (R136, R147) -/

/-- Integer and bitwise operations on plain registers: `val` of the elements of a and b, which is what `g` gives within the width. -/
theorem vintRun_gives {i : Instr} {s : State} {m : Bool} {d a b : BitVec 5} {p : BitVec 3} {okA : Nat → Bool} {okB : Nat → Nat → Bool}
    {g : Nat → Nat → Nat → Nat} {val : Nat → Nat → Nat} {t : Nat} (ht : s.cur.rt a.toNat = t)
    (hexec : exec i s = issue m 4 i [] (vintRun i d a b p okA okB g) s) (hnow : s.cur.now = false) (hplain : Plain s [d, a, b])
    (hA : okA t = true) (hB : okB t (s.cur.rt b.toNat) = true)
    (hval : ∀ x y, x < 2 ^ elemBits t → y < 2 ^ elemBits t → g t x y % 2 ^ elemBits t = val x y % 2 ^ elemBits t ∧ val x y < 2 ^ elemBits t) :
    VecGives i s m 4 d.toNat t (elemBits t) (active s p t)
      (fun n => val (vel (elemBits t) (s.cur.rv a.toNat) n) (vel (elemBits t) (s.cur.rv b.toNat) n)) (fun _ => 0) := by
  subst ht
  obtain ⟨hd, ha, hb⟩ : s.cur.streams.get? d.toNat = none ∧ s.cur.streams.get? a.toNat = none ∧ s.cur.streams.get? b.toNat = none :=
    ⟨hplain d (by simp), hplain a (by simp), hplain b (by simp)⟩
  rw [issue_body hnow rfl, vintRun] at hexec
  refine vecGives_elements_noflag (g := fun n => g (s.cur.rt a.toNat) (vel (elemBits (s.cur.rt a.toNat)) (s.cur.rv a.toNat) n)
    (vel (elemBits (s.cur.rt a.toNat)) (s.cur.rv b.toNat) n)) hexec ?work ?checks (by simp [ha, hb]) hd (rt_lt ..) (List.nodup_range.filter _)
    (mem_actives (gs := [d.toNat, a.toNat, b.toNat]) (by simp [hd, ha, hb])) (fun n _ => ?value)
  case work => simp only [vel_eq_getEl, elwise_eq]; rfl
  case checks => simp [srcBad_plain ha hA, srcBad_plain hb hB, dstBad_plain hd]
  case value =>
    obtain ⟨hmod, hlt⟩ := hval _ _ (vel_lt (elemBits (s.cur.rt a.toNat)) (s.cur.rv a.toNat) n) (vel_lt _ (s.cur.rv b.toNat) n)
    rw [← code_mod_two_pow elemBits_six_bit, hmod, Nat.mod_eq_of_lt hlt]

end Sys2Proof.Machine
end

section
open Sys2Proof Sys2Proof.Machine Sys2Proof.Spec
namespace Sys2Proof.Machine

theorem intVal_signed {t : Nat} (h : isSigned t = true) (x : Nat) : intVal t x = tc (elemBits t) x := by
  simp only [intVal, h, Bool.true_and, decide_eq_true_eq, ge_iff_le, tc, ← Nat.not_lt, ite_not]
theorem shlEl_val (t : Nat) (x n : Nat) :
    shlEl t x n % 2 ^ elemBits t = (if n ≥ elemBits t then 0 else x * 2 ^ n % 2 ^ elemBits t) := by
  unfold shlEl
  split
  · exact Nat.zero_mod _
  · rw [Nat.shiftLeft_eq]
theorem tc_bounds {w x : Nat} (hx : x < 2 ^ w) : -(2 ^ w : Int) ≤ tc w x ∧ tc w x < 2 ^ w := by
  have : (x : Int) < 2 ^ w := by exact_mod_cast hx
  unfold tc
  split <;> omega
/-- A two's complement number shifted by its whole width leaves copies of the sign. -/
theorem tc_div_two_pow {w x : Nat} (hx : x < 2 ^ w) : tc w x / 2 ^ w = if tc w x < 0 then -1 else 0 := by
  obtain ⟨hlow, hhigh⟩ := tc_bounds hx
  split
  · next h =>
    have hcarry : tc w x + 2 ^ w + 2 ^ w * (-1) = tc w x ∧ 0 ≤ tc w x + 2 ^ w ∧ tc w x + 2 ^ w < 2 ^ w := ⟨by ring, by omega, by omega⟩
    exact ((Int.ediv_emod_unique (by positivity)).mpr hcarry).1
  · next h => exact Int.ediv_eq_zero_of_lt (by omega) hhigh
/-- The element of a right shift: copies of the sign or zeros come in, and a count of the width or more leaves nothing else (R136). -/
def shrVal (t w x n : Nat) : Nat :=
  if t % 2 = 0 then (tc w x / 2 ^ (Nat.min n w) % 2 ^ w).toNat else if n ≥ w then 0 else x / 2 ^ n
theorem shrEl_val {t x n : Nat} (h1 : 10 ≤ t) (h2 : t ≤ 15) (hx : x < 2 ^ elemBits t) : shrEl t x n = shrVal t (elemBits t) x n := by
  have hsigned : isSigned t = true ↔ t % 2 = 0 := by
    simp only [isSigned, Bool.or_eq_true, decide_eq_true_eq]
    omega
  unfold shrEl shrVal
  by_cases h : isSigned t = true
  · rw [if_pos h, if_pos (hsigned.mp h), intCode, intVal_signed h, Int.shiftRight_eq_div_pow]
    by_cases hn : n ≥ elemBits t
    · have hmin : Nat.min n (elemBits t) = elemBits t := Nat.min_eq_right hn
      rw [if_pos hn, hmin, tc_div_two_pow hx]
    · have hmin : Nat.min n (elemBits t) = n := Nat.min_eq_left (Nat.le_of_not_le hn)
      rw [if_neg hn, hmin]
      norm_cast
  · rw [if_neg h, if_neg (mt hsigned.mpr h), Nat.shiftRight_eq_div_pow]
theorem shrVal_lt {t w x n : Nat} (hx : x < 2 ^ w) : shrVal t w x n < 2 ^ w := by
  unfold shrVal
  split
  · have hpos : (0 : Int) < 2 ^ w := by positivity
    have := Int.emod_lt_of_pos (tc w x / 2 ^ Nat.min n w) hpos
    have := Int.emod_nonneg (tc w x / 2 ^ Nat.min n w) hpos.ne'
    zify
    omega
  · split
    · positivity
    · exact (Nat.div_le_self _ _).trans_lt hx

/-! ### Counts of bits (R147) -/

theorem popcount_eq (n x : Nat) : popcount n x = ((List.range n).filter x.testBit).length := by
  induction n generalizing x with
  | zero => rfl
  | succ n ih =>
    rw [popcount, ih, List.range_succ_eq_map, List.filter_cons, List.filter_map, Nat.testBit_zero]
    have hshift : x.testBit ∘ Nat.succ = (x / 2).testBit := by
      funext k
      exact Nat.testBit_succ x k
    rw [hshift]
    rcases Nat.mod_two_eq_zero_or_one x with h | h <;> simp [h, Nat.add_comm]
theorem lowestSet_eq (n i x : Nat) : lowestSet n i x = i + ((List.range n).find? x.testBit).getD n := by
  induction n generalizing i x with
  | zero => rfl
  | succ n ih =>
    rw [lowestSet, ih, List.range_succ_eq_map, List.find?_cons, List.find?_map, Nat.testBit_zero]
    have hshift : x.testBit ∘ Nat.succ = (x / 2).testBit := by
      funext k
      exact Nat.testBit_succ x k
    rw [hshift]
    rcases Nat.mod_two_eq_zero_or_one x with h | h
    · cases (List.range n).find? (x / 2).testBit <;> simp [h] <;> omega
    · simp [h]
/-- A number within `n` bits has no lowest bit only where it is zero. -/
theorem lowestSet_val {n x : Nat} (hx : x < 2 ^ n) : lowestSet n 0 x = if x = 0 then n else ((List.range n).find? x.testBit).getD 0 := by
  rw [lowestSet_eq, Nat.zero_add]
  split
  · next h =>
    have hnone : (List.range n).find? x.testBit = none := List.find?_eq_none.mpr fun k _ => by simp [h]
    rw [hnone, Option.getD_none]
  · next h =>
    cases hfind : (List.range n).find? x.testBit with
    | some k => rfl
    | none =>
      refine absurd (Nat.eq_of_testBit_eq fun k => ?_) h
      rw [Nat.zero_testBit]
      by_cases hk : k < n
      · simpa using List.find?_eq_none.mp hfind k (List.mem_range.mpr hk)
      · exact Nat.testBit_lt_two_pow (hx.trans_le (Nat.pow_le_pow_right (by decide) (by omega)))
/-- Each count is at most the width, and so fits an element. -/
theorem bitOp_lt {op w x : Nat} (hop : op < 3) : bitOp op w x < 2 ^ w := by
  refine Nat.lt_of_le_of_lt ?_ Nat.lt_two_pow_self
  have : op = 0 ∨ op = 1 ∨ op = 2 := by omega
  rcases this with rfl | rfl | rfl
  · simp only [bitOp]
    split <;> omega
  · simp only [bitOp, lowestSet_eq, Nat.zero_add]
    cases hfind : (List.range w).find? x.testBit with
    | none => exact Nat.le_refl w
    | some k => exact (List.mem_range.mp (List.mem_of_find?_eq_some hfind)).le
  · simp only [bitOp, popcount_eq]
    exact (List.length_filter_le ..).trans List.length_range.le

/-- The number tag of the width that a bit count names (R147). -/
def bitTag (wc : BitVec 2) : Nat := match wc.toNat with | 0 => 11 | 1 => 13 | 2 => 15 | _ => 0
theorem bitTag_cases (wc : BitVec 2) : bitTag wc < 16 ∧ bitTag wc ≠ 6 ∧ bitTag wc ≠ 7 := by
  revert wc
  decide
theorem vbitRun_eq (i : Instr) (op : Nat) (wc : BitVec 2) (d a : BitVec 5) (p : BitVec 3) (s : State) :
    vbitRun i op wc d a p s = vdo i (fun r => [r.srcBad 1 a.toNat fun _ => true, r.dstBad 0 d.toNat (bitTag wc)]) [a.toNat]
      (fun s v =>
        .elements d.toNat (8 * 2 ^ wc.toNat) (bitTag wc) 0
          ((List.range (512 / (8 * 2 ^ wc.toNat))).filter fun n => fld (s.cur.rp p.toNat) n 1 = 1 && s.cur.lane a.toNat (8 * 2 ^ wc.toNat) n &&
            s.cur.lane d.toNat (8 * 2 ^ wc.toNat) n)
          fun n => bitOp op (8 * 2 ^ wc.toNat) (getEl (v a.toNat) (8 * 2 ^ wc.toNat) n)) s := by
  rw [vbitRun]
  simp only [elwise_eq]
  rfl
/-- Bit counts of a plain register: `val` of each element that the predicate's bit of its place selects. -/
theorem vbitRun_gives {i : Instr} {s : State} {m : Bool} {d a : BitVec 5} {p : BitVec 3} {wc : BitVec 2} {op : Nat} {val : Nat → Nat}
    (hexec : exec i s = issue m 4 i [] (vbitRun i op wc d a p) s) (hnow : s.cur.now = false) (ha : s.cur.streams.get? a.toNat = none)
    (hd : s.cur.streams.get? d.toNat = none) (hop : op < 3) (hval : ∀ x, x < 2 ^ (8 * 2 ^ wc.toNat) → bitOp op (8 * 2 ^ wc.toNat) x = val x) :
    VecGives i s m 4 d.toNat (bitTag wc) (8 * 2 ^ wc.toNat) (fun n => (s.cur.rp p.toNat).getLsbD n = true)
      (fun n => val (vel (8 * 2 ^ wc.toNat) (s.cur.rv a.toNat) n)) (fun _ => 0) := by
  obtain ⟨htag, h67⟩ := bitTag_cases wc
  rw [issue_body hnow rfl, vbitRun_eq] at hexec
  refine vecGives_elements_noflag hexec rfl ?checks (by simpa using ha) hd htag (List.nodup_range.filter _) (fun n => ?on) (fun n _ => ?value)
  case checks => simp [srcBad_plain ha, dstBad_plain hd]
  case on =>
    rw [List.mem_filter, List.mem_range]
    refine and_congr_right fun hn => ?_
    have hin := Nat.mul_le_of_le_div _ _ _ hn
    simp [lane_plain ha hin, lane_plain hd hin, fld_one_eq]
  case value => rw [code_eq_self h67, code_eq_self h67, Nat.mod_eq_of_lt (bitOp_lt hop), vel_eq_getEl, hval _ (getEl_lt ..)]

end Sys2Proof.Machine
end

section
/-! The statements of the vector instructions. -/
open Sys2Proof Sys2Proof.Machine Sys2Proof.Spec
namespace Sys2Proof.Proofs

/-- Settles O29: `vintRun` and `vbitRun` on plain registers, with what each operation gives within the width. -/
theorem vectorInteger : Obligations.VectorInteger := by
  unfold Obligations.VectorInteger
  intro s m d a b p wc hnow hplain t w x y gives wb tb z counts
  have both {i : Instr} {okA : Nat → Bool} {okB : Nat → Nat → Bool} {g : Nat → Nat → Nat → Nat} {val : Nat → Nat → Nat}
      (hexec : exec i s = issue m 4 i [] (vintRun i d a b p okA okB g) s) (hA : okA t = true) (hB : okB t (s.cur.rt b.toNat) = true)
      (hval : ∀ x y, x < 2 ^ w → y < 2 ^ w → g t x y % 2 ^ w = val x y % 2 ^ w ∧ val x y < 2 ^ w) : gives i (fun n => val (x n) (y n)) :=
    vintRun_gives (t := t) rfl hexec hnow hplain hA hB hval
  have count {i : Instr} {op : Nat} {val : Nat → Nat} (hexec : exec i s = issue m 4 i [] (vbitRun i op wc d a p) s) (hop : op < 3)
      (hval : ∀ x, x < 2 ^ wb → bitOp op wb x = val x) : counts i (fun n => val (z n)) :=
    vbitRun_gives hexec hnow (hplain a (by simp)) (hplain d (by simp)) hop hval
  have hmod (k : Nat) : k % 2 ^ w = k % 2 ^ w % 2 ^ w ∧ k % 2 ^ w < 2 ^ w := ⟨(Nat.mod_mod _ _).symm, Nat.mod_lt _ (Nat.two_pow_pos w)⟩
  refine ⟨fun h10 h15 htb => ?arithmetic, fun htb => ?bitwise, fun h10 h15 hb10 hb15 hwidth => ?shifts, ?clz, ?popc, ?ffs⟩
  case arithmetic =>
    have hint : isInt t = true := by simp [isInt, h10, h15]
    have hsame : sameTag t (s.cur.rt b.toNat) = true := beq_iff_eq.mpr htb.symm
    exact ⟨both (exec_viadd ..) hint hsame fun _ _ _ _ => hmod _, both (exec_visub ..) hint hsame fun _ _ _ _ => hmod _,
      both (exec_vimul ..) hint hsame fun _ _ _ _ => hmod _⟩
  case bitwise =>
    have hsame : sameTag t (s.cur.rt b.toNat) = true := beq_iff_eq.mpr htb.symm
    exact ⟨both (exec_vand ..) rfl hsame fun _ _ _ hy => ⟨rfl, Nat.and_lt_two_pow _ hy⟩,
      both (exec_vor ..) rfl hsame fun _ _ hx hy => ⟨rfl, Nat.or_lt_two_pow hx hy⟩,
      both (exec_vxor ..) rfl hsame fun _ _ hx hy => ⟨rfl, Nat.xor_lt_two_pow hx hy⟩⟩
  case shifts =>
    have hint : isInt t = true := by simp [isInt, h10, h15]
    have hcount : shiftTag t (s.cur.rt b.toNat) = true := by simp [shiftTag, isInt, hb10, hb15, hwidth, w]
    refine ⟨both (val := fun x y => if y ≥ w then 0 else x * 2 ^ y % 2 ^ w) (exec_vshl ..) hint hcount fun x y _ _ => ?_,
      both (val := shrVal t w) (exec_vshr ..) hint hcount fun x y hx _ => ?_⟩
    · have hlt : (if y ≥ w then 0 else x * 2 ^ y % 2 ^ w) < 2 ^ w := by
        rw [← shlEl_val]
        exact (hmod _).2
      exact ⟨(shlEl_val t x y).trans (Nat.mod_eq_of_lt hlt).symm, hlt⟩
    · rw [shrEl_val h10 h15 hx]
      exact ⟨rfl, shrVal_lt hx⟩
  case clz => exact count (exec_vclz ..) (by decide) fun _ _ => rfl
  case popc => exact count (exec_vpopc ..) (by decide) fun x _ => popcount_eq wb x
  case ffs => exact count (exec_vffs ..) (by decide) fun _ hx => lowestSet_val hx

end Sys2Proof.Proofs
end

section
/-! Compares, selection, permutation and moves of plain vector registers (R137, R144, R146). -/
open Sys2Proof Sys2Proof.Machine Sys2Proof.Spec
namespace Sys2Proof.Machine

/-! ### Predicates as sums of bits (R137, R145) -/

/-- The number whose bit `n` is set for each `n` below `N` where `f n` holds. -/
def bitSum (f : Nat → Bool) (N : Nat) : Nat := (List.range N).foldl (fun m n => m + if f n then 2 ^ n else 0) 0
theorem bitSum_succ (f : Nat → Bool) (N : Nat) : bitSum f (N + 1) = bitSum f N + if f N then 2 ^ N else 0 := by
  simp [bitSum, List.range_succ]
theorem bitSum_lt (f : Nat → Bool) (N : Nat) : bitSum f N < 2 ^ N := by
  induction N with
  | zero => simp [bitSum]
  | succ N ih =>
    rw [bitSum_succ, Nat.pow_succ]
    split <;> omega
theorem testBit_bitSum (f : Nat → Bool) (N k : Nat) : (bitSum f N).testBit k = true ↔ k < N ∧ f k = true := by
  induction N with
  | zero => simp [bitSum]
  | succ N ih =>
    have hlow := bitSum_lt f N
    rw [bitSum_succ]
    rcases Nat.lt_trichotomy k N with hk | hk | hk
    · have hkeep : (bitSum f N + if f N then 2 ^ N else 0).testBit k = (bitSum f N).testBit k := by
        split
        · rw [Nat.add_comm, Nat.testBit_two_pow_add_gt hk]
        · rfl
      rw [hkeep, ih]
      simp [hk, Nat.lt_succ_of_lt hk]
    · subst hk
      have hclear : (bitSum f k).testBit k = false := Nat.testBit_lt_two_pow hlow
      by_cases hf : f k = true
      · rw [if_pos hf, Nat.add_comm, Nat.testBit_two_pow_add_eq]
        simp [hclear, hf]
      · simp [hf, hclear]
    · have hsmall : (bitSum f N + if f N then 2 ^ N else 0) < 2 ^ k :=
        (bitSum_succ f N ▸ bitSum_lt f (N + 1)).trans_le (Nat.pow_le_pow_right (by decide) hk)
      simp [Nat.testBit_lt_two_pow hsmall]
      omega
/-- The predicate written from such a sum reads its own bits. -/
theorem getLsbD_wd_bitSum (f : Nat → Bool) (N : Nat) {k : Nat} (hk : k < 64) : (wd (bitSum f N)).getLsbD k = true ↔ k < N ∧ f k = true := by
  rw [wd, BitVec.getLsbD_ofNat, Bool.and_eq_true, testBit_bitSum]
  simp [hk]
/-- Results of one bit each, added up at their places. -/
theorem foldl_elwise_bits (N : Nat) (act f : Nat → Bool) (fl : Nat → Nat) :
    (elwise N act fun n => (b2n (f n), fl n)).1.foldl (fun m e => m + e.2 * 2 ^ e.1) 0 = bitSum (fun n => act n && f n) N := by
  rw [elwise_eq, List.foldl_map, List.foldl_filter, bitSum]
  congr 1
  funext m n
  cases act n <;> cases f n <;> simp [b2n]
/-- Reading predicates after one that is not p0 is written (R34). -/
theorem rp_predsAfter {r : Frame} {P : Tab Word} {p : BitVec 3} {w : Word} (h : r.p = predsAfter [(p, w)] P) (hp : p ≠ 0#3) :
    r.rp p.toNat = w ∧ ∀ q, q ≠ p.toNat → r.rp q = if q = 0 then -1#64 else P.get q 0#64 := by
  have hnat : p.toNat ≠ 0 := fun h => hp (BitVec.eq_of_toNat_eq h)
  rw [predsAfter_one hp] at h
  refine ⟨?_, fun q hq => ?_⟩
  · rw [Frame.rp, if_neg hnat, h, Tab.get_put_self]
  · rw [Frame.rp, h, Tab.get_put_ne _ _ _ hq]

/-! ### Compare and select (R137) -/

/-- The six conditions (R137). -/
def cmpHolds (c : Nat) (x y : Fp) : Prop :=
  match c with
  | 0 => fpEq x y = true
  | 1 => fpEq x y = false
  | 2 => fpLt x y = true
  | 3 => fpLt x y = true ∨ fpEq x y = true
  | 4 => fpLt y x = true
  | _ => fpLt y x = true ∨ fpEq x y = true
theorem vcmpEl_iff (c : Nat) (x y : Fp) : (vcmpEl c x y).1 = true ↔ cmpHolds c x y := by
  unfold vcmpEl cmpHolds
  match c with
  | 0 | 2 | 4 => exact Iff.rfl
  | 1 => exact Bool.not_eq_true' _ |>.to_iff
  | 3 | n + 5 => exact Bool.or_eq_true .. |>.to_iff
/-- An instruction whose one result is a predicate of bits, and whose checks pass. -/
theorem vdo_bits {i : Instr} {s : State} {m : Bool} {len N fl : Nat} {dp : BitVec 3} {f : Nat → Bool} {chk : Frame → List (Option (Nat × Nat))}
    {srcs : List Nat} {work : State → (Nat → BitVec 512) → VOut} (hexec : exec i s = .next ((vdo i chk srcs work s).finish m len))
    (hwork : work s s.cur.rv = { p := [(dp, wd (bitSum f N))], flags := fl }) (hchk : ∀ c ∈ chk s.cur, c = none)
    (hsrcs : ∀ n ∈ srcs, s.cur.streams.get? n = none) (hdp : dp ≠ 0#3) :
    ∃ u : State, exec i s = .next (done u m len) ∧ VecFrame s u [] ∧
      (∀ n, n < 64 → ((u.cur.rp dp.toNat).getLsbD n = true ↔ n < N ∧ f n = true)) ∧ ∀ q, q ≠ dp.toNat → u.cur.rp q = s.cur.rp q := by
  rw [vdo_writes_only hwork hchk hsrcs (fun _ h => nomatch h) (fun _ _ _ h => nomatch h) rfl rfl] at hexec
  obtain ⟨hbits, hothers⟩ := rp_predsAfter (vwritten_flags s (srcs ++ []) { p := [(dp, wd (bitSum f N))], flags := fl }).2 hdp
  exact ⟨_, hexec, vwritten_frame .., fun n hn => (congrArg (fun w : Word => w.getLsbD n = true) hbits).to_iff.trans (getLsbD_wd_bitSum f N hn), hothers⟩

/-- VCMP on plain registers of one wide or integer tag: a bit for each element, set where it is active and the condition holds. -/
theorem vcmpRun_gives {i : Instr} {s : State} {m : Bool} {c : BitVec 4} {dp p : BitVec 3} {a b : BitVec 5} {t : Nat} (ht : s.cur.rt a.toNat = t)
    (hexec : exec i s = issue m 4 i [] (vcmpRun i c dp a b p) s) (hnow : s.cur.now = false) (ha : s.cur.streams.get? a.toNat = none)
    (hb : s.cur.streams.get? b.toNat = none) (htag : isWide t = true ∨ isInt t = true) (htb : s.cur.rt b.toNat = t) (hdp : dp ≠ 0#3) :
    ∃ u : State, exec i s = .next (done u m 4) ∧ VecFrame s u [] ∧
      (∀ n, n < 64 → ((u.cur.rp dp.toNat).getLsbD n = true ↔ n < elemCount t ∧ active s p t n ∧
        cmpHolds c.toNat (elemVal t (vel (elemBits t) (s.cur.rv a.toNat) n)) (elemVal t (vel (elemBits t) (s.cur.rv b.toNat) n)))) ∧
      ∀ q, q ≠ dp.toNat → u.cur.rp q = s.cur.rp q := by
  subst ht
  rw [issue_body hnow rfl, vcmpRun] at hexec
  have hA : s.cur.srcBad 1 a.toNat (fun t => isWide t || isInt t) = none := srcBad_plain ha (by simpa using htag)
  have hB : s.cur.srcBad 2 b.toNat (· == s.cur.rt a.toNat) = none := srcBad_plain hb (by simp [htb])
  obtain ⟨u, hu, hframe, hbits, hothers⟩ := vdo_bits hexec (by simp only [foldl_elwise_bits]; rfl) (by simp [hA, hB]) (by simp [ha, hb]) hdp
  refine ⟨u, hu, hframe, fun n hn => (hbits n hn).trans (and_congr_right fun hin => ?_), hothers⟩
  rw [Bool.and_eq_true, act_plain hin (by simp [ha, hb]), vcmpEl_iff, vel_eq_getEl, vel_eq_getEl]

/-- Where no register is a stream a predicate's bit makes an element active. -/
theorem pbit_iff {s : State} {p : BitVec 3} {t n : Nat} (hn : n < elemCount t) : s.cur.pbit p t n = true ↔ active s p t n := by
  simpa [Frame.act] using act_plain (s := s) (p := p) (gs := []) hn (by simp)
/-- p0 makes every element active (R34). -/
theorem active_p0 (s : State) {t n : Nat} (hn : n < elemCount t) : active s 0#3 t n := by
  have h64 : (if elemBits t = 4 then n / 2 else n) < 64 := by
    have hwidth : elemBits t = 4 ∨ 8 ≤ elemBits t := by
      unfold elemBits
      split <;> simp
    unfold elemCount at hn
    rcases hwidth with h | h
    · rw [h] at hn
      rw [if_pos h]
      omega
    · rw [if_neg (by omega)]
      exact hn.trans_le (Nat.div_le_div_left h (by decide))
  rw [active, show (0#3).toNat = 0 from rfl, rp_zero, BitVec.neg_one_eq_allOnes, BitVec.getLsbD_allOnes]
  exact decide_eq_true h64

/-- VSEL on plain registers of one tag: each element from the register that the predicate selects. -/
theorem vselRun_gives {i : Instr} {s : State} {m : Bool} {d a b : BitVec 5} {p : BitVec 3} {t : Nat} (ht : s.cur.rt a.toNat = t)
    (hexec : exec i s = issue m 4 i [] (vselRun i d a b p) s) (hnow : s.cur.now = false) (hplain : Plain s [d, a, b]) (htb : s.cur.rt b.toNat = t) :
    VecGives i s m 4 d.toNat t (elemBits t) (fun _ => True) (fun n => if (s.cur.rp p.toNat).getLsbD (if elemBits t = 4 then n / 2 else n)
      then vel (elemBits t) (s.cur.rv a.toNat) n else vel (elemBits t) (s.cur.rv b.toNat) n) (fun _ => 0) := by
  subst ht
  obtain ⟨hd, ha, hb⟩ : s.cur.streams.get? d.toNat = none ∧ s.cur.streams.get? a.toNat = none ∧ s.cur.streams.get? b.toNat = none :=
    ⟨hplain d (by simp), hplain a (by simp), hplain b (by simp)⟩
  have hB : s.cur.srcBad 2 b.toNat (· == s.cur.rt a.toNat) = none := srcBad_plain hb (by simp [htb])
  have hplaces (n : Nat) := mem_actives (s := s) (p := 0#3) (t := s.cur.rt a.toNat) (gs := [d.toNat, a.toNat, b.toNat]) (by simp [hd, ha, hb]) n
  rw [issue_body hnow rfl, vselRun] at hexec
  refine vecGives_elements_noflag hexec (by simp only [elwise_eq]; rfl) (by simp [srcBad_plain ha, hB, dstBad_plain hd]) (by simp [ha, hb]) hd
    (rt_lt ..) (List.nodup_range.filter _) (fun n => ?on) (fun n hn => ?value)
  case on => exact (hplaces n).trans (and_congr_right fun hn => iff_true_intro (active_p0 s hn))
  case value =>
    have hpick : s.cur.pbit p (s.cur.rt a.toNat) n = true ↔ _ := pbit_iff ((hplaces n).mp hn).1
    simp only [hpick, active, vel_eq_getEl]
    generalize (if elemBits (s.cur.rt a.toNat) = 4 then n / 2 else n) = k
    rw [← code_mod_two_pow elemBits_six_bit, Nat.mod_eq_of_lt]
    split <;> exact getEl_lt ..

/-! ### Permute, broadcast and moves (R144, R146) -/

theorem byteTag_bits : ∀ t < 16, (if byteTag t then 8 else elemBits t) = if elemBits t = 4 then 8 else elemBits t := by decide
/-- VPERM on plain registers: element by index, 0 for an index beyond the register. -/
theorem vpermRun_gives {i : Instr} {s : State} {m : Bool} {d a b : BitVec 5} {p : BitVec 3} {t w : Nat} (ht : s.cur.rt a.toNat = t)
    (hw : (if elemBits t = 4 then 8 else elemBits t) = w) (hexec : exec i s = issue m 12 i [] (vpermRun i d a b p) s) (hnow : s.cur.now = false)
    (hplain : Plain s [d, a, b]) (htb : s.cur.rt b.toNat = 11 ∨ s.cur.rt b.toNat = 13 ∨ s.cur.rt b.toNat = 15) (hwb : elemBits (s.cur.rt b.toNat) = w) :
    VecGives i s m 12 d.toNat t w (fun n => (s.cur.rp p.toNat).getLsbD n = true)
      (fun n => if vel w (s.cur.rv b.toNat) n ≥ 512 / w then 0 else vel w (s.cur.rv a.toNat) (vel w (s.cur.rv b.toNat) n)) (fun _ => 0) := by
  subst ht
  obtain ⟨hd, ha, hb⟩ : s.cur.streams.get? d.toNat = none ∧ s.cur.streams.get? a.toNat = none ∧ s.cur.streams.get? b.toNat = none :=
    ⟨hplain d (by simp), hplain a (by simp), hplain b (by simp)⟩
  rw [issue_body hnow rfl, vpermRun, byteTag_bits _ (rt_lt ..), hw] at hexec
  have hB : s.cur.srcBad 2 b.toNat (fun u => (u = 11 || u = 13 || u = 15) && elemBits u = w) = none :=
    srcBad_plain hb (by simpa [hwb, or_assoc] using htb)
  refine vecGives_elements_noflag hexec (by simp only [elwise_eq]; rfl) (by simp [srcBad_plain ha, hB, dstBad_plain hd]) (by simp [ha, hb]) hd
    (rt_lt ..) (List.nodup_range.filter _) (fun n => ?on) (fun n _ => ?value)
  case on =>
    rw [List.mem_filter, List.mem_range]
    refine and_congr_right fun hn => ?_
    have hin := Nat.mul_le_of_le_div _ _ _ hn
    have hpicked : getEl (s.cur.rv b.toNat) w n ≥ 512 / w ∨ s.cur.lane a.toNat w (getEl (s.cur.rv b.toNat) w n) = true := by
      rcases Nat.lt_or_ge (getEl (s.cur.rv b.toNat) w n) (512 / w) with h | h
      · exact .inr (lane_plain ha (Nat.mul_le_of_le_div _ _ _ h))
      · exact .inl h
    simp [lane_plain hb hin, lane_plain hd hin, fld_one_eq, hpicked]
  case value =>
    have hsix (h : s.cur.rt a.toNat = 6 ∨ s.cur.rt a.toNat = 7) : w = 8 := by
      rw [← hw, elemBits_six_bit h]
      rfl
    rw [← code_mod_two_pow hsix, Nat.mod_eq_of_lt]
    · simp only [vel_eq_getEl]
    · split
      · exact Nat.two_pow_pos w
      · exact getEl_lt ..

/-- VBCAST to a plain register: the low bits of one word in every active element. -/
theorem vbcastRun_gives {i : Instr} {s : State} {m : Bool} {len : Nat} {d : BitVec 5} {p : BitVec 3} {fmt : BitVec 4} {g : State → Word}
    {regs : List Nat} (hexec : exec i s = issue m len i regs (vbcastRun i d g p fmt) s) (hnow : s.cur.now = false) (hregs : hazard s.cur regs = none)
    (hd : s.cur.streams.get? d.toNat = none) :
    VecGives i s m len d.toNat fmt.toNat (elemBits fmt.toNat) (active s p fmt.toNat) (fun _ => (g s).toNat % 2 ^ elemBits fmt.toNat) (fun _ => 0) := by
  rw [issue_body hnow hregs, vbcastRun] at hexec
  refine vecGives_elements_noflag hexec (by simp only [elwise_eq]; rfl) (by simp [dstBad_plain hd]) (by simp) hd fmt.isLt (List.nodup_range.filter _)
    (mem_actives (gs := [d.toNat]) (by simp [hd])) (fun n _ => ?_)
  rw [← code_mod_two_pow elemBits_six_bit, fld_eq, Nat.pow_zero, Nat.div_one, Nat.mod_mod]

/-- VRAND to a plain register: the high half of each element's own mix. -/
theorem vrandRun_gives {i : Instr} {s : State} {m : Bool} {d : BitVec 5} {a : BitVec 6} {p : BitVec 3} {regs : List Nat}
    (hexec : exec i s = issue m 12 i regs (vrandRun i d a p) s) (hnow : s.cur.now = false) (hregs : hazard s.cur regs = none)
    (hd : s.cur.streams.get? d.toNat = none) :
    VecGives i s m 12 d.toNat 15 32 (active s p 15)
      (fun n => (mix64 ((s.x a + BitVec.ofNat 64 (4 * n)) ^^^ mix64 s.myCore.seed)).toNat / 2 ^ 32) (fun _ => 0) := by
  rw [issue_body hnow hregs, vrandRun] at hexec
  refine vecGives_elements_noflag hexec (by simp only [elwise_eq]; rfl) (by simp [dstBad_plain hd]) (by simp) hd (by decide) (List.nodup_range.filter _)
    (mem_actives (t := 15) (gs := [d.toNat]) (by simp [hd])) (fun n _ => ?_)
  rw [code_eq_self (by decide), code_eq_self (by decide), randBits, Nat.mod_eq_of_lt]
  · rfl
  · have := (mix64 ((s.x a + wd (4 * n)) ^^^ mix64 s.myCore.seed)).isLt
    omega

/-- VMOVV to a plain register: the low bits of an x register in one element. -/
theorem vmovvRun_gives {i : Instr} {s : State} {m : Bool} {d : BitVec 5} {a : BitVec 6} {k : BitVec 7} {regs : List Nat}
    (hexec : exec i s = issue m 12 i regs (vmovvRun i d a k) s) (hnow : s.cur.now = false) (hregs : hazard s.cur regs = none)
    (hd : s.cur.streams.get? d.toNat = none) :
    VecGives i s m 12 d.toNat (s.cur.rt d.toNat) (elemBits (s.cur.rt d.toNat)) (fun n => n = k.toNat)
      (fun _ => (s.x a).toNat % 2 ^ elemBits (s.cur.rt d.toNat)) (fun _ => 0) := by
  generalize ht : s.cur.rt d.toNat = t
  have htag : t < 16 := ht ▸ rt_lt ..
  rw [issue_body hnow hregs, vmovvRun, ht] at hexec
  refine vecGives_elements_noflag (idx := if k.toNat < elemCount t then [k.toNat] else []) (g := fun _ => fld (s.x a) 0 (elemBits t)) hexec ?work
    (by simp [dstBad_plain hd]) (by simp) hd htag ?distinct (fun n => ?on) (fun n _ => ?value)
  case work =>
    by_cases hk : k.toNat < elemCount t
    · simp [VOut.elements, hk, lane_plain hd (Nat.mul_le_of_le_div _ _ _ hk)]
    · simp [VOut.elements, hk]
  case distinct => split <;> simp
  case on =>
    rw [elemCount]
    split <;> simp <;> omega
  case value => rw [← code_mod_two_pow elemBits_six_bit, fld_eq, Nat.pow_zero, Nat.div_one, Nat.mod_mod]

/-- A signed element keeps its value as a word. -/
theorem toInt_sext {w x : Nat} (hx : x < 2 ^ w) (hw : w ≤ 32) : (sext w x).toInt = tc w x := by
  have htc : sext w x = BitVec.ofInt 64 (tc w x) := by
    rw [sext, Nat.mod_eq_of_lt hx, tc]
    by_cases h : x < 2 ^ (w - 1)
    · simp [h, Nat.not_le.mpr h]
    · simp [h, Nat.le_of_not_lt h]
  have hpow : (2 : Int) ^ w ≤ 2 ^ 32 := by exact_mod_cast Nat.pow_le_pow_right (by decide) hw
  obtain ⟨hlow, hhigh⟩ := tc_bounds hx
  rw [htc, BitVec.toInt_ofInt]
  exact Int.bmod_eq_of_le (by omega) (by omega)
theorem elemBits_le (t : Nat) : elemBits t ≤ 32 := by unfold elemBits; split <;> decide
theorem isSigned_iff (t : Nat) : isSigned t = true ↔ t = 10 ∨ t = 12 ∨ t = 14 := by simp [isSigned, or_assoc]

/-- The word that VMOVX gives for a code of an element: a signed integer its value, any other the code itself (R146). -/
def elemWord (t c : Nat) : Word := if isSigned t then sext (elemBits t) c else wd c
theorem toInt_elemWord {t x : Nat} (hx : x < 2 ^ elemBits t) :
    (elemWord t (code t x)).toInt = if t = 10 ∨ t = 12 ∨ t = 14 then tc (elemBits t) x else (BitVec.ofNat 64 (code t x)).toInt := by
  rw [elemWord]
  by_cases h : isSigned t = true
  · have hsigned := (isSigned_iff t).mp h
    rw [if_pos h, if_pos hsigned, code_eq_self (by omega), toInt_sext hx (elemBits_le t)]
  · rw [if_neg h, if_neg (mt (isSigned_iff t).mpr h), wd]
theorem mod_eq_code {t x : Nat} (hx : x < 2 ^ elemBits t) : x % (if t = 6 || t = 7 then 64 else 2 ^ elemBits t) = code t x := by
  by_cases h : t = 6 ∨ t = 7 <;> simp [h, code, Nat.mod_eq_of_lt hx]
theorem vecFrame_ticked {s u : State} {ds : List Nat} (h : VecFrame s u ds) : VecFrame s u.ticked ds := h
/-- An instruction whose one result is an x register, and whose checks pass. -/
theorem vdo_word {i : Instr} {s : State} {m : Bool} {len : Nat} {d : BitVec 6} {v : Word} {used : Bool} {chk : Frame → List (Option (Nat × Nat))}
    {srcs : List Nat} {work : State → (Nat → BitVec 512) → VOut} (hexec : exec i s = .next ((vdo i chk srcs work s).finish m len))
    (hwork : work s s.cur.rv = { x := [(d, v)], used := used }) (hchk : ∀ c ∈ chk s.cur, c = none)
    (hsrcs : ∀ n ∈ srcs, s.cur.streams.get? n = none) :
    ∃ u, exec i s = .next (done (u.wvar d v) m len) ∧ VecFrame s u [] ∧ u.cur.p = s.cur.p := by
  rw [vdo_writes hwork hchk hsrcs (fun _ h => nomatch h) (fun _ _ _ h => nomatch h)] at hexec
  cases used with
  | false => exact ⟨_, hexec, vwritten_frame .., (vwritten_flags ..).2⟩
  | true => exact ⟨(s.vwritten _ _).ticked, hexec, vecFrame_ticked (vwritten_frame ..), (vwritten_flags ..).2⟩
/-- VMOVX of a plain register: the element's value, 0 beyond the register. -/
theorem vmovxRun_gives {i : Instr} {s : State} {m : Bool} {d : BitVec 6} {a : BitVec 5} {k : BitVec 7} {regs : List Nat} {t : Nat}
    (ht : s.cur.rt a.toNat = t) (hexec : exec i s = issue m 12 i regs (vmovxRun i d a k) s) (hnow : s.cur.now = false)
    (hregs : hazard s.cur regs = none) (ha : s.cur.streams.get? a.toNat = none) :
    ∃ u, exec i s = .next (done (u.wvar d (if k.toNat < elemCount t then elemWord t (code t (vel (elemBits t) (s.cur.rv a.toNat) k.toNat)) else 0#64)) m 12) ∧
      VecFrame s u [] ∧ u.cur.p = s.cur.p := by
  rw [issue_body hnow hregs, vmovxRun, ht] at hexec
  refine vdo_word (used := !s.cur.lane a.toNat (elemBits t) k.toNat) hexec ?_ (by simp [srcBad_plain ha]) (by simp [ha])
  by_cases hk : k.toNat < elemCount t
  · have hlane : s.cur.lane a.toNat (elemBits t) k.toNat = true := lane_plain ha (Nat.mul_le_of_le_div _ _ _ hk)
    simp [hlane, hk, Nat.not_le.mpr hk, elemWord, vel_eq_getEl, ← mod_eq_code (getEl_lt (s.cur.rv a.toNat) (elemBits t) k.toNat)]
  · simp [hk, Nat.le_of_not_lt hk]

end Sys2Proof.Machine
end

section
/-! The statement on compares and moves. -/
open Sys2Proof Sys2Proof.Machine Sys2Proof.Spec
namespace Sys2Proof.Proofs

/-- Settles O30: each instruction's own lemma on plain registers. -/
theorem vectorCompareAndMove : Obligations.VectorCompareAndMove := by
  unfold Obligations.VectorCompareAndMove
  intro s m d a b dx ax p dp c fmt k lit hready hplain t w x y wp f td cmp
  have hnow : s.cur.now = false := hready.1
  obtain ⟨hd, ha, hb⟩ : s.cur.streams.get? d.toNat = none ∧ s.cur.streams.get? a.toNat = none ∧ s.cur.streams.get? b.toNat = none :=
    ⟨hplain d (by simp), hplain a (by simp), hplain b (by simp)⟩
  have hax : hazard s.cur [rX ax] = none := hazard_none fun n hn => hready.2 n (List.mem_cons_of_mem _ hn)
  have hdx : hazard s.cur [rX dx] = none := hazard_none fun n hn => hready.2 n (List.mem_cons.mpr (.inl (List.mem_singleton.mp hn)))
  refine ⟨fun htag htb hdp => ?cmp, fun htb => ?sel, fun htb hwb => ?perm, ⟨?bcast, ?bcastLit⟩, ?movv, ?rand, ?movx⟩
  case cmp =>
    have htag : isWide t = true ∨ isInt t = true := by simpa [isWide, isInt] using htag
    exact vcmpRun_gives (t := t) rfl (exec_vcmp ..) hnow ha hb htag htb hdp
  case sel => exact vselRun_gives (t := t) rfl (exec_vsel ..) hnow hplain htb
  case perm => exact vpermRun_gives (t := t) rfl rfl (exec_vperm ..) hnow hplain htb hwb
  case bcast => exact vbcastRun_gives (exec_vbcast ..) hnow hax hd
  case bcastLit => exact vbcastRun_gives (exec_vbcastLit ..) hnow rfl hd
  case movv => exact vmovvRun_gives (exec_vmovv ..) hnow hax hd
  case rand => exact vrandRun_gives (exec_vrand ..) hnow hax hd
  case movx =>
    obtain ⟨u, hu, hframe, hp⟩ := vmovxRun_gives (t := t) rfl (exec_vmovx m dx a k s) hnow hdx ha
    refine ⟨u, _, hu, hframe, hp, fun hk => ?_, fun hk => if_neg (Nat.not_lt.mpr hk)⟩
    rw [if_pos hk]
    exact toInt_elemWord (vel_lt ..)

end Sys2Proof.Proofs
end

section
/-! VRED and the online softmax on plain registers (R142, R143). -/
open Sys2Proof Sys2Proof.Machine Sys2Proof.Spec
namespace Sys2Proof.Machine

/-! ### Reductions (R142) -/

/-- The reduction of the values `xs`, with `z` the value that the accumulating form adds (R142). -/
def reduced (op t : Nat) (z : Fp) (xs : List Fp) : Fp × Nat :=
  match op with
  | 0 => fpSum xs
  | 1 => fpSum (z :: xs)
  | 2 => (xs.foldl fpMax (if isInt t then .ofQ (Q.int (intMin t)) else .inf true), 0)
  | 3 => (xs.foldl fpMin (if isInt t then .ofQ (Q.int (intMax t)) else .inf false), 0)
  | _ => ((xs.map Fp.abs).foldl fpMax (.zero false), 0)
theorem elems_above_zero {N : Nat} (hN : 0 < N) (c : Nat) :
    (0, c) :: ((List.range N).drop 1).map (fun n => (n, 0)) = (List.range N).map fun n => (n, if n = 0 then c else 0) := by
  obtain ⟨k, rfl⟩ := Nat.exists_eq_succ_of_ne_zero hN.ne'
  simp [List.range_succ_eq_map]
theorem elemCount_pos (t : Nat) : 0 < elemCount t := Nat.div_pos ((elemBits_le t).trans (by decide)) ((by decide : 0 < 4).trans_le (four_le_elemBits t))

theorem vredRun_eq (i : Instr) (d a : BitVec 5) (p : BitVec 3) (op : BitVec 4) (s : State) :
    vredRun i d a p op s =
      let t := s.cur.rt a.toNat
      let w := elemBits t
      vdo i (fun r => [r.srcBad 1 a.toNat fun t => isWide t || (isInt t && op ≠ 4#4)] ++ (if op = 1#4 then [r.srcBad 0 d.toNat (· == t)] else []) ++
          [r.dstBad 0 d.toNat t]) (a.toNat :: (if op = 1#4 then [d.toNat] else []))
        (fun s v =>
          let on := (List.range (elemCount t)).filter fun n => s.cur.act p t [a.toNat] n && s.cur.lane d.toNat w 0
          let r := reduced op.toNat t (elemVal t (getEl (v d.toNat) w 0)) (on.map fun n => elemVal t (getEl (v a.toNat) w n))
          let c := convTo t 0 0 (isInt t) r.1
          .elements d.toNat w t (r.2 ||| c.2) (List.range (elemCount t)) fun n => if n = 0 then c.1 else 0) s := by
  rw [vredRun]
  simp only [elems_above_zero (elemCount_pos _), decide_eq_true_eq]
  rfl
/-- VRED on plain registers of one wide or integer tag. -/
theorem vredRun_gives {i : Instr} {s : State} {m : Bool} {d a : BitVec 5} {p : BitVec 3} {op : BitVec 4} {t : Nat} (ht : s.cur.rt a.toNat = t)
    (hexec : exec i s = issue m 12 i [] (vredRun i d a p op) s) (hnow : s.cur.now = false) (hd : s.cur.streams.get? d.toNat = none)
    (ha : s.cur.streams.get? a.toNat = none) (htag : isWide t = true ∨ isInt t = true ∧ op ≠ 4#4) (hacc : op = 1#4 → s.cur.rt d.toNat = t) :
    let w := elemBits t
    let on := (List.range (512 / w)).filter fun n => (s.cur.rp p.toNat).getLsbD n
    let r := reduced op.toNat t (elemVal t (vel w (s.cur.rv d.toNat) 0)) (on.map fun n => elemVal t (vel w (s.cur.rv a.toNat) n))
    let c := convTo t 0 0 (isInt t) r.1
    ∃ u : State, exec i s = .next (done u m 12) ∧ VecFrame s u [d.toNat] ∧ u.cur.rt d.toNat = t ∧
      u.cur.fflags = s.cur.fflags ||| BitVec.ofNat 6 (r.2 ||| c.2) ∧
      vel w (u.cur.rv d.toNat) 0 = c.1 % 2 ^ w ∧ ∀ n, 1 ≤ n → n < 512 / w → vel w (u.cur.rv d.toNat) n = 0 := by
  intro w on r c
  have hnum : 1 ≤ t ∧ t ≤ 3 ∨ 10 ≤ t ∧ t ≤ 15 := by
    simp only [isWide, isInt, Bool.and_eq_true, decide_eq_true_eq] at htag
    tauto
  have h16 : t < 16 := by omega
  have hcode (x : Nat) : code t x = x := code_eq_self (by omega)
  have hactive : (List.range (elemCount t)).filter (fun n => s.cur.act p t [a.toNat] n && s.cur.lane d.toNat w 0) = on := by
    refine List.filter_congr fun n hn => ?_
    have hlane : s.cur.lane d.toNat w 0 = true := lane_plain hd (by simpa using (elemBits_le t).trans (by decide))
    have hwide : elemBits t ≠ 4 := by
      unfold elemBits
      split <;> omega
    rw [hlane, Bool.and_true, Bool.eq_iff_iff, act_plain (List.mem_range.mp hn) (by simp [ha]), active, if_neg hwide]
  have hA : s.cur.srcBad 1 a.toNat (fun t => isWide t || (isInt t && op ≠ 4#4)) = none := srcBad_plain ha (by simpa [ht] using htag)
  rw [issue_body hnow rfl, vredRun_eq, ht] at hexec
  obtain ⟨u, hu, hframe, -, htu, hflags, hels⟩ := vdo_elements (fl := r.2 ||| c.2) (g := fun n => if n = 0 then c.1 else 0) hexec
    (by simp only [hactive, ← vel_eq_getEl, w]; rfl)
    (by
      by_cases hop : op = 1#4
      · have hD : s.cur.srcBad 0 d.toNat (· == t) = none := srcBad_plain hd (by simp [hacc hop])
        simp [hop] at hA
        simp [hop, hA, hD, dstBad_plain hd]
      · simp at hA
        simp [hop, hA, dstBad_plain hd])
    (by by_cases hop : op = 1#4 <;> simp [hop, ha, hd]) hd h16 List.nodup_range fun n hn => List.mem_range.mp hn
  refine ⟨u, hu, hframe, htu, hflags, ?_, fun n h1 hn => ?_⟩
  · refine (hels 0).trans ((if_pos (List.mem_range.mpr (elemCount_pos t))).trans ?_)
    rw [if_pos rfl, hcode]
  · refine (hels n).trans ((if_pos (List.mem_range.mpr hn)).trans ?_)
    rw [if_neg (by omega), hcode, Nat.zero_mod]

/-! ### The online softmax (R143) -/

/-- The result that writes FP32 lanes of register `d` and the whole state register `e`. -/
def VOut.pair (d e fl : Nat) (push : Option (List Nat)) (idx : List Nat) (g : Nat → Nat) (ev : BitVec 512) : VOut :=
  { d := some d, w := 32, tag := 1, flags := fl, push := push, st := some (e, ev), els := idx.map fun n => (n, g n) }
/-- An instruction whose results are FP32 lanes of one register and a state register, and whose checks pass. -/
theorem vdo_pair {i : Instr} {s : State} {m : Bool} {len d e fl : Nat} {push : Option (List Nat)} {idx : List Nat} {g : Nat → Nat} {ev : BitVec 512}
    {chk : Frame → List (Option (Nat × Nat))} {srcs : List Nat} {work : State → (Nat → BitVec 512) → VOut}
    (hexec : exec i s = .next ((vdo i chk srcs work s).finish m len)) (hwork : work s s.cur.rv = .pair d e fl push idx g ev)
    (hchk : ∀ c ∈ chk s.cur, c = none) (hsrcs : ∀ n ∈ srcs, s.cur.streams.get? n = none) (hd : s.cur.streams.get? d = none)
    (hne : d ≠ e) (hidx : idx.Nodup) (hin : ∀ n ∈ idx, n < 512 / 32) :
    ∃ u : State, exec i s = .next (done u m len) ∧ VecFrame s u [d, e] ∧ u.cur.rt d = 1 ∧ u.cur.rt e = 1 ∧ u.cur.rv e = ev ∧
      ∀ n, vel 32 (u.cur.rv d) n = if n ∈ idx then g n % 2 ^ 32 else vel 32 (s.cur.rv d) n := by
  let o : VOut := .pair d e fl push idx g ev
  have hdest (n : Nat) (h : o.d = some n) : s.cur.streams.get? n = none := Option.some.inj h ▸ hd
  have htwo (n q : Nat) (v : BitVec 512) (hn : o.d = some n) (hq : o.st = some (q, v)) : n ≠ q := by
    cases hn
    cases hq
    exact hne
  rw [vdo_writes_only hwork hchk hsrcs hdest htwo rfl rfl] at hexec
  obtain ⟨hv, ht⟩ := vwritten_dest (s := s) (srcs ++ [d]) (o := o) (n := d) rfl (fun q v h => htwo d q v rfl h)
  obtain ⟨hve, hte⟩ := vwritten_state (s := s) (srcs ++ [d]) (o := o) (e := e) rfl
  refine ⟨_, hexec, vwritten_frame .., ht, hte, hve, fun n => ?_⟩
  exact (congrArg (vel 32 · n) hv).trans (vel_value (o := o) (s.cur.rv d) rfl hidx hin n)

theorem smxChk_plain {r : Frame} {a : Option (BitVec 5)} {e d : BitVec 5} (ha : ∀ q ∈ a, r.streams.get? q.toNat = none ∧ r.rt q.toNat = 1)
    (he : r.streams.get? e.toNat = none) (hte : r.rt e.toNat = 1) (hd : r.streams.get? d.toNat = none) : ∀ c ∈ smxChk a e d r, c = none := by
  have hreads : r.reads e.toNat = none := by simp [Frame.reads, Frame.stream, he]
  have hE : r.srcBad 4 e.toNat fp32Tag = none := srcBad_plain he (by simp [fp32Tag, hte])
  cases a with
  | none => simp [smxChk, hreads, hE, dstBad_plain hd]
  | some q =>
    obtain ⟨hq, htq⟩ := ha q rfl
    have hQ : r.srcBad 1 q.toNat fp32Tag = none := srcBad_plain hq (by simp [fp32Tag, htq])
    simp [smxChk, hreads, hE, hQ, dstBad_plain hd]

theorem vel_smxPut (v : BitVec 512) {l : List Nat} (hl : l.length = 4) (n : Nat) :
    vel 32 (smxPut v l) n = if n < 4 then (l.map (· % 2 ^ 32)).getD n 0 else vel 32 v n := by
  match l, hl with
  | [a, b, c, d], _ =>
    have hfold : smxPut v [a, b, c, d] = setEl (setEl (setEl (setEl v 32 0 a) 32 1 b) 32 2 c) 32 3 d := rfl
    simp only [vel_eq_getEl, hfold]
    repeat rw [getEl_setEl _ _ _ (by decide)]
    match n with
    | 0 | 1 | 2 | 3 => rfl
    | n + 4 => simp
theorem smxStep_length (m l st : Nat) (xs : List (Nat × Fp)) : (smxStep m l st xs).1.length = 4 := by
  unfold smxStep
  dsimp only
  split <;> rfl
theorem smxMerge_length (m l ma la : Nat) : (smxMerge m l ma la).1.length = 4 := by
  unfold smxMerge
  dsimp only
  split <;> rfl
/-- The FP32 code of −∞ is one. -/
theorem fltVal_negInf {c : Nat} (hc : c < 2 ^ 32) : (fltVal 1 c == .inf true) = decide (c = 0xFF800000) := by
  have hfields : c / 2 ^ 31 = 1 ∧ c % 2 ^ 31 / 2 ^ 23 = 255 ∧ c % 2 ^ 31 % 2 ^ 23 = 0 ↔ c = 0xFF800000 := by omega
  have hval : fltVal 1 c = .inf true ↔ c / 2 ^ 31 = 1 ∧ c % 2 ^ 31 / 2 ^ 23 = 255 ∧ c % 2 ^ 31 % 2 ^ 23 = 0 := by
    unfold fltVal
    rw [Nat.mod_eq_of_lt (show c < 2 ^ fltBits 1 from hc)]
    norm_num [fltBits, manBits, expBits, hasInf, isWide]
    split
    · next h255 =>
      split
      · next h0 => simp [h255, h0]
      · next h0 => simp [h0]
    · next h255 => simp [h255]
  rw [Bool.eq_iff_iff, beq_iff_eq, decide_eq_true_eq, hval, hfields]

/-- The lanes that VSMX works on are those whose predicate bit is set. -/
theorem smx_lanes {s : State} {p : BitVec 3} {gs : List Nat} (hg : ∀ g ∈ gs, s.cur.streams.get? g = none) :
    (List.range 16).filter (s.cur.act p 1 gs) = (List.range 16).filter fun n => (s.cur.rp p.toNat).getLsbD n := by
  refine List.filter_congr fun n hn => ?_
  rw [Bool.eq_iff_iff, act_plain (t := 1) (List.mem_range.mp hn) hg]
  exact Iff.rfl
theorem smx_all_lanes {s : State} {d : BitVec 5} (hd : s.cur.streams.get? d.toNat = none) : (List.range 16).filter (s.cur.lane d.toNat 32) = List.range 16 :=
  List.filter_eq_self.mpr fun n hn => lane_plain hd (by have := List.mem_range.mp hn; omega)

section
variable {s : State} {m : Bool} {d a e : BitVec 5} {p : BitVec 3}

/-- What a VSMX instruction of two results does: the lanes `dv` in d, `ev` in e, both FP32. -/
def SmxGives (i : Instr) (s : State) (m : Bool) (d e : BitVec 5) (dv ev : Nat → Nat) : Prop :=
  ∃ u : State, exec i s = .next (done u m 12) ∧ VecFrame s u [d.toNat, e.toNat] ∧ u.cur.rt d.toNat = 1 ∧ u.cur.rt e.toNat = 1 ∧
    ∀ n, n < 16 → vel 32 (u.cur.rv d.toNat) n = dv n ∧ vel 32 (u.cur.rv e.toNat) n = ev n
/-- The state register's lanes with the first four replaced. -/
def smxKeep (s : State) (e : BitVec 5) (l : List Nat) (n : Nat) : Nat := if n < 4 then l.getD n 0 else vel 32 (s.cur.rv e.toNat) n

variable (hnow : s.cur.now = false) (hd : s.cur.streams.get? d.toNat = none) (ha : s.cur.streams.get? a.toNat = none)
  (he : s.cur.streams.get? e.toNat = none) (hne : d ≠ e) (hta : s.cur.rt a.toNat = 1) (hte : s.cur.rt e.toNat = 1)
include hnow he

theorem vsmxInit_gives : ∃ u : State, exec (.vsmxInit m e) s = .next (done u m 12) ∧ VecFrame s u [e.toNat] ∧ u.cur.rt e.toNat = 1 ∧
    ∀ n, n < 16 → vel 32 (u.cur.rv e.toNat) n = smxKeep s e [0xFF800000, 0, 0x3F800000, 0] n := by
  have hexec : exec (.vsmxInit m e) s = issue m 12 (.vsmxInit m e) [] (vsmxInitRun (.vsmxInit m e) e) s := exec_vsmxInit ..
  rw [issue_body hnow rfl, vsmxInitRun] at hexec
  obtain ⟨u, hu, hframe, -, ht, -, hels⟩ := vdo_elements (idx := [0, 1, 2, 3]) (g := fun n => [0xFF800000, 0, 0x3F800000, 0].getD n 0) hexec rfl
    (by simp [dstBad_plain he]) (by simp) he (by decide) (by decide) (by decide)
  refine ⟨u, hu, hframe, ht, fun n _ => (hels n).trans ?_⟩
  match n with
  | 0 | 1 | 2 | 3 => rfl
  | n + 4 => rfl

include hd hne hte

/-- A row whose m is −∞ ends with factor 0 and EMPTY (R143). -/
theorem vsmxFinal_empty (hinf : vel 32 (s.cur.rv e.toNat) 0 = 0xFF800000) : SmxGives (.vsmxFinal m d e) s m d e (fun _ => 0)
    (smxKeep s e [vel 32 (s.cur.rv e.toNat) 0, vel 32 (s.cur.rv e.toNat) 1, vel 32 (s.cur.rv e.toNat) 2, vel 32 (s.cur.rv e.toNat) 3 ||| 1]) := by
  have hexec : exec (.vsmxFinal m d e) s = issue m 12 (.vsmxFinal m d e) [] (vsmxFinalRun (.vsmxFinal m d e) d e) s := exec_vsmxFinal ..
  have hempty : (fltVal 1 (getEl (s.cur.rv e.toNat) 32 0) == .inf true) = true := by
    rw [fltVal_negInf (getEl_lt ..), ← vel_eq_getEl, hinf]
    rfl
  rw [issue_body hnow rfl, vsmxFinalRun] at hexec
  obtain ⟨u, hu, hframe, htd, hte, hev, hels⟩ := vdo_pair (idx := List.range 16) (g := fun _ => 0)
    (ev := setEl (s.cur.rv e.toNat) 32 3 (getEl (s.cur.rv e.toNat) 32 3 ||| 1)) (fl := 0) (push := none) hexec
    (by simp [hempty, smx_all_lanes hd, VOut.pair])
    (smxChk_plain (by simp) he hte hd) (by simp) hd (fun h => hne (BitVec.eq_of_toNat_eq h)) List.nodup_range fun n hn => List.mem_range.mp hn
  refine ⟨u, hu, hframe, htd, hte, fun n hn => ⟨?_, ?_⟩⟩
  · rw [hels, if_pos (List.mem_range.mpr hn)]
    rfl
  · have hlt : vel 32 (s.cur.rv e.toNat) 3 ||| 1 < 2 ^ 32 := Nat.or_lt_two_pow (vel_lt ..) (by decide)
    rw [hev, vel_eq_getEl, getEl_setEl _ _ _ (by decide), ← vel_eq_getEl, ← vel_eq_getEl, Nat.mod_eq_of_lt hlt]
    match n with
    | 0 | 1 | 2 | 3 | n + 4 => rfl
/-- A row with an m above −∞ ends with the reciprocal of l (R143). -/
theorem vsmxFinal_gives (hinf : vel 32 (s.cur.rv e.toNat) 0 ≠ 0xFF800000) : SmxGives (.vsmxFinal m d e) s m d e
    (fun n => if n = 0 then (finish 1 (specialFn 2 (fltVal 1 (vel 32 (s.cur.rv e.toNat) 1)))).1 else 0) (vel 32 (s.cur.rv e.toNat)) := by
  have hexec : exec (.vsmxFinal m d e) s = issue m 12 (.vsmxFinal m d e) [] (vsmxFinalRun (.vsmxFinal m d e) d e) s := exec_vsmxFinal ..
  have hrow : (fltVal 1 (getEl (s.cur.rv e.toNat) 32 0) == .inf true) = false := by
    rw [fltVal_negInf (getEl_lt ..), ← vel_eq_getEl, decide_eq_false hinf]
  have hlane : s.cur.lane d.toNat 32 0 = true := lane_plain hd (by decide)
  let r := finish 1 (specialFn 2 (fltVal 1 (vel 32 (s.cur.rv e.toNat) 1)))
  rw [issue_body hnow rfl, vsmxFinalRun] at hexec
  obtain ⟨u, hu, hframe, htd, hte, hev, hels⟩ := vdo_pair (idx := List.range 16) (g := fun n => if n = 0 then r.1 else 0) (ev := s.cur.rv e.toNat)
    (fl := r.2) (push := none) hexec (by simp [hrow, hlane, smx_all_lanes hd, VOut.pair, r, vel_eq_getEl]) (smxChk_plain (by simp) he hte hd)
    (by simp) hd (fun h => hne (BitVec.eq_of_toNat_eq h)) List.nodup_range fun n hn => List.mem_range.mp hn
  refine ⟨u, hu, hframe, htd, hte, fun n hn => ⟨?_, by rw [hev]⟩⟩
  have hlt : (if n = 0 then r.1 else 0) < 2 ^ 32 := by
    split
    · exact finish_lt 1 _
    · decide
  rw [hels, if_pos (List.mem_range.mpr hn), Nat.mod_eq_of_lt hlt]

include ha hta

/-- VSMX step over the lanes whose predicate bit is set (R143). -/
theorem vsmxStep_gives :
    let on := (List.range 16).filter fun n => (s.cur.rp p.toNat).getLsbD n
    let E := vel 32 (s.cur.rv e.toNat)
    let st := smxStep (E 0) (E 1) (E 3) (on.map fun n => (n, fltVal 1 (vel 32 (s.cur.rv a.toNat) n)))
    SmxGives (.vsmxStep m d a e p) s m d e (fun n => ((st.2.1.find? (·.1 = n)).map (·.2)).getD 0 % 2 ^ 32) (smxKeep s e (st.1.map (· % 2 ^ 32))) := by
  intro on E st
  have hexec : exec (.vsmxStep m d a e p) s = issue m 12 (.vsmxStep m d a e p) [] (vsmxStepRun (.vsmxStep m d a e p) d a e p) s := exec_vsmxStep ..
  have hon := smx_lanes (s := s) (p := p) (gs := [a.toNat, d.toNat]) (by simp [ha, hd])
  rw [issue_body hnow rfl, vsmxStepRun] at hexec
  obtain ⟨u, hu, hframe, htd, hte, hev, hels⟩ := vdo_pair (idx := List.range 16) (g := fun n => ((st.2.1.find? (·.1 = n)).map (·.2)).getD 0)
    (ev := smxPut (s.cur.rv e.toNat) st.1) (fl := st.2.2) (push := some on) hexec (by simp only [hon, ← vel_eq_getEl]; rfl)
    (smxChk_plain (by simp [ha, hta]) he hte hd) (by simp [ha]) hd (fun h => hne (BitVec.eq_of_toNat_eq h)) List.nodup_range
    fun n hn => List.mem_range.mp hn
  refine ⟨u, hu, hframe, htd, hte, fun n hn => ⟨?_, ?_⟩⟩
  · rw [hels, if_pos (List.mem_range.mpr hn)]
  · rw [hev, vel_smxPut _ (smxStep_length ..)]
    rfl

/-- VSMX merge of the states in e and a (R143). -/
theorem vsmxMerge_gives :
    let E := vel 32 (s.cur.rv e.toNat)
    let A := vel 32 (s.cur.rv a.toNat)
    let mg := (smxMerge (E 0) (E 1) (A 0) (A 1)).1
    SmxGives (.vsmxMerge m d a e) s m d e (fun n => if n = 0 then mg.getD 2 0 % 2 ^ 32 else if n = 1 then mg.getD 3 0 % 2 ^ 32 else 0)
      (smxKeep s e ((mg.take 3).map (· % 2 ^ 32) ++ [E 3 ||| A 3])) := by
  intro E A mg
  have hexec : exec (.vsmxMerge m d a e) s = issue m 12 (.vsmxMerge m d a e) [] (vsmxMergeRun (.vsmxMerge m d a e) d a e) s := exec_vsmxMerge ..
  have hlane {n : Nat} (hn : n < 16) : s.cur.lane a.toNat 32 n = true := lane_plain ha (by omega)
  rw [issue_body hnow rfl, vsmxMergeRun] at hexec
  obtain ⟨u, hu, hframe, htd, hte, hev, hels⟩ := vdo_pair (idx := List.range 16)
    (g := fun n => if n = 0 then mg.getD 2 0 else if n = 1 then mg.getD 3 0 else 0)
    (ev := smxPut (s.cur.rv e.toNat) (mg.take 3 ++ [E 3 ||| A 3])) (fl := (smxMerge (E 0) (E 1) (A 0) (A 1)).2) (push := none) hexec
    (by simp [hlane, smx_all_lanes hd, VOut.pair, ← vel_eq_getEl, mg, E, A])
    (smxChk_plain (by simp [ha, hta]) he hte hd) (by simp [ha]) hd (fun h => hne (BitVec.eq_of_toNat_eq h)) List.nodup_range
    fun n hn => List.mem_range.mp hn
  refine ⟨u, hu, hframe, htd, hte, fun n hn => ⟨?_, ?_⟩⟩
  · rw [hels, if_pos (List.mem_range.mpr hn)]
    match n with
    | 0 | 1 | n + 2 => rfl
  · have hlen : (mg.take 3 ++ [E 3 ||| A 3]).length = 4 := by simp [mg, smxMerge_length]
    have hlt : (E 3 ||| A 3) % 2 ^ 32 = E 3 ||| A 3 := Nat.mod_eq_of_lt (Nat.or_lt_two_pow (vel_lt ..) (vel_lt ..))
    rw [hev, vel_smxPut _ hlen, List.map_append, List.map_singleton, hlt]
    rfl

end
end Sys2Proof.Machine
end

section
/-! The statement on reduction and softmax. -/
open Sys2Proof Sys2Proof.Machine Sys2Proof.Spec
namespace Sys2Proof.Proofs

theorem vectorReduce_holds : vectorReduce := by
  unfold vectorReduce
  intro s m d a p op hnow hplain t w int on xs r c htag hop hacc
  have htag' : isWide t = true ∨ isInt t = true ∧ op ≠ 4#4 := by
    refine htag.imp (fun h => by simp [isWide, h]) fun ⟨h, h4⟩ => ⟨by simp [isInt, h.1, h.2], fun h => h4 (h ▸ rfl)⟩
  have hint : isInt t = true ↔ ¬t ≤ 3 := by
    have := htag.imp_right And.left
    simp only [int] at this
    simp only [isInt, Bool.and_eq_true, decide_eq_true_eq]
    omega
  have hbound (x y : Fp) : (if isInt t then x else y) = if t ≤ 3 then y else x := by
    by_cases h3 : t ≤ 3
    · rw [if_pos h3, if_neg (mt hint.mp (not_not_intro h3))]
    · rw [if_neg h3, if_pos (hint.mpr h3)]
  have hred : reduced op.toNat t (elemVal t (vel w (s.cur.rv d.toNat) 0)) xs = r := by
    simp only [r]
    generalize op.toNat = k
    match k with
    | 0 | 1 | n + 4 => rfl
    | 2 | 3 => simp only [reduced, hbound]
  have hfrom : isInt t = decide (10 ≤ t) := by
    rw [Bool.eq_iff_iff, hint, decide_eq_true_eq]
    have := htag.imp_right And.left
    simp only [int] at this
    omega
  have hgives := vredRun_gives (t := t) rfl (exec_vred m d a p op s) hnow (hplain d (by simp)) (hplain a (by simp)) htag' fun h => hacc (h ▸ rfl)
  dsimp only at hgives
  rw [hred, hfrom] at hgives
  exact hgives

theorem onlineSoftmax_holds : onlineSoftmax := by
  unfold onlineSoftmax
  intro s m d a e p hnow hplain hne hta on A E both keep st mg
  have hd : s.cur.streams.get? d.toNat = none := hplain d (by simp)
  have ha : s.cur.streams.get? a.toNat = none := hplain a (by simp)
  have he : s.cur.streams.get? e.toNat = none := hplain e (by simp)
  exact ⟨vsmxInit_gives hnow he, fun hte => ⟨vsmxStep_gives hnow hd ha he hne hta hte, vsmxMerge_gives hnow hd ha he hne hta hte,
    vsmxFinal_empty hnow hd he hne hte, vsmxFinal_gives hnow hd he hne hte⟩⟩

/-- Settles O31: the reduction writes every element of d, the softmax two registers, d and the state register. -/
theorem reductionAndSoftmax : Obligations.ReductionAndSoftmax := ⟨vectorReduce_holds, onlineSoftmax_holds⟩

end Sys2Proof.Proofs
end

section
/-! Conversions, quantisation and dropout of plain vector registers (R138 to R140, R145), and refused tags (R131). -/
open Sys2Proof Sys2Proof.Machine Sys2Proof.Spec
namespace Sys2Proof.Machine

/-! ### Conversions part by part (R138, R140) -/

/-- Whether element `n` of the destination belongs to part `p`, and the source element it comes from. -/
def cvtHere (es ed p n : Nat) : Prop := es ≤ ed → p * es ≤ n ∧ n < (p + 1) * es
def cvtSource (es ed p n : Nat) : Nat := if es ≤ ed then n - p * es else p * ed + n
/-- The destination elements of part `p`. -/
def cvtPlaces (es ed p : Nat) : List Nat := if es ≤ ed then (List.range es).map (p * es + ·) else List.range ed

theorem cvtPairs_eq (es ed p : Nat) : cvtPairs es ed p = (cvtPlaces es ed p).map fun n => (n, cvtSource es ed p n) := by
  unfold cvtPairs cvtPlaces cvtSource
  split
  · simp
  · rfl
theorem nodup_cvtPlaces (es ed p : Nat) : (cvtPlaces es ed p).Nodup := by
  unfold cvtPlaces
  split
  · exact List.nodup_range.map fun _ _ h => Nat.add_left_cancel h
  · exact List.nodup_range
/-- A part that exists lies within both registers. -/
theorem mem_cvtPlaces {es ed p : Nat} (hes : 0 < es) (hp : p < Nat.max (ed / es) (es / ed)) (n : Nat) :
    (n ∈ cvtPlaces es ed p ↔ n < ed ∧ cvtHere es ed p n) ∧ (n ∈ cvtPlaces es ed p → cvtSource es ed p n < es) := by
  unfold cvtPlaces cvtHere cvtSource
  have hp : p < ed / es ∨ p < es / ed := lt_max_iff.mp hp
  by_cases h : es ≤ ed
  · have hpart : (p + 1) * es ≤ ed := by
      refine Nat.mul_le_of_le_div _ _ _ (hp.elim id fun h' => ?_)
      have h1 : es / ed ≤ 1 := Nat.div_le_of_le_mul (by omega)
      have h2 : 1 ≤ ed / es := Nat.div_pos h hes
      omega
    rw [Nat.succ_mul] at hpart ⊢
    simp only [h, if_true, List.mem_map, List.mem_range, forall_const]
    refine ⟨⟨?_, fun ⟨_, hlow, hhigh⟩ => ⟨n - p * es, by omega, by omega⟩⟩, ?_⟩
    · rintro ⟨k, hk, rfl⟩
      omega
    · rintro ⟨k, hk, rfl⟩
      omega
  · have hpart : (p + 1) * ed ≤ es := by
      refine Nat.mul_le_of_le_div _ _ _ (hp.elim (fun h' => ?_) id)
      rw [Nat.div_eq_of_lt (by omega)] at h'
      omega
    rw [Nat.succ_mul] at hpart
    simp only [h, if_false, List.mem_range, false_imp_iff, and_true]
    exact ⟨trivial, fun hn => by omega⟩

theorem foldl_collect (l : List Nat) (act : Nat → Bool) (g : Nat → Nat × Nat) (z : List (Nat × Nat) × Nat) :
    l.foldl (fun z n => if act n then (z.1 ++ [(n, (g n).1)], z.2 ||| (g n).2) else z) z =
      (z.1 ++ (l.filter act).map fun n => (n, (g n).1), (l.filter act).foldl (fun f n => f ||| (g n).2) z.2) := by
  induction l generalizing z with
  | nil => simp
  | cons n l ih => by_cases h : act n <;> simp [h, ih]
/-- The converted elements of a part: those of its places that are active. -/
theorem cvtEls_eq (s : State) (p : BitVec 3) (d a td ta : Nat) (g : Nat → Nat → Nat × Nat) (es ed part : Nat) :
    let on := (cvtPlaces es ed part).filter fun n =>
      s.cur.pbit p td n && s.cur.lane d (elemBits td) n && s.cur.lane a (elemBits ta) (cvtSource es ed part n)
    s.cvtEls p d a td ta (cvtPairs es ed part) g =
      (on.map fun n => (n, (g n (cvtSource es ed part n)).1), on.foldl (fun f n => f ||| (g n (cvtSource es ed part n)).2) 0) := by
  intro on
  rw [State.cvtEls, cvtPairs_eq, List.foldl_map, foldl_collect]
  rfl
/-- An instruction that converts a part of one plain register into another. -/
theorem vecGives_cvt {i : Instr} {s : State} {m : Bool} {len : Nat} {d a : BitVec 5} {p : BitVec 3} {td ta part : Nat}
    {g : Nat → Nat → Nat × Nat} {chk : Frame → List (Option (Nat × Nat))} {work : State → (Nat → BitVec 512) → VOut}
    (hexec : exec i s = .next ((vdo i chk [a.toNat] work s).finish m len))
    (hwork : work s s.cur.rv =
      let z := s.cvtEls p d.toNat a.toNat td ta (cvtPairs (elemCount ta) (elemCount td) part) g
      { d := some d.toNat, w := elemBits td, tag := td, els := z.1, flags := z.2 })
    (hchk : ∀ c ∈ chk s.cur, c = none) (ha : s.cur.streams.get? a.toNat = none) (hd : s.cur.streams.get? d.toNat = none) (htag : td < 16)
    (hpart : part < Nat.max (elemCount td / elemCount ta) (elemCount ta / elemCount td)) (hfit : ∀ n k, (g n k).1 < 2 ^ elemBits td) :
    let src := cvtSource (elemCount ta) (elemCount td) part
    VecGives i s m len d.toNat td (elemBits td) (fun n => cvtHere (elemCount ta) (elemCount td) part n ∧ active s p td n)
      (fun n => (g n (src n)).1) (fun n => (g n (src n)).2) := by
  intro src
  have hplaces := mem_cvtPlaces (elemCount_pos ta) hpart
  have hon (n : Nat) : n ∈ (cvtPlaces (elemCount ta) (elemCount td) part).filter (fun n =>
      s.cur.pbit p td n && s.cur.lane d.toNat (elemBits td) n && s.cur.lane a.toNat (elemBits ta) (src n)) ↔
      n < 512 / elemBits td ∧ cvtHere (elemCount ta) (elemCount td) part n ∧ active s p td n := by
    rw [List.mem_filter, ← and_assoc, ← elemCount, ← (hplaces n).1]
    refine and_congr_right fun hn => ?_
    have hin := ((hplaces n).1.mp hn).1
    rw [lane_plain hd (Nat.mul_le_of_le_div _ _ _ hin), lane_plain ha (Nat.mul_le_of_le_div _ _ _ ((hplaces n).2 hn)), Bool.and_true, Bool.and_true]
    exact pbit_iff hin
  rw [cvtEls_eq] at hwork
  refine vecGives_elements (g := fun n => (g n (src n)).1) hexec hwork hchk (by simpa using ha) hd htag ((nodup_cvtPlaces ..).filter _) hon
    (fun n _ => ?_) fun k => ?_
  · rw [← code_mod_two_pow elemBits_six_bit, Nat.mod_eq_of_lt (hfit ..)]
  · rw [testBit_foldl_or, Nat.zero_testBit]
    simp only [Bool.false_eq_true, false_or]
    exact exists_congr fun n => and_congr_left fun _ => hon n

theorem vcvtRun_gives {i : Instr} {s : State} {m : Bool} {d a : BitVec 5} {b : BitVec 6} {p part mode : BitVec 3} {fmt : BitVec 4} {ta : Nat}
    {regs : List Nat} (hta : s.cur.rt a.toNat = ta) (hexec : exec i s = issue m 12 i regs (vcvtRun i d a b p part mode fmt) s)
    (hnow : s.cur.now = false) (hregs : hazard s.cur regs = none) (ha : s.cur.streams.get? a.toNat = none) (hd : s.cur.streams.get? d.toNat = none)
    (h1 : 1 ≤ ta) (h9 : ta ≠ 9) (hpart : part.toNat < Nat.max (elemCount fmt.toNat / elemCount ta) (elemCount ta / elemCount fmt.toNat)) :
    let src := cvtSource (elemCount ta) (elemCount fmt.toNat) part.toNat
    let cv (n : Nat) : Nat × Nat := convTo fmt.toNat mode.toNat (hsrBits s.myCore.seed (s.x b + BitVec.ofNat 64 n)) (decide (10 ≤ ta))
      (elemVal ta (vel (elemBits ta) (s.cur.rv a.toNat) (src n)))
    VecGives i s m 12 d.toNat fmt.toNat (elemBits fmt.toNat)
      (fun n => cvtHere (elemCount ta) (elemCount fmt.toNat) part.toNat n ∧ active s p fmt.toNat n) (fun n => (cv n).1) (fun n => (cv n).2) := by
  intro src cv
  have hA : s.cur.srcBad 1 a.toNat (fun t => t ≠ 0 && t ≠ 9) = none := srcBad_plain ha (by simp [hta, h9]; omega)
  have hint : isInt ta = decide (10 ≤ ta) := by
    have := hta ▸ rt_lt s.cur a.toNat
    simp only [isInt, Bool.and_eq_left_iff_imp, decide_eq_true_eq]
    omega
  rw [issue_body hnow hregs, vcvtRun, hta] at hexec
  exact vecGives_cvt (g := fun n k => convTo fmt.toNat mode.toNat (hsrBits s.myCore.seed (s.x b + wd n)) (decide (10 ≤ ta))
      (elemVal ta (vel (elemBits ta) (s.cur.rv a.toNat) k))) hexec (by simp only [hint, vel_eq_getEl])
    (by simp at hA; simp [hA, Nat.not_le.mpr hpart, dstBad_plain hd]) ha hd fmt.isLt hpart fun _ _ => convTo_lt ..
theorem dqEl_lt {td : Nat} (h1 : 1 ≤ td) (h3 : td ≤ 3) (mode hsr ta c : Nat) (sc : Word) : (dqEl td mode hsr ta c sc).1 < 2 ^ elemBits td := by
  have hnan : nanCode td < 2 ^ elemBits td := by
    have : td = 1 ∨ td = 2 ∨ td = 3 := by omega
    rcases this with rfl | rfl | rfl <;> decide
  unfold dqEl
  split
  · split
    · exact ite_fst_lt (fun _ => hnan) fun _ => convTo_lt ..
    · exact hnan
  · exact ite_fst_lt (fun _ => hnan) fun _ => convTo_lt ..
theorem elemCount_narrow_wide : ∀ ta < 10, ∀ td < 4, 4 ≤ ta ∧ 1 ≤ td → elemCount td < elemCount ta := by decide
theorem vdqntRun_gives {i : Instr} {s : State} {m : Bool} {d a : BitVec 5} {b e : BitVec 6} {p part mode : BitVec 3} {fmt : BitVec 4} {ta : Nat}
    {regs : List Nat} (hta : s.cur.rt a.toNat = ta) (hexec : exec i s = issue m 12 i regs (vdqntRun i d a b e p part mode fmt) s)
    (hnow : s.cur.now = false) (hregs : hazard s.cur regs = none) (ha : s.cur.streams.get? a.toNat = none) (hd : s.cur.streams.get? d.toNat = none)
    (h4 : 4 ≤ ta) (h9 : ta ≤ 9) (hd1 : 1 ≤ fmt.toNat) (hd3 : fmt.toNat ≤ 3) (hpart : part.toNat < elemCount ta / elemCount fmt.toNat) :
    let src := cvtSource (elemCount ta) (elemCount fmt.toNat) part.toNat
    let dq (n : Nat) : Nat × Nat := dqEl fmt.toNat mode.toNat (hsrBits s.myCore.seed (s.x b + BitVec.ofNat 64 n)) ta
      (vel (elemBits ta) (s.cur.rv a.toNat) (src n)) (s.x e)
    VecGives i s m 12 d.toNat fmt.toNat (elemBits fmt.toNat) (active s p fmt.toNat) (fun n => (dq n).1) (fun n => (dq n).2) := by
  intro src dq
  have hA : s.cur.srcBad 1 a.toNat (fun t => 4 ≤ t && t ≤ 9) = none := srcBad_plain ha (by simp [hta, h4, h9])
  have hmore := elemCount_narrow_wide ta (by omega) fmt.toNat (by omega) ⟨h4, hd1⟩
  have hhere : (fun n => cvtHere (elemCount ta) (elemCount fmt.toNat) part.toNat n ∧ active s p fmt.toNat n) = active s p fmt.toNat := by
    funext n
    exact propext (and_iff_right fun h => absurd h (Nat.not_le.mpr hmore))
  rw [issue_body hnow hregs, vdqntRun, hta] at hexec
  have hgives := vecGives_cvt (g := fun n k => dqEl fmt.toNat mode.toNat (hsrBits s.myCore.seed (s.x b + wd n)) ta
      (vel (elemBits ta) (s.cur.rv a.toNat) k) (s.x e)) (p := p) (td := fmt.toNat) (ta := ta) (part := part.toNat) hexec
    (by simp only [vel_eq_getEl])
    (by simp [hA, Nat.not_le.mpr hpart, dstBad_plain hd]) ha hd fmt.isLt (lt_max_iff.mpr (.inr hpart)) fun _ _ => dqEl_lt hd1 hd3 ..
  rw [hhere] at hgives
  exact hgives

/-! ### Quantisation of a block (R139) -/

theorem length_mxQuant (t mode : Nat) (hsr : Nat → Nat) (l : List Fp) : (mxQuant t mode hsr l).1.length = l.length := by
  unfold mxQuant
  dsimp only
  split
  · simp
  · split <;> simp
theorem length_lq4Quant (mode : Nat) (hsr : Nat → Nat) (sup : Fp) (l : List Fp) : (lq4Quant mode hsr sup l).1.length = l.length := by
  unfold lq4Quant
  split
  · split <;> simp
  · simp
/-- Elements from their number in the block, where all count. -/
theorem zip_range_on {α : Type} {l : List α} {on : Nat → Bool} (hon : ∀ k, k < l.length → on k = true) (z : α) :
    ((List.range l.length).zip l).map (fun e => if on e.1 then e.2 else z) = l := by
  calc _ = ((List.range l.length).zip l).map (·.2) := by
        refine List.map_congr_left fun e he => ?_
        rw [if_pos (hon e.1 (List.mem_range.mp (List.of_mem_zip he).1))]
    _ = l := List.map_snd_zip (by simp)
/-- The codes of a block at consecutive places, all of which count, as elements. -/
theorem zip_places {cs : List Nat} {q : Nat} {on : Nat → Bool} (hon : ∀ n, n < q + cs.length → on n = true) :
    (((List.range cs.length).map (· + q)).zip cs).filter (fun e => on e.1) = ((List.range cs.length).map (· + q)).map fun n => (n, cs.getD (n - q) 0) := by
  have hall : ∀ e ∈ ((List.range cs.length).map (· + q)).zip cs, on e.1 = true := by
    intro e he
    obtain ⟨k, hk, hke⟩ := List.mem_map.mp (List.of_mem_zip he).1
    exact hon _ (by have := List.mem_range.mp hk; omega)
  rw [List.filter_eq_self.mpr hall]
  refine List.ext_getElem (by simp) fun k h1 h2 => ?_
  simp at h1
  simp [h1]
/-- The places of block `part` are those of that quotient. -/
theorem mem_blockPlaces {B : Nat} (hB : 0 < B) (part n : Nat) : n ∈ (List.range B).map (· + part * B) ↔ n / B = part := by
  have hplace : n / B = part ↔ part * B ≤ n ∧ n < part * B + B := by
    rw [Nat.div_eq_iff hB]
    omega
  rw [hplace, List.mem_map]
  exact ⟨fun ⟨k, hk, hkn⟩ => by have := List.mem_range.mp hk; omega,
    fun ⟨hlow, hhigh⟩ => ⟨n - part * B, List.mem_range.mpr (by omega), by omega⟩⟩
/-- The values of consecutive plain registers. -/
theorem values_plain {s : State} {t a g : Nat} (h : ∀ r ∈ (List.range g).map (a + ·), s.cur.streams.get? r = none) :
    ((List.range g).map (· + a)).flatMap (fun n => (List.range (elemCount t)).map fun k =>
      if s.cur.lane n (elemBits t) k then elemVal t (getEl (s.cur.rv n) (elemBits t) k) else Fp.zero false) =
    ((List.range g).map (a + ·)).flatMap fun r => (List.range (elemCount t)).map fun n => elemVal t (vel (elemBits t) (s.cur.rv r) n) := by
  have hsame : (List.range g).map (· + a) = (List.range g).map (a + ·) := List.map_congr_left fun n _ => Nat.add_comm n _
  rw [hsame]
  refine List.flatMap_congr fun r hr => List.map_congr_left fun k hk => ?_
  rw [lane_plain (h r hr) (Nat.mul_le_of_le_div _ _ _ (List.mem_range.mp hk)), if_pos rfl, vel_eq_getEl]

/-- The number of elements of a quantised block (R61, R64). -/
def blockSize (td : Nat) : Nat := if td = 9 then 64 else 32
/-- The codes, scale and flags of a block (R139). -/
def quantised (td mode : Nat) (hsr : Nat → Nat) (sup : Nat) (xs : List Fp) : List Nat × Nat × Nat :=
  if td = 9 then lq4Quant mode hsr (fltVal 1 sup) xs else mxQuant td mode hsr xs
theorem length_quantised (td mode : Nat) (hsr : Nat → Nat) (sup : Nat) (xs : List Fp) : (quantised td mode hsr sup xs).1.length = xs.length := by
  unfold quantised
  split
  · exact length_lq4Quant ..
  · exact length_mxQuant ..
theorem blockSize_wide {t td : Nat} (h1 : 1 ≤ t) (h3 : t ≤ 3) : blockSize td / elemCount t * elemCount t = blockSize td ∧ 1 ≤ blockSize td / elemCount t := by
  have : t = 1 ∨ t = 2 ∨ t = 3 := by omega
  unfold blockSize
  rcases this with rfl | rfl | rfl <;> split <;> decide

/-- VQNT of plain registers: the block's codes in their places of d, and the scale in an x register. -/
theorem vqntRun_gives {i : Instr} {s : State} {m : Bool} {d a : BitVec 5} {b e : BitVec 6} {part mode : BitVec 3} {fmt : BitVec 4} {ta td : Nat}
    {regs : List Nat} (hta : s.cur.rt a.toNat = ta) (htd : fmt.toNat = td) (hexec : exec i s = issue m 12 i regs (vqntRun i d a b e part mode fmt) s)
    (hnow : s.cur.now = false) (hregs : hazard s.cur regs = none) (ha : s.cur.streams.get? a.toNat = none) (hd : s.cur.streams.get? d.toNat = none)
    (h1 : 1 ≤ ta) (h3 : ta ≤ 3) (hpart : part.toNat < elemCount td / blockSize td) (hfirst : a.toNat % (blockSize td / elemCount ta) = 0)
    (hrs : ∀ r ∈ (List.range (blockSize td / elemCount ta)).map (a.toNat + ·), s.cur.rt r = ta ∧ s.cur.streams.get? r = none) :
    let xs := ((List.range (blockSize td / elemCount ta)).map (a.toNat + ·)).flatMap fun r =>
      (List.range (elemCount ta)).map fun n => elemVal ta (vel (elemBits ta) (s.cur.rv r) n)
    let q := quantised td mode.toNat (fun n => hsrBits s.myCore.seed (s.x b + BitVec.ofNat 64 n)) (s.x e).toNat xs
    ∃ u : State, exec i s = .next (done (u.wvar e (BitVec.ofNat 64 q.2.1)) m 12) ∧ VecFrame s u [d.toNat] ∧ u.cur.rt d.toNat = td ∧
      ∀ n, n < elemCount td → vel (elemBits td) (u.cur.rv d.toNat) n =
        if n / blockSize td = part.toNat then code td (q.1.getD (n % blockSize td) 0) % 2 ^ elemBits td else vel (elemBits td) (s.cur.rv d.toNat) n := by
  obtain ⟨hblock, hg1⟩ := blockSize_wide (td := td) h1 h3
  generalize hg : blockSize td / elemCount ta = g at *
  intro xs q
  have hpos : 0 < blockSize td := by
    unfold blockSize
    split <;> decide
  have hend : part.toNat * blockSize td + blockSize td ≤ elemCount td := by
    rw [← Nat.succ_mul]
    exact Nat.mul_le_of_le_div _ _ _ hpart
  have hlane {n : Nat} (hn : n < part.toNat * blockSize td + blockSize td) : s.cur.lane d.toNat (elemBits td) n = true :=
    lane_plain hd (Nat.mul_le_of_le_div _ _ _ (hn.trans_le hend))
  have hlen : xs.length = blockSize td := by simp [xs, Function.comp_def, List.length_flatMap, hblock]
  have hcodes : q.1.length = blockSize td := (length_quantised ..).trans hlen
  have hon : ((List.range (blockSize td)).zip xs).map (fun e =>
      if s.cur.lane d.toNat (elemBits td) (part.toNat * blockSize td + e.1) then e.2 else Fp.zero false) = xs := by
    have := zip_range_on (l := xs) (on := fun k => s.cur.lane d.toNat (elemBits td) (part.toNat * blockSize td + k))
      (fun k hk => hlane (by omega)) (Fp.zero false)
    rwa [hlen] at this
  have hels := zip_places (cs := q.1) (q := part.toNat * blockSize td) (on := s.cur.lane d.toNat (elemBits td)) fun n hn => hlane (hcodes ▸ hn)
  rw [hcodes] at hels
  have hA : s.cur.srcBad 1 a.toNat isWide = none := srcBad_plain ha (by simp [hta, isWide, h1, h3])
  have hmax : max 1 (blockSize td / elemCount ta) = g := by rw [hg, Nat.max_eq_right hg1]
  rw [issue_body hnow hregs, vqntRun, hta, htd] at hexec
  have hblk : (if td = 9 then 64 else 32) = blockSize td := rfl
  simp only [hblk, hmax] at hexec
  have htags : ∀ k < g, s.cur.rt (k + a.toNat) = ta := fun k hk => (hrs _ (by simpa [Nat.add_comm] using hk)).1
  have hstream : ((List.range g).map (· + a.toNat)).any (fun n => (s.cur.stream n).isSome) = false := by
    rw [List.any_eq_false]
    intro r hr
    simp [Frame.stream, (hrs r (by simpa [Nat.add_comm] using hr)).2]
  obtain ⟨u, hu, hframe, -, htu, -, helems⟩ := vdo_dest (d := d.toNat) (idx := (List.range (blockSize td)).map (· + part.toNat * blockSize td))
    (g := fun n => q.1.getD (n - part.toNat * blockSize td) 0)
    (o := { d := some d.toNat, w := elemBits td, tag := td, flags := q.2.2, x := [(e, wd q.2.1)], els := _ })
    hexec (by simp only [values_plain fun r hr => (hrs r hr).2, hon, xs]; rfl) rfl rfl rfl hels
    (by simpa [hA, hfirst, dstBad_plain hd, hstream, Nat.not_le.mpr hpart] using htags) (by split <;> simp [ha]) hd (htd ▸ fmt.isLt)
    (List.nodup_range.map fun _ _ h => Nat.add_right_cancel h)
    (by
      intro n hn
      obtain ⟨k, hk, rfl⟩ := List.mem_map.mp hn
      have := List.mem_range.mp hk
      exact (by omega : k + part.toNat * blockSize td < part.toNat * blockSize td + blockSize td).trans_le hend)
  refine ⟨u, hu, hframe, htu, fun n hn => (helems n).trans ?_⟩
  have hmem := mem_blockPlaces hpos part.toNat n
  by_cases h : n / blockSize td = part.toNat
  · have hrest : n - part.toNat * blockSize td = n % blockSize td := by
      rw [← h, Nat.mul_comm, Nat.sub_eq_iff_eq_add' (Nat.mul_div_le ..), Nat.div_add_mod]
    rw [if_pos (hmem.mpr h), if_pos h, hrest]
  · rw [if_neg (mt hmem.mp h), if_neg h]

/-! ### Dropout (R145) -/

theorem wide_elemCount_le {t : Nat} (h1 : 1 ≤ t) (h3 : t ≤ 3) : elemCount t ≤ 64 := by
  have : t = 1 ∨ t = 2 ∨ t = 3 := by omega
  rcases this with rfl | rfl | rfl <;> decide

/-- VDROP of plain registers: each element kept and scaled, or zero, and its bit in the predicate. -/
theorem vdropRun_gives {i : Instr} {s : State} {m : Bool} {d a : BitVec 5} {b e : BitVec 6} {p : BitVec 3} {scale : BitVec 32} {t : Nat}
    {regs : List Nat} (ht : s.cur.rt a.toNat = t) (hexec : exec i s = issue m 12 i regs (vdropRun i d a b e p scale) s)
    (hnow : s.cur.now = false) (hregs : hazard s.cur regs = none) (ha : s.cur.streams.get? a.toNat = none) (hd : s.cur.streams.get? d.toNat = none)
    (hwide : isWide t = true) (hp : p ≠ 0#3) :
    let w := elemBits t
    let keep (n : Nat) : Prop := (mix64 ((s.x b + BitVec.ofNat 64 (w / 8 * n)) ^^^ mix64 s.myCore.seed)).toNat / 2 ^ 32 < (s.x e).toNat % 2 ^ 32
    ∃ u : State, exec i s = .next (done u m 12) ∧ VecFrame s u [d.toNat] ∧ u.cur.rt d.toNat = t ∧
      ∀ n, n < elemCount t → ((u.cur.rp p.toNat).getLsbD n = true ↔ keep n) ∧ (¬keep n → vel w (u.cur.rv d.toNat) n = 0) ∧
        (keep n → vel w (u.cur.rv d.toNat) n = (finish t (fpMul (elemVal t (vel w (s.cur.rv a.toNat) n)) (fltVal 1 scale.toNat))).1) := by
  intro w keep
  have hnum : 1 ≤ t ∧ t ≤ 3 := by simpa [isWide] using hwide
  let kept (n : Nat) : Bool := s.cur.lane a.toNat w n && s.cur.lane d.toNat w n && randBits s.myCore.seed (s.x b + wd (w / 8 * n)) < fld (s.x e) 0 32
  have hkept {n : Nat} (hn : n < elemCount t) : kept n = true ↔ keep n := by
    have hin := Nat.mul_le_of_le_div _ _ _ hn
    have hla : s.cur.lane a.toNat w n = true := lane_plain ha hin
    have hld : s.cur.lane d.toNat w n = true := lane_plain hd hin
    simp only [kept, hla, hld, Bool.true_and, decide_eq_true_eq, fld_eq, Nat.pow_zero, Nat.div_one]
    exact Iff.rfl
  let r (n : Nat) : Nat × Nat := if kept n then finish t (fpMul (elemVal t (vel w (s.cur.rv a.toNat) n)) (fltVal 1 scale.toNat)) else (0, 0)
  rw [issue_body hnow hregs, vdropRun, ht] at hexec
  let z := elwise (elemCount t) (fun _ => true) r
  let o : VOut := { d := some d.toNat, w := w, tag := t, els := z.1, flags := z.2, p := [(p, wd (bitSum kept (elemCount t)))] }
  obtain ⟨u, hu, hframe, hpreds, htu, -, hels⟩ := vdo_dest (d := d.toNat) (o := o) (idx := List.range (elemCount t)) (g := fun n => (r n).1)
    hexec (by simp only [← vel_eq_getEl]; rfl) rfl rfl rfl (by simp [o, z, elwise_eq]) (by simp [srcBad_plain ha, hwide, ht, dstBad_plain hd]) (by simp [ha]) hd
    (show t < 16 by omega) List.nodup_range (fun n hn => List.mem_range.mp hn)
  obtain ⟨hbits, -⟩ := rp_predsAfter hpreds hp
  refine ⟨u, hu, hframe, htu, fun n hn => ?_⟩
  have h64 : n < 64 := hn.trans_le (wide_elemCount_le hnum.1 hnum.2)
  have hel : vel w (u.cur.rv d.toNat) n = (r n).1 := by
    have hlt : (r n).1 < 2 ^ w := by
      simp only [r]
      split
      · exact finish_lt ..
      · exact Nat.two_pow_pos w
    have hcode : code t (r n).1 = (r n).1 := code_eq_self (by omega)
    exact ((hels n).trans (if_pos (List.mem_range.mpr hn))).trans ((congrArg (· % 2 ^ w) hcode).trans (Nat.mod_eq_of_lt hlt))
  refine ⟨?_, fun h => ?_, fun h => ?_⟩
  · rw [hbits, getLsbD_wd_bitSum _ _ h64, ← hkept hn]
    exact and_iff_right hn
  · rw [hel]
    simp [r, mt (hkept hn).mp h]
  · rw [hel]
    simp [r, (hkept hn).mpr h]

/-! ### Refused tags (R131) -/

theorem srcBad_refused {r : Frame} {f n : Nat} {ok : Nat → Bool} (h : r.streams.get? n = none) (ho : ok (r.rt n) = false) :
    r.srcBad f n ok = some (f, r.rt n) := by
  simp [Frame.srcBad, Frame.writes, Frame.stream, h, ho]
/-- A program cause that the issuing firing takes at once leaves the handler's state (R126). -/
theorem raise_handler {s : State} {t : Trap} (h : TakesTrap s s.turn s.fi) (hc : t.cause < 0x80) :
    s.raise s.turn s.fi t s.cur.pc = trapState s t s.cur.pc := by
  obtain ⟨hcore, hhandler, htvec, hunret, hwaits, hdef, hbody⟩ := h
  rw [raise_own _ _ _ _ _ hbody, takeTrap_core _ _ _ _ _ hcore, enterTrap_handler _ _ _ _ _ hc hhandler htvec hunret hwaits hdef]
  rfl
/-- A vector instruction whose first failing check is `q` raises FORMAT for it, before any effect. -/
theorem vdo_traps {i : Instr} {s : State} {m : Bool} {len : Nat} {chk : Frame → List (Option (Nat × Nat))} {srcs : List Nat}
    {work : State → (Nat → BitVec 512) → VOut} {q : Nat × Nat} (hexec : exec i s = .next ((vdo i chk srcs work s).finish m len))
    (hchk : (chk s.cur).findSome? id = some q) (htakes : TakesTrap s s.turn s.fi) :
    exec i s = .next (trapState s ⟨8, (firstWord i).zeroExtend 64, BitVec.ofNat 64 q.1, BitVec.ofNat 64 q.2⟩ s.cur.pc) := by
  rw [hexec, vdo, hchk]
  exact congrArg _ (raise_handler htakes (show (8 : Nat) < 0x80 by decide))

end Sys2Proof.Machine
end

section
/-! The statement on conversions. -/
open Sys2Proof Sys2Proof.Machine Sys2Proof.Spec
namespace Sys2Proof.Proofs

theorem vectorConvert_holds : vectorConvert := by
  unfold vectorConvert
  intro s m d a bx ex p part mode fmt scale hready hplain ta td es ed wa src here hsr cv dq blk g rs xs q keep
  have hnow : s.cur.now = false := hready.1
  have hd : s.cur.streams.get? d.toNat = none := hplain d (by simp)
  have ha : s.cur.streams.get? a.toNat = none := hplain a (by simp)
  have hboth : hazard s.cur [rX bx, rX ex] = none := hazard_none hready.2
  have hone : hazard s.cur [rX bx] = none := hazard_none fun n hn => hready.2 n (List.mem_cons.mpr (.inl (List.mem_singleton.mp hn)))
  refine ⟨fun h1 h9 hpart => ?cvt, fun h4 h9 hd1 hd3 hpart => ?dqnt, fun h1 h3 h4 h9 hpart hfirst hrs => ?qnt, fun h1 h3 hp => ?drop⟩
  case cvt => exact vcvtRun_gives (ta := ta) rfl (exec_vcvt ..) hnow hone ha hd h1 h9 hpart
  case dqnt => exact vdqntRun_gives (ta := ta) rfl (exec_vdqnt ..) hnow hboth ha hd h4 h9 hd1 hd3 hpart
  case qnt => exact vqntRun_gives (ta := ta) (td := td) rfl rfl (exec_vqnt ..) hnow hboth ha hd h1 h3 hpart hfirst hrs
  case drop => exact vdropRun_gives (t := ta) rfl (exec_vdrop ..) hnow hboth ha hd (by simp [isWide, h1, h3]) hp

theorem vectorFormat_holds : vectorFormat := by
  unfold vectorFormat
  intro s m d a b p i hnow hplain htakes hi ta tb traps
  have hd : s.cur.streams.get? d.toNat = none := hplain d (by simp)
  have ha : s.cur.streams.get? a.toNat = none := hplain a (by simp)
  have hb : s.cur.streams.get? b.toNat = none := hplain b (by simp)
  obtain ⟨rd, g, hexec, hrd⟩ : ∃ rd g, exec i s = issue m 4 i [] (vfltRun i d a (some b) rd p g) s ∧
      ((i = .vfma m d a b p ∨ i = .vfms m d a b p) → rd = true) := by
    simp only [List.mem_cons, List.not_mem_nil, or_false] at hi
    rcases hi with rfl | rfl | rfl | rfl | rfl | rfl | rfl
    · exact ⟨false, _, exec_vadd .., by simp⟩
    · exact ⟨false, _, exec_vsub .., by simp⟩
    · exact ⟨false, _, exec_vmul .., by simp⟩
    · exact ⟨false, _, exec_vmax .., by simp⟩
    · exact ⟨false, _, exec_vmin .., by simp⟩
    · exact ⟨true, _, exec_vfma .., fun _ => rfl⟩
    · exact ⟨true, _, exec_vfms .., fun _ => rfl⟩
  rw [issue_body hnow rfl, vfltRun] at hexec
  have hwide (h1 : 1 ≤ ta) (h3 : ta ≤ 3) : s.cur.srcBad 1 a.toNat isWide = none := srcBad_plain ha (by simp [isWide, h1, h3, ta])
  refine ⟨fun h => vdo_traps (q := (1, ta)) hexec ?first htakes, fun h1 h3 h => vdo_traps (q := (2, tb)) hexec ?second htakes,
    fun h1 h3 hsame h hthree => vdo_traps (q := (0, s.cur.rt d.toNat)) hexec ?third htakes⟩
  case first =>
    have hbad : s.cur.srcBad 1 a.toNat isWide = some (1, ta) := srcBad_refused ha (by simp [isWide, ta] at h ⊢; omega)
    simp [hbad]
  case second =>
    have hbad : s.cur.srcBad 2 b.toNat (· == ta) = some (2, tb) := srcBad_refused hb (beq_false_of_ne h)
    simp [hwide h1 h3, hbad, ta]
  case third =>
    have hB : s.cur.srcBad 2 b.toNat (· == ta) = none := srcBad_plain hb (beq_iff_eq.mpr hsame)
    have hbad : s.cur.srcBad 0 d.toNat (· == ta) = some (0, s.cur.rt d.toNat) := srcBad_refused hd (beq_false_of_ne h)
    simp [hwide h1 h3, hB, hrd hthree, hbad, ta]

/-- Settles O32: conversions part by part, blocks and dropout by a lemma each, and FORMAT from the first of the checks that fails. -/
theorem vectorConversions : Obligations.VectorConversions := ⟨vectorConvert_holds, vectorFormat_holds⟩

end Sys2Proof.Proofs
end

section
/-! Vector loads and stores (R130, R133). -/
open Sys2Proof Sys2Proof.Machine Sys2Proof.Spec
namespace Sys2Proof.Machine

/-- The bytes of a plain register whose elements are active. -/
theorem actBytes_plain {s : State} {g : Nat} (hg : s.cur.streams.get? g = none) (p : BitVec 3) (t : Nat) :
    s.cur.actBytes p t g = (List.range 64).filter fun b => (s.cur.rp p.toNat).getLsbD (if elemBits t = 4 then b else 8 * b / elemBits t) := by
  refine List.filter_congr fun b hb => Bool.eq_iff_iff.mpr ?_
  have h64 : b < 64 := List.mem_range.mp hb
  have hin : 8 * b / elemBits t < elemCount t := by
    unfold elemCount elemBits
    split <;> omega
  rw [act_plain hin (by simpa using hg), active]
  by_cases h : elemBits t = 4
  · have hbyte : 8 * b / 4 / 2 = b := by omega
    simp only [h, if_true, hbyte]
  · simp only [h, if_false]
/-- Codes laid at distinct places in order, as elements. -/
theorem zip_idxOf {ks cs : List Nat} (hks : ks.Nodup) (hlen : cs.length = ks.length) :
    ks.zip cs = ks.map fun k => (k, cs.getD (ks.idxOf k) 0) := by
  refine List.ext_getElem (by simp [hlen]) fun j h1 h2 => ?_
  simp at h1
  simp [hks.idxOf_getElem, h1]

/-- VLD of a plain register, after its run of bytes. -/
theorem vldRun_gives {i : Instr} {s s' : State} {m : Bool} {d : BitVec 5} {a : BitVec 6} {p : BitVec 3} {fmt : BitVec 4} {off : BitVec 32}
    {regs bs : List Nat} {l : List (BitVec 8)} (hexec : exec i s = issue m 12 i regs (vldRun i d a p fmt off) s) (hnow : s.cur.now = false)
    (hregs : hazard s.cur regs = none) (hd : s.cur.streams.get? d.toNat = none) (hcur : s'.cur = s.cur)
    (hbs : s.cur.actBytes p fmt.toNat d.toNat = bs)
    (hload : let ea := s.x a + off.signExtend 64
      let as := bs.map fun b => (ea + wd b).toNat
      s.loadRun i ea as (max 1 (elemBits fmt.toNat / 8)) 64 0 (Straddle.vec as) State.byteNow = .got s' l) (hlen : l.length = bs.length) :
    ∃ u : State, exec i s = .next (done u m 12) ∧ VecFrame s' u [d.toNat] ∧ u.cur.rt d.toNat = fmt.toNat ∧
      (∀ b, b < 64 → b ∉ bs → vel 8 (u.cur.rv d.toNat) b = vel 8 (s.cur.rv d.toNat) b) ∧
      ∀ j (h : j < bs.length), vel 8 (u.cur.rv d.toNat) bs[j] = code fmt.toNat (l.getD j 0#8).toNat := by
  have hnodup : bs.Nodup := hbs ▸ List.nodup_range.filter _
  have hin : ∀ b ∈ bs, b < 512 / 8 := fun b hb => List.mem_range.mp (List.mem_filter.mp (hbs ▸ hb : b ∈ s.cur.actBytes p fmt.toNat d.toNat)).1
  have hd' : s'.cur.streams.get? d.toNat = none := by rw [hcur, hd]
  let o : VOut := .elements d.toNat 8 fmt.toNat 0 bs fun b => (l.map (·.toNat)).getD (bs.idxOf b) 0
  have hwork : ({ d := some d.toNat, w := 8, tag := fmt.toNat, els := bs.zip (l.map (·.toNat)) } : VOut) = o := by
    rw [zip_idxOf hnodup (by simp [hlen])]
    rfl
  have hvdo : vdo i (fun _ => []) [] (fun _ _ => { d := some d.toNat, w := 8, tag := fmt.toNat, els := bs.zip (l.map (·.toNat)) }) s' =
      .ok (s'.vwritten [d.toNat] o) :=
    vdo_writes_only (s := s') (chk := fun _ => []) (srcs := []) (o := o) hwork (by simp) (by simp) (by simpa [o, VOut.elements] using hd') (by simp [o, VOut.elements]) rfl rfl
  have hbody : vldRun i d a p fmt off s = .ok (s'.vwritten [d.toNat] o) := by
    simp only [vldRun, dstBad_plain hd, hbs]
    rw [hload]
    exact hvdo
  rw [issue_body hnow hregs, hbody] at hexec
  obtain ⟨hv, ht⟩ := vwritten_dest (s := s') [d.toNat] (o := o) rfl (by simp [o, VOut.elements])
  have hels := fun b => vel_value (o := o) (s'.cur.rv d.toNat) rfl hnodup hin b
  rw [hcur] at hv hels
  refine ⟨_, hexec, vwritten_frame s' [d.toNat] o, ht.trans (Nat.mod_eq_of_lt fmt.isLt), fun b _ hb => ?_, fun j hj => ?_⟩
  · rw [hv]
    exact (hels b).trans (if_neg hb)
  · have hbyte : (l.map (·.toNat)).getD (bs.idxOf bs[j]) 0 = (l.getD j 0#8).toNat := by
      rw [hnodup.idxOf_getElem]
      simp [hlen, hj]
    rw [hv]
    refine ((hels bs[j]).trans (if_pos (List.getElem_mem hj))).trans ?_
    rw [hbyte]
    exact Nat.mod_eq_of_lt ((code_le ..).trans_lt (BitVec.isLt _))

/-- VST of a plain register, after its run of bytes. -/
theorem vstRun_gives {i : Instr} {s s' : State} {m : Bool} {d : BitVec 5} {a : BitVec 6} {p : BitVec 3} {off : BitVec 32} {regs bs : List Nat}
    (hexec : exec i s = issue m 12 i regs (vstRun i d a p off) s) (hnow : s.cur.now = false) (hregs : hazard s.cur regs = none)
    (hd : s.cur.streams.get? d.toNat = none) (hcur : s'.cur = s.cur) (hbs : s.cur.actBytes p (s.cur.rt d.toNat) d.toNat = bs)
    (hstore : let ea := s.x a + off.signExtend 64
      let u := max 1 (elemBits (s.cur.rt d.toNat) / 8)
      s.storeRun i ea u (bs.map fun b => ((ea + wd b).toNat, BitVec.ofNat 8 (getEl (s.cur.rv d.toNat) 8 b))) u 64
        (Straddle.vec (bs.map fun b => (ea + wd b).toNat)) = .got s' ()) :
    ∃ u : State, exec i s = .next (done u m 12) ∧ VecFrame s' u [] ∧ u.cur.p = s.cur.p ∧ u.cur.fflags = s.cur.fflags := by
  have hbody : vstRun i d a p off s = .ok (s'.vwritten [d.toNat] {}) := by
    simp only [vstRun, srcBad_plain hd, pops_plain s i [d.toNat] (by simpa using hd), Got.res, hbs, vval_nil]
    rw [hstore]
    rfl
  rw [issue_body hnow hregs, hbody] at hexec
  obtain ⟨hflags, hp⟩ := vwritten_flags s' [d.toNat] {}
  refine ⟨_, hexec, vwritten_frame s' [d.toNat] {}, ?_, ?_⟩
  · rw [hp, hcur]
    rfl
  · rw [hflags, hcur]
    exact BitVec.or_zero

end Sys2Proof.Machine
end

section
/-! The statement on vector loads and stores. -/
open Sys2Proof Sys2Proof.Machine Sys2Proof.Spec
namespace Sys2Proof.Proofs

/-- Settles O34: the run of bytes is the hypothesis; the bytes it covers are those whose element's predicate bit is set. -/
theorem vectorLoadStore : Obligations.VectorLoadStore := by
  unfold Obligations.VectorLoadStore
  intro s s' m d a p fmt off l hready hplain hcur ea bytes t td at_
  have hd : s.cur.streams.get? d.toNat = none := hplain d (by simp)
  have hregs : hazard s.cur [rX a] = none := hazard_none hready.2
  refine ⟨fun hload hlen => ?load, fun hstore => ?store⟩
  case load => exact vldRun_gives (exec_vld ..) hready.1 hregs hd hcur (actBytes_plain hd ..) hload hlen
  case store =>
    simp only [vel_eq_getEl] at hstore
    exact vstRun_gives (exec_vst ..) hready.1 hregs hd hcur (actBytes_plain hd ..) hstore

end Sys2Proof.Proofs
end

section
/-! Streams of vector registers (R148, R150, R152). -/
open Sys2Proof Sys2Proof.Machine Sys2Proof.Spec
namespace Sys2Proof.Machine

/-! ### VSTRM and VSTOP -/

/-- The units of the stream of a descriptor that is not refused. -/
theorem mkStream_total {ws : List Word} (h : (mkStream ws).bad = false) :
    let g (n : Nat) : Nat := (ws.getD n 0#64).toNat
    (mkStream ws).st.total = (g 2 % 2 ^ 32) * (if g 1 / 32 % 4 ≥ 2 then g 2 / 2 ^ 32 else 1) * (if g 1 / 32 % 4 = 3 then g 3 % 2 ^ 32 else 1) := by
  intro g
  have hlevels : fld (ws.getD 1 0#64) 5 2 = g 1 / 32 % 4 := fld_eq ..
  have hn0 : fld (ws.getD 2 0#64) 0 32 = g 2 % 2 ^ 32 := by rw [fld_eq, Nat.pow_zero, Nat.div_one]
  have hn1 : fld (ws.getD 2 0#64) 32 32 = g 2 / 2 ^ 32 := (fld_eq ..).trans (Nat.mod_eq_of_lt (Nat.div_lt_of_lt_mul (ws.getD 2 0#64).isLt))
  have hn2 : fld (ws.getD 3 0#64) 0 32 = g 3 % 2 ^ 32 := by rw [fld_eq, Nat.pow_zero, Nat.div_one]
  have hsome : g 1 / 32 % 4 ≠ 0 := by
    intro hzero
    simp [mkStream, hlevels, hzero, -List.getD_eq_getElem?_getD] at h
  have h0 : 0 < g 1 / 32 % 4 := Nat.pos_of_ne_zero hsome
  have h1 : 1 < g 1 / 32 % 4 ↔ g 1 / 32 % 4 ≥ 2 := Iff.rfl
  have h2 : 2 < g 1 / 32 % 4 ↔ g 1 / 32 % 4 = 3 := by omega
  simp only [mkStream, Stream.total, hlevels, hn0, hn1, hn2, h0, h1, h2, if_true]

/-- VSTRM over no write stream, with a descriptor that is not refused. -/
theorem vstrmRun_gives {i : Instr} {s s' : State} {m : Bool} {d : BitVec 5} {a : BitVec 6} {off : BitVec 32} {regs : List Nat} {ws : List Word}
    (hexec : exec i s = issue m 12 i regs (vstrmRun i d a off) s) (hnow : s.cur.now = false) (hregs : hazard s.cur regs = none)
    (hd : s.cur.writes d.toNat = none) (hwords : s.loadWords i (s.x a + off.signExtend 64) 8 = .got s' ws) (hcur : s'.cur = s.cur)
    (hgood : (mkStream ws).bad = false)
    (halign : ∀ v ∈ ws.getD 0 0#64 :: (ws.drop 4).take (mkStream ws).levels, v.toNat % (mkStream ws).st.unit = 0) :
    ∃ u : State, exec i s = .next (done u m 12) ∧
      u.cur.streams.get? d.toNat = some { (mkStream ws).st with snap := s'.streamSnap (mkStream ws).st } ∧
      u.cur.rt d.toNat = (mkStream ws).st.fmt.toNat ∧ u.mem = s'.mem ∧ u.cur.x = s.cur.x := by
  have haligned : ((ws.getD 0 0#64 :: (ws.drop 4).take (mkStream ws).levels).any fun v => v.toNat % (mkStream ws).st.unit ≠ 0) = false :=
    List.any_eq_false.mpr fun v hv => by simp [halign v hv]
  let u := s'.updCur fun r => { r with
    streams := r.streams.put d.toNat { (mkStream ws).st with snap := s'.streamSnap (mkStream ws).st }
    vtag := r.vtag.put d.toNat (mkStream ws).st.fmt, seq := (64 + d.toNat) :: r.seq }
  have hbody : vstrmRun i d a off s = .ok u := by
    simp only [vstrmRun, hd, Option.isSome_none, Bool.false_and, Bool.false_eq_true, if_false, hwords, Got.res, hgood, haligned]
    rfl
  rw [issue_body hnow hregs, hbody] at hexec
  refine ⟨u, hexec, ?_, ?_, rfl, ?_⟩
  · simp [u]
  · simp [u, Frame.rt]
  · simp [u, hcur]

/-- VSTOP on a register that is no stream. -/
theorem vstopRun_none {s : State} (d : BitVec 6) {a : BitVec 5} (ha : s.cur.streams.get? a.toNat = none) : vstopRun d a s = .ok (s.wvar d 0#64) := by
  simp only [vstopRun, Frame.stream, ha]
/-- VSTOP on a stream, its stores performed where it writes. -/
theorem vstopRun_some {s : State} (d : BitVec 6) {a : BitVec 5} {st : Stream} (ha : s.cur.streams.get? a.toNat = some st)
    (hdue : st.write = true → s.ownDue = false) (hfew : st.total - st.pos < 2 ^ 64) :
    vstopRun d a s = .ok ((s.updCur fun r => { r with streams := r.streams.del a.toNat }).wvar d (BitVec.ofNat 64 (st.total - st.pos))) := by
  have hgo : (st.write && s.ownDue) = false := by
    cases hw : st.write with
    | false => rfl
    | true => exact hdue hw
  have hmin : min (st.total - st.pos) (2 ^ 64 - 1) = st.total - st.pos := Nat.min_eq_left (Nat.le_sub_one_of_lt hfew)
  simp only [vstopRun, Frame.stream, ha, hgo, hmin]
  rfl

/-! ### A pop -/

theorem get?_map {α : Type} (t : Tab α) (g : Nat → α → α) (k : Nat) : (t.map g).get? k = (t.get? k).map (g k) := by
  obtain ⟨l⟩ := t
  simp only [Tab.get?, Tab.map]
  induction l with
  | nil => rfl
  | cons e l ih =>
    simp only [List.map_cons, Tab.look, ih]
    split
    · next h => simp [h]
    · rfl
theorem ofBytes_take (l : List (BitVec 8)) (n : Nat) : ofBytes (l.take n) = ofBytes l % 256 ^ n := by
  induction n generalizing l with
  | zero => simp [ofBytes, Nat.mod_one]
  | succ n ih =>
    cases l with
    | nil => simp [ofBytes]
    | cons b l =>
      have hb : b.toNat < 256 := b.isLt
      have hdiv : (b.toNat + 256 * ofBytes l) / 256 = ofBytes l := by omega
      have hmod : (b.toNat + 256 * ofBytes l) % 256 = b.toNat := by omega
      rw [List.take_succ_cons, ofBytes, ih, ofBytes, Nat.pow_succ', Nat.mod_mul, hdiv, hmod]
theorem ofBytes_drop (l : List (BitVec 8)) (n : Nat) : ofBytes (l.drop n) = ofBytes l / 256 ^ n := by
  induction n generalizing l with
  | zero => simp
  | succ n ih =>
    cases l with
    | nil => simp [ofBytes]
    | cons b l =>
      have hb : b.toNat < 256 := b.isLt
      have hdiv : (b.toNat + 256 * ofBytes l) / 256 = ofBytes l := by omega
      rw [List.drop_succ_cons, ih, ofBytes, Nat.pow_succ', ← Nat.div_div_eq_div_mul, hdiv]
theorem ofBytes_lt (l : List (BitVec 8)) : ofBytes l < 256 ^ l.length := by
  have h := ofBytes_take l l.length
  rw [List.take_length] at h
  rw [h]
  exact Nat.mod_lt _ (Nat.pow_pos (by decide))
theorem toNat_ofNat_of_lt {w x : Nat} (h : x < 2 ^ w) : (BitVec.ofNat w x).toNat = x := by rw [BitVec.toNat_ofNat, Nat.mod_eq_of_lt h]
/-- A 32-bit element of a register filled from 64 bytes is four of them. -/
theorem vel_ofBytes {l : List (BitVec 8)} (hl : l.length = 64) (n : Nat) :
    vel 32 (BitVec.ofNat 512 (ofBytes l)) n = ofBytes ((l.drop (4 * n)).take 4) := by
  have hpow (k : Nat) : (256 : Nat) ^ k = 2 ^ (8 * k) := Nat.pow_mul 2 8 k |>.symm
  have h512 : 8 * l.length = 512 := by omega
  have hlt : ofBytes l < 2 ^ 512 := by
    rw [← h512, ← hpow]
    exact ofBytes_lt l
  have hbits : 8 * (4 * n) = 32 * n := by omega
  rw [ofBytes_take, ofBytes_drop, vel, toNat_ofNat_of_lt hlt, hpow (4 * n), hpow 4, hbits]

/-- The frame with a popped value in its register. -/
def Frame.withPop (r : Frame) (n : Nat) (v : BitVec 512) : Frame := { r with v := r.v.put n v }
theorem rv_withPop (r : Frame) (n : Nat) (v : BitVec 512) : (r.withPop n v).rv n = v := by simp [Frame.withPop, Frame.rv]
theorem rv_withPop_ne (r : Frame) {n k : Nat} (v : BitVec 512) (h : k ≠ n) : (r.withPop n v).rv k = r.rv k := Tab.get_put_ne _ _ _ h
theorem vput_pop (r : Frame) (named : List Nat) (a : Nat) (v x : BitVec 512) (o : VOut) (last : Bool) :
    r.vput named [(a, v)] o x last = (r.withPop a v).vput named [] o x last := rfl
theorem setCur_setCur (s : State) (r q : Frame) : (s.setCur r).setCur q = s.setCur q := setFr_setFr s _ _ r q
/-- The streams named take their step. -/
theorem vwritten_streams (s : State) (named : List Nat) (o : VOut) : (s.vwritten named o).cur.streams =
    s.cur.streams.map fun n st => if named.contains n then { st with pos := st.pos + st.next } else st := by
  rw [State.vwritten, updCur_eq, cur_setCur, Frame.vput]
  simp only [List.foldl_nil, foldl_wp, Bool.false_eq_true, if_false]
  cases o.d <;> cases o.st <;> rfl

/-- An instruction whose one source is a read stream with a whole step left, and whose result is one register that is no stream: the popped
bytes stand in the source, which moves on, and the result is calculated from them. -/
theorem vdo_pop {i : Instr} {s s' : State} {chk : Frame → List (Option (Nat × Nat))} {a d : Nat} {st : Stream} {l : List (BitVec 8)}
    {work : State → (Nat → BitVec 512) → VOut} {o : VOut} (hchk : ∀ c ∈ chk s.cur, c = none) (ha : s.cur.streams.get? a = some st)
    (hread : st.write = false) (hwide : st.fmt ≠ 6#4 ∧ st.fmt ≠ 7#4) (hd : s.cur.streams.get? d = none) (hcur : s'.cur = s.cur)
    (hl : l.length = 64)
    (hload : s.loadRun i (wd (st.bytesAt.headD 0)) st.bytesAt 1 (st.perStep * st.unit) 0 (Straddle.vec st.bytesAt) st.byte = .got s' l)
    (hwork : work s' (s.cur.withPop a (BitVec.ofNat 512 (ofBytes l))).rv = o) (hod : o.d = some d) (host : o.st = none) (hox : o.x = []) :
    vdo i chk [a] work s = .ok ((s'.setCur (s.cur.withPop a (BitVec.ofNat 512 (ofBytes l)))).vwritten [a, d] o).ticked := by
  have hnone : (chk s.cur).findSome? id = none := List.findSome?_eq_none_iff.mpr hchk
  have hreads : s.cur.reads a = some st := by simp [Frame.reads, Frame.stream, ha, hread]
  have hvalue : BitVec.ofNat 512 (ofBytes l + (s'.cur.rv a).toNat >>> (8 * l.length) <<< (8 * l.length)) = BitVec.ofNat 512 (ofBytes l) := by
    have h512 : 8 * l.length = 512 := by omega
    have hlt : (s'.cur.rv a).toNat < 2 ^ (8 * l.length) := by simpa only [h512] using (s'.cur.rv a).isLt
    rw [Nat.shiftRight_eq_div_pow, Nat.div_eq_of_lt hlt, Nat.zero_shiftLeft, Nat.add_zero]
  have hpops : s.pops i [a].eraseDups = .got s' [(a, BitVec.ofNat 512 (ofBytes l))] := by
    have : [a].eraseDups = [a] := by simp [List.eraseDups_cons]
    rw [this]
    simp only [State.pops, hreads, hload, Got.bind, hvalue, hwide, decide_false, Bool.or_false, Bool.false_eq_true, if_false]
  have hvals : s'.vval [(a, BitVec.ofNat 512 (ofBytes l))] = (s.cur.withPop a (BitVec.ofNat 512 (ofBytes l))).rv := by
    funext n
    by_cases hn : a = n
    · subst hn
      simp [State.vval, rv_withPop]
    · simp [State.vval, hn, hcur, rv_withPop_ne s.cur _ (Ne.symm hn)]
  have hpush (v : BitVec 512) : s'.vpush i o v = .got s' () := by
    refine vpush_plain s' i o v fun n hn => ?_
    rw [hcur, ← Option.some.inj (hod.symm.trans hn), hd]
  rw [vdo, hnone, hpops]
  simp only [Got.res, hvals, hwork, hpush, hod, host, hox, List.foldl_nil]
  simp only [State.vwritten, VOut.result, hod, hcur, updCur_eq, cur_setCur, setCur_setCur, vput_pop, Option.toList_some, List.cons_append,
    List.nil_append, Bool.false_and, Bool.false_or, Bool.or_true, List.isEmpty_cons, Bool.not_false, if_true]

/-- What such an instruction leaves: the stream moved on, the popped value, and the result over what its register held. -/
theorem vdo_pop_elements {i : Instr} {s s' : State} {m : Bool} {len a d w tag fl : Nat} {chk : Frame → List (Option (Nat × Nat))} {st : Stream}
    {l : List (BitVec 8)} {work : State → (Nat → BitVec 512) → VOut} {idx : List Nat} {g : Nat → Nat}
    (hexec : exec i s = .next ((vdo i chk [a] work s).finish m len)) (hchk : ∀ c ∈ chk s.cur, c = none) (ha : s.cur.streams.get? a = some st)
    (hread : st.write = false) (hwide : st.fmt ≠ 6#4 ∧ st.fmt ≠ 7#4) (hd : s.cur.streams.get? d = none) (hcur : s'.cur = s.cur) (hne : a ≠ d)
    (hl : l.length = 64)
    (hload : s.loadRun i (wd (st.bytesAt.headD 0)) st.bytesAt 1 (st.perStep * st.unit) 0 (Straddle.vec st.bytesAt) st.byte = .got s' l)
    (hwork : work s' (s.cur.withPop a (BitVec.ofNat 512 (ofBytes l))).rv = .elements d w tag fl idx g) :
    ∃ u : State, exec i s = .next (done u m len) ∧ u.mem = s'.mem ∧ u.cur.streams.get? a = some { st with pos := st.pos + st.next } ∧
      u.cur.rv a = BitVec.ofNat 512 (ofBytes l) ∧ u.cur.rv d = (VOut.elements d w tag fl idx g).value (s.cur.rv d) := by
  rw [vdo_pop hchk ha hread hwide hd hcur hl hload hwork rfl rfl rfl] at hexec
  let q := s'.setCur (s.cur.withPop a (BitVec.ofNat 512 (ofBytes l)))
  let o := VOut.elements d w tag fl idx g
  have hq : q.cur = s.cur.withPop a (BitVec.ofNat 512 (ofBytes l)) := cur_setCur ..
  obtain ⟨hdest, -⟩ := vwritten_dest (s := q) [a, d] (o := o) rfl (by simp [o, VOut.elements])
  obtain ⟨hother, -⟩ := (vwritten_frame q [a, d] o).1 a (by simpa [o, VOut.elements, VOut.dests] using hne)
  refine ⟨_, hexec, rfl, ?_, ?_, ?_⟩
  · have hstreams : (s.cur.withPop a (BitVec.ofNat 512 (ofBytes l))).streams.get? a = some st := ha
    rw [cur_ticked, vwritten_streams, get?_map, hq, hstreams]
    simp
  · rw [cur_ticked, hother, hq, rv_withPop]
  · rw [cur_ticked, hdest, hq, rv_withPop_ne _ _ (Ne.symm hne)]

theorem headD_bytesAt {st : Stream} (h : 0 < st.next) : st.bytesAt.headD 0 = st.addr st.pos := by
  obtain ⟨n, hn⟩ := Nat.exists_eq_succ_of_ne_zero h.ne'
  obtain ⟨k, hk⟩ : ∃ k : Nat, st.unit = k.succ := Nat.exists_eq_succ_of_ne_zero (Nat.one_le_iff_ne_zero.mp (Nat.le_max_left 1 (elemBits st.fmt.toNat / 8)))
  rw [Stream.bytesAt, hn, hk, List.range_succ_eq_map, List.range_succ_eq_map]
  simp
/-- VABS of a whole step of an FP32 read stream. -/
theorem vabsRun_pop {i : Instr} {s s' : State} {m : Bool} {d a : BitVec 5} {st : Stream} {l : List (BitVec 8)}
    (hexec : exec i s = issue m 4 i [] (vfltRun i d a none false 0#3 fun _ x _ => (x.abs, 0)) s) (hnow : s.cur.now = false)
    (ha : s.cur.streams.get? a.toNat = some st) (hread : st.write = false) (hta : s.cur.rt a.toNat = 1) (hfmt : st.fmt = 1#4)
    (hd : s.cur.streams.get? d.toNat = none) (hne : a ≠ d) (hmore : st.pos + 16 ≤ st.total) (hcur : s'.cur = s.cur) (hl : l.length = 64)
    (hload : s.loadRun i (BitVec.ofNat 64 (st.addr st.pos)) st.bytesAt 1 64 0 (Straddle.vec st.bytesAt) st.byte = .got s' l) :
    ∃ u : State, exec i s = .next (done u m 4) ∧ u.mem = s'.mem ∧ u.cur.streams.get? a.toNat = some { st with pos := st.pos + 16 } ∧
      ∀ n, n < 16 → vel 32 (u.cur.rv a.toNat) n = ofBytes ((l.drop (4 * n)).take 4) ∧
        vel 32 (u.cur.rv d.toNat) n = (finish 1 ((fltVal 1 (ofBytes ((l.drop (4 * n)).take 4))).abs, 0)).1 := by
  have hunit : st.unit = 4 := by
    rw [Stream.unit, hfmt]
    decide
  have hstep : st.perStep = 16 := by rw [Stream.perStep, hunit]
  have hnext : st.next = 16 := by
    rw [Stream.next, hstep]
    omega
  have hact : (List.range (512 / 32)).filter (s'.cur.act 0#3 1 [d.toNat, a.toNat]) = List.range 16 := by
    refine List.filter_eq_self.mpr fun n hn => ?_
    have h16 : n < 16 := List.mem_range.mp hn
    have hld : s.cur.lane d.toNat 32 n = true := lane_plain hd (by omega)
    have hla : s.cur.lane a.toNat 32 n = true := by
      simp only [Frame.lane, Frame.laneBytes, Frame.stream, ha, hnext, hunit, decide_eq_true_eq]
      omega
    have hp : s.cur.pbit 0#3 1 n = true := (pbit_iff h16).mpr (active_p0 s h16)
    simp only [hcur, Frame.act, hp, elemBits, List.all_cons, List.all_nil, hld, hla, Bool.and_true]
  let r (n : Nat) : Nat × Nat := finish 1 ((fltVal 1 (vel 32 (BitVec.ofNat 512 (ofBytes l)) n)).abs, 0)
  let fl := (List.range 16).foldl (fun f n => f ||| (r n).2) 0
  rw [issue_body hnow rfl, vfltRun, hta] at hexec
  have hwritten : s.cur.writes a.toNat = none := by simp [Frame.writes, Frame.stream, ha, hread]
  have hsrc : s.cur.srcBad 1 a.toNat isWide = none := by simp [Frame.srcBad, hwritten, hta, isWide]
  obtain ⟨u, hu, hmem, hstream, hva, hvd⟩ := vdo_pop_elements (w := 32) (tag := 1) (idx := List.range 16) (g := fun n => (r n).1)
    (fl := fl) hexec (by simp [hsrc, dstBad_plain hd]) ha hread (by simp [hfmt]) hd hcur
    (fun h => hne (BitVec.eq_of_toNat_eq h)) hl (by rwa [hstep, hunit, headD_bytesAt (by omega)]) (by
      simp only [elwise_eq, elemCount, elemBits, Option.toList_none, List.map_nil, List.append_nil, Bool.false_eq_true, if_false, hact,
        ← vel_eq_getEl, rv_withPop]
      rfl)
  refine ⟨u, hu, hmem, by rw [hstream, hnext], fun n hn => ⟨by rw [hva, vel_ofBytes hl], ?_⟩⟩
  have hel := vel_value (o := .elements d.toNat 32 1 fl (List.range 16) fun n => (r n).1) (s.cur.rv d.toNat) rfl List.nodup_range
    (fun k hk => by simpa [VOut.elements] using hk) n
  rw [if_pos (List.mem_range.mpr hn)] at hel
  have hcode : code 1 (r n).1 = (r n).1 := code_eq_self (by decide)
  rw [hvd, ← vel_ofBytes hl]
  exact hel.trans ((congrArg (· % 2 ^ 32) hcode).trans (Nat.mod_eq_of_lt (finish_lt ..)))

end Sys2Proof.Machine
end

section
/-! The statement on streams. -/
open Sys2Proof Sys2Proof.Machine Sys2Proof.Spec
namespace Sys2Proof.Proofs

theorem streams_holds : streams := by
  unfold streams
  intro s s' m d a dx ax off ws l st hready hcur q g
  have hnow : s.cur.now = false := hready.1
  have hdx : hazard s.cur [rX dx] = none := hazard_none fun n hn => hready.2 n (List.mem_cons.mpr (.inl (List.mem_singleton.mp hn)))
  have hax : hazard s.cur [rX ax] = none := hazard_none fun n hn => hready.2 n (List.mem_cons_of_mem _ hn)
  refine ⟨fun hd hwords hgood halign => ?start, fun ha => ?nothing, fun ha hdue hfew => ?stop,
    fun ha hread hta hfmt hd hne hmore hl hload => ?pop⟩
  case start =>
    have hlevels : (mkStream ws).levels = g 1 / 32 % 4 := fld_eq ..
    have hcode : fld (ws.getD 1 0#64) 0 4 = g 1 % 16 := by
      rw [fld_eq, Nat.pow_zero, Nat.div_one]
      rfl
    have htag : q.fmt.toNat = g 1 % 16 := by
      show fld (ws.getD 1 0#64) 0 4 % 16 = g 1 % 16
      rw [hcode, Nat.mod_mod]
    have hwrite : q.write = decide (g 1 / 16 % 2 = 1) := by
      show decide (fld (ws.getD 1 0#64) 4 1 = 1) = _
      rw [fld_eq]
      rfl
    obtain ⟨u, hu, hstream, hrt, hmem, hx⟩ := vstrmRun_gives (exec_vstrm ..) hnow hax hd hwords hcur hgood (by rwa [hlevels])
    exact ⟨u, hu, hstream, hrt.trans htag, rfl, htag, rfl, hwrite, mkStream_total hgood, hmem, hx⟩
  case nothing =>
    rw [exec_vstop, execVstop, issue_body hnow hdx, vstopRun_none dx ha]
    rfl
  case stop =>
    rw [exec_vstop, execVstop, issue_body hnow hdx, vstopRun_some dx ha hdue hfew]
    refine ⟨_, rfl, ?_, ?_, ?_, rfl⟩ <;> simp
  case pop => exact vabsRun_pop (exec_vabs ..) hnow ha hread hta hfmt hd hne hmore hcur hl hload

end Sys2Proof.Proofs
end

section
/-! Format tags and vector loops (R146, R154, R156). -/
open Sys2Proof Sys2Proof.Machine Sys2Proof.Spec
namespace Sys2Proof.Machine

/-! ### Tags -/

/-- FMTGET of a plain register. -/
theorem fmtgetRun_gives {i : Instr} {s : State} {m : Bool} {d : BitVec 6} {a : BitVec 5} {regs : List Nat}
    (hexec : exec i s = issue m 12 i regs (fmtgetRun i d a false) s) (hnow : s.cur.now = false) (hregs : hazard s.cur regs = none)
    (ha : s.cur.streams.get? a.toNat = none) :
    ∃ t, exec i s = .next (done (t.wvar d (BitVec.ofNat 64 (s.cur.rt a.toNat))) m 12) ∧ VecFrame s t [] := by
  rw [issue_body hnow hregs, fmtgetRun, if_neg Bool.false_ne_true] at hexec
  obtain ⟨t, ht, hframe, -⟩ := vdo_word (v := BitVec.ofNat 64 (s.cur.rt a.toNat)) (used := false) hexec rfl (by simp [srcBad_plain ha]) (by simp [ha])
  exact ⟨t, ht, hframe⟩
/-- FMTSET of a plain register. -/
theorem fmtsetRun_gives {i : Instr} {s : State} {m : Bool} {d : BitVec 5} {fmt : BitVec 4} {regs : List Nat}
    (hexec : exec i s = issue m 12 i regs (fmtsetRun i d false fmt) s) (hnow : s.cur.now = false) (hregs : hazard s.cur regs = none)
    (hd : s.cur.streams.get? d.toNat = none) :
    ∃ t, exec i s = .next (done t m 12) ∧ VecFrame s t [d.toNat] ∧ t.cur.rt d.toNat = fmt.toNat ∧ t.cur.rv d.toNat = s.cur.rv d.toNat := by
  let o : VOut := { d := some d.toNat, w := 8, tag := fmt.toNat, push := some (List.range 64) }
  rw [issue_body hnow hregs, fmtsetRun, if_neg Bool.false_ne_true,
    vdo_writes_only (o := o) rfl (by simp [dstBad_plain hd]) (by simp) (by simpa [o] using hd) (by simp [o]) rfl rfl] at hexec
  obtain ⟨hv, ht⟩ := vwritten_dest (s := s) ([] ++ o.d.toList) (o := o) rfl (by simp [o])
  exact ⟨_, hexec, vwritten_frame .., ht.trans (Nat.mod_eq_of_lt fmt.isLt), hv⟩
/-- An instruction on a tile below ACCS, with the engine idle, acts at once. -/
theorem tileOp_idle {i : Instr} {s : State} {t : Nat} {g : State → Res} (ht : t < fld s.myCore.partw 16 5) (hqueue : s.myCore.mx.queue = [])
    (hrun : s.myCore.mx.running = []) : tileOp i t g s = g s := by
  simp [tileOp, pwAccs, Nat.not_le.mpr ht, hqueue, hrun]

/-! ### Loops -/

/-- A loop whose body stands in `b` runs it from its iteration and index on. -/
theorem vloopRun_body {i : Instr} {s s' : State} {a : BitVec 6} {cnt : BitVec 4} {b : List (List (BitVec 32))} {it k : Nat}
    (hwords : s.loopWords i cnt = .got s' b) (hat : s'.cur.vloop.getD (0, 0) = (it, k)) (hsaved : s'.cur.saved = []) :
    vloopRun i a cnt s = match loopRun (b.map bodyFn) ((s'.x a).toNat % 2 ^ 32 - it) it k s' with
      | .fin u => .to (u.updCur (·.unloop)) (loopEnd s'.cur.pc b)
      | .trap u t => .to (u.updCur (·.bodyFault t)) (loopEnd s'.cur.pc b)
      | .hold u h it k => .hold (u.updCur fun f => { f with vloop := some (it, k), loopW := encode i :: b }) h := by
  have hgo : s'.cur.saved ≠ [60] := by simp [hsaved]
  have hpasses : fld (s'.x a) 0 32 = (s'.x a).toNat % 2 ^ 32 := by rw [fld_eq, Nat.pow_zero, Nat.div_one]
  simp only [vloopRun, hwords, Got.res, hat, hgo, if_false, hpasses] <;> rfl
theorem bodyFault_or (r : Frame) (t : Trap) :
    r.bodyFault t = { r with vloop := none, loopW := [], deferred := r.deferred ++ [t], body := r.body.or (some t) } := by
  have hfirst : (r.body.orElse fun _ => some t) = r.body.or (some t) := by cases r.body <;> rfl
  rw [Frame.bodyFault, hfirst]
  rfl

end Sys2Proof.Machine
end

section
/-! The statements on streams, tags and loops. -/
open Sys2Proof Sys2Proof.Machine Sys2Proof.Spec
namespace Sys2Proof.Proofs

theorem tagsAndLoops_holds : tagsAndLoops := by
  unfold tagsAndLoops
  intro s s' u m d a dx ax fmt cnt b hready hplain
  have hnow : s.cur.now = false := hready.1
  have hdx : hazard s.cur [rX dx] = none := hazard_none fun n hn => hready.2 n (List.mem_cons.mpr (.inl (List.mem_singleton.mp hn)))
  have hax : hazard s.cur [rX ax] = none := hazard_none fun n hn => hready.2 n (List.mem_cons_of_mem _ hn)
  refine ⟨fmtgetRun_gives (exec_fmtget ..) hnow hdx (hplain a (by simp)), fmtsetRun_gives (exec_fmtset ..) hnow rfl (hplain d (by simp)),
    fun ht hqueue hrun => ⟨?get, ?set⟩, ?loop⟩
  case get =>
    rw [exec_fmtget, execFmtget, issue_body hnow hdx, fmtgetRun, if_pos rfl, tileOp_idle ht hqueue hrun]
    rfl
  case set =>
    rw [exec_fmtset, execFmtset, issue_body hnow rfl, fmtsetRun, if_pos rfl, tileOp_idle ht hqueue hrun]
    rfl
  case loop =>
    intro i runs
    have hruns {s' : State} {it k : Nat} (hwords : s.loopWords i cnt = .got s' b) (hat : s'.cur.vloop.getD (0, 0) = (it, k))
        (hsaved : s'.cur.saved = []) : runs s' ((s'.x ax).toNat % 2 ^ 32) it k := by
      have hexec : exec i s = .next ((vloopRun i ax cnt s).finish m 12) := (exec_vloop ..).trans (issue_body hnow hax)
      rw [vloopRun_body hwords hat hsaved] at hexec
      refine ⟨fun hend => ?_, fun t hend => ?_, fun h it k hend => ?_⟩ <;> rw [hexec, hend]
      · rfl
      · simp only [bodyFault_or]
        rfl
      · rfl
    refine ⟨fun hfresh hbody hvloop hsaved => hruns ?_ (by rw [hvloop]; rfl) hsaved, fun w it k hkept hvloop hsaved => hruns ?_ (by rw [hvloop]; rfl) hsaved⟩
    · rw [State.loopWords, hfresh, hbody]
    · rw [State.loopWords, hkept]

/-- Settles O35: streams by the writes of VSTRM, VSTOP and of one popped step, tags by their instructions' writes, loops by the run of the body. -/
theorem streamsTagsAndLoops : Obligations.StreamsTagsAndLoops := ⟨streams_holds, tagsAndLoops_holds⟩

end Sys2Proof.Proofs
end

section
/-! Commands entering the engines, waits for an engine, its status words, and declared buffers (R157 to R185). -/
open Sys2Proof Sys2Proof.Machine Sys2Proof.Spec
namespace Sys2Proof.Machine

/-- A firing that is ready issues an instruction whose registers are among those it is ready for. -/
theorem issue_ready {m : Bool} {len : Nat} {i : Instr} {regs named : List Nat} {body : State → Res} {s : State} (h : Ready s named)
    (hsub : ∀ n ∈ regs, n ∈ named) : issue m len i regs body s = .next ((body s).finish m len) :=
  issue_body h.1 (hazard_none fun n hn => h.2 n (hsub n hn))

/-- Bit 59 of W3 is RLX (R158). -/
theorem rlx_iff (w : Word) : rlx w = true ↔ w.toNat / 2 ^ 59 % 2 = 1 := by simp [rlx, fld_eq]
/-- The hold of a command for its release does not apply: it is relaxed, or nothing is waited for. -/
theorem release_free {s : State} {w : Word} {wide : Bool} {mask : Nat} (h : w.toNat / 2 ^ 59 % 2 = 0 → s.relWaits wide mask = false) :
    (!rlx w && s.relWaits wide mask) = false := by
  rcases Nat.mod_two_eq_zero_or_one (w.toNat / 2 ^ 59) with h0 | h1
  · rw [h h0, Bool.and_false]
  · rw [(rlx_iff w).mpr h1]; rfl

/-! ### Acceptance (R157, R162, R164) -/

theorem mxFix_who (s : State) (k : Nat) (c : Cmd) : (s.mxFix k c).who = c.who := by
  unfold State.mxFix
  dsimp only
  split
  · rfl
  · split <;> rfl
theorem fi_setCore_mine {s : State} {c : Core} (h : c.issuing = s.myCore.issuing) : (s.setCore s.turn c).fi = s.fi := by
  rw [State.fi, setCore_turn, core_setCore_self, h]
  rfl
/-- A matrix command of the issuing firing enters the queue, and the firing's summary counts it. -/
theorem accept_matrix {s : State} {c : Cmd} (hwho : c.who = .firing s.fi) : s.accept s.turn false c =
    (s.updMine fun v => { v with
      mx := { v.mx with count := (v.mx.count + 1) % 65536, queue := v.mx.queue ++ [{ c with seq := (v.mx.count + 1) % 65536 }] }
      bufs := moveBufs v c }).setCur { s.cur with
        mxs := { s.cur.mxs with seq := (s.myCore.mx.count + 1) % 65536, open_ := s.cur.mxs.open_ + 1 } } := by
  rw [State.accept, updMine_eq, State.setCur, setCore_turn, fi_setCore_mine]
  · simp only [hwho, Bool.false_eq_true, if_false]
    rfl
  · rfl
/-- So does a copy, of which those that may start do. -/
theorem accept_copy {s : State} {c : Cmd} (hwho : c.who = .firing s.fi) : s.accept s.turn true c =
    (s.updMine fun v => { v with
      cp := kickCopies 16 { v.cp with count := (v.cp.count + 1) % 65536, queue := v.cp.queue ++ [{ c with seq := (v.cp.count + 1) % 65536 }] }
      bufs := moveBufs v c }).setCur { s.cur with
        cps := { s.cur.cps with seq := (s.myCore.cp.count + 1) % 65536, open_ := s.cur.cps.open_ + 1 } } := by
  rw [State.accept, updMine_eq, State.setCur, setCore_turn, fi_setCore_mine]
  · simp only [hwho, if_true]
    rfl
  · rfl
/-- Copies start in the order of the queue. -/
theorem kickCopies_keeps_order (n : Nat) (e : Engine) : (kickCopies n e).running ++ (kickCopies n e).queue = e.running ++ e.queue := by
  induction n generalizing e with
  | zero => rfl
  | succ n ih =>
    unfold kickCopies
    split
    · rfl
    · next c r hq =>
      split
      · rw [ih, hq, List.append_assoc]; rfl
      · rfl
theorem kickCopies_count (n : Nat) (e : Engine) : (kickCopies n e).count = e.count := by
  induction n generalizing e with
  | zero => rfl
  | succ n ih =>
    unfold kickCopies
    split
    · rfl
    · split
      · rw [ih]
      · rfl

/-! ### Buffers of an accepted command (R185) -/

theorem state_foldl_put (l : List Nat) (v : Nat) (t : Tab Buf) (j : Nat) :
    ((l.foldl (fun t n => t.put n { t.get n {} with state := v }) t).get j {}).state = if j ∈ l then v else (t.get j {}).state := by
  induction l generalizing t with
  | nil => simp
  | cons n l ih =>
    rw [List.foldl_cons, ih, Tab.get_put]
    by_cases hj : j ∈ l <;> by_cases hn : j = n <;> simp [hj, hn]
theorem moveBufs_drains {c : Core} {m : Cmd} {j : Nat} (h : j ∈ m.drains) : ((moveBufs c m).get j {}).state = 3 := by
  rw [moveBufs, state_foldl_put, if_pos h]
theorem moveBufs_fills {c : Core} {m : Cmd} {j : Nat} (h : j ∈ m.fills) (hd : j ∉ m.drains) : ((moveBufs c m).get j {}).state = 1 := by
  rw [moveBufs, state_foldl_put, if_neg hd, state_foldl_put, if_pos h]

/-! ### Issue (R157, R164, R170) -/

theorem full_matrix {c : Core} (h : c.mx.queue.length < 2) : c.full false = false := by simp [Core.full, h]
theorem full_copy {c : Core} (h : c.cp.queue.length < 2) (hall : c.cp.queue.length + c.cp.running.length < 16) : c.full true = false := by
  simp [Core.full, h, hall]
/-- A command of four words that no check refuses is accepted. -/
theorem cmdIssue_accepts {i : Instr} {m : Bool} {regs named : List Nat} {cp : Bool} {op : Nat} {w : State → Word × Word × Word × Word}
    {w0 w1 w2 w3 : Word} {s : State} {c : Cmd} (hready : Ready s named) (hsub : ∀ n ∈ regs, n ∈ named) (hw : w s = (w0, w1, w2, w3))
    (hload : s.loadWait = false) (hfull : s.myCore.full cp = false) (hrel : w3.toNat / 2 ^ 59 % 2 = 0 → s.relWaits false 0xFFFF = false)
    (hc : c = if cp then cpCmd s op w0 w1 w2 w3 else mxCmd s op w0 w1 w2 w3)
    (hok : (if cp then s.cpyBad s.turn c else s.mxBad s.turn c) = none) :
    cmdIssue i m regs cp op w s = .next (done (s.accept s.turn cp c) m 12) := by
  change c = if cp then s.cpyFix s.turn _ else s.mxFix s.turn _ at hc
  rw [cmdIssue, issue_ready hready hsub]
  simp only [hload, hfull, hw, ← hc, hok, release_free hrel, Bool.or_self, Bool.false_eq_true, if_false]
  rfl
/-- MXCLR of a tile below ACCS is accepted. -/
theorem execMxclr_accepts {s : State} {named : List Nat} (m : Bool) {d : BitVec 4} (i32 : Bool) (hready : Ready s named) (hload : s.loadWait = false)
    (hfull : s.myCore.full false = false) (hd : d.toNat < fld s.myCore.partw 16 5) : execMxclr m d i32 s = .next (done (s.accept s.turn false
      { op := 3, w0 := 0#64, w1 := 0#64, w2 := BitVec.ofNat 64 (d.toNat + (if i32 then 14 else 1) * 256), w3 := 0#64, who := .firing s.fi }) m 4) := by
  have htile : fld (wd (d.toNat + (if i32 then 14 else 1) * 256)) 0 4 = d.toNat := by
    have hd16 := d.isLt
    rw [fld_eq, wd, BitVec.toNat_ofNat]
    cases i32 <;> simp only [Bool.false_eq_true, if_false, if_true] <;> omega
  have hpass (c : Cmd) (hop : c.op = 3) (hw : fld c.w2 0 4 = d.toNat) : s.mxBad s.turn c = none := by
    rw [State.mxBad, if_pos hop, clrBad, hw]
    exact if_neg (Nat.not_le.mpr hd)
  rw [execMxclr, issue_ready hready (by simp)]
  simp only [hload, hfull, Bool.or_self, Bool.false_eq_true, if_false]
  rw [hpass _ rfl htile]
  rfl

/-! ### Waits and status words (R162, R174, R179) -/

theorem statusWord_eq_status {seq flags : Nat} (hseq : seq < 65536) (hflags : flags < 64) (code : Nat) :
    statusWord seq 0 0 flags code = status seq 0 0 flags code := by
  rw [statusWord, status, Nat.mod_eq_of_lt hseq, Nat.mod_eq_of_lt hflags]
  rfl

section
variable {i : Instr} {s : State} {named : List Nat} {d : BitVec 6} {kind : WaitK} {sm : Frame → Summary} (m : Bool) (clear : Frame → Frame)
  (hready : Ready s named) (hd : d.toNat ∈ named)
include hready hd

/-- With no command of the firing open its summary is the result, flags and code cleared. -/
theorem engWait_ended (hopen : (sm s.cur).open_ = 0) (hseq : (sm s.cur).seq < 65536) (hflags : (sm s.cur).flags < 64) :
    engWait i m d kind sm clear s =
      .next (done ((s.wvar d (status (sm s.cur).seq 0 0 (sm s.cur).flags (sm s.cur).code)).updCur clear) m 4) := by
  rw [engWait, issue_ready hready (by simpa [rX] using hd)]
  simp only [hopen, if_true, statusWord_eq_status hseq hflags]
  rfl
/-- With one open the firing waits for it, and the group goes on. -/
theorem engWait_waits (hopen : (sm s.cur).open_ ≠ 0) : ∃ u w, engWait i m d kind sm clear s = .next (done u m 4) ∧
    u.cur.waits = s.cur.waits ++ [w] ∧ w.kind = kind ∧ w.acq = true ∧ d.toNat ∈ u.cur.out ∧ u.cur.x = s.cur.x ∧ u.mem = s.mem := by
  let w : Wait := { kind := kind, acq := true, limited := false, pc := s.cur.pc, w0 := w0 i }
  refine ⟨s.await [d] w, w, ?_, ?_⟩
  · rw [engWait, issue_ready hready (by simpa [rX] using hd)]
    simp only [hopen, if_false]
    rfl
  · rw [State.await, updCur_eq, cur_setCur]
    exact ⟨rfl, rfl, rfl, List.mem_cons_self, rfl, rfl⟩
end

/-- Bits 23:16 of a word replaced, the bits around them kept. -/
theorem toNat_putFld_queued (w : Word) {v : Nat} (hv : v < 2 ^ 8) : (putFld w 16 8 v).toNat / 2 ^ 16 % 2 ^ 8 = v ∧
    (putFld w 16 8 v).toNat % 2 ^ 16 = w.toNat % 2 ^ 16 ∧ (putFld w 16 8 v).toNat / 2 ^ 24 = w.toNat / 2 ^ 24 := by
  have hw := w.isLt
  rw [putFld, fld_eq, wd, BitVec.toNat_ofNat, Nat.shiftLeft_eq, Nat.shiftLeft_eq]
  omega
/-- QUEUED stands in bits 23:16 of the status word, the last status around it (R162). -/
theorem engStat_fields (e : Engine) : (engStat e).toNat / 2 ^ 16 % 2 ^ 8 = Nat.min 255 (e.queue.length + e.running.length) ∧
    (engStat e).toNat % 2 ^ 16 = e.last.toNat % 2 ^ 16 ∧ (engStat e).toNat / 2 ^ 24 = e.last.toNat / 2 ^ 24 :=
  toNat_putFld_queued e.last (Nat.lt_succ_of_le (Nat.min_le_left 255 _))

/-- MXREM puts its words, with the core's capability word, into the outbox (R175). -/
theorem execMxrem_sends {s : State} {named : List Nat} (m : Bool) {d a b e c : BitVec 6} (hready : Ready s named)
    (hsub : ∀ n ∈ [rX d, rX c, rX e, rX a, rX b], n ∈ named) (hdst : (s.x d).toNat < 4608) (hload : s.loadWait = false)
    (hrel : (s.x b).toNat / 2 ^ 59 % 2 = 0 → s.relWaits true 0xFFFF = false) (hout : s.myCore.outbox.length < 16) :
    execMxrem m d a b e c s = .next (done (s.updMine fun v => { v with outbox := v.outbox ++ [(⟨
      { kind := .mxrem, ctx := s.myCore.ctxid, dst := (s.x d).toNat, src := s.turn, capw := s.myCore.capw,
        words := [s.x c, s.x e, s.x a, s.x b] }, false⟩ : OutE)] }) m 12) := by
  rw [execMxrem, issue_ready hready hsub]
  simp only [State.xn, ge_iff_le, Nat.not_le.mpr hdst, Nat.not_le.mpr hout, hload, release_free hrel, Bool.false_eq_true, if_false]
  rfl

/-! ### Declared buffers (R181 to R183) -/

/-- No command fills or drains the buffer, so it may be declared anew. -/
def Buf.Idle (o : Buf) : Prop := o.len = 0 ∨ (o.state ≠ 1 ∧ o.state ≠ 3)
theorem Buf.Idle.not_busy {o : Buf} (h : o.Idle) : (o.len ≠ 0 && (o.state = 1 || o.state = 3)) = false := by
  rcases h with h | ⟨h1, h3⟩
  · simp [h]
  · simp [h1, h3]
/-- An aligned range of scratchpad that overlaps no other buffer passes the checks of R181. -/
theorem bufdclBad_none {c : Core} {n off len : Nat} (hoff : off % 64 = 0) (hlen : len % 64 = 0) (hin : inScratch c.partw off len = true)
    (hother : ∀ k v, (k, v) ∈ c.bufs.l → k ≠ n → v.len ≠ 0 → v.base + v.len ≤ off ∨ off + len ≤ v.base) : bufdclBad c n off len = none := by
  have hfind : c.bufs.l.find? (fun b => b.1 ≠ n && b.2.len ≠ 0 && spans b.2.base b.2.len off len) = none := by
    refine List.find?_eq_none.mpr fun b hb hmeets => ?_
    simp only [spans, Bool.and_eq_true, decide_eq_true_eq] at hmeets
    obtain ⟨⟨hne, hlive⟩, hlow, hhigh⟩ := hmeets
    rcases hother b.1 b.2 hb hne hlive with h | h
    · omega
    · omega
  rw [bufdclBad, hfind]
  simp [firstBad, firstOf, Core.outScratch, hoff, hlen, hin]

section
variable {s : State} {named : List Nat} (m : Bool) {n : BitVec 5} (hready : Ready s named) (hacq : s.acqWait = false)
include hready hacq

theorem execBufdcl_declares {a b : BitVec 6} (hsub : ∀ r ∈ [rX a, rX b], r ∈ named)
    (hidle : (s.myCore.buf n.toNat).Idle) (hlen : (s.x b).toNat ≠ 0)
    (hok : bufdclBad s.myCore n.toNat (s.x a).toNat (s.x b).toNat = none) :
    execBufdcl m a b n s = .next (done (s.setBuf n.toNat { base := (s.x a).toNat, len := (s.x b).toNat }) m 12) := by
  have hb : s.x b ≠ 0#64 := fun h => hlen (by rw [h]; rfl)
  rw [execBufdcl, issue_ready hready hsub]
  simp only [hacq, hidle.not_busy, hb, State.xn, hok, Bool.false_eq_true, if_false]
  rfl
theorem execBufdcl_undeclares {a b : BitVec 6} (hsub : ∀ r ∈ [rX a, rX b], r ∈ named)
    (hidle : (s.myCore.buf n.toNat).Idle) (hlen : (s.x b).toNat = 0) :
    execBufdcl m a b n s = .next (done (s.setBuf n.toNat {}) m 12) := by
  have hb : s.x b = 0#64 := BitVec.eq_of_toNat_eq hlen
  rw [execBufdcl, issue_ready hready hsub]
  simp only [hacq, hidle.not_busy, hb, Bool.false_eq_true, if_false, if_true]
  rfl
theorem execBufset_full (hlive : (s.myCore.buf n.toNat).len ≠ 0) (h1 : (s.myCore.buf n.toNat).state ≠ 1) (h3 : (s.myCore.buf n.toNat).state ≠ 3) :
    execBufset m n 2#4 s = .next (done (s.setBuf n.toNat { s.myCore.buf n.toNat with state := 2 }) m 12) := by
  rw [execBufset, issue_ready hready (by simp)]
  simp only [hacq, hlive, h1, h3, decide_false, Bool.or_self, Bool.false_eq_true, if_false, if_true]
  rfl
theorem execBufset_empty (hlive : (s.myCore.buf n.toNat).len ≠ 0) (h1 : (s.myCore.buf n.toNat).state ≠ 1) (h3 : (s.myCore.buf n.toNat).state ≠ 3)
    (hread : s.myCore.bufRead (s.myCore.buf n.toNat) = false) :
    execBufset m n 0#4 s = .next (done (s.setBuf n.toNat { s.myCore.buf n.toNat with state := 0 }) m 12) := by
  rw [execBufset, issue_ready hready (by simp)]
  simp only [hacq, hlive, h1, h3, hread, decide_false, Bool.or_self, Bool.false_eq_true, if_false, show (0#4 : BitVec 4) ≠ 2#4 by decide]
  rfl
/-- BUFSET of an undeclared buffer raises BUFSTATE (R182). -/
theorem execBufset_undeclared (htakes : TakesTrap s s.turn s.fi) (hnone : (s.myCore.buf n.toNat).len = 0) (bs : BitVec 4) :
    execBufset m n bs s = .next (trapState s ⟨9, n.zeroExtend 64, 0#64, 0#64⟩ s.cur.pc) := by
  rw [execBufset, issue_ready hready (by simp)]
  simp only [hacq, hnone, Bool.false_eq_true, if_false, if_true, Res.finish]
  rw [raise_handler htakes (show 9 < 0x80 by decide)]
theorem execBufqry_gives {d : BitVec 6} (hd : d.toNat ∈ named) : execBufqry m d n s = .next (done (s.wvar d
    (if (s.myCore.buf n.toNat).len = 0 then 0#64 else BitVec.ofNat 64 ((s.myCore.buf n.toNat).len * 2 ^ 32 + (s.myCore.buf n.toNat).base * 2 ^ 8 +
      (s.myCore.buf n.toNat).span * 2 ^ 3 + 2 ^ 2 + (s.myCore.buf n.toNat).state))) m 12) := by
  rw [execBufqry, issue_ready hready (by simpa [rX] using hd)]
  simp only [hacq, Bool.false_eq_true, if_false]
  rfl
end

/-- With no matrix command and no copy under way nothing reads a buffer. -/
theorem bufRead_idle {c : Core} (hrun : c.mx.running = []) (hqueue : c.mx.queue = []) (hcopies : c.copies = []) (o : Buf) : c.bufRead o = false := by
  simp [Core.bufRead, hrun, hqueue, hcopies]

end Sys2Proof.Machine
end

section
/-! Requests, replies, spawned records and remote commands as they arrive (R175, R281, R293, R301 to R305, R314, R315). -/
open Sys2Proof Sys2Proof.Machine Sys2Proof.Spec
namespace Sys2Proof.Machine

/-- A unit's act with MAIN up is its work on the state. -/
theorem acts_of_unitAct {i : Instr} {s t : State} {g : State → State} (hexec : exec i s = unitAct g s) (hg : g s = t) : Acts i s t :=
  fun hmain => hexec.trans ((unitAct_up hmain g).trans (congrArg _ hg))

/-- The oldest entry goes first toward its core (R314). -/
theorem headFor_oldest (e : OutE) (l : List OutE) : headFor (e :: l) 0 = some e := rfl
theorem affine_iff (c : Core) (n : Nat) : c.affine n = true ↔ (c.tag n).kind = .affine := decide_eq_true_iff
theorem inboxPut_payload (c : Core) (n : Nat) (g : Msg) : ((c.inboxPut n g).inbox.get n {}).payload = g.payload := by
  rw [Core.inboxPut, Tab.get_put_self]

/-! ### Requests (R281, R301, R314) -/

section
variable {s : State} {k : Nat} {g : Msg} {l : List OutE} {again : Bool} (hk : k < 4896) (hout : (s.core k).outbox = (⟨g, again⟩ : OutE) :: l)

/-- A message is refused where its context is not resident or its tag is not affine. -/
theorem arrive1_refused (hplain : g.kind = .plain) (h : (s.core g.dst).ctxid ≠ g.ctx ∨ ((s.core g.dst).tag g.tag).kind ≠ .affine) :
    s.arrive1 g = none := by
  have hbad : ((s.core g.dst).ctxid ≠ g.ctx || !(g.kind = .dispatch || (s.core g.dst).affine g.tag)) = true := by
    rcases h with hctx | htag
    · simp [hctx]
    · simp [hplain, Core.affine, htag]
  rw [State.arrive1]
  exact if_pos hbad
/-- With no heap the message takes a free slot. -/
theorem arrive1_slot {n : Nat} (hctx : (s.core g.dst).ctxid = g.ctx) (htag : ((s.core g.dst).tag g.tag).kind = .affine)
    (hslot : (s.core g.dst).freeSlot 0 24 = some n) (hheap : s.heapCap g.dst = 0) :
    s.arrive1 g = some (s.updCore g.dst fun c => c.inboxPut n g) := by
  rw [State.arrive1]
  simp [hctx, (affine_iff ..).mpr htag, hslot, hheap]

include hk hout

/-- The oldest entry leaves for its core, which takes it. -/
theorem offer_oldest_taken {t : State} (hplain : g.kind = .plain) (htaken : s.arrive1 g = some t) : s.offer k 0 again = t.freeOut k 0 := by
  simp [State.offer, hk, hout, headFor_oldest, hplain, htaken]
/-- One that is not taken stays, refused. -/
theorem offer_oldest_refused (hplain : g.kind = .plain) (hrefused : s.arrive1 g = none) :
    s.offer k 0 again = s.updCore k fun c => { c with outbox := (⟨g, true⟩ : OutE) :: l } := by
  simp [State.offer, hk, hout, headFor_oldest, hplain, hrefused]
end

/-! ### Replies (R305, R315) -/

/-- A reply whose tag is affine fills the slot kept for it. -/
theorem replyIn_payload {c : Core} {g : Msg} {n : Nat} (hslot : c.freeSlot 24 8 = some n) (htag : (c.tag g.tag).kind = .affine) :
    ((State.replyIn c g).inbox.get n {}).payload = g.payload := by
  have hslot' : ({ c with awaits := c.awaits.erase g.tag } : Core).freeSlot 24 8 = some n := hslot
  have htag' : ({ c with awaits := c.awaits.erase g.tag } : Core).affine g.tag = true := (affine_iff c g.tag).mpr htag
  rw [State.replyIn]
  simp only [hslot', htag', if_true]
  exact inboxPut_payload ..

/-- The oldest reply enters its core, whose context is resident. -/
theorem replyArrival_resident {s : State} {g : Msg} {r : List Msg} (hreplies : s.replies = g :: r) (hctx : (s.core g.dst).ctxid = g.ctx) :
    Acts (.replyArrival 0) s (({ s with replies := r } : State).updCore g.dst fun c => State.replyIn c g) := by
  intro hmain
  rw [exec_replyArrival, execReplyArrival, unitAct_up hmain, hreplies]
  exact congrArg _ (if_pos hctx)

/-! ### Spawned records (R293) -/

theorem spawnOk_slot {s : State} {j ctx n : Nat} (hctx : (s.core j).ctxid = ctx) (he : ((s.core j).tag 62).e = true) (hh : ((s.core j).tag 62).h = 0)
    (hfew : s.spawns j < 8) (hheap : s.heapCap j = 0) (hslot : (s.core j).freeSlot 0 24 = some n) : s.spawnOk j ctx = some n := by
  simp [State.spawnOk, Tag.en, hctx, he, hh, hfew, hheap, hslot]
theorem spawnOk_none {s : State} {j ctx : Nat}
    (h : (s.core j).ctxid ≠ ctx ∨ ((s.core j).tag 62).e = false ∨ ((s.core j).tag 62).h ≠ 0 ∨ s.spawns j ≥ 8) : s.spawnOk j ctx = none := by
  refine if_neg fun hall => ?_
  simp only [Tag.en, Bool.and_eq_true, decide_eq_true_eq] at hall
  obtain ⟨⟨⟨⟨he, hh⟩, hfew⟩, hctx⟩, -⟩ := hall
  rcases h with h | h | h | h
  · exact h hctx
  · simp [he] at h
  · exact h hh
  · omega
/-- The record of a firing that waits for its answer leaves for its target, and the firing holds the answer. -/
theorem spawnArrival_answers {s : State} {k f joinc : Nat} {g : Msg} {l : List OutE} {again : Bool} (hsaved : (s.fr k f).saved = [31, joinc])
    (hout : (s.core k).outbox = (⟨g, again⟩ : OutE) :: l) (hspawn : g.kind = .spawn) (hno : g.no = f) :
    Acts (.spawnArrival k f) s ((s.spawnIn k 0 ⟨g, again⟩).updFr k f fun r =>
      { r with saved := [32, b2n (s.spawnOk g.dst g.ctx).isSome, joinc] }) := by
  have hfirst : (List.range 16).find? (fun n => ((s.core k).outbox[n]?).any fun e => e.msg.kind = .spawn && e.msg.no = f) = some 0 := by
    rw [List.range_succ_eq_map, List.find?_cons_of_pos]
    simp [hout, hspawn, hno]
  intro hmain
  rw [exec_spawnArrival, execSpawnArrival, unitAct_up hmain]
  simp only [hsaved, hfirst]
  rw [hout, headFor_oldest]
/-- The answer lets the firing that waits for it issue again (R293). -/
theorem spawnAnswer_resumes {s : State} {k f ok joinc : Nat} (hsaved : (s.fr k f).saved = [32, ok, joinc]) : Acts (.spawnAnswer k f) s
    (((s.updFr k f fun r => { r with saved := if ok = 1 then [33] else [34, joinc] }).updCore k fun c =>
      { c with awaits := c.awaits.erase 64 }).resume k f) := by
  intro hmain
  rw [exec_spawnAnswer, execSpawnAnswer, unitAct_up hmain]
  simp only [hsaved]

/-! ### Remote commands (R175) -/

theorem fld_one_zero (v : Word) (i : Nat) : fld v i 1 = 0 ↔ v.getLsbD i = false := by
  rw [← Bool.not_eq_true, ← fld_one_eq, fld_eq]
  omega
theorem toNat_statusWord_code (seq prog queued flags : Nat) {code : Nat} (h : code < 2 ^ 8 := by decide) :
    (statusWord seq prog queued flags code).toNat % 2 ^ 8 = code := by
  rw [statusWord, wd, BitVec.toNat_ofNat]
  omega

section
variable {s : State} {k : Nat} {g : Msg} {l : List OutE} {again : Bool} (hout : (s.core k).outbox = (⟨g, again⟩ : OutE) :: l) (hmxrem : g.kind = .mxrem)
include hout hmxrem

/-- Without the right the command ends with DENIED in its mailbox, once that can be written. -/
theorem mxremArrival_denied (h : (s.core g.dst).ctxid ≠ g.ctx ∨ g.capw.getLsbD 0 = false) : Acts (.mxremArrival k 0) s
    (if s.mailWaits k .regs (mbox (g.words.getD 3 0#64)) then s else ((s.freeOut k 0).mailbox k .regs (mbox (g.words.getD 3 0#64))
      (statusWord (fld (Config.freeWord s.tick) 0 16) 0 0 0 8)).ticked) := by
  have hdenied : ((s.core g.dst).ctxid ≠ g.ctx || fld g.capw 0 1 = 0) = true := by
    rcases h with hctx | hright
    · simp [hctx]
    · simp [(fld_one_zero ..).mpr hright]
  intro hmain
  rw [exec_mxremArrival, execMxremArrival, unitAct_up hmain, hout, headFor_oldest]
  simp only [hmxrem, hdenied, ne_eq, not_true_eq_false, if_false, if_true]
/-- With the right it waits for room in the queue, then enters it. -/
theorem mxremArrival_allowed (hctx : (s.core g.dst).ctxid = g.ctx) (hright : g.capw.getLsbD 0 = true) : Acts (.mxremArrival k 0) s
    (if (s.core g.dst).full false then s.updCore k fun c => { c with outbox := (⟨g, true⟩ : OutE) :: l }
    else (s.freeOut k 0).acceptMm g.dst false (Config.matrixOp g.words % 3) g.words) := by
  have hone : fld g.capw 0 1 = 1 := (fld_one_eq ..).mpr hright
  intro hmain
  rw [exec_mxremArrival, execMxremArrival, unitAct_up hmain, hout, headFor_oldest]
  simp [hmxrem, hctx, hone, hout, goOp]
end

end Sys2Proof.Machine
end

section
/-! The statements on commands, waits, buffers and messages. -/
open Sys2Proof Sys2Proof.Machine Sys2Proof.Spec
namespace Sys2Proof.Proofs

theorem matrixCommands_holds : matrixCommands := by
  unfold matrixCommands
  intro s m a b e c d i32 hready hload hqueue hrel n goes cmd
  have hfull : s.myCore.full false = false := full_matrix hqueue
  have enters {i : Instr} {len : Nat} {k : Cmd} (hwho : k.who = .firing s.fi) (hexec : exec i s = .next (done (s.accept s.turn false k) m len)) :
      goes i len k := by
    refine ⟨_, hexec, ?_⟩
    rw [accept_matrix hwho, updMine_eq, myCore_setCur, myCore_setCore, cur_setCur]
    exact ⟨rfl, rfl, rfl, rfl, rfl, rfl, rfl, rfl⟩
  have issued {op : Nat} {i : Instr} {w1 : Word} {regs : List Nat} {w : State → Word × Word × Word × Word}
      (hi : exec i s = cmdIssue i m regs false op w s) (hw : w s = (s.x c, w1, s.x a, s.x b))
      (hsub : ∀ n ∈ regs, n ∈ [c.toNat, e.toNat, a.toNat, b.toNat]) : cmd op i w1 := fun hok =>
    enters (mxFix_who ..) (hi.trans (cmdIssue_accepts hready hsub hw hload hfull hrel rfl hok))
  exact ⟨issued (exec_mxmul ..) rfl (by simp [rX]), issued (exec_mxspm ..) rfl (by simp [rX]), issued (exec_mxdrn ..) rfl (by simp [rX]),
    fun hd => enters rfl ((exec_mxclr ..).trans (execMxclr_accepts m i32 hready hload hfull hd))⟩

theorem copyCommands_holds : copyCommands := by
  unfold copyCommands
  intro s m a b e c hready hload hqueue hall hrel n cmd
  have issued {op : Nat} {i : Instr} (hi : exec i s =
      cmdIssue i m [rX c, rX e, rX a, rX b] true op (fun s => (s.x c, s.x e, s.x a, s.x b)) s) : cmd op i := fun hok => by
    refine ⟨_, hi.trans (cmdIssue_accepts hready (by simp [rX]) rfl hload (full_copy hqueue hall) hrel rfl hok), ?_⟩
    rw [accept_copy rfl, updMine_eq, myCore_setCur, myCore_setCore, cur_setCur]
    exact ⟨(kickCopies_keeps_order ..).trans (List.append_assoc ..).symm, kickCopies_count .., rfl, rfl,
      fun _ hj => moveBufs_drains hj, fun _ hj hd => moveBufs_fills hj hd, rfl, rfl⟩
  exact ⟨issued (exec_cpy ..), issued (exec_cpyg ..), issued (exec_cpys ..), issued (exec_cpyr ..)⟩

/-- Settles O36: each command of four words is `cmdIssue`, which accepts it. -/
theorem engineCommands : Obligations.EngineCommands := ⟨matrixCommands_holds, copyCommands_holds⟩

theorem engineWaitsAndStatus_holds : engineWaitsAndStatus := by
  unfold engineWaitsAndStatus
  intro s m d a b e c hready x y
  have hd : d.toNat ∈ [c.toNat, e.toNat, a.toNat, b.toNat, d.toNat] := by simp
  have stat {i : Instr} (e : State → Engine) (hi : exec i s = issue m 4 i [rX d] (fun s => .ok (s.wvar d (engStat (e s)))) s) :
      exec i s = .next (done (s.wvar d (engStat (e s))) m 4) := hi.trans (issue_ready hready (by simp [rX]))
  exact ⟨engWait_ended (sm := (·.mxs)) m _ hready hd, engWait_ended (sm := (·.cps)) m _ hready hd, engWait_waits (sm := (·.mxs)) m _ hready hd,
    engWait_waits (sm := (·.cps)) m _ hready hd, ⟨_, stat (·.myCore.mx) (exec_mxstat ..), engStat_fields _⟩,
    ⟨_, stat (·.myCore.cp) (exec_cpystat ..), engStat_fields _⟩,
    fun hdst hload hrel hout => (exec_mxrem ..).trans (execMxrem_sends m hready (by simp [rX]) hdst hload hrel hout)⟩

theorem declaredBuffers_holds : declaredBuffers := by
  unfold declaredBuffers
  intro s m a b d n hready hacq o off len lo put idle
  refine ⟨fun hidle hlive hoff hlen hlow hhigh hother => execBufdcl_declares m hready hacq (by simp [rX]) hidle hlive (bufdclBad_none hoff hlen ?_ hother),
    execBufdcl_undeclares m hready hacq (by simp [rX]), execBufset_full m hready hacq,
    fun hlive h1 h3 hrun hqueue hcopies => execBufset_empty m hready hacq hlive h1 h3 (bufRead_idle hrun hqueue hcopies _),
    execBufqry_gives m hready hacq (by simp), fun htakes hnone => execBufset_undeclared m hready hacq htakes hnone _⟩
  exact (inScratch_iff ..).mpr ⟨hlow, hhigh⟩

/-- Settles O37: a wait ends or begins in `engWait`, and each buffer instruction passes the checks its hypotheses exclude. -/
theorem buffersWaitsAndStatus : Obligations.BuffersWaitsAndStatus := ⟨engineWaitsAndStatus_holds, declaredBuffers_holds⟩

/-- Settles O50, act by act: what an arrival, a refusal and an answer leave is said once above. -/
theorem messageEvents : Obligations.MessageEvents := by
  unfold Obligations.MessageEvents
  intro s k f g l again hk c j o i
  refine ⟨fun hout hplain => ?request, fun hout hmxrem => ?remote, fun r hreplies hctx => ⟨?reply, fun n _ => replyIn_payload⟩,
    fun hroom => acts_of_unitAct rfl (if_pos hroom), fun hfull => acts_of_unitAct rfl (if_neg (Nat.not_lt.mpr hfull)),
    fun joinc hsaved hout hspawn hno => ?spawn, fun ok joinc hsaved hfree hstopped hmain => ?answer⟩
  case request =>
    have hexec : exec i s = unitAct (fun s => s.offer k 0 again) s := by cases again <;> rfl
    refine ⟨fun h => acts_of_unitAct hexec ?_, fun n hctx htag hslot hheap => ⟨acts_of_unitAct hexec ?_, inboxPut_payload ..⟩⟩
    · exact offer_oldest_refused hk hout hplain (arrive1_refused hplain h)
    · exact offer_oldest_taken hk hout hplain (arrive1_slot hctx htag hslot hheap)
  case remote =>
    refine ⟨fun h hwaits => ?_, fun h hroom => ?_, fun hctx hright hfull => ?_, fun hctx hright hfull => ?_⟩
    · have hdenied := mxremArrival_denied hout hmxrem h
      rwa [if_pos hwaits] at hdenied
    · have hdenied := mxremArrival_denied hout hmxrem h
      rw [hroom, if_neg Bool.false_ne_true] at hdenied
      exact ⟨_, hdenied, toNat_statusWord_code ..⟩
    · have hallowed := mxremArrival_allowed hout hmxrem hctx hright
      rwa [if_pos hfull] at hallowed
    · have hallowed := mxremArrival_allowed hout hmxrem hctx hright
      rwa [hfull, if_neg Bool.false_ne_true] at hallowed
  case reply => exact replyArrival_resident hreplies hctx
  case spawn =>
    have harrival := spawnArrival_answers hsaved hout hspawn hno
    refine ⟨fun n hctx he hh hfew hheap hslot => ?_, fun h => ?_⟩
    · rw [State.spawnIn, spawnOk_slot hctx he hh hfew hheap hslot] at harrival
      exact harrival
    · rw [State.spawnIn, spawnOk_none h] at harrival
      exact harrival
  case answer =>
    refine ⟨_, spawnAnswer_resumes hsaved hmain, ?_⟩
    simp [State.resume, hfree, hstopped, c]

end Sys2Proof.Proofs
end

section
/-! Acts of the walk units, the sequencers, the governor and the stage queues (R243 to R249, R255, R295, R296, R298, R368, R369). -/
open Sys2Proof Sys2Proof.Machine Sys2Proof.Spec
namespace Sys2Proof.Machine

/-! ### Walks (R368, R369) -/

/-- A walk that is taken next stands in the list and no unit has taken it. -/
theorem nextWalk_get {l : List Walk} {n : Nat} {w : Walk} (h : nextWalk l n = some w) : l[n]? = some w := by
  unfold nextWalk at h
  split at h
  · next hget =>
    split at h
    · exact absurd h nofun
    · rw [hget, h]
  · exact absurd h nofun
theorem setToken_get {s : State} {n : Nat} {w : Walk} (tok : Nat) (h : s.walks[n]? = some w) :
    (s.setToken n tok).walks[n]? = some { w with token := tok } := by
  simp [State.setToken, h]
/-- A token is a number the taker gives, never 0 (R368). -/
theorem tokenOf_ne_zero (die camp serial : Nat) : tokenOf die camp serial ≠ 0 := by unfold tokenOf; omega
theorem unitWr_walks (s : State) (pa n v : Nat) : (s.unitWr pa n v).walks = s.walks := by
  obtain ⟨M, P, h⟩ := unitStore_fields s pa (bytesOf n v)
  rw [State.unitWr, h]
/-- An event leaves the walks as they are. -/
@[simp] theorem post_walks (s : State) (d cls idx kind body : Nat) : (s.post d cls idx kind body).walks = s.walks := by
  simp only [State.post, updDie_eq, setDie_walks]
  split
  · rfl
  · rw [unitWr_walks, unitWr_walks]
/-- The token the die gives next to a walk that a service firing takes. -/
def State.walkToken (s : State) (w : Walk) : Nat := tokenOf (dieOf w.core) (campOf w.core % 48) (s.die (dieOf w.core)).serial
/-- The firing that serves walk `w`. -/
def State.walkFiring (s : State) (w : Walk) : Frame :=
  let root : Word := match s.slotOf w.ctx with | some j => s.ctxDw j 0x20 | none => 0#64
  { stat := .ready, pc := wd (s.die (dieOf w.core)).walkEntry, src := .walk, token := s.walkToken w, wbody := w.body
    parkNo := (s.core (tscOf w.core)).parks, x := walkX s.tick w.va (w.ctx + w.kind * 2 ^ 16) (s.walkToken w) root }
/-- It finds the address in x4 and the token in x6. -/
theorem walkFiring_rx (s : State) (w : Walk) : (s.walkFiring w).rx 4 = wd w.va ∧ (s.walkFiring w).rx 6 = wd (s.walkToken w) := ⟨rfl, rfl⟩
/-- Walk `n` has its token, and frame `f` of the service core of its camp serves it. -/
def State.serveWalk (s : State) (n : Nat) (w : Walk) (f : Nat) : State :=
  let t := (s.setToken n (s.walkToken w)).updDie (dieOf w.core) fun v => { v with serial := (v.serial + 1) % 65536 }
  { t.setFr (tscOf w.core) f (s.walkFiring w) with tick := s.tick + 63 }
theorem fr_serveWalk (s : State) (n : Nat) (w : Walk) (f : Nat) : (s.serveWalk n w f).fr (tscOf w.core) f = s.walkFiring w :=
  Tab.get_put_self ..
theorem serveWalk_get {s : State} {n : Nat} {w : Walk} (f : Nat) (h : s.walks[n]? = some w) :
    (s.serveWalk n w f).walks[n]? = some { w with token := s.walkToken w } := setToken_get _ h

section
variable {s : State} {die n : Nat} {w : Walk} (hnext : nextWalk s.walks n = some w) (hdie : dieOf w.core = die)
include hnext hdie

/-- The host, or a die without a service image, has the walk posted (R368, R396). -/
theorem walkRequest_posts (hhost : nfld (s.die die).assist 1 1 = 1 ∨ (s.die die).walkImg = none) :
    Acts (.walkRequest die n) s ((s.post die 2 0 0x0404 w.body).setToken n (tokenOf die 0 ((s.die die).seqs.get (256 * 2) 0))) := by
  intro hmain
  rw [exec_walkRequest, execWalkRequest, unitAct_up hmain]
  have hposted : (nfld (s.die die).assist 1 1 = 1 || (s.die die).walkImg.isNone) = true := by simpa using hhost
  simp only [hnext, hdie, hposted, ne_eq, not_true_eq_false, if_false, if_true]
/-- A service core with a free frame starts a firing that serves the walk (R368). -/
theorem walkRequest_serves {img : List (BitVec 8)} {f : Nat} (hassist : nfld (s.die die).assist 1 1 = 0)
    (himg : (s.die die).walkImg = some img) (hfree : s.freeFrame (tscOf w.core) = some f) : Acts (.walkRequest die n) s (s.serveWalk n w f) := by
  intro hmain
  have hown : ¬ (nfld (s.die die).assist 1 1 = 1 || (s.die die).walkImg.isNone) = true := by simp [hassist, himg]
  rw [exec_walkRequest, execWalkRequest, unitAct_up hmain]
  simp only [hnext, hdie, hown, hfree, ne_eq, not_true_eq_false, if_false]
  subst hdie
  rfl
end

/-! ### Sequencers (R243 to R249, R255) -/

section
variable {s : State} {die i n : Nat} {e : SheetE} (hdir : (s.die die).dir[i]? = some e)
include hdir

theorem cellDispatch_not_due (h : s.dispatchCell e.pa ≠ some n) : Acts (.cellDispatch die i n) s s := by
  intro hmain
  rw [exec_cellDispatch, execCellDispatch, unitAct_up hmain]
  simp only [hdir, h, ne_eq, not_false_eq_true, if_true]
/-- The cell computes, and one dispatch per core of its gang is on its way (R245). -/
theorem cellDispatch_sends (h : s.dispatchCell e.pa = some n) (hmain : s.main = true) :
    ∃ ms : List OutE, exec (.cellDispatch die i n) s =
        .next ((s.setDsc e.pa n 0x28 12 3 2).updDie die fun v => { v with dispatch := v.dispatch ++ ms }) ∧
      ms.map (·.msg.dst) = gangCores (s.dsc e.pa n 0x38) ∧
      ∀ x ∈ ms, x.msg.kind = .dispatch ∧ x.msg.tag = 61 ∧ x.msg.ctx = e.ctx := by
  refine ⟨?sent, ?run, ?cores, ?kinds⟩
  case run =>
    rw [exec_cellDispatch, execCellDispatch, unitAct_up hmain]
    simp only [hdir, h, ne_eq, not_true_eq_false, if_false]
    rfl
  case cores =>
    rw [List.map_map]
    exact List.zipIdx_map_fst 0 _
  case kinds =>
    intro x hx
    obtain ⟨c, -, rfl⟩ := List.mem_map.mp hx
    exact ⟨rfl, rfl, rfl⟩
theorem pinExpiry_clears (h : n < 16) : Acts (.pinExpiry die i n) s (s.setHdr e.pa (0x20 + 8 * n) 32 1 0) := by
  intro hmain
  rw [exec_pinExpiry, execPinExpiry, unitAct_up hmain]
  simp only [hdir, h, if_true]
/-- A cell whose opening waited opens the next generation once fewer than four are unfinished (R255). -/
theorem poisonOpening_opens (hwaits : n ∈ e.poisonWait) (hfew : s.unfinished e.pa < 4) : Acts (.poisonOpening die i n) s
    ((s.updSheet die e.pa fun e => { e with poisonWait := e.poisonWait.filter (· ≠ n) }).openGen die e.pa [n] none) := by
  intro hmain
  rw [exec_poisonOpening, execPoisonOpening, unitAct_up hmain]
  have hdue : (e.poisonWait.contains n && decide (s.unfinished e.pa < 4)) = true := by simp [hwaits, hfew]
  simp only [hdir, hdue, if_true]
end

/-! ### The stage governor (R298) -/

/-- Enabled queues of a die that hold more records than their HIGH. -/
def State.queuesOverHigh (s : State) (die : Nat) : List Nat := (dieQueues s die).filter fun q => (s.squeue q).occ > (s.squeue q).high
/-- A sample remembers the stages that are behind, whatever it moves. -/
theorem governorSample_remembers {s : State} {die : Nat} (hmain : s.main = true) : ∃ t, exec (.governorSample die) s = .next t ∧
    (t.die die).prevHigh = s.queuesOverHigh die ∧
    ((s.queuesOverHigh die).all (fun q => !(s.die die).prevHigh.contains q) = true →
      t = s.updDie die fun v => { v with prevHigh := s.queuesOverHigh die }) := by
  refine ⟨?next, ?run, ?high, fun hnew => ?same⟩
  case run =>
    rw [exec_governorSample, execGovernorSample, unitAct_up hmain]
  case high => rw [updDie_eq, die_setDie_self, State.queuesOverHigh]
  case same =>
    have hneedy : (s.queuesOverHigh die).filter (fun q => (s.die die).prevHigh.contains q) = [] := by
      simpa [List.filter_eq_nil_iff] using hnew
    rw [State.queuesOverHigh] at hneedy
    simp only [hneedy, List.foldl_nil, State.queuesOverHigh]

/-! ### Stage queues (R295, R296) -/

theorem queueRefill_idle {s : State} {q : Nat} (h : (s.squeue q).refill = false) : Acts (.queueRefill q) s s := by
  intro hmain
  rw [exec_queueRefill, execQueueRefill, unitAct_up hmain]
  simp only [h, Bool.not_false, Bool.or_true, if_true]
/-- A refill appends to the bank the records the spill engine reads from the ring. -/
theorem queueRefill_takes {s : State} {q : Nat} {l : List (List (BitVec 8))} (henable : (s.squeue q).enable = true)
    (hwhole : (s.squeue q).broken = false) (hrefill : (s.squeue q).refill = true) (hring : s.ringGets q ((s.squeue q).head + (s.squeue q).bank.length)
      (min (s.squeue q).inRing ((s.squeue q).share - (s.squeue q).bank.length)) = .inr l) :
    Acts (.queueRefill q) s (s.setSQueue q { s.squeue q with bank := (s.squeue q).bank ++ l, refill := false }) := by
  intro hmain
  rw [exec_queueRefill, execQueueRefill, unitAct_up hmain]
  simp only [henable, hwhole, hrefill, Bool.not_true, Bool.or_false, Bool.false_eq_true, if_false, State.refillQ, hring]

theorem stageQueueDescWrite_acts {s t : State} {q : Nat} {off : BitVec 6} {v : Word} (hq : q < 4608) (h : s.queueWrite q off.toNat v = t) :
    Acts (.stageQueueDescWrite q off v) s t :=
  acts_of_unitAct rfl ((if_pos hq).trans h)
/-- The descriptor of an enabled queue stays, but for the word that may disable it. -/
theorem queueWrite_enabled {s : State} {q off : Nat} (v : Word) (h : (s.squeue q).enable = true) (hoff : off ≠ 8) : s.queueWrite q off v = s := by
  simp [State.queueWrite, h, hoff]
section
variable {s : State} {q : Nat} (h : (s.squeue q).enable = false) (v : Word)
include h
theorem queueWrite_ringbase : s.queueWrite q 0 v = s.setSQueue q { s.squeue q with ringbase := v } := by
  simp [State.queueWrite, h]
theorem queueWrite_marks : s.queueWrite q 0x10 v = s.setSQueue q { s.squeue q with high := v.toNat / 2 ^ 16 % 2 ^ 16, low := v.toNat % 2 ^ 16 } := by
  simp [State.queueWrite, h, fld_eq]
/-- Without ENABLE in it the control word leaves the queue off. -/
theorem queueWrite_control (hv : v.toNat < 2 ^ 63) : s.queueWrite q 8 v = s.setSQueue q { s.squeue q with
    ctx := v.toNat / 2 ^ 32 % 2 ^ 16, ringsize := v.toNat / 2 ^ 16 % 2 ^ 16, share := v.toNat % 2 ^ 9 } := by
  have hoff : fld v 63 1 = 0 := by rw [fld_eq, Nat.div_eq_of_lt hv, Nat.zero_mod]
  simp [State.queueWrite, h, hoff, fld_eq]
end

end Sys2Proof.Machine
end

section
/-! KREHOME's target and answer, and stores of read-duplicated pages at their replicas (R209 to R211, R342). -/
open Sys2Proof Sys2Proof.Machine Sys2Proof.Spec
namespace Sys2Proof.Machine

/-! ### A moved page at its target (R342) -/

/-- A space's header packed, and read back with whatever follows it. -/
theorem kvUnpack_pack_append (v : Kv) (l : List Nat) : kvUnpack (v.pack ++ l) = v := by
  simp [kvUnpack, Kv.pack, wd]
theorem kvUnpack_pack (v : Kv) : kvUnpack v.pack = v := by simpa using kvUnpack_pack_append v []
theorem drop_pack (v : Kv) (l : List Nat) : (v.pack ++ l).drop 7 = l := rfl
theorem toNat_wd {w : Nat} (h : w < 2 ^ 64) : (wd w).toNat = w := Nat.mod_eq_of_lt h
/-- KIND of a word, in bits 63:62. -/
theorem fld_kind (w : Word) : fld w 62 2 = w.toNat / 2 ^ 62 := by
  have := w.isLt
  rw [fld_eq]
  omega
/-- The low half of a word cleared. -/
theorem toNat_putFld_low (w : Word) : (putFld w 0 32 0).toNat = w.toNat - w.toNat % 2 ^ 32 := by
  have := w.isLt
  rw [putFld, fld_eq, wd, BitVec.toNat_ofNat, Nat.shiftLeft_eq, Nat.shiftLeft_eq]
  omega

theorem krehomeTarget_acts {s : State} {k f j key w : Nat} {v : Kv} {page : List Nat}
    (hsaved : (s.fr k f).saved = 51 :: j :: key :: w :: (v.pack ++ page)) :
    Acts (.krehomeTarget k f) s (s.moveTarget k f j key (wd w) v (page.map (BitVec.ofNat 8))) := by
  intro hmain
  rw [exec_krehomeTarget, execKrehomeTarget, unitAct_up hmain]
  simp only [hsaved, kvUnpack_pack_append, drop_pack]

section
variable {s : State} {k f j key n : Nat} {w : Word} {v : Kv} {page : List (BitVec 8)}

theorem moveTarget_otherContext (h : (s.core j).ctxid ≠ (s.core k).ctxid) :
    s.moveTarget k f j key w v page = s.moveAnswer k f 0xC 0 (j :: key :: w.toNat :: v.pack) := if_pos h

variable (hctx : (s.core j).ctxid = (s.core k).ctxid)
include hctx
theorem moveTarget_misfit (hfits : kvFits (s.core j).partw v = false) :
    s.moveTarget k f j key w v page = s.moveAnswer k f 8 0 (j :: key :: w.toNat :: v.pack) := by
  simp [State.moveTarget, hctx, hfits]

variable (hfits : kvFits (s.core j).partw v = true)
include hfits
theorem moveTarget_full (hprobe : s.probe j v key = .full) :
    s.moveTarget k f j key w v page = s.moveAnswer k f 6 0 (j :: key :: w.toNat :: v.pack) := by
  simp [State.moveTarget, hctx, hfits, hprobe]
theorem moveTarget_exists (hprobe : s.probe j v key = .found n) (hlive : fld (s.cairnW j v n) 62 2 ≠ 3) :
    s.moveTarget k f j key w v page = s.moveAnswer k f 0xA 0 (j :: key :: w.toNat :: v.pack) := by
  simp [State.moveTarget, hctx, hfits, hprobe, hlive]

/-! An empty entry, or the key's own stub, takes the entry that moves. -/

variable (hplace : s.probe j v key = .empty n ∨ (s.probe j v key = .found n ∧ fld (s.cairnW j v n) 62 2 = 3))
include hplace
theorem moveTarget_cell (hcell : fld w 61 1 = 1) : s.moveTarget k f j key w v page =
    ((s.setCairn j v n key (putFld w 0 32 0).toNat).liveAdd j v 1).moveAnswer k f 0 0 (j :: key :: w.toNat :: v.pack) := by
  rcases hplace with hempty | ⟨hfound, hstub⟩
  · simp [State.moveTarget, hctx, hfits, hcell, hempty]
  · simp [State.moveTarget, hctx, hfits, hcell, hfound, hstub]
theorem moveTarget_placed {t : State} {kind loc : Nat} (hpage : fld w 61 1 = 0) (hmove : s.movePage k f j v page = .placed t kind loc) :
    s.moveTarget k f j key w v page =
      ((t.setCairn j v n key (kind * 2 ^ 62 + loc)).liveAdd j v 1).moveAnswer k f 0 loc (j :: key :: w.toNat :: v.pack) := by
  rcases hplace with hempty | ⟨hfound, hstub⟩
  · simp [State.moveTarget, hctx, hfits, hpage, hmove, hempty]
  · simp [State.moveTarget, hctx, hfits, hpage, hmove, hfound, hstub]
theorem moveTarget_noPage {t : State} {c : Nat} (hpage : fld w 61 1 = 0) (hmove : s.movePage k f j v page = .code t c) :
    s.moveTarget k f j key w v page = t.moveAnswer k f c 0 (j :: key :: w.toNat :: v.pack) := by
  rcases hplace with hempty | ⟨hfound, hstub⟩
  · simp [State.moveTarget, hctx, hfits, hpage, hmove, hempty]
  · simp [State.moveTarget, hctx, hfits, hpage, hmove, hfound, hstub]
end

theorem movePage_slot {s : State} (k f : Nat) {j n : Nat} {v : Kv} (page : List (BitVec 8)) (h : s.freePage j v = some n) :
    s.movePage k f j v page = .placed ((s.poolStore j (v.slots + n * v.p) page).setFree j v n false) 1 n := by
  simp only [State.movePage, h]
/-- No slot is free, and the die's list for the context is empty. -/
theorem movePage_exhausted {s : State} (k f : Nat) {j : Nat} {v : Kv} (page : List (BitVec 8)) (h : s.freePage j v = none)
    (henable : (s.die (dieOf j)).fl.enable = true) (hctx : (s.die (dieOf j)).fl.ctx = (s.core j).ctxid) (htop : (s.die (dieOf j)).fl.top = 0) :
    s.movePage k f j v page = .code s 0xB := by
  have hbad : s.flBad (dieOf j) (s.core j).ctxid = none := by simp [State.flBad, henable, hctx]
  have hpeek : s.flPeek (dieOf j) (s.core j).ctxid k f = .code s 0xD 0 := by simp only [State.flPeek, hbad, htop, if_true]
  simp only [State.movePage, h, hpeek, if_true]

/-! ### The answer at the source (R342) -/

section
variable {s : State} {k f st loc j key w : Nat} {v : Kv}

theorem krehomeAnswer_refused (hsaved : (s.fr k f).saved = 52 :: st :: loc :: j :: key :: w :: v.pack) (hst : st ≠ 0) :
    Acts (.krehomeAnswer k f) s (s.moveDone k f st loc v key) := by
  intro hmain
  rw [exec_krehomeAnswer, execKrehomeAnswer, unitAct_up hmain]
  simp only [hsaved, hst, kvUnpack_pack, ne_eq, not_false_eq_true, if_true]
/-- The source's entry of a cell becomes a stub that names the target, and is no live entry any more. -/
theorem krehomeAnswer_cell {n : Nat} (hsaved : (s.fr k f).saved = 52 :: 0 :: loc :: j :: key :: w :: v.pack) (hprobe : s.probe k v key = .found n)
    (hcell : fld (wd w) 61 1 = 1) : Acts (.krehomeAnswer k f) s
      (((s.setCairn k v n key (3 * 2 ^ 62 + j)).liveAdd k v (2 ^ 64 - 1)).moveDone k f 0 loc v key) := by
  intro hmain
  rw [exec_krehomeAnswer, execKrehomeAnswer, unitAct_up hmain]
  simp only [hsaved, kvUnpack_pack, hprobe, hcell, ne_eq, not_true_eq_false, if_false, if_true]
/-- The transit's end: the KREHOME issues again with its status, and the key is no longer on its way. -/
theorem moveDone_leaves (hfree : (s.fr k f).stat ≠ .free) (hstopped : (s.fr k f).stat ≠ .stopped) (code : Nat) :
    let t := s.moveDone k f code loc v key
    (t.fr k f).saved = [53, code, loc] ∧ (t.fr k f).stat = .ready ∧ t.mem = s.mem ∧
      ∀ x ∈ (t.core k).moving, x.1 ≠ v.cairn ∨ x.2.1 ≠ key := by
  simp [State.moveDone, State.resume, hfree, hstopped]
end

/-! ### Replicas (R209 to R211) -/

section
variable {s : State} {n die : Nat} {r : Rdup} (hget : s.rdup[n]? = some r) (hdie : die ∈ r.dies)
include hget hdie

/-- A push in its turn is applied at the die, and the store waits for the dies that are left. -/
theorem rdupPropagate_applies (hplain : r.atomic = false) (hturn : ∀ q ∈ s.rdup.take n, sameLine q r = false ∨ die ∉ q.dies) :
    Acts (.rdupPropagate n die) s ((if r.dies.erase die = [] then (s.store (r.at_ die) r.bytes).dropRdup n
      else { s.store (r.at_ die) r.bytes with rdup := s.rdup.set n { r with dies := r.dies.erase die } }).afterRelease r.core) := by
  intro hmain
  rw [exec_rdupPropagate, execRdupPropagate, unitAct_up hmain]
  have hfirst : (s.rdup.take n).any (fun q => sameLine q r && q.dies.contains die) = false := by simpa [imp_iff_not_or] using hturn
  simp only [hget, hplain, hfirst, List.contains_iff_mem.mpr hdie, Bool.not_true, Bool.or_false, Bool.false_eq_true, if_false]
  rfl
/-- With the last acknowledgement of the line's oldest store it is visible at every die. -/
theorem rdupInvalidateAck_counts (hatomic : r.atomic = true) (hturn : ∀ q ∈ s.rdup.take n, sameLine q r = false) :
    Acts (.rdupInvalidateAck n die) s (if r.dies.erase die = [] then
        (((((List.range 6).foldl (fun s d => s.store (r.at_ d) r.bytes) s).dropRdup n).afterRelease r.core).replayAll).applyPeers
      else { s with rdup := s.rdup.set n { r with dies := r.dies.erase die } }) := by
  intro hmain
  rw [exec_rdupInvalidateAck, execRdupInvalidateAck, unitAct_up hmain]
  have hfirst : (s.rdup.take n).any (sameLine · r) = false := by simpa using hturn
  simp only [hget, hatomic, hfirst, List.contains_iff_mem.mpr hdie, Bool.not_true, Bool.or_false, Bool.false_eq_true, if_false]
end

end Sys2Proof.Machine
end

section
/-! The statement on the units' acts, moves and replicas. -/
open Sys2Proof Sys2Proof.Machine Sys2Proof.Spec
namespace Sys2Proof.Proofs

theorem sequencerEvents_holds : sequencerEvents := by
  unfold sequencerEvents
  intro s die i n q v w e off V Q
  refine ⟨fun hget hdie => ?timeout, fun hnext hdie => ⟨fun hhost hmain => ?posted, fun img f hassist himg hfree hmain => ?served⟩,
    fun hdir => ⟨cellDispatch_not_due hdir, fun hdue hmain => ?dispatch, pinExpiry_clears hdir, poisonOpening_opens hdir⟩, fun hmain => ?governor,
    queueRefill_idle, fun henable hwhole hrefill l => queueRefill_takes henable hwhole hrefill, fun hq henable => ?off, fun hq henable hoff => ?on⟩
  case timeout =>
    intro hmain
    rw [exec_walkTimeout, execWalkTimeout, unitAct_up hmain]
    simp only [hget, hdie, if_true]
  case posted =>
    have hget := (congrArg (·[n]?) (post_walks s die 2 0 0x0404 w.body)).trans (nextWalk_get hnext)
    exact ⟨_, _, walkRequest_posts hnext hdie hhost hmain, rfl, setToken_get _ hget, rfl, tokenOf_ne_zero _ _ _⟩
  case served =>
    obtain ⟨hx4, hx6⟩ := walkFiring_rx s w
    refine ⟨_, _, walkRequest_serves hnext hdie hassist himg hfree hmain, serveWalk_get f (nextWalk_get hnext), rfl,
      tokenOf_ne_zero _ _ _, rfl, ?_⟩
    rw [fr_serveWalk, hx4, hx6]
    subst hdie
    exact ⟨rfl, rfl, rfl, rfl, rfl, rfl⟩
  case dispatch =>
    obtain ⟨ms, hexec, hcores, hkinds⟩ := cellDispatch_sends hdir hdue hmain
    exact ⟨_, ms, hexec, rfl, hcores, hkinds⟩
  case governor =>
    obtain ⟨t, hexec, hhigh, hsame⟩ := governorSample_remembers (die := die) hmain
    exact ⟨t, hexec, hhigh, hhigh ▸ hsame⟩
  case off =>
    exact ⟨stageQueueDescWrite_acts hq (queueWrite_ringbase henable v), stageQueueDescWrite_acts hq (queueWrite_marks henable v),
      fun hv => stageQueueDescWrite_acts hq (queueWrite_control henable v hv)⟩
  case on =>
    have hne : off.toNat ≠ 8 := fun h => hoff (BitVec.eq_of_toNat_eq h)
    exact stageQueueDescWrite_acts hq (queueWrite_enabled v henable hne)

theorem moveAndReplicaEvents_holds : moveAndReplicaEvents := by
  unfold moveAndReplicaEvents
  intro s k f j key w n die v page r
  refine ⟨fun hsaved hmain => ?target, fun st loc hst hsaved hfree hstopped hmain =>
      ⟨_, krehomeAnswer_refused hsaved hst hmain, moveDone_leaves hfree hstopped st⟩,
    fun loc n hsaved hprobe hcell hw => krehomeAnswer_cell hsaved hprobe (by rw [fld_eq, toNat_wd hw]; exact hcell),
    fun hget hdie _ => ⟨fun hplain hturn => ?push, fun hatomic hturn => ?ack⟩⟩
  case target =>
    intro answers o p stub entry l hw
    have hword := toNat_wd hw
    have hbit : fld (wd w) 61 1 = w / 2 ^ 61 % 2 := by rw [fld_eq, hword]; rfl
    have answered {u : State} {st loc : Nat} (h : s.moveTarget k f j key (wd w) v (page.map (BitVec.ofNat 8)) =
        u.moveAnswer k f st loc (j :: key :: (wd w).toNat :: v.pack)) : answers u st loc := by
      have hexec := krehomeTarget_acts hsaved hmain
      rwa [h, hword] at hexec
    refine ⟨fun hctx => answered (moveTarget_otherContext hctx), fun hctx => ⟨fun hfits => answered (moveTarget_misfit hctx hfits),
      fun hfits hfull => answered (moveTarget_full hctx hfits hfull),
      fun n hfits hfound hlive => answered (moveTarget_exists hctx hfits hfound (fld_kind _ ▸ hlive)), fun n hfits hplace => ?_⟩⟩
    have hplace' : s.probe j v key = .empty n ∨ (s.probe j v key = .found n ∧ fld (s.cairnW j v n) 62 2 = 3) := by rwa [fld_kind]
    refine ⟨fun hcell => ?_, fun x hpage hslot => ?_, fun hpage hslot henable hlist htop => ?_⟩
    · have hmoved := moveTarget_cell (f := f) (page := page.map (BitVec.ofNat 8)) hctx hfits hplace' (hbit.trans hcell)
      rw [toNat_putFld_low, hword] at hmoved
      exact answered (hword.symm ▸ hmoved)
    · have hmoved := moveTarget_placed hctx hfits hplace' (hbit.trans hpage) (movePage_slot k f (page.map (BitVec.ofNat 8)) hslot)
      rw [Nat.one_mul] at hmoved
      exact answered hmoved
    · exact answered (moveTarget_noPage hctx hfits hplace' (hbit.trans hpage) (movePage_exhausted k f _ hslot henable hlist htop))
  case push =>
    have happlied := rdupPropagate_applies hget hdie hplain hturn
    refine ⟨fun hlast => ?_, fun hmore => ?_⟩
    · rwa [if_pos (by rw [hlast]; simp)] at happlied
    · rwa [if_neg hmore] at happlied
  case ack =>
    have hcounted := rdupInvalidateAck_counts hget hdie hatomic hturn
    refine ⟨fun hlast => ?_, fun hmore => ?_⟩
    · rwa [if_pos (by rw [hlast]; simp)] at hcounted
    · rwa [if_neg hmore] at hcounted

/-- Settles O52: each act's outcome is said once above, a branch at a time. The answer BADDESC of a page that does not fit is a design choice of
the model (log 137), and a stub leaves the count of live entries (log 68, deduced). -/
theorem unitEvents : Obligations.UnitEvents := ⟨sequencerEvents_holds, moveAndReplicaEvents_holds⟩

end Sys2Proof.Proofs
end

section
/-! Atomics, fences, waits on memory and barriers: what each leaves where nothing holds it back (R222 to R234). -/
open Sys2Proof Sys2Proof.Machine Sys2Proof.Spec
namespace Sys2Proof.Machine

/-! ### A value of n bytes in memory and in a word -/

/-- The bytes from an address, read as a number (R2). -/
theorem ofBytes_rdBytes (s : State) (pa n : Nat) : ofBytes (s.rdBytes pa n) = leBytes s pa n := by
  induction n generalizing pa with
  | zero => rfl
  | succ n ih => rw [State.rdBytes, ofBytes, leBytes, ih]
theorem unitRd_eq_leBytes {s : State} {pa n : Nat} (h : holeIn pa n = false) : s.unitRd pa n = leBytes s pa n := by
  simp [State.unitRd, State.unitBytes, h, ofBytes_rdBytes]
theorem leBytes_lt (s : State) (pa n : Nat) : leBytes s pa n < 2 ^ (8 * n) := by
  induction n generalizing pa with
  | zero => exact Nat.one_pos
  | succ n ih =>
    have hbyte := (s.rd pa).isLt
    have hrest := ih (pa + 1)
    rw [leBytes, Nat.mul_succ, Nat.pow_add]
    omega
theorem eight_nbytes_le (size : BitVec 2) : 8 * nbytes size ≤ 64 := by
  revert size
  decide

/-- The model's reading of a number of `w` bits as two's complement is the statements' one. -/
theorem signed_eq_tc (w x : Nat) : (if x ≥ 2 ^ (w - 1) then (x : Int) - 2 ^ w else x) = tc w x := by
  simp only [tc, ge_iff_le, ← Nat.not_lt, ite_not]
theorem tc_half_bounds {w x : Nat} (hx : x < 2 ^ w) : -(2 ^ (w - 1) : Int) ≤ tc w x ∧ tc w x < 2 ^ (w - 1) := by
  have hcast : (x : Int) < 2 ^ w := by exact_mod_cast hx
  have hhalf : (2 : Int) ^ w ≤ 2 * 2 ^ (w - 1) := by cases w <;> simp [Int.pow_succ, Int.mul_comm]
  unfold tc
  split
  · next h =>
    have hpos : (0 : Int) < 2 ^ (w - 1) := by positivity
    exact ⟨by omega, by exact_mod_cast h⟩
  · next h =>
    have : (2 : Int) ^ (w - 1) ≤ x := by exact_mod_cast Nat.le_of_not_lt h
    omega
/-- A signed number of up to 64 bits keeps its value as a word. -/
theorem toInt_sext_of_le {w x : Nat} (hx : x < 2 ^ w) (hw : w ≤ 64) : (sext w x).toInt = tc w x := by
  have htc : sext w x = BitVec.ofInt 64 (tc w x) := by
    rw [sext, Nat.mod_eq_of_lt hx, ← signed_eq_tc]
    norm_cast
  have hpow : (2 : Int) ^ (w - 1) ≤ 2 ^ 63 := by exact_mod_cast Nat.pow_le_pow_right (by decide) (by omega)
  obtain ⟨hlow, hhigh⟩ := tc_half_bounds hx
  rw [htc, BitVec.toInt_ofInt]
  exact Int.bmod_eq_of_le (by omega) (by omega)
theorem toNat_wd_of_lt {w x : Nat} (hx : x < 2 ^ w) (hw : w ≤ 64) : (wd x).toNat = x :=
  toNat_wd (hx.trans_le (Nat.pow_le_pow_right (by decide) hw))

/-! ### Atomics (R222 to R224) -/

theorem amoVal_min (n old opd : Nat) : amoVal 4 n old opd = if tc (8 * n) old ≤ tc (8 * n) opd then old else opd := by
  simp only [amoVal, signed_eq_tc]
theorem amoVal_max (n old opd : Nat) : amoVal 5 n old opd = if tc (8 * n) old ≥ tc (8 * n) opd then old else opd := by
  simp only [amoVal, signed_eq_tc]

/-- Memory and entries after an AMO of `n` bytes at `va`, whose place is `pa`: the new value written, or none. -/
def State.amoLeaves (s : State) (va n pa : Nat) : Option Nat → State
  | some x => (Spec.used s va true).wrN pa n x
  | none => Spec.used s va false

theorem amoDone_none {s : State} (h : ∀ v, s.cur.saved ≠ [11, v]) : s.amoDone = none := by
  unfold State.amoDone
  split
  · next old hsaved => exact absurd hsaved (h old)
  · rfl
/-- An AMO that is performed now reads the bytes at its place and writes what `g` gives for them. -/
theorem atomic_performs {α : Type} {s : State} (i : Instr) {ea : Word} {n pa : Nat} {o : AmoOrd} (g : Nat → Option Nat × α)
    (h : AtomicAt s ea.toNat n pa o.rel o.wide) :
    s.atomic i ea n o g = .got (s.amoLeaves ea.toNat n pa (g (leBytes s pa n)).1) (g (leBytes s pa n)).2 := by
  obtain ⟨hcore, hfresh, hload, hbelow, hal, hrel, hslog, hboard, w, off, hpl, hcell, hrdup, hown, hhole, hpend, hpoison, hline, hpush, hbuf⟩ := h
  have hrel' : (o.rel && s.relWaits o.wide 0xFFFF) = false := by simpa using hrel
  have hbuf' : (off.bind fun q => s.myCore.bufBad q n wrOk) = none := by
    cases off with
    | none => rfl
    | some q => exact hbuf q rfl
  have hused (wr : Bool) : s.used ea.toNat wr = Spec.used s ea.toNat wr := by simp [State.used, hcore, Spec.used]
  have hput (x : Nat) : (Spec.used s ea.toNat true).put s.turn s.fi s.myCore.ctxid pa w (bytesOf n x) none =
      (Spec.used s ea.toNat true).wrN pa n x := put_own _ _ _ none hrdup hown (by rwa [length_bytesOf])
  simp only [State.atomic, amoDone_none hfresh, hload, addrTrap_none i hbelow hal, hrel', hslog, hboard, hpl, hbuf', hcell, hown, hpend, hline,
    hpush, State.remoteStop, hpoison, unitRd_eq_leBytes hhole, hused, hrdup, Bool.and_false, Bool.false_and, Bool.or_self, Bool.not_false,
    Bool.false_eq_true, if_true, if_false]
  rcases g (leBytes s pa n) with ⟨new, v⟩
  cases new with
  | none => rfl
  | some x => simp only [hput, State.amoLeaves]

/-- Raising no flag leaves nothing behind once a result is written. -/
theorem wvar_flag_zero (s : State) (d : BitVec 6) (v : Word) : (s.flag 0).wvar d v = s.wvar d v := by
  simp [State.flag, State.wvar, setCur_setCur]
section
variable {s : State} {i : Instr} {m : Bool} {named : List Nat} {d a b : BitVec 6} {size : BitVec 2} {scope : BitVec 3} {ord : BitVec 4} {off : BitVec 32}
  {sx : Bool} {pa : Nat} (hready : Ready s named)
  (hat : AtomicAt s (s.x a + BitVec.ofInt 64 off.toInt).toNat (nbytes size) pa (decide (ord.toNat ≥ 2)) (decide (scope.toNat ≥ 3)))
include hready hat
/-- An AMO that is performed now gives the old value, writes what `g` says of it, and raises the flags `g` says. -/
theorem amoI_performs {regs : List Nat} {g : State → Nat → Nat → Option Nat × Nat} {new : Option Nat} {flags : Nat} (hsub : ∀ n ∈ regs, n ∈ named)
    (hg : g s (nbytes size) (leBytes s pa (nbytes size)) = (new, flags)) :
    amoI i m regs d a size scope ord off sx g s = .next (done
      (((s.amoLeaves (s.x a + BitVec.ofInt 64 off.toInt).toNat (nbytes size) pa new).flag flags).wvar d
        (if sx then sext (8 * nbytes size) (leBytes s pa (nbytes size)) else wd (leBytes s pa (nbytes size)))) m 12) := by
  have hperformed := atomic_performs (o := amoOrd scope ord) i (fun old => ((g s (nbytes size) old).1, (old, (g s (nbytes size) old).2))) hat
  rw [hg] at hperformed
  rw [amoI, issue_ready hready hsub]
  show Host.Outcome.next (Res.finish m 12 (Got.res (s.atomic i (s.x a + BitVec.ofInt 64 off.toInt) (nbytes size) (amoOrd scope ord) _) _)) = _
  rw [hperformed]
  rfl
/-- An AMO without flags, its result described by `P`. -/
theorem amoI_gives {regs : List Nat} {g : State → Nat → Nat → Option Nat × Nat} {new : Option Nat} {P : Word → Prop}
    (hexec : exec i s = amoI i m regs d a size scope ord off sx g s) (hsub : ∀ n ∈ regs, n ∈ named)
    (hg : g s (nbytes size) (leBytes s pa (nbytes size)) = (new, 0))
    (hP : P (if sx then sext (8 * nbytes size) (leBytes s pa (nbytes size)) else wd (leBytes s pa (nbytes size)))) :
    ∃ v, P v ∧ exec i s = .next (done ((s.amoLeaves (s.x a + BitVec.ofInt 64 off.toInt).toNat (nbytes size) pa new).wvar d v) m 12) := by
  refine ⟨_, hP, hexec.trans ?_⟩
  rw [amoI_performs hready hat hsub hg, wvar_flag_zero]
/-- The same for an operation of `amoVal` with the low bytes of X[b]. -/
theorem amoVal_gives (op : Nat) {new : Nat} {P : Word → Prop}
    (hexec : exec i s = amoI i m [rX a, rX b, rX d] d a size scope ord off sx (fun s n old => (some (amoVal op n old (s.low b n)), 0)) s)
    (hsub : ∀ n ∈ [rX a, rX b, rX d], n ∈ named)
    (hnew : amoVal op (nbytes size) (leBytes s pa (nbytes size)) (s.low b (nbytes size)) = new)
    (hP : P (if sx then sext (8 * nbytes size) (leBytes s pa (nbytes size)) else wd (leBytes s pa (nbytes size)))) :
    ∃ v, P v ∧ exec i s = .next (done (((Spec.used s (s.x a + BitVec.ofInt 64 off.toInt).toNat true).wrN pa (nbytes size) new).wvar d v) m 12) :=
  amoI_gives (new := some new) hready hat hexec hsub (congrArg (fun x => (some x, 0)) hnew) hP
end

/-! ### FENCE and WAITA (R227 to R229) -/

/-- Writing the issuing frame back as it is leaves nothing behind once the instruction retires. -/
theorem retire_setCur_cur (s : State) (m : Bool) (pc : Word) : (s.setCur s.cur).retire m pc = s.retire m pc := by
  simp [State.retire, setCur_setCur]
/-- With no wait in its group, a fence that has nothing to release passes (R227). -/
theorem execFence_passes {s : State} {named : List Nat} (m : Bool) {kind : BitVec 2} {scope : BitVec 3} (hready : Ready s named)
    (hwaits : s.cur.waits = []) (hrel : kind ≠ 0#2 → s.relWaits (decide (scope.toNat ≥ 3)) 0xFFFF = false) :
    execFence m kind scope s = .next (done s m 4) := by
  have hpass : (decide (kind ≠ 0#2) && s.relWaits (decide (scope.toNat ≥ 3)) 0xFFFF) = false := by simpa using hrel
  have hfence : s.fenceWaits = s.setCur s.cur := by rw [State.fenceWaits, updCur_eq, hwaits, List.map_nil, ← hwaits]
  rw [execFence, issue_ready hready (by simp)]
  simp only [hpass, hfence, Bool.false_eq_true, if_false, Res.finish, cur_setCur, retire_setCur_cur]
  rfl

/-- The conditions of WAITA (R228) on a value `v` of `w` bits with the operand `k`. -/
def waitCond (cond w v k : Nat) : Prop :=
  match cond with
  | 0 => v = k
  | 1 => v ≠ k
  | 2 => tc w v < tc w k
  | 3 => tc w v ≥ tc w k
  | 4 => v < k
  | 5 => v ≥ k
  | 6 => v &&& k ≠ 0
  | _ => v &&& k = 0
theorem waitHolds_iff (cond n v : Nat) (k : Word) : waitHolds cond n v k = true ↔ waitCond cond (8 * n) v (k.toNat % 2 ^ (8 * n)) := by
  unfold waitHolds waitCond
  simp only [signed_eq_tc]
  split <;> simp only [decide_eq_true_eq]

section
variable {s s' : State} {i : Instr} {m : Bool} {len v : Nat} {named : List Nat} {d a b e c : BitVec 6} {cond : BitVec 4} {size : BitVec 2} {opd : Word}
variable (ord : BitVec 4) (hready : Ready s named) (hsub : ∀ n ∈ [rX a, rX b, rX c, rX d, rX e], n ∈ named)
  (hread : s.load i (s.x a) (nbytes size) 0 regLoad = .got s' v)
include hready hsub hread
theorem waitI_met (h : waitHolds cond.toNat (nbytes size) v (s.x b + opd) = true) : waitI i m len d a b e c cond size ord opd s =
    .next (done ((s'.wvar d (waitVal cond.toNat (nbytes size) v)).wvar e 1#64) m len) := by
  rw [waitI, issue_ready hready hsub]
  simp only [hread, Got.res, h, if_true]
  rfl
theorem waitI_unmet (h : waitHolds cond.toNat (nbytes size) v (s.x b + opd) = false) (hlimit : (s'.x c).toNat % 2 ^ 48 = 0) :
    waitI i m len d a b e c cond size ord opd s = .next (done ((s'.wvar d (waitVal cond.toNat (nbytes size) v)).wvar e 0#64) m len) := by
  have hfld : fld (s'.x c) 0 48 = 0 := by simpa [fld_eq] using hlimit
  rw [waitI, issue_ready hready hsub]
  simp only [hread, Got.res, h, hfld, Bool.false_eq_true, if_false, if_true]
  rfl
end

/-! ### Barriers (R231 to R234) -/

theorem phaseDone_iff (c p : Nat) : phaseDone c p = true ↔ 1 ≤ (c + 2 ^ 32 - p) % 2 ^ 32 ∧ (c + 2 ^ 32 - p) % 2 ^ 32 ≤ 2 ^ 31 := by simp [phaseDone]
theorem barWord_status {status : Nat} (phase : Nat) (h : status < 2 ^ 32) : (barWord status phase).toNat / 2 ^ 32 = status := by
  rw [barWord, toNat_wd (by omega)]
  omega

theorem myBar_member {s : State} {g : Gang} (hgang : s.myCore.gang = some g) (harmed : (s.barOf g).armed = true) (hmem : s.turn ∈ (s.barOf g).members) :
    s.myBar = some (g, s.barOf g) := by simp [State.myBar, hgang, harmed, hmem]
theorem myBar_noGang {s : State} (hgang : s.myCore.gang = none) : s.myBar = none := by simp [State.myBar, hgang]
theorem myBar_outside {s : State} {g : Gang} (hgang : s.myCore.gang = some g) (h : (s.barOf g).armed = false ∨ s.turn ∉ (s.barOf g).members) :
    s.myBar = none := by rcases h with h | h <;> simp [State.myBar, hgang, h]

theorem advance_arr (n : Nat) (b : Barrier) : (Barrier.advance n b).arr = b.arr := by
  induction n generalizing b with
  | zero => rfl
  | succ n ih =>
    rw [Barrier.advance]
    split
    · exact ih _
    · rfl
theorem barOf_setBar (s : State) (g : Gang) (b : Barrier) : (s.setBar g b).barOf g = b := by
  simp [State.barOf, State.setBar, Tab.get_put_self]
/-- The sweep ends waits in frames, and leaves the barriers. -/
theorem barSweep_dies (s : State) (g : Gang) : (s.barSweep g).dies = s.dies := by
  unfold State.barSweep
  refine List.foldlRecOn (motive := fun t : State => t.dies = s.dies) _ _ rfl fun t ht k _ => ?_
  split
  · refine List.foldlRecOn (motive := fun t : State => t.dies = s.dies) _ _ ht fun t ht f _ => ?_
    split <;> exact ht
  · exact ht
/-- An arrival raises the core's own count by one (R231). -/
theorem arrive_counts (s : State) (g : Gang) (b : Barrier) :
    ((s.arrive g b).barOf g).arr.get s.turn 0 = (b.arr.get s.turn 0 + 1) % 2 ^ 32 := by
  have hbar : (s.arrive g b).barOf g = Barrier.advance 4 { b with arr := b.arr.put s.turn ((b.arr.get s.turn 0 + 1) % 2 ^ 32) } := by
    rw [State.arrive, State.barOf, State.die, barSweep_dies]
    exact barOf_setBar ..
  rw [hbar, advance_arr]
  exact Tab.get_put_self ..

section
variable {s : State} {m : Bool} {named : List Nat} {d a b : BitVec 6} (hready : Ready s named)
include hready
section
variable {i : Instr} {wait : Bool} {g : Gang} {r : Barrier} (hd : ∀ n ∈ [rX d], n ∈ named) (hbar : s.myBar = some (g, r))
include hd hbar
theorem barI_aborted (habort : r.aborted = true) : barI i m d wait s = .next (done (s.wvar d (barWord 3 (r.arr.get s.turn 0))) m 4) := by
  rw [barI, issue_ready hready hd]
  simp only [hbar, habort, if_true]
  rfl
theorem barI_ahead (habort : r.aborted = false) (hahead : (r.arr.get s.turn 0 + 2 ^ 32 - r.c) % 2 ^ 32 ≥ 2) :
    barI i m d wait s = .next (done (s.wvar d (barWord 1 (r.arr.get s.turn 0))) m 4) := by
  rw [barI, issue_ready hready hd]
  simp only [hbar, habort, hahead, Bool.false_eq_true, if_false, if_true]
  rfl
/-- A counted arrival goes on at once where it does not wait, or its phase is complete. -/
theorem barI_counted (habort : r.aborted = false) (hnext : (r.arr.get s.turn 0 + 2 ^ 32 - r.c) % 2 ^ 32 < 2) (hrel : s.relWaits g.wide 0xFFFF = false)
    (hgo : wait = false ∨ phaseDone ((s.arrive g r).barOf g).c (r.arr.get s.turn 0) = true) :
    barI i m d wait s = .next (done ((s.arrive g r).wvar d (barWord 0 (r.arr.get s.turn 0))) m 4) := by
  have hends : (!wait || phaseDone ((s.arrive g r).barOf g).c (r.arr.get s.turn 0)) = true := by simpa using hgo
  rw [barI, issue_ready hready hd]
  simp only [hbar, habort, Nat.not_le.mpr hnext, hrel, hends, Bool.false_eq_true, if_false, if_true]
  rfl
end
section
variable {g : Gang} {r : Barrier} (hsub : ∀ n ∈ [rX a, rX b, rX d], n ∈ named) (hbar : s.myBar = some (g, r))
include hsub hbar
theorem execBarwt_aborted (habort : r.aborted = true) : execBarwt m d a b s = .next (done (s.wvar d (barWord 3 r.c)) m 4) := by
  rw [execBarwt, issue_ready hready hsub]
  simp only [hbar, habort, if_true]
  rfl
theorem execBarwt_complete (habort : r.aborted = false) (hdone : phaseDone r.c ((s.x a).toNat % 2 ^ 32) = true) :
    execBarwt m d a b s = .next (done (s.wvar d (barWord 0 r.c)) m 4) := by
  rw [execBarwt, issue_ready hready hsub]
  simp only [hbar, habort, fld_eq, Nat.pow_zero, Nat.div_one, hdone, Bool.false_eq_true, if_false, if_true]
  rfl
theorem execBarwt_open (habort : r.aborted = false) (hopen : phaseDone r.c ((s.x a).toNat % 2 ^ 32) = false) (hlimit : (s.x b).toNat % 2 ^ 48 = 0) :
    execBarwt m d a b s = .next (done (s.wvar d (barWord 2 r.c)) m 4) := by
  rw [execBarwt, issue_ready hready hsub]
  simp only [hbar, habort, fld_eq, Nat.pow_zero, Nat.div_one, hopen, hlimit, Bool.false_eq_true, if_false, if_true]
  rfl
end
/-- Without an armed barrier of its own, a core's BAR, BARARV and BARWT show NONE and do nothing else (R232). -/
theorem barrier_none (hsub : ∀ n ∈ [rX a, rX b, rX d], n ∈ named) (hbar : s.myBar = none) :
    ∀ i ∈ [Instr.bar m d, Instr.bararv m d, Instr.barwt m d a b],
      ∃ v : Word, v.toNat / 2 ^ 32 = 4 ∧ exec i s = .next (done (s.ticked.wvar d v) m 4) := by
  have hd : ∀ n ∈ [rX d], n ∈ named := fun n hn => hsub n (List.mem_cons_of_mem _ (List.mem_cons_of_mem _ hn))
  have hbarI (i : Instr) (wait : Bool) : barI i m d wait s = .next (done (s.barNone d) m 4) := by
    rw [barI, issue_ready hready hd]
    simp only [hbar]
    rfl
  have hbarwt : execBarwt m d a b s = .next (done (s.barNone d) m 4) := by
    rw [execBarwt, issue_ready hready hsub]
    simp only [hbar]
    rfl
  intro i hi
  refine ⟨_, barWord_status (Config.freeWord s.tick).toNat (by decide), ?_⟩
  simp only [List.mem_cons, List.not_mem_nil, or_false] at hi
  rcases hi with rfl | rfl | rfl
  · exact hbarI _ true
  · exact hbarI _ false
  · exact hbarwt
end

end Sys2Proof.Machine
end

section
/-! The statements on atomics, fences, waits and barriers. -/
open Sys2Proof Sys2Proof.Machine Sys2Proof.Spec
namespace Sys2Proof.Proofs

/-- R222. -/
theorem atomicResults_holds : atomicResults := by
  intro s m d a b c size scope ord off pa hready n B va old o cmp signed plain gives hat
  have hsigned : signed (sext B old) := toInt_sext_of_le (leBytes_lt ..) (eight_nbytes_le size)
  have hplain : plain (wd old) := toNat_wd_of_lt (leBytes_lt s pa n) (eight_nbytes_le size)
  have hsub : ∀ k ∈ [rX a, rX b, rX d], k ∈ [a.toNat, b.toNat, c.toNat, d.toNat] := by simp [rX]
  have operation {i : Instr} {sx : Bool} {P : Word → Prop} (op new : Nat)
      (hexec : exec i s = amoI i m [rX a, rX b, rX d] d a size scope ord off sx (fun s n old => (some (amoVal op n old (s.low b n)), 0)) s)
      (hnew : amoVal op n old o = new) (hP : P (if sx then sext B old else wd old)) : gives i (some new) P :=
    amoVal_gives hready hat op hexec hsub hnew hP
  refine ⟨operation 0 _ rfl rfl hsigned, operation 1 _ rfl rfl hsigned, operation 2 _ rfl rfl hsigned, operation 3 _ rfl rfl hsigned,
    operation 4 _ rfl (amoVal_min ..) hsigned, operation 5 _ rfl (amoVal_max ..) hsigned, operation 6 _ rfl rfl hplain, operation 7 _ rfl rfl hplain,
    operation 8 _ rfl rfl hsigned, ?amocas⟩
  case amocas =>
    exact amoI_gives (new := if old = cmp then some o else none) hready hat (exec_amocas m d a b c size scope ord off s) (by simp [rX]) rfl hsigned

/-- R223. -/
theorem atomicFloatAdd_holds : atomicFloatAdd := by
  refine ⟨?amofadd, ?samples⟩
  case amofadd =>
    intro s m d a b ft size scope ord off pa hready n va old r hat
    rw [exec_amofadd, execAmofadd, amoI_performs hready hat (by simp [rX]) rfl]
    rfl
  case samples => decide +kernel

/-- Settles O25: an AMO that is performed now is `amoI_gives`, each operation with the new value and the flags that it gives. -/
theorem atomics : Obligations.Atomics := ⟨atomicResults_holds, atomicFloatAdd_holds⟩

/-- R227 to R229. -/
theorem fencesAndWaits_holds : fencesAndWaits := by
  intro s s' m d a b e c kind size scope cond ord imm lit v hready n B holds shown ends acts
  refine ⟨fun hwaits hrel => execFence_passes m hready hwaits hrel, fun _ _ => ?_⟩
  have hshown (hv : v < 2 ^ B) : shown (waitVal cond.toNat n v) := by
    simp only [shown, waitVal]
    split
    · exact toInt_sext_of_le hv (eight_nbytes_le size)
    · exact toNat_wd_of_lt hv (eight_nbytes_le size)
  have waits (i : Instr) (len : Nat) (opd : Word) (hexec : exec i s = waitI i m len d a b e c cond size ord opd s) : acts i len (s.x b + opd) := by
    intro hread hv
    have hsub : ∀ k ∈ [rX a, rX b, rX c, rX d, rX e], k ∈ [a.toNat, b.toNat, c.toNat, d.toNat, e.toNat] := by simp [rX]
    have hiff : waitHolds cond.toNat n v (s.x b + opd) = true ↔ holds (s.x b + opd) := waitHolds_iff ..
    refine ⟨fun h => ⟨_, hshown hv, hexec.trans ?_⟩, fun h hlimit => ⟨_, hshown hv, hexec.trans ?_⟩⟩
    · exact waitI_met ord hready hsub hread (hiff.mpr h)
    · exact waitI_unmet ord hready hsub hread (Bool.eq_false_iff.mpr (mt hiff.mp h)) hlimit
  exact ⟨waits _ 12 _ rfl, waits _ 20 _ rfl⟩

/-- R231, R232, R234. -/
theorem barriers_holds : barriers := by
  intro s m d a b g hready hgang r n word u complete p
  have hd : ∀ k ∈ [rX d], k ∈ [a.toNat, b.toNat, d.toNat] := by simp [rX]
  have hsub : ∀ k ∈ [rX a, rX b, rX d], k ∈ [a.toNat, b.toNat, d.toNat] := by simp [rX]
  have arrivals {t : State} (h : ∀ i wait, barI i m d wait s = .next t) : ∀ i ∈ [Instr.bar m d, Instr.bararv m d], exec i s = .next t := by
    simp only [List.mem_cons, List.not_mem_nil, or_false]
    rintro i (rfl | rfl)
    · exact h _ true
    · exact h _ false
  refine ⟨fun harmed hmem habort => ?_, fun harmed hmem habort => ?_, fun hout => barrier_none hready hsub (myBar_outside hgang hout)⟩
  · have hbar := myBar_member hgang harmed hmem
    refine ⟨fun hnext hrel => ⟨arrive_counts s g r, ?_, fun hdone => ?_⟩, fun hahead => ?_, fun hdone => ?_, fun hopen hlimit => ?_⟩
    · exact barI_counted hready hd hbar habort hnext hrel (.inl rfl)
    · exact barI_counted hready hd hbar habort hnext hrel (.inr ((phaseDone_iff ..).mpr hdone))
    · exact arrivals fun i wait => barI_ahead hready hd hbar habort hahead
    · exact execBarwt_complete hready hsub hbar habort ((phaseDone_iff ..).mpr hdone)
    · exact execBarwt_open hready hsub hbar habort (Bool.eq_false_iff.mpr (mt (phaseDone_iff ..).mp hopen)) hlimit
  · have hbar := myBar_member hgang harmed hmem
    exact ⟨arrivals fun i wait => barI_aborted hready hd hbar habort, execBarwt_aborted hready hsub hbar habort⟩

/-- R232. -/
theorem noGang_holds : noGang := by
  intro s m d a b hready hgang
  exact barrier_none hready (by simp [rX]) (myBar_noGang hgang)

/-- Settles O26: FENCE, WAITA and the three barrier instructions where they go on at once. PHASE with NONE is free, and with ABORT shows the
member's own count (log 27). -/
theorem fencesWaitsAndBarriers : Obligations.FencesWaitsAndBarriers := ⟨fencesAndWaits_holds, barriers_holds, noGang_holds⟩

end Sys2Proof.Proofs
end

section
/-! The checks of T, status words, and stores of the sequencer into a sheet's table (R209, R237, R260, R449). -/
open Sys2Proof Sys2Proof.Machine Sys2Proof.Spec
namespace Sys2Proof.Tab

/-- A test that does not tell a new entry from what stood under its number finds the same in the table. -/
theorem any_put {α : Type} (q : α → Bool) (T : Tab α) (k : Nat) (v d : α) (hd : q d = false) (hv : q v = q (T.get k d)) :
    (T.put k v).l.any (fun e => q e.2) = T.l.any fun e => q e.2 := by
  have look_any (l : List (Nat × α)) (h : q ((look l k).getD d) = true) : l.any (fun e => q e.2) = true := by
    induction l with
    | nil => simp [look, hd] at h
    | cons e r ih =>
      by_cases he : e.1 = k
      · simp_all [look]
      · simp [ih (by simpa [look, he] using h)]
  show (ins T.l k v).any _ = _
  rw [get] at hv
  generalize T.l = l at hv
  induction l with
  | nil => simpa [ins, look, hd] using hv
  | cons e r ih =>
    obtain ⟨j, u⟩ := e
    by_cases hj : j = k
    · simp_all [ins, look]
    · have hv' : q v = q ((look r k).getD d) := by simpa [look, hj] using hv
      rw [ins, if_neg hj]
      split
      · cases hq : q v with
        | false => simp [hq]
        | true => simp [hq, look_any r (hv' ▸ hq)]
      · simp [ih hv']

end Sys2Proof.Tab
namespace Sys2Proof.Machine

/-! ### The state once T is translated: of the checks only A bits stay (R372) -/

section
variable (s : State) (va : Nat) (wr : Bool)
theorem core_used : (used s va wr).core s.turn = { s.core s.turn with tlb := markIn s.myCore.ctxid va wr (s.core s.turn).tlb } := by
  simp [used, State.markAD]
theorem fi_used : (used s va wr).fi = s.fi := by rw [State.fi, State.fi, show (used s va wr).turn = s.turn from rfl, core_used]
theorem sheetE_used (d t : Nat) : (used s va wr).sheetE d t = s.sheetE d t := by
  by_cases hd : d = dieOf s.turn
  · subst hd; simp [State.sheetE, used, State.markAD]
  · simp [State.sheetE, used, State.markAD, die_setDie_ne _ _ hd]
theorem ctxid_used : (used s va wr).myCore.ctxid = s.myCore.ctxid := by
  rw [State.myCore, show (used s va wr).turn = s.turn from rfl, core_used]; rfl
theorem x_used (n : BitVec 6) : (used s va wr).x n = s.x n := by rw [State.x, cur_used]; rfl
theorem ownGo_used : (used s va wr).ownGo = s.ownGo := by
  rw [State.ownGo, fi_used]
  exact Tab.any_put (fun c : Core => (c.mx.held ++ c.cp.held).any fun h => h.core = s.turn && h.frame = s.fi) s.cores _ _ {} rfl rfl
theorem relWaits_used (wide : Bool) (dst : Nat) : (used s va wr).relWaits wide dst = s.relWaits wide dst := by
  simp only [State.relWaits, State.loadWait, cur_used, fi_used, ownGo_used, show (used s va wr).turn = s.turn from rfl, core_used]
  rfl
theorem takesTrap_used (h : TakesTrap s s.turn s.fi) : TakesTrap (used s va wr) (used s va wr).turn (used s va wr).fi := by
  obtain ⟨hcore, hhandler, htvec, hrest⟩ := h
  rw [fi_used]
  exact ⟨hcore, hhandler, by rwa [show (used s va wr).turn = s.turn from rfl, core_used], hrest⟩
end
end Sys2Proof.Machine
end

section
/-! What an instruction on a sheet finds once the checks of T pass, and how it ends with a status (R260, R261, R449). -/
open Sys2Proof Sys2Proof.Machine Sys2Proof.Spec
namespace Sys2Proof.Machine

/-! ### The checks of T (R260, R449) -/

section
variable {s : State} {a : BitVec 6} {d t room : Nat}
theorem oneDie_region {w : Word} (h : OneDie w d t room) : regionOf t = .main d := h.2 0 (by omega)
/-- Where the page of T passes, CDEF of cell 0 and an instruction on a sheet of its context go on. -/
theorem sheetT_passes (h : SheetPage s a d t room) : ∃ w, OneDie w d t room ∧ ∀ (i : Instr) (create : Bool),
    (create = true ∨ ∃ x, s.sheetE d t = some x ∧ x.ctx = s.myCore.ctxid) → ∀ bad body, s.sheetT i a create bad body = body (sheetS s a) ⟨d, t, room, w⟩ := by
  obtain ⟨htsc, hacq, hrange, halign, hself, hhole, e, l, hlook, rfl, rfl, hdie, hcell, hown⟩ := h
  refine ⟨e.w, hdie, fun i create hcreate bad body => ?_⟩
  have hown' : (s.markAD s.turn s.myCore.ctxid (s.x a).toNat false).isOwn (e.pa (s.x a).toNat) = true := hown
  have hsheet : (s.markAD s.turn s.myCore.ctxid (s.x a).toNat false).sheetE d (e.pa (s.x a).toNat) = s.sheetE d (e.pa (s.x a).toNat) := sheetE_used ..
  have hctx : (s.markAD s.turn s.myCore.ctxid (s.x a).toNat false).myCore.ctxid = s.myCore.ctxid := ctxid_used ..
  simp only [State.sheetT, State.xn, hacq, Nat.not_le.mpr hrange, halign, htsc, hself, hhole, hlook, oneDie_region hdie, hcell, hown', sheetS, used,
    if_false, Bool.false_eq_true, ne_eq, not_true_eq_false, Bool.not_true, Bool.or_self]
  obtain rfl | ⟨x, hx, hxctx⟩ := hcreate
  · rfl
  · cases create
    · simp only [hsheet, hx, hctx, hxctx, if_true, Bool.false_eq_true, if_false]
    · rfl
/-- CDEF of cell 0 with a page for T goes on. -/
theorem page_issues {named : List Nat} (hready : Ready s named) (h : SheetPage s a d t room) : ∃ w, OneDie w d t room ∧
    ∀ (m : Bool) (len : Nat) (i : Instr) (regs : List Nat) (bad : State → Res) (body : State → Sheet → Res), (∀ n ∈ regs, n ∈ named) →
      issue m len i regs (fun s => s.sheetT i a true bad body) s = .next ((body (sheetS s a) ⟨d, t, room, w⟩).finish m len) := by
  obtain ⟨w, hdie, hT⟩ := sheetT_passes h
  exact ⟨w, hdie, fun m len i regs bad body hsub => by rw [issue_ready hready hsub, hT i true (.inl rfl)]⟩
/-- An instruction on a sheet goes on where all checks of T pass. -/
theorem sheet_issues {named : List Nat} (hready : Ready s named) (h : SheetAt s a d t room) : ∃ w,
    ∀ (m : Bool) (len : Nat) (i : Instr) (regs : List Nat) (bad : State → Res) (body : State → Sheet → Res), (∀ n ∈ regs, n ∈ named) →
      issue m len i regs (fun s => s.sheetT i a false bad body) s = .next ((body (sheetS s a) ⟨d, t, room, w⟩).finish m len) := by
  obtain ⟨hpage, x, hx, hctx, -⟩ := h
  obtain ⟨w, -, hT⟩ := sheetT_passes hpage
  exact ⟨w, fun m len i regs bad body hsub => by rw [issue_ready hready hsub, hT i false (.inr ⟨x, hx, hctx⟩)]⟩
end

/-! What an instruction reads once T is translated is what stood there. -/

section
variable (s : State) (a : BitVec 6)
theorem cur_sheetS : (sheetS s a).cur = s.cur := cur_used ..
theorem x_sheetS (r : BitVec 6) : (sheetS s a).x r = s.x r := x_used ..
theorem setup_sheetS (t : Nat) : (sheetS s a).setup t = s.setup t := rfl
theorem opened_sheetS (t : Nat) : (sheetS s a).opened t = s.opened t := rfl
theorem hdr_sheetS (t off : Nat) : (sheetS s a).hdr t off = s.hdr t off := rfl
/-- A cause raised once T is translated, taken at once. -/
theorem sheetS_traps {i : Instr} {m : Bool} {len : Nat} {tr : Trap} (htakes : TakesTrap s s.turn s.fi) (hcause : tr.cause < 0x80)
    (h : exec i s = .next ((Res.trap (sheetS s a) tr).finish m len)) : exec i s = .next (trapState (sheetS s a) tr s.cur.pc) := by
  rw [h, Res.finish, sheetS, raise_handler (takesTrap_used s _ _ htakes) hcause, cur_used]
end

/-! ### Status words (R261) -/

theorem toNat_stWord {code detail : Nat} (cell g : Nat) (hcode : code < 256) (hdetail : detail < 256) : (stWord code cell g detail).toNat =
    g % 2 ^ 32 * 2 ^ 32 + cell % 65536 * 2 ^ 16 + detail * 2 ^ 8 + code := by
  rw [stWord, toNat_wd (by omega), Nat.mod_eq_of_lt hdetail]
theorem St_stWord {code cell detail : Nat} (g : Nat) (hcode : code < 256) (hcell : cell < 65536) (hdetail : detail < 256) :
    St (stWord code cell g detail) code cell detail := by
  rw [St, toNat_stWord cell g hcode hdetail]; omega
theorem gen_stWord {code cell detail : Nat} (g : Nat) (hcode : code < 256) (hdetail : detail < 256) :
    gen (stWord code cell g detail) = g % 2 ^ 32 := by
  rw [gen, toNat_stWord cell g hcode hdetail]; omega

section
variable {i : Instr} {s u : State} {m : Bool} {len code cell detail g : Nat} {d : BitVec 6} {P : State → Word → Prop}
/-- An instruction that ends with a status whose generation no rule gives. -/
theorem endsSt_free (h : exec i s = .next ((u.endSt d code cell detail none).finish m len))
    (hP : ∀ w, St w code cell detail → P u.ticked w) (hcell : cell < 65536 := by omega) (hcode : code < 256 := by decide) (hdetail : detail < 256 := by decide) :
    EndsSt i s m len d P :=
  ⟨u.ticked, _, hP _ (St_stWord _ hcode hcell hdetail), h⟩
/-- An instruction that ends with a status that names a generation. -/
theorem endsSt_gen (h : exec i s = .next ((u.endSt d code cell detail (some g)).finish m len))
    (hP : ∀ w, St w code cell detail → gen w = g % 2 ^ 32 → P u w) (hcell : cell < 65536 := by omega) (hcode : code < 256 := by decide)
    (hdetail : detail < 256 := by decide) : EndsSt i s m len d P :=
  ⟨u, _, hP _ (St_stWord _ hcode hcell hdetail) (gen_stWord _ hcode hdetail), h⟩
end
end Sys2Proof.Machine
end

section
/-! Fields of a word, bytes of memory, and the stores of the sequencer (R209, R237). -/
open Sys2Proof Sys2Proof.Machine Sys2Proof.Spec
namespace Sys2Proof.Machine

/-! ### Fields of a word replaced -/

theorem testBit_putFld (w : Word) {lo n : Nat} (v : Nat) (h : lo + n ≤ 64) (i : Nat) :
    (putFld w lo n v).toNat.testBit i = if lo ≤ i ∧ i < lo + n then v.testBit (i - lo) else w.toNat.testBit i := by
  have hlow : w.toNat % 2 ^ lo < 2 ^ lo := Nat.mod_lt _ (Nat.two_pow_pos lo)
  have hv : v % 2 ^ n < 2 ^ n := Nat.mod_lt _ (Nat.two_pow_pos n)
  have hparts : w.toNat - w.toNat / 2 ^ lo % 2 ^ n * 2 ^ lo + v % 2 ^ n * 2 ^ lo =
      2 ^ lo * (2 ^ n * (w.toNat / 2 ^ lo / 2 ^ n) + v % 2 ^ n) + w.toNat % 2 ^ lo := by
    have hw : 2 ^ lo * (2 ^ n * (w.toNat / 2 ^ lo / 2 ^ n) + w.toNat / 2 ^ lo % 2 ^ n) + w.toNat % 2 ^ lo = w.toNat := by
      rw [Nat.div_add_mod, Nat.div_add_mod]
    rw [Nat.mul_add] at hw ⊢
    rw [Nat.mul_comm (w.toNat / 2 ^ lo % 2 ^ n), Nat.mul_comm (v % 2 ^ n)]
    omega
  have hbit : w.toNat.testBit i = true → i < 64 := fun hi => Nat.lt_of_not_le fun h64 =>
    absurd hi (by simp [Nat.testBit_lt_two_pow (w.isLt.trans_le (Nat.pow_le_pow_right (by decide) h64))])
  rw [putFld, fld_eq, Nat.shiftLeft_eq, Nat.shiftLeft_eq, hparts, wd, BitVec.toNat_ofNat, Nat.testBit_mod_two_pow,
    Nat.testBit_two_pow_mul_add _ hlow, Nat.testBit_two_pow_mul_add _ hv]
  simp only [Nat.testBit_mod_two_pow, Nat.testBit_div_two_pow]
  by_cases h1 : i < lo
  · simp [h1, show i < 64 by omega, show ¬(lo ≤ i ∧ i < lo + n) by omega]
  · by_cases h2 : i - lo < n
    · simp [h1, h2, show i < 64 by omega, show lo ≤ i ∧ i < lo + n by omega]
    · simp only [h1, h2, if_false, show ¬(lo ≤ i ∧ i < lo + n) by omega, show i - lo - n + n + lo = i by omega]
      cases hb : w.toNat.testBit i with
      | false => simp
      | true => simp [hbit hb]
theorem testBit_fld (w : Word) (lo n i : Nat) : (fld w lo n).testBit i = (decide (i < n) && w.toNat.testBit (lo + i)) := by
  rw [fld, Nat.testBit_mod_two_pow, Nat.testBit_shiftRight]
/-- The field itself. -/
theorem fld_putFld_self (w : Word) {lo n : Nat} (v : Nat) (h : lo + n ≤ 64) : fld (putFld w lo n v) lo n = v % 2 ^ n := by
  refine Nat.eq_of_testBit_eq fun i => ?_
  rw [testBit_fld, testBit_putFld w v h, Nat.testBit_mod_two_pow]
  by_cases hi : i < n
  · rw [if_pos (by omega), Nat.add_sub_cancel_left]
  · simp [hi]
/-- A field beside it. -/
theorem fld_putFld_ne (w : Word) {lo n j k : Nat} (v : Nat) (h : lo + n ≤ 64) (hd : j + k ≤ lo ∨ lo + n ≤ j) : fld (putFld w lo n v) j k = fld w j k := by
  refine Nat.eq_of_testBit_eq fun i => ?_
  rw [testBit_fld, testBit_fld, testBit_putFld w v h]
  by_cases hi : i < k
  · rw [if_neg (by omega)]
  · simp [hi]

/-! ### Bytes of memory -/

theorem rd_congr {s u : State} (h : u.mem = s.mem) (b : Nat) : u.rd b = s.rd b := by rw [State.rd, h]; rfl
theorem leBytes_congr {s u : State} {a n : Nat} (h : ∀ b, a ≤ b → b < a + n → u.rd b = s.rd b) : leBytes u a n = leBytes s a n := by
  rw [← ofBytes_rdBytes, ← ofBytes_rdBytes, rdBytes_congr s u a n h]
theorem rd64_eq (s : State) (a : Nat) : s.rd64 a = wd (leBytes s a 8) := by rw [State.rd64, State.rdN, ofBytes_rdBytes]
theorem toNat_rd64 (s : State) (a : Nat) : (s.rd64 a).toNat = leBytes s a 8 := by rw [rd64_eq, toNat_wd (leBytes_lt s a 8)]
theorem toNat_hdr (s : State) (t off : Nat) : (s.hdr t off).toNat = leBytes s (t + off) 8 := toNat_rd64 ..
/-- Where memory holds these bytes, the number read is theirs. -/
theorem leBytes_of_bytes {s : State} {a : Nat} {l : List (BitVec 8)} (h : ∀ j, j < l.length → s.rd (a + j) = l.getD j 0#8) :
    leBytes s a l.length = ofBytes l := by
  induction l generalizing a with
  | nil => rfl
  | cons b r ih =>
    have hrest : leBytes s (a + 1) r.length = ofBytes r := ih fun j hj => by
      rw [Nat.add_assoc, Nat.add_comm 1]; exact h (j + 1) (Nat.succ_lt_succ hj)
    rw [List.length_cons, leBytes, hrest, ofBytes, show s.rd a = b from h 0 (Nat.succ_pos _)]

/-! ### The sequencer's stores (R209, R237) -/

/-- The addresses, at home and in the replicas, that a store of the sequencer of the table at `t` writes. -/
def State.copies (s : State) (t a : Nat) : List Nat :=
  a :: match s.sheetE (sheetDie t) t with
    | some x => if entRdup x.w then (List.range 6).map fun e => dieRead e a x.w else []
    | none => []
theorem seqStore_eq (s : State) (t a : Nat) (l : List (BitVec 8)) : s.seqStore t a l = (s.copies t a).foldl (fun s b => s.store b l) s := by
  cases hx : s.sheetE (sheetDie t) t with
  | none => simp [State.seqStore, State.copies, hx]
  | some x => cases hr : entRdup x.w <;> simp [State.seqStore, State.copies, hx, hr, List.foldl_map]
theorem foldl_store_fields (l : List (BitVec 8)) (as : List Nat) (s : State) : ∃ M P, as.foldl (fun s b => s.store b l) s = { s with mem := M, poison := P } := by
  induction as generalizing s with
  | nil => exact ⟨s.mem, s.poison, rfl⟩
  | cons b r ih => exact ih (s.store b l)
theorem seqStore_fields (s : State) (t a : Nat) (l : List (BitVec 8)) : ∃ M P, s.seqStore t a l = { s with mem := M, poison := P } :=
  seqStore_eq .. ▸ foldl_store_fields ..
/-- Bytes outside every place a run is stored at are kept. -/
theorem rd_foldl_store_out {l : List (BitVec 8)} {b : Nat} {as : List Nat} (s : State) (h : ∀ c ∈ as, b < c ∨ c + l.length ≤ b) :
    (as.foldl (fun s c => s.store c l) s).rd b = s.rd b := by
  induction as generalizing s with
  | nil => rfl
  | cons c r ih => rw [List.foldl_cons, ih _ fun e he => h e (List.mem_cons_of_mem _ he), rd_store_out s c l (h c List.mem_cons_self)]
/-- A place a run is stored at, which no other of its places overlaps, holds it. -/
theorem rd_foldl_store_in {l : List (BitVec 8)} {s : State} {a j : Nat} {as : List Nat} (hm : Memory.wf s.mem = true) (hj : j < l.length)
    (hin : a ∈ as ∨ s.rd (a + j) = l.getD j 0#8) (h : ∀ c ∈ as, a + j < c ∨ c + l.length ≤ a + j ∨ c = a) :
    (as.foldl (fun s c => s.store c l) s).rd (a + j) = l.getD j 0#8 := by
  induction as generalizing s with
  | nil => exact hin.resolve_left (by simp)
  | cons c r ih =>
    have hhere : (s.store a l).rd (a + j) = l.getD j 0#8 := by rw [rd_store_in s a l hm hj, ← List.getD_eq_getElem l 0#8 hj]
    refine ih (wf_store s c l hm) ?_ fun e he => h e (List.mem_cons_of_mem _ he)
    rcases h c List.mem_cons_self with hout | hout | rfl
    · rw [rd_store_out s c l (.inl hout)]
      exact hin.imp_left fun ha => (List.mem_cons.mp ha).resolve_left fun e => by omega
    · rw [rd_store_out s c l (.inr hout)]
      exact hin.imp_left fun ha => (List.mem_cons.mp ha).resolve_left fun e => by omega
    · exact .inr hhere

end Sys2Proof.Machine
end

section
/-! A sheet's table in its home die and in its replicas (R209). -/
open Sys2Proof Sys2Proof.Machine Sys2Proof.Spec
namespace Sys2Proof.Machine

/-! ### A table in its home die: what the sequencer's stores leave at home and in the replicas -/

/-- `R` bytes from the table at `t` lie in die `d`, which the page entry of a sheet there names as its home if the page has replicas. -/
structure State.Homed (s : State) (d t R : Nat) : Prop where
  home : ∀ x, s.sheetE d t = some x → entRdup x.w = true → entHome x.w = d
  region : ∀ o, o < R → regionOf (t + o) = .main d
  room : 0x1000 ≤ R

theorem regionOf_eq_main {pa d : Nat} (h : regionOf pa = .main d) : pa % 2 ^ 40 < 0x9000000000 ∧ pa % 2 ^ 40 / 0x1800000000 = d := by
  have hrange : ¬pa ≥ 2 ^ 56 := fun hp => by rw [regionOf, if_pos hp] at h; cases h
  have hlow : localOf pa < 0x9000000000 := by
    by_contra hl
    rw [regionOf, if_neg hrange, if_neg hl] at h
    split at h
    · cases h
    · split at h <;> cases h
  rw [regionOf, if_neg hrange, if_pos hlow] at h
  exact ⟨hlow, Region.main.inj h⟩

section
variable {s : State} {d t R : Nat} (hs : s.Homed d t R)
include hs
theorem homed_die : sheetDie t = d := by rw [sheetDie, show regionOf t = .main d from hs.region 0 (by have := hs.room; omega)]
theorem homed_span : 0x1800000000 * d ≤ t ∧ R ≤ 0x1800000000 := by
  have hroom := hs.room
  have hfirst := regionOf_eq_main (hs.region 0 (by omega))
  rw [Nat.add_zero] at hfirst
  refine ⟨by omega, Nat.le_of_not_lt fun hbig => ?_⟩
  have hbeyond := regionOf_eq_main (hs.region 0x1800000000 hbig)
  omega
/-- The places of a store of the sequencer lie at one offset in their dies. -/
theorem mem_copies {a c : Nat} (ha : t ≤ a) : c ∈ s.copies t a ↔
    ∃ e, c = a - 0x1800000000 * d + 0x1800000000 * e ∧ (e = d ∨ e < 6 ∧ ∃ x, s.sheetE d t = some x ∧ entRdup x.w = true) := by
  have hspan := (homed_span hs).1
  have hself : a - 0x1800000000 * d + 0x1800000000 * d = a := by omega
  rw [State.copies, homed_die hs, List.mem_cons]
  cases hx : s.sheetE d t with
  | none => simp [hself]
  | some x =>
    cases hr : entRdup x.w with
    | false => simp [hr, hself]
    | true =>
      simp only [if_true, List.mem_map, List.mem_range, dieRead, hr, hs.home x hx hr, Option.some.injEq, exists_eq_left', and_true]
      constructor
      · rintro (rfl | ⟨e, he, rfl⟩)
        · exact ⟨d, hself.symm, .inl rfl⟩
        · exact ⟨e, rfl, .inr he⟩
      · rintro ⟨e, rfl, rfl | he⟩
        · exact .inl hself
        · exact .inr ⟨e, he, rfl⟩

section
variable (hm : Memory.wf s.mem = true) {a : Nat} {l : List (BitVec 8)} (ha : t ≤ a) (hl : a + l.length ≤ t + R)
include hm ha hl
/-- The table holds what was stored. -/
theorem rd_seqStore_in {j : Nat} (hj : j < l.length) : (s.seqStore t a l).rd (a + j) = l.getD j 0#8 := by
  have hspan := homed_span hs
  rw [seqStore_eq]
  refine rd_foldl_store_in hm hj (.inl List.mem_cons_self) fun c hc => ?_
  obtain ⟨e, rfl, -⟩ := (mem_copies hs ha).mp hc
  omega
omit hm in
/-- Of the page of T every other byte is kept. -/
theorem rd_seqStore_out {b : Nat} (hb : t ≤ b) (hb' : b < t + R) (hout : b < a ∨ a + l.length ≤ b) : (s.seqStore t a l).rd b = s.rd b := by
  have hspan := homed_span hs
  rw [seqStore_eq]
  refine rd_foldl_store_out s fun c hc => ?_
  obtain ⟨e, rfl, -⟩ := (mem_copies hs ha).mp hc
  omega
theorem leBytes_seqStore : leBytes (s.seqStore t a l) a l.length = ofBytes l := leBytes_of_bytes fun _ hj => rd_seqStore_in hs hm ha hl hj
end

/-- The sequencer keeps where the table lives. -/
theorem homed_seqStore (a : Nat) (l : List (BitVec 8)) : (s.seqStore t a l).Homed d t R := by
  obtain ⟨M, P, he⟩ := seqStore_fields s t a l
  rw [he]; exact ⟨hs.home, hs.region, hs.room⟩
theorem homed_setHdr (off lo n v : Nat) : (s.setHdr t off lo n v).Homed d t R := homed_seqStore hs ..

/-- A double word of the table stored: at home and in every replica, and no other byte (R209). -/
theorem tableWord_seqN (hm : Memory.wf s.mem = true) {lo v : Nat} (hlo : t ≤ lo) (hv : v < 2 ^ 64) :
    TableWord s (s.seqN t lo 8 v) d t lo v := by
  have hspan := homed_span hs
  have hlen := length_bytesOf 8 v
  intro x hx
  dsimp only
  have hcopy (e : Nat) (he : e = d ∨ e < 6 ∧ entRdup x.w = true) : lo - 0x1800000000 * d + 0x1800000000 * e ∈ s.copies t lo :=
    (mem_copies hs hlo).mpr ⟨e, rfl, he.imp_right fun h => ⟨h.1, x, hx, h.2⟩⟩
  rw [State.seqN, seqStore_eq]
  refine ⟨fun e he => ?_, fun b hb => rd_foldl_store_out s fun c hc => ?_⟩
  · have hword : leBytes ((s.copies t lo).foldl (fun s b => s.store b (bytesOf 8 v)) s) (lo - 0x1800000000 * d + 0x1800000000 * e) (bytesOf 8 v).length =
        ofBytes (bytesOf 8 v) := leBytes_of_bytes fun j hj => rd_foldl_store_in hm hj (.inl (hcopy e he)) fun c hc => by
      obtain ⟨f, rfl, -⟩ := (mem_copies hs hlo).mp hc
      omega
    rwa [hlen, ofBytes_bytesOf, Nat.mod_eq_of_lt (by simpa using hv)] at hword
  · obtain ⟨e, rfl, he⟩ := (mem_copies hs hlo).mp hc
    rw [hlen]
    refine hb e (he.imp_right fun h => ⟨h.1, ?_⟩)
    obtain ⟨y, hy, hr⟩ := h.2
    rwa [Option.some.inj (hx.symm.trans hy)]

/-! Double words of the table after a store. -/

theorem rd64_seqN (hm : Memory.wf s.mem = true) {lo v : Nat} (hlo : t ≤ lo) (hroom : lo + 8 ≤ t + R) (hv : v < 2 ^ 64) : (s.seqN t lo 8 v).rd64 lo = wd v := by
  have h := leBytes_seqStore hs hm hlo (l := bytesOf 8 v) (by rwa [length_bytesOf])
  rw [length_bytesOf, ofBytes_bytesOf, Nat.mod_eq_of_lt (by simpa using hv)] at h
  rw [rd64_eq, State.seqN, h]
theorem hdr_setHdr (hm : Memory.wf s.mem = true) {off : Nat} (lo n v : Nat) (hoff : off + 8 ≤ R) :
    (s.setHdr t off lo n v).hdr t off = putFld (s.hdr t off) lo n v := by
  rw [State.setHdr, State.hdr, rd64_seqN hs hm (by omega) (by omega) (BitVec.isLt _)]
  exact BitVec.ofNat_toNat ..
theorem dsc_setDsc (hm : Memory.wf s.mem = true) {j off : Nat} (lo n v : Nat) (hoff : off + 8 ≤ 128) (hj : 0x1000 + 128 * (j + 1) ≤ R) :
    (s.setDsc t j off lo n v).dsc t j off = putFld (s.dsc t j off) lo n v := by
  rw [State.setDsc, State.dsc, rd64_seqN hs hm (by rw [dscPa]; omega) (by rw [dscPa]; omega) (BitVec.isLt _)]
  exact BitVec.ofNat_toNat ..

end
end Sys2Proof.Machine
end

section
/-! CGEN, CSTAT, CPREC and CCOMMIT: what the instructions on a sheet's header do once the sheet is found (R240, R268, R269). -/
open Sys2Proof Sys2Proof.Machine Sys2Proof.Spec
namespace Sys2Proof.Machine

theorem homed_of_sheetAt {s : State} {a : BitVec 6} {d t room : Nat} (h : SheetAt s a d t room) : s.Homed d t (max room 0x1000) := by
  obtain ⟨-, x, hx, -, hhome, hregion⟩ := h
  refine ⟨fun y hy hr => ?_, hregion, Nat.le_max_right ..⟩
  obtain rfl := Option.some.inj (hx.symm.trans hy)
  exact hhome hr
theorem homed_used {s : State} {d t R : Nat} (h : s.Homed d t R) (va : Nat) (wr : Bool) : (used s va wr).Homed d t R :=
  ⟨fun x hx => h.home x (sheetE_used s va wr d t ▸ hx), h.region, h.room⟩

section
variable {s s' u u' : State} {d t lo v w : Nat}
theorem tableWord_congr (he : s'.sheetE d t = s.sheetE d t) (hs : s'.mem = s.mem) (hu : u'.mem = u.mem) (h : TableWord s' u' d t lo v) :
    TableWord s u d t lo v := by
  intro x hx
  obtain ⟨hword, hrest⟩ := h x (he.trans hx)
  have hrd (b : Nat) : u.rd b = u'.rd b := rd_congr hu.symm b
  exact ⟨fun e hin => (leBytes_congr fun b _ _ => hrd b).trans (hword e hin), fun b hb => (hrd b).trans ((hrest b hb).trans (rd_congr hs b))⟩
/-- Of two stores to one double word the later stands. -/
theorem tableWord_trans (he : s'.sheetE d t = s.sheetE d t) (h : TableWord s s' d t lo w) (h' : TableWord s' u d t lo v) : TableWord s u d t lo v := by
  intro x hx
  obtain ⟨hword, hrest⟩ := h' x (he.trans hx)
  exact ⟨hword, fun b hb => (hrest b hb).trans ((h x hx).2 b hb)⟩
end

/-! ### CGEN, CSTAT, CPREC and CCOMMIT -/

theorem computing_eq_some {r : Frame} {fm : Formula} (h : r.computing = some fm) : r.fm = some fm := by
  unfold Frame.computing at h
  split at h
  · next f hf =>
    split at h
    · cases h
    · rw [hf, h]
  · cases h

/-- A store to a double word of the header, made once T is translated. -/
theorem tableWord_header {s : State} {a : BitVec 6} {d t room off v : Nat} (hat : SheetAt s a d t room) (hm : Memory.wf s.mem = true) (hv : v < 2 ^ 64) :
    TableWord s ((sheetS s a).seqN t (t + off) 8 v) d t (t + off) v :=
  tableWord_congr (sheetE_used ..) rfl rfl (tableWord_seqN (homed_used (homed_of_sheetAt hat) ..) hm (Nat.le_add_right ..) hv)

/-! What CGEN and CSTAT do once the sheet is found. -/

section
variable {s : State} {named : List Nat} {a : BitVec 6} {dd t room : Nat} (hready : Ready s named) (hat : SheetAt s a dd t room) (m : Bool) {d b c : BitVec 6}
include hready hat
theorem cstat_ends (k : BitVec 16) (sel : BitVec 4) (hsub : ∀ n ∈ [rX a, rX d], n ∈ named) :
    exec (.cstat m d a k sel) s = .next (done ((sheetS s a).wvar d (s.cstat t k.toNat sel.toNat)) m 12) := by
  obtain ⟨w, hissue⟩ := sheet_issues hready hat
  exact hissue m 12 _ _ _ _ hsub
theorem cgenStart_ends (hsub : ∀ n ∈ [rX a, rX d], n ∈ named) : exec (.cgenStart m d a) s =
    .next ((if s.setup t then ((sheetS s a).startSheet dd t).endSt d 0 0 0 (some 1) else (sheetS s a).endSt d 8 0 0 none).finish m 12) := by
  obtain ⟨w, hissue⟩ := sheet_issues hready hat
  exact hissue m 12 _ _ _ (fun s sh => if s.setup sh.t then (s.startSheet sh.die sh.t).endSt d 0 0 0 (some 1) else s.endSt d 8 0 0 none) hsub
theorem cgenWaitgen_ends (hsub : ∀ n ∈ [rX a, rX b, rX c, rX d], n ∈ named) : exec (.cgenWaitgen m d a b c) s =
    .next ((if gle (fld (s.x b) 0 32) (s.done t) then (sheetS s a).endSt d 0 0 0 none
      else if s.late c then (sheetS s a).endSt d 2 0 0 none else .hold (sheetS s a) .wait).finish m 12) := by
  obtain ⟨w, hissue⟩ := sheet_issues hready hat
  have h := hissue m 12 (.cgenWaitgen m d a b c) ([rX a, rX b, rX c] ++ [rX d]) (fun s => s.badSheet d 0) (fun s sh =>
    if gle (fld (s.x b) 0 32) (s.done sh.t) then s.endSt d 0 0 0 none else if s.late c then s.endSt d 2 0 0 none else .hold s .wait) hsub
  rwa [State.late, sheetS, x_used, x_used, cur_used] at h
theorem cgenPinlim_ends (hsub : ∀ n ∈ [rX a, rX b, rX d], n ∈ named) : exec (.cgenPinlim m d a b) s =
    .next ((if fld (s.x b) 0 48 = 0 then (sheetS s a).endSt d 5 0 0 none
      else ((sheetS s a).seqN t (t + 0x18) 8 (fld (s.x b) 0 48)).endSt d 0 0 0 none).finish m 12) := by
  obtain ⟨w, hissue⟩ := sheet_issues hready hat
  have h := hissue m 12 (.cgenPinlim m d a b) ([rX a, rX b] ++ [rX d]) (fun s => s.badSheet d 0) (fun s sh =>
    if fld (s.x b) 0 48 = 0 then s.endSt d 5 0 0 none else (s.seqN sh.t (sh.t + 0x18) 8 (fld (s.x b) 0 48)).endSt d 0 0 0 none) hsub
  rwa [sheetS, x_used] at h
theorem cgenHold_ends (hsub : ∀ n ∈ [rX a, rX b, rX d], n ∈ named) : exec (.cgenHold m d a b) s =
    .next (((((sheetS s a).setHdr t 0x10 15 1 1).setHdr t 0x10 0 12 (fld (s.x b) 0 12)).endSt d 0 0 0 none).finish m 12) := by
  obtain ⟨w, hissue⟩ := sheet_issues hready hat
  have h := hissue m 12 (.cgenHold m d a b) ([rX a, rX b] ++ [rX d]) (fun s => s.badSheet d 0) (fun s sh =>
    ((s.setHdr sh.t 0x10 15 1 1).setHdr sh.t 0x10 0 12 (fld (s.x b) 0 12)).endSt d 0 0 0 none) hsub
  rwa [sheetS, x_used] at h
theorem cgenRelease_ends (hsub : ∀ n ∈ [rX a, rX d], n ∈ named) : exec (.cgenRelease m d a) s =
    .next ((((sheetS s a).setHdr t 0x10 15 1 0).endSt d 0 0 0 none).finish m 12) := by
  obtain ⟨w, hissue⟩ := sheet_issues hready hat
  exact hissue m 12 _ _ _ (fun s sh => (s.setHdr sh.t 0x10 15 1 0).endSt d 0 0 0 none) hsub
end

end Sys2Proof.Machine
end

section
/-! CSTAT's words, the HOLD word, and a firing's formula (R246, R268 to R271). -/
open Sys2Proof Sys2Proof.Machine Sys2Proof.Spec
namespace Sys2Proof.Machine

theorem fld_low (w : Word) (n : Nat) : fld w 0 n = w.toNat % 2 ^ n := rfl
theorem cstat_cell (s : State) (t n : Nat) : s.cstat t n 0 = BitVec.ofNat 64 (if n < s.ncells t then leBytes s (t + (0x1000 + 128 * n + 0x28)) 8 else 0) := by
  rw [← Nat.add_assoc, ← Nat.add_assoc, State.cstat]
  split
  · exact rd64_eq ..
  · rfl
theorem cstat_fault (s : State) (t n : Nat) : s.cstat t n 2 = BitVec.ofNat 64 (if n < 8 then leBytes s (t + (0xC0 + 8 * n)) 8 else 0) := by
  show (if n < 8 then s.rd64 (t + (0xC0 + 8 * n)) else 0#64) = _
  split
  · exact rd64_eq ..
  · rfl

/-! The header's HOLD word (R268): bit 15 and the rank in bits 11:0. -/

theorem toNat_putFld_hold (w : Word) (r : Nat) (hr : r < 2 ^ 12) : (putFld (putFld w 15 1 1) 0 12 r).toNat =
    w.toNat / 2 ^ 16 * 2 ^ 16 + 2 ^ 15 + w.toNat / 2 ^ 12 % 8 * 2 ^ 12 + r := by
  have hw := w.isLt
  have hset : (putFld w 15 1 1).toNat = w.toNat - w.toNat / 2 ^ 15 % 2 * 2 ^ 15 + 2 ^ 15 := by
    rw [putFld, fld_eq, wd, BitVec.toNat_ofNat, Nat.shiftLeft_eq, Nat.shiftLeft_eq]
    omega
  rw [putFld, fld_eq, wd, BitVec.toNat_ofNat, Nat.shiftLeft_eq, Nat.shiftLeft_eq, hset]
  omega
/-- One bit of a word cleared. -/
theorem toNat_putFld_clear (w : Word) {lo : Nat} : (putFld w lo 1 0).toNat = w.toNat - w.toNat / 2 ^ lo % 2 * 2 ^ lo := by
  have hw := w.isLt
  rw [putFld, fld_eq, wd, BitVec.toNat_ofNat, Nat.shiftLeft_eq, Nat.shiftLeft_eq, Nat.zero_mod, Nat.zero_mul, Nat.add_zero, Nat.pow_one]
  exact Nat.mod_eq_of_lt (by omega)

theorem sheetE_seqStore (s : State) (t a : Nat) (l : List (BitVec 8)) (d j : Nat) : (s.seqStore t a l).sheetE d j = s.sheetE d j := by
  obtain ⟨M, P, he⟩ := seqStore_fields s t a l
  rw [he]; rfl
section
variable {s : State} {a : BitVec 6} {d t room : Nat} (hat : SheetAt s a d t room) (hm : Memory.wf s.mem = true)
include hat hm
theorem tableWord_setHdr (off lo n v : Nat) : TableWord s ((sheetS s a).setHdr t off lo n v) d t (t + off) (putFld (s.hdr t off) lo n v).toNat :=
  tableWord_header hat hm (BitVec.isLt _)
/-- Hold and its rank are two stores to one double word. -/
theorem tableWord_hold {r : Nat} (hr : r < 2 ^ 12) : TableWord s (((sheetS s a).setHdr t 0x10 15 1 1).setHdr t 0x10 0 12 r) d t (t + 0x10)
    (leBytes s (t + 0x10) 8 / 2 ^ 16 * 2 ^ 16 + 2 ^ 15 + leBytes s (t + 0x10) 8 / 2 ^ 12 % 8 * 2 ^ 12 + r) := by
  have hhome := homed_used (homed_of_sheetAt hat) (s.x a).toNat false
  have hroom := hhome.room
  have hset : ((sheetS s a).setHdr t 0x10 15 1 1).hdr t 0x10 = putFld (s.hdr t 0x10) 15 1 1 := hdr_setHdr hhome hm 15 1 1 (by omega)
  have hrank := tableWord_seqN (homed_setHdr hhome 0x10 15 1 1) (State.setHdr_wf (sheetS s a) t 0x10 15 1 1 ⟨hm⟩).of (Nat.le_add_right t 0x10)
    (putFld (putFld (s.hdr t 0x10) 15 1 1) 0 12 r).isLt
  rw [← toNat_hdr, ← toNat_putFld_hold _ r hr, State.setHdr, hset]
  exact tableWord_trans ((sheetE_seqStore ..).trans (sheetE_used ..)) (tableWord_setHdr hat hm 0x10 15 1 1) hrank
end

section
variable {s : State} {named : List Nat} (hready : Ready s named) (m : Bool) {d a : BitVec 6} (hsub : ∀ n ∈ [rX a, rX d], n ∈ named)
include hready hsub
theorem cprec_none (h : s.cur.computing = none) : exec (.cprec m d a) s = .next (done (s.wvar d 0#64) m 4) := by
  have hexec : exec (.cprec m d a) s = _ := (exec_cprec ..).trans (issue_ready hready hsub)
  rwa [h] at hexec
theorem cprec_some {fm : Formula} (h : s.cur.computing = some fm) : exec (.cprec m d a) s = .next (done (s.wvar d (s.cprec fm (s.x a).toNat)) m 4) := by
  have hexec : exec (.cprec m d a) s = _ := (exec_cprec ..).trans (issue_ready hready hsub)
  rwa [h] at hexec
/-- Without a formula to commit, CCOMMIT says so (R271). -/
theorem ccommit_none (h : s.cur.computing = none) : ∃ (w : Word) (u : State),
    exec (.ccommit m d a) s = .next (done (u.wvar d w) m 4) ∧ w.toNat % 2 ^ 8 = 9 ∧ u.mem = s.mem := by
  have hexec : exec (.ccommit m d a) s = _ := (exec_ccommit ..).trans (issue_ready hready hsub)
  simp only [h] at hexec
  refine ⟨_, s.ticked, hexec, ?_, rfl⟩
  rw [toNat_stWord _ _ (by decide) (by decide)]
  omega
/-- The first CCOMMIT of a formula firing that nothing holds back (R246, R271). -/
theorem ccommit_commits {fm : Formula} (h : s.cur.computing = some fm) (hacq : s.acqWait = false) (hrel : s.relWaits true 0xFFFF = false)
    (hopen : s.cur.cps.open_ = 0) (hcell : fm.cell < 2 ^ 16) (hgen : fm.gen < 2 ^ 32) :
    let s1 := s.updCur fun r => { r with fm := some { fm with committed := true } }
    ∃ (w : Word) (u : State), exec (.ccommit m d a) s = .next (done (u.wvar d w) m 4) ∧ gen w = fm.gen ∧ w.toNat / 2 ^ 16 % 2 ^ 16 = fm.cell ∧
      (w.toNat % 2 ^ 8 = 0 ∨ w.toNat % 2 ^ 8 = 1) ∧
      u = if fld (s.x a) 0 8 ≠ 0 then s1.cellFail fm 2 (wd (fld (s.x a) 0 8)) else s1.memberCommit (sheetDie fm.t) fm := by
  have hexec : exec (.ccommit m d a) s = _ := (exec_ccommit ..).trans (issue_ready hready hsub)
  have hmark : (s.updCur fun r => { r with fm := r.fm.map fun f => { f with committed := true } }) =
      s.updCur fun r => { r with fm := some { fm with committed := true } } := by
    rw [updCur_eq, updCur_eq, computing_eq_some h]; rfl
  simp only [h, hacq, hrel, hopen, hmark, Bool.false_eq_true, if_false, ne_eq, not_true_eq_false] at hexec
  have hstatus (code r : Nat) (hcode : code < 2) : gen (stWord code fm.cell fm.gen r) = fm.gen ∧
      (stWord code fm.cell fm.gen r).toNat / 2 ^ 16 % 2 ^ 16 = fm.cell ∧ (stWord code fm.cell fm.gen r).toNat % 2 ^ 8 = code := by
    rw [gen, stWord, toNat_wd (by omega)]
    omega
  split at hexec
  · next r _ =>
    obtain ⟨hg, hc, hcode⟩ := hstatus 1 r (by decide)
    exact ⟨_, _, hexec, hg, hc, .inr hcode, rfl⟩
  · obtain ⟨hg, hc, hcode⟩ := hstatus 0 0 (by decide)
    exact ⟨_, _, hexec, hg, hc, .inl hcode, rfl⟩
end
end Sys2Proof.Machine

namespace Sys2Proof.Proofs
/-- Settles O44: each instruction on a sheet by its own equation, the table words by what the sequencer's stores leave. -/
theorem sheetControl : Obligations.SheetControl := by
  intro s m d a b c k sel dd t room fm hready n H kept writes stat
  have had : ∀ n ∈ [rX a, rX d], n ∈ [a.toNat, b.toNat, c.toNat, d.toNat] := by simp [rX]
  have habd : ∀ n ∈ [rX a, rX b, rX d], n ∈ [a.toNat, b.toNat, c.toNat, d.toNat] := by simp [rX]
  refine ⟨fun hat => ?_, fun hnone => ?_, fun hsome hcell hgen => ?_⟩
  · have hstat (v : Nat) (hv : s.cstat t n sel.toNat = BitVec.ofNat 64 v) : stat v :=
      ⟨sheetS s a, hv ▸ cstat_ends hready hat m k sel had, rfl, cur_used ..⟩
    have hkept {i : Instr} {st : Nat} (h : exec i s = .next (((sheetS s a).endSt d st 0 0 none).finish m 12)) (hst : st < 256 := by decide) : kept i st :=
      endsSt_free h (fun w hw => ⟨hw, rfl⟩) (by decide) hst
    have hwrites {i : Instr} {off v : Nat} {u : State} (h : exec i s = .next ((u.endSt d 0 0 0 none).finish m 12)) (hu : TableWord s u dd t (t + off) v) :
        writes i off v := endsSt_free h (fun w hw => ⟨hw, tableWord_congr rfl rfl rfl hu⟩) (by decide)
    have hstart := cgenStart_ends hready hat m had
    have hwait := cgenWaitgen_ends hready hat m (b := b) (c := c) (d := d) (by simp [rX])
    have hpin := cgenPinlim_ends hready hat m habd
    rw [fld_low] at hwait hpin
    refine ⟨fun h => hstat _ ?_, fun h => hstat _ ?_, fun h => hstat _ ?_, fun h => ?_, fun h => ?_, fun h => ?_, fun h hlimit => ?_, fun h => ?_,
      fun hm => ⟨fun h => ?_, ?_, ?_⟩⟩
    · subst h; exact cstat_cell ..
    · subst h; exact rd64_eq ..
    · subst h; exact cstat_fault ..
    · exact hkept (by rwa [h] at hstart)
    · rw [h] at hstart
      exact endsSt_gen hstart fun w hw hg => ⟨hw, hg, rfl⟩
    · exact hkept (by rwa [h] at hwait)
    · have hlate : s.late c = true := by simp only [State.late, fld_low, hlimit, decide_true, Bool.or_true]
      exact hkept (by rwa [h, hlate] at hwait)
    · exact hkept (by rwa [if_pos h] at hpin)
    · rw [if_neg h] at hpin
      exact hwrites hpin (tableWord_header hat hm ((Nat.mod_lt _ (by decide)).trans (by decide)))
    · exact hwrites (cgenHold_ends hready hat m habd) (tableWord_hold hat hm (Nat.mod_lt _ (by decide)))
    · have hrel := tableWord_setHdr hat hm 0x10 15 1 0
      rw [toNat_putFld_clear, toNat_hdr] at hrel
      exact hwrites (cgenRelease_ends hready hat m had) hrel
  · exact ⟨cprec_none hready m had hnone, ccommit_none hready m had hnone⟩
  · have hprec := cprec_some hready m had hsome
    refine ⟨fun h => ?_, fun v hk h8 hv => ?_, fun hacq hrel hopen => ccommit_commits hready m had hsome hacq hrel hopen hcell hgen⟩
    · have hback : s.cprec fm (s.x a).toNat = s.backBuf fm.t fm.cell := if_pos h
      rwa [hback] at hprec
    · have hbuf : s.cprec fm (s.x a).toNat = v := by rw [State.cprec, if_neg h8.ne, if_pos hk, hv]; rfl
      rwa [hbuf] at hprec
end Sys2Proof.Proofs
end

section
/-! CLD, CST, CSNAP and CUNSNAP once the sheet is found (R249, R250, R265 to R267). -/
open Sys2Proof Sys2Proof.Machine Sys2Proof.Spec
namespace Sys2Proof.Machine

/-! ### Statuses beside an address -/

section
variable {i : Instr} {s u : State} {m : Bool} {code n g : Nat} {d e : BitVec 6} {x : Word}
theorem endCld_free (h : exec i s = .next ((u.endCld d e x code n 0 none).finish m 12)) (hu : u.mem = s.mem) (hn : n < 65536 := by omega) (hcode : code < 256 := by decide) :
    ∃ (v : State) (w : Word), exec i s = .next (done ((v.wvar d x).wvar e w) m 12) ∧ St w code n 0 ∧ v.mem = s.mem :=
  ⟨u.ticked, _, h, St_stWord _ hcode hn (by decide), hu⟩
theorem endCld_gen (h : exec i s = .next ((u.endCld d e x code n 0 (some g)).finish m 12)) (hn : n < 65536 := by omega) (hcode : code < 256 := by decide) :
    ∃ w : Word, exec i s = .next (done ((u.wvar d x).wvar e w) m 12) ∧ St w code n 0 ∧ gen w = g % 2 ^ 32 :=
  ⟨_, h, St_stWord _ hcode hn (by decide), gen_stWord _ hcode (by decide)⟩
end

/-! ### Pin slots (R249) -/

/-- The word of a pin slot. -/
def State.pinWord (s : State) (t j : Nat) : Nat := leBytes s (t + 0x20 + 8 * j) 8
/-- A handle that pins: it names a slot that is live, and the slot has its serial and generation. -/
def State.Pinned (s : State) (t : Nat) (h : Word) (j : Nat) : Prop :=
  j < 16 ∧ h.toNat / 2 ^ 32 % 2 ^ 16 = j ∧ s.pinWord t j / 2 ^ 32 % 2 = 1 ∧ s.pinWord t j / 2 ^ 48 = h.toNat / 2 ^ 48 ∧
    s.pinWord t j % 2 ^ 32 = h.toNat % 2 ^ 32
theorem toNat_hdr_pin (s : State) (t j : Nat) : (s.hdr t (0x20 + 8 * j)).toNat = s.pinWord t j := by
  rw [toNat_hdr, ← Nat.add_assoc]; rfl
theorem pinWord_lt (s : State) (t j : Nat) : s.pinWord t j < 2 ^ 64 := leBytes_lt s _ 8
theorem pinOf_eq_some (s : State) (t : Nat) (h : Word) (j : Nat) : s.pinOf t h = some j ↔ s.Pinned t h j := by
  have hh := h.isLt
  have hw := pinWord_lt s t (h.toNat / 2 ^ 32 % 2 ^ 4)
  simp only [State.pinOf, fld_eq, toNat_hdr_pin, State.Pinned, Option.ite_none_right_eq_some, Bool.and_eq_true, decide_eq_true_eq, Option.some.injEq]
  constructor
  · rintro ⟨⟨⟨⟨hp, hl⟩, hs⟩, hg⟩, rfl⟩
    exact ⟨by omega, by omega, by omega, by omega, by omega⟩
  · rintro ⟨hp, hj, hl, hs, hg⟩
    obtain rfl : h.toNat / 2 ^ 32 % 2 ^ 4 = j := by omega
    exact ⟨⟨⟨⟨by omega, by omega⟩, by omega⟩, by omega⟩, rfl⟩
theorem pinOf_eq_none {s : State} {t : Nat} {h : Word} (hno : ∀ j, ¬s.Pinned t h j) : s.pinOf t h = none :=
  Option.eq_none_iff_forall_ne_some.mpr fun j hj => hno j ((pinOf_eq_some ..).mp hj)

/-! ### CLD (R250, R265) -/

/-- What CLD does at a generation it reads: the branches of its meaning from there on. -/
def State.cldAt (s : State) (a d e c : BitVec 6) (h : Word) (dd t n g : Nat) : Res :=
  if n ≥ s.ncells t then s.endCld d e 0#64 7 n 0 none
  else if s.setup t then s.endCld d e 0#64 8 n 0 none
  else if glt g (fld (s.dsc t n 0x48) 32 32) then s.endCld d e 0#64 7 n 0 none
  else if s.cellWaits t n g then
    (if s.late c then s.endCld d e 0#64 2 n 0 none else .hold (s.updCur fun r => { r with saved := [41, g] }) .wait)
  else match s.errAt dd t n g with
    | some r => s.endCld d e 0#64 1 n r none
    | none =>
      if s.poisonedFor dd t n g then .trap s ⟨0x11, (s.bufAt t n g).getD (s.frontBuf t n), 1#64, wd n⟩
      else match s.bufAt t n g with
        | none => .trap s (pinTrap s a (fld h 0 32))
        | some addr => s.endCld d e addr 0 n 0 (some g)

section
variable {s : State} {named : List Nat} {a : BitVec 6} {dd t room : Nat} (hready : Ready s named) (hat : SheetAt s a dd t room) (m : Bool) {d b e c : BitVec 6}
  (k : BitVec 16) (hsub : ∀ n ∈ [rX a, rX b, rX c, rX d, rX e], n ∈ named) (hsaved : s.cur.saved = [])
include hready hat hsub hsaved
/-- CLD reads at the opened generation, or at the one its handle pins. -/
theorem cld_reads {g : Nat} (h : s.x b = 0#64 ∧ g = s.opened t ∨ s.x b ≠ 0#64 ∧ s.pinOf t (s.x b) ≠ none ∧ g = fld (s.x b) 0 32) :
    exec (.cld m d a b e c k) s = .next (((sheetS s a).cldAt a d e c (s.x b) dd t k.toNat g).finish m 12) := by
  obtain ⟨w, hissue⟩ := sheet_issues hready hat
  have hexec : exec (.cld m d a b e c k) s = _ := hissue m 12 _ _ _ _ hsub
  have hpinS : (sheetS s a).pinOf t (s.x b) = s.pinOf t (s.x b) := rfl
  rcases h with ⟨hzero, rfl⟩ | ⟨hne, hpin, rfl⟩
  · simp only [cur_sheetS, hsaved, x_sheetS, hzero, ne_eq, not_true_eq_false, decide_false, Bool.and_false, Bool.false_and, if_false, Bool.false_eq_true] at hexec
    rw [hexec, hzero]; rfl
  · simp only [cur_sheetS, hsaved, x_sheetS, hpinS, hne, hpin, ne_eq, not_false_eq_true, decide_false, Bool.and_false, if_true, if_false, Bool.false_eq_true] at hexec
    exact hexec
/-- A handle that pins nothing traps. -/
theorem cld_traps (hne : s.x b ≠ 0#64) (hpin : s.pinOf t (s.x b) = none) (htakes : TakesTrap s s.turn s.fi) :
    exec (.cld m d a b e c k) s = .next (trapState (sheetS s a) ⟨0xE, s.x a, BitVec.ofNat 64 ((s.x b).toNat % 2 ^ 32), 0#64⟩ s.cur.pc) := by
  obtain ⟨w, hissue⟩ := sheet_issues hready hat
  have hexec : exec (.cld m d a b e c k) s = _ := hissue m 12 _ _ _ _ hsub
  have hpinS : (sheetS s a).pinOf t (s.x b) = s.pinOf t (s.x b) := rfl
  simp only [cur_sheetS, hsaved, x_sheetS, hpinS, hne, hpin, ne_eq, not_false_eq_true, decide_true, Bool.and_true, if_true, pinTrap] at hexec
  exact sheetS_traps s a htakes (show 0xE < 0x80 by decide) hexec
end

/-! ### CUNSNAP (R267) -/

section
variable {s : State} {named : List Nat} {a : BitVec 6} {dd t room : Nat} (hready : Ready s named) (hat : SheetAt s a dd t room) (m : Bool) {b : BitVec 6}
  (hsub : ∀ n ∈ [rX a, rX b], n ∈ named) (hwaits : s.cur.waits = [])
include hready hat hsub hwaits
theorem cunsnap_clears {p : Nat} (hpin : s.pinOf t (s.x b) = some p) :
    exec (.cunsnap m a b) s = .next (done ((sheetS s a).setHdr t (0x20 + 8 * p) 32 1 0) m 12) := by
  obtain ⟨w, hissue⟩ := sheet_issues hready hat
  have hexec : exec (.cunsnap m a b) s = _ := hissue m 12 _ _ _ _ hsub
  have hpinS : (sheetS s a).pinOf t (s.x b) = s.pinOf t (s.x b) := rfl
  simp only [cur_sheetS, hwaits, x_sheetS, hpinS, hpin, List.any_nil, Bool.false_eq_true, if_false] at hexec
  exact hexec
theorem cunsnap_traps (hpin : s.pinOf t (s.x b) = none) (htakes : TakesTrap s s.turn s.fi) :
    exec (.cunsnap m a b) s = .next (trapState (sheetS s a) ⟨0xE, s.x a, BitVec.ofNat 64 ((s.x b).toNat % 2 ^ 32), 0#64⟩ s.cur.pc) := by
  obtain ⟨w, hissue⟩ := sheet_issues hready hat
  have hexec : exec (.cunsnap m a b) s = _ := hissue m 12 _ _ _ _ hsub
  have hpinS : (sheetS s a).pinOf t (s.x b) = s.pinOf t (s.x b) := rfl
  simp only [cur_sheetS, hwaits, x_sheetS, hpinS, hpin, List.any_nil, Bool.false_eq_true, if_false, pinTrap] at hexec
  exact sheetS_traps s a htakes (show 0xE < 0x80 by decide) hexec
end

/-! ### CSNAP (R267) -/

/-- The slot CSNAP takes: the first that is not live. -/
def State.freePin (s : State) (t : Nat) : Option Nat := (List.range 16).find? fun p => fld (s.hdr t (0x20 + 8 * p)) 32 1 = 0
theorem pin_live_iff (s : State) (t j : Nat) : (!decide (fld (s.hdr t (0x20 + 8 * j)) 32 1 = 0)) = true ↔ s.pinWord t j / 2 ^ 32 % 2 = 1 := by
  rw [fld_eq, toNat_hdr_pin, Bool.not_eq_true', decide_eq_false_iff_not, pow_one]
  omega
theorem freePin_none {s : State} {t : Nat} (hlive : ∀ j, j < 16 → s.pinWord t j / 2 ^ 32 % 2 = 1) : s.freePin t = none :=
  List.find?_range_eq_none.mpr fun j hj => (pin_live_iff ..).mpr (hlive j hj)
theorem freePin_first {s : State} {t p : Nat} (hp : p < 16) (hfree : ¬s.pinWord t p / 2 ^ 32 % 2 = 1)
    (hlive : ∀ j, j < p → s.pinWord t j / 2 ^ 32 % 2 = 1) : s.freePin t = some p := by
  refine List.find?_range_eq_some.mpr ⟨?_, List.mem_range.mpr hp, fun j hj => (pin_live_iff ..).mpr (hlive j hj)⟩
  rwa [← pin_live_iff, Bool.not_eq_true', Bool.not_eq_false] at hfree

section
variable {s : State} {named : List Nat} {a : BitVec 6} {dd t room : Nat} (hready : Ready s named) (hat : SheetAt s a dd t room) (m : Bool) {d e : BitVec 6}
  (hsub : ∀ n ∈ [rX a, rX d, rX e], n ∈ named)
include hready hat hsub
theorem csnap_setup (h : s.setup t = true) : exec (.csnap m d a e) s = .next (((sheetS s a).endCld d e 0#64 8 0 0 none).finish m 12) := by
  obtain ⟨w, hissue⟩ := sheet_issues hready hat
  have hexec : exec (.csnap m d a e) s = _ := hissue m 12 _ _ _ _ hsub
  simpa only [setup_sheetS, h, if_true] using hexec
theorem csnap_full (h : s.setup t = false) (hnone : s.freePin t = none) :
    exec (.csnap m d a e) s = .next (((sheetS s a).endCld d e 0#64 0xB 0 0 none).finish m 12) := by
  obtain ⟨w, hissue⟩ := sheet_issues hready hat
  have hexec : exec (.csnap m d a e) s = _ := hissue m 12 _ _ _ _ hsub
  have hfind : (sheetS s a).freePin t = none := hnone
  rw [State.freePin] at hfind
  simpa only [setup_sheetS, h, Bool.false_eq_true, if_false, hfind] using hexec
theorem csnap_pins {p : Nat} (h : s.setup t = false) (hfree : s.freePin t = some p) :
    let serial := (s.pinWord t p / 2 ^ 48 + 1) % 65536
    exec (.csnap m d a e) s = .next ((((sheetS s a).seqN t (t + (0x20 + 8 * p)) 8 (serial * 2 ^ 48 + 2 ^ 32 + s.opened t)).endCld d e
      (handleOf p serial (s.opened t)) 0 0 0 (some (s.opened t))).finish m 12) := by
  intro serial
  obtain ⟨w, hissue⟩ := sheet_issues hready hat
  have hexec : exec (.csnap m d a e) s = _ := hissue m 12 _ _ _ _ hsub
  have hserial : (fld ((sheetS s a).hdr t (0x20 + 8 * p)) 48 16 + 1) % 65536 = serial := by
    have := pinWord_lt s t p
    rw [hdr_sheetS, fld_eq, toNat_hdr_pin, Nat.mod_eq_of_lt (by omega : _ < 2 ^ 16)]
  have hfind : (sheetS s a).freePin t = some p := hfree
  rw [State.freePin] at hfind
  simpa only [setup_sheetS, h, Bool.false_eq_true, if_false, hfind, hserial, opened_sheetS, Nat.add_assoc t] using hexec
end
end Sys2Proof.Machine
end

section
/-! CST, and what CLD reads (R265, R266). -/
open Sys2Proof Sys2Proof.Machine Sys2Proof.Spec
namespace Sys2Proof.Machine

/-! ### CST (R266) -/

section
variable {s : State} {named : List Nat} {a : BitVec 6} {dd t room : Nat} (hready : Ready s named) (hat : SheetAt s a dd t room) (m : Bool) {d b c : BitVec 6}
  {k : BitVec 16} (hsub : ∀ n ∈ [rX a, rX b, rX c, rX d], n ∈ named) (hrel : s.relWaits true 0xFFFF = false) (hfm : s.cur.fm.map (·.t) ≠ some t)
include hready hat hsub hrel hfm
theorem cst_ends : ∃ w, exec (.cst m d a b c k) s = .next ((if k.toNat ≥ s.ncells t then (sheetS s a).endSt d 7 k.toNat 0 none
    else if s.formulaAt t (s.opened t) k.toNat then (sheetS s a).endSt d 6 k.toNat 0 none
    else (sheetS s a).cstStore d b c ⟨dd, t, room, w⟩ k.toNat).finish m 12) := by
  obtain ⟨w, hissue⟩ := sheet_issues hready hat
  have hexec : exec (.cst m d a b c k) s = _ := hissue m 12 _ _ _ _ hsub
  have hrelS : (sheetS s a).relWaits true 0xFFFF = false := (relWaits_used ..).trans hrel
  simp only [hrelS, cur_sheetS, hfm, Bool.false_eq_true, if_false] at hexec
  exact ⟨w, hexec⟩
end
theorem frontBuf_sheetS (s : State) (a : BitVec 6) (t n : Nat) : (sheetS s a).frontBuf t n = s.frontBuf t n := rfl
theorem backBuf_sheetS (s : State) (a : BitVec 6) (t n : Nat) : (sheetS s a).backBuf t n = s.backBuf t n := rfl
theorem bufBytes_sheetS (s : State) (a : BitVec 6) (t n : Nat) : (sheetS s a).bufBytes t n = s.bufBytes t n := rfl
theorem backFree_sheetS (s : State) (a : BitVec 6) (t n : Nat) : (sheetS s a).backFree t n = s.backFree t n := rfl
theorem cellState_sheetS (s : State) (a : BitVec 6) (t n : Nat) : (sheetS s a).cellState t n = s.cellState t n := rfl
theorem cstOther_sheetS (s : State) (a : BitVec 6) (t n : Nat) : (sheetS s a).cstOther t n = s.cstOther t n := by
  rw [State.cstOther, State.cstOther, sheetS, fi_used]; rfl
section
variable {s v : State} {a d b c : BitVec 6} {sh : Sheet} {n : Nat} (hsaved : s.cur.saved = []) (hdue : v.cstDue = false)
include hsaved hdue
theorem cstStore_setup (hsetup : s.setup sh.t = true) (hcopy : (sheetS s a).cstCopy (s.x b) (s.frontBuf sh.t n) (s.bufBytes sh.t n) = .done v) :
    (sheetS s a).cstStore d b c sh n = (v.cured sh.t n).endSt d 0 n 0 (some (v.opened sh.t)) := by
  simp [State.cstStore, cur_sheetS, x_sheetS, setup_sheetS, frontBuf_sheetS, bufBytes_sheetS, hsaved, hsetup, hcopy, State.cstSetup, hdue]
theorem cstStore_running (hsetup : s.setup sh.t = false) (hback : s.backFree sh.t n = true) (hother : s.cstOther sh.t n = false)
    (hstate : s.cellState sh.t n ≠ 2) (hcopy : (sheetS s a).cstCopy (s.x b) (s.backBuf sh.t n) (s.bufBytes sh.t n) = .done v) (hroom : v.unfinished sh.t < 4) :
    (sheetS s a).cstStore d b c sh n = (v.openGen sh.die sh.t (v.depsAt sh.t (gnext (v.opened sh.t)) n) (some n)).endSt d 0 n 0 (some (gnext (v.opened sh.t))) := by
  simp [State.cstStore, cur_sheetS, x_sheetS, setup_sheetS, backBuf_sheetS, bufBytes_sheetS, backFree_sheetS, cellState_sheetS, cstOther_sheetS, hsaved,
    hsetup, hback, hother, hstate, hcopy, State.cstOpen, hroom, hdue]
end
theorem errAt_sheetS (s : State) (a : BitVec 6) (d t n g : Nat) : (sheetS s a).errAt d t n g = s.errAt d t n g := by
  rw [State.errAt, State.errAt, State.errsTo, State.errsTo, sheetS, sheetE_used]; rfl
theorem poisonedFor_sheetS (s : State) (a : BitVec 6) (d t n g : Nat) : (sheetS s a).poisonedFor d t n g = s.poisonedFor d t n g := by
  rw [State.poisonedFor, State.poisonedFor, sheetS, sheetE_used]; rfl

/-! ### What CLD finds at a generation -/

section
variable {s : State} {a d e c : BitVec 6} {h addr : Word} {dd t n g : Nat}
theorem cldAt_absent (hn : n ≥ s.ncells t) : s.cldAt a d e c h dd t n g = s.endCld d e 0#64 7 n 0 none := if_pos hn
theorem cldAt_setup (hn : n < s.ncells t) (hsetup : s.setup t = true) : s.cldAt a d e c h dd t n g = s.endCld d e 0#64 8 n 0 none := by
  rw [State.cldAt, if_neg (Nat.not_le.mpr hn), if_pos hsetup]
section
variable (hn : n < s.ncells t) (hsetup : s.setup t = false) (hfirst : glt g (fld (s.dsc t n 0x48) 32 32) = false)
include hn hsetup hfirst
theorem cldAt_late (hwaits : s.cellWaits t n g = true) (hlate : s.late c = true) : s.cldAt a d e c h dd t n g = s.endCld d e 0#64 2 n 0 none := by
  simp only [State.cldAt, ge_iff_le, Nat.not_le.mpr hn, hsetup, hfirst, hwaits, hlate, if_true, if_false, Bool.false_eq_true]
theorem cldAt_version (hwaits : s.cellWaits t n g = false) (herr : s.errAt dd t n g = none) (hpois : s.poisonedFor dd t n g = false)
    (hbuf : s.bufAt t n g = some addr) : s.cldAt a d e c h dd t n g = s.endCld d e addr 0 n 0 (some g) := by
  simp only [State.cldAt, ge_iff_le, Nat.not_le.mpr hn, hsetup, hfirst, hwaits, herr, hpois, hbuf, if_false, Bool.false_eq_true]
end
end
end Sys2Proof.Machine

namespace Sys2Proof.Machine
theorem opened_lt (s : State) (t : Nat) : s.opened t < 2 ^ 32 := Nat.mod_lt _ (by decide)
theorem gnext_lt (g : Nat) : gnext g < 2 ^ 32 := Nat.mod_lt _ (by decide)
end Sys2Proof.Machine
namespace Sys2Proof.Proofs
/-- Settles O43: a handle pins exactly where `pinOf` finds its slot; then each instruction by its own equation. -/
theorem sheetAccess : Obligations.SheetAccess := by
  intro s v m d a b e c k addr dd t room g p hready hat hm hsaved n L S H live pinned ends2
  have hn : n < 65536 := k.isLt
  have hall : ∀ n ∈ [rX a, rX b, rX c, rX d, rX e], n ∈ [a.toNat, b.toNat, c.toNat, d.toNat, e.toNat] := fun n hn => hn
  have hpin (j : Nat) : s.pinOf t (s.x b) = some j ↔ pinned (s.x b) j := pinOf_eq_some ..
  have hreads {g : Nat} (h : s.x b = 0#64 ∧ g = s.opened t ∨ s.x b ≠ 0#64 ∧ pinned (s.x b) p ∧ g = (s.x b).toNat % 2 ^ 32) :
      exec L s = .next (((sheetS s a).cldAt a d e c (s.x b) dd t n g).finish m 12) :=
    cld_reads hready hat m k hall hsaved (h.imp_right fun ⟨hne, hp, hg⟩ => ⟨hne, by rw [(hpin p).mpr hp]; exact Option.some_ne_none p, hg⟩)
  have hgen (h : s.x b = 0#64 ∨ pinned (s.x b) p) : ∃ g, s.x b = 0#64 ∧ g = s.opened t ∨ s.x b ≠ 0#64 ∧ pinned (s.x b) p ∧ g = (s.x b).toNat % 2 ^ 32 := by
    by_cases hzero : s.x b = 0#64
    · exact ⟨_, .inl ⟨hzero, rfl⟩⟩
    · exact ⟨_, .inr ⟨hzero, h.resolve_left hzero, rfl⟩⟩
  have hversion {g : Nat} (h : glt g (leBytes s (t + 0x1000 + 128 * n + 0x48) 8 / 2 ^ 32) = false) : glt g (fld ((sheetS s a).dsc t n 0x48) 32 32) = false := by
    have hlt : leBytes s (t + 0x1000 + 128 * n + 0x48) 8 / 2 ^ 32 < 2 ^ 32 := by have := leBytes_lt s (t + 0x1000 + 128 * n + 0x48) 8; omega
    show glt g (fld (s.rd64 (t + 0x1000 + 128 * n + 0x48)) 32 32) = false
    rw [fld_eq, toNat_rd64, Nat.mod_eq_of_lt hlt, h]
  have hcst (hrel : s.relWaits true 0xFFFF = false) (hfm : s.cur.fm.map (·.t) ≠ some t) := cst_ends hready hat m (d := d) (b := b) (c := c) (k := k) (by simp [rX]) hrel hfm
  have hsnap : ∀ n ∈ [rX a, rX d, rX e], n ∈ [a.toNat, b.toNat, c.toNat, d.toNat, e.toNat] := by simp [rX]
  refine ⟨fun habs hp => ?_, fun hcell hset hp => ?_, fun hcell hset hg hfirst => ⟨fun hwait hlimit hexp => ?_, fun hwait herr hpois hbuf => ?_⟩,
    fun hno htakes => ⟨fun hne => ?_, fun hwaits => ?_⟩, fun hp hwaits => ?_,
    fun hrel hfm => ⟨fun habs => ?_, fun hcell hform => ?_, fun hcell hform hset hcopy hdue => ?_,
      fun hcell hform hset hback hother hstate hcopy hunf hdue => ?_⟩, fun hset => ?_, fun hset hlive => ?_, fun hset hp hfree hlive => ?_⟩
  · obtain ⟨g, hg⟩ := hgen hp
    have hL := hreads hg
    rw [cldAt_absent (s := sheetS s a) habs] at hL
    exact endCld_free hL rfl
  · obtain ⟨g, hg⟩ := hgen hp
    have hL := hreads hg
    rw [cldAt_setup (s := sheetS s a) hcell hset] at hL
    exact endCld_free hL rfl
  · have hlate : (sheetS s a).late c = true := by simp only [State.late, x_sheetS, fld_low, hlimit, decide_true, Bool.or_true]
    have hL := hreads hg
    rw [cldAt_late (s := sheetS s a) hcell hset (hversion hfirst) hwait hlate] at hL
    exact endCld_free hL rfl
  · have hL := hreads hg
    rw [cldAt_version (s := sheetS s a) hcell hset (hversion hfirst) hwait ((errAt_sheetS ..).trans herr) ((poisonedFor_sheetS ..).trans hpois) hbuf] at hL
    obtain ⟨w, hexec, hst, hw⟩ := endCld_gen hL
    exact ⟨_, w, hexec, hst, hw, rfl⟩
  · exact cld_traps hready hat m k hall hsaved hne (pinOf_eq_none hno) htakes
  · exact cunsnap_traps hready hat m (by simp [rX]) hwaits (pinOf_eq_none hno) htakes
  · refine ⟨_, cunsnap_clears hready hat m (by simp [rX]) hwaits ((hpin p).mpr hp), ?_⟩
    obtain ⟨-, -, hlive, -⟩ := hp
    have hword := tableWord_setHdr hat hm (0x20 + 8 * p) 32 1 0
    rwa [toNat_putFld_clear, toNat_hdr_pin, ← Nat.add_assoc, show s.pinWord t p / 2 ^ 32 % 2 = 1 from hlive, Nat.one_mul] at hword
  · obtain ⟨w, hS⟩ := hcst hrel hfm
    rw [if_pos habs] at hS
    exact endsSt_free hS fun w hw => ⟨hw, rfl⟩
  · obtain ⟨w, hS⟩ := hcst hrel hfm
    rw [if_neg (Nat.not_le.mpr hcell), if_pos hform] at hS
    exact endsSt_free hS fun w hw => ⟨hw, rfl⟩
  · obtain ⟨w, hS⟩ := hcst hrel hfm
    rw [if_neg (Nat.not_le.mpr hcell), hform, if_neg Bool.false_ne_true,
      cstStore_setup (sh := ⟨dd, t, room, w⟩) hsaved hdue hset hcopy] at hS
    exact endsSt_gen hS fun w hw hg => ⟨hw, hg.trans (Nat.mod_eq_of_lt (opened_lt ..)), rfl⟩
  · obtain ⟨w, hS⟩ := hcst hrel hfm
    rw [if_neg (Nat.not_le.mpr hcell), hform, if_neg Bool.false_ne_true,
      cstStore_running (sh := ⟨dd, t, room, w⟩) hsaved hdue hset hback hother hstate hcopy hunf] at hS
    exact endsSt_gen hS fun w hw hg => ⟨hw, hg.trans (Nat.mod_eq_of_lt (gnext_lt ..)), rfl⟩
  · exact endCld_free (csnap_setup hready hat m hsnap hset) rfl
  · exact endCld_free (csnap_full hready hat m hsnap hset (freePin_none hlive)) rfl
  · obtain ⟨w, hexec, hst, hw⟩ := endCld_gen (csnap_pins hready hat m hsnap hset (freePin_first hp hfree hlive))
    have hword := tableWord_header (off := 0x20 + 8 * p) (v := (H p / 2 ^ 48 + 1) % 65536 * 2 ^ 48 + 2 ^ 32 + s.opened t) hat hm (by have := opened_lt s t; omega)
    refine ⟨_, w, hexec, hst, hw.trans (Nat.mod_eq_of_lt (opened_lt ..)), ?_⟩
    rwa [← Nat.add_assoc] at hword ⊢
end Sys2Proof.Proofs
end

section
/-! CDEF's table (R239, R262): what a definition leaves in the header and the cell's descriptor. -/
open Sys2Proof Sys2Proof.Machine Sys2Proof.Spec
namespace Sys2Proof.Machine

/-! ### Stores within a part of the page of T -/

/-- Of the page of T only bytes from `lo` to `hi` may have changed, and the directory not at all. -/
structure State.Writes (s u : State) (d t R lo hi : Nat) : Prop where
  homed : u.Homed d t R
  canon : Memory.wf u.mem = true
  sheets : ∀ e j, u.sheetE e j = s.sheetE e j
  rest : ∀ b, t ≤ b → b < t + R → b < lo ∨ hi ≤ b → u.rd b = s.rd b

section
variable {s u v : State} {d t R lo hi : Nat}
theorem writes_seqStore (hs : s.Homed d t R) (hm : Memory.wf s.mem = true) {a : Nat} {l : List (BitVec 8)} (ha : t ≤ a) (hl : a + l.length ≤ t + R)
    (hlo : lo ≤ a) (hhi : a + l.length ≤ hi) : s.Writes (s.seqStore t a l) d t R lo hi where
  homed := homed_seqStore hs a l
  canon := (State.seqStore_wf s t a l ⟨hm⟩).of
  sheets := sheetE_seqStore s t a l
  rest b hb hb' hout := rd_seqStore_out hs ha hl hb hb' (by omega)
theorem State.Writes.trans (h : s.Writes u d t R lo hi) (h' : u.Writes v d t R lo hi) : s.Writes v d t R lo hi where
  homed := h'.homed
  canon := h'.canon
  sheets e j := (h'.sheets e j).trans (h.sheets e j)
  rest b hb hb' hout := (h'.rest b hb hb' hout).trans (h.rest b hb hb' hout)
theorem State.Writes.widen {lo' hi' : Nat} (h : s.Writes u d t R lo hi) (hlo : lo' ≤ lo) (hhi : hi ≤ hi') : s.Writes u d t R lo' hi' where
  homed := h.homed
  canon := h.canon
  sheets := h.sheets
  rest b hb hb' hout := h.rest b hb hb' (by omega)
theorem State.Writes.leBytes_eq (h : s.Writes u d t R lo hi) {a n : Nat} (ha : t ≤ a) (hR : a + n ≤ t + R) (hout : a + n ≤ lo ∨ hi ≤ a) :
    leBytes u a n = leBytes s a n :=
  leBytes_congr fun b _ _ => h.rest b (by omega) (by omega) (by omega)
theorem State.Writes.rd64_eq (h : s.Writes u d t R lo hi) {a : Nat} (ha : t ≤ a) (hR : a + 8 ≤ t + R) (hout : a + 8 ≤ lo ∨ hi ≤ a) :
    u.rd64 a = s.rd64 a := by rw [Machine.rd64_eq, Machine.rd64_eq, h.leBytes_eq ha hR hout]
end

section
variable {s : State} {d t R : Nat} (hs : s.Homed d t R) (hm : Memory.wf s.mem = true)
include hs hm
theorem writes_seqN {a n v lo hi : Nat} (ha : t ≤ a) (hl : a + n ≤ t + R) (hlo : lo ≤ a) (hhi : a + n ≤ hi) : s.Writes (s.seqN t a n v) d t R lo hi :=
  writes_seqStore hs hm ha (by rwa [length_bytesOf]) hlo (by rwa [length_bytesOf])
theorem writes_setDsc {j off lo n v : Nat} (hoff : off + 8 ≤ 128) (hj : 0x1000 + 128 * (j + 1) ≤ R) :
    s.Writes (s.setDsc t j off lo n v) d t R (dscPa t j + off) (dscPa t j + off + 8) :=
  writes_seqN hs hm (by rw [dscPa]; omega) (by rw [dscPa]; omega) (Nat.le_refl _) (Nat.le_refl _)
/-- A field of a descriptor that another field's change leaves alone. -/
theorem fld_dsc_setDsc {i j off off' lo n v k w : Nat} (hoff : off + 8 ≤ 128) (hoff' : off' + 8 ≤ 128) (hi : 0x1000 + 128 * (i + 1) ≤ R)
    (hj : 0x1000 + 128 * (j + 1) ≤ R) (hlo : lo + n ≤ 64) (hdis : off + 8 ≤ off' ∨ off' + 8 ≤ off ∨ off = off' ∧ (k + w ≤ lo ∨ lo + n ≤ k)) :
    fld ((s.setDsc t j off' lo n v).dsc t i off) k w = fld (s.dsc t i off) k w := by
  by_cases hsame : i = j ∧ off = off'
  · obtain ⟨rfl, rfl⟩ := hsame
    rw [dsc_setDsc hs hm lo n v hoff hi, fld_putFld_ne _ v hlo (by omega)]
  · have hout := (writes_setDsc (lo := lo) (n := n) (v := v) hs hm hoff' hj).rd64_eq (a := dscPa t i + off) (by rw [dscPa]; omega) (by rw [dscPa]; omega)
      (by rw [dscPa, dscPa]; omega)
    rw [State.dsc, hout]; rfl
end

/-! ### The descriptor of a fresh input cell (R262) -/

theorem leBytes_zero {s : State} {a n : Nat} (h : ∀ j, j < n → s.rd (a + j) = 0#8) : leBytes s a n = 0 := by
  induction n generalizing a with
  | zero => rfl
  | succ n ih =>
    rw [leBytes, ih fun j hj => by rw [Nat.add_assoc, Nat.add_comm 1]; exact h (j + 1) (by omega), show s.rd a = 0#8 from h 0 (Nat.succ_pos n)]
    rfl
/-- Cell `n` has this record, and is an input cell without a binding. -/
structure State.InputCell (s : State) (t n : Nat) (l : List (BitVec 8)) : Prop where
  kind : s.kind t n = 1
  nprec : s.nprec t n = 0
  record : ∀ j, j < 32 → s.rd (dscPa t n + j) = l.getD j 0#8

theorem defCell_defines {s : State} {d t R n : Nat} (hs : s.Homed d t R) (hm : Memory.wf s.mem = true) (hn : 0x1000 + 128 * (n + 1) ≤ R) (g : Nat)
    {l : List (BitVec 8)} (hl : l.length = 64) :
    s.Writes (s.defCell t n g l) d t R (dscPa t n) (dscPa t n + 128) ∧ (s.defCell t n g l).InputCell t n l := by
  have hlen : (l.take 32 ++ List.replicate 96 0#8).length = 128 := by simp [hl]
  have hlo : t ≤ dscPa t n := by rw [dscPa]; omega
  have hhi : dscPa t n + 128 ≤ t + R := by rw [dscPa]; omega
  have h1 : s.Writes (s.seqStore t (dscPa t n) (l.take 32 ++ List.replicate 96 0#8)) d t R (dscPa t n) (dscPa t n + 128) :=
    writes_seqStore hs hm hlo (by omega) (Nat.le_refl _) (by omega)
  have hin (j : Nat) (hj : j < 128) := rd_seqStore_in hs hm (l := l.take 32 ++ List.replicate 96 0#8) hlo (by omega) (j := j) (by omega)
  unfold State.defCell
  generalize s.seqStore t (dscPa t n) (l.take 32 ++ List.replicate 96 0#8) = u1 at h1 hin ⊢
  dsimp only
  have h2 := writes_setDsc (j := n) (off := 0x20) (lo := 32) (n := 32) (v := g) h1.homed h1.canon (by decide) hn
  have h3 := writes_setDsc (j := n) (off := 0x28) (lo := 32) (n := 32) (v := g) h2.homed h2.canon (by decide) hn
  have h4 := writes_setDsc (j := n) (off := 0x28) (lo := 10) (n := 2) (v := 1) h3.homed h3.canon (by decide) hn
  have h5 := writes_setDsc (j := n) (off := 0x48) (lo := 32) (n := 32) (v := g) h4.homed h4.canon (by decide) hn
  have hsets := (((h2.widen (lo' := dscPa t n + 0x20) (hi' := dscPa t n + 0x50) (by omega) (by omega)).trans (h3.widen (by omega) (by omega))).trans
    (h4.widen (by omega) (by omega))).trans (h5.widen (by omega) (by omega))
  refine ⟨h1.trans (hsets.widen (by omega) (by omega)), ⟨?_, ?_, fun j hj => ?_⟩⟩
  · rw [State.kind, fld_dsc_setDsc h4.homed h4.canon (by decide) (by decide) hn hn (by decide) (by decide), dsc_setDsc h3.homed h3.canon _ _ _ (by decide) hn,
      fld_putFld_self _ _ (by decide)]
    rfl
  · have hzero : u1.dsc t n 0x48 = 0#64 := by
      rw [State.dsc, Machine.rd64_eq, leBytes_zero fun j hj => ?_]; rfl
      rw [Nat.add_assoc, hin _ (by omega), List.getD_append_right _ _ _ _ (by simp [hl]; omega)]
      exact List.getD_replicate _ (by simp [hl]; omega)
    rw [State.nprec, fld_dsc_setDsc h4.homed h4.canon (by decide) (by decide) hn hn (by decide) (by decide),
      fld_dsc_setDsc h3.homed h3.canon (by decide) (by decide) hn hn (by decide) (by decide),
      fld_dsc_setDsc h2.homed h2.canon (by decide) (by decide) hn hn (by decide) (by decide),
      fld_dsc_setDsc h1.homed h1.canon (by decide) (by decide) hn hn (by decide) (by decide), hzero]
    rfl
  · rw [hsets.rest _ (by omega) (by omega) (by omega), hin j (by omega), List.getD_append _ _ _ _ (by simp [hl]; omega)]
    rw [List.getD_eq_getElem?_getD, List.getElem?_take_of_lt hj, ← List.getD_eq_getElem?_getD]

/-! ### Chains and ranks written again (R238, R253, R262) -/

/-- A table of `c` cells, whose cell `n` is an input cell with this record, and whose cells name at most eight precedents. -/
structure State.CellTable (s : State) (d t R c n : Nat) (l : List (BitVec 8)) : Prop extends s.InputCell t n l where
  homed : s.Homed d t R
  canon : Memory.wf s.mem = true
  ncells : s.ncells t = c
  few : ∀ j, j < c → s.nprec t j ≤ 8

section
variable {s : State} {d t R c n : Nat} {l : List (BitVec 8)} (hR : 0x1000 + 128 * c ≤ R) (hn : n < c)
include hR hn
/-- A store to the descriptor of a cell, beside its record, that keeps every cell's kind and number of precedents keeps all of it. -/
theorem State.CellTable.of_writes {u : State} {lo j : Nat} (h : s.CellTable d t R c n l) (hlo : dscPa t j + 0x20 ≤ lo)
    (hw : s.Writes u d t R lo (dscPa t j + 0x80)) (hfields : ∀ i, i < c → u.kind t i = s.kind t i ∧ u.nprec t i = s.nprec t i) : u.CellTable d t R c n l := by
  have hroom := h.homed.room
  rw [dscPa] at hlo hw
  have hhdr : u.hdr t 0 = s.hdr t 0 := hw.rd64_eq (by omega) (by omega) (by omega)
  refine ⟨⟨(hfields n hn).1.trans h.kind, (hfields n hn).2.trans h.nprec, fun i hi => ?_⟩, hw.homed, hw.canon, ?_, fun i hi => (hfields i hi).2.trans_le (h.few i hi)⟩
  · have hrec := h.record i hi
    rw [dscPa] at hrec ⊢
    rw [hw.rest _ (by omega) (by omega) (by omega), hrec]
  · rw [State.ncells, hhdr]
    exact h.ncells
theorem cellTable_setDsc {j off lo m v : Nat} (h : s.CellTable d t R c n l) (hj : j < c) (hfield : off = 0x48 ∧ lo = 0 ∧ m = 20 ∨ off = 0x28 ∧ lo = 20 ∧ m = 12) :
    (s.setDsc t j off lo m v).CellTable d t R c n l :=
  h.of_writes hR hn (j := j) (lo := dscPa t j + off) (by omega) ((writes_setDsc h.homed h.canon (by omega) (by omega)).widen (Nat.le_refl _) (by omega)) fun i hi =>
    ⟨fld_dsc_setDsc h.homed h.canon (by omega) (by omega) (by omega) (by omega) (by omega) (by omega),
      fld_dsc_setDsc h.homed h.canon (by omega) (by omega) (by omega) (by omega) (by omega) (by omega)⟩
/-- A link of a dependant chain. -/
theorem cellTable_link {j k v : Nat} (h : s.CellTable d t R c n l) (hj : j < c) (hk : k < 8) :
    (s.seqN t (dscPa t j + 0x60 + 4 * k) 4 v).CellTable d t R c n l := by
  have hw : s.Writes (s.seqN t (dscPa t j + 0x60 + 4 * k) 4 v) d t R (dscPa t j + 0x60 + 4 * k) (dscPa t j + 0x80) :=
    writes_seqN h.homed h.canon (by rw [dscPa]; omega) (by rw [dscPa]; omega) (Nat.le_refl _) (by omega)
  have hdsc (i off : Nat) (hi : i < c) (hoff : off + 8 ≤ 0x60) : (s.seqN t (dscPa t j + 0x60 + 4 * k) 4 v).dsc t i off = s.dsc t i off :=
    hw.rd64_eq (by rw [dscPa]; omega) (by rw [dscPa]; omega) (by rw [dscPa, dscPa]; omega)
  exact h.of_writes hR hn (by omega) hw fun i hi => ⟨by rw [State.kind, hdsc i _ hi (by decide)]; rfl, by rw [State.nprec, hdsc i _ hi (by decide)]; rfl⟩
theorem cellTable_writeChain {links : List (Nat × Nat)} (h : s.CellTable d t R c n l) (hlinks : ∀ e ∈ links, e.1 < c ∧ e.2 < 8) :
    (writeChain t s links).CellTable d t R c n l := by
  induction links generalizing s with
  | nil => exact h
  | cons e r ih =>
    obtain ⟨hj, hk⟩ := hlinks e List.mem_cons_self
    exact ih (cellTable_link hR hn h hj hk) fun e he => hlinks e (List.mem_cons_of_mem _ he)
theorem cellTable_chain {j : Nat} (h : s.CellTable d t R c n l) (hj : j < c) : (s.chain t j).CellTable d t R c n l := by
  refine cellTable_writeChain hR hn (cellTable_setDsc hR hn h hj (.inl ⟨rfl, rfl, rfl⟩)) fun e he => ?_
  simp only [depSlots, List.mem_flatMap, List.mem_map, List.mem_filter, List.mem_range] at he
  obtain ⟨i, hi, k, ⟨hk, -⟩, rfl⟩ := he
  rw [h.ncells] at hi
  exact ⟨hi, hk.trans_le (h.few i hi)⟩
omit hR hn in
theorem cellTable_foldl {g : State → Nat → State} (h : s.CellTable d t R c n l) (hg : ∀ s j, s.CellTable d t R c n l → j < c → (g s j).CellTable d t R c n l) :
    ((List.range c).foldl g s).CellTable d t R c n l :=
  List.foldlRecOn _ g h fun s hs j hj => hg s j hs (List.mem_range.mp hj)
/-- Writing chains and ranks again keeps the cells. -/
theorem cellTable_relinked (h : s.CellTable d t R c n l) : ((s.chains t).writeRanks t).CellTable d t R c n l := by
  have hchains : (s.chains t).CellTable d t R c n l := by
    rw [State.chains, h.ncells]
    exact cellTable_foldl h fun s j hs hj => cellTable_chain hR hn hs hj
  rw [State.writeRanks, hchains.ncells]
  exact cellTable_foldl hchains fun s j hs hj => cellTable_setDsc hR hn hs hj (.inr ⟨rfl, rfl, rfl⟩)
end
end Sys2Proof.Machine
end

section
/-! The header and the directory entry of a new sheet (R239, R262). -/
open Sys2Proof Sys2Proof.Machine Sys2Proof.Spec
namespace Sys2Proof.Machine

/-! ### A new sheet (R239, R262) -/

/-- The header of a sheet in setup with one cell, nothing opened, and no pin limit yet. -/
structure State.FreshHeader (s : State) (t : Nat) : Prop where
  ncells : s.ncells t = 1
  setup : s.setup t = true
  opened : s.opened t = 0
  done : s.done t = 0
  pinlim : leBytes s (t + 0x18) 8 = 2 ^ 32

theorem freshHeader_writes {s u : State} {d t R lo hi : Nat} (h : s.FreshHeader t) (hw : s.Writes u d t R lo hi) (hlo : t + 0x1000 ≤ lo) : u.FreshHeader t := by
  have hroom := hw.homed.room
  have hhdr (off : Nat) (hoff : off + 8 ≤ 0x1000) : u.hdr t off = s.hdr t off := hw.rd64_eq (by omega) (by omega) (by omega)
  have h0 := hhdr 0 (by decide)
  have h8 := hhdr 8 (by decide)
  have hncells : u.ncells t = s.ncells t := by rw [State.ncells, State.ncells, h0]
  have hsetup : u.setup t = s.setup t := by rw [State.setup, State.setup, h0]
  have hopened : u.opened t = s.opened t := by rw [State.opened, State.opened, h8]
  have hdone : u.done t = s.done t := by rw [State.done, State.done, h8]
  exact ⟨hncells.trans h.ncells, hsetup.trans h.setup, hopened.trans h.opened, hdone.trans h.done,
    (hw.leBytes_eq (by omega) (by omega) (by omega)).trans h.pinlim⟩

theorem sheetE_updSheet (s : State) (d t : Nat) {g : SheetE → SheetE} (hg : ∀ e, (g e).pa = e.pa) :
    (s.updSheet d t g).sheetE d t = (s.sheetE d t).map g := by
  have hmap : ∀ l : List SheetE, (l.map fun e => if e.pa = t then g e else e).find? (fun e => decide (e.pa = t)) = (l.find? fun e => decide (e.pa = t)).map g := by
    intro l
    induction l with
    | nil => rfl
    | cons e r ih => by_cases he : e.pa = t <;> simp [he, hg, ih]
  rw [State.sheetE, State.updSheet, updDie_eq, die_setDie_self]
  exact hmap _
/-- The directory entry of a new sheet takes the place of the one of its table. -/
theorem sheetE_newEntry (s : State) (d t : Nat) {e : SheetE} (he : e.pa = t) :
    (s.updDie d fun v => { v with dir := (v.dir.filter fun e => e.pa ≠ t) ++ [e] }).sheetE d t = some e := by
  rw [State.sheetE, updDie_eq, die_setDie_self, List.find?_append, List.find?_eq_none.mpr (by simp)]
  simp [he]

/-- A header over zeros set up for a new sheet. -/
theorem freshHeader_written {s : State} {d t R : Nat} (hs : s.Homed d t R) (hm : Memory.wf s.mem = true) (hzero : s.hdr t 8 = 0#64) :
    let u := ((s.setHdr t 0 31 1 1).setHdr t 0 0 17 1).seqN t (t + 0x18) 8 (2 ^ 32)
    s.Writes u d t R t (t + 0x1000) ∧ u.FreshHeader t := by
  intro u
  have hroom := hs.room
  have h1 : s.Writes (s.setHdr t 0 31 1 1) d t R t (t + 8) := writes_seqN hs hm (by omega) (by omega) (by omega) (by omega)
  have h1w := hdr_setHdr hs hm (off := 0) 31 1 1 (by omega)
  have h2 : (s.setHdr t 0 31 1 1).Writes ((s.setHdr t 0 31 1 1).setHdr t 0 0 17 1) d t R t (t + 8) :=
    writes_seqN h1.homed h1.canon (by omega) (by omega) (by omega) (by omega)
  have h2w := hdr_setHdr h1.homed h1.canon (off := 0) 0 17 1 (by omega)
  have h3 : ((s.setHdr t 0 31 1 1).setHdr t 0 0 17 1).Writes u d t R (t + 0x18) (t + 0x20) :=
    writes_seqN h2.homed h2.canon (by omega) (by omega) (by omega) (by omega)
  have hpin := rd64_seqN h2.homed h2.canon (lo := t + 0x18) (v := 2 ^ 32) (by omega) (by omega) (by decide)
  have h0 : u.hdr t 0 = putFld (putFld (s.hdr t 0) 31 1 1) 0 17 1 :=
    (h3.rd64_eq (by omega) (by omega) (by omega)).trans (h2w.trans (by rw [h1w]))
  have h8 : u.hdr t 8 = 0#64 := by
    rw [State.hdr, h3.rd64_eq (by omega) (by omega) (by omega), h2.rd64_eq (by omega) (by omega) (by omega), h1.rd64_eq (by omega) (by omega) (by omega)]
    exact hzero
  refine ⟨((h1.trans h2).widen (Nat.le_refl _) (by omega)).trans (h3.widen (by omega) (by omega)), ⟨?_, ?_, ?_, ?_, ?_⟩⟩
  · rw [State.ncells, h0, fld_putFld_self _ _ (by decide)]; rfl
  · rw [State.setup, h0, fld_putFld_ne _ _ (by decide) (by decide), fld_putFld_self _ _ (by decide)]; rfl
  · rw [State.opened, h8]; rfl
  · rw [State.done, h8]; rfl
  · rw [← toNat_rd64, hpin]; rfl

theorem newSheet_fresh {s : State} {d t R : Nat} {w : Word} (va : Nat) (hdie : OneDie w d t R) (hR : 0x1000 ≤ R) (hm : Memory.wf s.mem = true) :
    (s.newSheet d t va w).Homed d t R ∧ Memory.wf (s.newSheet d t va w).mem = true ∧ (s.newSheet d t va w).FreshHeader t ∧
      (s.newSheet d t va w).sheetE d t = some { pa := t, ctx := s.myCore.ctxid, va := va, w := w } := by
  have hentry := sheetE_newEntry s d t (e := { pa := t, ctx := s.myCore.ctxid, va := va, w := w }) rfl
  unfold State.newSheet
  dsimp only
  generalize hs1 : (s.updDie d fun v => { v with dir := (v.dir.filter fun e => e.pa ≠ t) ++
    [({ pa := t, ctx := s.myCore.ctxid, va := va, w := w } : SheetE)] }) = s1 at hentry
  have hm1 : Memory.wf s1.mem = true := hs1 ▸ hm
  have hhome : s1.Homed d t R := ⟨fun x hx hr => by
    obtain rfl := Option.some.inj (hentry.symm.trans hx)
    exact hdie.1 hr, fun o ho => hdie.2 o (by omega), hR⟩
  have hlen : (List.replicate 4096 0#8).length = 4096 := List.length_replicate ..
  have hpage : t + (List.replicate 4096 0#8).length ≤ t + R := by rw [hlen]; omega
  have hz := writes_seqStore (lo := t) (hi := t + 0x1000) hhome hm1 (Nat.le_refl t) hpage (Nat.le_refl t) (by rw [hlen])
  have hzero : (s1.seqStore t t (List.replicate 4096 0#8)).hdr t 8 = 0#64 := by
    rw [State.hdr, rd64_eq, leBytes_zero fun j hj => ?_]
    · rfl
    · rw [Nat.add_assoc, rd_seqStore_in hhome hm1 (Nat.le_refl t) hpage (by rw [hlen]; omega)]
      exact List.getD_replicate _ (by omega)
  obtain ⟨hw, hfresh⟩ := freshHeader_written hz.homed hz.canon hzero
  exact ⟨hw.homed, hw.canon, hfresh, (hw.sheets d t).trans ((hz.sheets d t).trans hentry)⟩
end Sys2Proof.Machine
end

section
/-! CDEF once its record is read (R239, R262). -/
open Sys2Proof Sys2Proof.Machine Sys2Proof.Spec
namespace Sys2Proof.Machine

/-! ### A table is read from memory alone -/

section
variable {s u : State} (h : u.mem = s.mem) (t : Nat)
include h
theorem rd64_congr (a : Nat) : u.rd64 a = s.rd64 a := by rw [rd64_eq, rd64_eq, leBytes_congr fun b _ _ => rd_congr h b]
theorem hdr_congr (off : Nat) : u.hdr t off = s.hdr t off := rd64_congr h _
theorem ncells_congr : u.ncells t = s.ncells t := by rw [State.ncells, State.ncells, hdr_congr h]
theorem setup_congr : u.setup t = s.setup t := by rw [State.setup, State.setup, hdr_congr h]
theorem opened_congr : u.opened t = s.opened t := by rw [State.opened, State.opened, hdr_congr h]
theorem done_congr : u.done t = s.done t := by rw [State.done, State.done, hdr_congr h]
theorem nprec_congr (n : Nat) : u.nprec t n = s.nprec t n := by rw [State.nprec, State.nprec, State.dsc, State.dsc, rd64_congr h]
theorem unfinished_congr : u.unfinished t = s.unfinished t := by rw [State.unfinished, State.unfinished, opened_congr h, done_congr h]
theorem freeEdit_congr : u.freeEdit t = s.freeEdit t := by simp only [State.freeEdit, rd64_congr h]
theorem freshHeader_congr (hs : s.FreshHeader t) : u.FreshHeader t :=
  ⟨(ncells_congr h t).trans hs.ncells, (setup_congr h t).trans hs.setup, (opened_congr h t).trans hs.opened, (done_congr h t).trans hs.done,
    (leBytes_congr fun b _ _ => rd_congr h b).trans hs.pinlim⟩
end

/-! ### What a definition leaves (R262) -/

theorem defBad_room {l : List (BitVec 8)} {room n : Nat} (h : defBad l room n = false) : 0x1000 + 128 * (n + 1) ≤ room := by
  simp only [defBad, Bool.or_eq_false_iff, decide_eq_false_iff_not] at h
  obtain ⟨-, hroom⟩ := h
  omega
theorem sheetE_notePages (s : State) (sh : Sheet) (l : List (BitVec 8)) :
    ∃ g : SheetE → SheetE, (s.notePages sh l).sheetE sh.die sh.t = (s.sheetE sh.die sh.t).map g ∧ ∀ e, (g e).ctx = e.ctx ∧ (g e).va = e.va ∧ (g e).w = e.w :=
  ⟨_, sheetE_updSheet s sh.die sh.t fun _ => rfl, fun _ => ⟨rfl, rfl, rfl⟩⟩
theorem homed_notePages {s : State} {sh : Sheet} {R : Nat} (h : s.Homed sh.die sh.t R) (l : List (BitVec 8)) : (s.notePages sh l).Homed sh.die sh.t R := by
  obtain ⟨g, hg, hkeep⟩ := sheetE_notePages s sh l
  refine ⟨fun x hx hr => ?_, h.region, h.room⟩
  obtain ⟨y, hy, rfl⟩ := Option.map_eq_some_iff.mp (hg.symm.trans hx)
  rw [(hkeep y).2.2] at hr ⊢
  exact h.home y hy hr

theorem inputCell_writes {s u : State} {d t R lo hi n : Nat} {l : List (BitVec 8)} (h : s.InputCell t n l) (hw : s.Writes u d t R lo hi) (hhi : hi ≤ dscPa t n)
    (hR : dscPa t n + 128 ≤ t + R) : u.InputCell t n l := by
  have hlow : t ≤ dscPa t n := by rw [dscPa]; omega
  have hdsc (off : Nat) (hoff : off + 8 ≤ 128) : u.dsc t n off = s.dsc t n off := hw.rd64_eq (by omega) (by omega) (by omega)
  have hkind : u.kind t n = s.kind t n := by rw [State.kind, State.kind, hdsc _ (by decide)]
  have hprec : u.nprec t n = s.nprec t n := by rw [State.nprec, State.nprec, hdsc _ (by decide)]
  exact ⟨hkind.trans h.kind, hprec.trans h.nprec, fun j hj => (hw.rest _ (by omega) (by omega) (by omega)).trans (h.record j hj)⟩
section
variable {s : State} {d : BitVec 6} {sh : Sheet} {ta n : Nat} {l : List (BitVec 8)}
theorem define_full (hnone : s.sheetE sh.die sh.t = none) (hfull : (s.die sh.die).dir.length ≥ 4096) : s.define d sh ta 0 l = s.endSt d 3 0 0 none := by
  simp [State.define, hnone, hfull]
/-- CDEF of cell 0 leaves a sheet in setup with that cell. -/
theorem define_new (hroom : s.sheetE sh.die sh.t ≠ none ∨ (s.die sh.die).dir.length < 4096) (hdie : OneDie sh.w sh.die sh.t sh.room)
    (hbad : defBad l sh.room 0 = false) (hl : l.length = 64) (hm : Memory.wf s.mem = true) : ∃ u : State, s.define d sh ta 0 l = u.endSt d 0 0 0 none ∧
      u.FreshHeader sh.t ∧ u.InputCell sh.t 0 l ∧ ∃ x, u.sheetE sh.die sh.t = some x ∧ x.ctx = s.myCore.ctxid ∧ x.va = ta := by
  have hR := defBad_room hbad
  obtain ⟨hhome, hcanon, hheader, hentry⟩ := newSheet_fresh (s := s) ta ⟨hdie.1, fun o ho => hdie.2 o (by omega)⟩ (Nat.le_max_right sh.room 0x1000) hm
  obtain ⟨g, hg, hkeep⟩ := sheetE_notePages (s.newSheet sh.die sh.t ta sh.w) sh l
  have hnote := homed_notePages hhome l
  have hmem := State.notePages_mem (s.newSheet sh.die sh.t ta sh.w) sh l
  have hcanon' : Memory.wf ((s.newSheet sh.die sh.t ta sh.w).notePages sh l).mem = true := by rw [hmem]; exact hcanon
  have hfits : 0x1000 + 128 * (0 + 1) ≤ max sh.room 0x1000 := by omega
  obtain ⟨hw, hcell⟩ := defCell_defines hnote hcanon' hfits 0 hl
  refine ⟨((s.newSheet sh.die sh.t ta sh.w).notePages sh l).defCell sh.t 0 0 l, ?_, freshHeader_writes (freshHeader_congr hmem _ hheader) hw (Nat.le_refl _),
    hcell, g { pa := sh.t, ctx := s.myCore.ctxid, va := ta, w := sh.w }, ?_, (hkeep _).1, (hkeep _).2.1⟩
  · have hcond : ((s.sheetE sh.die sh.t).isNone && decide ((s.die sh.die).dir.length ≥ 4096)) = false := by
      rcases hroom with h | h
      · rw [Option.isNone_eq_false_iff.mpr (Option.isSome_iff_ne_none.mpr h), Bool.false_and]
      · rw [decide_eq_false (Nat.not_le.mpr h), Bool.and_false]
    rw [State.define, if_pos rfl, hcond, if_neg Bool.false_ne_true]
  · rw [hw.sheets, hg, hentry]; rfl
/-- CDEF of the next cell in setup. -/
theorem define_next (hn : s.ncells sh.t ≠ 0) {R : Nat} (hs : s.Homed sh.die sh.t R) (hm : Memory.wf s.mem = true)
    (hR : 0x1000 + 128 * (s.ncells sh.t + 1) ≤ R) (hl : l.length = 64) (hsmall : s.ncells sh.t < 2 ^ 16) : ∃ u : State,
      s.define d sh ta (s.ncells sh.t) l = u.endSt d 0 (s.ncells sh.t) 0 none ∧ u.ncells sh.t = s.ncells sh.t + 1 ∧ u.InputCell sh.t (s.ncells sh.t) l := by
  have hroom := hs.room
  obtain ⟨hw, hcell⟩ := defCell_defines (homed_notePages hs l) hm hR (s.opened sh.t) hl
  have hcount : (((s.notePages sh l).defCell sh.t (s.ncells sh.t) (s.opened sh.t) l).setHdr sh.t 0 0 17 (s.ncells sh.t + 1)).ncells sh.t = s.ncells sh.t + 1 := by
    rw [State.ncells, hdr_setHdr hw.homed hw.canon _ _ _ (by omega), fld_putFld_self _ _ (by decide), Nat.mod_eq_of_lt (by omega)]
  refine ⟨_, ?_, hcount, ?_⟩
  · rw [State.define, if_neg hn]; exact if_pos rfl
  · exact inputCell_writes hcell (writes_seqN hw.homed hw.canon (Nat.le_add_right sh.t 0) (by omega) (Nat.le_refl _) (Nat.le_refl _)) (by rw [dscPa]; omega)
      (by rw [dscPa]; omega)
/-- CDEF of a cell defined before, in setup. -/
theorem define_again (hn : n ≠ 0) (hlt : n < s.ncells sh.t) {R : Nat} (hs : s.Homed sh.die sh.t R) (hm : Memory.wf s.mem = true)
    (hR : 0x1000 + 128 * s.ncells sh.t ≤ R) (hl : l.length = 64) (hfew : ∀ j, j < s.ncells sh.t → s.nprec sh.t j ≤ 8) : ∃ u : State,
      s.define d sh ta n l = u.endSt d 0 n 0 none ∧ u.ncells sh.t = s.ncells sh.t ∧ u.InputCell sh.t n l := by
  have hroom := hs.room
  have hfits : 0x1000 + 128 * (n + 1) ≤ R := by omega
  obtain ⟨hw, hcell⟩ := defCell_defines (homed_notePages hs l) hm hfits (s.opened sh.t) hl
  have hcount : ((s.notePages sh l).defCell sh.t n (s.opened sh.t) l).ncells sh.t = s.ncells sh.t := by
    rw [State.ncells, State.hdr, hw.rd64_eq (by omega) (by omega) (by rw [dscPa]; omega)]; rfl
  have htable : ((s.notePages sh l).defCell sh.t n (s.opened sh.t) l).CellTable sh.die sh.t R (s.ncells sh.t) n l := by
    refine ⟨hcell, hw.homed, hw.canon, hcount, fun j hj => ?_⟩
    by_cases hjn : j = n
    · rw [hjn, hcell.nprec]; exact Nat.zero_le 8
    · rw [State.nprec, State.dsc, hw.rd64_eq (by rw [dscPa]; omega) (by rw [dscPa]; omega) (by rw [dscPa, dscPa]; omega)]
      exact hfew j hj
  have hlinked := cellTable_relinked hR hlt htable
  refine ⟨_, ?_, hlinked.ncells, hlinked.toInputCell⟩
  rw [State.define, if_neg hn]; exact if_neg hlt.ne
end

/-! ### CDEF -/

/-- CDEF once its record is read. -/
def State.cdefWith (s : State) (d a : BitVec 6) (sh : Sheet) (n : Nat) (l : List (BitVec 8)) : Res :=
  match s.defLate sh.t n with
  | some k => s.endSt d k n 0 none
  | none =>
    if defBad l sh.room n then s.endSt d 5 n 0 none
    else match s.defBufs l (s.xn a) (if n = 0 then 1 else max (s.ncells sh.t) (n + 1)) with
      | .bad s => s.endSt d 5 n 0 none
      | .wait s => .hold (s.kept 24 l) .walk
      | .ok s => s.define d sh (s.xn a) n l
section
variable {s : State} {d a : BitVec 6} {sh : Sheet} {n : Nat} {l : List (BitVec 8)}
theorem cdefWith_late {k : Nat} (h : s.defLate sh.t n = some k) : s.cdefWith d a sh n l = s.endSt d k n 0 none := by rw [State.cdefWith, h]
theorem cdefWith_bad (h : s.defLate sh.t n = none) (hbad : defBad l sh.room n = true) : s.cdefWith d a sh n l = s.endSt d 5 n 0 none := by
  rw [State.cdefWith, h]; exact if_pos hbad
theorem cdefWith_defines (h : s.defLate sh.t n = none) (hbad : defBad l sh.room n = false) {cells : Nat}
    (hcells : cells = if n = 0 then 1 else max (s.ncells sh.t) (n + 1)) (hbufs : s.defBufs l (s.x a).toNat cells = .ok s) :
    s.cdefWith d a sh n l = s.define d sh (s.x a).toNat n l := by
  rw [State.cdefWith, h, State.xn, ← hcells, hbufs, hbad]; rfl
theorem defLate_zero (s : State) (t : Nat) : s.defLate t 0 = none := if_pos rfl
variable {t : Nat} (hn : n ≠ 0)
include hn
theorem defLate_absent (hsetup : s.setup t = true) (h : n > s.ncells t) : s.defLate t n = some 7 := by
  rw [State.defLate, if_neg hn, if_pos hsetup, if_pos h]
theorem defLate_known (hsetup : s.setup t = true) (h : n ≤ s.ncells t) : s.defLate t n = none := by
  rw [State.defLate, if_neg hn, if_pos hsetup, if_neg (Nat.not_lt.mpr h)]
theorem defLate_running (hsetup : s.setup t = false) (h : n ≠ s.ncells t) : s.defLate t n = some 8 := by
  rw [State.defLate, if_neg hn, hsetup, if_neg Bool.false_ne_true, if_pos h]
end
section
variable {s v : State} {named : List Nat} {a d b : BitVec 6} {dd t room : Nat} {c : BitVec 16} {l : List (BitVec 8)} (hready : Ready s named) (m : Bool)
  (hsub : ∀ n ∈ [rX a, rX b, rX d], n ∈ named) (hrec : (sheetS s a).cellRecord (.cdef m d a b c) b = .got v l)
include hready hsub hrec
theorem cdef_creates (hpage : SheetPage s a dd t room) (hc : c.toNat = 0) : ∃ w, OneDie w dd t room ∧
    exec (.cdef m d a b c) s = .next ((v.cdefWith d a ⟨dd, t, room, w⟩ 0 l).finish m 12) := by
  obtain ⟨w, hdie, hissue⟩ := page_issues hready hpage
  have hexec := hissue m 12 (.cdef m d a b c) [rX a, rX b, rX d] (fun s => s.badSheet d c.toNat)
    (fun s sh => (s.cellRecord (.cdef m d a b c) b).res fun s l => s.cdefWith d a sh c.toNat l) hsub
  simp only [hrec, Got.res] at hexec
  refine ⟨w, hdie, hc ▸ Eq.trans ?_ hexec⟩
  rw [← decide_eq_true hc]
  rfl
theorem cdef_reads (hat : SheetAt s a dd t room) (hc : c.toNat ≠ 0) : ∃ w,
    exec (.cdef m d a b c) s = .next ((v.cdefWith d a ⟨dd, t, room, w⟩ c.toNat l).finish m 12) := by
  obtain ⟨w, hissue⟩ := sheet_issues hready hat
  have hexec := hissue m 12 (.cdef m d a b c) [rX a, rX b, rX d] (fun s => s.badSheet d c.toNat)
    (fun s sh => (s.cellRecord (.cdef m d a b c) b).res fun s l => s.cdefWith d a sh c.toNat l) hsub
  simp only [hrec, Got.res] at hexec
  refine ⟨w, Eq.trans ?_ hexec⟩
  rw [← decide_eq_false hc]
  rfl
end
end Sys2Proof.Machine
end

section
/-! CBIND and CUNB (R251 to R253, R263, R264). -/
open Sys2Proof Sys2Proof.Machine Sys2Proof.Spec
namespace Sys2Proof.Machine

/-! ### Edits (R240, R252) -/

section
variable {s : State} {d : BitVec 6} {sh : Sheet} {n : Nat} {l : List (BitVec 8)} {edited : List Nat}
theorem edit_setup (h : s.setup sh.t = true) : s.edit d sh n l edited = (s.applyBind sh.t n l).endSt d 0 n 0 none := if_pos h
theorem edit_busy (h : s.setup sh.t = false) (hbusy : s.unfinished sh.t ≥ 4 ∨ s.freeEdit sh.t = none) : s.edit d sh n l edited = s.endSt d 3 n 0 none := by
  rw [State.edit, h]
  cases hslot : s.freeEdit sh.t with
  | none => simp only [Bool.false_eq_true, if_false]
  | some k => simp only [Bool.false_eq_true, if_false, if_pos (hbusy.resolve_right (by simp [hslot]))]
/-- An edit staged for the generation it opens. -/
theorem edit_stages {k : Nat} (h : s.setup sh.t = false) (hfew : s.unfinished sh.t < 4) (hslot : s.freeEdit sh.t = some k) :
    s.edit d sh n l edited = (((s.seqStore sh.t (sh.t + 0x100 + 128 * k) l).seqN sh.t (sh.t + 0x100 + 128 * k + 0x40) 8
      (gnext (s.opened sh.t) * 2 ^ 32 + 2 ^ 31 + n)).openGen sh.die sh.t edited none).endSt d 0 n 0 (some (gnext (s.opened sh.t))) := by
  rw [State.edit, h, hslot]; simp only [Bool.false_eq_true, if_false, if_neg (Nat.not_le.mpr hfew)]
end

/-! ### CUNB -/

section
variable {s : State} {named : List Nat} {a d : BitVec 6} {dd t room : Nat} {c : BitVec 16} (hready : Ready s named) (m : Bool) (hat : SheetAt s a dd t room)
  (hsub : ∀ n ∈ [rX a, rX d], n ∈ named)
include hready hat hsub
theorem cunb_ends : ∃ w, exec (.cunb m d a c) s = .next ((if c.toNat ≥ s.ncells t then (sheetS s a).endSt d 7 c.toNat 0 none
    else if !s.formulaAt t (s.opened t) c.toNat then (sheetS s a).endSt d 6 c.toNat 0 none
    else (sheetS s a).edit d ⟨dd, t, room, w⟩ c.toNat (List.replicate 64 0#8) []).finish m 12) := by
  obtain ⟨w, hissue⟩ := sheet_issues hready hat
  exact ⟨w, hissue m 12 _ _ _ _ hsub⟩
end

/-! ### CBIND -/

/-- CBIND once its record is read. -/
def State.bindWith (s : State) (d a : BitVec 6) (sh : Sheet) (n : Nat) (l : List (BitVec 8)) : Res :=
  if n ≥ s.ncells sh.t then s.endSt d 7 n 0 none
  else if bindBad l (s.ncells sh.t) then s.endSt d 5 n 0 none
  else match s.findPath sh.t (s.opened sh.t) (bindPrecs l) sheetFuel [[n]] [] with
    | some p => .trap (s.faultRec sh.t (s.opened sh.t) n 8 0#64 (p.take 8)) ⟨0x10, s.x a, wd n, wd (min 8 p.length)⟩
    | none => if s.rankBad sh.t (s.opened sh.t) n (bindPrecs l) then s.endSt d 4 n 0 none else s.edit d sh n l [n]
section
variable {s : State} {d a : BitVec 6} {sh : Sheet} {n : Nat} {l : List (BitVec 8)}
theorem bindWith_absent (hn : n ≥ s.ncells sh.t) : s.bindWith d a sh n l = s.endSt d 7 n 0 none := if_pos hn
variable (hn : n < s.ncells sh.t)
include hn
theorem bindWith_bad (hbad : bindBad l (s.ncells sh.t) = true) : s.bindWith d a sh n l = s.endSt d 5 n 0 none := by
  rw [State.bindWith, if_neg (Nat.not_le.mpr hn), if_pos hbad]
variable (hbad : bindBad l (s.ncells sh.t) = false)
include hbad
theorem bindWith_cycle {p : List Nat} (hpath : s.findPath sh.t (s.opened sh.t) (bindPrecs l) sheetFuel [[n]] [] = some p) :
    s.bindWith d a sh n l = .trap (s.faultRec sh.t (s.opened sh.t) n 8 0#64 (p.take 8)) ⟨0x10, s.x a, wd n, wd (min 8 p.length)⟩ := by
  rw [State.bindWith, if_neg (Nat.not_le.mpr hn), hbad, if_neg Bool.false_ne_true, hpath]
theorem bindWith_none (hpath : s.findPath sh.t (s.opened sh.t) (bindPrecs l) sheetFuel [[n]] [] = none) :
    s.bindWith d a sh n l = if s.rankBad sh.t (s.opened sh.t) n (bindPrecs l) then s.endSt d 4 n 0 none else s.edit d sh n l [n] := by
  rw [State.bindWith, if_neg (Nat.not_le.mpr hn), hbad, if_neg Bool.false_ne_true, hpath]
end
section
variable {s v : State} {named : List Nat} {a d b : BitVec 6} {dd t room : Nat} {c : BitVec 16} {l : List (BitVec 8)} (hready : Ready s named) (m : Bool)
  (hat : SheetAt s a dd t room) (hsub : ∀ n ∈ [rX a, rX b, rX d], n ∈ named) (hrec : (sheetS s a).cellRecord (.cbind m d a b c) b = .got v l)
include hready hat hsub hrec
theorem cbind_reads : ∃ w, exec (.cbind m d a b c) s = .next ((v.bindWith d a ⟨dd, t, room, w⟩ c.toNat l).finish m 12) := by
  obtain ⟨w, hissue⟩ := sheet_issues hready hat
  have hexec := hissue m 12 (.cbind m d a b c) [rX a, rX b, rX d] (fun s => s.badSheet d c.toNat)
    (fun s sh => (s.cellRecord (.cbind m d a b c) b).res fun s l => s.bindWith d a sh c.toNat l) hsub
  simp only [hrec, Got.res] at hexec
  exact ⟨w, Eq.trans rfl hexec⟩
end
/-- Entering the fault record changes memory alone. -/
theorem faultRec_fields (s : State) (t g n kind : Nat) (detail : Word) (cells : List Nat) :
    ∃ M P, s.faultRec t g n kind detail cells = { s with mem := M, poison := P } := by
  have hstep {u : State} (h : ∃ M P, u = { s with mem := M, poison := P }) (a k v : Nat) : ∃ M P, u.seqN t a k v = { s with mem := M, poison := P } := by
    obtain ⟨M, P, rfl⟩ := h
    exact seqStore_fields ..
  exact hstep (hstep (hstep (hstep ⟨s.mem, s.poison, rfl⟩ ..) ..) ..) ..
/-- A cause raised behind a fault record, taken at once. -/
theorem faultRec_traps {i : Instr} {s v : State} {m : Bool} {len t g n kind : Nat} {detail : Word} {cells : List Nat} {tr : Trap} (htakes : TakesTrap v v.turn v.fi)
    (hcause : tr.cause < 0x80) (h : exec i s = .next ((Res.trap (v.faultRec t g n kind detail cells) tr).finish m len)) :
    exec i s = .next (trapState (v.faultRec t g n kind detail cells) tr v.cur.pc) := by
  obtain ⟨M, P, he⟩ := faultRec_fields v t g n kind detail cells
  rw [he] at h ⊢
  rw [h]
  exact congrArg _ (raise_handler (s := { v with mem := M, poison := P }) htakes hcause)
end Sys2Proof.Machine
end

section
/-! How CDEF, CBIND and CUNB end (R239, R251, R252, R262 to R264). -/
open Sys2Proof Sys2Proof.Machine Sys2Proof.Spec
namespace Sys2Proof.Machine

/-- An instruction that says a code and changes no memory. -/
theorem endsSt_told {i : Instr} {s u : State} {m : Bool} {d : BitVec 6} {code n : Nat} (h : exec i s = .next ((u.endSt d code n 0 none).finish m 12))
    (hmem : u.mem = s.mem) (hn : n < 65536 := by omega) (hcode : code < 256 := by decide) : EndsSt i s m 12 d fun u w => St w code n 0 ∧ u.mem = s.mem :=
  endsSt_free h (fun _ hw => ⟨hw, hmem⟩) hn hcode
theorem State.Homed.congr {s v : State} {d t R : Nat} (h : s.Homed d t R) (hsheet : v.sheetE d t = s.sheetE d t) : v.Homed d t R :=
  ⟨fun x hx => h.home x (hsheet ▸ hx), h.region, h.room⟩

/-! ### CDEF -/

section
variable {s v : State} {named : List Nat} {a d b : BitVec 6} {dd t room : Nat} {c : BitVec 16} {l : List (BitVec 8)} (hready : Ready s named) (m : Bool)
  (hsub : ∀ n ∈ [rX a, rX b, rX d], n ∈ named) (hrec : (sheetS s a).cellRecord (.cdef m d a b c) b = .got v l) (hmem : v.mem = s.mem)
include hready hsub hrec hmem
section
variable (hpage : SheetPage s a dd t room) (hc : c.toNat = 0)
include hpage hc
theorem cdef_first_bad (hbad : defBad l room 0 = true) : EndsSt (.cdef m d a b c) s m 12 d fun u w => St w 5 c.toNat 0 ∧ u.mem = s.mem := by
  obtain ⟨w, -, hD⟩ := cdef_creates hready m hsub hrec hpage hc
  rw [cdefWith_bad (sh := ⟨dd, t, room, w⟩) (defLate_zero ..) hbad] at hD
  rw [hc]
  exact endsSt_told hD hmem
variable (hxa : v.x a = s.x a) (hsheet : v.sheetE dd t = s.sheetE dd t) (hbad : defBad l room 0 = false) (hbufs : v.defBufs l (s.x a).toNat 1 = .ok v)
include hxa hsheet hbad hbufs
theorem cdef_first_full (hnone : s.sheetE dd t = none) (hfull : (v.die dd).dir.length ≥ 4096) :
    EndsSt (.cdef m d a b c) s m 12 d fun u w => St w 3 c.toNat 0 ∧ u.mem = s.mem := by
  obtain ⟨w, -, hD⟩ := cdef_creates hready m hsub hrec hpage hc
  rw [cdefWith_defines (sh := ⟨dd, t, room, w⟩) (defLate_zero ..) hbad (if_pos rfl).symm (by rwa [hxa]),
    define_full (sh := ⟨dd, t, room, w⟩) (hsheet.trans hnone) hfull] at hD
  rw [hc]
  exact endsSt_told hD hmem
theorem cdef_first_new (hm : Memory.wf s.mem = true) (hlen : l.length = 64) (hroom : s.sheetE dd t ≠ none ∨ (v.die dd).dir.length < 4096) :
    EndsSt (.cdef m d a b c) s m 12 d fun u w => St w 0 0 0 ∧ u.FreshHeader t ∧ u.InputCell t 0 l ∧
      ∃ x, u.sheetE dd t = some x ∧ x.ctx = v.myCore.ctxid ∧ x.va = (s.x a).toNat := by
  obtain ⟨w, hdie, hD⟩ := cdef_creates hready m hsub hrec hpage hc
  have hcanon : Memory.wf v.mem = true := by rwa [hmem]
  have hroom' : v.sheetE dd t ≠ none ∨ (v.die dd).dir.length < 4096 := by rwa [hsheet]
  obtain ⟨u, hu, hheader, hcell, hentry⟩ := define_new (d := d) (sh := ⟨dd, t, room, w⟩) (ta := (s.x a).toNat) hroom' hdie hbad hlen hcanon
  rw [cdefWith_defines (sh := ⟨dd, t, room, w⟩) (defLate_zero ..) hbad (if_pos rfl).symm (by rwa [hxa]), hxa, hu] at hD
  exact endsSt_free hD fun w hw => ⟨hw, freshHeader_congr (s := u) (u := u.ticked) rfl t hheader, ⟨hcell.kind, hcell.nprec, hcell.record⟩, hentry⟩
end
section
variable (hat : SheetAt s a dd t room) (hc : c.toNat ≠ 0)
include hat hc
theorem cdef_absent (hset : s.setup t = true) (h : c.toNat > s.ncells t) : EndsSt (.cdef m d a b c) s m 12 d fun u w => St w 7 c.toNat 0 ∧ u.mem = s.mem := by
  obtain ⟨w, hD⟩ := cdef_reads hready m hsub hrec hat hc
  rw [← setup_congr hmem] at hset
  rw [← ncells_congr hmem] at h
  rw [cdefWith_late (sh := ⟨dd, t, room, w⟩) (defLate_absent hc hset h)] at hD
  exact endsSt_told hD hmem c.isLt
theorem cdef_late (hset : s.setup t = false) (h : c.toNat ≠ s.ncells t) : EndsSt (.cdef m d a b c) s m 12 d fun u w => St w 8 c.toNat 0 ∧ u.mem = s.mem := by
  obtain ⟨w, hD⟩ := cdef_reads hready m hsub hrec hat hc
  rw [← setup_congr hmem] at hset
  rw [← ncells_congr hmem] at h
  rw [cdefWith_late (sh := ⟨dd, t, room, w⟩) (defLate_running hc hset h)] at hD
  exact endsSt_told hD hmem c.isLt
variable (hset : s.setup t = true) (h : c.toNat ≤ s.ncells t)
include hset h
theorem cdef_bad (hbad : defBad l room c.toNat = true) : EndsSt (.cdef m d a b c) s m 12 d fun u w => St w 5 c.toNat 0 ∧ u.mem = s.mem := by
  obtain ⟨w, hD⟩ := cdef_reads hready m hsub hrec hat hc
  rw [← setup_congr hmem] at hset
  rw [← ncells_congr hmem] at h
  rw [cdefWith_bad (sh := ⟨dd, t, room, w⟩) (defLate_known hc hset h) hbad] at hD
  exact endsSt_told hD hmem c.isLt
variable (hxa : v.x a = s.x a) (hbad : defBad l room c.toNat = false) (hbufs : v.defBufs l (s.x a).toNat (max (s.ncells t) (c.toNat + 1)) = .ok v)
include hxa hbad hbufs
theorem cdef_known_defines : ∃ w, exec (.cdef m d a b c) s = .next ((v.define d ⟨dd, t, room, w⟩ (s.x a).toNat c.toNat l).finish m 12) := by
  obtain ⟨w, hD⟩ := cdef_reads hready m hsub hrec hat hc
  rw [← setup_congr hmem] at hset
  rw [← ncells_congr hmem] at h hbufs
  rw [cdefWith_defines (sh := ⟨dd, t, room, w⟩) (defLate_known hc hset h) hbad (if_neg hc).symm (by rwa [hxa]), hxa] at hD
  exact ⟨w, hD⟩
variable (hsheet : v.sheetE dd t = s.sheetE dd t) (hm : Memory.wf s.mem = true) (hlen : l.length = 64)
include hsheet hm hlen
theorem cdef_next (hnext : c.toNat = s.ncells t) : EndsSt (.cdef m d a b c) s m 12 d fun u w => St w 0 c.toNat 0 ∧ u.ncells t = c.toNat + 1 ∧ u.InputCell t c.toNat l := by
  obtain ⟨w, hD⟩ := cdef_known_defines hready m hsub hrec hmem hat hc hset h hxa hbad hbufs
  have hR := defBad_room hbad
  have hcells : v.ncells t = c.toNat := (ncells_congr hmem t).trans hnext.symm
  have hsmall : v.ncells t < 2 ^ 16 := hcells ▸ c.isLt
  have hfits : 0x1000 + 128 * (v.ncells t + 1) ≤ max room 0x1000 := by omega
  have hcanon : Memory.wf v.mem = true := by rwa [hmem]
  have hpos : v.ncells t ≠ 0 := by rwa [hcells]
  obtain ⟨u, hu, hcount, hcell⟩ := define_next (d := d) (sh := ⟨dd, t, room, w⟩) (ta := (s.x a).toNat) hpos
    ((homed_of_sheetAt hat).congr hsheet) hcanon hfits hlen hsmall
  rw [show State.ncells v (Sheet.mk dd t room w).t = c.toNat from hcells] at hu hcount hcell
  rw [hu] at hD
  exact endsSt_free hD fun w hw => ⟨hw, hcount, ⟨hcell.kind, hcell.nprec, hcell.record⟩⟩
theorem cdef_again (hlt : c.toNat < s.ncells t) (hR : 0x1000 + 128 * s.ncells t ≤ room) (hfew : ∀ j, j < s.ncells t → s.nprec t j ≤ 8) :
    EndsSt (.cdef m d a b c) s m 12 d fun u w => St w 0 c.toNat 0 ∧ u.ncells t = s.ncells t ∧ u.InputCell t c.toNat l := by
  obtain ⟨w, hD⟩ := cdef_known_defines hready m hsub hrec hmem hat hc hset h hxa hbad hbufs
  have hcells : v.ncells t = s.ncells t := ncells_congr hmem t
  have hcanon : Memory.wf v.mem = true := by rwa [hmem]
  have hlt' : c.toNat < v.ncells t := hlt.trans_eq hcells.symm
  have hfits : 0x1000 + 128 * v.ncells t ≤ max room 0x1000 := by omega
  have hfew' (j : Nat) (hj : j < v.ncells t) : v.nprec t j ≤ 8 := by
    rw [nprec_congr hmem]; exact hfew j (hcells ▸ hj)
  obtain ⟨u, hu, hcount, hcell⟩ := define_again (d := d) (sh := ⟨dd, t, room, w⟩) (ta := (s.x a).toNat) hc hlt'
    ((homed_of_sheetAt hat).congr hsheet) hcanon hfits hlen hfew'
  rw [hu] at hD
  exact endsSt_free hD fun w hw => ⟨hw, hcount.trans hcells, ⟨hcell.kind, hcell.nprec, hcell.record⟩⟩
end
end

/-! ### CBIND and CUNB -/

/-- How an edit ends: applied in setup, else busy, or staged for the generation it opens. -/
theorem edit_endsSt {i : Instr} {s v : State} {m : Bool} {d : BitVec 6} {sh : Sheet} {n : Nat} {l : List (BitVec 8)} {edited : List Nat}
    (hexec : exec i s = .next ((v.edit d sh n l edited).finish m 12)) (hmem : v.mem = s.mem) (hn : n < 65536) :
    (s.setup sh.t = true → EndsSt i s m 12 d fun u w => St w 0 n 0 ∧ u = (v.applyBind sh.t n l).ticked) ∧
    (s.setup sh.t = false → s.unfinished sh.t ≥ 4 ∨ s.freeEdit sh.t = none → EndsSt i s m 12 d fun u w => St w 3 n 0 ∧ u.mem = s.mem) ∧
    (∀ k, s.setup sh.t = false → s.unfinished sh.t < 4 → s.freeEdit sh.t = some k → EndsSt i s m 12 d fun u w => St w 0 n 0 ∧ gen w = gnext (s.opened sh.t) ∧
      u = ((v.seqStore sh.t (sh.t + 0x100 + 128 * k) l).seqN sh.t (sh.t + 0x100 + 128 * k + 0x40) 8 (gnext (s.opened sh.t) * 2 ^ 32 + 2 ^ 31 + n)).openGen
        sh.die sh.t edited none) := by
  rw [← setup_congr hmem, ← unfinished_congr hmem, ← freeEdit_congr hmem, ← opened_congr hmem]
  refine ⟨fun hset => ?_, fun hset hbusy => ?_, fun k hset hfew hslot => ?_⟩
  · rw [edit_setup hset] at hexec
    exact endsSt_free hexec fun w hw => ⟨hw, rfl⟩
  · rw [edit_busy hset hbusy] at hexec
    exact endsSt_told hexec hmem
  · rw [edit_stages hset hfew hslot] at hexec
    exact endsSt_gen hexec fun w hw hg => ⟨hw, hg.trans (Nat.mod_eq_of_lt (gnext_lt _)), rfl⟩
section
variable {s v : State} {named : List Nat} {a d b : BitVec 6} {dd t room : Nat} {c : BitVec 16} {l : List (BitVec 8)} (hready : Ready s named) (m : Bool)
  (hat : SheetAt s a dd t room) (hsub : ∀ n ∈ [rX a, rX b, rX d], n ∈ named) (hrec : (sheetS s a).cellRecord (.cbind m d a b c) b = .got v l)
  (hmem : v.mem = s.mem)
include hready hat hsub hrec hmem
theorem cbind_absent (h : c.toNat ≥ s.ncells t) : EndsSt (.cbind m d a b c) s m 12 d fun u w => St w 7 c.toNat 0 ∧ u.mem = s.mem := by
  obtain ⟨w, hB⟩ := cbind_reads hready m hat hsub hrec
  rw [← ncells_congr hmem] at h
  rw [bindWith_absent (sh := ⟨dd, t, room, w⟩) h] at hB
  exact endsSt_told hB hmem c.isLt
variable (h : c.toNat < s.ncells t)
include h
theorem cbind_bad (hbad : bindBad l (s.ncells t) = true) : EndsSt (.cbind m d a b c) s m 12 d fun u w => St w 5 c.toNat 0 ∧ u.mem = s.mem := by
  obtain ⟨w, hB⟩ := cbind_reads hready m hat hsub hrec
  rw [← ncells_congr hmem] at h hbad
  rw [bindWith_bad (sh := ⟨dd, t, room, w⟩) h hbad] at hB
  exact endsSt_told hB hmem c.isLt
variable (hbad : bindBad l (s.ncells t) = false)
include hbad
theorem cbind_cycle {p : List Nat} (hxa : v.x a = s.x a) (hpath : v.findPath t (s.opened t) (bindPrecs l) sheetFuel [[c.toNat]] [] = some p)
    (htakes : TakesTrap v v.turn v.fi) : exec (.cbind m d a b c) s = .next (trapState (v.faultRec t (s.opened t) c.toNat 8 0#64 (p.take 8))
      ⟨0x10, s.x a, BitVec.ofNat 64 c.toNat, BitVec.ofNat 64 (Nat.min 8 p.length)⟩ v.cur.pc) := by
  obtain ⟨w, hB⟩ := cbind_reads hready m hat hsub hrec
  rw [← ncells_congr hmem] at h hbad
  rw [← opened_congr hmem] at hpath ⊢
  rw [bindWith_cycle (sh := ⟨dd, t, room, w⟩) h hbad hpath, hxa] at hB
  exact faultRec_traps htakes (show 0x10 < 0x80 by decide) hB
variable (hpath : v.findPath t (s.opened t) (bindPrecs l) sheetFuel [[c.toNat]] [] = none)
include hpath
theorem cbind_rankBad (hrank : v.rankBad t (s.opened t) c.toNat (bindPrecs l) = true) :
    EndsSt (.cbind m d a b c) s m 12 d fun u w => St w 4 c.toNat 0 ∧ u.mem = s.mem := by
  obtain ⟨w, hB⟩ := cbind_reads hready m hat hsub hrec
  rw [← ncells_congr hmem] at h hbad
  rw [← opened_congr hmem] at hpath hrank
  rw [bindWith_none (sh := ⟨dd, t, room, w⟩) h hbad hpath, if_pos hrank] at hB
  exact endsSt_told hB hmem c.isLt
theorem cbind_edits (hrank : v.rankBad t (s.opened t) c.toNat (bindPrecs l) = false) : ∃ w,
    exec (.cbind m d a b c) s = .next ((v.edit d ⟨dd, t, room, w⟩ c.toNat l [c.toNat]).finish m 12) := by
  obtain ⟨w, hB⟩ := cbind_reads hready m hat hsub hrec
  rw [← ncells_congr hmem] at h hbad
  rw [← opened_congr hmem] at hpath hrank
  rw [bindWith_none (sh := ⟨dd, t, room, w⟩) h hbad hpath, hrank, if_neg Bool.false_ne_true] at hB
  exact ⟨w, hB⟩
end
section
variable {s : State} {named : List Nat} {a d : BitVec 6} {dd t room : Nat} {c : BitVec 16} (hready : Ready s named) (m : Bool) (hat : SheetAt s a dd t room)
  (hsub : ∀ n ∈ [rX a, rX d], n ∈ named)
include hready hat hsub
theorem cunb_absent (h : c.toNat ≥ s.ncells t) : EndsSt (.cunb m d a c) s m 12 d fun u w => St w 7 c.toNat 0 ∧ u.mem = s.mem := by
  obtain ⟨w, hU⟩ := cunb_ends hready m hat hsub
  rw [if_pos h] at hU
  exact endsSt_told hU rfl c.isLt
variable (h : c.toNat < s.ncells t)
include h
theorem cunb_unbound (hform : s.formulaAt t (s.opened t) c.toNat = false) : EndsSt (.cunb m d a c) s m 12 d fun u w => St w 6 c.toNat 0 ∧ u.mem = s.mem := by
  obtain ⟨w, hU⟩ := cunb_ends hready m hat hsub
  rw [if_neg (Nat.not_le.mpr h), hform, Bool.not_false, if_pos rfl] at hU
  exact endsSt_told hU rfl c.isLt
theorem cunb_edits (hform : s.formulaAt t (s.opened t) c.toNat = true) : ∃ w,
    exec (.cunb m d a c) s = .next (((sheetS s a).edit d ⟨dd, t, room, w⟩ c.toNat (List.replicate 64 0#8) []).finish m 12) := by
  obtain ⟨w, hU⟩ := cunb_ends hready m hat hsub
  rw [if_neg (Nat.not_le.mpr h), hform, Bool.not_true, if_neg Bool.false_ne_true] at hU
  exact ⟨w, hU⟩
end
end Sys2Proof.Machine
end

section
/-! CDEF, CBIND and CUNB settled from how they end. -/
open Sys2Proof Sys2Proof.Machine Sys2Proof.Spec
namespace Sys2Proof.Proofs
/-- Settles O42: CDEF of cell 0 leaves that cell behind a new header; of a later cell, the cell's descriptor as defined, with chains and ranks written again behind it
where the cell was there before; CBIND and CUNB end as one edit does. -/
theorem sheetDefinition : Obligations.SheetDefinition := by
  intro s v m d a b c l dd t room hready hmem hxa hsheet hctx hlen n D B U told zeros h slot staged record
  have habd : ∀ n ∈ [rX a, rX b, rX d], n ∈ [a.toNat, b.toNat, d.toNat] := by simp [rX]
  have had : ∀ n ∈ [rX a, rX d], n ∈ [a.toNat, b.toNat, d.toNat] := by simp [rX]
  refine ⟨fun hpage hrec hzero => ⟨fun hbad => ?_, fun hbad hbufs hm => ⟨fun hnone hfull => ?_, fun hroom => ?_⟩⟩,
    fun hat => ⟨fun hrec hne => ?_, fun hrec => ?_, ?_⟩⟩
  · exact cdef_first_bad hready m habd hrec hmem hpage hzero hbad
  · exact cdef_first_full hready m habd hrec hmem hpage hzero hxa hsheet hbad hbufs hnone hfull
  · obtain ⟨u, w, ⟨hw, hheader, hcell, x, hx, hxctx, hva⟩, hexec⟩ := cdef_first_new hready m habd hrec hmem hpage hzero hxa hsheet hbad hbufs hm hlen hroom
    have hcell' : u.InputCell t n l := by rwa [hzero]
    exact ⟨u, w, ⟨hw, hcell'.record, hheader.ncells, hheader.setup, hheader.opened, hheader.done, hcell.kind, hheader.pinlim, x, hx, hxctx.trans hctx, hva⟩, hexec⟩
  · refine ⟨cdef_absent hready m habd hrec hmem hat hne, cdef_late hready m habd hrec hmem hat hne, cdef_bad hready m habd hrec hmem hat hne,
      fun hset hle hbad hbufs hm => ⟨fun hnext => ?_, fun hlt hR hfew => ?_⟩⟩
    · obtain ⟨u, w, ⟨hw, hcount, hcell⟩, hexec⟩ := cdef_next hready m habd hrec hmem hat hne hset hle hxa hbad hbufs hsheet hm hlen hnext
      exact ⟨u, w, ⟨hw, hcount, hcell.kind, hcell.record⟩, hexec⟩
    · obtain ⟨u, w, ⟨hw, hcount, hcell⟩, hexec⟩ := cdef_again hready m habd hrec hmem hat hne hset hle hxa hbad hbufs hsheet hm hlen hlt hR hfew
      exact ⟨u, w, ⟨hw, hcount, hcell.kind, hcell.nprec, hcell.record⟩, hexec⟩
  · refine ⟨cbind_absent hready m hat habd hrec hmem, cbind_bad hready m hat habd hrec hmem, fun hlt hbad =>
      ⟨fun p hpath htakes => ?_, fun hpath hrank => ?_, fun hpath hrank => ?_⟩⟩
    · exact cbind_cycle hready m hat habd hrec hmem hlt hbad hxa hpath htakes
    · exact cbind_rankBad hready m hat habd hrec hmem hlt hbad hpath hrank
    · obtain ⟨w, hexec⟩ := cbind_edits hready m hat habd hrec hmem hlt hbad hpath hrank
      exact edit_endsSt (sh := ⟨dd, t, room, w⟩) hexec hmem c.isLt
  · refine ⟨cunb_absent hready m hat had, cunb_unbound hready m hat had, fun hlt hform => ?_⟩
    obtain ⟨w, hexec⟩ := cunb_edits hready m hat had hlt hform
    exact edit_endsSt (sh := ⟨dd, t, room, w⟩) hexec rfl c.isLt
end Sys2Proof.Proofs
end

section
/-! Memory keeps its canonical form in every step: the arms of `exec`, the acts the units take in turn, and the step (log 1, 3).
(From here on declarations are elaborated one after another: elaborated side by side, the text as a whole needs more memory than a check has.) -/
set_option Elab.async false
open Sys2Proof
namespace Sys2Proof.Machine

/-- Each arm of `exec` keeps the canonical form: its own lemma. -/
theorem exec_wf (i : Instr) (s : State) (hs : s.Has Canon) : OutHas Canon (exec i s) :=
  match i with
  | .nop m => execNop_wf m s hs
  | .align m n => execAlign_wf m n s hs
  | .endFiring m => execEndFiring_wf m s hs
  | .yield m => execYield_wf m s hs
  | .add m d a b => execAdd_wf m d a b s hs
  | .sub m d a b => execSub_wf m d a b s hs
  | .mul m d a b => execMul_wf m d a b s hs
  | .mulh m d a b => execMulh_wf m d a b s hs
  | .mulhn m d a b => execMulhn_wf m d a b s hs
  | .div m d a b => execDiv_wf m d a b s hs
  | .divn m d a b => execDivn_wf m d a b s hs
  | .rem m d a b => execRem_wf m d a b s hs
  | .remn m d a b => execRemn_wf m d a b s hs
  | .min m d a b => execMin_wf m d a b s hs
  | .max m d a b => execMax_wf m d a b s hs
  | .minn m d a b => execMinn_wf m d a b s hs
  | .maxn m d a b => execMaxn_wf m d a b s hs
  | .slt m d a b => execSlt_wf m d a b s hs
  | .sltn m d a b => execSltn_wf m d a b s hs
  | .and m d a b => execAnd_wf m d a b s hs
  | .or m d a b => execOr_wf m d a b s hs
  | .xor m d a b => execXor_wf m d a b s hs
  | .andn m d a b => execAndn_wf m d a b s hs
  | .orn m d a b => execOrn_wf m d a b s hs
  | .sll m d a b => execSll_wf m d a b s hs
  | .srl m d a b => execSrl_wf m d a b s hs
  | .sra m d a b => execSra_wf m d a b s hs
  | .rol m d a b => execRol_wf m d a b s hs
  | .ror m d a b => execRor_wf m d a b s hs
  | .clz m w d a => execClz_wf m w d a s hs
  | .ffs m w d a => execFfs_wf m w d a s hs
  | .popc m w d a => execPopc_wf m w d a s hs
  | .brev m w d a => execBrev_wf m w d a s hs
  | .addi m d a imm => execAddi_wf m d a imm s hs
  | .addiLit m d a lit => execAddiLit_wf m d a lit s hs
  | .andi m d a imm => execAndi_wf m d a imm s hs
  | .andiLit m d a lit => execAndiLit_wf m d a lit s hs
  | .ori m d a imm => execOri_wf m d a imm s hs
  | .oriLit m d a lit => execOriLit_wf m d a lit s hs
  | .xori m d a imm => execXori_wf m d a imm s hs
  | .xoriLit m d a lit => execXoriLit_wf m d a lit s hs
  | .slti m d a imm => execSlti_wf m d a imm s hs
  | .sltiLit m d a lit => execSltiLit_wf m d a lit s hs
  | .slli m d a amt => execSlli_wf m d a amt s hs
  | .srli m d a amt => execSrli_wf m d a amt s hs
  | .srai m d a amt => execSrai_wf m d a amt s hs
  | .limm m d imm => execLimm_wf m d imm s hs
  | .limmLit m d lit => execLimmLit_wf m d lit s hs
  | .adpc m d imm => execAdpc_wf m d imm s hs
  | .bfx m d a sx len pos => execBfx_wf m d a sx len pos s hs
  | .bfi m d a len pos => execBfi_wf m d a len pos s hs
  | .sextB m d a => execSextB_wf m d a s hs
  | .sextH m d a => execSextH_wf m d a s hs
  | .sextW m d a => execSextW_wf m d a s hs
  | .zextB m d a => execZextB_wf m d a s hs
  | .zextH m d a => execZextH_wf m d a s hs
  | .zextW m d a => execZextW_wf m d a s hs
  | .br m off => execBr_wf m off s hs
  | .beqz m a off => execBeqz_wf m a off s hs
  | .bnez m a off => execBnez_wf m a off s hs
  | .bltz m a off => execBltz_wf m a off s hs
  | .bgez m a off => execBgez_wf m a off s hs
  | .bgtz m a off => execBgtz_wf m a off s hs
  | .blez m a off => execBlez_wf m a off s hs
  | .bpany m p off => execBpany_wf m p off s hs
  | .bpnone m p off => execBpnone_wf m p off s hs
  | .bcmp m cond a b off => execBcmp_wf m cond a b off s hs
  | .call m off => execCall_wf m off s hs
  | .jr m a => execJr_wf m a s hs
  | .ret m => execRet_wf m s hs
  | .callr m a => execCallr_wf m a s hs
  | .jtab m a b len => execJtab_wf m a b len s hs
  | .trap m a => execTrap_wf m a s hs
  | .eret m => execEret_wf m s hs
  | .csrr m d csr => execCsrr_wf m d csr s hs
  | .csrw m a csr => execCsrw_wf m a csr s hs
  | .csrx m d a csr => execCsrx_wf m d a csr s hs
  | .ld m t a size ord off => execLd_wf m t a size ord off s hs
  | .ldLit m t a size ord lit => execLdLit_wf m t a size ord lit s hs
  | .ldz m t a size ord off => execLdz_wf m t a size ord off s hs
  | .ldzLit m t a size ord lit => execLdzLit_wf m t a size ord lit s hs
  | .st m t a size ord off => execSt_wf m t a size ord off s hs
  | .stLit m t a size ord lit => execStLit_wf m t a size ord lit s hs
  | .pref m a size off => execPref_wf m a size off s hs
  | .prefLit m a size lit => execPrefLit_wf m a size lit s hs
  | .amoadd m d a b size scope ord off => execAmoadd_wf m d a b size scope ord off s hs
  | .amoand m d a b size scope ord off => execAmoand_wf m d a b size scope ord off s hs
  | .amoor m d a b size scope ord off => execAmoor_wf m d a b size scope ord off s hs
  | .amoxor m d a b size scope ord off => execAmoxor_wf m d a b size scope ord off s hs
  | .amomin m d a b size scope ord off => execAmomin_wf m d a b size scope ord off s hs
  | .amomax m d a b size scope ord off => execAmomax_wf m d a b size scope ord off s hs
  | .amominn m d a b size scope ord off => execAmominn_wf m d a b size scope ord off s hs
  | .amomaxn m d a b size scope ord off => execAmomaxn_wf m d a b size scope ord off s hs
  | .amoswp m d a b size scope ord off => execAmoswp_wf m d a b size scope ord off s hs
  | .amocas m d a b c size scope ord off => execAmocas_wf m d a b c size scope ord off s hs
  | .amofadd m d a b ft size scope ord off => execAmofadd_wf m d a b ft size scope ord off s hs
  | .fence m kind scope => execFence_wf m kind scope s hs
  | .waita m d a b e c cond size scope ord imm => execWaita_wf m d a b e c cond size scope ord imm s hs
  | .waitaLit m d a b e c cond size scope ord lit => execWaitaLit_wf m d a b e c cond size scope ord lit s hs
  | .bar m d => execBar_wf m d s hs
  | .bararv m d => execBararv_wf m d s hs
  | .barwt m d a b => execBarwt_wf m d a b s hs
  | .vld m d a p fmt off => execVld_wf m d a p fmt off s hs
  | .vst m d a p off => execVst_wf m d a p off s hs
  | .vadd m d a b p => execVadd_wf m d a b p s hs
  | .vsub m d a b p => execVsub_wf m d a b p s hs
  | .vmul m d a b p => execVmul_wf m d a b p s hs
  | .vmax m d a b p => execVmax_wf m d a b p s hs
  | .vmin m d a b p => execVmin_wf m d a b p s hs
  | .vabs m d a p => execVabs_wf m d a p s hs
  | .vneg m d a p => execVneg_wf m d a p s hs
  | .vfma m d a b p => execVfma_wf m d a b p s hs
  | .vfms m d a b p => execVfms_wf m d a b p s hs
  | .viadd m d a b p => execViadd_wf m d a b p s hs
  | .visub m d a b p => execVisub_wf m d a b p s hs
  | .vimul m d a b p => execVimul_wf m d a b p s hs
  | .vand m d a b p => execVand_wf m d a b p s hs
  | .vor m d a b p => execVor_wf m d a b p s hs
  | .vxor m d a b p => execVxor_wf m d a b p s hs
  | .vshl m d a b p => execVshl_wf m d a b p s hs
  | .vshr m d a b p => execVshr_wf m d a b p s hs
  | .vcmp m cond d a b p => execVcmp_wf m cond d a b p s hs
  | .vsel m d a b p => execVsel_wf m d a b p s hs
  | .vcvt m d a b p part mode fmt => execVcvt_wf m d a b p part mode fmt s hs
  | .vqnt m d a b e part mode fmt => execVqnt_wf m d a b e part mode fmt s hs
  | .vdqnt m d a b e p part mode fmt => execVdqnt_wf m d a b e p part mode fmt s hs
  | .vexp2 m d a p => execVexp2_wf m d a p s hs
  | .vlog2 m d a p => execVlog2_wf m d a p s hs
  | .vrcp m d a p => execVrcp_wf m d a p s hs
  | .vrsq m d a p => execVrsq_wf m d a p s hs
  | .vtanh m d a p => execVtanh_wf m d a p s hs
  | .vred m d a p op => execVred_wf m d a p op s hs
  | .vsmxStep m d a e p => execVsmxStep_wf m d a e p s hs
  | .vsmxMerge m d a e => execVsmxMerge_wf m d a e s hs
  | .vsmxFinal m d e => execVsmxFinal_wf m d e s hs
  | .vsmxInit m e => execVsmxInit_wf m e s hs
  | .vrand m d a p => execVrand_wf m d a p s hs
  | .vdrop m d a b e p scale => execVdrop_wf m d a b e p scale s hs
  | .vperm m d a b p => execVperm_wf m d a b p s hs
  | .vbcast m d a p fmt => execVbcast_wf m d a p fmt s hs
  | .vbcastLit m d p fmt lit => execVbcastLit_wf m d p fmt lit s hs
  | .vmovx m d a n => execVmovx_wf m d a n s hs
  | .vmovv m d a n => execVmovv_wf m d a n s hs
  | .fmtget m d a acc => execFmtget_wf m d a acc s hs
  | .fmtset m d acc fmt => execFmtset_wf m d acc fmt s hs
  | .vloop m a cnt => execVloop_wf m a cnt s hs
  | .vstrm m d a off => execVstrm_wf m d a off s hs
  | .vstop m d a => execVstop_wf m d a s hs
  | .vclz m w d a p => execVclz_wf m w d a p s hs
  | .vffs m w d a p => execVffs_wf m w d a p s hs
  | .vpopc m w d a p => execVpopc_wf m w d a p s hs
  | .mxmul m a b e c => execMxmul_wf m a b e c s hs
  | .mxspm m a b e c => execMxspm_wf m a b e c s hs
  | .mxdrn m a b c => execMxdrn_wf m a b c s hs
  | .mxclr m d i32 => execMxclr_wf m d i32 s hs
  | .mxwait m d => execMxwait_wf m d s hs
  | .mxstat m d => execMxstat_wf m d s hs
  | .mxrem m d a b e c => execMxrem_wf m d a b e c s hs
  | .cpy m a b e c => execCpy_wf m a b e c s hs
  | .cpyg m a b e c => execCpyg_wf m a b e c s hs
  | .cpys m a b e c => execCpys_wf m a b e c s hs
  | .cpyr m a b e c => execCpyr_wf m a b e c s hs
  | .cpywait m d => execCpywait_wf m d s hs
  | .cpystat m d => execCpystat_wf m d s hs
  | .bufdcl m a b n => execBufdcl_wf m a b n s hs
  | .bufset m n bs => execBufset_wf m n bs s hs
  | .bufqry m d n => execBufqry_wf m d n s hs
  | .send m d a b rlx tr rply rtag tag len => execSend_wf m d a b rlx tr rply rtag tag len s hs
  | .sendReplay m d b c => execSendReplay_wf m d b c s hs
  | .sendr m d b rlx len => execSendr_wf m d b rlx len s hs
  | .msgld m d a => execMsgld_wf m d a s hs
  | .msgfree m => execMsgfree_wf m s hs
  | .tagen m d a => execTagen_wf m d a s hs
  | .tagdis m d a => execTagdis_wf m d a s hs
  | .hold m d a => execHold_wf m d a s hs
  | .release m d a => execRelease_wf m d a s hs
  | .setpri m d a b => execSetpri_wf m d a b s hs
  | .spawn m d a b => execSpawn_wf m d a b s hs
  | .fork m d a => execFork_wf m d a s hs
  | .join m d a b => execJoin_wf m d a b s hs
  | .qpush m d a b c => execQpush_wf m d a b c s hs
  | .qpop m d a b c => execQpop_wf m d a b c s hs
  | .qstat m d a => execQstat_wf m d a s hs
  | .actdef m d a b c prod cons noout tag => execActdef_wf m d a b c prod cons noout tag s hs
  | .cdef m d a b n => execCdef_wf m d a b n s hs
  | .cbind m d a b n => execCbind_wf m d a b n s hs
  | .cunb m d a n => execCunb_wf m d a n s hs
  | .cld m d a b e c n => execCld_wf m d a b e c n s hs
  | .cst m d a b c n => execCst_wf m d a b c n s hs
  | .csnap m d a e => execCsnap_wf m d a e s hs
  | .cunsnap m a b => execCunsnap_wf m a b s hs
  | .cgenStart m d a => execCgenStart_wf m d a s hs
  | .cgenHold m d a b => execCgenHold_wf m d a b s hs
  | .cgenRelease m d a => execCgenRelease_wf m d a s hs
  | .cgenPinlim m d a b => execCgenPinlim_wf m d a b s hs
  | .cgenWaitgen m d a b c => execCgenWaitgen_wf m d a b c s hs
  | .cstat m d a n sel => execCstat_wf m d a n sel s hs
  | .cprec m d a => execCprec_wf m d a s hs
  | .ccommit m d a => execCcommit_wf m d a s hs
  | .kappend m d a b c => execKappend_wf m d a b c s hs
  | .klook m d a b e fwd => execKlook_wf m d a b e fwd s hs
  | .kqry m d a b e c rtag nb => execKqry_wf m d a b e c rtag nb s hs
  | .krehome m d a b c => execKrehome_wf m d a b c s hs
  | .flpop m d a => execFlpop_wf m d a s hs
  | .flpush m d a b => execFlpush_wf m d a b s hs
  | .lncfg m d a b => execLncfg_wf m d a b s hs
  | .lnrank m d a b => execLnrank_wf m d a b s hs
  | .lncommit m d a => execLncommit_wf m d a s hs
  | .lnstat m d a => execLnstat_wf m d a s hs
  | .flowOpen m d a b => execFlowOpen_wf m d a b s hs
  | .flowClose m d a => execFlowClose_wf m d a s hs
  | .flowQry m d a => execFlowQry_wf m d a s hs
  | .cgform m d a b c => execCgform_wf m d a b c s hs
  | .cgsig m d a b => execCgsig_wf m d a b s hs
  | .cgwait m d a b e c => execCgwait_wf m d a b e c s hs
  | .cgstat m d a => execCgstat_wf m d a s hs
  | .tlbw m d a b e c => execTlbw_wf m d a b e c s hs
  | .tlbinv m d a b c => execTlbinv_wf m d a b c s hs
  | .tlbprb m d a e c => execTlbprb_wf m d a e c s hs
  | .capset m d a => execCapset_wf m d a s hs
  | .ctxq m d a => execCtxq_wf m d a s hs
  | .slogq m d a => execSlogq_wf m d a s hs
  | .undefinedEncoding w0 w1 chk => execUndefinedEncoding_wf w0 w1 chk s hs
  | .varResultReturn k f => execVarResultReturn_wf k f s hs
  | .selectorDecision k => execSelectorDecision_wf k s hs
  | .quantumExpiry k => execQuantumExpiry_wf k s hs
  | .alignWaitExpiry k f => execAlignWaitExpiry_wf k f s hs
  | .requestArrival k n => execRequestArrival_wf k n s hs
  | .requestRetry k n => execRequestRetry_wf k n s hs
  | .replyArrival n => execReplyArrival_wf n s hs
  | .autoReplySend k => execAutoReplySend_wf k s hs
  | .spawnArrival k f => execSpawnArrival_wf k f s hs
  | .spawnAnswer k f => execSpawnAnswer_wf k f s hs
  | .mxremArrival k n => execMxremArrival_wf k n s hs
  | .matrixCmdStart k => execMatrixCmdStart_wf k s hs
  | .matrixCmdComplete k => execMatrixCmdComplete_wf k s hs
  | .copyCmdComplete k n => execCopyCmdComplete_wf k n s hs
  | .mword k j v => execMword_wf k j v s hs
  | .mgo k v => execMgo_wf k v s hs
  | .cword k j v => execCword_wf k j v s hs
  | .cgo k v => execCgo_wf k v s hs
  | .heldGoAccept k cp => execHeldGoAccept_wf k cp s hs
  | .walkRequest die n => execWalkRequest_wf die n s hs
  | .walkTimeout die n => execWalkTimeout_wf die n s hs
  | .cellDispatch die i_ n => execCellDispatch_wf die i_ n s hs
  | .pinExpiry die i_ slot => execPinExpiry_wf die i_ slot s hs
  | .poisonOpening die i_ n => execPoisonOpening_wf die i_ n s hs
  | .cellReadWake k f => execCellReadWake_wf k f s hs
  | .waitRecheck k f => execWaitRecheck_wf k f s hs
  | .waitLimitExpiry k f => execWaitLimitExpiry_wf k f s hs
  | .governorSample die => execGovernorSample_wf die s hs
  | .queueRefill q => execQueueRefill_wf q s hs
  | .stageQueueDescWrite q off v => execStageQueueDescWrite_wf q off v s hs
  | .krehomeTarget k f => execKrehomeTarget_wf k f s hs
  | .krehomeAnswer k f => execKrehomeAnswer_wf k f s hs
  | .rdupPropagate n die => execRdupPropagate_wf n die s hs
  | .rdupInvalidateAck n die => execRdupInvalidateAck_wf n die s hs
  | .fabricStoreArrival src epoch num pa bytes => execFabricStoreArrival_wf src epoch num pa bytes s hs
  | .fabricReleaseApply src epoch num count marks pa bytes => execFabricReleaseApply_wf src epoch num count marks pa bytes s hs
  | .flowPacketArrival src flow seq ordered grp pa bytes => execFlowPacketArrival_wf src flow seq ordered grp pa bytes s hs
  | .linkFlitReceive die port num crcOk => execLinkFlitReceive_wf die port num crcOk s hs
  | .linkAckReceive die port num report => execLinkAckReceive_wf die port num report s hs
  | .laneLockLoss die port => execLaneLockLoss_wf die port s hs
  | .portRetrainDone die port lanes => execPortRetrainDone_wf die port lanes s hs
  | .retrain die mask => execRetrain_wf die mask s hs
  | .remoteLimitExpiry n => execRemoteLimitExpiry_wf n s hs
  | .groupJoinArrival g core pkgNo ctx record prop => execGroupJoinArrival_wf g core pkgNo ctx record prop s hs
  | .groupCommitArrival g inc => execGroupCommitArrival_wf g inc s hs
  | .groupAbortMsg g inc reason => execGroupAbortMsg_wf g inc reason s hs
  | .cgwaitLimit k f => execCgwaitLimit_wf k f s hs
  | .cgformLimit k f => execCgformLimit_wf k f s hs
  | .cgansCommit g => execCgansCommit_wf g s hs
  | .cgansRefuse g => execCgansRefuse_wf g s hs
  | .doorbell die q v => execDoorbell_wf die q v s hs
  | .queuePacketRead die q => execQueuePacketRead_wf die q s hs
  | .launchRelease n => execLaunchRelease_wf n s hs
  | .contextResume k ctx => execContextResume_wf k ctx s hs
  | .launchComplete n => execLaunchComplete_wf n s hs
  | .launchLimitExpiry n => execLaunchLimitExpiry_wf n s hs
  | .hostLinkAccess fn wr pa size v => execHostLinkAccess_wf fn wr pa size v s hs
  | .ctxctlClear master slot => execCtxctlClear_wf master slot s hs
  | .ctxctlRetire master slot => execCtxctlRetire_wf master slot s hs
  | .unfreeze master who => execUnfreeze_wf master who s hs
  | .wfgo die => execWfgo_wf die s hs
  | .walkImageLoadDone die => execWalkImageLoadDone_wf die s hs
  | .twgo die => execTwgo_wf die s hs
  | .userQueueDescWrite die q off v => execUserQueueDescWrite_wf die q off v s hs
  | .freeListRegWrite die off v => execFreeListRegWrite_wf die off v s hs
  | .schedout die core => execSchedout_wf die core s hs
  | .freefFrame die core f => execFreefFrame_wf die core f s hs
  | .freefBivouac die core => execFreefBivouac_wf die core s hs
  | .registerWrite master pa v => execRegisterWrite_wf master pa v s hs
  | .frontEndError die => execFrontEndError_wf die s hs
  | .correctedError die unit addr => execCorrectedError_wf die unit addr s hs
  | .uncorrectableError die unit addr => execUncorrectableError_wf die unit addr s hs
  | .patrolScrub die addr => execPatrolScrub_wf die addr s hs
  | .stbyPowerUp => execStbyPowerUp_wf s hs
  | .stbyPowerDown => execStbyPowerDown_wf s
  | .mainPowerUp digests svn ok => execMainPowerUp_wf digests svn ok s hs
  | .mainPowerDown => execMainPowerDown_wf s
  | .firmwareUpdate digests svn ok => execFirmwareUpdate_wf digests svn ok s hs
  | .perstLink0 => execPerstLink0_wf s hs
  | .perstLink1 => execPerstLink1_wf s hs
  | .reset v => execReset_wf v s hs
  | .pwrlim v => execPwrlim_wf v s hs
  | .trip v => execTrip_wf v s hs
  | .powerWindow avg => execPowerWindow_wf avg s hs
  | .thermalThrottle die temp => execThermalThrottle_wf die temp s hs
  | .thermalTrip die temp => execThermalTrip_wf die temp s hs
  | .mgmtRead off => execMgmtRead_wf off s hs
  | .spdmMeasurement die => execSpdmMeasurement_wf die s hs
  | .programTrafficAck dst count sw => execProgramTrafficAck_wf dst count sw s hs
  | .remoteAccessArrival src op pa size v tag => execRemoteAccessArrival_wf src op pa size v tag s hs
  | .errorTriageWord die => execErrorTriageWord_wf die s hs
  | .thermalThrottleEnd die temp => execThermalThrottleEnd_wf die temp s hs

/-- An act leaves the canonical form where it found it. -/
def KeepsCanon (g : State → Out) : Prop := ∀ s : State, s.Has Canon → OutHas Canon (g s)

theorem keepsCanon_exec (i : Instr) : KeepsCanon (exec i) := exec_wf i
theorem coreActs_keep (s : State) (k : Nat) : ∀ g ∈ coreActs s k, KeepsCanon g := by
  intro g hg
  simp only [coreActs, List.mem_append, List.mem_map, List.mem_flatMap, List.mem_ite_nil_right, List.mem_ite_nil_left, List.mem_cons, List.not_mem_nil, or_false] at hg
  rcases hg with ((((((⟨f, -, rfl⟩ | ⟨-, rfl⟩) | rfl | rfl) | ⟨n, -, rfl⟩) | rfl | rfl | rfl) | ⟨n, -, rfl | rfl | rfl⟩) | ⟨f, -, -, rfl | rfl | rfl | rfl⟩) | ⟨-, rfl⟩
  · exact keepsCanon_exec (.varResultReturn k f)
  · exact keepsCanon_exec (.selectorDecision k)
  · exact keepsCanon_exec (.matrixCmdComplete k)
  · exact keepsCanon_exec (.matrixCmdStart k)
  · exact keepsCanon_exec (.copyCmdComplete k n)
  · exact keepsCanon_exec (.heldGoAccept k false)
  · exact keepsCanon_exec (.heldGoAccept k true)
  · exact keepsCanon_exec (.autoReplySend k)
  · exact keepsCanon_exec (.requestArrival k n)
  · exact keepsCanon_exec (.mxremArrival k n)
  · exact keepsCanon_exec (.requestRetry k n)
  · exact keepsCanon_exec (.spawnArrival k f)
  · exact keepsCanon_exec (.spawnAnswer k f)
  · exact keepsCanon_exec (.krehomeTarget k f)
  · exact keepsCanon_exec (.krehomeAnswer k f)
  · exact keepsCanon_exec (.schedout (k / 768) (k % 768))
theorem dieActs_keep (s : State) (d : Nat) : ∀ g ∈ dieActs s d, KeepsCanon g := by
  intro g hg
  simp only [dieActs, List.mem_append, List.mem_map, List.mem_flatMap, List.mem_ite_nil_right, List.mem_cons, List.not_mem_nil, or_false] at hg
  rcases hg with (((⟨n, -, rfl⟩ | ⟨e, -, hcell | ⟨n, -, rfl⟩⟩) | ⟨n, -, rfl | rfl⟩) | ⟨q, -, rfl⟩) | ⟨-, rfl⟩
  · exact keepsCanon_exec (.walkRequest d n)
  · split at hcell
    · next n _ =>
      obtain rfl := List.mem_singleton.mp hcell
      exact keepsCanon_exec (.cellDispatch d e.2 n)
    · exact absurd hcell List.not_mem_nil
  · exact keepsCanon_exec (.poisonOpening d e.2 n)
  · exact keepsCanon_exec (.requestArrival (4896 + d) n)
  · exact keepsCanon_exec (.requestRetry (4896 + d) n)
  · exact keepsCanon_exec (.queuePacketRead d q)
  · exact keepsCanon_exec (.walkImageLoadDone d)
theorem packageActs_keep (s : State) : ∀ g ∈ packageActs s, KeepsCanon g := by
  intro g hg
  simp only [packageActs, List.mem_append, List.mem_map, List.mem_flatMap, List.mem_ite_nil_right, List.mem_cons, List.not_mem_nil, or_false] at hg
  rcases hg with ((((⟨n, -, rfl⟩ | ⟨n, -, d, -, rfl | rfl⟩) | ⟨-, t, -, q, -, rfl⟩) | ⟨c, -, q, -, rfl⟩) | ⟨n, -, rfl | rfl⟩) | ⟨q, -, rfl⟩
  · exact keepsCanon_exec (.replyArrival n)
  · exact keepsCanon_exec (.rdupPropagate n d)
  · exact keepsCanon_exec (.rdupInvalidateAck n d)
  · exact keepsCanon_exec (.programTrafficAck t (BitVec.ofNat 32 q.num) false)
  · exact keepsCanon_exec (.queueRefill (16 * c + q))
  · exact keepsCanon_exec (.launchComplete n)
  · exact keepsCanon_exec (.launchRelease n)
  · exact keepsCanon_exec (.contextResume (q % 8192) (BitVec.ofNat 16 (q / 8192)))

/-- The first act that changes the state keeps what every act keeps; the number of the next act is no memory. -/
theorem firstChange_wf {s : State} (hs : s.Has Canon) {l : List ((State → Out) × Nat)} (hl : ∀ e ∈ l, KeepsCanon e.1) {o : Out}
    (ho : firstChange s l = some o) : OutHas Canon o := by
  induction l with
  | nil => cases ho
  | cons e r ih =>
    obtain ⟨g, n⟩ := e
    have hg : OutHas Canon (g s) := hl (g, n) List.mem_cons_self s hs
    simp only [firstChange] at ho
    split at ho
    · next t ht =>
      split at ho
      · exact ih (fun e he => hl e (List.mem_cons_of_mem _ he)) ho
      · cases ho
        exact .has_next (Has.upd (OutHas.next_has ht hg) rfl)
    · cases ho
      exact hg
theorem autoAct_wf (still : State → Nat → Nat → Bool) {s : State} (hs : s.Has Canon) {o : Out} (ho : autoAct still s = some o) : OutHas Canon o := by
  refine firstChange_wf hs (fun e he => ?_) ho
  have hact := List.fst_mem_of_mem_zipIdx (List.mem_append.mp he |>.elim List.mem_of_mem_drop List.mem_of_mem_take)
  simp only [List.mem_append, List.mem_flatMap, List.mem_singleton] at hact
  rcases hact with ((⟨k, -, hk⟩ | ⟨d, -, hd⟩) | hp) | he
  · exact coreActs_keep s k e.1 hk
  · exact dieActs_keep s d e.1 hd
  · exact packageActs_keep s e.1 hp
  · rw [he]
    exact fun u hu => unitAct_wf _ u hu (State.recheckAll_wf still)

theorem runTurn_wf {s : State} (hs : s.Has Canon) : OutHas Canon (runTurn s) := by
  unfold runTurn
  split
  · exact exec_wf _ _ (Has.upd hs (State.fetched_mem s _))
  · exact .has_next (State.fetchFail_wf s _ _ hs)
theorem handOn_wf {o : Out} (ho : OutHas Canon o) : OutHas Canon (handOn o) := by
  cases ho with
  | has_next h => exact .has_next (Has.upd h rfl)
  | has_fault => exact .has_fault
  | has_refused => exact .has_refused
theorem autoStep_wf {s : State} (hs : s.Has Canon) : OutHas Canon (autoStep s) := by
  unfold autoStep
  split
  · next o ho =>
    split at ho
    · exact autoAct_wf stillWaits (s := { s with unitTurn := false }) (Has.upd hs rfl) ho
    · cases ho
  · split
    · exact handOn_wf (runTurn_wf hs)
    · split
      · exact handOn_wf (runTurn_wf (Has.upd hs rfl))
      · exact .has_next hs
theorem step_wf {s : State} (hs : s.Has Canon) : OutHas Canon (step s) := by
  unfold step
  split
  · exact autoStep_wf hs
  · exact exec_wf _ _ (Has.upd hs rfl)
  · split
    · dsimp only
      split
      · exact runTurn_wf (Has.upd hs rfl)
      · exact .has_next (Has.upd hs rfl)
    · exact .has_fault
end Sys2Proof.Machine
end

section
/-! The statement on memory's canonical form. -/
set_option Elab.async false
open Sys2Proof Sys2Proof.Machine
namespace Sys2Proof.Proofs
/-- Settles O60: every arm of `exec` and every act that the units take in turn keeps the canonical form, and a step is one of them. -/
theorem stepKeepsMemory : Obligations.StepKeepsMemory :=
  fun _ _ hs hstep => ((step_wf ⟨hs⟩).next_has hstep).of
end Sys2Proof.Proofs
end

section
/-! Every instruction and act has a next state. -/
set_option Elab.async false
open Sys2Proof Sys2Proof.Machine
namespace Sys2Proof.Machine
theorem branch_next (i : Instr) (m : Bool) (a : BitVec 6) (off : BitVec 13) (t : Word → Bool) (s : State) : ∃ u, branch i m a off t s = .next u :=
  issue_next ..
/-- An instruction answers through `issue`, which always has a next state; a unit's act, a board's act and a master's write are next states. -/
theorem exec_next (i : Instr) (s : State) : ∃ t, exec i s = .next t := by
  unfold exec
  cases i with
  | br => apply branch_next
  | nop | align | endFiring | yield | add | sub | mul | mulh | mulhn | div | divn | rem
  | remn | min | max | minn | maxn | slt | sltn | and | or | xor | andn | orn | sll
  | srl | sra | rol | ror | clz | ffs | popc | brev | addi | addiLit | andi | andiLit
  | ori | oriLit | xori | xoriLit | slti | sltiLit | slli | srli | srai | limm | limmLit
  | adpc | bfx | bfi | sextB | sextH | sextW | zextB | zextH | zextW | beqz | bnez
  | bltz | bgez | bgtz | blez | bpany | bpnone | bcmp | call | jr | ret | callr | jtab
  | trap | eret | csrr | csrw | csrx | ld | ldLit | ldz | ldzLit | st | stLit | pref
  | prefLit | amoadd | amoand | amoor | amoxor | amomin | amomax | amominn | amomaxn | amoswp
  | amocas | amofadd | fence | waita | waitaLit | bar | bararv | barwt | vld | vst | vadd
  | vsub | vmul | vmax | vmin | vabs | vneg | vfma | vfms | viadd | visub | vimul | vand
  | vor | vxor | vshl | vshr | vcmp | vsel | vcvt | vqnt | vdqnt | vexp2 | vlog2 | vrcp
  | vrsq | vtanh | vred | vsmxStep | vsmxMerge | vsmxFinal | vsmxInit | vrand | vdrop | vperm
  | vbcast | vbcastLit | vmovx | vmovv | fmtget | fmtset | vloop | vstrm | vstop | vclz | vffs
  | vpopc | mxmul | mxspm | mxdrn | mxclr | mxwait | mxstat | mxrem | cpy | cpyg | cpys
  | cpyr | cpywait | cpystat | bufdcl | bufset | bufqry | send | sendReplay | sendr | msgld
  | msgfree | tagen | tagdis | hold | release | setpri | spawn | fork | join | qpush | qpop
  | qstat | actdef | cdef | cbind | cunb | cld | cst | csnap | cunsnap | cgenStart | cgenHold
  | cgenRelease | cgenPinlim | cgenWaitgen | cstat | cprec | ccommit | kappend | klook | kqry
  | krehome | flpop | flpush | lncfg | lnrank | lncommit | lnstat | flowOpen | flowClose | flowQry
  | cgform | cgsig | cgwait | cgstat | tlbw | tlbinv | tlbprb | capset | ctxq | slogq
  | undefinedEncoding => apply issue_next
  | varResultReturn | selectorDecision | quantumExpiry | alignWaitExpiry | requestArrival | requestRetry
  | replyArrival | autoReplySend | spawnArrival | spawnAnswer | mxremArrival | matrixCmdStart
  | matrixCmdComplete | copyCmdComplete | mword | mgo | cword | cgo | heldGoAccept | walkRequest
  | walkTimeout | cellDispatch | pinExpiry | poisonOpening | cellReadWake | waitRecheck | waitLimitExpiry
  | governorSample | queueRefill | stageQueueDescWrite | krehomeTarget | krehomeAnswer | rdupPropagate
  | rdupInvalidateAck | fabricStoreArrival | fabricReleaseApply | flowPacketArrival | linkFlitReceive
  | linkAckReceive | laneLockLoss | portRetrainDone | retrain | remoteLimitExpiry | groupJoinArrival
  | groupCommitArrival | groupAbortMsg | cgwaitLimit | cgformLimit | cgansCommit | cgansRefuse | doorbell
  | queuePacketRead | launchRelease | contextResume | launchComplete | launchLimitExpiry | hostLinkAccess
  | ctxctlClear | ctxctlRetire | unfreeze | wfgo | walkImageLoadDone | twgo | userQueueDescWrite
  | freeListRegWrite | schedout | freefFrame | freefBivouac | registerWrite | frontEndError | correctedError
  | uncorrectableError | patrolScrub | stbyPowerUp | stbyPowerDown | mainPowerUp | mainPowerDown
  | firmwareUpdate | perstLink0 | perstLink1 | reset | pwrlim | trip | powerWindow | thermalThrottle
  | thermalTrip | mgmtRead | spdmMeasurement | programTrafficAck | remoteAccessArrival | errorTriageWord
  | thermalThrottleEnd => exact ⟨_, rfl⟩
end Sys2Proof.Machine
end

section
/-! The statement that no instruction is refused. -/
set_option Elab.async false
open Sys2Proof Sys2Proof.Machine
namespace Sys2Proof.Proofs
/-- Settles O5: an instruction answers through `issue`, an act of a unit or of the outside is a next state by its definition. -/
theorem everyInstructionRuns : Obligations.EveryInstructionRuns := exec_next
end Sys2Proof.Proofs
end

section
/-! What the Fixed integer instructions write: one x register, and what retiring the instruction writes beside it (R30 to R33, R106 to R114). -/
set_option Elab.async false
open Sys2Proof Sys2Proof.Spec
namespace Sys2Proof.Machine

/-! ### Retiring an instruction with no trap deferred -/

theorem sameRegs_refl (r : Frame) : SameRegs r r [] := ⟨fun _ _ => rfl, rfl, rfl, rfl, rfl, rfl, rfl, rfl, rfl, rfl, rfl, rfl⟩
theorem sameRegs_wx (r : Frame) (n : Nat) (v : Word) : SameRegs r (r.wx n v) [n] :=
  ⟨fun _ hk => rx_wx_ne r v (List.ne_of_not_mem_cons hk), wx_v .., wx_vtag .., wx_p .., wx_fflags .., wx_epc .., wx_cause .., wx_tval ..,
    wx_tval2 .., wx_tval3 .., wx_handler .., wx_streams ..⟩
theorem sameRegs_trans {r t u : Frame} {xs : List Nat} (h : SameRegs r t xs) (h' : SameRegs t u []) : SameRegs r u xs := by
  obtain ⟨hx, h1, h2, h3, h4, h5, h6, h7, h8, h9, h10, h11⟩ := h
  obtain ⟨hx', g1, g2, g3, g4, g5, g6, g7, g8, g9, g10, g11⟩ := h'
  exact ⟨fun n hn => (hx' n List.not_mem_nil).trans (hx n hn), g1.trans h1, g2.trans h2, g3.trans h3, g4.trans h4, g5.trans h5, g6.trans h6,
    g7.trans h7, g8.trans h8, g9.trans h9, g10.trans h10, g11.trans h11⟩

/-- From `s` to `t` the issuing firing keeps its registers but those in `xs`, its core all but who issues and how many have parked, and
everything else stays. -/
structure Frames (xs : List Nat) (s t : State) : Prop where
  regs : SameRegs s.cur (t.fr s.turn s.fi) xs
  core : SameCore (s.core s.turn) (t.core s.turn)
  rest : SameRest s t
theorem Frames.setCur {xs : List Nat} (s : State) {r : Frame} (hr : SameRegs s.cur r xs) : Frames xs s (s.setCur r) where
  regs := by rwa [State.setCur, fr_setFr_self]
  core := rfl
  rest := ⟨rfl, rfl, rfl, rfl, rfl, rfl, rfl, rfl, rfl, fun _ _ => rfl, fun _ _ h => fr_setFr_ne s r h⟩
/-- A later write of the same frame that keeps its registers. -/
theorem Frames.again {xs : List Nat} {s : State} {r : Frame} {g : Frame → Frame} (hr : SameRegs s.cur r xs) (hg : SameRegs r (g r) []) :
    Frames xs s ((s.setCur r).updCur g) := by
  rw [State.updCur, cur_setCur, setCur_setCur]
  exact .setCur s (sameRegs_trans hr hg)
/-- And one of the core's place in the order of parking. -/
theorem Frames.parks {xs : List Nat} {s t : State} (h : Frames xs s t) {g : Core → Core} (hg : ∀ c, SameCore c (g c)) :
    Frames xs s (t.updCore s.turn g) := by
  obtain ⟨hregs, hcore, h1, h2, h3, h4, h5, h6, h7, h8, h9, hcores, hfr⟩ := h
  refine ⟨hregs, ?_, h1, h2, h3, h4, h5, h6, h7, h8, h9, fun k hk => (core_setCore_ne t _ hk).trans (hcores k hk), hfr⟩
  have hc := hg (t.core s.turn)
  rw [updCore_eq, core_setCore_self]
  unfold SameCore at hc hcore ⊢
  rw [← hc] at hcore
  exact hcore
theorem parkFrame_frames {xs : List Nat} {s : State} {r : Frame} (hr : SameRegs s.cur r xs) :
    Frames xs s ((s.setCur r).parkFrame s.turn s.fi id) := by
  have hparks : (s.setCur r).parkFrame s.turn s.fi id =
      ((s.setCur r).updCur fun q => { q with stat := .parked, parkNo := (s.core s.turn).parks }).updCore s.turn fun c =>
        { c with issuing := if c.issuing = some s.fi then none else c.issuing, parks := (s.core s.turn).parks + 1 } := rfl
  rw [hparks]
  refine Frames.parks (Frames.again hr ?_) ?_
  · exact sameRegs_refl r
  · exact fun _ => rfl
theorem boundary_frames {xs : List Nat} {s : State} {r : Frame} (hr : SameRegs s.cur r xs) (hd : r.deferred = []) :
    Frames xs s (s.setCur r).boundary := by
  have hcur : (s.setCur r).cur = r := cur_setCur s r
  unfold State.boundary
  simp only [hcur]
  split
  · exact parkFrame_frames hr
  · split
    · next h => exact absurd (hd.symm.trans h) (List.cons_ne_nil _ _).symm
    · rw [setCur_setCur]
      split
      · refine Frames.parks (Frames.again (r := { r with out := [], seq := [] }) hr ?_) ?_
        · exact sameRegs_refl r
        · exact fun _ => rfl
      · exact .setCur s hr
theorem wfix_frames {s : State} (d : BitVec 6) (v : Word) (m : Bool) (len : Nat) (hd : s.cur.deferred = []) :
    Frames [d.toNat] s (done (s.wfix d v) m len) := by
  have hcur : (s.wfix d v).cur = s.cur.wx d.toNat v := cur_setCur s _
  have hr : SameRegs s.cur { (s.cur.wx d.toNat v).settled with pc := (s.wfix d v).cur.pc + BitVec.ofNat 64 len } [d.toNat] :=
    sameRegs_trans (sameRegs_wx ..) (sameRegs_refl _)
  have hset : (s.wfix d v).retire m ((s.wfix d v).cur.pc + BitVec.ofNat 64 len) =
      if m then (s.setCur { (s.cur.wx d.toNat v).settled with pc := (s.wfix d v).cur.pc + BitVec.ofNat 64 len }).boundary
      else s.setCur { (s.cur.wx d.toNat v).settled with pc := (s.wfix d v).cur.pc + BitVec.ofNat 64 len } := by
    unfold State.retire
    rw [updCur_eq, hcur]
    rw [show (s.wfix d v).setCur _ = s.setCur _ from setFr_setFr ..]
  unfold done
  rw [hset]
  cases m with
  | false => exact .setCur s hr
  | true => exact boundary_frames hr (by simpa [Frame.settled] using hd)

/-! ### The instructions -/

/-- `i` of length `len` writes one x register where the firing issues it. -/
theorem issue_wfix {s : State} {i : Instr} {m : Bool} {len : Nat} {regs : List Nat} {d : BitVec 6} {v : State → Word} (h : Ready s regs) :
    issue m len i regs (fun s => .ok (s.wfix d (v s))) s = .next (done (s.wfix d (v s)) m len) :=
  issue_body h.1 (hazard_none h.2)
/-- The instruction ends with one x register written. -/
def WritesX (o : Out) (s : State) (d : BitVec 6) : Prop := ∃ m len v, o = .next (done (s.wfix d v) m len)
theorem aluR_ends {s : State} {i : Instr} {m : Bool} {d a b : BitVec 6} {g : Word → Word → Word} (h : Ready s [a.toNat, b.toNat, d.toNat]) :
    WritesX (aluR i m d a b g s) s d := ⟨m, 4, g (s.x a) (s.x b), issue_wfix h⟩
theorem aluU_ends {s : State} {i : Instr} {m : Bool} {len : Nat} {d a : BitVec 6} {g : Word → Word} (h : Ready s [a.toNat, d.toNat]) :
    WritesX (aluU i m len d a g s) s d := ⟨m, len, g (s.x a), issue_wfix h⟩
theorem setX_ends {s : State} {i : Instr} {m : Bool} {len : Nat} {d : BitVec 6} {g : Word → Word} (h : Ready s [d.toNat]) :
    WritesX (setX i m len d g s) s d := ⟨m, len, g s.cur.pc, issue_wfix h⟩
theorem execBfi_ends {s : State} {m : Bool} {d a : BitVec 6} {len : BitVec 7} {pos : BitVec 6} (h : Ready s [a.toNat, d.toNat]) :
    WritesX (execBfi m d a len pos s) s d := ⟨m, 12, bfiVal len pos (s.x d) (s.x a), issue_wfix h⟩
/-- A Fixed instruction that the firing issues writes its destination and nothing else. -/
theorem fixedOps_ends {i : Instr} {regs : List Nat} {d : BitVec 6} {s : State} (hop : fixedOps i = some (regs, d)) (h : Ready s regs) :
    WritesX (exec i s) s d := by
  unfold exec
  cases i with
  | add | sub | mul | mulh | mulhn | div | divn | rem | remn | min | max | minn | maxn | slt | sltn | and | or | xor | andn | orn | sll | srl
  | sra | rol | ror =>
    cases hop
    exact aluR_ends h
  | clz | ffs | popc | brev | addi | addiLit | andi | andiLit | ori | oriLit | xori | xoriLit | slti | sltiLit | slli | srli | srai | bfx
  | sextB | sextH | sextW | zextB | zextH | zextW =>
    cases hop
    exact aluU_ends h
  | limm | limmLit | adpc =>
    cases hop
    exact setX_ends h
  | bfi =>
    cases hop
    exact execBfi_ends h
  | _ => cases hop
end Sys2Proof.Machine
end

section
/-! The statement on the frame of the Fixed instructions. -/
set_option Elab.async false
open Sys2Proof Sys2Proof.Machine Sys2Proof.Spec
namespace Sys2Proof.Proofs
/-- Settles O10: a Fixed instruction ends with one register written, and retiring it writes the frame and the order of parking only. -/
theorem fixedFrame : Obligations.FixedFrame := by
  intro i regs d s t hop hready hdeferred hexec
  obtain ⟨m, len, v, hends⟩ := fixedOps_ends hop hready
  rw [hends] at hexec
  cases hexec
  obtain ⟨hregs, hcore, hrest⟩ := wfix_frames d v m len hdeferred
  exact ⟨hregs, hcore, hrest, fun a => congrArg (rdCell · a) hrest.1⟩
end Sys2Proof.Proofs
end

section
/-! Tag instructions (R279, R321). -/
set_option Elab.async false
open Sys2Proof Sys2Proof.Spec
namespace Sys2Proof.Machine

/-- An instruction that the firing issues and whose body completes. -/
theorem issue_ok {m : Bool} {len : Nat} {i : Instr} {regs named : List Nat} {body : State → Res} {s u : State} (h : Ready s named)
    (hsub : ∀ n ∈ regs, n ∈ named) (hbody : body s = .ok u) : issue m len i regs body s = .next (done u m len) := by
  rw [issue_ready h hsub, hbody]
  rfl

section
variable {s : State} {named regs : List Nat} {i : Instr} {m : Bool} {d a : BitVec 6} {g : State → Tag → Tag × Bool}
  (hready : Ready s named) (hsub : ∀ n ∈ regs ++ [rX d], n ∈ named)
include hready hsub
theorem tagOp_changes (h60 : fld (s.x a) 0 6 ≠ 60) (h63 : fld (s.x a) 0 6 ≠ 63) {u : Tag} {l : Bool}
    (hg : g s (s.myCore.tag (fld (s.x a) 0 6)) = (u, l)) :
    tagOp i m d a regs g s = .next (done ((s.updMine fun c => { c with tags := c.tags.put (fld (s.x a) 0 6) u }).wvar d (u.word l)) m 4) :=
  issue_ok hready hsub (by simp only [h60, h63, hg, decide_false, Bool.or_self, Bool.false_eq_true, if_false])
theorem tagOp_fixed (h : fld (s.x a) 0 6 = 60 ∨ fld (s.x a) 0 6 = 63) :
    tagOp i m d a regs g s = .next (done (s.wvar d ((s.myCore.tag (fld (s.x a) 0 6)).word false)) m 4) :=
  issue_ok hready hsub (by simp only [Bool.or_eq_true, decide_eq_true_eq, h, if_true])
end
end Sys2Proof.Machine
end

section
/-! The statement on tag instructions. -/
set_option Elab.async false
open Sys2Proof Sys2Proof.Machine Sys2Proof.Spec
namespace Sys2Proof.Proofs
/-- Settles O39: each instruction is `tagOp`, which changes a tag other than 60 and 63 by what the instruction gives. -/
theorem tagInstructions : Obligations.TagInstructions := by
  intro s m d a b hready n t kind word becomes p
  have hword (t : Tag) (l : Bool) : t.word l = word t (b2n l) := by
    obtain ⟨k, _, _, _, e, _, _⟩ := t
    unfold Tag.word Tag.en
    cases k <;> cases e <;> simp [word, kind, Tag.kindNo, wd, b2n]
  have ha : ∀ n ∈ [rX a] ++ [rX d], n ∈ [a.toNat, b.toNat, d.toNat] := by simp [rX]
  have hab : ∀ n ∈ [rX a, rX b] ++ [rX d], n ∈ [a.toNat, b.toNat, d.toNat] := by simp [rX]
  constructor
  · intro h60 h63
    have hbecomes {i : Instr} {regs : List Nat} {g : State → Tag → Tag × Bool} {u : Tag} (l : Bool) (hi : exec i s = tagOp i m d a regs g s)
        (hsub : ∀ n ∈ regs ++ [rX d], n ∈ [a.toNat, b.toNat, d.toNat]) (hg : g s t = (u, l)) : becomes i u (b2n l) := by
      show exec i s = _
      rw [hi, ← hword]
      exact tagOp_changes hready hsub h60 h63 hg
    refine ⟨hbecomes false (exec_tagen m d a s) ha rfl, hbecomes false (exec_tagdis m d a s) ha rfl, fun hlt => ?_, fun hge => ?_, fun hpos => ?_, fun hzero => ?_,
      hbecomes false (exec_setpri m d a b s) hab rfl⟩
    · exact hbecomes false (exec_hold m d a s) ha (if_neg (Nat.not_le.mpr hlt))
    · exact hbecomes true (exec_hold m d a s) ha (if_pos hge)
    · exact hbecomes false (exec_release m d a s) ha (if_neg hpos)
    · exact hbecomes true (exec_release m d a s) ha (if_pos hzero)
  · intro hfixed
    have hstays {i : Instr} {regs : List Nat} {g : State → Tag → Tag × Bool} (hi : exec i s = tagOp i m d a regs g s)
        (hsub : ∀ n ∈ regs ++ [rX d], n ∈ [a.toNat, b.toNat, d.toNat]) : exec i s = .next (done (s.wvar d (word t 0)) m 4) := by
      rw [hi, show word t 0 = t.word false from (hword t false).symm]
      exact tagOp_fixed hready hsub hfixed
    simp only [List.forall_mem_cons, List.not_mem_nil, false_implies, implies_true, and_true]
    exact ⟨hstays (exec_tagen m d a s) ha, hstays (exec_tagdis m d a s) ha, hstays (exec_hold m d a s) ha, hstays (exec_release m d a s) ha,
      hstays (exec_setpri m d a b s) hab⟩
end Sys2Proof.Proofs
end

section
/-! Join counters and the deque of tasks (R290 to R293, R323 to R325). -/
set_option Elab.async false
open Sys2Proof Sys2Proof.Spec
namespace Sys2Proof.Machine

/-! ### Join counters -/

theorem bytesOf_mod (n v : Nat) : bytesOf n (v % 2 ^ (8 * n)) = bytesOf n v := by
  induction n generalizing v with
  | zero => rfl
  | succ n ih =>
    have hlow : BitVec.ofNat 8 (v % 2 ^ (8 * (n + 1))) = BitVec.ofNat 8 v := by
      apply BitVec.eq_of_toNat_eq
      rw [BitVec.toNat_ofNat, BitVec.toNat_ofNat, Nat.mod_mod_of_dvd _ (Nat.pow_dvd_pow 2 (by omega))]
    have hrest : v % 2 ^ (8 * (n + 1)) / 256 = v / 256 % 2 ^ (8 * n) := by
      rw [Nat.mul_succ, Nat.pow_add, Nat.mul_comm]
      exact Nat.mod_mul_right_div_self ..
    rw [bytesOf, bytesOf, hlow, hrest, ih]

/-- The state after `n` is added to the counter at `va`, whose bytes are at `pa`. -/
def State.counted (s : State) (va pa n : Nat) : State := (Spec.used s va true).wrN pa 8 ((leBytes s pa 8 + n) % 2 ^ 64)
theorem atomic_counts {s : State} (i : Instr) {j : Word} {pa : Nat} (v : Nat) (h : AtomicAt s j.toNat 8 pa false false) :
    s.atomic i j 8 {} (fun x => (some (x + v), ())) = .got (s.counted j.toNat pa v) () := by
  rw [atomic_performs (o := {}) i _ h]
  simp only [State.amoLeaves, State.counted, State.wrN]
  rw [← bytesOf_mod 8 (leBytes s pa 8 + v)]
theorem joinAdd_counts {s : State} (i : Instr) {j : Word} {pa : Nat} (v : Nat) (hj : j ≠ 0#64) (h : AtomicAt s j.toNat 8 pa false false) :
    s.joinAdd i j v = .got (s.counted j.toNat pa v) () := by
  rw [State.joinAdd, if_neg hj, atomic_counts i v h]
theorem joinAdd_none (s : State) (i : Instr) (v : Nat) : s.joinAdd i 0#64 v = .got s () := rfl
section
variable (s : State) (va pa n : Nat)
@[simp] theorem counted_turn : (s.counted va pa n).turn = s.turn := rfl
theorem counted_myCore : (s.counted va pa n).myCore = { s.myCore with tlb := markIn s.myCore.ctxid va true s.myCore.tlb } := core_used s va true
@[simp] theorem counted_cur : (s.counted va pa n).cur = s.cur := cur_used s va true
@[simp] theorem counted_fi : (s.counted va pa n).fi = s.fi := fi_used s va true
end

/-! ### The newest record of a deque that names a counter (R324) -/

theorem newestFor_none {l : List Task} {j : Word} (h : ∀ t ∈ l, t.words.getD 1 0#64 ≠ j) : newestFor l j = none := by
  rw [newestFor, List.find?_eq_none]
  intro n hn
  rw [List.mem_reverse, List.mem_range] at hn
  rw [decide_eq_true_eq, List.getD_eq_getElem _ _ hn]
  exact h _ (List.getElem_mem hn)
theorem newestFor_newest {old new : List Task} {t : Task} {j : Word} (ht : t.words.getD 1 0#64 = j) (hnew : ∀ t ∈ new, t.words.getD 1 0#64 ≠ j) :
    newestFor (old ++ t :: new) j = some old.length := by
  rw [newestFor, List.find?_eq_some_iff_getElem]
  refine ⟨?_, new.length, ?_, ?_, fun k hk => ?_⟩
  · simpa using ht
  · simp
    omega
  · simp
  · have hplace : old.length + (new.length + 1) - 1 - k = old.length + 1 + (new.length - 1 - k) := by omega
    have hlt : new.length - 1 - k < new.length := by omega
    simp only [List.getElem_reverse, List.getElem_range, List.length_range, List.length_append, List.length_cons, hplace, Bool.not_eq_true',
      decide_eq_false_iff_not]
    rw [List.getD_append_right _ _ _ _ (by omega), show old.length + 1 + (new.length - 1 - k) - old.length = (new.length - 1 - k) + 1 by omega,
      List.getD_cons_succ, List.getD_eq_getElem _ _ hlt]
    exact hnew _ (List.getElem_mem hlt)
theorem wargs_eq (s : State) {ws : List Word} (h : ws.length = 8) :
    s.wargs ws = (List.range 8).foldl (fun u i => u.wvar (BitVec.ofNat 6 (4 + i)) (ws.getD i 0#64)) s := by
  have hzip : (List.range 8).zip ws = (List.range 8).map fun i => (i, ws.getD i 0#64) := by
    apply List.ext_getElem
    · simp [h]
    · intro n h1 h2
      simp at h1 h2
      simp [h1]
  rw [State.wargs, hzip, List.foldl_map]

theorem taskTrap_none (i : Instr) {ws : List Word} (h0 : (ws.getD 0 0#64).toNat % 4 = 0) (h1 : (ws.getD 1 0#64).toNat % 8 = 0) :
    taskTrap i ws = none := by
  have h0' : fld (ws.getD 0 0#64) 0 2 = 0 := h0
  have h1' : fld (ws.getD 1 0#64) 0 3 = 0 := h1
  rw [taskTrap, if_neg (not_not.mpr h0'), if_neg (not_not.mpr h1')]
theorem updMine_drops {s : State} {old new : List Task} {t : Task} (h : s.myCore.deque = old ++ t :: new) :
    (s.updMine fun c => { c with deque := c.deque.eraseIdx old.length }) = s.updMine fun c => { c with deque := old ++ new } := by
  have herase : s.myCore.deque.eraseIdx old.length = old ++ new := by
    rw [h, List.eraseIdx_append_of_length_le (Nat.le_refl _), Nat.sub_self, List.eraseIdx_cons_zero]
  rw [updMine_eq, updMine_eq, herase]
theorem fi_of_myCore {s s' : State} (h : s'.myCore = s.myCore) : s'.fi = s.fi := by
  show s'.myCore.issuing.getD 0 = s.myCore.issuing.getD 0
  rw [h]

/-! ### FORK -/

section
variable {s s' : State} {named : List Nat} {m : Bool} {d a : BitVec 6} {l : List (BitVec 8)} (hready : Ready s named)
  (hsub : ∀ n ∈ [rX a, rX d], n ∈ named) (hread : s.record (.fork m d a) (s.x a) = .got s' l) (htrap : taskTrap (.fork m d a) (words64 8 l) = none)
include hready hsub hread htrap
theorem fork_full (hfull : s'.myCore.deque.length ≥ 64) : exec (.fork m d a) s = .next (done (s'.wvar d 0#64) m 4) := by
  rw [exec_fork, execFork]
  exact issue_ok hready hsub (by simp only [hread, Got.res, htrap, hfull, if_true])
theorem fork_pushes {u : State} (hroom : s'.myCore.deque.length < 64) (hrel : s'.relWaits true 0xFFFF = false)
    (hadd : s'.joinAdd (.fork m d a) ((words64 8 l).getD 1 0#64) 1 = .got u ()) : exec (.fork m d a) s =
      .next (done ((u.updMine fun c => { c with deque := c.deque ++ [(⟨words64 8 l, u.turn⟩ : Task)] }).wvar d 1#64) m 4) := by
  rw [exec_fork, execFork]
  exact issue_ok hready hsub (by simp only [hread, Got.res, htrap, Nat.not_le.mpr hroom, hrel, hadd, Bool.false_eq_true, if_false])
end

/-! ### JOIN -/

section
variable {s s' : State} {named : List Nat} {m : Bool} {d a b : BitVec 6} {v : Nat} (hready : Ready s named)
  (hsub : ∀ n ∈ [rX a, rX b, rX d] ++ (List.range 8).map (· + 4), n ∈ named) (hload : s.load (.join m d a b) (s.x a) 8 0 regLoad = .got s' v)
include hready hsub hload
theorem join_done (hv : v = 0) : exec (.join m d a b) s = .next (done (s'.wvar d 0#64) m 4) := by
  rw [exec_join, execJoin]
  exact issue_ok hready hsub (by simp only [hload, Got.res, hv, if_true])
theorem join_expires (hv : v ≠ 0) (hnone : newestFor s'.myCore.deque (s.x a) = none) (hlim : (s'.x b).toNat % 2 ^ 48 = 0) :
    exec (.join m d a b) s = .next (done (s'.wvar d 2#64) m 4) := by
  have hlim' : fld (s'.x b) 0 48 = 0 := hlim
  rw [exec_join, execJoin]
  exact issue_ok hready hsub (by simp only [hload, Got.res, hv, hnone, hlim', decide_true, Bool.or_true, if_true, if_false])
theorem join_takes {pa n : Nat} (hv : v ≠ 0) (hnewest : newestFor s'.myCore.deque (s.x a) = some n) (hat : AtomicAt s' (s.x a).toNat 8 pa false false) :
    let u := s'.counted (s.x a).toNat pa (2 ^ 64 - 1)
    exec (.join m d a b) s = .next (done (((u.updMine fun c => { c with deque := c.deque.eraseIdx n }).wargs
      (u.myCore.deque.getD n ⟨[], 0⟩).words).wvar d 1#64) m 4) := by
  have hless : (fun x : Nat => (some (x + 2 ^ 64 - 1), ())) = fun x => (some (x + (2 ^ 64 - 1)), ()) := by
    funext x
    rw [Nat.add_sub_assoc (by decide)]
  have hcounts : s'.atomic (.join m d a b) (s.x a) 8 {} (fun x => (some (x + 2 ^ 64 - 1), ())) = .got (s'.counted (s.x a).toNat pa (2 ^ 64 - 1)) () := by
    rw [hless, atomic_counts _ _ hat]
  rw [exec_join, execJoin]
  exact issue_ok hready hsub (by simp only [hload, Got.res, hv, hnewest, hcounts, if_false])
end

/-! ### SPAWN -/

/-- The record in the outbox, its answer awaited. -/
def State.spawnSent (u : State) (dst : Nat) (l : List (BitVec 8)) (j : Word) : State :=
  let g : Msg := { kind := .spawn, ctx := u.myCore.ctxid, dst := dst, src := u.turn, rply := true, tag := 62, payload := l, no := u.fi }
  (u.updMine fun c => { c with awaits := c.awaits ++ [64], outbox := c.outbox ++ [(⟨g, false⟩ : OutE)] }).updCur fun r => { r with saved := [31, j.toNat] }
theorem spawnSent_eq {s u : State} (l : List (BitVec 8)) (j : Word) {dst : Nat} (hctx : u.myCore.ctxid = s.myCore.ctxid) (hturn : u.turn = s.turn) (hfi : u.fi = s.fi) :
    let g : Msg := { kind := .spawn, ctx := s.myCore.ctxid, dst := dst, src := s.turn, rply := true, tag := 62, payload := l, no := s.fi }
    u.spawnSent dst l j = (u.updMine fun c => { c with awaits := c.awaits ++ [64], outbox := c.outbox ++ [(⟨g, false⟩ : OutE)] }).updCur fun r =>
      { r with saved := [31, j.toNat] } := by
  rw [State.spawnSent, hctx, hturn, hfi]

section
variable {s s' u : State} {named : List Nat} {m : Bool} {d a b : BitVec 6} (hready : Ready s named) (hsub : ∀ n ∈ [rX a, rX b, rX d], n ∈ named)
include hready hsub
theorem spawn_accepted (hsaved : s.cur.saved = [33]) : exec (.spawn m d a b) s = .next (done (s.wvar d 1#64) m 12) := by
  rw [exec_spawn, execSpawn]
  exact issue_ok hready hsub (by simp only [hsaved])
theorem spawn_bounced {j : Nat} (hsaved : s.cur.saved = [34, j]) (hadd : s.joinAdd (.spawn m d a b) (wd j) (2 ^ 64 - 1) = .got u ()) :
    exec (.spawn m d a b) s = .next (done (u.wvar d 0#64) m 12) := by
  rw [exec_spawn, execSpawn]
  exact issue_ok hready hsub (by simp only [hsaved, hadd, Got.res])
theorem spawn_waits {n : Nat} {r : List Nat} (hsaved : s.cur.saved = n :: r) (hn : n = 31 ∨ n = 32) : exec (.spawn m d a b) s = .next (s.stay .wait) := by
  rw [exec_spawn, execSpawn, issue_ready hready hsub]
  rcases hn with rfl | rfl <;> simp only [hsaved] <;> rfl
theorem spawn_nowhere (hsaved : s.cur.saved = []) (hdst : (s.x a).toNat ≥ 4608) : exec (.spawn m d a b) s = .next (done (s.wvar d 0#64) m 12) := by
  have hdst' : s.xn a ≥ 4608 := hdst
  rw [exec_spawn, execSpawn]
  exact issue_ok hready hsub (by simp only [hsaved, hdst', if_true])
theorem spawn_sends {l : List (BitVec 8)} (hsaved : s.cur.saved = []) (hdst : (s.x a).toNat < 4608) (hread : s.record (.spawn m d a b) (s.x b) = .got s' l)
    (htrap : taskTrap (.spawn m d a b) (words64 8 l) = none) (hreply : s'.myCore.replySlots < 8) (hout : s'.myCore.outbox.length < 16)
    (hrel : s'.relWaits true 0xFFFF = false) (hadd : s'.joinAdd (.spawn m d a b) ((words64 8 l).getD 1 0#64) 1 = .got u ()) :
    exec (.spawn m d a b) s = .next ((u.spawnSent (u.x a).toNat l ((words64 8 l).getD 1 0#64)).stay .wait) := by
  have hdst' : ¬s.xn a ≥ 4608 := Nat.not_le.mpr hdst
  rw [exec_spawn, execSpawn, issue_ready hready hsub]
  simp only [hsaved, hdst', hread, Got.res, htrap, Nat.not_le.mpr hreply, Nat.not_le.mpr hout, hrel, hadd, decide_false, Bool.or_self, Bool.false_eq_true,
    if_false]
  rfl
end
end Sys2Proof.Machine
end

section
/-! The statement on tasks. -/
set_option Elab.async false
open Sys2Proof Sys2Proof.Machine Sys2Proof.Spec
namespace Sys2Proof.Proofs
/-- Settles O40: FORK, JOIN and SPAWN case by case, a join counter added to where there is one. -/
theorem tasks : Obligations.Tasks := by
  intro s s' m d a b l v pa hready hcore hturn hcur ws rd j pushed adds g sent
  have hfi : s'.fi = s.fi := fi_of_myCore hcore
  have hx (n : BitVec 6) : s'.x n = s.x n := by rw [State.x, hcur]; rfl
  have hda : ∀ n ∈ [rX a, rX d], n ∈ [a.toNat, b.toNat, d.toNat] ++ (List.range 8).map (· + 4) := by simp [rX]
  have hdab : ∀ n ∈ [rX a, rX b, rX d], n ∈ [a.toNat, b.toNat, d.toNat] ++ (List.range 8).map (· + 4) := fun n hn => List.mem_append_left _ hn
  refine ⟨fun hread h4 h8 => ⟨fun hfull => ?_, fun hroom hrel => ⟨fun hj => ?_, fun hj hat => ?_⟩⟩,
    fun hload => ⟨fun hv => join_done hready (fun _ h => h) hload hv, fun hv hnone hlim => ?_, fun t old new hv hdeque ht hlen hnew hat => ?_⟩,
    fun hsaved hdst hread h4 h8 hreply hout hrel => ⟨fun hj => ?_, fun hj hat => ?_⟩,
    fun n r hsaved hn => spawn_waits hready hdab hsaved hn, fun n hsaved hn hlt hat => ?_, fun hsaved => ?_, spawn_accepted hready hdab,
    fun hsaved hdst => spawn_nowhere hready hdab hsaved hdst⟩
  · exact fork_full hready hda hread (taskTrap_none _ h4 h8) (hcore ▸ hfull)
  · have hadd : s'.joinAdd (.fork m d a) (ws.getD 1 0#64) 1 = .got s' () := by rw [show ws.getD 1 0#64 = 0#64 from hj]; rfl
    rw [fork_pushes hready hda hread (taskTrap_none _ h4 h8) (hcore ▸ hroom) hrel hadd, hturn]
  · rw [fork_pushes hready hda hread (taskTrap_none _ h4 h8) (hcore ▸ hroom) hrel (joinAdd_counts _ 1 hj hat), counted_turn, hturn]
    rfl
  · exact join_expires hready (fun _ h => h) hload hv (newestFor_none (hcore ▸ hnone)) (by rwa [hx])
  · have hdeque' : s'.myCore.deque = old ++ t :: new := by rw [hcore, hdeque]
    have hnewest : newestFor s'.myCore.deque (s.x a) = some old.length := by rw [hdeque', newestFor_newest ht hnew]
    have hcdeque : (s'.counted (s.x a).toNat pa (2 ^ 64 - 1)).myCore.deque = old ++ t :: new := by rw [counted_myCore, ← hdeque']
    rw [join_takes hready (fun _ h => h) hload hv hnewest hat, hcdeque, List.getD_append_right _ _ _ _ (Nat.le_refl _), Nat.sub_self, List.getD_cons_zero,
      wargs_eq _ hlen, updMine_drops hcdeque]
    rfl
  · have hadd : s'.joinAdd (.spawn m d a b) (ws.getD 1 0#64) 1 = .got s' () := by rw [show ws.getD 1 0#64 = 0#64 from hj]; rfl
    rw [spawn_sends hready hdab hsaved hdst hread (taskTrap_none _ h4 h8) (hcore ▸ hreply) (hcore ▸ hout) hrel hadd,
      spawnSent_eq (s := s) _ _ (by rw [hcore]) hturn hfi, hx]
  · rw [spawn_sends hready hdab hsaved hdst hread (taskTrap_none _ h4 h8) (hcore ▸ hreply) (hcore ▸ hout) hrel (joinAdd_counts _ 1 hj hat),
      spawnSent_eq (s := s) (u := s'.counted j.toNat pa 1) l j (by rw [counted_myCore, hcore]) hturn ((counted_fi ..).trans hfi),
      State.x, counted_cur, hcur]
    rfl
  · have hne : wd n ≠ 0#64 := fun h0 => hn (by rw [← toNat_wd hlt, h0]; rfl)
    have hat' : AtomicAt s (wd n).toNat 8 pa false false := by rwa [toNat_wd hlt]
    rw [spawn_bounced hready hdab hsaved (joinAdd_counts _ _ hne hat'), toNat_wd hlt]
    rfl
  · exact spawn_bounced hready hdab hsaved (joinAdd_none _ _ _)
end Sys2Proof.Proofs
end

section
/-! A queue whose bank holds more records than the queue: the counterexample to the statement on QPOP (R296, R326). The model counts the
records in the ring by a subtraction that stops at 0, where the statement asks whether two counts differ. -/
set_option Elab.async false
open Sys2Proof Sys2Proof.Machine Sys2Proof.Spec
namespace Sys2Proof.Proofs

/-- The state and the value an access comes to, where it comes to an end: what a concrete one is evaluated to. -/
def ended {α : Type} : Got α → Option (State × α)
  | .got u v => some (u, v)
  | .stop _ => none
theorem ended_some {α : Type} {g : Got α} {u : State} {v : α} (h : ended g = some (u, v)) : g = .got u v := by
  cases g with
  | got w a => cases h; rfl
  | stop _ => cases h

namespace OverfullBank

def record : List (BitVec 8) := List.replicate 64 7#8
/-- Two records in the bank between HEAD 0 and TAIL 1. -/
def queue : SQueue := { enable := true, share := 2, tail := 1, bank := [record, record] }
/-- X[2] is the first byte of the core's scratchpad of one granule. -/
def popping : State :=
  ({ State.reset with cores := ({} : Tab Core).put 0 { partw := 0x100000000#64 } }.wfix 2#6 (BitVec.ofNat 64 selfBase)).setSQueue 0 queue
def pop : Instr := .qpop false 3#6 1#6 2#6 4#6

/-- The state after the oldest record is stored at X[2]. -/
def stored : State :=
  ((ended (popping.storeRun pop (popping.x 2#6) 8 (((List.range 64).map fun n => (popping.x 2#6 + BitVec.ofNat 64 n).toNat).zip record) 8 64
    {})).map (·.1)).getD popping

theorem record_ready : ended (popping.storeReady pop (popping.x 2#6) 64) = some (popping, ()) := by decide +kernel
theorem record_stored :
    ended (popping.storeRun pop (popping.x 2#6) 8 (((List.range 64).map fun n => (popping.x 2#6 + BitVec.ofNat 64 n).toNat).zip record) 8 64 {}) =
      some (stored, ()) := by
  decide +kernel
theorem stored_keeps : stored.squeue 0 = queue ∧ stored.cur = popping.cur := by decide +kernel
/-- Is a refill of queue 0 under way after the instruction? -/
def refilling : Out → Bool
  | .next u => (u.squeue 0).refill
  | _ => false
theorem pop_starts_no_refill : refilling (exec pop popping) = false := by decide +kernel
theorem stated_refill : refilling (.next (done ((stored.setSQueue 0 { queue with bank := [record], head := 1, refill := true }).wvar 3#6 0#64) false 12)) = true := by
  decide +kernel

end OverfullBank

open OverfullBank

/-- Refutes O41, in its clause on QPOP: where the bank holds two records of a queue of one, none is in the ring and the pop starts no refill,
which the statement asks for whenever the two counts differ. -/
theorem not_queuesAndActors : ¬ Obligations.QueuesAndActors := by
  rintro ⟨hqueues, -⟩
  have hready : Ready popping [1, 2, 4, 3] := ⟨by decide +kernel, by decide +kernel⟩
  obtain ⟨-, -, -, -, -, hpop⟩ := hqueues popping popping stored false 3#6 1#6 2#6 4#6 record hready
  have hexec := hpop [record] (by decide +kernel) rfl (by decide +kernel) (by decide +kernel) rfl rfl rfl stored_keeps.1 stored_keeps.2
    (ended_some record_ready) (ended_some record_stored)
  have hrefill := congrArg refilling hexec
  rw [show exec (.qpop false 3#6 1#6 2#6 4#6) popping = exec pop popping from rfl, pop_starts_no_refill] at hrefill
  exact absurd (hrefill.trans stated_refill) (by decide)

end Sys2Proof.Proofs
end

section
/-! Messages (R309 to R319). -/
set_option Elab.async false
open Sys2Proof Sys2Proof.Spec
namespace Sys2Proof.Machine

/-- An instruction that the firing issues and whose body raises a program cause before any effect. -/
theorem issue_traps {m : Bool} {len : Nat} {i : Instr} {regs named : List Nat} {body : State → Res} {s : State} {t : Trap} (h : Ready s named)
    (hsub : ∀ n ∈ regs, n ∈ named) (htakes : TakesTrap s s.turn s.fi) (hbody : body s = .trap s t) (hc : t.cause < 0x80) :
    issue m len i regs body s = .next (trapState s t s.cur.pc) := by
  rw [issue_ready h hsub, hbody]
  exact congrArg _ (raise_handler htakes hc)
theorem x_of_cur {s s' : State} (h : s'.cur = s.cur) (n : BitVec 6) : s'.x n = s.x n := by
  rw [State.x, h]
  rfl
theorem x_setCore_mine {s : State} {c : Core} (h : c.issuing = s.myCore.issuing) (n : BitVec 6) : (s.setCore s.turn c).x n = s.x n :=
  x_of_cur (cur_setCore s s.turn c h) n
theorem x_awaits (s : State) (f : Core → List Nat) (n : BitVec 6) : (s.updMine fun c => { c with awaits := f c }).x n = s.x n := by
  rw [updMine_eq]
  refine x_setCore_mine ?_ n
  rfl
theorem updMine_updMine (s : State) (f g : Core → Core) : (s.updMine f).updMine g = s.updMine fun c => g (f c) := by
  simp only [updMine_eq, setCore_turn, myCore_setCore, setCore_setCore]

/-! ### The captured payload (R313) -/

theorem loadRun_nil {s s' : State} {i : Instr} {ea : Word} {al len kind : Nat} {sp : Straddle} {rd : State → Nat → BitVec 8} {l : List (BitVec 8)}
    (h : s.loadRun i ea [] al len kind sp rd = .got s' l) : s' = s ∧ l = [] := by
  have hps {ps : List (Nat × Place)} (hchecks : s.runChecks i ea [] al len sp needR = .inr ps) : ps = [] := by
    rw [State.runChecks] at hchecks
    repeat' split at hchecks
    all_goals cases hchecks
    rfl
  rw [State.loadRun] at h
  repeat' split at h
  all_goals cases h
  rename _ = Sum.inr _ => hchecks
  exact ⟨rfl, by rw [hps hchecks]; rfl⟩
theorem capture_reads {s s' : State} {i : Instr} {ea : Word} {n : Nat} (mark : Nat) {sp : Straddle} {l : List (BitVec 8)} (hsaved : s.cur.saved = [])
    (h : s.loadRun i ea ((List.range n).map fun b => (ea + wd b).toNat) 8 n 0 sp State.byteNow = .got s' l) :
    s.capture i ea n mark sp = .got s' l := by
  rw [State.capture, hsaved]
  cases n with
  | zero => obtain ⟨rfl, rfl⟩ := loadRun_nil h; rfl
  | succ n => exact h

/-! ### SEND and SENDR -/

section
variable {s s' : State} {named : List Nat} {m : Bool} {d a b : BitVec 6} {rlx tr rply : Bool} {rtag tag : BitVec 6} {len : BitVec 32} {l : List (BitVec 8)}
  (hready : Ready s named) (hsub : ∀ n ∈ [rX a, rX b, rX d], n ∈ named)
include hready hsub
theorem send_badDestination (hdst : (s.x a).toNat ≥ 4608) : exec (.send m d a b rlx tr rply rtag tag len) s = .next (done (s.wvar d 1#64) m 12) := by
  rw [exec_send, execSend]
  exact issue_ok hready hsub (if_pos hdst)
theorem send_badTag (hdst : (s.x a).toNat < 4608) (htag : tag.toNat ≥ 60 ∨ rply = true ∧ (s.myCore.tag rtag.toNat).kind ≠ .affine) :
    exec (.send m d a b rlx tr rply rtag tag len) s = .next (done (s.wvar d 2#64) m 12) := by
  have hbad : (decide (tag.toNat ≥ 60) || (rply && !s.myCore.affine rtag.toNat)) = true := by simpa [Core.affine] using htag
  rw [exec_send, execSend]
  exact issue_ok hready hsub ((if_neg (Nat.not_le.mpr hdst)).trans (if_pos hbad))
/-- The request behind those in the outbox, its reply awaited where one is asked for. -/
theorem send_enters (hcur : s'.cur = s.cur) (hturn : s'.turn = s.turn) (hdst : (s.x a).toNat < 4608) (htag : tag.toNat < 60)
    (hreply : rply = true → (s.myCore.tag rtag.toNat).kind = .affine ∧ s.myCore.replySlots < 8) (hsaved : s.cur.saved = []) (hload : s.loadWait = false)
    (hread : s.capture (.send m d a b rlx tr rply rtag tag len) (s.x b) len.toNat 20 { phys := true } = .got s' l)
    (hroom : s.myCore.outbox.length < s.myCore.obuflim) (hrel : (!rlx && s'.relWaits true 0xFFFF) = false) :
    let g : Msg := { ctx := s.myCore.ctxid, dst := (s.x a).toNat, src := s.turn, rply := rply, tag := tag.toNat, rtag := if rply then rtag.toNat else 0,
                     payload := l }
    exec (.send m d a b rlx tr rply rtag tag len) s = .next (done ((s'.updMine fun v => { v with
      outbox := v.outbox ++ [(⟨g, false⟩ : OutE)], awaits := if rply then v.awaits ++ [rtag.toNat] else v.awaits }).wvar d 0#64) m 12) := by
  have hgood : (decide (tag.toNat ≥ 60) || (rply && !s.myCore.affine rtag.toNat)) = false := by
    cases rply <;> simp_all [Core.affine]
  have hslots : (rply && decide (s.myCore.replySlots ≥ 8)) = false := by
    cases rply <;> simp_all
  have hheld : decide (s.cur.saved.headD 0 = savResv) = false := by rw [hsaved]; rfl
  rw [exec_send, execSend]
  refine issue_ok hready hsub ?_
  simp only [State.xn, Nat.not_le.mpr hdst, hgood, hload, hheld, hread, Got.res, Bool.not_false, Bool.true_and, Bool.and_true, hrel, hslots,
    Nat.not_le.mpr hroom, decide_false, Bool.false_and, Bool.false_eq_true, if_false]
  cases rply with
  | false =>
    simp only [Bool.false_eq_true, if_false, hturn, x_of_cur hcur]
  | true =>
    simp only [if_true, x_awaits, x_of_cur hcur, updMine_updMine]
    rw [show (s'.updMine _).turn = s.turn from hturn]
end

section
variable {s s' : State} {named : List Nat} {m : Bool} {d b : BitVec 6} {rlx : Bool} {len : BitVec 32} {l : List (BitVec 8)}
  (hready : Ready s named) (hsub : ∀ n ∈ [rX b, rX d], n ∈ named)
include hready hsub
theorem sendr_nothingOwed (howes : s.cur.owes = none) : exec (.sendr m d b rlx len) s = .next (done (s.wvar d 5#64) m 12) := by
  rw [exec_sendr, execSendr]
  exact issue_ok hready hsub (by simp only [howes])
theorem sendr_replies {src rt : Nat} (hcore : s'.myCore = s.myCore) (hturn : s'.turn = s.turn) (howes : s.cur.owes = some (src, rt)) (hload : s.loadWait = false)
    (hread : s.capture (.sendr m d b rlx len) (s.x b) len.toNat 21 { phys := true } = .got s' l) (hroom : s.myCore.outbox.length < 16)
    (hrel : (!rlx && s'.relWaits true 0xFFFF) = false) :
    let r : Msg := { ctx := s.myCore.ctxid, dst := src, src := s.turn, reply := true, tag := rt, payload := l }
    exec (.sendr m d b rlx len) s = .next (done (({ s' with replies := s'.replies ++ [r] }.updCur fun f => { f with owes := none }).wvar d 0#64) m 12) := by
  rw [exec_sendr, execSendr]
  exact issue_ok hready hsub (by
    simp only [howes, hload, hread, Got.res, hrel, hcore, hturn, Nat.not_le.mpr hroom, Bool.false_eq_true, if_false])
end

/-! ### Replay (R317) -/

section
variable {s : State} {named : List Nat} {m : Bool} {d b c : BitVec 6} (hready : Ready s named) (hsub : ∀ n ∈ [rX b, rX c, rX d], n ∈ named)
include hready hsub
theorem sendReplay_notBivouac (hsrc : s.cur.src ≠ .bivouac) : exec (.sendReplay m d b c) s = .next (done (s.wvar d 4#64) m 12) := by
  rw [exec_sendReplay, execSendReplay]
  exact issue_ok hready hsub (if_pos hsrc)
theorem sendReplay_noSlot (hsrc : s.cur.src = .bivouac) (hsaved : s.cur.saved = []) (hslot : s.heapSlot s.turn (s.x b) = none) :
    exec (.sendReplay m d b c) s = .next (done (s.wvar d 6#64) m 12) := by
  rw [exec_sendReplay, execSendReplay]
  exact issue_ok hready hsub (by simp only [hsrc, hsaved, hslot, ne_eq, not_true_eq_false, if_false])
theorem sendReplay_enters {n j : Nat} (hsrc : s.cur.src = .bivouac) (hsaved : s.cur.saved = []) (hslot : s.heapSlot s.turn (s.x b) = some n)
    (hfree : s.myCore.freeSlot 0 24 = some j) :
    exec (.sendReplay m d b c) s = .next (done ((s.updMine fun v => v.inboxPut j (s.heapMsg s.turn n)).wvar d 0#64) m 12) := by
  rw [exec_sendReplay, execSendReplay]
  exact issue_ok hready hsub (by simp only [hsrc, hsaved, hslot, hfree, ne_eq, not_true_eq_false, if_false])
end

/-! ### MSGLD and MSGFREE (R318, R319) -/

theorem msgWord_eq (g : Msg) (o : Nat) : msgWord g o =
    if o = 0x100 then BitVec.ofNat 64 (g.ctx * 2 ^ 48 + g.dst * 2 ^ 32 + g.src * 2 ^ 16 + (if g.auto then 2 ^ 8 else 0) +
      (if g.reply then 2 ^ 7 else 0) + (if g.rply then 2 ^ 6 else 0) + g.tag)
    else if o = 0x108 then BitVec.ofNat 64 (g.rtag * 2 ^ 16 + g.payload.length)
    else if o = 0x110 then 1#64
    else if o ≤ 248 then BitVec.ofNat 64 (ofBytes ((g.payload.drop o).take 8)) else 0#64 := by
  have hflag (b : Bool) (v : Nat) : b2n b * v = if b then v else 0 := by cases b <;> simp [b2n]
  rw [msgWord, Msg.hdr0, hflag, hflag, hflag]
  rfl

section
variable {s : State} {named : List Nat} {m : Bool} {d a : BitVec 6} (hready : Ready s named) (hsub : ∀ n ∈ [rX a, rX d], n ∈ named)
include hready hsub
theorem msgld_gives {w : Word} (halign : (s.x a).toNat % 8 = 0) (hw : (match s.cur.msg with | some g => msgWord g (s.xn a) | none => 0#64) = w) :
    exec (.msgld m d a) s = .next (done (s.wvar d w) m 4) := by
  rw [exec_msgld, execMsgld, ← hw]
  exact issue_ok hready hsub (if_neg (not_not.mpr halign))
theorem msgld_unaligned (htakes : TakesTrap s s.turn s.fi) (halign : (s.x a).toNat % 8 ≠ 0) :
    exec (.msgld m d a) s = .next (trapState s ⟨3, s.x a, w0 (.msgld m d a), 0#64⟩ s.cur.pc) := by
  rw [exec_msgld, execMsgld]
  exact issue_traps hready hsub htakes (if_pos halign) (show 3 < 0x80 by decide)
end
theorem msgfree_none {s : State} {named : List Nat} {m : Bool} (hready : Ready s named) (hmsg : s.cur.msg = none) : exec (.msgfree m) s = .next (done s m 4) := by
  rw [exec_msgfree, execMsgfree]
  exact issue_ok hready (by simp) (by simp only [hmsg])
theorem msgfree_frees {s : State} {named : List Nat} {m : Bool} {g : Msg} {k : Nat} (hready : Ready s named) (hmsg : s.cur.msg = some g)
    (hslot : s.cur.slot = some k) : exec (.msgfree m) s = .next (done
      ((s.updMine fun v => { v with inbox := v.inbox.del k }).updCur fun r => { r with msg := none, slot := none }) m 4) := by
  rw [exec_msgfree, execMsgfree]
  exact issue_ok hready (by simp) (by simp only [hmsg, hslot])
end Sys2Proof.Machine
end

section
/-! The statement on messages. -/
set_option Elab.async false
open Sys2Proof Sys2Proof.Machine Sys2Proof.Spec
namespace Sys2Proof.Proofs

theorem sendAndReply_holds : sendAndReply := by
  intro s s' m d a b rlx tr rply rtag tag len l src rt hready hcur hcore hturn hreplies c i j reads g r
  have hda : ∀ n ∈ [rX a, rX b, rX d], n ∈ [a.toNat, b.toNat, d.toNat] := by simp [rX]
  have hdb : ∀ n ∈ [rX b, rX d], n ∈ [a.toNat, b.toNat, d.toNat] := by simp [rX]
  have hwaits (h : rlx = false → s'.relWaits true 0xFFFF = false) : (!rlx && s'.relWaits true 0xFFFF) = false := by
    cases rlx with
    | true => rfl
    | false => exact h rfl
  refine ⟨send_badDestination hready hda, fun hdst htag => send_badTag hready hda hdst (.inl htag),
    fun hdst _ hrply hkind => send_badTag hready hda hdst (.inr ⟨hrply, hkind⟩),
    fun hdst htag hreply ⟨hsaved, hload, hread⟩ hroom hrel =>
      send_enters hready hda hcur hturn hdst htag hreply hsaved hload (capture_reads 20 hsaved hread) hroom (hwaits hrel),
    sendr_nothingOwed hready hdb, fun howes ⟨hsaved, hload, hread⟩ hroom hrel => ?_⟩
  rw [← hreplies]
  exact sendr_replies hready hdb hcore hturn howes hload (capture_reads 21 hsaved hread) hroom (hwaits hrel)
theorem messageReading_holds : messageReading := by
  intro s m d a b c n j hready o word
  have hbcd : ∀ n ∈ [rX b, rX c, rX d], n ∈ [a.toNat, b.toNat, c.toNat, d.toNat] := by simp [rX]
  have had : ∀ n ∈ [rX a, rX d], n ∈ [a.toNat, b.toNat, c.toNat, d.toNat] := by simp [rX]
  refine ⟨sendReplay_notBivouac hready hbcd, sendReplay_noSlot hready hbcd, fun hsrc hsaved hslot _ hfree => sendReplay_enters hready hbcd hsrc hsaved hslot hfree,
    fun halign => ⟨fun g hmsg => msgld_gives hready had halign ?_, fun hmsg => msgld_gives hready had halign (by rw [hmsg])⟩,
    fun halign htakes => msgld_unaligned hready had htakes halign, msgfree_none hready, fun _ _ => msgfree_frees hready⟩
  rw [hmsg]
  exact msgWord_eq g o
/-- Settles O38: each of the six instructions case by case; the payload is read once, and of no bytes nothing is read. -/
theorem messages : Obligations.Messages := ⟨sendAndReply_holds, messageReading_holds⟩
end Sys2Proof.Proofs
end

section
/-! A KQRY that has read its header and waits: the counterexample to the statement on bad headers (R331, R343). The statement asks for
BADDESC whenever the header reads as bad, also where the instruction has read it before. -/
set_option Elab.async false
open Sys2Proof Sys2Proof.Machine Sys2Proof.Spec
namespace Sys2Proof.Proofs
namespace WaitingQuery

/-- The space whose header was read: rows of 64 bytes, query tag 1, its area and slots in the first granule of the scratchpad. -/
def space : Kv := { kvd := BitVec.ofNat 64 selfBase, d := 64, qtag := 1, nslot := 1, satdef := 0, cairn := 0x40, slots := 0x1080 }
/-- One query for core 5 waits for a free entry of the outbox; meanwhile the header has been cleared. -/
def waiting : State :=
  ({ State.reset with cores := ({} : Tab Core).put 0 { partw := 0x200000000#64, obuflim := 16 } }.wfix 1#6 space.kvd).updCur fun r =>
    { r with saved := 25 :: 0 :: space.pack ++ [5] }
def query : Instr := .kqry false 3#6 1#6 2#6 4#6 5#6 1#6 0#4
def header : Got (List (BitVec 8)) :=
  waiting.loadRun query (waiting.x 1#6) ((List.range 64).map ((waiting.x 1#6).toNat + ·)) 64 64 0 {} State.byteNow
/-- The state with the header read once more. -/
def reread : State := ((ended header).map (·.1)).getD waiting
theorem header_is_zero : ended header = some (reread, List.replicate 64 0#8) := by decide +kernel
theorem zero_header_is_bad : kvBad reread.myCore (List.replicate 64 0#8) (kvOf (waiting.x 1#6) (List.replicate 64 0#8)) = true := by decide +kernel
/-- X[3] after the instruction. -/
def result : Out → Word
  | .next u => u.x 3#6
  | _ => 0#64
theorem query_goes_on : result (exec query waiting) = 256#64 := by decide +kernel
theorem stated_result : result (.next (done (reread.wvar 3#6 8#64) false 12)) = 8#64 := by decide +kernel

end WaitingQuery

open WaitingQuery

/-- Refutes O45, in its clause that a bad header gives BADDESC: KQRY reads its header once, so one that waits for the outbox sends its
query and gives the number sent, whatever has become of the header. -/
theorem not_keyValueSpaces : ¬ Obligations.KeyValueSpaces := by
  intro h
  have hready : Ready waiting [1, 2, 5, 4, 3] := ⟨by decide +kernel, by decide +kernel⟩
  obtain ⟨-, -, hbad, -⟩ := h waiting reread false 3#6 1#6 2#6 4#6 5#6 1#6 0#4 0#4 space 0 0 hready
  have hexec := congrArg result (hbad ⟨_, ended_some header_is_zero, zero_header_is_bad⟩)
  rw [show exec (.kqry false 3#6 1#6 2#6 4#6 5#6 1#6 0#4) waiting = exec query waiting from rfl, query_goes_on] at hexec
  exact absurd (hexec.trans stated_result) (by decide)

end Sys2Proof.Proofs
end

section
/-! A free list whose stack lies in the self window: the counterexample to the statement on the free list (R335, R336). The statement asks
for an entry of the die's last level, where a unit does not look one up for an address of the self window (log 123). -/
set_option Elab.async false
open Sys2Proof Sys2Proof.Machine Sys2Proof.Spec
namespace Sys2Proof.Proofs
namespace SelfWindowStack

/-- Two pages on the list; the readable page at the start of the self window is the first of main memory of die 0. -/
def listed : State :=
  { State.reset with
    cores := ({} : Tab Core).put 0 { ctxid := 1 }
    dies := ({} : Tab Die).put 0
      { fl := { stack := BitVec.ofNat 64 selfBase, enable := true, ctx := 1, cap := 4, top := 2 }
        tlb := [{ ctx := 1, va := selfBase, w := 0x7000000000000C00#64 }] } }
def pop : Instr := .flpop false 3#6 1#6
def entry : TlbEnt := { ctx := 1, va := selfBase, w := 0x7000000000000C00#64 }

/-- `UnitAt`, from a check of each place. -/
theorem unitAt_of_all {s : State} {d ctx : Nat} {as pas : List Nat} {e : TlbEnt} (hlen : as.length = pas.length)
    (h : ∀ j < as.length, as.getD j 0 < 2 ^ 56 ∧ s.isOwn (pas.getD j 0) = true ∧ regionOf (pas.getD j 0) = .main 0 ∧ s.poisonedAt (pas.getD j 0) 1 = false ∧
      findEnt (s.die d).tlb ctx (as.getD j 0) = some e ∧ fld e.w 62 1 = 1 ∧ entRdup e.w = false ∧ e.pa (as.getD j 0) = pas.getD j 0) :
    UnitAt s d ctx false as pas := by
  refine ⟨hlen, fun j hj => ?_⟩
  obtain ⟨hva, hown, hmain, hpoison, hfind, hreadable, hplain, hpa⟩ := h j hj
  exact ⟨hva, hown, ⟨0, hmain⟩, fun _ => hpoison, fun hwr => (nomatch hwr), e, hfind, hreadable, hplain, hpa⟩
theorem stack_entry_translated : UnitAt listed 0 1 false (run ((BitVec.ofNat 64 selfBase).toNat + 4 * (2 - 1)) 4) (run 4 4) :=
  unitAt_of_all (e := entry) rfl (by decide +kernel)
/-- Pages on the list of die 0 after the instruction. -/
def top : Out → Option Nat
  | .next u => some (u.die 0).fl.top
  | _ => none
theorem pop_takes_nothing : top (exec pop listed) = some 2 := by decide +kernel
theorem die_done (u : State) (d : BitVec 6) (w : Word) (len : Nat) : (done (u.wvar d w) false len).die 0 = u.die 0 := rfl

end SelfWindowStack

open SelfWindowStack

/-- Refutes O46, in its clause on FLPOP: an entry of the last level for an address of the self window serves no unit, so the pop gives
MEMFAULT and takes no page. -/
theorem not_freeListsAndLantern : ¬ Obligations.FreeListsAndLantern := by
  rintro ⟨hlist, -⟩
  have hready : Ready listed [1, 2, 3] := ⟨by decide +kernel, by decide +kernel⟩
  obtain ⟨-, -, -, -, hpop, -⟩ := hlist listed false 3#6 1#6 2#6 hready (by decide +kernel)
  obtain ⟨u, hexec, -, -, hfl⟩ := hpop (run 4 4) ⟨by decide +kernel, by decide +kernel, by decide +kernel⟩ (by decide +kernel) stack_entry_translated
  have htop := congrArg top hexec
  rw [show exec (.flpop false 3#6 1#6) listed = exec pop listed from rfl, pop_takes_nothing, top, die_done,
    show (u.die 0).fl.top = 1 from congrArg FreeList.top hfl] at htop
  exact absurd htop (by decide)

end Sys2Proof.Proofs
end

section
/-! A firing whose VLOOP left a trap that is not among the deferred ones: the counterexample to the statements on the missing right (R127,
R156). They ask that nothing is deferred, where the model delivers what the VLOOP left by the record of the VLOOP. -/
set_option Elab.async false
open Sys2Proof Sys2Proof.Machine Sys2Proof.Spec
namespace Sys2Proof.Proofs
namespace BodyTrap

/-- A firing without rights, its handler at 0x1000, and a FORMAT trap of a VLOOP of its group to be delivered. -/
def looped : State :=
  { State.reset with cores := ({} : Tab Core).put 0 { ctxid := 1, tvec := 0x1000#64 } }.updCur fun r => { r with body := some ⟨8, 0#64, 0#64, 0#64⟩ }
theorem looped_core : isTsc looped.turn = false ∧ looped.cur.deferred = [] ∧ looped.myCore.capw = 0#64 := by decide +kernel
theorem looped_ready (regs : List Nat) : Ready looped regs := by
  have hframe : looped.cur.now = false ∧ looped.cur.out = [] ∧ looped.cur.seq = [] := by decide +kernel
  obtain ⟨hnow, hout, hseq⟩ := hframe
  refine ⟨hnow, fun n _ => .inr ?_⟩
  rw [hout, hseq]
  exact ⟨List.not_mem_nil, List.not_mem_nil⟩

/-- The firing is in its handler after the instruction. -/
def handling : Out → Bool
  | .next u => (u.fr 0 0).handler
  | _ => false
/-- The firing stopped with the missing right. -/
def stopped (i : Instr) : State := looped.stopFiring looped.turn looped.fi ⟨0x80, (firstWord i).zeroExtend 64, 0#64, 0#64⟩

def tlbw : Instr := .tlbw false 3#6 1#6 2#6 4#6 5#6
theorem tlbw_enters_handler : handling (exec tlbw looped) = true ∧ handling (.next (stopped tlbw)) = false := by decide +kernel
def flowOpen : Instr := .flowOpen false 3#6 1#6 2#6
theorem flowOpen_enters_handler : handling (exec flowOpen looped) = true ∧ handling (.next (stopped flowOpen)) = false := by decide +kernel
theorem not_stopped {i : Instr} (h : handling (exec i looped) = true ∧ handling (.next (stopped i)) = false) : exec i looped ≠ .next (stopped i) := by
  intro heq
  obtain ⟨hhandling, hstopped⟩ := h
  rw [heq, hstopped] at hhandling
  cases hhandling

end BodyTrap

open BodyTrap

/-- Refutes O47, in its clause on PRIV: a TLBW in a core whose VLOOP has left a trap delivers that trap, and the firing goes on in its handler. -/
theorem not_translationAndRights : ¬ Obligations.TranslationAndRights := by
  intro h
  obtain ⟨hcore, hdeferred, -⟩ := looped_core
  obtain ⟨hpriv, -⟩ := h looped false 3#6 1#6 2#6 4#6 5#6 (looped_ready _)
  exact not_stopped tlbw_enters_handler (hpriv hcore hdeferred).1

/-- Refutes O48, in its clause on PRIV: a FLOWOPEN without the right delivers the trap that a VLOOP has left, and the firing goes on in its handler. -/
theorem not_flowsAndGroups : ¬ Obligations.FlowsAndGroups := by
  intro h
  obtain ⟨hcore, hdeferred, hcapw⟩ := looped_core
  obtain ⟨hpriv, -⟩ := h looped false 3#6 1#6 2#6 4#6 5#6 (looped_ready _)
  exact not_stopped flowOpen_enters_handler (hpriv hcore hdeferred (by rw [hcapw]; decide))

end Sys2Proof.Proofs
end

section
/-! The link layer and the forming and ending of groups (R416 to R418, R427 to R433). -/
set_option Elab.async false
open Sys2Proof Sys2Proof.Spec
namespace Sys2Proof.Machine

/-! ### The link layer -/

/-- The number of the flit the receiver takes next. -/
def Port.want (p : Port) : Nat := match p.lastRx with | some r => (r + 1) % 4096 | none => 0
section
variable {s : State} {die port : Nat} {num : BitVec 12}
theorem linkFlitReceive_drops {ok : Bool} (h : num.toNat ≠ (s.port (portNo die port)).want) : Acts (.linkFlitReceive die port num ok) s s := by
  refine acts_of_unitAct (exec_linkFlitReceive ..) (if_pos ?_)
  show (_ || decide (num.toNat ≠ (s.port (portNo die port)).want)) = true
  rw [decide_eq_true h, Bool.or_true]
theorem linkAckReceive_unknown {report : Bool} (h : num.toNat ∉ (s.port (portNo die port)).replay) : Acts (.linkAckReceive die port num report) s s :=
  acts_of_unitAct (exec_linkAckReceive ..) (if_pos (by
    rw [show (s.port (portNo die port)).replay.contains num.toNat = false from by simpa using h]
    simp only [Bool.not_false, Bool.or_true, Bool.true_or]))
theorem portRetrainDone_idle {lanes : BitVec 16} (h : (s.port (portNo die port)).training = false) : Acts (.portRetrainDone die port lanes) s s :=
  acts_of_unitAct (exec_portRetrainDone ..) (if_pos (by simp only [h, Bool.not_false, Bool.or_true]))
variable (hdie : die < 6)
include hdie
/-- The number is the next one, and the link is up. -/
theorem linkFlitReceive_next {ok : Bool} (hwidth : (s.port (portNo die port)).width ≠ 0) (htrain : (s.port (portNo die port)).training = false)
    (h : num.toNat = (s.port (portNo die port)).want) :
    Acts (.linkFlitReceive die port num ok) s
      (if ok then s.setPort (portNo die port) { s.port (portNo die port) with lastRx := some (s.port (portNo die port)).want, crcFails := 0 }
      else if (s.port (portNo die port)).crcFails ≥ 1 then s.train (portNo die port)
      else s.setPort (portNo die port) { s.port (portNo die port) with crcFails := 1 }) := by
  refine acts_of_unitAct (exec_linkFlitReceive ..) (if_neg ?_)
  show ¬(_ || _ || _ || decide (num.toNat ≠ (s.port (portNo die port)).want)) = true
  simp only [Nat.not_le.mpr hdie, hwidth, htrain, h, ne_eq, not_true_eq_false, decide_false, Bool.or_self, Bool.false_eq_true, not_false_eq_true]
theorem laneLockLoss_trains (hwidth : (s.port (portNo die port)).width ≠ 0) : Acts (.laneLockLoss die port) s (s.train (portNo die port)) :=
  acts_of_unitAct (exec_laneLockLoss ..) (if_neg (by simp only [Nat.not_le.mpr hdie, hwidth, decide_false, Bool.or_self, Bool.false_eq_true, not_false_eq_true]))
/-- The oldest flit of the buffer is acknowledged. -/
theorem linkAckReceive_oldest {report : Bool} {l : List Nat} (h : (s.port (portNo die port)).replay = num.toNat :: l)
    (hgo : (s.port (portNo die port)).training = false ∨ report = true) :
    Acts (.linkAckReceive die port num report) s (s.setPort (portNo die port) { s.port (portNo die port) with replay := l }.fill) := by
  have hblocked : ((s.port (portNo die port)).training && !report) = false := by rcases hgo with h | h <;> simp [h]
  refine acts_of_unitAct (exec_linkAckReceive ..) ?_
  simp only [Nat.not_le.mpr hdie, h, hblocked, List.contains_cons, BEq.rfl, Bool.true_or, Bool.not_true, decide_false, Bool.or_self, Bool.false_eq_true, if_false,
    List.findIdx_cons, decide_true, cond_true, Nat.zero_add, List.drop_succ_cons, List.drop_zero]
section
variable {lanes : BitVec 16} (htrain : (s.port (portNo die port)).training = true)
include htrain
/-- The port has the width it had. -/
theorem portRetrainDone_same (hlanes : laneWidth lanes = (s.port (portNo die port)).width) (hwidth : laneWidth lanes ≠ 0) :
    Acts (.portRetrainDone die port lanes) s (s.setPort (portNo die port) { s.port (portNo die port) with width := laneWidth lanes, training := false }) := by
  refine acts_of_unitAct (exec_portRetrainDone ..) ?_
  simp only [Nat.not_le.mpr hdie, htrain, hlanes, hlanes ▸ hwidth, Bool.not_true, decide_false, Bool.or_self, Bool.false_eq_true, if_false, if_true]
/-- The port is narrower than it was. -/
theorem portRetrainDone_narrows (hlanes : laneWidth lanes ≠ (s.port (portNo die port)).width) (hwidth : laneWidth lanes ≠ 0) (hold : (s.port (portNo die port)).width ≠ 0)
    (hnarrow : laneWidth lanes ≠ 1) :
    Acts (.portRetrainDone die port lanes) s ((s.setPort (portNo die port) { s.port (portNo die port) with width := laneWidth lanes, training := false }).post die 4
      (port % 3) 0x0604 (portNo die port + laneWidth lanes * 2 ^ 8)) := by
  refine acts_of_unitAct (exec_portRetrainDone ..) ?_
  simp only [Nat.not_le.mpr hdie, htrain, hwidth, hlanes, hold, hnarrow, Bool.not_true, ne_eq, not_false_eq_true, decide_false, decide_true, Bool.or_self,
    Bool.and_self, Bool.false_eq_true, if_false, if_true]
/-- No lane holds: the port is down, and its traffic goes elsewhere. -/
theorem portRetrainDone_down (hlanes : laneWidth lanes = 0) :
    Acts (.portRetrainDone die port lanes) s ((((s.setPort (portNo die port) { s.port (portNo die port) with width := 0, training := false, replay := [], waitTx := 0
      }).post die 4 (port % 3) 0x0605 (portNo die port)).flits (portNo die port)
        ((s.port (portNo die port)).replay.length + (s.port (portNo die port)).waitTx)).linksDown) := by
  refine acts_of_unitAct (exec_portRetrainDone ..) ?_
  simp only [Nat.not_le.mpr hdie, htrain, hlanes, Bool.not_true, decide_false, Bool.or_self, Bool.false_eq_true, if_false, if_true]
end
end
theorem retrain_up {s : State} {die : Nat} {mask : BitVec 3} (hdie : die < 6) (hmain : s.main = true) : exec (.retrain die mask) s = .next (s.retrain die mask) := by
  rw [exec_retrain, execRetrain, unitAct_up hmain, if_pos hdie]
theorem retrain_none (s : State) (die : Nat) : s.retrain die 0#3 = s := rfl
theorem retrain_first {s : State} (die : Nat) (hmain : s.main = true) : s.retrain die 1#3 = s.train (3 * die) := by
  have hfirst : ((1#3).getLsbD 0 && s.main) = true := by rw [hmain]; rfl
  have hothers (u : State) : ((1#3).getLsbD 1 && u.main) = false ∧ ((1#3).getLsbD 2 && u.main) = false := ⟨rfl, rfl⟩
  simp only [State.retrain, List.range, List.range.loop, List.foldl_cons, List.foldl_nil, hfirst, (hothers _).1, (hothers _).2, if_true, Bool.false_eq_true, if_false]
  rfl

/-! ### Groups -/

theorem unitWr_groups (s : State) (pa n v : Nat) : (s.unitWr pa n v).groups = s.groups := by
  obtain ⟨M, P, h⟩ := unitStore_fields s pa (bytesOf n v)
  rw [State.unitWr, h]
/-- An event leaves the groups as they are. -/
@[simp] theorem post_groups (s : State) (d cls idx kind body : Nat) : (s.post d cls idx kind body).groups = s.groups := by
  simp only [State.post, updDie_eq, setDie_groups]
  split
  · rfl
  · rw [unitWr_groups, unitWr_groups]
theorem formed_group (s : State) (g inc : Nat) :
    (s.formed g inc).group g = { s.group g with state := 2, inc := inc, reason := 0, dropped := 0, joins := [], posted := false } := by
  show (State.post _ 0 3 0 0x0609 (g + inc * 2 ^ 16)).groups.get g {} = _
  rw [post_groups]
  exact Tab.get_put_self ..
theorem groupEnd_group {s : State} {g : Nat} (reason : Nat) (h : (s.group g).state = 2) :
    (s.groupEnd g reason).group g = { s.group g with state := 3, reason := reason, joins := [] } := by
  have hlive : ((s.group g).state = 3 || (s.group g).state = 0) = false := by rw [h]; rfl
  rw [State.groupEnd, if_neg (by rw [hlive]; decide)]
  show (State.post _ 0 3 0 0x0607 (g + reason * 2 ^ 8 + (s.group g).inc * 2 ^ 16)).groups.get g {} = _
  rw [post_groups]
  exact Tab.get_put_self ..
theorem groupAbort_formed {s : State} {g : Nat} (reason : Nat) (h : (s.group g).state = 2) :
    s.groupAbort g reason = (s.groupEnd g reason).tellOthers (s.group g) := if_pos h

section
variable {s : State} {g core pkgNo : Nat} {ctx prop inc : BitVec 16} {record : List (BitVec 8)} {reason : BitVec 3}
theorem groupJoinArrival_joins (hg : g < 64) (hpkg : pkgNo ≠ s.pkg) {r : List Nat} (h : (cgMembers record).map (·.map (·.2)) = some (s.pkg :: r)) :
    Acts (.groupJoinArrival g core pkgNo ctx record prop) s (s.joinArrive g ⟨core, pkgNo, ctx.toNat, record, prop.toNat⟩) := by
  refine acts_of_unitAct (exec_groupJoinArrival ..) ?_
  obtain ⟨ms, hms, hfirst⟩ := Option.map_eq_some_iff.mp h
  obtain ⟨⟨j, p⟩, l, rfl, hp, -⟩ := List.map_eq_cons_iff.mp hfirst
  obtain rfl : p = s.pkg := hp
  simp only [hms, Nat.not_le.mpr hg, hpkg, decide_false, decide_true, Bool.not_true, Bool.or_self, Bool.false_eq_true, if_false]
theorem groupJoinArrival_noRecord (h : cgMembers record = none) : Acts (.groupJoinArrival g core pkgNo ctx record prop) s s :=
  acts_of_unitAct (exec_groupJoinArrival ..) (by simp only [h, Bool.not_false, Bool.or_true, if_true])
section
variable (hg : g < 64)
include hg
theorem groupCommitArrival_forms (h : (s.group g).state = 1) : Acts (.groupCommitArrival g inc) s (s.formed g inc.toNat) :=
  acts_of_unitAct (exec_groupCommitArrival ..) ((if_neg (Nat.not_le.mpr hg)).trans (if_pos h))
theorem groupCommitArrival_late (h : (s.group g).state = 2) : Acts (.groupCommitArrival g inc) s s :=
  acts_of_unitAct (exec_groupCommitArrival ..) (by
    simp only [Nat.not_le.mpr hg, h, if_false, Nat.reduceEqDiff, decide_false, Bool.false_and, Bool.false_eq_true])
theorem groupAbortMsg_drops (h : (s.group g).inc ≠ inc.toNat) :
    Acts (.groupAbortMsg g inc reason) s (s.setGroup g { s.group g with dropped := min 0xFFFF ((s.group g).dropped + 1) }) :=
  acts_of_unitAct (exec_groupAbortMsg ..) ((if_neg (Nat.not_le.mpr hg)).trans (if_pos h))
theorem groupAbortMsg_ends (hinc : (s.group g).inc = inc.toNat) (hstate : (s.group g).state = 2) (hlo : 1 ≤ reason.toNat) (hhi : reason.toNat ≤ 4) :
    Acts (.groupAbortMsg g inc reason) s (s.groupEnd g reason.toNat) := by
  have hreason : reason ≠ 0#3 := fun h0 => by rw [h0] at hlo; exact absurd hlo (by decide)
  refine acts_of_unitAct (exec_groupAbortMsg ..) ((if_neg (Nat.not_le.mpr hg)).trans ((if_neg (not_not.mpr hinc)).trans (if_pos ?_)))
  simp only [hstate, hreason, hhi, ne_eq, not_false_eq_true, decide_true, Bool.and_self]
end
theorem cgwaitLimit_aborts {k f : Nat} (hsaved : (s.fr k f).saved = [savGroup, g, (s.group g).inc]) (h : (s.group g).state = 2) :
    Acts (.cgwaitLimit k f) s (s.groupAbort g 2) :=
  acts_of_unitAct (exec_cgwaitLimit ..) (by simp only [hsaved, h, decide_true, Bool.and_self, if_true])
theorem cgformLimit_aborts {k f n : Nat} (hsaved : (s.fr k f).saved = [savForm, g, n]) (h : (s.group g).state = 1) :
    Acts (.cgformLimit k f) s (s.groupAbort g 2) :=
  acts_of_unitAct (exec_cgformLimit ..) (by simp only [hsaved, h, decide_true, Bool.and_self, if_true])
theorem cgansCommit_commits (hposted : (s.group g).posted = true) (h : (s.group g).state = 1) :
    Acts (.cgansCommit g) s (s.commit g (maxProp ((s.group g).joins.map (·.prop)))) :=
  acts_of_unitAct (exec_cgansCommit ..) (by simp only [State.answerCommit, hposted, h, decide_true, Bool.and_self, if_true])
theorem cgansRefuse_refuses (hposted : (s.group g).posted = true) :
    Acts (.cgansRefuse g) s (s.setGroup g { s.group g with joins := [], posted := false }) :=
  acts_of_unitAct (exec_cgansRefuse ..) (if_pos hposted)
theorem cgans_unposted (h : (s.group g).posted = false) : Acts (.cgansCommit g) s s ∧ Acts (.cgansRefuse g) s s :=
  ⟨acts_of_unitAct (exec_cgansCommit ..) (by simp only [State.answerCommit, h, Bool.false_and, Bool.false_eq_true, if_false]),
    acts_of_unitAct (exec_cgansRefuse ..) (if_neg (by rw [h]; decide))⟩
end
end Sys2Proof.Machine
end

section
/-! The statement on links and groups. -/
set_option Elab.async false
open Sys2Proof Sys2Proof.Machine Sys2Proof.Spec
namespace Sys2Proof.Proofs
/-- Settles O54: each act of the link layer and of the groups, by the port or the group it names. -/
theorem linksAndGroupEvents : Obligations.LinksAndGroupEvents := by
  intro s die port g core pkgNo k f h num report inc prop reason ctx record mask hdie n p want G train
  refine ⟨fun hwidth htrain => ⟨fun hnum ok => linkFlitReceive_drops hnum, fun hnum => ⟨?_, fun hfails => ?_, fun hfails => ?_⟩⟩, laneLockLoss_trains hdie,
    linkAckReceive_unknown, fun l hreplay hwait hgo => ?_, portRetrainDone_idle, fun htrain => ⟨fun hwidth => ?_, fun hwidth => ?_, fun hwidth => ?_⟩,
    fun hmask hmain => ?_, fun hmask hmain => ?_, fun hg hpkg r hrecord => groupJoinArrival_joins hg hpkg hrecord, groupJoinArrival_noRecord,
    fun hg hstate => ⟨groupCommitArrival_forms hg hstate, ?_, ?_⟩, groupCommitArrival_late, groupAbortMsg_drops,
    fun hg hinc hstate hlo hhi => ⟨groupAbortMsg_ends hg hinc hstate hlo hhi, ?_, ?_, groupAbort_formed _ hstate⟩, cgwaitLimit_aborts, cgformLimit_aborts,
    cgansCommit_commits, cgansRefuse_refuses, cgans_unposted⟩
  · exact linkFlitReceive_next (ok := true) hdie hwidth htrain hnum
  · have hnext := linkFlitReceive_next (ok := false) hdie hwidth htrain hnum
    rwa [if_neg Bool.false_ne_true, if_neg (by rw [show (s.port (portNo die port)).crcFails = 0 from hfails]; decide)] at hnext
  · have hnext := linkFlitReceive_next (ok := false) hdie hwidth htrain hnum
    rwa [if_neg Bool.false_ne_true, if_pos (show (s.port (portNo die port)).crcFails ≥ 1 from hfails)] at hnext
  · have holdest := linkAckReceive_oldest hdie hreplay hgo
    rwa [← hwait]
  · exact portRetrainDone_same hdie htrain (lanes := 0xFFFF#16) hwidth.symm (by decide)
  · have hwas : (s.port (portNo die port)).width = 1 := hwidth
    exact portRetrainDone_narrows hdie htrain (lanes := 0x00FF#16) (by rw [hwas]; decide) (by decide) (by rw [hwas]; decide) (by decide)
  · exact portRetrainDone_down hdie htrain (lanes := 0x0001#16) (by decide)
  · rw [retrain_up hdie hmain, hmask, retrain_none]
  · rw [retrain_up hdie hmain, hmask, retrain_first die hmain]
    rfl
  · rw [formed_group]
  · rw [formed_group]
  · rw [groupEnd_group _ hstate]
  · rw [groupEnd_group _ hstate]
end Sys2Proof.Proofs
end

section
/-! Soft errors, the front end's reload and triage (R370, R396, R411 to R413). -/
set_option Elab.async false
open Sys2Proof Sys2Proof.Spec
namespace Sys2Proof.Machine

theorem unitWr_frames (s : State) (pa n v : Nat) : (s.unitWr pa n v).frames = s.frames := by
  obtain ⟨M, P, h⟩ := unitStore_fields s pa (bytesOf n v)
  rw [State.unitWr, h]
/-- An event leaves the firings as they are. -/
@[simp] theorem post_frames (s : State) (d cls idx kind body : Nat) : (s.post d cls idx kind body).frames = s.frames := by
  simp only [State.post, updDie_eq, setDie_frames]
  split
  · rfl
  · rw [unitWr_frames, unitWr_frames]
/-- What a mapped table lists, where the map keeps the default. -/
theorem get_map {α : Type} (t : Tab α) {g : Nat → α → α} {k : Nat} {d : α} (hd : g k d = d) : (t.map g).get k d = g k (t.get k d) := by
  show ((t.map g).get? k).getD d = g k ((t.get? k).getD d)
  rw [get?_map]
  cases t.get? k with
  | none => exact hd.symm
  | some _ => rfl

/-! ### Uncorrectable errors -/

/-- The state after an uncorrectable error is counted and posted. -/
def State.errorPosted (s : State) (die : Nat) (unit : BitVec 8) (addr : BitVec 56) : State :=
  (s.post die 3 0 0x0603 (errBody unit addr)).updDie die fun v => { v with uecnt := min (2 ^ 32 - 1) (v.uecnt + 1) }
theorem errorPosted_frames (s : State) (die : Nat) (unit : BitVec 8) (addr : BitVec 56) : (s.errorPosted die unit addr).frames = s.frames := by
  rw [State.errorPosted, updDie_eq, setDie_frames, post_frames]
theorem uncorrectableError_damages {s t : State} {die : Nat} {unit : BitVec 8} {addr : BitVec 56} (hdie : die < 6)
    (h : (s.errorPosted die unit addr).damage die unit.toNat addr.toNat = t) : Acts (.uncorrectableError die unit addr) s t :=
  acts_of_unitAct (exec_uncorrectableError ..) ((if_neg (Nat.not_le.mpr hdie)).trans h)
theorem damage_memory {s : State} {die unit addr d : Nat} (h : regionOf (s.here (addr % 2 ^ 40)) = .main d) (hunit : unit = unitCache ∨ unit = unitStack) :
    s.damage die unit addr = (s.poisonUnit (s.here (addr % 2 ^ 40)) (softGranule unit)).cellError (s.here (addr % 2 ^ 40)) (softGranule unit) := by
  rcases hunit with rfl | rfl <;> simp only [State.damage, h] <;> rfl
theorem damage_pool {s : State} {die addr k o : Nat} (h : regionOf (s.here (addr % 2 ^ 40)) = .sram k o) :
    s.damage die unitPool addr = s.poolError unitPool k o (s.here (addr % 2 ^ 40)) := by
  simp only [State.damage, h, if_true]
theorem damage_queue {s : State} {die addr : Nat} (h : addr < 4608) : s.damage die unitQueue addr = s.breakQ addr := if_pos h
theorem damage_slog (s : State) (die addr : Nat) : s.damage die unitSlog addr = s.slogFail (addr / 1024 % 4608) (addr % 1024) (slogFault (addr % 1024) 0) := rfl
theorem poisonUnit_poisons (s : State) (a n : Nat) : (a / n * n, n) ∈ (s.poisonUnit a n).poison := by
  rw [State.poisonUnit]
  by_cases h : s.poison.contains (a / n * n, n) = true
  · rw [if_pos h]
    simpa using h
  · rw [if_neg h]
    exact List.mem_append_right _ (List.mem_singleton_self _)

/-! ### An error in a TLB (log 111) -/

/-- The entries that do not hold an address. -/
def offAddress (addr : Nat) (l : List TlbEnt) : List TlbEnt := l.filter fun e => !(e.va ≤ addr && addr < e.va + 2 ^ pageBits e.w)
theorem mem_offAddress {addr : Nat} {l : List TlbEnt} {e : TlbEnt} (h : e ∈ offAddress addr l) (hva : e.va ≤ addr) : e.va + 2 ^ pageBits e.w ≤ addr := by
  have hoff := (List.mem_filter.mp h).2
  simp only [hva, decide_true, Bool.true_and, Bool.not_eq_true', decide_eq_false_iff_not, Nat.not_lt] at hoff
  exact hoff
section
variable (s : State) (die addr : Nat)
theorem damage_tlb_die : ((s.damage die unitTlb addr).die die).tlb = offAddress addr (s.die die).tlb := by
  show ((s.dies.put die _).get die {}).tlb = _
  rw [Tab.get_put_self]
  rfl
theorem damage_tlb_core {k : Nat} (hk : dieOf k = die) : ((s.damage die unitTlb addr).core k).tlb = offAddress addr (s.core k).tlb := by
  show ((s.cores.map _).get k {}).tlb = _
  rw [get_map _ (by split <;> rfl), if_pos hk]
  rfl
theorem damage_tlb_camp {n : Nat} (hn : n / 48 = die) : ((s.damage die unitTlb addr).camp n).tlb = offAddress addr (s.camp n).tlb := by
  show ((s.camps.map _).get n {}).tlb = _
  rw [get_map _ (by split <;> rfl), if_pos hn]
  rfl
theorem damage_tlb_mem : (s.damage die unitTlb addr).mem = s.mem := rfl
theorem damage_tlb_frames : (s.damage die unitTlb addr).frames = s.frames := rfl
end

/-! ### An error in a pool granule (R255, R413) -/

section
variable {s : State} {unit k o a : Nat} (howner : (s.core k).owner.get? (o / 4096) = none)
include howner
theorem poolError_scratch (h : pwFrames (s.core k).partw + pwAccs (s.core k).partw ≤ o / 4096) : s.poolError unit k o a = s.poisonUnit a 8 := by
  have hframes : ¬o / 4096 < pwFrames (s.core k).partw := by omega
  simp only [State.poolError, howner, Option.getD_none, hframes, Nat.not_lt.mpr h, if_true, if_false]
/-- A tile is poisoned. -/
theorem poolError_tile (hlo : pwFrames (s.core k).partw ≤ o / 4096) (hhi : o / 4096 < pwFrames (s.core k).partw + pwAccs (s.core k).partw) :
    let n := o / 4096 - pwFrames (s.core k).partw
    s.poolError unit k o a = s.updCore k fun c => { c with accPoison := if c.accPoison.contains n then c.accPoison else c.accPoison ++ [n] } := by
  simp only [State.poolError, howner, Option.getD_none, Nat.not_lt.mpr hlo, hhi, if_true, if_false]
  rfl
theorem poolError_frame (h : o / 4096 < pwFrames (s.core k).partw) (hfree : (s.fr k (o / 4096)).stat ≠ .free) (hstopped : (s.fr k (o / 4096)).stat ≠ .stopped) :
    s.poolError unit k o a = s.ticked.stopFiring k (o / 4096) ⟨0x83, wd unit, Config.freeWord s.tick, 0#64⟩ := by
  have hrun : ∀ (t : State), (match (s.ticked.fr k (o / 4096)).stat with | .free => s.ticked | .stopped => s.ticked | _ => t) = t := by
    intro t
    rw [show s.ticked.fr k (o / 4096) = s.fr k (o / 4096) from rfl]
    cases hs : (s.fr k (o / 4096)).stat with
    | free => exact absurd hs hfree
    | stopped => exact absurd hs hstopped
    | ready => rfl
    | parked => rfl
  simp only [State.poolError, howner, Option.getD_none, h, if_true]
  exact hrun _
end
theorem mem_addOnce (l : List Nat) (n : Nat) : n ∈ if l.contains n then l else l ++ [n] := by
  split
  · next h => simpa using h
  · exact List.mem_append_right _ (List.mem_singleton_self _)

/-! ### The front end and triage (R396, R436) -/

theorem frontEndError_waits {s : State} {die : Nat} (hdie : die < 6) (h : nfld (s.die die).assist 3 1 = 1) :
    Acts (.frontEndError die) s (s.updDie die fun v => { v with feDown := true }) :=
  acts_of_unitAct (exec_frontEndError ..) ((if_neg (Nat.not_le.mpr hdie)).trans (if_pos h))
theorem frontEndError_reloads {s : State} {die : Nat} (hdie : die < 6) (h : nfld (s.die die).assist 3 1 = 0) : Acts (.frontEndError die) s (s.reloadFront die) :=
  acts_of_unitAct (exec_frontEndError ..) ((if_neg (Nat.not_le.mpr hdie)).trans (if_neg (by rw [h]; decide)))
theorem reloadFront_idle {s : State} {die : Nat} (h : ∀ L ∈ s.launches, L.die ≠ die ∨ L.released = true ∨ L.ended = true) :
    s.reloadFront die = s.updDie die fun v => { v with feDown := false } := by
  have hnone : s.launches.filter (fun L => L.die = die && !L.released && !L.ended) = [] := by
    rw [List.filter_eq_nil_iff]
    intro L hL
    rcases h L hL with hd | hr | he
    · simp [hd]
    · simp [hr]
    · simp [he]
  show (s.launches.filter _).foldl _ _ = _
  rw [hnone]
  rfl
/-- What the host's word acts on is what was posted, in order. -/
def State.triaged (s : State) (die : Nat) : State :=
  (s.die die).triage.foldl (fun s e => s.actOn e.1 e.2) (s.updDie die fun v => { v with triage := [] })
theorem errorTriageWord_acts (s : State) (die : Nat) :
    Acts (.errorTriageWord die) s (if ((s.triaged die).die die).feDown then (s.triaged die).reloadFront die else s.triaged die) :=
  acts_of_unitAct (exec_errorTriageWord ..) rfl
theorem actOn_resident {s : State} {k : Nat} (f : Nat) (hk : k < 8192) (h : (s.fr k f).stat = .stopped) :
    s.actOn (savedKey (s.core k).ctxid k) f = s.actOnStop k f := by
  have hcore : savedKey (s.core k).ctxid k % 8192 = k := by unfold savedKey; omega
  have hctx : savedKey (s.core k).ctxid k / 8192 = (s.core k).ctxid := by unfold savedKey; omega
  rw [State.actOn, hcore, hctx, if_pos rfl, if_pos h]
theorem actOn_saved {s : State} {ctx k : Nat} (f : Nat) (hk : k < 8192) (h : (s.core k).ctxid ≠ ctx) : s.actOn (savedKey ctx k) f = s.actOnSaved ctx k f := by
  have hcore : savedKey ctx k % 8192 = k := by unfold savedKey; omega
  have hctx : savedKey ctx k / 8192 = ctx := by unfold savedKey; omega
  rw [State.actOn, hcore, hctx, if_neg h]
end Sys2Proof.Machine
end

section
/-! The statement on errors. -/
set_option Elab.async false
open Sys2Proof Sys2Proof.Machine Sys2Proof.Spec
namespace Sys2Proof.Proofs
/-- Settles O57: an error is counted and posted and then damages what its structure names; the front end and the host's word case by case. -/
theorem errorEvents : Obligations.ErrorEvents := by
  intro s die unit addr hdie V body posted ue a
  refine ⟨acts_of_unitAct (exec_correctedError ..) (if_neg (Nat.not_le.mpr hdie)), acts_of_unitAct (exec_patrolScrub ..) rfl,
    fun d hmain => ⟨fun hunit => ?_, fun hunit => ?_⟩, fun k o hsram hunit => ⟨?_, fun howner => ⟨poolError_scratch howner, fun hlo hhi => ?_, fun h hfree hstopped => ?_⟩⟩,
    fun hunit hup => ?_, fun hunit haddr => ?_, fun hunit => ?_, ⟨poisonUnit_poisons .., State.poisonUnit_mem ..⟩, frontEndError_waits hdie, frontEndError_reloads hdie,
    reloadFront_idle, fun h => ?_, fun h => ?_, fun k f hk htriage hstopped => ?_, fun ctx k f hk htriage hctx => ?_⟩
  · subst hunit
    exact uncorrectableError_damages hdie (damage_memory hmain (.inl rfl))
  · subst hunit
    exact uncorrectableError_damages hdie (damage_memory hmain (.inr rfl))
  · subst hunit
    exact uncorrectableError_damages hdie (damage_pool hsram)
  · rw [poolError_tile howner hlo hhi, updCore_eq]
    exact ⟨by rw [core_setCore_self]; exact mem_addOnce .., rfl, rfl⟩
  · exact ⟨_, poolError_frame howner h hfree hstopped⟩
  · subst hunit
    refine ⟨_, uncorrectableError_damages hdie rfl hup, damage_tlb_mem .., ?_, fun e he => ?_, fun k hk e he => ?_, fun n hn e he => ?_⟩
    · exact (damage_tlb_frames ..).trans (errorPosted_frames ..)
    · exact mem_offAddress ((damage_tlb_die ..).subst (motive := (e ∈ ·)) he)
    · exact mem_offAddress ((damage_tlb_core _ _ _ hk).subst (motive := (e ∈ ·)) he)
    · exact mem_offAddress ((damage_tlb_camp _ _ _ hn).subst (motive := (e ∈ ·)) he)
  · subst hunit
    exact uncorrectableError_damages hdie (damage_queue haddr)
  · subst hunit
    exact uncorrectableError_damages hdie (damage_slog ..)
  · have hacts := errorTriageWord_acts s die
    rwa [show ((s.triaged die).die die).feDown = false from h] at hacts
  · have hacts := errorTriageWord_acts s die
    rwa [show ((s.triaged die).die die).feDown = true from h] at hacts
  · have hone : s.triaged die = (s.updDie die fun v => { v with triage := [] }).actOn (savedKey (s.core k).ctxid k) f := by
      rw [State.triaged, htriage, List.foldl_cons, List.foldl_nil]
    exact hone.trans (actOn_resident f hk hstopped)
  · have hone : s.triaged die = (s.updDie die fun v => { v with triage := [] }).actOn (savedKey ctx k) f := by
      rw [State.triaged, htriage, List.foldl_cons, List.foldl_nil]
    exact hone.trans (actOn_saved f hk hctx)
end Sys2Proof.Proofs
end

section
/-! Where the write of a register page goes (R382, R393, R414, R444, R445). -/
set_option Elab.async false
open Sys2Proof Sys2Proof.Spec
namespace Sys2Proof.Machine

/-! ### Masters -/

theorem driver_isDriver {m : Nat} (h : m = 2 ^ 16 ∨ m = 2 ^ 16 + 64) : isDriver m = true := by rcases h with rfl | rfl <;> rfl
theorem driver_isFn {m : Nat} (h : m = 2 ^ 16 ∨ m = 2 ^ 16 + 64) : isFn m = true := by rcases h with rfl | rfl <;> rfl
theorem driver_not_mgmt {m : Nat} (h : m = 2 ^ 16 ∨ m = 2 ^ 16 + 64) : isMgmt m = false := by rcases h with rfl | rfl <;> rfl
theorem fn_isFn {m : Nat} (h : m / 2 ^ 16 = 1) : isFn m = true := decide_eq_true h
theorem fn_not_mgmt {m : Nat} (h : m / 2 ^ 16 = 1) : isMgmt m = false := decide_eq_false (by omega)
theorem fn_not_driver {m : Nat} (h : m % 64 ≠ 0) : isDriver m = false := by
  have hfn : fnOf m % 64 ≠ 0 := by unfold fnOf; omega
  rw [isDriver, decide_eq_false hfn, Bool.and_false]
theorem ctx_not_mgmt {m : Nat} (h : m < 256) : isMgmt m = false := decide_eq_false (by omega)
theorem ctx_not_fn {m : Nat} (h : m < 256) : isFn m = false := decide_eq_false (by omega)

/-! ### A write at offset `q` from the first page of kind `p` on die `d` -/

/-- `masterBarred`, by die, kind of page and offset. -/
def State.barredAt (s : State) (m d p q : Nat) : Bool :=
  if isMgmt m then !(d = 0 && ((p = 7 && (q = 0 || q = 0x20 || q = 0x28)) || (p = 4 && (q = 0x28 || q = 0x30))))
  else if isFn m then
    (!isDriver m && (p = 4 || (p = 7 && d = 0 && (q = 0 || q = 0x28)))) ||
      (p = 5 && q / 0x1000 < 64 && !s.fnReaches (fnOf m) (s.uq d (q / 0x1000)).ctx)
  else p = 2 || p = 3 || p = 4 || p = 6
/-- What an allowed write does, by die, kind of page and offset. -/
def State.pageAct (s : State) (m d p q : Nat) (v : Word) : State :=
  match p with
  | 1 => if q / 0x1000 < 768 then s.engineIn (768 * d + q / 0x1000) (q % 0x1000) v else s
  | 2 => if q / 0x1000 < 48 && q % 0x1000 < 1024 then s.queueWrite (768 * d + 16 * (q / 0x1000) + q % 0x1000 / 64) (q % 0x1000 % 64) v else s
  | 3 => if q / 0x1000 = 0 then s.flWrite d (q % 0x1000) v else s
  | 4 => if q / 0x1000 < 4 then s.frontWrite m d q v else s
  | 5 => if q / 0x1000 < 64 && q % 0x1000 = 0 then s.ringBell d (q / 0x1000) (fld v 0 32) (isDriver m) else s
  | 6 => if q / 0x1000 = 0 then s.recovWrite d (q % 0x1000) v else s
  | 7 => if d = 0 && q / 0x1000 = 0 && (isMgmt m || isFn m) then s.mgmtWrite m (q % 0x1000) v else s
  | _ => s
section
variable {s : State} {m d p q o : Nat} (v : Word) (ho : o = 0x40000000 * d + 0x1000000 * p + q) (hp : p < 64) (hq : q < 0x1000000)
include ho hp hq
theorem masterBarred_at (m : Nat) : s.masterBarred m o = s.barredAt m d p q := by
  have hd : o / 0x40000000 = d := by omega
  have hr : o % 0x40000000 = 0x1000000 * p + q := by omega
  have hkind : (0x1000000 * p + q) / 0x1000000 = p := by omega
  have hoff : (0x1000000 * p + q) % 0x1000000 = q := by omega
  simp only [State.masterBarred, State.barredAt, hd, hr, hkind, hoff]
theorem pageWrite_allowed (hfree : s.isFrozenM m = false) (hright : s.barredAt m d p q = false) : s.pageWrite m o v = s.pageAct m d p q v := by
  have hbarred : s.masterBarred m o = false := (masterBarred_at ho hp hq m).trans hright
  have hd : o / 0x40000000 = d := by omega
  have hr : o % 0x40000000 = 0x1000000 * p + q := by omega
  have hkind : (0x1000000 * p + q) / 0x1000000 = p := by omega
  have hoff : (0x1000000 * p + q) % 0x1000000 = q := by omega
  have hlow : (0x1000000 * p + q) % 0x1000 = q % 0x1000 := by omega
  rw [State.pageWrite, if_neg (by rw [hfree]; decide), if_neg (by rw [hbarred]; decide)]
  simp only [hd, hr, hkind, hoff, hlow]
  rfl
end
theorem pageWrite_frozen {s : State} {m : Nat} (o : Nat) (v : Word) (h : s.isFrozenM m = true) : s.pageWrite m o v = s := if_pos h
theorem pageWrite_violates {s : State} {m o : Nat} (v : Word) (hfree : s.isFrozenM m = false) (h : s.masterBarred m o = true) :
    s.pageWrite m o v = s.violation m (s.here (0xF000000000 + o)) := by
  rw [State.pageWrite, if_neg (by rw [hfree]; decide), if_pos h]

/-! ### Who may write where (R393, R445) -/

theorem barredAt_driver {s : State} {m d p q : Nat} (h : m = 2 ^ 16 ∨ m = 2 ^ 16 + 64)
    (hnotify : p = 5 → q / 0x1000 < 64 → s.fnReaches (fnOf m) (s.uq d (q / 0x1000)).ctx = true) : s.barredAt m d p q = false := by
  rw [State.barredAt, driver_not_mgmt h, driver_isFn h, driver_isDriver h]
  by_cases hp : p = 5
  · by_cases hq : q / 0x1000 < 64
    · simp [hnotify hp hq]
    · simp [hq]
  · simp [hp]
theorem masterBarred_mgmt {s : State} {m o : Nat} (h : m = 2 ^ 17) (ho : o ∉ [0x7000000, 0x7000020, 0x7000028, 0x4000028, 0x4000030]) :
    s.masterBarred m o = true := by
  subst h
  simp only [List.mem_cons, List.not_mem_nil, or_false, not_or] at ho
  simp only [State.masterBarred, show isMgmt (2 ^ 17) = true from rfl, if_true, Bool.not_eq_true', Bool.and_eq_false_imp, decide_eq_true_eq, Bool.or_eq_false_iff,
    decide_eq_false_iff_not]
  omega
theorem barredAt_fn {s : State} {m d p q : Nat} (h : m / 2 ^ 16 = 1) (hdriver : m % 64 ≠ 0) : s.barredAt m d p q =
    ((p = 4 || (p = 7 && d = 0 && (q = 0 || q = 0x28))) || (p = 5 && q / 0x1000 < 64 && !s.fnReaches (m % 128) (s.uq d (q / 0x1000)).ctx)) := by
  rw [State.barredAt, fn_not_mgmt h, fn_isFn h, fn_not_driver hdriver]
  rfl
theorem masterBarred_fn {s : State} {m o : Nat} (h : m / 2 ^ 16 = 1) (hdriver : m % 64 ≠ 0)
    (ho : o % 0x40000000 / 0x1000000 = 4 ∨ o = 0x7000000 ∨ o = 0x7000028) : s.masterBarred m o = true := by
  rw [State.masterBarred, fn_not_mgmt h, fn_isFn h, fn_not_driver hdriver]
  rcases ho with ho | rfl | rfl
  · simp [ho]
  · simp
  · simp
theorem masterBarred_ctx {s : State} {m o : Nat} (h : m < 256) (ho : o % 0x40000000 / 0x1000000 ∈ [2, 3, 4, 6]) : s.masterBarred m o = true := by
  rw [State.masterBarred, ctx_not_mgmt h, ctx_not_fn h]
  simpa [or_assoc] using ho

/-! ### The registers of the pages (R382, R414, R444) -/

section
variable {s : State} {m d n q off : Nat} {v : Word}
theorem pageAct_engine (hn : n < 768) (hoff : off < 0x1000) : s.pageAct m d 1 (0x1000 * n + off) v = s.engineIn (768 * d + n) off v := by
  have hdiv : (0x1000 * n + off) / 0x1000 = n := by omega
  have hmod : (0x1000 * n + off) % 0x1000 = off := by omega
  simp only [State.pageAct, hdiv, hmod, hn, if_true]
theorem pageAct_queue (hn : n < 48) (hq : q < 16) (hoff : off < 64) : s.pageAct m d 2 (0x1000 * n + 64 * q + off) v = s.queueWrite (768 * d + 16 * n + q) off v := by
  have hdiv : (0x1000 * n + 64 * q + off) / 0x1000 = n := by omega
  have hmod : (0x1000 * n + 64 * q + off) % 0x1000 = 64 * q + off := by omega
  have hqueue : (64 * q + off) / 64 = q := by omega
  have hreg : (64 * q + off) % 64 = off := by omega
  have hlow : 64 * q + off < 1024 := by omega
  simp only [State.pageAct, hdiv, hmod, hqueue, hreg, hn, hlow, decide_true, Bool.and_self, if_true]
theorem pageAct_freeList (hoff : off < 0x1000) : s.pageAct m d 3 off v = s.flWrite d off v := by
  simp only [State.pageAct, Nat.div_eq_of_lt hoff, Nat.mod_eq_of_lt hoff, if_true]
theorem pageAct_front (hoff : off < 0x4000) : s.pageAct m d 4 off v = s.frontWrite m d off v := if_pos (by omega)
theorem pageAct_notify (hq : q < 64) : s.pageAct m d 5 (0x1000 * q) v = s.ringBell d q (v.toNat % 2 ^ 32) (isDriver m) := by
  have hdiv : 0x1000 * q / 0x1000 = q := by omega
  have hmod : 0x1000 * q % 0x1000 = 0 := by omega
  simp only [State.pageAct, hdiv, hmod, hq, fld_low, decide_true, Bool.and_self, if_true]
theorem pageAct_recovery (hoff : off < 0x1000) : s.pageAct m d 6 off v = s.recovWrite d off v := by
  simp only [State.pageAct, Nat.div_eq_of_lt hoff, Nat.mod_eq_of_lt hoff, if_true]
theorem pageAct_mgmt (hm : (isMgmt m || isFn m) = true) (hoff : off < 0x1000) : s.pageAct m 0 7 off v = s.mgmtWrite m off v := by
  simp only [State.pageAct, Nat.div_eq_of_lt hoff, Nat.mod_eq_of_lt hoff, hm, decide_true, Bool.and_self, if_true]
theorem frontWrite_desc (hq : q < 64) (hoff : off < 64) : s.frontWrite m d (0x400 + 64 * q + off) v = s.uqWrite d q off v := by
  have hqueue : (0x400 + 64 * q + off - 0x400) / 64 = q := by omega
  have hreg : (0x400 + 64 * q + off) % 64 = off := by omega
  have hlo : 0x400 ≤ 0x400 + 64 * q + off := by omega
  have hhi : 0x400 + 64 * q + off < 0x1400 := by omega
  simp only [State.frontWrite, hqueue, hreg, hlo, hhi, decide_true, Bool.and_self, if_true]
/-- CTXCTL with bit 8 and not bit 9. -/
theorem frontWrite_clear (h : v.toNat / 2 ^ 8 % 4 = 1) : s.frontWrite m d 0x30 v = s.ctxClear (v.toNat % 256) := by
  have hclear : fld v 8 1 = 1 := by rw [fld_eq]; omega
  have hkeep : fld v 9 1 = 0 := by rw [fld_eq]; omega
  show (if fld v 9 1 = 1 && !isMgmt m then _ else if fld v 8 1 = 1 then s.ctxClear (fld v 0 8) else s) = _
  rw [hclear, hkeep]
  rfl
/-- CTXCTL with bit 9 and not bit 8, of a master but the management port. -/
theorem frontWrite_retire (hm : isMgmt m = false) (h : v.toNat / 2 ^ 8 % 4 = 2) : s.frontWrite m d 0x30 v = s.ctxRetire (v.toNat % 256) := by
  have hkeep : fld v 8 1 = 0 := by rw [fld_eq]; omega
  have hretire : fld v 9 1 = 1 := by rw [fld_eq]; omega
  show (if fld v 9 1 = 1 && !isMgmt m then (if fld v 8 1 = 1 then s.ctxClear (fld v 0 8) else s).ctxRetire (fld v 0 8) else _) = _
  rw [hkeep, hretire, hm]
  rfl
theorem recovWrite_schedout (hbit : v.toNat / 2 ^ 16 % 2 = 1) (hcore : v.toNat % 1024 < 768) : s.recovWrite d 0 v = s.schedOut (768 * d + v.toNat % 1024) :=
  if_pos (by rw [fld_eq, fld_low, show v.toNat / 2 ^ 16 % 2 ^ 1 = 1 from hbit, decide_eq_true (show v.toNat % 2 ^ 10 < 768 from hcore)]; rfl)
theorem recovWrite_free (hbit : v.toNat / 2 ^ 19 % 2 = 0) (hcore : v.toNat % 1024 < 768) :
    s.recovWrite d 8 v = s.freeStopped (768 * d + v.toNat % 1024) (v.toNat / 2 ^ 16 % 8) := by
  have hframe : fld v 19 1 = 0 := by rw [fld_eq]; exact hbit
  show (if v.toNat % 1024 ≥ 768 then s else s.freeStopped (768 * d + v.toNat % 1024) (if fld v 19 1 = 1 then 8 else fld v 16 3)) = _
  rw [if_neg (Nat.not_le.mpr hcore), hframe, if_neg (by decide), fld_eq]
  rfl
theorem mgmtWrite_trip (hm : isMgmt m = true) (h : v.toNat / 2 ^ 8 % 2 = 1) : s.mgmtWrite m 0x20 v = { s with mgmt := { s.mgmt with trip := false, tripd := 0 } } :=
  if_pos (by rw [hm, fld_eq, show v.toNat / 2 ^ 8 % 2 ^ 1 = 1 from h]; rfl)
theorem mgmtWrite_reset (h : v.toNat % 2 = 1) : s.mgmtWrite m 0x28 v = s.warm := if_pos h
end

/-! ### Violations (R393, R394) -/

theorem unitWr_frozenFns (s : State) (pa n v : Nat) : (s.unitWr pa n v).frozenFns = s.frozenFns := by
  obtain ⟨M, P, h⟩ := unitStore_fields s pa (bytesOf n v)
  rw [State.unitWr, h]
theorem post_frozenFns (s : State) (d cls idx kind body : Nat) : (s.post d cls idx kind body).frozenFns = s.frozenFns := by
  simp only [State.post, updDie_eq]
  split
  · rfl
  · exact (unitWr_frozenFns ..).trans (unitWr_frozenFns ..)
section
variable {s : State} {m : Nat} (x : Nat) (hmain : s.main = true)
include hmain
theorem violation_port (h : m = 2 ^ 17) : s.violation m x = { s.post 0 2 0 0x0403 (m + x % 2 ^ 40 * 2 ^ 24) with frozenMgmt := true } := by
  subst h
  rw [State.violation, if_pos hmain]
  rfl
theorem violation_fn (h : m / 2 ^ 16 = 1) (hfree : m % 128 ∉ s.frozenFns) :
    s.violation m x = { s.post (m % 128 / 64) 2 0 0x0403 (m + x % 2 ^ 40 * 2 ^ 24) with frozenFns := s.frozenFns ++ [m % 128] } := by
  have hdie : dieOfMaster m = m % 128 / 64 := by rw [dieOfMaster, fn_isFn h, if_pos rfl, fnOf]
  have hnew : (s.post (m % 128 / 64) 2 0 0x0403 (m + x % 2 ^ 40 * 2 ^ 24)).frozenFns.contains (m % 128) = false := by
    rw [post_frozenFns]
    simpa using hfree
  rw [State.violation, if_pos hmain, hdie, State.freeze, if_neg (by omega), if_pos (by omega), hnew, if_neg (by decide), post_frozenFns]
theorem violation_ctx (h : m < 256) : s.violation m x = (s.post 0 2 0 0x0403 (m + x % 2 ^ 40 * 2 ^ 24)).freezeCtx
    (fld ((s.post 0 2 0 0x0403 (m + x % 2 ^ 40 * 2 ^ 24)).ctxDw m 0) 0 16) := by
  have hdie : dieOfMaster m = 0 := by rw [dieOfMaster, ctx_not_fn h]; rfl
  rw [State.violation, if_pos hmain, hdie, State.freeze, if_neg (by omega), if_neg (by omega)]
end
end Sys2Proof.Machine
end

section
/-! The statement on the writes of register pages. -/
set_option Elab.async false
open Sys2Proof Sys2Proof.Machine Sys2Proof.Spec
namespace Sys2Proof.Proofs
theorem registerPages_holds : registerPages := by
  intro s die n q o m v master off fo hdie hm V base wr set w barred free
  have hbarred (hfree : free) (h : s.masterBarred m o = true) : barred := by
    rintro x rfl
    exact pageWrite_violates v hfree h
  refine ⟨pageWrite_frozen o v, fun hdriver hfree hmain => ?_, fun hmgmt hfree => ⟨fun ho => hbarred hfree (masterBarred_mgmt hmgmt ho), ?_, fun htrip => ?_, fun hctl => ?_⟩,
    fun hfn hother hfree => ⟨fun ho => hbarred hfree (masterBarred_fn hfn hother ho), fun hq ho hreach => hbarred hfree ?_, fun hq ho hreach => ?_⟩,
    fun hctx ho => ?_, fun x hmain => ⟨violation_port x hmain, violation_fn x hmain, violation_ctx x hmain⟩⟩
  · have writes {x p r : Nat} (hx : x = 0x1000000 * p + r) (hp : p < 64) (hr : r < 0x1000000)
        (hnotify : p = 5 → r / 0x1000 < 64 → s.fnReaches (fnOf m) (s.uq die (r / 0x1000)).ctx = true) : wr x = s.pageAct m die p r v :=
      pageWrite_allowed v (show base + x = 0x40000000 * die + 0x1000000 * p + r by omega) hp hr hfree (barredAt_driver hdriver hnotify)
    have front {x r : Nat} (hx : x = 0x1000000 * 4 + r) (hr : r < 0x4000) : wr x = s.frontWrite m die r v :=
      (writes hx (by decide) (by omega) (fun h => absurd h (by decide))).trans (pageAct_front hr)
    have recovery {x r : Nat} (hx : x = 0x1000000 * 6 + r) (hr : r < 0x1000) : wr x = s.recovWrite die r v :=
      (writes hx (by decide) (by omega) (fun h => absurd h (by decide))).trans (pageAct_recovery hr)
    refine ⟨fun hn hfo => ?_, fun hn hq => ?_, ?_, fun hq => ?_, front (r := 0) rfl (by decide), fun h0 => ?_, front (r := 0x10) rfl (by decide),
      front (r := 0x18) rfl (by decide), front (r := 0x40) rfl (by decide), fun hctl => (front (r := 0x30) rfl (by decide)).trans (frontWrite_clear hctl),
      fun hctl => (front (r := 0x30) rfl (by decide)).trans (frontWrite_retire (driver_not_mgmt hdriver) hctl), fun hq hreach => ?_, fun hbit hcore => ?_,
      fun hbit hcore => ?_, ?_, fun h0 => ⟨?_, fun hreset => ?_⟩⟩
    · rw [writes (p := 1) (r := 0x1000 * n + fo.toNat) (by omega) (by decide) (by omega) (fun h => absurd h (by decide)), pageAct_engine hn hfo]
    · have hoff := off.isLt
      rw [writes (p := 2) (r := 0x1000 * n + 64 * q + off.toNat) (by omega) (by decide) (by omega) (fun h => absurd h (by decide)),
        pageAct_queue hn hq hoff, exec_stageQueueDescWrite, execStageQueueDescWrite, unitAct_up hmain, if_pos (by omega)]
    · have hfo := fo.isLt
      rw [writes (p := 3) (r := fo.toNat) (by omega) (by decide) (by omega) (fun h => absurd h (by decide)), pageAct_freeList hfo,
        exec_freeListRegWrite, execFreeListRegWrite, unitAct_up hmain, if_pos hdie]
    · have hoff := off.isLt
      rw [front (r := 0x400 + 64 * q + off.toNat) (by omega) (by omega), frontWrite_desc hq hoff, exec_userQueueDescWrite, execUserQueueDescWrite,
        unitAct_up hmain, if_pos (by simp only [hdie, hq, decide_true, Bool.and_self])]
    · subst h0
      exact front (r := 8) rfl (by decide)
    · have hnotify : s.fnReaches (fnOf m) (s.uq die (0x1000 * q / 0x1000)).ctx = true := by
        rw [show 0x1000 * q / 0x1000 = q by omega]
        exact hreach
      rw [writes (p := 5) (r := 0x1000 * q) (by omega) (by decide) (by omega) (fun _ _ => hnotify), pageAct_notify hq, driver_isDriver hdriver]
    · rw [recovery (r := 0) rfl (by decide), recovWrite_schedout hbit hcore, exec_schedout, execSchedout, unitAct_up hmain,
        if_pos (by rw [decide_eq_true hdie, decide_eq_true hcore]; rfl)]
    · have hframe : w / 2 ^ 16 % 8 < 8 := Nat.mod_lt _ (by decide)
      rw [recovery (r := 8) rfl (by decide), recovWrite_free hbit hcore, exec_freefFrame, execFreefFrame, unitAct_up hmain,
        if_pos (by rw [decide_eq_true hdie, decide_eq_true hcore, decide_eq_true hframe]; rfl)]
    · exact recovery (r := 0x10) rfl (by decide)
    · subst h0
      exact (writes (p := 7) (r := 0) rfl (by decide) (by decide) (fun h => absurd h (by decide))).trans
        (pageAct_mgmt (by rw [driver_isFn hdriver, Bool.or_true]) (by decide))
    · subst h0
      exact (writes (p := 7) (r := 0x28) rfl (by decide) (by decide) (fun h => absurd h (by decide))).trans
        ((pageAct_mgmt (by rw [driver_isFn hdriver, Bool.or_true]) (by decide)).trans (mgmtWrite_reset hreset))
  · subst hmgmt
    exact (pageWrite_allowed v (d := 0) (p := 7) (q := 0) rfl (by decide) (by decide) hfree rfl).trans (pageAct_mgmt rfl (by decide))
  · subst hmgmt
    exact (pageWrite_allowed v (d := 0) (p := 7) (q := 0x20) rfl (by decide) (by decide) hfree rfl).trans
      ((pageAct_mgmt rfl (by decide)).trans (mgmtWrite_trip rfl htrip))
  · subst hmgmt
    exact (pageWrite_allowed v (d := 0) (p := 4) (q := 0x30) rfl (by decide) (by decide) hfree rfl).trans
      ((pageAct_front (by decide)).trans (frontWrite_clear hctl))
  · have hpage : 0x1000 * q / 0x1000 = q := by omega
    rw [masterBarred_at (d := die) (p := 5) (q := 0x1000 * q) (by omega) (by decide) (by omega), barredAt_fn hfn hother, hpage, hreach]
    simp [hq]
  · have hpage : 0x1000 * q / 0x1000 = q := by omega
    have hright : s.barredAt m die 5 (0x1000 * q) = false := by
      rw [barredAt_fn hfn hother, hpage, hreach]
      simp
    rw [pageWrite_allowed v (d := die) (p := 5) (q := 0x1000 * q) (by omega) (by decide) (by omega) hfree hright, pageAct_notify hq, fn_not_driver hother]
  · have hfree : free := by
      show s.isFrozenM m = false
      rw [State.isFrozenM, ctx_not_mgmt hctx, ctx_not_fn hctx]
      rfl
    exact hbarred hfree (masterBarred_ctx hctx ho)
end Sys2Proof.Proofs
end

section
/-! Clearing and retiring a context (R362, R392, R395). -/
set_option Elab.async false
open Sys2Proof Sys2Proof.Spec
namespace Sys2Proof.Tab
variable {α : Type}
theorem look_none_iff {l : List (Nat × α)} {k : Nat} : look l k = none ↔ ∀ e ∈ l, e.1 ≠ k := by
  refine ⟨fun h => ?_, look_none⟩
  induction l with
  | nil => exact fun _ he => absurd he List.not_mem_nil
  | cons e l ih =>
    rw [look] at h
    split at h
    · cases h
    · next hne => exact List.forall_mem_cons.mpr ⟨hne, ih h⟩
/-- What is not listed is not listed after a deletion. -/
theorem get?_del_none {t : Tab α} {k : Nat} (j : Nat) (h : t.get? k = none) : (t.del j).get? k = none :=
  look_none fun e he => look_none_iff.mp h e (List.mem_filter.mp he).1
theorem get?_eq_none_of_keys {t : Tab α} {k : Nat} (h : k ∉ t.keys) : t.get? k = none :=
  look_none fun _ he hk => h (hk ▸ List.mem_map_of_mem he)
end Sys2Proof.Tab

namespace Sys2Proof.Machine

/-! ### Context records -/

theorem setCtxFld_fields (s : State) (slot lo n v : Nat) : ∃ M P, s.setCtxFld slot lo n v = { s with mem := M, poison := P } := unitStore_fields ..
theorem setCtxFld_wrN {s : State} {slot : Nat} (lo n v : Nat) (h : holeIn (s.ctxPa slot) 8 = false) :
    s.setCtxFld slot lo n v = s.wrN (s.ctxPa slot) 8 (putFld (s.ctxDw slot 0) lo n v).toNat := by
  rw [State.setCtxFld, State.unitWr, State.unitStore, length_bytesOf, h]
  rfl
theorem ctxDw_wrN {s : State} {slot : Nat} (w : Word) (hwf : Memory.wf s.mem = true) (h : holeIn (s.ctxPa slot) 8 = false) :
    (s.wrN (s.ctxPa slot) 8 w.toNat).ctxDw slot 0 = w := by
  show wd (State.unitRd _ (s.ctxPa slot) 8) = w
  rw [State.unitRd, State.unitBytes, h, if_neg (by decide)]
  show wd (State.rdN _ (s.ctxPa slot) 8) = w
  rw [rdN_wrN _ _ _ _ hwf, wd, show (256 : Nat) ^ 8 = 2 ^ 64 by decide, Nat.mod_eq_of_lt w.isLt, BitVec.ofNat_toNat, BitVec.setWidth_eq]
/-- A field of a context's record takes its value, and no other byte changes. -/
theorem setCtxFld_sets {s : State} {slot : Nat} (lo n v : Nat) (hwf : Memory.wf s.mem = true) (h : holeIn (s.ctxPa slot) 8 = false) :
    let t := s.setCtxFld slot lo n v
    t.ctxDw slot 0 = putFld (s.ctxDw slot 0) lo n v ∧ Memory.wf t.mem = true ∧ ∀ b, b < s.ctxPa slot ∨ s.ctxPa slot + 8 ≤ b → t.rd b = s.rd b := by
  rw [setCtxFld_wrN lo n v h]
  exact ⟨ctxDw_wrN _ hwf h, wf_store _ _ _ hwf, fun b hb => rd_store_out _ _ _ (by rwa [length_bytesOf])⟩
theorem ctxPa_setCtxFld (s : State) (slot lo n v j : Nat) : (s.setCtxFld slot lo n v).ctxPa j = s.ctxPa j := by
  obtain ⟨M, P, h⟩ := setCtxFld_fields s slot lo n v
  rw [h]
  rfl
theorem toNat_putFld_zero (w : Word) (lo n : Nat) : (putFld w lo n 0).toNat = w.toNat - w.toNat / 2 ^ lo % 2 ^ n * 2 ^ lo := by
  have hw := w.isLt
  rw [putFld, fld_eq, wd, BitVec.toNat_ofNat, Nat.shiftLeft_eq, Nat.shiftLeft_eq, Nat.zero_mod, Nat.zero_mul, Nat.add_zero]
  exact Nat.mod_eq_of_lt (by omega)
/-- A number of 64 bits cut at the flags and at GUILT of a context's record. -/
theorem record_parts (x : Nat) : ∃ a b c d g h, x = a + 131072 * b + 262144 * c + 524288 * d + 16777216 * g + 4294967296 * h ∧
    a < 131072 ∧ b < 2 ∧ c < 2 ∧ d < 32 ∧ g < 256 :=
  ⟨x % 131072, x / 131072 % 2, x / 262144 % 2, x / 524288 % 32, x / 16777216 % 256, x / 4294967296, by omega, by omega, by omega, by omega, by omega, by omega⟩
/-- GUILT, BARRED and FROZEN zero, the rest of the word as it was. -/
theorem putFld_cleared (w : Word) : putFld (putFld (putFld w 24 8 0) 18 1 0) 17 1 0 =
    wd (w.toNat % 2 ^ 17 + w.toNat / 2 ^ 19 % 2 ^ 5 * 2 ^ 19 + w.toNat / 2 ^ 32 * 2 ^ 32) := by
  have hw := w.isLt
  apply BitVec.eq_of_toNat_eq
  rw [toNat_putFld_zero, toNat_putFld_zero, toNat_putFld_zero, wd, BitVec.toNat_ofNat]
  obtain ⟨a, b, c, d, g, h, hx, ha, hb, hc, hd, hg⟩ := record_parts w.toNat
  rw [hx] at hw ⊢
  norm_num only at hw ⊢
  have hguilt : (a + 131072 * b + 262144 * c + 524288 * d + 16777216 * g + 4294967296 * h) / 16777216 % 256 = g := by omega
  have hbarred : (a + 131072 * b + 262144 * c + 524288 * d + 4294967296 * h) / 262144 % 2 = c := by omega
  have hfrozen : (a + 131072 * b + 524288 * d + 4294967296 * h) / 131072 % 2 = b := by omega
  have hlow : (a + 131072 * b + 262144 * c + 524288 * d + 16777216 * g + 4294967296 * h) % 131072 = a := by omega
  have hmid : (a + 131072 * b + 262144 * c + 524288 * d + 16777216 * g + 4294967296 * h) / 524288 % 32 = d := by omega
  have hhigh : (a + 131072 * b + 262144 * c + 524288 * d + 16777216 * g + 4294967296 * h) / 4294967296 = h := by omega
  have h1 : a + 131072 * b + 262144 * c + 524288 * d + 16777216 * g + 4294967296 * h - g * 16777216 = a + 131072 * b + 262144 * c + 524288 * d + 4294967296 * h := by omega
  have h2 : a + 131072 * b + 262144 * c + 524288 * d + 4294967296 * h - c * 262144 = a + 131072 * b + 524288 * d + 4294967296 * h := by omega
  rw [hguilt, hlow, hmid, hhigh, h1, hbarred, h2, hfrozen, Nat.mod_eq_of_lt (by omega)]
  omega

/-! ### Clearing -/

/-- GUILT, BARRED and FROZEN of the slot are zeroed. -/
def State.ctxCleared (s : State) (slot : Nat) : State := ((s.setCtxFld slot 24 8 0).setCtxFld slot 18 1 0).setCtxFld slot 17 1 0
theorem ctxClear_eq (s : State) (slot : Nat) : s.ctxClear slot = (s.ctxCleared slot).thaw ((s.ctxDw slot 0).toNat % 2 ^ 16) := rfl
theorem ctxCleared_fields (s : State) (slot : Nat) : ∃ M P, s.ctxCleared slot = { s with mem := M, poison := P } := by
  obtain ⟨M1, P1, h1⟩ := setCtxFld_fields s slot 24 8 0
  obtain ⟨M2, P2, h2⟩ := setCtxFld_fields (s.setCtxFld slot 24 8 0) slot 18 1 0
  obtain ⟨M3, P3, h3⟩ := setCtxFld_fields ((s.setCtxFld slot 24 8 0).setCtxFld slot 18 1 0) slot 17 1 0
  exact ⟨M3, P3, by rw [State.ctxCleared, h3, h2, h1]⟩
theorem ctxCleared_sets {s : State} {slot : Nat} (hwf : Memory.wf s.mem = true) (h : holeIn (s.ctxPa slot) 8 = false) :
    (s.ctxCleared slot).ctxDw slot 0 = putFld (putFld (putFld (s.ctxDw slot 0) 24 8 0) 18 1 0) 17 1 0 ∧
      ∀ b, b < s.ctxPa slot ∨ s.ctxPa slot + 8 ≤ b → (s.ctxCleared slot).rd b = s.rd b := by
  obtain ⟨hw1, hwf1, hrd1⟩ := setCtxFld_sets 24 8 0 hwf h
  have hpa1 := ctxPa_setCtxFld s slot 24 8 0 slot
  obtain ⟨hw2, hwf2, hrd2⟩ := setCtxFld_sets 18 1 0 hwf1 (hpa1.symm ▸ h)
  have hpa2 := (ctxPa_setCtxFld (s.setCtxFld slot 24 8 0) slot 18 1 0 slot).trans hpa1
  obtain ⟨hw3, -, hrd3⟩ := setCtxFld_sets 17 1 0 hwf2 (hpa2.symm ▸ h)
  refine ⟨by rw [State.ctxCleared, hw3, hw2, hw1], fun b hb => ?_⟩
  rw [State.ctxCleared, hrd3 b (hpa2.symm ▸ hb), hrd2 b (hpa1.symm ▸ hb), hrd1 b hb]
theorem core_thaw (s : State) (ctx k : Nat) : (s.thaw ctx).core k = if (s.core k).ctxid = ctx then { s.core k with frozen := false } else s.core k :=
  get_map _ (by split <;> rfl)
theorem thaw_lets_go {s : State} {ctx k : Nat} (h : ((s.thaw ctx).core k).frozen = true) : ((s.thaw ctx).core k).ctxid ≠ ctx := by
  rw [core_thaw] at h ⊢
  split at h
  · cases h
  · next hctx => rwa [if_neg hctx]
theorem thaw_other {s : State} {ctx k : Nat} (h : (s.core k).ctxid ≠ ctx) : (s.thaw ctx).core k = s.core k := by rw [core_thaw, if_neg h]

/-! ### A core and its saved state are wiped (R362 steps 3 and 5) -/

section
variable (s : State) (ctx k : Nat)
/-- The state after the saved state of a context on a core is dropped. -/
def State.savedDropped : State :=
  { (if s.heldSave ctx k then s.setHeld ctx k false else s) with
    savedCores := s.savedCores.del (savedKey ctx k), savedFrames := s.savedFrames.del (savedKey ctx k) }
theorem savedDropped_fields : ∃ M P, s.savedDropped ctx k =
    { s with mem := M, poison := P, savedCores := s.savedCores.del (savedKey ctx k), savedFrames := s.savedFrames.del (savedKey ctx k) } := by
  unfold State.savedDropped
  split
  · obtain ⟨M, P, h⟩ := setHeld_fields s ctx k false
    exact ⟨M, P, by rw [h]⟩
  · exact ⟨s.mem, s.poison, rfl⟩
theorem wipeCore_eq : s.wipeCore ctx k = ((if (s.core k).ctxid = ctx then (s.savedDropped ctx k).setCore k (s.core k).bare else s.savedDropped ctx k).updCore k fun c =>
    { c with owner := ⟨c.owner.l.filter fun e => e.2.1 ≠ ctx⟩, raws := c.raws.del ctx }) := by
  unfold State.wipeCore State.savedDropped
  by_cases hheld : s.heldSave ctx k = true
  · obtain ⟨M, P, h⟩ := setHeld_fields s ctx k false
    simp only [if_pos hheld, h]
    rfl
  · simp only [if_neg hheld]
    rfl
theorem wipeCore_rest : (s.wipeCore ctx k).dies = s.dies ∧ (s.wipeCore ctx k).retiring = s.retiring ∧
    (s.wipeCore ctx k).savedCores = s.savedCores.del (savedKey ctx k) ∧ (s.wipeCore ctx k).savedFrames = s.savedFrames.del (savedKey ctx k) := by
  obtain ⟨M, P, h⟩ := savedDropped_fields s ctx k
  rw [wipeCore_eq, h]
  split <;> exact ⟨rfl, rfl, rfl, rfl⟩
theorem wipeCore_ctxid (j : Nat) : ((s.wipeCore ctx k).core j).ctxid = if j = k ∧ (s.core k).ctxid = ctx then 0 else (s.core j).ctxid := by
  obtain ⟨M, P, h⟩ := savedDropped_fields s ctx k
  rw [wipeCore_eq, h]
  by_cases hj : j = k
  · subst hj
    by_cases hctx : (s.core j).ctxid = ctx
    · simp only [hctx, and_self, if_true, updCore_eq, core_setCore_self]
      rfl
    · simp only [hctx, and_false, if_false, updCore_eq, core_setCore_self]
      rfl
  · split <;> simp only [hj, false_and, if_false, updCore_eq, core_setCore_ne _ _ hj] <;> rfl
end
/-- Nothing of the context is on the core, and no state of it is saved for the core. -/
def Gone (ctx k : Nat) (s : State) : Prop := (s.core k).ctxid ≠ ctx ∧ s.savedCores.get? (savedKey ctx k) = none
section
variable {s : State} {ctx j : Nat} (h0 : ctx ≠ 0)
include h0
theorem wipeCore_gone (h : Gone ctx j s) (k : Nat) : Gone ctx j (s.wipeCore ctx k) := by
  obtain ⟨hctx, hsaved⟩ := h
  refine ⟨?_, by rw [(wipeCore_rest s ctx k).2.2.1]; exact Tab.get?_del_none _ hsaved⟩
  rw [wipeCore_ctxid]
  split
  · exact Ne.symm h0
  · exact hctx
theorem wipeCore_gone_self : Gone ctx j (s.wipeCore ctx j) := by
  refine ⟨?_, by rw [(wipeCore_rest s ctx j).2.2.1]; exact Tab.get?_del_self ..⟩
  rw [wipeCore_ctxid]
  split
  · exact Ne.symm h0
  · next h => exact fun hctx => h ⟨rfl, hctx⟩
end

/-- The cores of a list are wiped. -/
def State.wiped (s : State) (ctx : Nat) (ks : List Nat) : State := ks.foldl (fun s k => s.wipeCore ctx k) s
section
variable (s : State) (ctx : Nat) (ks : List Nat)
theorem wiped_rest : (s.wiped ctx ks).dies = s.dies ∧ (s.wiped ctx ks).retiring = s.retiring := by
  induction ks generalizing s with
  | nil => exact ⟨rfl, rfl⟩
  | cons k ks ih =>
    obtain ⟨hdies, hretiring, -, -⟩ := wipeCore_rest s ctx k
    obtain ⟨ihdies, ihretiring⟩ := ih (s.wipeCore ctx k)
    exact ⟨ihdies.trans hdies, ihretiring.trans hretiring⟩
variable {s ctx ks} {j : Nat}
theorem wiped_gone (h0 : ctx ≠ 0) (h : j ∈ ks ∨ Gone ctx j s) : Gone ctx j (s.wiped ctx ks) := by
  induction ks generalizing s with
  | nil => exact h.resolve_left List.not_mem_nil
  | cons k ks ih =>
    refine ih ?_
    rcases h with hj | hgone
    · rcases List.mem_cons.mp hj with rfl | hj
      · exact .inr (wipeCore_gone_self h0)
      · exact .inl hj
    · exact .inr (wipeCore_gone h0 hgone k)
theorem wiped_frames (h : j ∈ ks ∨ s.savedFrames.get? (savedKey ctx j) = none) : (s.wiped ctx ks).savedFrames.get? (savedKey ctx j) = none := by
  induction ks generalizing s with
  | nil => exact h.resolve_left List.not_mem_nil
  | cons k ks ih =>
    obtain ⟨-, -, -, hframes⟩ := wipeCore_rest s ctx k
    refine ih ?_
    rcases h with hj | hnone
    · rcases List.mem_cons.mp hj with rfl | hj
      · exact .inr (by rw [hframes]; exact Tab.get?_del_self ..)
      · exact .inl hj
    · exact .inr (by rw [hframes]; exact Tab.get?_del_none _ hnone)
end
/-- The cores that a retirement wipes. -/
def State.wipes (s : State) (ctx : Nat) : List Nat := (s.cores.keys ++ (s.savedCores.keys.filter fun q => q / 8192 = ctx).map (· % 8192)).eraseDups
theorem wipes_or_gone (s : State) {ctx k : Nat} (h0 : ctx ≠ 0) (hk : k < 8192) : k ∈ s.wipes ctx ∨ Gone ctx k s := by
  by_cases hmem : k ∈ s.wipes ctx
  · exact .inl hmem
  · rw [State.wipes, List.mem_eraseDups, List.mem_append, not_or] at hmem
    obtain ⟨hcores, hsaved⟩ := hmem
    refine .inr ⟨?_, Tab.get?_eq_none_of_keys fun hkey => hsaved ?_⟩
    · have hnone : s.cores.get? k = none := Tab.get?_eq_none_of_keys hcores
      have hcore : s.core k = {} := by
        show (s.cores.get? k).getD {} = {}
        rw [hnone]
        rfl
      rw [hcore]
      exact Ne.symm h0
    · refine List.mem_map.mpr ⟨savedKey ctx k, List.mem_filter.mpr ⟨hkey, decide_eq_true ?_⟩, ?_⟩
      · unfold savedKey; omega
      · unfold savedKey; omega

/-! ### A retirement (R362) -/

theorem unitWr_dies (s : State) (pa n v : Nat) : (s.unitWr pa n v).dies = s.dies := by
  obtain ⟨M, P, h⟩ := unitStore_fields s pa (bytesOf n v)
  rw [State.unitWr, h]
/-- An event leaves of a die everything but its numbers of events. -/
theorem post_die (s : State) (d cls idx kind body j : Nat) :
    ∃ Q E, (s.post d cls idx kind body).die j = { s.die j with seqs := Q, evput := E } := by
  have hdies (u : State) (hu : u.dies = s.dies) (g : Die → Die) (hg : ∃ Q E, g (s.die d) = { s.die d with seqs := Q, evput := E }) :
      ∃ Q E, (u.updDie d g).die j = { s.die j with seqs := Q, evput := E } := by
    have hsame (i : Nat) : u.die i = s.die i := by rw [State.die, hu, State.die]
    by_cases hj : j = d
    · obtain ⟨Q, E, hg⟩ := hg
      exact ⟨Q, E, by rw [hj, updDie_eq, die_setDie_self, hsame, hg]⟩
    · exact ⟨_, _, (die_setDie_ne u _ hj).trans (hsame j)⟩
  unfold State.post
  dsimp only
  refine hdies _ ?_ _ ⟨_, _, rfl⟩
  split
  · rfl
  · exact (unitWr_dies ..).trans (unitWr_dies ..)
theorem unitWr_keeps (s : State) (pa n v : Nat) : ∃ M P, s.unitWr pa n v = { s with mem := M, poison := P } := unitStore_fields ..
/-- And of the state everything but memory and its die. -/
theorem post_fields (s : State) (d cls idx kind body : Nat) : ∃ M P D, s.post d cls idx kind body = { s with mem := M, poison := P, dies := D } := by
  unfold State.post
  dsimp only
  split
  · exact ⟨_, _, _, rfl⟩
  · obtain ⟨M1, P1, h1⟩ := unitWr_keeps s ((s.die d).evbase + 16 * ((s.die d).evput % 2 ^ (s.die d).evlog2)) 8
      (idx + cls * 2 ^ 8 + d * 2 ^ 16 + s.pkg * 2 ^ 19 + (s.die d).seqs.get (256 * cls + idx) 0 * 2 ^ 32 + kind * 2 ^ 48)
    rw [h1]
    obtain ⟨M2, P2, h2⟩ := unitWr_keeps { s with mem := M1, poison := P1 } ((s.die d).evbase + 16 * ((s.die d).evput % 2 ^ (s.die d).evlog2) + 8) 8 (body % 2 ^ 64)
    exact ⟨M2, P2, _, by rw [h2]; rfl⟩
/-- What a retirement leaves of a queue, a die and a group (R362 steps 3 to 5). -/
def SQueue.without (q : SQueue) (ctx : Nat) : SQueue := if q.ctx = ctx then { q with enable := false } else q
def Die.without (v : Die) (ctx : Nat) : Die :=
  { v with
    fl := (if v.fl.ctx = ctx then { v.fl with enable := false } else v.fl)
    lantern := ⟨v.lantern.l.filter fun e => e.2.ctx ≠ ctx⟩
    dir := v.dir.filter fun e => e.ctx ≠ ctx }
def Group.without (g : Group) (ctx : Nat) : Group := if g.ctx = ctx then { g with state := 0, members := [], joins := [], posted := false } else g
theorem SQueue.default_without (ctx : Nat) : ({} : SQueue).without ctx = {} := by unfold SQueue.without; split <;> rfl
theorem Die.default_without (ctx : Nat) : ({} : Die).without ctx = {} := by unfold Die.without; split <;> rfl
theorem Group.default_without (ctx : Nat) : ({} : Group).without ctx = {} := by unfold Group.without; split <;> rfl
/-- Queues, list, Lantern slots, directory, groups and translations of a context are dropped. -/
def State.dropped (s : State) (ctx slot : Nat) : State :=
  let u := s.tlbDrop ctx 0 0
  { u with
    retiring := u.retiring.filter (· ≠ slot)
    camps := u.camps.map fun _ c => { c with qs := c.qs.map fun _ q => q.without ctx }
    dies := u.dies.map fun _ v => v.without ctx
    groups := u.groups.map fun _ g => g.without ctx }
/-- Its slot is no longer live. -/
def State.slotFreed (s : State) (slot : Nat) : State := (((s.setCtxFld slot 16 1 0).setCtxFld slot 24 8 0).setCtxFld slot 18 1 0).setCtxFld slot 17 1 0
theorem slotFreed_fields (s : State) (slot : Nat) : ∃ M P, s.slotFreed slot = { s with mem := M, poison := P } := by
  obtain ⟨M1, P1, h1⟩ := setCtxFld_fields s slot 16 1 0
  obtain ⟨M2, P2, h2⟩ := ctxCleared_fields (s.setCtxFld slot 16 1 0) slot
  exact ⟨M2, P2, by rw [show s.slotFreed slot = (s.setCtxFld slot 16 1 0).ctxCleared slot from rfl, h2, h1]⟩
theorem retireRest_eq (s : State) (slot : Nat) : let ctx := (s.ctxDw slot 0).toNat % 2 ^ 16
    s.retireRest slot = (((s.wiped ctx (s.wipes ctx)).dropped ctx slot).slotFreed slot).post 0 2 0 0x0406 slot := rfl
section
variable (s : State) (ctx slot : Nat)
theorem die_tlbDrop (d : Nat) : (s.tlbDrop ctx 0 0).die d = { s.die d with tlb := (s.die d).tlb.filter fun x => !x.within ctx 0 0 } := get_map _ rfl
theorem camp_tlbDrop_qs (n : Nat) : ((s.tlbDrop ctx 0 0).camp n).qs = (s.camp n).qs := by
  have hcamp : (s.tlbDrop ctx 0 0).camp n = { s.camp n with tlb := (s.camp n).tlb.filter fun x => !x.within ctx 0 0 } := get_map _ rfl
  rw [hcamp]
theorem die_dropped (d : Nat) : (s.dropped ctx slot).die d = Die.without { s.die d with tlb := (s.die d).tlb.filter fun x => !x.within ctx 0 0 } ctx :=
  (get_map _ (Die.default_without ctx)).trans (congrArg (Die.without · ctx) (die_tlbDrop s ctx d))
theorem dropped_uq (d q : Nat) : (s.dropped ctx slot).uq d q = s.uq d q := by
  rw [State.uq, die_dropped]
  rfl
theorem squeue_dropped (i : Nat) : (s.dropped ctx slot).squeue i = (s.squeue i).without ctx := by
  have hcamp : ((s.dropped ctx slot).camp (queueIx i).1).qs = (((s.tlbDrop ctx 0 0).camp (queueIx i).1).qs).map fun _ q => q.without ctx :=
    congrArg Camp.qs (get_map _ (k := (queueIx i).1) rfl)
  rw [State.squeue, hcamp, camp_tlbDrop_qs]
  exact get_map _ (SQueue.default_without ctx)
theorem core_dropped (k : Nat) : (s.dropped ctx slot).core k = { s.core k with tlb := (s.core k).tlb.filter fun x => !x.within ctx 0 0 } := get_map _ rfl
theorem group_dropped (g : Nat) : (s.dropped ctx slot).group g = (s.group g).without ctx := get_map _ (Group.default_without ctx)
theorem savedFrames_dropped {key : Nat} (h : s.savedFrames.get? key = none) : (s.dropped ctx slot).savedFrames.get key [] = [] := by
  show ((Tab.map s.savedFrames _).get? key).getD [] = []
  rw [get?_map, h]
  rfl
end
theorem SQueue.without_enable {q : SQueue} {ctx : Nat} (h : (q.without ctx).enable = true) : (q.without ctx).ctx ≠ ctx := by
  unfold SQueue.without at h ⊢
  split at h
  · cases h
  · next hctx => rwa [if_neg hctx]
theorem Die.without_fl {v : Die} {ctx : Nat} (h : (v.without ctx).fl.enable = true) : (v.without ctx).fl.ctx ≠ ctx := by
  unfold Die.without at h ⊢
  dsimp only at h ⊢
  split at h
  · cases h
  · next hctx => rwa [if_neg hctx]
theorem Group.without_state {g : Group} {ctx : Nat} (h : (g.without ctx).state ≠ 0) : (g.without ctx).ctx ≠ ctx := by
  unfold Group.without at h ⊢
  split at h
  · exact absurd rfl h
  · next hctx => rwa [if_neg hctx]
theorem ctx_of_mem_filter_within {l : List TlbEnt} {ctx : Nat} {e : TlbEnt} (h : e ∈ l.filter fun x => !x.within ctx 0 0) : e.ctx ≠ ctx := by
  intro hctx
  have hkept := (List.mem_filter.mp h).2
  rw [TlbEnt.within, hctx] at hkept
  simp at hkept

/-! ### CTXCTL bit 9 with no launch of the context -/

def UQueue.without (u : UQueue) (ctx : Nat) : UQueue := if u.ctx = ctx then { u with enable := false } else u
theorem UQueue.default_without (ctx : Nat) : ({} : UQueue).without ctx = {} := by unfold UQueue.without; split <;> rfl
theorem UQueue.without_enable {u : UQueue} {ctx : Nat} (h : (u.without ctx).enable = true) : (u.without ctx).ctx ≠ ctx := by
  unfold UQueue.without at h ⊢
  split at h
  · cases h
  · next hctx => rwa [if_neg hctx]
/-- Its queues are off (R362 step 1). -/
def State.queuesOff (s : State) (ctx : Nat) : State := { s with dies := s.dies.map fun _ v => { v with queues := v.queues.map fun _ u => u.without ctx } }
/-- And its slot retires. -/
def State.retires (s : State) (ctx slot : Nat) : State := { s.queuesOff ctx with retiring := [slot] }
theorem endCtxLaunches_none {s : State} {ctx : Nat} (v : Int) (h : ∀ L ∈ s.launches, L.ctx ≠ ctx) : s.endCtxLaunches ctx v = s := by
  have hnone : s.launches.filter (fun L => L.ctx = ctx && !L.ended) = [] := by
    rw [List.filter_eq_nil_iff]
    intro L hL
    rw [decide_eq_false (h L hL), Bool.false_and]
    decide
  rw [State.endCtxLaunches, hnone, List.foldl_nil]
theorem die_retires (s : State) (ctx slot d : Nat) : (s.retires ctx slot).die d = { s.die d with queues := (s.die d).queues.map fun _ u => u.without ctx } := get_map _ rfl
theorem uq_retires (s : State) (ctx slot d q : Nat) : (s.retires ctx slot).uq d q = (s.uq d q).without ctx := by
  rw [State.uq, die_retires]
  exact get_map _ (UQueue.default_without ctx)
theorem ctxDw_retires (s : State) (ctx slot n off : Nat) : (s.retires ctx slot).ctxDw n off = s.ctxDw n off := by
  have hpa : (s.retires ctx slot).ctxPa n = s.ctxPa n := by rw [State.ctxPa, die_retires, State.ctxPa]
  have hbytes : ∀ pa k, (s.retires ctx slot).unitBytes pa k = s.unitBytes pa k := unitBytes_congr rfl
  rw [State.ctxDw, hpa, State.unitRd, hbytes, State.ctxDw, State.unitRd]
theorem ctxRetire_idle {s : State} {slot : Nat} (h : (s.ctxDw slot 0).toNat / 2 ^ 16 % 2 = 0) : s.ctxRetire slot = s :=
  if_pos (by rw [fld_eq, show (s.ctxDw slot 0).toNat / 2 ^ 16 % 2 ^ 1 = 0 from h]; rfl)
section
variable {s : State} {slot : Nat}
theorem ctxRetire_rest (hlive : (s.ctxDw slot 0).toNat / 2 ^ 16 % 2 = 1) (hretiring : s.retiring = [])
    (hlaunches : ∀ L ∈ s.launches, L.ctx ≠ (s.ctxDw slot 0).toNat % 2 ^ 16) :
    s.ctxRetire slot = (s.retires ((s.ctxDw slot 0).toNat % 2 ^ 16) slot).retireRest slot := by
  have hgo : (fld (s.ctxDw slot 0) 16 1 = 0 || s.retiring.contains slot) = false := by
    rw [fld_eq, show (s.ctxDw slot 0).toNat / 2 ^ 16 % 2 ^ 1 = 1 from hlive, hretiring]
    rfl
  have hover : (s.launches.any fun L => L.ctx = (s.ctxDw slot 0).toNat % 2 ^ 16) = false := by
    rw [List.any_eq_false]
    intro L hL
    rw [decide_eq_false (hlaunches L hL)]
    decide
  rw [State.ctxRetire, if_neg (by rw [hgo]; decide)]
  show State.retireOn { (s.queuesOff ((s.ctxDw slot 0).toNat % 2 ^ 16)).endCtxLaunches ((s.ctxDw slot 0).toNat % 2 ^ 16) (-6) with retiring := s.retiring ++ [slot] } = _
  have hend : (s.queuesOff ((s.ctxDw slot 0).toNat % 2 ^ 16)).endCtxLaunches ((s.ctxDw slot 0).toNat % 2 ^ 16) (-6)
      = s.queuesOff ((s.ctxDw slot 0).toNat % 2 ^ 16) := endCtxLaunches_none (-6) hlaunches
  rw [hend, hretiring]
  show State.retireOn (s.retires ((s.ctxDw slot 0).toNat % 2 ^ 16) slot) = _
  rw [State.retireOn, show (s.retires ((s.ctxDw slot 0).toNat % 2 ^ 16) slot).retiring = [slot] from rfl, List.foldl_cons, List.foldl_nil]
  have hdw := ctxDw_retires s ((s.ctxDw slot 0).toNat % 2 ^ 16) slot slot 0
  rw [hdw]
  exact if_neg (by rw [show (s.retires ((s.ctxDw slot 0).toNat % 2 ^ 16) slot).launches = s.launches from rfl, fld_low, hover]; decide)
end
/-- The state at the end of a retirement: the slot is freed and the event posted. -/
def State.closed (s : State) (slot : Nat) : State := (s.slotFreed slot).post 0 2 0 0x0406 slot
theorem closed_fields (s : State) (slot : Nat) : ∃ M P D, s.closed slot = { s with mem := M, poison := P, dies := D } := by
  obtain ⟨M, P, h⟩ := slotFreed_fields s slot
  obtain ⟨M2, P2, D, h2⟩ := post_fields (s.slotFreed slot) 0 2 0 0x0406 slot
  exact ⟨M2, P2, D, by rw [State.closed, h2, h]⟩
theorem closed_die (s : State) (slot d : Nat) : ∃ Q E, (s.closed slot).die d = { s.die d with seqs := Q, evput := E } := by
  obtain ⟨M, P, h⟩ := slotFreed_fields s slot
  obtain ⟨Q, E, h2⟩ := post_die (s.slotFreed slot) 0 2 0 0x0406 slot d
  exact ⟨Q, E, by rw [State.closed, h2, h]; rfl⟩
end Sys2Proof.Machine
end

section
/-! The statement on clearing and retiring. -/
set_option Elab.async false
open Sys2Proof Sys2Proof.Machine Sys2Proof.Spec
namespace Sys2Proof.Proofs
theorem clearAndRetire_holds : clearAndRetire := by
  intro s n hn a w ctx
  refine ⟨fun hwf _ hhole => ?_, ctxRetire_idle, fun hlive h0 hretiring hlaunches => ?_⟩
  · obtain ⟨hword, hrd⟩ := ctxCleared_sets hwf hhole
    obtain ⟨M, P, hfields⟩ := ctxCleared_fields s n
    have hcore (k : Nat) : (s.ctxCleared n).core k = s.core k := by rw [hfields]; rfl
    intro t
    have ht : t = (s.ctxCleared n).thaw ctx := ctxClear_eq s n
    rw [ht]
    refine ⟨?_, fun k hk => thaw_lets_go hk, fun k hk => ?_, hrd⟩
    · exact hword.trans (putFld_cleared w)
    · rw [thaw_other (by rwa [hcore]), hcore]
  · let u := s.retires ctx n
    let v := u.wiped ctx (u.wipes ctx)
    have hctx : (u.ctxDw n 0).toNat % 2 ^ 16 = ctx := by rw [ctxDw_retires]
    intro t
    have ht : t = (v.dropped ctx n).closed n := by
      show s.ctxRetire n = _
      rw [ctxRetire_rest hlive hretiring hlaunches, retireRest_eq, hctx]
      rfl
    obtain ⟨M, P, D, hfields⟩ := closed_fields (v.dropped ctx n) n
    obtain ⟨hdies, hret⟩ := wiped_rest u ctx (u.wipes ctx)
    have hdie (d : Nat) : ∃ Q E, t.die d = { (v.dropped ctx n).die d with seqs := Q, evput := E } := by rw [ht]; exact closed_die ..
    have htcore (k : Nat) : t.core k = (v.dropped ctx n).core k := by rw [ht, hfields]; rfl
    refine ⟨?_, fun k hk => ?_, fun d q => ?_, fun i => ?_, fun d => ?_, fun k e he => ?_, fun g => ?_⟩
    · rw [ht, hfields]
      show v.retiring.filter (· ≠ n) = []
      rw [hret]
      simp [u, State.retires]
    · obtain ⟨hgone, hsaved⟩ := wiped_gone h0 (wipes_or_gone u h0 hk)
      refine ⟨by rw [htcore, core_dropped]; exact hgone, ?_, fun hheld => ?_⟩
      · rw [ht, hfields]
        show (v.savedCores.get? (savedKey ctx k)).isSome = false
        rw [hsaved]
        rfl
      · have hmem : k ∈ u.wipes ctx := by
          refine (wipes_or_gone u h0 hk).resolve_right fun hg => ?_
          have hnone : s.savedCores.get? (savedKey ctx k) = none := hg.2
          rw [State.heldSave, hnone] at hheld
          cases hheld
        rw [ht, hfields]
        exact savedFrames_dropped v ctx n (wiped_frames (.inl hmem))
    · have huq : t.uq d q = (s.uq d q).without ctx := by
        obtain ⟨Q, E, hd⟩ := hdie d
        rw [State.uq, hd]
        show (v.dropped ctx n).uq d q = _
        rw [dropped_uq, State.uq, State.die, hdies]
        exact uq_retires s ctx n d q
      rw [huq]
      exact UQueue.without_enable
    · have hqueue : t.squeue i = (v.squeue i).without ctx := by
        rw [ht, hfields]
        exact squeue_dropped v ctx n i
      rw [hqueue]
      exact SQueue.without_enable
    · obtain ⟨Q, E, hd⟩ := hdie d
      rw [hd, die_dropped]
      exact ⟨Die.without_fl, fun e he => of_decide_eq_true (List.mem_filter.mp he).2, fun e he => of_decide_eq_true (List.mem_filter.mp he).2,
        fun e he => ctx_of_mem_filter_within he⟩
    · rw [htcore, core_dropped] at he
      exact ctx_of_mem_filter_within he
    · have hgroup : t.group g = (v.group g).without ctx := by
        rw [ht, hfields]
        exact group_dropped v ctx n g
      rw [hgroup]
      exact Group.without_state
end Sys2Proof.Proofs
end

section
/-! Acts of masters: descriptors, walk images, scheduling, clearing, unfreezing, and accesses of host functions (R362, R367, R370, R382, R383,
R393 to R395, R403, R414). -/
set_option Elab.async false
open Sys2Proof Sys2Proof.Spec
namespace Sys2Proof.Machine

/-! ### Queue descriptors and the free list (R336, R383) -/

theorem acts_queueDesc {s t : State} {d q : Nat} {off : BitVec 6} {v : Word} (hd : d < 6) (hq : q < 64) (h : s.uqWrite d q off.toNat v = t) :
    Acts (.userQueueDescWrite d q off v) s t :=
  acts_of_unitAct (exec_userQueueDescWrite ..) ((if_pos (by rw [decide_eq_true hd, decide_eq_true hq]; rfl)).trans h)
theorem acts_freeList {s t : State} {d : Nat} {off : BitVec 12} {v : Word} (hd : d < 6) (h : s.flWrite d off.toNat v = t) :
    Acts (.freeListRegWrite d off v) s t :=
  acts_of_unitAct (exec_freeListRegWrite ..) ((if_pos hd).trans h)
theorem uqWrite_on {s : State} {d q off : Nat} {v : Word} (hon : (s.uq d q).enable = true) (hoff : off ≠ 8) : s.uqWrite d q off v = s := by
  dsimp only [State.uqWrite]
  rw [if_pos hon, decide_eq_false hoff]
  rfl
theorem uqWrite_off {s : State} {d q : Nat} (v : Word) (hoff : (s.uq d q).enable = false) :
    s.uqWrite d q 0 v = s.setUq d q { s.uq d q with ring := v } ∧ s.uqWrite d q 0x10 v = s.setUq d q { s.uq d q with limit := v.toNat % 2 ^ 48 } :=
  ⟨if_neg (by rw [hoff]; decide), if_neg (by rw [hoff]; decide)⟩
theorem flWrite_on {s : State} {d off : Nat} {v : Word} (hon : (s.die d).fl.enable = true) (hoff : off ≠ 8) : s.flWrite d off v = s := by
  dsimp only [State.flWrite]
  rw [if_pos hon, decide_eq_false hoff]
  rfl
theorem flWrite_off {s : State} {d : Nat} (v : Word) (hoff : (s.die d).fl.enable = false) :
    let set (l : FreeList) : State := s.updDie d fun x => { x with fl := l }
    s.flWrite d 0 v = set { (s.die d).fl with stack := v } ∧
    s.flWrite d 8 v = set { (s.die d).fl with enable := v.getLsbD 63, ctx := v.toNat / 2 ^ 32 % 2 ^ 16, cap := v.toNat % 2 ^ 32 } ∧
    s.flWrite d 0x10 v = set { (s.die d).fl with vbase := v } := by
  have henable : decide (fld v 63 1 = 1) = v.getLsbD 63 := by simp [fld_one_eq]
  refine ⟨if_neg (by rw [hoff]; decide), (if_neg (by rw [hoff]; decide)).trans ?_, if_neg (by rw [hoff]; decide)⟩
  rw [henable, fld_eq v 32 16]
  rfl

/-! ### Walk images and TLBW by the host (R167, R370, R375) -/

theorem acts_wfgo {s t : State} {d : Nat} (hd : d < 6) (h : s.wfGo d = t) : Acts (.wfgo d) s t :=
  acts_of_unitAct (exec_wfgo ..) ((if_pos hd).trans h)
theorem wfGo_eq (s : State) (d : Nat) :
    s.wfGo d = s.updDie d fun v => if nfld v.assist 1 1 = 1 then { v with wfbusy := true } else { v with wfstat := 2 } := rfl
/-- A load that ends takes effect or does not. -/
theorem walkImageLoadDone_cases {s : State} {d : Nat} (hmain : s.main = true) (hbusy : (s.die d).wfbusy = true) :
    let v := s.die d
    let img := s.rdBytes v.wfbase (fld v.wfsize 0 17)
    exec (.walkImageLoadDone d) s = .next (s.updDie d fun v => { v with wfbusy := false, wfstat := 3 }) ∨
    exec (.walkImageLoadDone d) s = .next (s.updDie d fun v => { v with
      wfbusy := false, wfstat := 1, walkImg := some img, walkEntry := fld v.wfsize 32 16, attest := extendLog v.attest (sha3 img) }) := by
  rw [exec_walkImageLoadDone, execWalkImageLoadDone, unitAct_up hmain]
  dsimp only
  rw [hbusy, if_neg (by decide)]
  split
  · exact .inl rfl
  · exact .inr rfl

/-! ### Scheduling by the host, and stopped frames (R403, R414) -/

section
variable {s t : State} {d c f : Nat} (hd : d < 6) (hc : c < 768)
include hd hc
theorem acts_schedout (h : s.schedOut (768 * d + c) = t) : Acts (.schedout d c) s t :=
  acts_of_unitAct (exec_schedout ..) ((if_pos (by rw [decide_eq_true hd, decide_eq_true hc]; rfl)).trans h)
theorem acts_freefFrame (hf : f < 8) (h : s.freeStopped (768 * d + c) f = t) : Acts (.freefFrame d c f) s t :=
  acts_of_unitAct (exec_freefFrame ..) ((if_pos (by rw [decide_eq_true hd, decide_eq_true hc, decide_eq_true hf]; rfl)).trans h)
theorem acts_freefBivouac (h : s.freeStopped (768 * d + c) 8 = t) : Acts (.freefBivouac d c) s t :=
  acts_of_unitAct (exec_freefBivouac ..) ((if_pos (by rw [decide_eq_true hd, decide_eq_true hc]; rfl)).trans h)
end
section
variable {s : State} {k : Nat}
theorem schedOut_none (h : (s.core k).ctxid = 0 ∨ s.savePa (s.core k).ctxid k = none ∨ s.runs k = none) :
    s.schedOut k = s.updCore k fun c => { c with leave := false } := by
  refine if_pos ?_
  rcases h with h | h | h <;> simp [h]
theorem schedOut_some (hk : k < 4608) (hctx : (s.core k).ctxid ≠ 0) (hsave : s.savePa (s.core k).ctxid k ≠ none) (hruns : s.runs k ≠ none) :
    s.schedOut k = if s.mayLeave k then s.preempt k else s.updCore k fun c => { c with leave := true } := by
  refine if_neg ?_
  simp [hctx, Option.isNone_iff_eq_none, hsave, hruns, hk]
theorem writeRecord_fields (s : State) (ctx k : Nat) : ∃ M P, s.writeRecord ctx k = { s with mem := M, poison := P } := by
  unfold State.writeRecord
  split
  · have store {u : State} (pa : Nat) (l : List (BitVec 8)) (h : ∃ M P, u = { s with mem := M, poison := P }) :
        ∃ M P, u.unitStore pa l = { s with mem := M, poison := P } := by
      obtain ⟨M, P, rfl⟩ := h
      exact unitStore_fields ..
    exact store _ _ (store _ _ (store _ _ (store _ _ (unitStore_fields ..))))
  · exact ⟨s.mem, s.poison, rfl⟩
/-- The core's saved state as a pre-emption leaves it. -/
def State.savedOf (s : State) (k : Nat) : Core := { s.core k with issuing := none, leave := false, frozen := false, lastUsed := s.tick }
/-- A pre-emption saves the core, empties its frames, and writes the context's record. -/
theorem preempt_fields (s : State) (k : Nat) : ∃ M P FS W A, s.preempt k = { (({ s with
      savedCores := s.savedCores.put (savedKey (s.core k).ctxid k) (s.savedOf k), savedFrames := FS, walks := W, ans := A } : State).setCore k
        (s.core k).bare).emptied k with mem := M, poison := P, tick := s.tick + 1 } := by
  let u0 : State := ({ s with
    savedCores := s.savedCores.put (savedKey (s.core k).ctxid k) (s.savedOf k)
    savedFrames := s.savedFrames.put (savedKey (s.core k).ctxid k) ((framesOf k).filterMap fun f =>
      if (s.fr k f).stat = .free then none else some (f, if (s.fr k f).hold = .walk then { s.fr k f with hold := .no, stat := .ready } else s.fr k f))
    walks := s.walks.filter fun w => !w.who.on k
    ans := s.ans.filter fun a => !a.who.on k } : State).setCore k (s.core k).bare
  let u := u0.emptied k
  let w : State := match u.savePa (s.core k).ctxid k with
    | some r => u.unitStore (r + 0x100) (List.replicate 32 0#8)
    | none => u
  have hw : ∃ M P, w = { u with mem := M, poison := P } := by
    show ∃ M P, (match u.savePa (s.core k).ctxid k with
      | some r => u.unitStore (r + 0x100) (List.replicate 32 0#8)
      | none => u) = _
    split
    · exact unitStore_fields ..
    · exact ⟨u.mem, u.poison, rfl⟩
  obtain ⟨M, P, hw⟩ := hw
  obtain ⟨M2, P2, hheld⟩ := setHeld_fields w (s.core k).ctxid k true
  obtain ⟨M3, P3, hrecord⟩ := writeRecord_fields (w.setHeld (s.core k).ctxid k true) (s.core k).ctxid k
  have htick : u.tick = s.tick := by
    obtain ⟨F, hF⟩ := emptied_fields u0 k
    exact (congrArg State.tick hF :)
  refine ⟨M3, P3, _, _, _, show ((w.setHeld (s.core k).ctxid k true).writeRecord (s.core k).ctxid k).ticked = { u with mem := M3, poison := P3, tick := s.tick + 1 } from ?_⟩
  rw [hrecord, hheld, hw, State.ticked, ← htick]
theorem preempt_leaves (s : State) (k : Nat) : ((s.preempt k).core k).ctxid = 0 ∧ (∀ j ∈ framesOf k, ((s.preempt k).fr k j).stat = .free) ∧
    (s.preempt k).savedCores.get? (savedKey (s.core k).ctxid k) = some (s.savedOf k) := by
  obtain ⟨M, P, FS, W, A, h⟩ := preempt_fields s k
  let u : State := ({ s with
    savedCores := s.savedCores.put (savedKey (s.core k).ctxid k) (s.savedOf k), savedFrames := FS, walks := W, ans := A } : State).setCore k (s.core k).bare
  obtain ⟨F, hF⟩ := emptied_fields u k
  refine ⟨?_, fun j hj => ?_, ?_⟩
  · rw [h]
    show ((u.emptied k).core k).ctxid = 0
    rw [hF]
    exact congrArg Core.ctxid (core_setCore_self ..)
  · rw [h]
    show ((u.emptied k).fr k j).stat = .free
    rw [fr_emptied u hj]
  · rw [h]
    show (u.emptied k).savedCores.get? _ = _
    rw [hF]
    exact Tab.get?_put_self ..
theorem mem_framesOf_frame {j : Nat} (hj : j < 9) (k : Nat) : j ∈ framesOf k := by
  unfold framesOf
  split
  · exact List.mem_range.mpr (by omega)
  · exact List.mem_range.mpr hj
end

/-! ### Writes of a register page by a master (R362, R392 to R395) -/

theorem frozen_port {s : State} {m : Nat} (h : m / 2 ^ 16 = 2) : s.isFrozenM m = s.isFrozenM mMgmt := by
  have hm : isMgmt m = true := decide_eq_true h
  rw [State.isFrozenM, State.isFrozenM, if_pos hm, if_pos (by decide)]
theorem portWrite_frozen {s : State} {o : Nat} {v : Word} (h : s.isFrozenM mMgmt = true) : s.portWrite o v = s := by
  unfold State.portWrite
  rw [pageWrite_frozen o v h, ite_self, ite_self]
theorem frozen_writes_nothing {s : State} {master : BitVec 18} {pa : Nat} {v : Word} (h : s.isFrozenM master.toNat = true) :
    Acts (.registerWrite master pa v) s s := by
  intro _
  refine (exec_registerWrite ..).trans (congrArg Host.Outcome.next ?_)
  split
  next o _ =>
    by_cases hport : master.toNat / 2 ^ 16 = 2
    · rw [if_pos (show isMgmt master.toNat = true from decide_eq_true hport), portWrite_frozen (by rwa [← frozen_port hport]), ite_self]
    · rw [if_neg (show ¬isMgmt master.toNat = true from fun h => hport (of_decide_eq_true h)), pageWrite_frozen o v h, ite_self, ite_self]
  next => rfl
section
variable {s : State} {master : BitVec 18} {pa o : Nat} (v : Word) (hreg : regionOf pa = .regs o) (hown : s.isOwn pa = true)
include hreg hown
theorem acts_registerWrite (hport : master.toNat / 2 ^ 16 ≠ 2) : Acts (.registerWrite master pa v) s (s.pageWrite master.toNat o v) := by
  intro hmain
  refine (exec_registerWrite ..).trans (congrArg Host.Outcome.next ?_)
  rw [hreg]
  dsimp only
  rw [hown, if_neg (by decide), if_neg (show ¬isMgmt master.toNat = true from fun h => hport (of_decide_eq_true h)), if_pos hmain]
theorem acts_portWrite (hport : master.toNat / 2 ^ 16 = 2) (hstby : s.stby = true) :
    Acts (.registerWrite master pa v) s (s.pageWrite mMgmt o v) := by
  intro hmain
  refine (exec_registerWrite ..).trans (congrArg Host.Outcome.next ?_)
  rw [hreg]
  dsimp only
  rw [hown, if_neg (by decide), if_pos (show isMgmt master.toNat = true from decide_eq_true hport), State.portWrite, hstby, if_neg (by decide), hmain]
  rfl
end
section
variable {s t : State} {master who : BitVec 18} {slot : BitVec 8}
theorem acts_clear (h : s.pageWrite master.toNat 0x4000030 (wd (slot.toNat + 2 ^ 8)) = t) : Acts (.ctxctlClear master slot) s t :=
  acts_of_unitAct (exec_ctxctlClear ..) h
theorem acts_retire (h : s.pageWrite master.toNat 0x4000030 (wd (slot.toNat + 2 ^ 9)) = t) : Acts (.ctxctlRetire master slot) s t :=
  acts_of_unitAct (exec_ctxctlRetire ..) h
theorem acts_unfreeze (h : s.pageWrite master.toNat 0x4000028 (wd who.toNat) = t) : Acts (.unfreeze master who) s t :=
  acts_of_unitAct (exec_unfreeze ..) h
theorem driver_frontWrite {m off : Nat} {v : Word} (hdriver : m = 2 ^ 16 ∨ m = 2 ^ 16 + 64) (hfree : s.isFrozenM m = false) (hoff : off < 0x4000) :
    s.pageWrite m (0x4000000 + off) v = s.frontWrite m 0 off v :=
  (pageWrite_allowed v (d := 0) (p := 4) (q := off) (by omega) (by decide) (by omega) hfree
    (barredAt_driver hdriver fun h => absurd h (by decide))).trans (pageAct_front hoff)
theorem unfreezeBy_self (s : State) (m : Nat) : s.unfreezeBy m m = s := if_pos rfl
theorem unfreezeBy_port {m : Nat} (hdriver : m = 2 ^ 16 ∨ m = 2 ^ 16 + 64) : s.unfreezeBy m (2 ^ 17) = { s with frozenMgmt := false } := by
  rw [State.unfreezeBy, if_neg (by omega), if_pos (by decide), if_pos (driver_isDriver hdriver)]
theorem unfreezeBy_fn {m w : Nat} (hw : w / 2 ^ 16 = 1) (hne : m ≠ w) :
    s.unfreezeBy m w = { s with frozenFns := s.frozenFns.filter (· ≠ w % 128) } := by
  rw [State.unfreezeBy, if_neg hne, if_neg (by rw [fn_not_mgmt hw]; decide), if_pos (fn_isFn hw)]
  rfl
end

/-! ### Accesses of host functions (R17, R365, R393, R394, R447) -/

theorem unitRd_whole {s : State} {pa n : Nat} (h : holeIn pa n = false) : s.unitRd pa n = s.rdN pa n := by
  rw [State.unitRd, State.unitBytes, if_neg (by rw [h]; decide)]
  rfl
/-- An access below 2^56 of host function `f`, at the place `a` it names: the parts of `execHostLinkAccess` after its link. -/
def State.fnAccess (s : State) (f a pa n : Nat) (wr : Bool) (v : Word) : State :=
  let m := mFn f
  let mem (a : Nat) : State := if wr then s.store a (bytesOf n v.toNat) else s.answer m a (s.unitRd a n)
  let ones (s : State) : State := if wr then s else s.answer m a (2 ^ (8 * n) - 1)
  if s.frozenFns.contains f then ones s
  else if holeIn a n then ones (s.violation m a)
  else match regionOf a with
    | .main _ => mem a
    | .sram _ _ => if f % 64 ≠ 0 then ones (s.violation m a) else mem a
    | .regs o =>
      if wr then (if n = 8 && pa % 8 = 0 then s.pageWrite m o v else if s.masterBarred m o then s.violation m a else s)
      else if s.fnReadBad f o then ones (s.violation m a)
      else s.answer m a (if n = 8 && pa % 8 = 0 then (s.regRead o).toNat else 0)
    | _ => ones (s.violation m a)
section
variable {s : State} {fn pa size : Nat} {wr : Bool} {v : Word} (hfn : fn < 128) (hsize : size ≤ 8)
include hfn hsize
theorem acts_hostOwn (hpa : pa ≥ 2 ^ 56) :
    Acts (.hostLinkAccess fn wr pa size v) s (if wr then s.store pa (bytesOf size v.toNat) else s.answer (mFn fn) pa (s.unitRd pa size)) := by
  intro hmain
  rw [exec_hostLinkAccess, execHostLinkAccess, unitAct_up hmain]
  extract_lets f m a n mem ones
  have hf : f = fn := Nat.mod_eq_of_lt hfn
  have hn : n = size := Nat.min_eq_left hsize
  have hm : m = mFn fn := congrArg mFn hf
  rw [if_pos hpa, hn, hm]
omit hsize in
theorem acts_linkDown (hpa : pa < 2 ^ 56) (hlink : fn / 64 ∉ s.linkUp) : Acts (.hostLinkAccess fn wr pa size v) s s := by
  intro hmain
  rw [exec_hostLinkAccess, execHostLinkAccess, unitAct_up hmain]
  extract_lets f m a n mem ones
  have hf : f = fn := Nat.mod_eq_of_lt hfn
  rw [if_neg (Nat.not_le.mpr hpa), hf, if_pos (by simpa using hlink)]
theorem acts_fnAccess (hpa : pa < 2 ^ 56) (hlink : fn / 64 ∈ s.linkUp) :
    Acts (.hostLinkAccess fn wr pa size v) s (s.fnAccess fn (s.pkg * 2 ^ 40 + pa % 2 ^ 40) pa size wr v) := by
  intro hmain
  rw [exec_hostLinkAccess, execHostLinkAccess, unitAct_up hmain]
  extract_lets f m a n mem ones
  have hf : f = fn := Nat.mod_eq_of_lt hfn
  have hn : n = size := Nat.min_eq_left hsize
  clear_value f n
  subst hf hn
  rw [if_neg (Nat.not_le.mpr hpa), if_neg (by simpa using hlink)]
  show _ = Host.Outcome.next (s.fnAccess f a pa n wr v)
  unfold State.fnAccess
  generalize regionOf a = r
  cases r <;> rfl
end
section
variable {s : State} {f a pa n : Nat} {wr : Bool} {v : Word}
theorem fnAccess_frozen (h : f ∈ s.frozenFns) :
    s.fnAccess f a pa n wr v = if wr then s else s.answer (mFn f) a (2 ^ (8 * n) - 1) := if_pos (by simpa using h)
section
variable (hfree : f ∉ s.frozenFns)
include hfree
theorem fnAccess_hole (hhole : holeIn a n = true) : s.fnAccess f a pa n wr v =
    if wr then s.violation (mFn f) a else (s.violation (mFn f) a).answer (mFn f) a (2 ^ (8 * n) - 1) := by
  rw [State.fnAccess, if_neg (by simpa using hfree), if_pos hhole]
variable (hhole : holeIn a n = false)
include hhole
theorem fnAccess_main {d : Nat} (hreg : regionOf a = .main d) : s.fnAccess f a pa n wr v =
    if wr then s.store a (bytesOf n v.toNat) else s.answer (mFn f) a (s.rdN a n) := by
  rw [State.fnAccess, if_neg (by simpa using hfree), if_neg (by rw [hhole]; decide), hreg]
  dsimp only
  rw [unitRd_whole hhole]
theorem fnAccess_pool {k o : Nat} (hreg : regionOf a = .sram k o) : s.fnAccess f a pa n wr v =
    if f % 64 ≠ 0 then (if wr then s.violation (mFn f) a else (s.violation (mFn f) a).answer (mFn f) a (2 ^ (8 * n) - 1))
    else if wr then s.store a (bytesOf n v.toNat) else s.answer (mFn f) a (s.rdN a n) := by
  rw [State.fnAccess, if_neg (by simpa using hfree), if_neg (by rw [hhole]; decide), hreg]
  dsimp only
  rw [unitRd_whole hhole]
theorem fnAccess_register {o : Nat} (hreg : regionOf a = .regs o) (hn : n = 8) (hpa : pa % 8 = 0) : s.fnAccess f a pa n wr v =
    if wr then s.pageWrite (mFn f) o v
    else if s.fnReadBad f o then (s.violation (mFn f) a).answer (mFn f) a (2 ^ (8 * n) - 1)
    else s.answer (mFn f) a (s.regRead o).toNat := by
  rw [State.fnAccess, if_neg (by simpa using hfree), if_neg (by rw [hhole]; decide), hreg]
  simp only [hn, hpa, decide_true, Bool.and_self, if_true]
  cases wr <;> rfl
end
end
end Sys2Proof.Machine
end

section
/-! The statement on what masters may do, and the whole. -/
set_option Elab.async false
open Sys2Proof Sys2Proof.Machine Sys2Proof.Spec
namespace Sys2Proof.Proofs
theorem masterActs_holds : masterActs := by
  intro s die q core f fn pa size off fo v master who slot hdie hq V u l setL m driver frozen a fnm
  refine ⟨fun hoff => ?_, fun hon h8 => acts_queueDesc hdie hq (uqWrite_on hon fun h => h8 (BitVec.eq_of_toNat_eq h)),
    fun hoff => ?_, fun hon h8 => acts_freeList hdie (flWrite_on hon fun h => h8 (BitVec.eq_of_toNat_eq h)), fun hassist => ?_, fun hassist => ?_,
    fun hbusy => ?_, fun hbusy hmain => ?_, fun va e c t h0 h1 h2 h3 => ?_, fun hc => ?_, fun hfrozen => ?_, fun o hreg hown hport => acts_registerWrite v hreg hown hport,
    fun o hreg hown hport hstby => acts_portWrite v hreg hown hport hstby, fun hfree hdriver => ?_, fun hctx => ?_, fun hfn => ?_⟩
  · obtain ⟨hring, hlimit⟩ := uqWrite_off v hoff
    exact ⟨acts_queueDesc hdie hq hring, acts_queueDesc hdie hq hlimit⟩
  · obtain ⟨hstack, hword, hbase⟩ := flWrite_off v hoff
    exact ⟨acts_freeList hdie hstack, acts_freeList hdie hbase, acts_freeList hdie hword⟩
  · exact acts_wfgo hdie (congrArg (s.setDie die) (if_pos hassist))
  · exact acts_wfgo hdie (congrArg (s.setDie die) (if_neg (by rw [hassist]; decide)))
  · exact acts_of_unitAct (exec_walkImageLoadDone ..) (if_pos (by rw [hbusy]; rfl))
  · rcases walkImageLoadDone_cases hmain hbusy with h | h
    · refine ⟨_, h, ?_⟩
      rw [updDie_eq, die_setDie_self]
      exact ⟨rfl, rfl, .inr ⟨rfl, rfl⟩⟩
    · refine ⟨_, h, ?_⟩
      rw [updDie_eq, die_setDie_self]
      exact ⟨rfl, rfl, .inl ⟨rfl, rfl, rfl⟩⟩
  · refine acts_of_unitAct (exec_twgo ..) ((if_pos hdie).trans ?_)
    rw [State.twGo, h0, h1, h2, h3]
    rfl
  · refine ⟨⟨fun hnone => acts_schedout hdie hc (schedOut_none hnone), fun hctx hsave hruns => ?_⟩,
      fun hf hstop => acts_freefFrame hdie hc hf (if_pos hstop), fun hf hstop => acts_freefFrame hdie hc hf (if_neg hstop),
      fun hstop => acts_freefBivouac hdie hc (if_pos hstop)⟩
    have hsched := schedOut_some (show 768 * die + core < 4608 by omega) hctx hsave hruns
    refine ⟨fun hstay => acts_schedout hdie hc (hsched.trans (if_neg (by rw [hstay]; decide))), fun hleave => ?_⟩
    obtain ⟨hcore, hframes, hsaved⟩ := preempt_leaves s (768 * die + core)
    exact ⟨acts_schedout hdie hc (hsched.trans (if_pos hleave)), hcore, fun j hj => hframes j (mem_framesOf_frame hj _), hsaved⟩
  · exact ⟨frozen_writes_nothing hfrozen, acts_clear (pageWrite_frozen _ _ hfrozen), acts_retire (pageWrite_frozen _ _ hfrozen),
      acts_unfreeze (pageWrite_frozen _ _ hfrozen)⟩
  · have hfree : s.isFrozenM m = false := Bool.eq_false_iff.mpr hfree
    have hslot := slot.isLt
    have hwho := who.isLt
    have hunfreeze : s.pageWrite m 0x4000028 (wd who.toNat) = s.unfreezeBy m who.toNat := by
      refine (driver_frontWrite (off := 0x28) hdriver hfree (by decide)).trans ?_
      show s.unfreezeBy m (fld (wd who.toNat) 0 18) = _
      rw [fld_low, wd, BitVec.toNat_ofNat, Nat.mod_eq_of_lt (show who.toNat < 2 ^ 64 by omega), Nat.mod_eq_of_lt hwho]
    refine ⟨acts_clear ?_, acts_retire ?_, fun hw => acts_unfreeze (hunfreeze.trans ?_), fun hw => acts_unfreeze (hunfreeze.trans ?_),
      fun hlo hhi hne => acts_unfreeze (hunfreeze.trans (unfreezeBy_fn (by omega) fun h => hne (BitVec.eq_of_toNat_eq h.symm)))⟩
    · have hword : (wd (slot.toNat + 2 ^ 8)).toNat = slot.toNat + 2 ^ 8 := by rw [wd, BitVec.toNat_ofNat, Nat.mod_eq_of_lt (by omega)]
      refine (driver_frontWrite (off := 0x30) hdriver hfree (by decide)).trans ((frontWrite_clear (by rw [hword]; omega)).trans ?_)
      rw [hword, show (slot.toNat + 2 ^ 8) % 256 = slot.toNat by omega]
    · have hword : (wd (slot.toNat + 2 ^ 9)).toNat = slot.toNat + 2 ^ 9 := by rw [wd, BitVec.toNat_ofNat, Nat.mod_eq_of_lt (by omega)]
      refine (driver_frontWrite (off := 0x30) hdriver hfree (by decide)).trans ((frontWrite_retire (driver_not_mgmt hdriver) (by rw [hword]; omega)).trans ?_)
      rw [hword, show (slot.toNat + 2 ^ 9) % 256 = slot.toNat by omega]
    · rw [hw]
      exact unfreezeBy_port hdriver
    · subst hw
      exact unfreezeBy_self ..
  · have hfree : s.isFrozenM m = false := by
      rw [State.isFrozenM, if_neg (by rw [ctx_not_mgmt hctx]; decide), if_neg (by rw [ctx_not_fn hctx]; decide)]
    exact acts_clear (pageWrite_violates _ hfree (masterBarred_ctx hctx (by decide)))
  · intro writes reads violates hsize
    refine ⟨fun hpa hhole => ⟨acts_hostOwn hfn hsize hpa, ?_⟩, fun hpa => ⟨fun hlink wr => acts_linkDown hfn hpa hlink, fun hfrozen hlink => ?_,
      fun hfree hlink => ⟨fun ⟨d, hreg⟩ hhole => ?_, fun k o hreg hhole => ?_, fun o hreg hhole h8 haligned => ?_, fun hhole => ?_⟩⟩⟩
    · have h := acts_hostOwn (s := s) (wr := false) (v := v) hfn hsize hpa
      rwa [if_neg (by decide), unitRd_whole hhole] at h
    all_goals
      have hgo (wr : Bool) {t : State} (h : s.fnAccess fn a pa size wr v = t) : Acts (.hostLinkAccess fn wr pa size v) s t :=
        h ▸ acts_fnAccess hfn hsize hpa hlink
    · exact ⟨hgo true (fnAccess_frozen hfrozen), hgo false (fnAccess_frozen hfrozen)⟩
    · exact ⟨hgo true (fnAccess_main hfree hhole hreg), hgo false (fnAccess_main hfree hhole hreg)⟩
    · have h (wr : Bool) := fnAccess_pool (pa := pa) (wr := wr) (v := v) hfree hhole hreg
      exact ⟨fun hn => ⟨hgo true ((h true).trans (if_pos hn)), hgo false ((h false).trans (if_pos hn))⟩,
        fun h0 => ⟨hgo true ((h true).trans (if_neg (not_not.mpr h0))), hgo false ((h false).trans (if_neg (not_not.mpr h0)))⟩⟩
    · have h (wr : Bool) := fnAccess_register (wr := wr) (v := v) hfree hhole hreg h8 haligned
      have hread := h false
      rw [h8, if_neg (by decide)] at hread
      refine ⟨hgo true (h true), fun hbad => hgo false ?_, fun hbad => hgo false ?_⟩
      · rw [h8, hread, if_pos hbad]
        rfl
      · rw [h8, hread, if_neg (by rw [hbad]; decide)]
        rfl
    · exact ⟨hgo true (fnAccess_hole hfree hhole), hgo false (fnAccess_hole hfree hhole)⟩
/-- Settles O56, by what each master's act writes, the branches of a register page's write, and the fields a clearing and a retirement leave. -/
theorem masterEvents : Obligations.MasterEvents := ⟨masterActs_holds, registerPages_holds, clearAndRetire_holds⟩
end Sys2Proof.Proofs
end
